-- ==== Sys2Proof/Word.lean ====
section
/-! DEFINITION. The plain data the commands carry: words, the slot formats of Table 2.4, message headers
(Tables 7.6 and 13.4) and the small enumerations the commands name. Types only; nothing here computes. -/

namespace Sys2Proof

abbrev Byte := BitVec 8
abbrev Word16 := BitVec 16
abbrev Word32 := BitVec 32
abbrev Word64 := BitVec 64

/-- A byte string, lowest address first (R2). -/
abbrev Bytes := List (BitVec 8)

/-- A logical Deckle core: Vat 0-63 and core 0-15 of the Vat (R9, CORE_ID of Table 2.9). -/
structure CoreId where
  vat  : BitVec 6
  core : BitVec 4
deriving DecidableEq, Repr

/-- The other three slots of the instruction word, in increasing slot number, as raw 32-bit values. -/
structure Companions where
  o1 : BitVec 32
  o2 : BitVec 32
  o3 : BitVec 32
deriving DecidableEq, Repr

/-- Format SR (Table 2.4), slot 0. -/
structure SR where
  xd    : BitVec 5
  xs1   : BitVec 5
  xs2   : BitVec 5
  imm10 : BitVec 10
deriving DecidableEq, Repr

/-- Format SI (Table 2.4), slot 0. -/
structure SI where
  xd    : BitVec 5
  xs1   : BitVec 5
  imm15 : BitVec 15
deriving DecidableEq, Repr

/-- Format SB (Table 2.4), slot 0; for BANY and BNONE the xs1 field is [24:23] reserved, [22:20] Pn. -/
structure SB where
  xs1   : BitVec 5
  xs2   : BitVec 5
  off15 : BitVec 15
deriving DecidableEq, Repr

/-- Format SJ (Table 2.4), slot 0. -/
structure SJ where
  off25 : BitVec 25
deriving DecidableEq, Repr

/-- Format VR (Table 2.4), slots 1 and 2. -/
structure VR where
  etype : BitVec 4
  wd    : BitVec 5
  wa    : BitVec 5
  wb    : BitVec 5
  mod   : BitVec 3
  zm    : BitVec 1
  pg    : BitVec 3
deriving DecidableEq, Repr

/-- Format VI (Table 2.4), slots 1 and 2. -/
structure VI where
  etype : BitVec 4
  wd    : BitVec 5
  wa    : BitVec 5
  imm8  : BitVec 8
  zm    : BitVec 1
  pg    : BitVec 3
deriving DecidableEq, Repr

/-- Format MI (Table 2.4), slot 3. -/
structure MI where
  sz    : BitVec 2
  xd    : BitVec 5
  xb    : BitVec 5
  off14 : BitVec 14
deriving DecidableEq, Repr

/-- Format MV (Table 2.4), slot 3. -/
structure MV where
  pg    : BitVec 3
  wd    : BitVec 5
  xb    : BitVec 5
  off13 : BitVec 13
deriving DecidableEq, Repr

/-- Format MS (Table 2.4), slot 3. -/
structure MS where
  sn    : BitVec 4
  reg   : BitVec 5
  pg    : BitVec 3
  imm14 : BitVec 14
deriving DecidableEq, Repr

/-- Format MX (Table 2.4), slot 3. -/
structure MX where
  rd   : BitVec 5
  rs1  : BitVec 5
  rs2  : BitVec 5
  func : BitVec 11
deriving DecidableEq, Repr

/-- How the RDMA requests that carried a message went (Table 13.1): SEND operations on a reliable connection, or a feature
outside the subset: an operation that targets the module's memory, immediate data or an invalidate, another transport, or a
path MTU of 256 or 512 bytes. -/
inductive Carriage where
  | send
  | rdmaWrite
  | rdmaRead
  | atomic
  | immediate
  | invalidate
  | otherTransport
  | smallMtu
deriving DecidableEq, Repr

/-- A fabric message (Table 7.6): the module's queue pair it arrives on or leaves by, the header fields and the payload.
`rsv` is bytes 0x2C-0x3B. A message that arrives also says how it was carried, and whether a packet of it bore a CE mark. -/
structure Msg where
  qp      : BitVec 16
  by'     : Carriage := .send
  ce      : Bool := false
  type    : BitVec 8 := 0
  version : BitVec 8
  exch    : BitVec 8
  cls     : BitVec 8
  gen     : BitVec 32
  job     : BitVec 64
  src     : BitVec 16
  dst     : BitVec 16
  part    : BitVec 32
  round   : BitVec 32
  length  : BitVec 32
  seq     : BitVec 64
  value   : BitVec 32
  rsv     : BitVec 128
  crc     : BitVec 32
  payload : Bytes
deriving DecidableEq, Repr

/-- A Couch frame (Table 13.4) without its TYPE, which the command's row gives. -/
structure Frame where
  version : BitVec 8
  rsv     : BitVec 16
  length  : BitVec 32
  fseq    : BitVec 64
  ack     : BitVec 64
  gen     : BitVec 32
  crc     : BitVec 32
  payload : Bytes
deriving DecidableEq, Repr

/-- A tunnel request as it arrives (R379, Table 13.2): the message that carried it (the last one of a DOMAIN write in pieces), and
the class and source IP address of its queue pair. -/
structure TunnelReq where
  msg : Msg
  cls : BitVec 2
  ip  : BitVec 128
deriving DecidableEq, Repr

/-- The form of a USDO request to a node (Table 15.3); the last three are outside the subset. -/
inductive Usdo where
  | expedited
  | segmented
  | bulk
  | routed
  | classical
deriving DecidableEq, Repr

/-- The dictionary paths (15, Three paths) and the Ream meter's own node (R399); the mailbox with what the host has written to
MB_REQ (Table 15.5; of a DOMAIN write in pieces, the last). -/
inductive Path where
  | can (u : Usdo)
  | mailbox (req : Bytes)
  | tunnel (r : TunnelReq)
  | meterNode (u : Usdo)
deriving DecidableEq, Repr

/-- Pulper engine types (Table 6.1). -/
inductive EngineKind where
  | decompression
  | jpeg
  | pointRecord
  | page
deriving DecidableEq, Repr

/-- Reset sources (Table 14.1) and the two internal sources of other chapters: the Vat, core or port resets open
no window of their own. -/
inductive ResetSource where
  | pwrGood
  | modRst
  | resetCold
  | warmRst
  | watchdog
  | twinFence
  | selfTest
  | readyTimeout
  | hostPerst
  | zeroise
deriving DecidableEq, Repr

/-- The release of a reset source, and how long the high level of a reset input has been held (R351). -/
structure SourceRelease where
  src    : ResetSource
  heldNs : Nat
deriving DecidableEq, Repr

/-- The conditions of R391. -/
inductive DroopCond where
  | stepEvents (die : BitVec 2)
  | longStretch (die : BitVec 2)
  | powerCap (watts : Nat)
  | inputLow (mv : Nat)
  | junction (die : BitVec 2) (celsius : Nat)
deriving DecidableEq, Repr

/-- The three ways a reel value reaches the root (R18, R290). -/
inductive ReelWrite where
  | doorbell (value : BitVec 64)
  | dictionary (path : Path) (value : BitVec 64)
  | message (m : Msg)
deriving DecidableEq, Repr

/-- The two ways a consumer reports finished batches (R221, R291). -/
inductive IndexWrite where
  | doorbell (ring : BitVec 12) (count : BitVec 64)
  | message (m : Msg)
deriving DecidableEq, Repr

/-- ATTACH_RING (Table 15.7). -/
structure RingAttach where
  flow      : BitVec 32
  base      : BitVec 64
  slotBytes : BitVec 32
  comp      : BitVec 64
  slots     : BitVec 32
  rkey      : BitVec 32
  consQpn   : BitVec 32
  standby   : BitVec 32
deriving DecidableEq, Repr

/-- One rebalance step (Table 14.7). -/
structure RebalStep where
  table    : BitVec 16
  shard    : BitVec 16
  step     : BitVec 8
  dest     : BitVec 8
  epoch    : BitVec 32
  destAddr : BitVec 64
  orchAck  : Bool
deriving DecidableEq, Repr

/-- A change of the orchestrator's maps (R134, R196): partitions (exchange, partition, new home), shards
(table, shard, new home) and flows (job's flow, new home). -/
structure RemapUpdate where
  job    : BitVec 64
  parts  : List (BitVec 4 × BitVec 32 × BitVec 14)
  shards : List (BitVec 16 × BitVec 16 × BitVec 14)
  flows  : List (BitVec 20 × BitVec 14)
deriving DecidableEq, Repr

end Sys2Proof
end

