-- ==== Sys2Proof/Syntax.lean ====
section
/-! DEFINITION. The commands of the block: one constructor per row of spec/opcode_table.json.
A Tistra row is one instruction word of a core (R33, R37): the row's own slot with the fields of Table 2.4,
and the other three slots of the word as raw 32-bit values (zero is NOP). Every other row carries the operands
the spec gives the operation or event. -/

namespace Sys2Proof

/-- One command of the block. -/
inductive Instr where
  /-- NOP (R39): Slot 0 no-operation. -/
  | nop (c : CoreId) (bits : BitVec 25) (w : Companions)
  /-- ADD (R39): Scalar add modulo 2^64 into xd. -/
  | add (c : CoreId) (f : SR) (w : Companions)
  /-- SUB (R39): Scalar subtract into xd. -/
  | sub (c : CoreId) (f : SR) (w : Companions)
  /-- MUL (R39): Low 64 bits of scalar product into xd. -/
  | mul (c : CoreId) (f : SR) (w : Companions)
  /-- MULH (R39): High 64 bits of signed product into xd. -/
  | mulh (c : CoreId) (f : SR) (w : Companions)
  /-- MULHU (R39): High 64 bits of unsigned product into xd. -/
  | mulhu (c : CoreId) (f : SR) (w : Companions)
  /-- DIV (R39): Signed quotient rounded toward zero, with defined results for divisor 0 and overflow. -/
  | div (c : CoreId) (f : SR) (w : Companions)
  /-- DIVU (R39): Unsigned quotient, all ones for divisor 0. -/
  | divu (c : CoreId) (f : SR) (w : Companions)
  /-- REM (R39): Signed remainder with the sign of xs1. -/
  | rem (c : CoreId) (f : SR) (w : Companions)
  /-- AND (R39): Scalar bitwise AND. -/
  | and (c : CoreId) (f : SR) (w : Companions)
  /-- OR (R39): Scalar bitwise OR. -/
  | or (c : CoreId) (f : SR) (w : Companions)
  /-- XOR (R39): Scalar bitwise exclusive OR. -/
  | xor (c : CoreId) (f : SR) (w : Companions)
  /-- SHL (R39): Left shift by xs2[5:0]. -/
  | shl (c : CoreId) (f : SR) (w : Companions)
  /-- SHR (R39): Logical right shift by xs2[5:0]. -/
  | shr (c : CoreId) (f : SR) (w : Companions)
  /-- SRA (R39): Arithmetic right shift by xs2[5:0]. -/
  | sra (c : CoreId) (f : SR) (w : Companions)
  /-- SLT (R39): Signed less-than compare into xd. -/
  | slt (c : CoreId) (f : SR) (w : Companions)
  /-- SLTU (R39): Unsigned less-than compare into xd. -/
  | sltu (c : CoreId) (f : SR) (w : Companions)
  /-- CLZ (R39): Count leading zero bits of xs1. -/
  | clz (c : CoreId) (f : SR) (w : Companions)
  /-- POPC (R39): Count one bits of xs1. -/
  | popc (c : CoreId) (f : SR) (w : Companions)
  /-- ADDI (R39): Add sign-extended imm15. -/
  | addi (c : CoreId) (f : SI) (w : Companions)
  /-- ANDI (R39): AND with zero-extended imm15. -/
  | andi (c : CoreId) (f : SI) (w : Companions)
  /-- ORI (R39): OR with zero-extended imm15. -/
  | ori (c : CoreId) (f : SI) (w : Companions)
  /-- XORI (R39): XOR with zero-extended imm15. -/
  | xori (c : CoreId) (f : SI) (w : Companions)
  /-- SHLI (R39): Left shift by immediate. -/
  | shli (c : CoreId) (f : SI) (w : Companions)
  /-- SHRI (R39): Logical right shift by immediate. -/
  | shri (c : CoreId) (f : SI) (w : Companions)
  /-- SRAI (R39): Arithmetic right shift by immediate. -/
  | srai (c : CoreId) (f : SI) (w : Companions)
  /-- LSI (R39): Shift xs1 left 15 and OR in imm15. -/
  | lsi (c : CoreId) (f : SI) (w : Companions)
  /-- SLTI (R39): Signed compare against sign-extended imm15. -/
  | slti (c : CoreId) (f : SI) (w : Companions)
  /-- BEQ (R37): Branch after the word if xs1 equals xs2. -/
  | beq (c : CoreId) (f : SB) (w : Companions)
  /-- BNE (R37): Branch if xs1 differs from xs2. -/
  | bne (c : CoreId) (f : SB) (w : Companions)
  /-- BLT (R37): Branch if xs1 < xs2 signed. -/
  | blt (c : CoreId) (f : SB) (w : Companions)
  /-- BGE (R37): Branch if xs1 >= xs2 signed. -/
  | bge (c : CoreId) (f : SB) (w : Companions)
  /-- BLTU (R37): Branch if xs1 < xs2 unsigned. -/
  | bltu (c : CoreId) (f : SB) (w : Companions)
  /-- BGEU (R37): Branch if xs1 >= xs2 unsigned. -/
  | bgeu (c : CoreId) (f : SB) (w : Companions)
  /-- BANY (R37): Branch if any bit of Pn is set. -/
  | bany (c : CoreId) (f : SB) (w : Companions)
  /-- BNONE (R37): Branch if no bit of Pn is set. -/
  | bnone (c : CoreId) (f : SB) (w : Companions)
  /-- JMP (R37): PC-relative jump by off25 words. -/
  | jmp (c : CoreId) (f : SJ) (w : Companions)
  /-- CALL (R37): Write link to X31 and jump PC-relative. -/
  | call (c : CoreId) (f : SJ) (w : Companions)
  /-- JR (R37): Jump to xs1, raising ALIGN if not 16-byte aligned. -/
  | jr (c : CoreId) (f : SR) (w : Companions)
  /-- CALLR (R37): Write link to xd and jump to xs1. -/
  | callr (c : CoreId) (f : SR) (w : Companions)
  /-- CSRR (R42): Read control register imm10 into xd. -/
  | csrr (c : CoreId) (f : SR) (w : Companions)
  /-- CSRW (R42): Write xs1 to control register imm10, faulting on read-only or unlisted registers. -/
  | csrw (c : CoreId) (f : SR) (w : Companions)
  /-- TRAP (R61): Raise SOFTWARE_TRAP with code imm10. -/
  | trap (c : CoreId) (f : SR) (w : Companions)
  /-- DONE (R50): Wait for tickets, streams and stores, write back the output reservation and report status to the Headbox, resuming a pre-empted item if any. -/
  | done (c : CoreId) (f : SR) (w : Companions)
  /-- ERET (R61): Firmware-only return from exception handler to EPC. -/
  | eret (c : CoreId) (f : SR) (w : Companions)
  /-- VNOP (R39): Vector slot no-operation. -/
  | vnop (c : CoreId) (slot2 : Bool) (bits : BitVec 26) (w : Companions)
  /-- VFMA (R74): Fused multiply-add wd + wa*wb rounded once under FPCTL. -/
  | vfma (c : CoreId) (f : VR) (w : Companions)
  /-- VFMS (R74): Fused multiply-subtract rounded once. -/
  | vfms (c : CoreId) (f : VR) (w : Companions)
  /-- VFMUL (R74): Floating-point multiply. -/
  | vfmul (c : CoreId) (f : VR) (w : Companions)
  /-- VFADD (R74): Floating-point add. -/
  | vfadd (c : CoreId) (f : VR) (w : Companions)
  /-- VFSUB (R74): Floating-point subtract. -/
  | vfsub (c : CoreId) (f : VR) (w : Companions)
  /-- VFMAX (R39): IEEE maximumNumber per element. -/
  | vfmax (c : CoreId) (f : VR) (w : Companions)
  /-- VFMIN (R39): IEEE minimumNumber per element. -/
  | vfmin (c : CoreId) (f : VR) (w : Companions)
  /-- VIMUL (R39): Integer multiply, low half. -/
  | vimul (c : CoreId) (f : VR) (w : Companions)
  /-- VIMAC (R39): Integer multiply-accumulate, wrapping. -/
  | vimac (c : CoreId) (f : VR) (w : Companions)
  /-- VDOT4 (R39): Four-way byte dot product into 32-bit lanes. -/
  | vdot4 (c : CoreId) (f : VR) (w : Companions)
  /-- VEACC (R77): Add active elements exactly into exact accumulator lanes. -/
  | veacc (c : CoreId) (f : VR) (w : Companions)
  /-- VESQ (R77): Add squares of active elements exactly into accumulator lanes. -/
  | vesq (c : CoreId) (f : VR) (w : Companions)
  /-- VERD (R79): Round accumulator lanes once into FP32 or FP64 elements. -/
  | verd (c : CoreId) (f : VR) (w : Companions)
  /-- VECLR (R39): Clear an exact accumulator. -/
  | veclr (c : CoreId) (f : VR) (w : Companions)
  /-- VEADD (R78): Add one exact accumulator into another lane by lane. -/
  | veadd (c : CoreId) (f : VR) (w : Companions)
  /-- VADD (R39): Integer vector add, wrapping. -/
  | vadd (c : CoreId) (f : VR) (w : Companions)
  /-- VSUB (R39): Integer vector subtract, wrapping. -/
  | vsub (c : CoreId) (f : VR) (w : Companions)
  /-- VADDS (R39): Saturating integer add. -/
  | vadds (c : CoreId) (f : VR) (w : Companions)
  /-- VSUBS (R39): Saturating integer subtract. -/
  | vsubs (c : CoreId) (f : VR) (w : Companions)
  /-- VAND (R39): Vector bitwise AND. -/
  | vand (c : CoreId) (f : VR) (w : Companions)
  /-- VOR (R39): Vector bitwise OR. -/
  | vor (c : CoreId) (f : VR) (w : Companions)
  /-- VXOR (R39): Vector bitwise XOR. -/
  | vxor (c : CoreId) (f : VR) (w : Companions)
  /-- VSHL (R39): Vector left shift by element. -/
  | vshl (c : CoreId) (f : VR) (w : Companions)
  /-- VSHR (R39): Vector logical right shift. -/
  | vshr (c : CoreId) (f : VR) (w : Companions)
  /-- VSRA (R39): Vector arithmetic right shift. -/
  | vsra (c : CoreId) (f : VR) (w : Companions)
  /-- VMIN (R39): Integer element minimum. -/
  | vmin (c : CoreId) (f : VR) (w : Companions)
  /-- VMAX (R39): Integer element maximum. -/
  | vmax (c : CoreId) (f : VR) (w : Companions)
  /-- VCMP (R39): Compare elements into a predicate, setting FP flags. -/
  | vcmp (c : CoreId) (f : VR) (w : Companions)
  /-- VSEL (R39): Select elements from wa or wb by predicate. -/
  | vsel (c : CoreId) (f : VR) (w : Companions)
  /-- VCVT (R40): Convert elements between etypes, same width, narrowing or widening. -/
  | vcvt (c : CoreId) (f : VR) (w : Companions)
  /-- VPERM (R39): Permute elements by index vector. -/
  | vperm (c : CoreId) (f : VR) (w : Companions)
  /-- VBCAST (R39): Broadcast a scalar register to every element. -/
  | vbcast (c : CoreId) (f : VR) (w : Companions)
  /-- VMOVX (R39): Move one element into a scalar register. -/
  | vmovx (c : CoreId) (f : VR) (w : Companions)
  /-- VMOVI (R39): Set every element to a sign-extended immediate. -/
  | vmovi (c : CoreId) (f : VI) (w : Companions)
  /-- VCOMPRESS (R39): Pack active elements to the low elements. -/
  | vcompress (c : CoreId) (f : VR) (w : Companions)
  /-- VEXPAND (R39): Place low elements into active positions. -/
  | vexpand (c : CoreId) (f : VR) (w : Companions)
  /-- VSCAN (R39): Prefix sum over active elements. -/
  | vscan (c : CoreId) (f : VR) (w : Companions)
  /-- VTOPK (R96): Merge new pairs into a running top-k list and write TOPKST. -/
  | vtopk (c : CoreId) (f : VR) (w : Companions)
  /-- VMERGEK (R97): Merge two top-k lists with duplicate collapse. -/
  | vmergek (c : CoreId) (f : VR) (w : Companions)
  /-- VHASH (R202): Hash elements with CRC-32C, xxHash64 or Deckle hash 64. -/
  | vhash (c : CoreId) (f : VR) (w : Companions)
  /-- PAND (R31): Predicate AND per element. -/
  | pand (c : CoreId) (f : VR) (w : Companions)
  /-- POR (R31): Predicate OR per element. -/
  | por (c : CoreId) (f : VR) (w : Companions)
  /-- PXOR (R31): Predicate XOR per element. -/
  | pxor (c : CoreId) (f : VR) (w : Companions)
  /-- PNOT (R31): Predicate NOT per element. -/
  | pnot (c : CoreId) (f : VR) (w : Companions)
  /-- PCNT (R31): Count active predicate elements into a scalar. -/
  | pcnt (c : CoreId) (f : VR) (w : Companions)
  /-- PLEN (R31): Set the first X[wa] predicate elements active. -/
  | plen (c : CoreId) (f : VR) (w : Companions)
  /-- MNOP (R39): Memory slot no-operation. -/
  | mnop (c : CoreId) (bits : BitVec 26) (w : Companions)
  /-- LD (R51): Load zero-extended scalar from memory. -/
  | ld (c : CoreId) (f : MI) (w : Companions)
  /-- LDS (R51): Load sign-extended scalar from memory. -/
  | lds (c : CoreId) (f : MI) (w : Companions)
  /-- ST (R51): Store low bytes of a scalar register. -/
  | st (c : CoreId) (f : MI) (w : Companions)
  /-- VLD (R39): Load 512 bytes into active bytes of a vector register. -/
  | vld (c : CoreId) (f : MV) (w : Companions)
  /-- VST (R307): Store active bytes of a vector register. -/
  | vst (c : CoreId) (f : MV) (w : Companions)
  /-- PLD (R39): Load a predicate from 64 bytes. -/
  | pld (c : CoreId) (f : MV) (w : Companions)
  /-- PST (R39): Store a predicate as 64 bytes. -/
  | pst (c : CoreId) (f : MV) (w : Companions)
  /-- SBIND (R44): Check a descriptor and bind a stream register to it. -/
  | sbind (c : CoreId) (f : MS) (w : Companions)
  /-- SREAD (R45): Deliver the next 512 bytes of a stream with a valid-byte mask. -/
  | sread (c : CoreId) (f : MS) (w : Companions)
  /-- SWRITE (R46): Append active elements to a write stream. -/
  | swrite (c : CoreId) (f : MS) (w : Companions)
  /-- SSKIP (R425): Advance a stream position, abandoning any planar run. -/
  | sskip (c : CoreId) (f : MS) (w : Companions)
  /-- SPOS (R425): Read a stream's element position. -/
  | spos (c : CoreId) (f : MS) (w : Companions)
  /-- SCLOSE (R47): Unbind a stream register and end its prefetching. -/
  | sclose (c : CoreId) (f : MS) (w : Companions)
  /-- VGATHER (R39): Gather elements at base plus scaled INT32 indices. -/
  | vgather (c : CoreId) (f : MX) (w : Companions)
  /-- VSCATTER (R39): Scatter active elements, highest element winning on overlap. -/
  | vscatter (c : CoreId) (f : MX) (w : Companions)
  /-- ELD (R76): Load an exact accumulator image. -/
  | eld (c : CoreId) (f : MX) (w : Companions)
  /-- EST (R76): Store an exact accumulator image. -/
  | est (c : CoreId) (f : MX) (w : Companions)
  /-- AMOADD (R41): Atomic add at the memory side returning the old value. -/
  | amoadd (c : CoreId) (f : MX) (w : Companions)
  /-- AMOMAX (R41): Atomic signed maximum. -/
  | amomax (c : CoreId) (f : MX) (w : Companions)
  /-- AMOSWAP (R41): Atomic exchange. -/
  | amoswap (c : CoreId) (f : MX) (w : Companions)
  /-- AMOCAS (R41): Atomic compare-and-swap. -/
  | amocas (c : CoreId) (f : MX) (w : Companions)
  /-- AMOFADD (R55): Atomic floating-point add, denied unless UNORDERED_OK. -/
  | amofadd (c : CoreId) (f : MX) (w : Companions)
  /-- FLUSH (R53): Write back dirty lines of a range from L1 and L2. -/
  | flush (c : CoreId) (f : MX) (w : Companions)
  /-- INVAL (R53): Drop copies of a range from L1 and L2 after write-back. -/
  | inval (c : CoreId) (f : MX) (w : Companions)
  /-- FENCE (R52): Order the core's memory operations within the Vat. -/
  | fence (c : CoreId) (f : MX) (w : Companions)
  /-- SYNC (R53): Wait until earlier memory operations are complete at the memory side. -/
  | sync (c : CoreId) (f : MX) (w : Companions)
  /-- PREF (R39): Prefetch hint for a line into L1 or L2. -/
  | pref (c : CoreId) (f : MX) (w : Companions)
  /-- UNIT (R48): Submit a command block to a unit and take a ticket. -/
  | unit (c : CoreId) (f : MX) (w : Companions)
  /-- TPOLL (R49): Return a ticket's status or pending, freeing it on completion. -/
  | tpoll (c : CoreId) (f : MX) (w : Companions)
  /-- TWAIT (R49): Wait for a ticket and return its status. -/
  | twait (c : CoreId) (f : MX) (w : Companions)
  /-- PREEMPT_REQUEST (R67): Headbox slice pre-empts a class B item to run a class A item on the core. -/
  | preemptRequest (c : CoreId) (flow : BitVec 20) (seq : BitVec 40)
  /-- RUNAHEAD_ENTRY (R64): Core enters run-ahead when a missed load has waited past the threshold. -/
  | runaheadEntry (c : CoreId) (waited : Nat)
  /-- RUNAHEAD_EXIT (R66): Awaited data arrives; run-ahead state is discarded and the word re-executes. -/
  | runaheadExit (c : CoreId)
  /-- MERGE (R81): Exact-sum merge unit sums accumulator images into DST. -/
  | merge (vat : BitVec 6)
  /-- STATS (R83): Exact-sum merge unit computes mean, variance and sigma per lane. -/
  | stats (vat : BitVec 6)
  /-- ZSCORE (R88): Sizing unit applies (x - A) / B to a column. -/
  | zscore (vat : BitVec 6)
  /-- MINMAX (R88): Sizing unit applies min-max scaling to a column. -/
  | minmax (vat : BitVec 6)
  /-- LOG1P (R88): Sizing unit applies ln(1 + x), optionally signed. -/
  | log1p (vat : BitVec 6)
  /-- CLIP (R88): Sizing unit clips a column to [C, D]. -/
  | clip (vat : BitVec 6)
  /-- TOPK (R107): Sort unit selects the best K of COUNT entries. -/
  | topk (unit : BitVec 4)
  /-- SORT_MERGE (R108): Sort unit merges NLISTS partial top-K lists. -/
  | sortMerge (unit : BitVec 4)
  /-- SORT (R109): Sort unit sorts all entries by key and index. -/
  | sort (unit : BitVec 4)
  /-- DESC_CREATE (R123): Write of 1 to a creation port CTRL validates a draft descriptor and writes it marked to DST. -/
  | descCreate (vat : BitVec 6) (core : BitVec 5) (ctrl : BitVec 32)
  /-- SAMPLES (R138): Pulper decodes, augments and optionally packs a list of samples. -/
  | samples (die : BitVec 2)
  /-- PAGE (R147): Pulper decodes Parquet data pages into Arrow layout. -/
  | page (die : BitVec 2)
  /-- ARROW (R147): Pulper decodes Arrow IPC record batches. -/
  | arrow (die : BitVec 2)
  /-- DEADLINE_EXCEEDED (R156): Under WALLTIME a decode that runs DECODE_US ticks makes its entry broke. -/
  | deadlineExceeded (die : BitVec 2) (entry : Nat)
  /-- ENGINE_RETIRE (R137): A Pulper engine failing its checkers is retired and its samples redecoded elsewhere. -/
  | engineRetire (die : BitVec 2) (kind : EngineKind)
  /-- HASHX (R207): Calender hashes keys or crosses per row. -/
  | hashx (vat : BitVec 6)
  /-- BUCKET (R209): Calender maps values to bucket numbers against boundaries. -/
  | bucket (vat : BitVec 6)
  /-- QHIST (R211): Calender builds an exact 65,536-bin histogram. -/
  | qhist (vat : BitVec 6)
  /-- QPICK (R212): Calender picks quantile boundaries from a histogram. -/
  | qpick (vat : BitVec 6)
  /-- ASSEMBLE (R214): Calender packs columns into rows under a layout record. -/
  | assemble (vat : BitVec 6)
  /-- SEAL (R218): Calender writes the batch header, broke bitmap and broke list. -/
  | seal (vat : BitVec 6)
  /-- GATHER (R235): Felt engine gathers embedding rows by index. -/
  | gather (vat : BitVec 6)
  /-- SCATTER_ADD (R238): Felt engine adds value rows exactly into combining entries. -/
  | scatterAdd (vat : BitVec 6)
  /-- SCATTER_SET (R239): Felt engine records SET proposals with order keys. -/
  | scatterSet (vat : BitVec 6)
  /-- EPOCH_CLOSE (R241): When all items of an epoch are committed, homes apply SET and ADD results to touched rows. -/
  | epochClose (table : BitVec 16)
  /-- MIGRATION_START (R246): A hot row is copied to a new home and write-through is armed. -/
  | migrationStart (table : BitVec 16) (row : Nat) (home : BitVec 56)
  /-- MIGRATION_SWITCH (R246): After the step 3 drain completes, lookups switch to the new home. -/
  | migrationSwitch (table : BitVec 16) (row : Nat)
  /-- MIGRATION_RELEASE (R246): After the step 5 drain completes, write-through ends and the old copy is freed. -/
  | migrationRelease (table : BitVec 16) (row : Nat)
  /-- MIGRATION_ABANDON (R248): A drain not complete within FELT_DRAIN_TICKS abandons the migration. -/
  | migrationAbandon (table : BitVec 16) (row : Nat)
  /-- SEARCH (R257): Watermark matcher runs the automaton over each string. -/
  | search (die : BitVec 2)
  /-- LOAD (R263): Watermark matcher loads a pattern image into banks on every die. -/
  | load (die : BitVec 2)
  /-- UPDATE (R266): Watermark matcher applies entry records to each copy of a mutable set. -/
  | update (die : BitVec 2)
  /-- UNLOAD (R264): Watermark matcher frees a set's banks unless it is in use. -/
  | unload (die : BitVec 2)
  /-- BANK_RETIRE (R261): A Watermark bank failing its checkers is retired and its strings searched again. -/
  | bankRetire (die : BitVec 2) (bank : BitVec 4)
  /-- BLOOM_PUBLISH (R180): After every partition build completes the combined Bloom filter is published. -/
  | bloomPublish (job : BitVec 64) (join : Nat) (others : Bytes)
  /-- SLURRY_SEND (R187): Slurry engine packs and sends DATA and ROUND_END messages in round order. -/
  | slurrySend (job : BitVec 64) (exch : BitVec 4) (dst : BitVec 14)
  /-- DATA (R191): Receipt of a Slurry DATA message into a receive slot and staging. -/
  | data (m : Msg)
  /-- SLURRY_STAGE_COPY (R191): A held DATA message is copied once its round's staging opens, returning the credit. -/
  | slurryStageCopy (job : BitVec 64) (exch : BitVec 4) (part : BitVec 32)
  /-- ROUND_END (R193): Receipt of ROUND_END, completing a round when all holders have ended it. -/
  | roundEnd (m : Msg)
  /-- CREDIT (R190): Receipt of credit granting messages to a source. -/
  | credit (m : Msg)
  /-- CREDIT_REQ (R190): Receipt of a request for more credits. -/
  | creditReq (m : Msg)
  /-- ROUND_DONE (R196): Receipt of ROUND_DONE, freeing the holder's retained data. -/
  | roundDone (m : Msg)
  /-- HOLDER_STATE (R345): Receipt of the lowest unconsumed round of a partition, prompting resend or source re-creation. -/
  | holderState (m : Msg)
  /-- SUBMIT_PLAUD (R272): Command ring submission of a Plaud, checked and loaded as a job. -/
  | submitPlaud (tag : BitVec 32) (image : Bytes)
  /-- ABORT_JOB (R378): Command that stops a job with CMD_ABORTED. -/
  | abortJob (tag : BitVec 32) (job : BitVec 64)
  /-- ATTACH_RING (R221): Command that attaches an egress ring to a flow and returns its ring number. -/
  | attachRing (tag : BitVec 32) (a : RingAttach)
  /-- CLASSA (R326): Host class A request run as one item of a class A flow. -/
  | classa (tag : BitVec 32) (flow : BitVec 32) (payload : Bytes) (room : BitVec 64)
  /-- INGRESS_READ (R274): Ingress reads footers and stages column chunks from tier C into reserved staging. -/
  | ingressRead (flow : BitVec 20) (seq : BitVec 40)
  /-- ITEM_CREATE (R275): Headbox creates a work item when its trigger condition holds and the window admits it. -/
  | itemCreate (flow : BitVec 20) (seq : BitVec 40)
  /-- ITEM_DISPATCH (R286): Headbox places a ready item on a core or queue. -/
  | itemDispatch (flow : BitVec 20) (seq : BitVec 40)
  /-- CORE_IDLE (R286): A core becoming idle takes the next queued item. -/
  | coreIdle (c : CoreId)
  /-- STEAL_US (R286): An item waiting STEAL_US ticks may be taken by any Vat. -/
  | stealUs (flow : BitVec 20) (seq : BitVec 40) (c : CoreId)
  /-- ITEM_RELEASE (R282): Headbox releases accepted runs in sequence order to consumers. -/
  | itemRelease (flow : BitVec 20)
  /-- BATCH_EGRESS (R282): A batch whose release reel, predecessors and ring slot allow is written to the egress ring. -/
  | batchEgress (flow : BitVec 20)
  /-- EGRESS_INDEX (R291): Consumer reports finished batches of a ring by doorbell or message. -/
  | egressIndex (i : IndexWrite)
  /-- REEL_ADVANCE (R18): An absolute reel value from the selected source raises the reel count and fires delay-list entries. -/
  | reelAdvance (r : ReelWrite)
  /-- REEL_IN_PULSE (R415): A qualified REEL_IN rising edge adds one to the reel count. -/
  | reelInPulse (highNs : Nat) (gapNs : Nat)
  /-- LEASE_EXPIRY (R341): The authority ends a lease when the reel reaches EXPIRY. -/
  | leaseExpiry (kind : BitVec 8) (object : BitVec 32)
  /-- LEASE_RENEW (R341): The holder renews its lease when the reel passes EXPIRY minus half LEASE_REELS. -/
  | leaseRenew (kind : BitVec 8) (object : BitVec 32)
  /-- LEASE_GUARD (R341): A holder without renewal stops acting at EXPIRY minus LEASE_GUARD. -/
  | leaseGuard (kind : BitVec 8) (object : BitVec 32)
  /-- CLASSA_WINDOW (R317): End of a 10 µs class A window evaluates conditions 3 and 4. -/
  | classaWindow
  /-- PATROL_SCRUB (R300): Patrol scrub reads tier A lines each SCRUB_HOURS and writes back corrected lines. -/
  | patrolScrub
  /-- ROW_SPARE (R301): A row reaching SPARE_THRESHOLD corrected errors is repaired by post-package repair. -/
  | rowSpare (row : Nat)
  /-- IDE_REKEY (R303): The SC refreshes tier B IDE keys before a counter can wrap. -/
  | ideRekey (port : BitVec 2)
  /-- TIERB_PORT_DOWN (R304): A tier B port going down stops jobs with allocations on it. -/
  | tierbPortDown (port : BitVec 2)
  /-- CNP_RECEIVE (R324): A received CNP reduces the QP send rate. -/
  | cnpReceive (qp : BitVec 16)
  /-- RATE_RECOVER (R324): After FAB_RECOVER_US without CNP the send rate rises by 5 %. -/
  | rateRecover (qp : BitVec 16)
  /-- QP_RECONNECT (R323): A QP in error after exhausted retries is reconnected and unacknowledged messages resent. -/
  | qpReconnect (qp : BitVec 16)
  /-- PORT_FAIL (R322): A failed Ethernet port's QPs move to the remaining ports. -/
  | portFail (port : BitVec 3)
  /-- CLASSA_REQ (R326): Fabric class A request run as one class A item. -/
  | classaReq (m : Msg)
  /-- CLASSA_RESP (R326): Receipt of a class A response, keeping the first. -/
  | classaResp (m : Msg)
  /-- GATHER_REQ (R327): Home module serves a remote gather request. -/
  | gatherReq (m : Msg)
  /-- GATHER_RESP (R327): Receipt of remote gather rows, keeping the first. -/
  | gatherResp (m : Msg)
  /-- FENCE_NOTICE (R339): Peer accepts or refuses a fence of a victim module. -/
  | fenceNotice (m : Msg)
  /-- FENCE_ACK (R339): Fencer records a peer's acknowledgement; the last commits the fence and starts takeover. -/
  | fenceAck (m : Msg)
  /-- FENCED (R337): A module named as fenced stops sending and takes a warm reset. -/
  | fenced (m : Msg)
  /-- FENCE_ACK_US (R339): A peer silent for FENCE_ACK_US is treated as lost and its shared jobs stop. -/
  | fenceAckUs (peer : BitVec 14)
  /-- GEN_ANNOUNCE (R337): Peer raises its accepted generation for the sender. -/
  | genAnnounce (m : Msg)
  /-- COUCH_PROBE (R338): Twin answers a fabric probe. -/
  | couchProbe (m : Msg)
  /-- COUCH_PROBE_ACK (R338): Probe answer shows the link, not the twin, failed; pair enters COUCH_DOWN. -/
  | couchProbeAck (m : Msg)
  /-- COUCH_PROBE_US (R338): No probe answer in time: role A fences, role B starts its hold. -/
  | couchProbeUs
  /-- COUCH_HOLD_B_US (R338): Role B hold expires unfenced and it fences its twin. -/
  | couchHoldBUs
  /-- TWIN_SUSPECT (R332): No good frame for COUCH_MISS_LIMIT heartbeats makes the module suspect its twin and probe. -/
  | twinSuspect
  /-- COUCH_HB_US (R332): Heartbeat interval expiry sends a HEARTBEAT frame. -/
  | couchHbUs
  /-- HEARTBEAT (R355): Receipt of a twin heartbeat; STATE BOOT from a paired twin causes an immediate fence. -/
  | heartbeat (f : Frame)
  /-- LOG (R333): Twin holds replica log records in its log area. -/
  | log (f : Frame)
  /-- LOG_APPLY (R333): Twin applies held log records to its replica in LSN order. -/
  | logApply
  /-- LOG_ACK (R333): Home learns records are held, completing waiting closes. -/
  | logAck (f : Frame)
  /-- MIRROR (R335): Twin records ring and release mirror records. -/
  | mirror (f : Frame)
  /-- MIRROR_ACK (R335): Sender learns mirror records are held, allowing slot writes. -/
  | mirrorAck (f : Frame)
  /-- FENCE_FRAME (R337): Couch FENCE frame makes the receiver stop sending and warm-reset. -/
  | fenceFrame (f : Frame)
  /-- LEASE (R341): Receipt of lease grant, renew, release or revoke records. -/
  | lease (f : Frame)
  /-- LANE (R331): Both ends stripe over the remaining Couch lanes from the next flit. -/
  | lane (f : Frame)
  /-- LANE_RETIRE (R331): A lane whose FEC error rate passes 10^-5 over 1 s is retired. -/
  | laneRetire (lane : BitVec 4)
  /-- RESYNC (R334): Receipt of records carrying whole shards into the replica. -/
  | resync (f : Frame)
  /-- ATTACH (R328): Twin exchange of identity, role, ROWSEM and generation. -/
  | attach (f : Frame)
  /-- ATTACH_GRANT (R337): Orchestrator grants a new generation and peer list through the tunnel. -/
  | attachGrant (path : Path) (gen : BitVec 32) (peers : List (BitVec 14))
  /-- DICT_READ (R372): Mailbox or tunnel or USDO read of a dictionary entry. -/
  | dictRead (path : Path) (index : BitVec 16) (sub : BitVec 8) (offset : BitVec 32)
  /-- DICT_WRITE (R373): Checked write of a dictionary entry that has no behaviour of its own. -/
  | dictWrite (path : Path) (index : BitVec 16) (sub : BitVec 8) (offset : BitVec 32) (last : Bool) (data : Bytes)
  /-- TABLE_REGISTER (R227): Register a Felt table outside any job with initial rows. -/
  | tableRegister (rec : Bytes) (rows : Option Bytes)
  /-- TABLE_DROP (R376): Free a table registered outside any job unless in use. -/
  | tableDrop (table : BitVec 16)
  /-- WM_LOAD (R263): Mailbox LOAD of a pattern set run by firmware. -/
  | wmLoad (set : BitVec 16) (copies : BitVec 8) (image : Bytes)
  /-- WM_UNLOAD (R264): Mailbox UNLOAD of a pattern set. -/
  | wmUnload (set : BitVec 16)
  /-- TIERC_READ (R306): Read tier C blocks, decrypt and write to host memory. -/
  | tiercRead (nsid : BitVec 32) (lba : BitVec 64) (blocks : BitVec 32)
  /-- TIERC_WRITE (R306): Encrypt host blocks and write them to tier C. -/
  | tiercWrite (nsid : BitVec 32) (lba : BitVec 64) (blocks : BitVec 32) (data : Bytes)
  /-- TEST_ITEM (R366): Recovery-mode test job on the recovery Vat. -/
  | testItem (image : Bytes)
  /-- REEL_QP (R290): Write selecting the queue pair accepted for REEL_ADVANCE. -/
  | reelQp (path : Path) (value : BitVec 32)
  /-- FURNISH_IMAGE (R382): Write of a signed furnish image, accepted as pending. -/
  | furnishImage (path : Path) (image : Bytes)
  /-- GRADE_IMAGE (R384): Write of a grade overlay, creating a new revision. -/
  | gradeImage (path : Path) (grade : BitVec 3) (image : Bytes)
  /-- GRADE_SCHEDULE (R385): Schedule a grade switch at a reel value. -/
  | gradeSchedule (path : Path) (value : BitVec 64)
  /-- GRADE_CANCEL (R385): Remove a pending grade switch. -/
  | gradeCancel (path : Path) (value : BitVec 64)
  /-- FW_IMAGE (R387): Stage a signed per-Vat firmware image. -/
  | fwImage (path : Path) (image : Bytes)
  /-- FW_SWAP_VAT (R387): Start a firmware swap on a Vat by draining it. -/
  | fwSwapVat (path : Path) (value : BitVec 8)
  /-- FW_SWAP_LOAD (R387): After the Vat drains, load and self-test the image and re-admit the Vat. -/
  | fwSwapLoad (selfTestOk : Bool)
  /-- FW_DRAIN_MS (R387): Drain timeout resets the Vat before the swap proceeds. -/
  | fwDrainMs
  /-- CORE_RETIRE (R10): Retire a core, substituting the spare or stopping dispatch to it. -/
  | coreRetire (path : Option Path) (value : BitVec 16)
  /-- PORT_RETIRE (R322): Retire an Ethernet port or Couch lane until power-on. -/
  | portRetire (path : Path) (value : BitVec 8)
  /-- RESET_COLD (R371): Dictionary write of COLD taking a cold reset. -/
  | resetCold (path : Path) (value : BitVec 32)
  /-- VAT_RESET (R358): Reset one Vat; its items run again uncounted. -/
  | vatReset (path : Path) (value : BitVec 8)
  /-- CORE_RESET (R359): Reset one core; its item runs again uncounted. -/
  | coreReset (path : Path) (value : BitVec 16)
  /-- PORT_RESET (R359): Reset or retrain one Ethernet, Couch, tier B or NVMe port. -/
  | portReset (path : Path) (value : BitVec 8)
  /-- FAILSTART_CLEAR (R364): Set the failed-start counter to 0. -/
  | failstartClear (path : Path) (value : BitVec 8)
  /-- PWR_GOOD (R349): PWR_GOOD low taken as a power-on reset. -/
  | pwrGood (heldNs : Nat)
  /-- PWR_SENSE_OPEN (R409): Opening PWR_SENSE stops input current and drives PWR_GOOD low. -/
  | pwrSenseOpen
  /-- MOD_RST_N (R349): MOD_RST_N low taken as a cold reset. -/
  | modRstN (heldNs : Nat)
  /-- WARM_RST_N (R354): WARM_RST_N low taken as a warm reset with its entry steps. -/
  | warmRstN (heldNs : Nat)
  /-- HOST_PERST_N (R357): Host interface reset detaching host-port rings. -/
  | hostPerstN (heldNs : Nat)
  /-- RESET_RELEASE (R353): A taken reset source is released; when all are and entry is complete the module leaves reset and starts bring-up. -/
  | resetRelease (r : SourceRelease)
  /-- WARM_ESCALATION (R354): L3 write-back not done in 10 ms widens the warm reset to cold. -/
  | warmEscalation
  /-- SELFTEST_FAILURE (R361): MC raises the self-test failure cold source. -/
  | selftestFailure (cause : BitVec 8)
  /-- READY_TIMEOUT (R362): READY not reached 120 s after the start raises a cold reset. -/
  | readyTimeout
  /-- READY (R364): Bring-up completes: READY shown, counter cleared, PUSH dispatch. -/
  | ready
  /-- WATCHDOG (R363): A missed Headbox root report within WDT_MS raises a warm reset. -/
  | watchdog
  /-- REFCLK_FAIL (R414): REFCLK out of range for 10 µs raises the self-test failure source. -/
  | refclkFail
  /-- REBALANCE_STEP (R368): A rebalance step is journalled and then takes effect for a shard. -/
  | rebalanceStep (r : RebalStep)
  /-- REBALANCE_RESUME (R369): After warm reset the rebalance resumes from the journal once paired or READY. -/
  | rebalanceResume
  /-- NMT_COMMAND (R375): CANopen NMT state command to the management node. -/
  | nmtCommand (cmd : BitVec 8) (node : BitVec 8)
  /-- CAN_HEARTBEAT (R375): Producer heartbeat period expiry sends a CAN heartbeat. -/
  | canHeartbeat
  /-- DROOP_STRETCH (R390): Rail sag below DROOP_VTH_MV switches a die to the floor clock. -/
  | droopStretch (die : BitVec 2)
  /-- STRETCH_END (R390): Rails within limits for 1 µs switch the die back to its clock. -/
  | stretchEnd (die : BitVec 2)
  /-- DROOP_STEP_DOWN (R391): Governor lowers level L by one. -/
  | droopStepDown (cond : DroopCond)
  /-- DROOP_HOLD_US (R392): A quiet hold interval raises level L by one. -/
  | droopHoldUs
  /-- PWR_DROOP_FLOOR (R394): L at 8 for 10 ms with a condition present sets DROOP_AT_FLOOR. -/
  | pwrDroopFloor
  /-- PWR_THERMAL_TRIP (R394): Junction at 110 °C or sustained overpower drives PWR_GOOD low. -/
  | pwrThermalTrip
  /-- PWR_INPUT_RANGE (R389): Tolerated input excursion reported. -/
  | pwrInputRange (mv : Nat) (ms : Nat)
  /-- DROOP_CALIBRATE (R395): Periodic class C calibration of a die's droop threshold, one Vat at a time. -/
  | droopCalibrate (die : BitVec 2) (lowest : BitVec 8)
  /-- MARGIN_WARNING (R395): In-service margin warning raises the die threshold by 5 mV. -/
  | marginWarning (die : BitVec 2)
  /-- RELEASE_REPORT (R398): Meter counts a release report's rows for its tenant and acknowledges it. -/
  | releaseReport (crcOk : Bool)
  /-- REPORT_ACK (R398): MC removes an acknowledged report from its queue. -/
  | reportAck (number : BitVec 64)
  /-- REPORT_RESEND (R398): Meter requests a report again after a bad CRC. -/
  | reportResend (number : BitVec 64)
  /-- ENERGY_STORE (R397): Meter stores ENERGY_J to non-volatile memory each second. -/
  | energyStore (joules : Nat) (seconds : Nat)
  /-- METER_SUPPLY_LOST (R397): Meter supply fails; ENERGY_J stored and logged. -/
  | meterSupplyLost
  /-- METER_SUPPLY_RESTORED (R400): Meter supply returns and is logged. -/
  | meterSupplyRestored
  /-- LID_OPENED (R399): Meter lid opening increases SEAL_BREAKS and logs. -/
  | lidOpened
  /-- LID_CLOSED (R400): Meter lid closing is logged. -/
  | lidClosed
  /-- READING (R401): Read of READING returns a new signed record with the next RSEQ. -/
  | reading (path : Path)
  /-- METER_RWS_WRITE (R399): RWS calibration write accepted on the meter node only with the switch closed. -/
  | meterRwsWrite (path : Path) (sub : BitVec 8) (value : BitVec 32)
  /-- METER_FW_IMAGE (R399): Meter firmware replacement, verified against the meter key authority. -/
  | meterFwImage (path : Path) (image : Bytes)
  /-- ZEROISE (R403): Write of ZERO erases keys, resets and scrubs tiers A and B. -/
  | zeroise (path : Path) (value : BitVec 32)
  /-- TAMPER_EVENT (R406): Detected tamper zeroises the module and records TAMPER_CAUSE. -/
  | tamperEvent (cause : BitVec 4)
  /-- DEBUG_TOKEN (R407): Verified token zeroises and opens the debug port in recovery mode. -/
  | debugToken (path : Path) (image : Bytes)
  /-- PROVISION (R405): Signed provisioning image loads owner keys and ends the zeroised state. -/
  | provision (path : Path) (image : Bytes)
  /-- REMAP (R196): The orchestrator changes the partition or shard map so that partitions, shards and flows get a new home; holders resend retained rounds there and descriptors are created again. -/
  | remap (u : RemapUpdate)
  /-- DETACH (R347): The module releases its leases, sends GEN_ANNOUNCE with its generation plus one, sets STATE DETACHING and goes idle. -/
  | detach
  /-- SLURRY_RESEND_REQUEST (R195): A holder receives a receiver's request for a resend and sends the named data again from its retained rounds. -/
  | slurryResendRequest (job : BitVec 64) (exch : BitVec 4) (dst : BitVec 14) (part : BitVec 32) (round : BitVec 32)
  /-- ADJUSTMENT_SWITCH (R399): The adjustment switch behind the meter lid opens or closes, which decides whether RWS writes on the meter node are accepted. -/
  | adjustmentSwitch (closed : Bool)
  /-- LOCAL_ACK_TIMEOUT (R321): The 4.2 ms local ACK timeout of a queue pair expires; unacknowledged packets are retransmitted and counted toward the retry count of 7. -/
  | localAckTimeout (qp : BitVec 16)
  /-- RNR_NAK (R323): Receipt of an RNR NAK by the module as requester schedules a retry of the send, without limit. -/
  | rnrNak (qp : BitVec 16)
  /-- FLIT_REFUSED (R331): A Couch flit with a bad CRC or out-of-order sequence is refused, and the sender replays go-back-N from the first unacknowledged flit. -/
  | flitRefused (seq : BitVec 64)
deriving DecidableEq, Repr

end Sys2Proof
end

