-- ==== Sys2Proof/Decode.lean ====
section
/-! DEFINITION. Words to commands. No row of the command table gives a bit encoding of its own, so no word spells a
command here; the Tistra words of a core are decoded by Machine/Operands.lean. -/

namespace Sys2Proof

/-- The command a table word spells: no row of the table gives bits (log entry 3). -/
def decodeTableWord (_nbits _w : Nat) : Option Instr := none

end Sys2Proof
end

