-- ==== Sys2Proof/Config.lean ====
section
/-! DEFINITION. What an implementation fixes and what the spec leaves open: constants without a body, so that no
proof can see a value. Cited standards (ciphers, signatures, a hash) whose content the spec does not state stand
here as functions of their inputs with plain results. -/

namespace Sys2Proof.Config

open Sys2Proof

/-! ### Free values -/

/-- A free byte: draw number and position (bytes a spec rule calls undefined, R424 and Table 6.4). -/
opaque freeByte : Nat → Nat → BitVec 8
/-- A byte of a gap in a Pulper output: the data before the gap and its offset (R21, R142: the same for the same input). -/
opaque gapByte : Bytes → Nat → BitVec 8
/-- A free 64-bit value: draw number and a distinguishing number (the fields of FADDR and CAUSE that R61 leaves open). -/
opaque freeWord : Nat → Nat → BitVec 64
/-- A free truth value: draw number and a distinguishing number (R351 and R415 windows, R206 overlaps). -/
opaque freeBool : Nat → Nat → Bool
/-- Cycles a word took beyond its first (CYCLE, R43): timing. -/
opaque stall : Nat → Nat
/-- Whether a Vat's copy of a line has been replaced in its caches by this draw (R11, 12 Caches). -/
opaque replaced : Nat → Nat → Nat → Bool

/-- The code from an owned range that the module returns for a DONE status of a reserved range (R7). -/
opaque ownedCode : BitVec 16 → BitVec 16
/-- The draft of the descriptor a slice creates for a reservation of an item: base, bytes, record and whether written. -/
opaque reservationDraft : Nat → Nat → BitVec 16 → Bool → BitVec 480

/-- Whether a fused multiply-add of infinity, zero and a quiet NaN raises invalid (IEEE 754-2019, 7.2, leaves it). -/
opaque fmaNanInvalid : Bool

/-- The Felt shard that a flow argument block names, if it names one (R286; the spec gives the block no layout for it). -/
opaque argShard : Bytes → Option Nat

/-- Rows of the given size that an item's output holds for an exchange: the spec gives no count field (07, R185). -/
opaque rowsOut : Bytes → Nat → Nat
/-- The output of an item of a job that another module has run: its flow and number name it (R21, R275). -/
opaque farOutput : BitVec 64 → BitVec 20 → Nat → Bytes

/-- Join output rows an accepted item wrote (JOIN_ROWS_OUT): the spec gives its output no count field. -/
opaque joinRowsOut : Bytes → Nat

/-- A partial combining entry that another module of the job hands to a row's home (R238, R241). -/
structure FarCombine where
  row      : Nat
  adds     : List Int
  set      : Option (BitVec 64 × Bytes)
  conflict : Bool
deriving DecidableEq, Repr, Inhabited

/-- What the other modules of a job have handed over for an epoch at its close: draw, table and epoch. -/
opaque farCombines : Nat → Nat → Nat → List FarCombine

/-- AES-256-XTS of IEEE 1619 over one data unit (R306): a namespace's key pair, by number and generation, and the tweak. The spec cites
the standard and states none of it, but that what is enciphered deciphers to itself. -/
opaque xts : BitVec 32 → Nat → BitVec 128 → Equiv.Perm Bytes

/-- The base location of a table's row in its shard (R245): table and row. -/
opaque rowBase : Nat → Nat → BitVec 56

/-- The orchestrator's input assignment (07): job, flow, item and module. -/
opaque assigned : BitVec 64 → BitVec 20 → Nat → BitVec 14 → Bool
/-- Bytes of tiers B and C that staging beyond STAGE_BYTES can spill into (R192; a property of the devices fitted). -/
opaque spillBytes : Nat
/-- Tier A shard bytes that a job homes on the twin (R329; the orchestrator's shard map).  -/
opaque twinShardBytes : BitVec 64 → Nat

/-! ### Per-module and per-release constants (R380) -/

opaque rowsem : BitVec 32
opaque moduleSerial : BitVec 32
opaque moduleRevision : BitVec 32
opaque softwareVersion : Bytes
opaque meterSerial : BitVec 32
/-- Time of a start to READY, in ms, by the number of starts (timing). -/
opaque bootMs : Nat → BitVec 32
/-- Bytes of the tier C drives fitted. -/
opaque tierCBytes : BitVec 64
opaque fwRelease : BitVec 32
/-- Free spare rows a DRAM bank ships with (R301 gives no number): bank of the row to spares. -/
opaque spareRows : Nat → Nat
/-- DRAM row of a 64-byte line in its stack, and bank of a row in its stack (12 names both, and gives no geometry). -/
opaque dramRow : Nat → Nat
opaque dramBank : Nat → Nat

/-- A device as a tier B port finds it: a CXL device that fits the subset of R302, whether IDE is established (R303), and
its capacity in bytes; no device holds 0 bytes. -/
structure TierBDevice where
  inSubset : Bool
  ide      : Bool
  bytes    : Nat
deriving DecidableEq, Repr, Inhabited

/-- The device on a tier B port by draw and port, and the tier C namespaces whose LBA format is not 4,096 bytes without
metadata by draw: properties of the devices fitted (R302, R305). -/
opaque tierBDevice : Nat → Nat → TierBDevice
opaque tierCUnused : Nat → List (BitVec 32)

/-! ### Keys, marks and signatures (R119, R382, R401, R405, R407, FIPS 186-5) -/

/-- MARK from descriptor bytes 0x00-0x3B, the record's generation, the job, the module and the era of its keys. -/
opaque mark : BitVec 480 → BitVec 16 → BitVec 64 → BitVec 14 → Nat → BitVec 32
/-- ECDSA P-384 verification under a key number: message, signature. -/
opaque verify : BitVec 32 → Bytes → Bytes → Bool
/-- The meter's signature of a reading. -/
opaque meterSign : Bytes → Bytes
opaque sha384 : Bytes → Bytes
opaque nonce : Nat → BitVec 128
/-- The host address at which the host keeps what a mailbox request names by its address (Table 15.6; the rows give the content). -/
opaque hostAddress : Bytes → BitVec 64
/-- Key numbers: the Vanor root key, the owner's firmware key of the SC and the meter's own authority (R402). -/
opaque vanorKey : BitVec 32
opaque meterKey : BitVec 32
/-- KEY_ID is one of the owner's keys, those shipped (none) or those of a provisioning image, and a message's signature verifies
under it. -/
opaque ownerVerify : Option Bytes → BitVec 32 → Bytes → Bytes → Bool
/-- Firmware images: signed part, signature, release and row-semantics revision (R387 names them; no layout given). -/
opaque fwSigned : Bytes → Bytes × Bytes
opaque fwRev : Bytes → BitVec 32
opaque fwRowsem : Bytes → BitVec 32
opaque meterFwVersion : Bytes → BitVec 32
/-- Provisioning images: signed part, signature, serial (R405; no layout given). -/
opaque provSigned : Bytes → Bytes × Bytes
opaque provSerial : Bytes → BitVec 32

/-! ### What the Pulper's outputs leave open (R145, R147, R159) -/

/-- A byte of the slot of a null among decoded values (the Arrow layout leaves it open): the slot's place and the byte's. -/
opaque nullByte : Nat → Nat → BitVec 8
/-- Of a column of lists with MAX_DEF 2, whether its lists can be null rather than its elements (Table 6.8 does not say). -/
opaque listNullable : Bool
/-- The rows a broke page or batch counts (R159) when its bytes do not say. -/
opaque brokeRows : Bytes → Nat
/-- The leaf column of a record batch that is written: R147 has buffers for one. -/
opaque batchLeaf : Bytes → Nat
/-- The values of an array that indexes a dictionary of a type with children: the four buffers of R147 have no place for them. -/
opaque nestedValues : Bytes → Bytes
/-- Cb and Cr of a one-component JPEG written as YCbCr: the spec states no value (R145). -/
opaque grayChroma : BitVec 8

/-- Self-test of a Vat, of the tier A stacks and of the cores at a start (Table 14.4): timing and physics. -/
opaque lowestGoodVat : Nat → BitVec 6

end Sys2Proof.Config
end

