-- ==== Sys2Proof/Machine/Flags.lean ====
section
/-! DEFINITION. Number formats and every floating-point flag (03): the formats of Table 3.1, one exact rounding
under the four modes with the flags of IEEE 754-2019 (tininess after rounding, R75), and the conversions of
Table 3.2. Values are exact: a sign, a magnitude and a power of two, or a quotient of naturals. -/

namespace Sys2Proof.Machine

open Sys2Proof

/-! ### Element types (Table 2.2) -/

/-- Bytes of an element type; 0 for a reserved code. -/
def etypeBytes (t : Nat) : Nat :=
  match t with
  | 0x0 | 0x1 | 0x8 | 0x9 => 1
  | 0x2 | 0x3 | 0xA | 0xB => 2
  | 0x4 | 0x5 | 0xC => 4
  | 0x6 | 0x7 | 0xD => 8
  | _ => 0

def etypeIsInt (t : Nat) : Bool := t < 8
def etypeSigned (t : Nat) : Bool := t < 8 && t % 2 == 0
def etypeIsFloat (t : Nat) : Bool := 8 ≤ t && t ≤ 0xD

/-- A floating-point format (Table 3.1); `e4m3` has no infinity and one NaN magnitude. -/
structure FpFmt where
  ebits : Nat
  fbits : Nat
  e4m3  : Bool
deriving DecidableEq, Repr

def fmtOf (t : Nat) : FpFmt :=
  match t with
  | 0x8 => { ebits := 4, fbits := 3, e4m3 := true }
  | 0x9 => { ebits := 5, fbits := 2, e4m3 := false }
  | 0xA => { ebits := 8, fbits := 7, e4m3 := false }
  | 0xB => { ebits := 5, fbits := 10, e4m3 := false }
  | 0xC => { ebits := 8, fbits := 23, e4m3 := false }
  | _ => { ebits := 11, fbits := 52, e4m3 := false }

def FpFmt.bias (f : FpFmt) : Nat := 2 ^ (f.ebits - 1) - 1
def FpFmt.width (f : FpFmt) : Nat := 1 + f.ebits + f.fbits
def FpFmt.signBit (f : FpFmt) : Nat := 2 ^ (f.ebits + f.fbits)
def FpFmt.expMax (f : FpFmt) : Nat := 2 ^ f.ebits - 1

/-- Canonical NaN (Table 3.1, R73). -/
def FpFmt.nan (f : FpFmt) : Nat :=
  if f.e4m3 then 0x7F else f.expMax * 2 ^ f.fbits + 2 ^ (f.fbits - 1)

/-- Magnitude bits of infinity; E4M3 has none and gives 448 (Table 3.2). -/
def FpFmt.infMag (f : FpFmt) : Nat :=
  if f.e4m3 then 0x7E else f.expMax * 2 ^ f.fbits

/-- Magnitude bits of the largest finite value. -/
def FpFmt.maxMag (f : FpFmt) : Nat :=
  if f.e4m3 then 0x7E else f.expMax * 2 ^ f.fbits - 1

/-- A value of a format: a NaN (signalling or quiet), an infinity, or sign, magnitude and exponent. -/
inductive FVal where
  | nan (signalling : Bool)
  | inf (neg : Bool)
  | fin (neg : Bool) (m : Nat) (e : Int)
deriving DecidableEq, Repr

/-- The value an encoding stands for (R71, R72). -/
def FpFmt.decode (f : FpFmt) (b : Nat) : FVal :=
  let neg := (b / f.signBit) % 2 == 1
  let ex := (b / 2 ^ f.fbits) % 2 ^ f.ebits
  let fr := b % 2 ^ f.fbits
  if f.e4m3 && b % f.signBit == 0x7F then .nan false
  else if !f.e4m3 && ex == f.expMax then
    if fr == 0 then .inf neg else .nan (fr / 2 ^ (f.fbits - 1) % 2 == 0)
  else if ex == 0 then .fin neg fr (1 - (f.bias : Int) - f.fbits)
  else .fin neg (fr + 2 ^ f.fbits) ((ex : Int) - f.bias - f.fbits)

/-! ### Flags: [4] invalid, [3] divide by zero, [2] overflow, [1] underflow, [0] inexact (Table 2.9) -/

def flagInvalid : BitVec 5 := 0b10000
def flagOverflow : BitVec 5 := 0b00100
def flagUnderflow : BitVec 5 := 0b00010
def flagInexact : BitVec 5 := 0b00001

/-- An encoding and the flags its computation raises. -/
structure Rounded where
  bits  : Nat
  flags : BitVec 5
deriving DecidableEq, Repr

/-- Rounding modes as FPCTL holds them: 0 nearest-even, 1 toward zero, 2 up, 3 down. -/
def roundUp (mode : Nat) (neg : Bool) (m r d : Nat) : Bool :=
  match mode with
  | 0 => r * 2 > d || (r * 2 == d && m % 2 == 1)
  | 1 => false
  | 2 => !neg && r != 0
  | _ => neg && r != 0

/-- Floor of the base-2 logarithm of the positive quotient num / den. -/
def log2Quot (num den : Nat) : Int :=
  let e := (Nat.log2 num : Int) - Nat.log2 den
  let ge := if 0 ≤ e then den * 2 ^ e.toNat ≤ num else den ≤ num * 2 ^ (-e).toNat
  if ge then e else e - 1

/-- Quotient and remainder of (num / den) / 2^q, with the divisor used. -/
def scaleQuot (num den : Nat) (q : Int) : Nat × Nat × Nat :=
  let n := if q < 0 then num * 2 ^ (-q).toNat else num
  let d := if q < 0 then den else den * 2 ^ q.toNat
  (n / d, n % d, d)

/-- The overflowed result (Table 3.2, IEEE 754-2019 clause 7.4): E4M3 clamps in every direction. -/
def FpFmt.overflow (f : FpFmt) (mode : Nat) (neg : Bool) : Rounded :=
  let s := if neg then f.signBit else 0
  let mag :=
    if f.e4m3 then f.maxMag
    else match mode with
      | 0 => f.infMag
      | 1 => f.maxMag
      | 2 => if neg then f.maxMag else f.infMag
      | _ => if neg then f.infMag else f.maxMag
  { bits := s + mag, flags := flagOverflow ||| flagInexact }

/-- Round the value (neg) num / den once into the format (R74, R75); den is positive. -/
def FpFmt.round (f : FpFmt) (mode : Nat) (neg : Bool) (num den : Nat) : Rounded :=
  let s := if neg then f.signBit else 0
  if num == 0 then { bits := s, flags := 0 }
  else
    let e := log2Quot num den
    let emin : Int := 1 - (f.bias : Int)
    let q := (if e < emin then emin else e) - f.fbits
    let (m, r, d) := scaleQuot num den q
    let m := if roundUp mode neg m r d then m + 1 else m
    let mag := ((q + f.fbits - emin + 1).toNat) * 2 ^ f.fbits + m - 2 ^ f.fbits
    if mag > f.maxMag then f.overflow mode neg
    else
      let inexact := r != 0
      let (m2, r2, d2) := scaleQuot num den (e - f.fbits)
      let carried := e == emin - 1 && (if roundUp mode neg m2 r2 d2 then m2 + 1 else m2) == 2 ^ (f.fbits + 1)
      let tiny := e < emin && !carried
      { bits := s + mag,
        flags := (if inexact then flagInexact else 0) ||| (if inexact && tiny then flagUnderflow else 0) }

/-- Round the dyadic value m times 2^e. -/
def FpFmt.roundDyadic (f : FpFmt) (mode : Nat) (neg : Bool) (m : Nat) (e : Int) : Rounded :=
  if e < 0 then f.round mode neg m (2 ^ (-e).toNat) else f.round mode neg (m * 2 ^ e.toNat) 1

def FpFmt.quietNan (f : FpFmt) (invalid : Bool) : Rounded :=
  { bits := f.nan, flags := if invalid then flagInvalid else 0 }

/-- An infinity, or the clamp with its flags where the format has none (Table 3.2). -/
def FpFmt.infinity (f : FpFmt) (neg : Bool) : Rounded :=
  if f.e4m3 then f.overflow 0 neg
  else { bits := (if neg then f.signBit else 0) + f.infMag, flags := 0 }

/-! ### Arithmetic: exact, then rounded once -/

/-- The signed integer of a finite value at exponent `e0`, no larger than its own exponent. -/
def finAt (neg : Bool) (m : Nat) (e e0 : Int) : Int :=
  let v : Int := (m * 2 ^ (e - e0).toNat : Nat)
  if neg then -v else v

/-- The sum of two finite values, rounded once; an exact zero takes the IEEE sign. -/
def FpFmt.addFin (f : FpFmt) (mode : Nat) (n1 : Bool) (m1 : Nat) (e1 : Int) (n2 : Bool) (m2 : Nat) (e2 : Int) :
    Rounded :=
  let e0 := if e1 < e2 then e1 else e2
  let v := finAt n1 m1 e1 e0 + finAt n2 m2 e2 e0
  if v == 0 then
    let neg := if m1 == 0 && m2 == 0 && n1 == n2 then n1 else mode == 3
    { bits := if neg then f.signBit else 0, flags := 0 }
  else f.roundDyadic mode (v < 0) v.natAbs e0

def FVal.neg : FVal → FVal
  | .nan s => .nan s
  | .inf n => .inf (!n)
  | .fin n m e => .fin (!n) m e

def FVal.isNan : FVal → Bool
  | .nan _ => true
  | _ => false

def FVal.isSnan : FVal → Bool
  | .nan s => s
  | _ => false

def FVal.isZero : FVal → Bool
  | .fin _ m _ => m == 0
  | _ => false

def FpFmt.addVal (f : FpFmt) (mode : Nat) (a b : FVal) : Rounded :=
  match a, b with
  | .nan s, b => f.quietNan (s || b.isSnan)
  | _, .nan s => f.quietNan s
  | .inf x, .inf y => if x == y then f.infinity x else f.quietNan true
  | .inf x, .fin _ _ _ => f.infinity x
  | .fin _ _ _, .inf y => f.infinity y
  | .fin n1 m1 e1, .fin n2 m2 e2 => f.addFin mode n1 m1 e1 n2 m2 e2

def FpFmt.mulVal (f : FpFmt) (mode : Nat) (a b : FVal) : Rounded :=
  match a, b with
  | .nan s, b => f.quietNan (s || b.isSnan)
  | _, .nan s => f.quietNan s
  | .inf x, .inf y => f.infinity (x != y)
  | .inf x, .fin y m _ => if m == 0 then f.quietNan true else f.infinity (x != y)
  | .fin x m _, .inf y => if m == 0 then f.quietNan true else f.infinity (x != y)
  | .fin n1 m1 e1, .fin n2 m2 e2 => f.roundDyadic mode (n1 != n2) (m1 * m2) (e1 + e2)

/-- c + a × b, rounded once (VFMA); VFMS negates a. -/
def FpFmt.fma (f : FpFmt) (mode : Nat) (c a b : FVal) : Rounded :=
  let infZero := match a, b with
    | .inf _, .fin _ m _ => m == 0
    | .fin _ m _, .inf _ => m == 0
    | _, _ => false
  if a.isNan || b.isNan then f.quietNan (a.isSnan || b.isSnan || c.isSnan)
  else if infZero then f.quietNan (!c.isNan || c.isSnan || Config.fmaNanInvalid)
  else
    match a, b, c with
    | _, _, .nan s => f.quietNan s
    | .fin n1 m1 e1, .fin n2 m2 e2, .fin n3 m3 e3 => f.addFin mode n3 m3 e3 (n1 != n2) (m1 * m2) (e1 + e2)
    | .fin _ _ _, .fin _ _ _, .inf z => f.infinity z
    | .inf x, .fin y _ _, .inf z => if (x != y) == z then f.infinity z else f.quietNan true
    | .inf x, .inf y, .inf z => if (x != y) == z then f.infinity z else f.quietNan true
    | .fin x _ _, .inf y, .inf z => if (x != y) == z then f.infinity z else f.quietNan true
    | .inf x, .fin y _ _, _ => f.infinity (x != y)
    | .inf x, .inf y, _ => f.infinity (x != y)
    | .fin x _ _, .inf y, _ => f.infinity (x != y)
    | _, _, _ => f.quietNan false

/-! ### Ordering -/

/-- Exact order of two values that are not NaN (−0 equals +0). -/
def FVal.cmp (a b : FVal) : Ordering :=
  match a, b with
  | .inf x, .inf y => if x == y then .eq else if x then .lt else .gt
  | .inf x, _ => if x then .lt else .gt
  | _, .inf y => if y then .gt else .lt
  | .fin n1 m1 e1, .fin n2 m2 e2 =>
    let e0 := if e1 < e2 then e1 else e2
    compare (finAt n1 m1 e1 e0) (finAt n2 m2 e2 e0)
  | _, _ => .eq

/-- Sign of a value, −0 negative. -/
def FVal.isNeg : FVal → Bool
  | .nan _ => false
  | .inf n => n
  | .fin n _ _ => n

/-- IEEE 754-2019 maximumNumber (`big`) and minimumNumber of two encodings. -/
def FpFmt.extremum (f : FpFmt) (big : Bool) (a b : Nat) : Rounded :=
  let va := f.decode a
  let vb := f.decode b
  let inv := va.isSnan || vb.isSnan
  if va.isNan && vb.isNan then f.quietNan inv
  else if va.isNan then { bits := b, flags := if inv then flagInvalid else 0 }
  else if vb.isNan then { bits := a, flags := if inv then flagInvalid else 0 }
  else
    let aFirst := match va.cmp vb with
      | .gt => big
      | .lt => !big
      | .eq => va.isNeg != big
    { bits := if aFirst then a else b, flags := 0 }

/-! ### Integers of an element type -/

/-- The value of an integer element of `w` bytes. -/
def intVal (signed : Bool) (w b : Nat) : Int :=
  if signed && b / 2 ^ (8 * w - 1) % 2 == 1 then (b : Int) - (2 ^ (8 * w) : Nat) else b

def intMin (signed : Bool) (w : Nat) : Int := if signed then -((2 ^ (8 * w - 1) : Nat) : Int) else 0
def intMax (signed : Bool) (w : Nat) : Int :=
  if signed then ((2 ^ (8 * w - 1) : Nat) : Int) - 1 else ((2 ^ (8 * w) : Nat) : Int) - 1

/-- The low bits of an integer at `w` bytes. -/
def wrapInt (w : Nat) (v : Int) : Nat := (v % ((2 ^ (8 * w) : Nat) : Int)).toNat

def clampInt (signed : Bool) (w : Nat) (v : Int) : Int :=
  if v < intMin signed w then intMin signed w else if v > intMax signed w then intMax signed w else v

/-! ### Conversions (Table 3.2) -/

/-- Round a finite value to an integer. -/
def roundToInt (mode : Nat) (neg : Bool) (m : Nat) (e : Int) : Int × Bool :=
  if 0 ≤ e then
    let v : Int := (m * 2 ^ e.toNat : Nat)
    (if neg then -v else v, false)
  else
    let d := 2 ^ (-e).toNat
    let q := m / d
    let r := m % d
    let q := if roundUp mode neg q r d then q + 1 else q
    (if neg then -(q : Int) else q, r != 0)

/-- Convert a value into a floating-point format; a signalling NaN raises invalid in every row (log entry 144). -/
def convToFloat (dst : FpFmt) (mode : Nat) (v : FVal) : Rounded :=
  match v with
  | .nan s => dst.quietNan s
  | .inf n => dst.infinity n
  | .fin n m e => if m == 0 then { bits := if n then dst.signBit else 0, flags := 0 } else dst.roundDyadic mode n m e

/-- Convert one element between element types: one row of Table 3.2. Saturation raises invalid alone (log entry 145). -/
def convert (src dst : Nat) (mode : Nat) (b : Nat) : Rounded :=
  if src == dst && etypeIsInt src then { bits := b, flags := 0 }
  else if etypeIsFloat src then
    let v := (fmtOf src).decode b
    if etypeIsFloat dst then
      if src == dst then
        match v with
        | .nan s => (fmtOf dst).quietNan s
        | _ => { bits := b, flags := 0 }
      else convToFloat (fmtOf dst) mode v
    else
      let w := etypeBytes dst
      let sg := etypeSigned dst
      match v with
      | .nan _ => { bits := 0, flags := flagInvalid }
      | .inf n => { bits := wrapInt w (if n then intMin sg w else intMax sg w), flags := flagInvalid }
      | .fin n m e =>
        let (i, inexact) := roundToInt mode n m e
        let c := clampInt sg w i
        if c == i then { bits := wrapInt w i, flags := if inexact then flagInexact else 0 }
        else { bits := wrapInt w c, flags := flagInvalid }
  else
    let v := intVal (etypeSigned src) (etypeBytes src) b
    if etypeIsFloat dst then (fmtOf dst).roundDyadic mode (v < 0) v.natAbs 0
    else { bits := wrapInt (etypeBytes dst) (clampInt (etypeSigned dst) (etypeBytes dst) v), flags := 0 }

/-! ### Square roots and logarithms, correctly rounded -/

/-- Integer square root by Newton's method from above, `fuel` steps. -/
def isqrtGo : Nat → Nat → Nat → Nat
  | 0, _, x => x
  | fuel + 1, n, x =>
    let y := (x + n / x) / 2
    if y < x then isqrtGo fuel n y else x

/-- Floor of the square root. -/
def isqrt (n : Nat) : Nat :=
  if n == 0 then 0 else isqrtGo (Nat.log2 n + 8) n (2 ^ (Nat.log2 n / 2 + 1))

/-- The square root of num / den rounded once to nearest-even: 2^k times the root is found with a sticky bit, so that
the rounding sees the exact root. -/
def FpFmt.roundSqrt (f : FpFmt) (num den : Nat) : Rounded :=
  let k := 1200
  let n := num * 2 ^ (2 * k) / den
  let s := isqrt n
  let exact := s * s * den == num * 2 ^ (2 * k)
  f.round 0 false (2 * s + if exact then 0 else 1) (2 ^ (k + 1))

/-- Sum of z^(2i+1) / (2i+1) from term i on, in fixed point with `p` fraction bits, `n` terms (z and zz = z² scaled). -/
def atanhSeries (p : Nat) : Nat → Nat → Nat → Nat → Nat
  | 0, _, _, _ => 0
  | n + 1, i, z, zz => z / (2 * i + 1) + atanhSeries p n (i + 1) (z * zz / 2 ^ p) zz

/-- ln(num / den) for num / den in [1, 2), in fixed point with `p` fraction bits: 2 atanh((y − 1) / (y + 1)). -/
def lnMantissa (p num den : Nat) : Nat :=
  let z := (num - den) * 2 ^ p / (num + den)
  2 * atanhSeries p (p / 3 + 4) 0 z (z * z / 2 ^ p)

/-- ln of the positive quotient num / den in fixed point with `p` fraction bits, as a signed integer. -/
def lnFixed (p num den : Nat) : Int :=
  let e := log2Quot num den
  let n := if e < 0 then num * 2 ^ (-e).toNat else num
  let d := if e < 0 then den else den * 2 ^ e.toNat
  e * (lnMantissa p 2 1 + 0 : Nat) + (lnMantissa p n d : Nat)

end Sys2Proof.Machine
end

