-- ==== Sys2Proof/Machine/State.lean ====
section
/-! DEFINITION. The state of the module: everything the spec gives the DVM-3280, as plain data, and the queue of
waiting commands. Sparse collections are key and value lists (`Assoc`) in one canonical form: keys strictly rising
and no entry equal to what an unlisted key reads as. -/

namespace Sys2Proof.Machine

open Sys2Proof

/-- A sparse map from numbers; an unlisted key reads as the collection's default. -/
abbrev Assoc (α : Type) := List (Nat × α)

/-- Why the machine stops: for no reason, since every command of the block goes on. An access to an address that does
not exist raises ACCESS_FAULT (Table 2.10), which is an exception and no fault. -/
inductive Fault where
deriving DecidableEq, Repr

/-- Why a command has no meaning. -/
inductive Refusal where
  /-- Raised by an arm of the dispatch whose command has no meaning yet. Safe: nothing is concluded from it. -/
  | notModelled (mnemonic : String)
deriving DecidableEq, Repr

/-! ### Deckle cores (02) -/

/-- A stream register (Table 2.15); `image` is the descriptor as SBIND read it (R44). -/
structure Stream where
  desc        : BitVec 64
  pos         : BitVec 64
  allocBase   : BitVec 64
  allocExtent : BitVec 64
  bound       : Bool
  write       : Bool
  plane       : BitVec 8
  image       : BitVec 512
  /-- Index entries a gathered stream has read (R128): position in the index tensor and value. -/
  index       : List (Nat × BitVec 32)
  /-- The draw at which SBIND bound it: stores of other cores from then on may or may not be seen (R124). -/
  since       : Nat
deriving DecidableEq, Repr

/-- A ticket of a core (R49). -/
inductive Ticket where
  | free
  | pending
  | complete (status : BitVec 16)
deriving DecidableEq, Repr

/-- The name of a work item: its flow and sequence number (Table 11.7). -/
structure ItemKey where
  flow : BitVec 20
  seq  : BitVec 40
deriving DecidableEq, Repr

/-- The architectural state of one logical core (Tables 2.1 and 2.9) and what the core holds while it works. -/
structure Core where
  x         : Vector (BitVec 64) 32
  w         : Vector (BitVec 4096) 32
  p         : Vector (BitVec 512) 8
  e         : Vector (Vector (BitVec 576) 16) 2
  st        : Vector Stream 16
  pc        : BitVec 64
  /-- The core executes words: it runs an item or firmware. -/
  active    : Bool
  /-- Firmware mode (R32, MODE of Table 2.9). -/
  firmware  : Bool
  item      : Option ItemKey
  itemPtr   : BitVec 64
  itemClass : BitVec 2
  fpctl     : BitVec 2
  fpflags   : BitVec 5
  topkK     : BitVec 7
  topkst    : BitVec 64
  epc       : BitVec 64
  cause     : BitVec 28
  faddr     : BitVec 64
  evec      : BitVec 64
  cycle     : BitVec 64
  retired   : BitVec 64
  /-- Cycles the item has run (CYCLES of Table 2.14). -/
  itemCycles : BitVec 32
  tickets   : Vector Ticket 32
  /-- In an exception handler before ERET (R61). -/
  handler   : Bool
  /-- DONE has executed with this status and waits for the item's tickets (R49, R50). -/
  finishing : Option (BitVec 16)
  /-- In run-ahead past the word at `pc` (R64). -/
  runahead  : Bool
  /-- The item of class B this core's class A item pre-empted (R67, R69). -/
  preempted : Option ItemKey
  /-- Its streams with the descriptors and index entries they have read, which it resumes with (R16, R121, R128). -/
  kept      : Vector Stream 16
  /-- Words the item has retired and line accesses it has made (condition 5 of Table 12.5), and Felt lines read. -/
  wordsRun  : Nat
  lineUses  : Nat
  otherUnit : Bool
deriving DecidableEq, Repr

/-- A cached line of a Vat: the Vat's L1 data caches and L2 taken together, which hardware keeps coherent. -/
structure L2Line where
  vat   : BitVec 6
  line  : Nat
  dirty : Bool
  data  : BitVec 512
  /-- Some byte came from a line whose error could not be corrected (R300). -/
  poison : Bool
deriving DecidableEq, Repr

/-- A command handed to a unit by UNIT (R48): the block as read, and the item it belongs to. -/
structure UnitCmd where
  unit    : BitVec 4
  inst    : Nat
  core    : CoreId
  ticket  : BitVec 5
  cls     : BitVec 2
  block   : Bytes
  item    : Option ItemKey
  attempt : Nat
  /-- Remote gathers a GATHER waits for (R233): request ID, table and indices asked for. -/
  asked   : List (BitVec 64 × BitVec 16 × List Nat)
  /-- List entries of a Pulper command that have run DECODE_US ticks (R156). -/
  overdue : List Nat := []
  /-- The migration epoch M its row operations are stamped with, once it has looked their homes up (R245). -/
  stamp   : Option (BitVec 32) := none
  /-- The LEASE_NO an UPDATE carries (R342). -/
  lease   : Option (BitVec 64) := none
deriving DecidableEq, Repr

/-- A creation port window (Table 5.4). -/
structure PortWindow where
  draft : BitVec 512
  dst   : BitVec 64
  ctrl  : BitVec 32
  stat  : BitVec 32
deriving DecidableEq, Repr

/-! ### Jobs, flows and items (11) -/

/-- An allocation record (05): tierB, access and owner; `live` is false once freed. -/
structure Alloc where
  base   : Nat
  extent : Nat
  tierB  : Bool
  rw     : Bool
  job    : BitVec 64
  gen    : BitVec 16
  live   : Bool
deriving DecidableEq, Repr

/-- A flow record (Table 11.5). -/
structure FlowRec where
  flow     : BitVec 20
  cls      : BitVec 8
  stage    : BitVec 8
  trigger  : BitVec 8
  batch    : Bool
  items    : Nat
  entry    : Nat
  arg      : Nat
  producer : Nat
  span     : Nat
  outMax   : Nat
  window   : Nat
  dueBase  : Nat
  dueStep  : Nat
  lead     : Nat
  stampDiv : Nat
  stampNum : Nat
  stampDen : Nat
deriving DecidableEq, Repr

/-- A join record (Tables 7.1 and 7.2). -/
structure JoinKey where
  ktype   : BitVec 8
  klen    : BitVec 8
  loff    : BitVec 16
  roff    : BitVec 16
  nullbit : BitVec 8
deriving DecidableEq, Repr

structure JoinRec where
  kind        : BitVec 8
  mode        : BitVec 8
  nkeys       : BitVec 8
  flags       : BitVec 8
  left        : BitVec 16
  right       : BitVec 16
  keys        : List JoinKey
  seed        : BitVec 64
  bloomBlocks : Nat
  bloomK      : Nat
  bucketLog2  : Nat
  rowBytes    : Nat
deriving DecidableEq, Repr

/-- An exchange record (Table 7.5). -/
structure ExchRec where
  exch        : BitVec 8
  flags       : BitVec 8
  rowBytes    : Nat
  npart       : Nat
  partSeed    : BitVec 64
  keyOff      : Nat
  keyLen      : Nat
  join        : BitVec 8
  roundRows   : Nat
  stageBytes  : Nat
  creditMax   : Nat
  roundsAhead : Nat
  prov        : Nat
  table       : BitVec 16
  nextMask    : BitVec 16
deriving DecidableEq, Repr

/-- A column chunk of an input file, as its footer places it: leaf column, first ordinal, rows, file and place. -/
structure Chunk where
  col   : Nat
  first : Nat
  rows  : Nat
  nsid  : BitVec 32
  lba   : BitVec 64
  off   : Nat
  bytes : Nat
deriving DecidableEq, Repr

/-- An input table (Table 11.4) with the chunks its footers give (R274). -/
structure InputRec where
  table  : BitVec 16
  format : BitVec 8
  rows   : Nat
  cols   : BitVec 64
  chunks : List Chunk
deriving DecidableEq, Repr

/-- An input of an item (R278). -/
structure Input where
  addr  : Nat
  bytes : Nat
  alloc : BitVec 16
deriving DecidableEq, Repr

/-- What the root keeps of a flow while its job is loaded. -/
structure FlowRun where
  decl     : FlowRec
  /-- Bytes per ordinal and staged items of a SOURCE flow (R287). -/
  bpo      : Nat
  stageMax : Nat
  /-- Lowest sequence number not created, and the created ones above it. -/
  next     : Nat
  ahead    : List Nat
  /-- SOURCE items whose staging is filled: sequence number and staged column chunks (R278). -/
  staged   : List (Nat × List Input)
  released : Nat
  egressed : Nat
  ring     : Option (BitVec 12)
  lastCore : Option CoreId
  arrivals : Nat
  /-- Batches below this number were written before a takeover (REWRITE of R398). -/
  rewrite  : Nat
  stopped  : Bool
  /-- The code with which its egress was lost: its last batch is never written (R336, R357). -/
  lost     : Option (BitVec 16) := none
  /-- The Felt shard its argument block names (R286). -/
  shard    : Option Nat
deriving DecidableEq, Repr

/-- A loaded job. -/
structure Job where
  job       : BitVec 64
  tag       : BitVec 32
  seed      : BitVec 64
  unordered : Bool
  test      : Bool
  flows     : List FlowRun
  allocs    : List (BitVec 16 × BitVec 16)
  codeBase  : Nat
  argsBase  : Nat
  argsBytes : Nat
  /-- The descriptor table of the Plaud, relocated and without marks, and where it stands (R134). -/
  descs     : List (BitVec 512)
  descsBase : Nat
  joins     : List JoinRec
  exchanges : List ExchRec
  inputs    : List InputRec
  layouts   : Nat
  tables    : List (BitVec 16)
  shares    : List (Nat × Nat)
  modules   : List (BitVec 14)
  /-- Per join with a Bloom filter: key hashes of the right rows built here, and the replica of its published filter (R180). -/
  hashes    : List (Nat × BitVec 64)
  /-- Rows that a join record has given, on this module, to the join that builds them (R178): key partition + 2^32 × join. -/
  joined    : Assoc Nat := []
  filters   : Assoc Bytes
  stopped   : Option (BitVec 16)
  finalSent : Bool
deriving DecidableEq, Repr

/-- Where an item stands. -/
inductive Phase where
  | created
  | queued
  | running
  | preempted
  | ended
  | accepted
  | released
deriving DecidableEq, Repr

/-- Who waits for a class A item (R326): the host command (tag, response address room) or a fabric peer. -/
inductive Reply where
  | none
  | host (tag : BitVec 32) (room : Nat)
  | peer (m : Msg)
deriving DecidableEq, Repr

/-- A work item (Table 11.7) and how its runs stand (R283). -/
structure Item where
  key          : ItemKey
  job          : BitVec 64
  cls          : BitVec 2
  grade        : BitVec 8
  gradeRev     : BitVec 16
  entry        : Nat
  ptr          : Nat
  arg          : Nat
  out          : Nat
  outBytes     : Nat
  outAlloc     : BitVec 16
  affinity     : Option CoreId
  stampReel    : Nat
  attempt      : Nat
  counted      : Nat
  last         : Bool
  reproducible : Bool
  phase        : Phase
  inputs       : List Input
  core         : Option CoreId
  avoidDie     : Option (BitVec 2)
  avoidCore    : Option CoreId
  avoidVat     : Option (BitVec 6)
  reply        : Reply
  /-- Some condition of Table 12.5 has failed for the request or its window (R318). -/
  degraded     : Bool
  /-- A class A item that has been run again after its core failed (R283). -/
  coreFailed   : Bool
  /-- The descriptors a slice created for its reservations at dispatch (R118). -/
  descs        : List (BitVec 512)
deriving DecidableEq, Repr

/-- A delay-list entry (R292): kind 0 GRADE_SWITCH, 1 LEASE_EXPIRY, 2 PREFETCH, 3 RELEASE. -/
structure DelayEntry where
  value  : Nat
  kind   : Nat
  object : Nat
  list   : Nat
deriving DecidableEq, Repr

/-- An egress ring (R221). -/
structure Ring where
  number    : BitVec 12
  flow      : BitVec 20
  base      : BitVec 64
  comp      : BitVec 64
  slots     : Nat
  slotBytes : Nat
  rkey      : BitVec 32
  consQpn   : BitVec 32
  standby   : BitVec 32
  finished  : Nat
  written   : Nat
deriving DecidableEq, Repr

/-- The Headbox: root and slices. -/
structure Headbox where
  reel          : BitVec 48
  lastReelEdge  : Bool
  delays        : List DelayEntry
  stampHorizon  : Nat
  jobs          : List Job
  items         : List Item
  /-- Queued items, oldest first, with the Vat whose queue holds them. -/
  queued        : List (BitVec 6 × ItemKey)
  rings         : List Ring
  allocs        : Assoc Alloc
  pull          : Bool
  /-- In PULL, the item in each core's local slot (R285). -/
  slots         : List (CoreId × ItemKey)
  /-- The core that last ran an item of each Felt shard named (R286). -/
  shardRuns     : List (Nat × CoreId)
  dispatchOff   : List (BitVec 6)
  reelQp        : BitVec 32
  /-- Requests and class A line reads of the open window, whether the previous window failed, and the lowest level. -/
  winRequests   : Nat
  winLines      : Nat
  winPrevFailed : Bool
  winLevel      : Nat
  winItems      : List ItemKey
  firmwareFault : List CoreId
deriving DecidableEq, Repr

/-! ### Units (06, 08, 09, 10) -/

/-- A table record (Table 9.2) and its rows. -/
structure Table where
  id         : BitVec 16
  kind       : BitVec 8
  etype      : BitVec 8
  elems      : Nat
  updatable  : Bool
  replicated : Bool
  tier       : BitVec 2
  compOp     : BitVec 8
  nrows      : Nat
  nindex     : Nat
  seed       : BitVec 64
  part1      : BitVec 16
  part2      : BitVec 16
  shardRows  : Nat
  flow       : BitVec 20
  epochItems : Nat
  job        : Option (BitVec 64)
  tierB      : Bool
  /-- Row number to row bytes (ELEMS elements, no padding); an unlisted row is zeros. -/
  rows       : Assoc Bytes
  /-- Epochs closed: the version the table stands at (R242). -/
  version    : Nat
  /-- Accepted runs committed in each open epoch (R240, R241). -/
  commits    : Assoc Nat
  /-- Shards not homed here: shard number to home module (R231). -/
  homes      : Assoc (BitVec 14)
  /-- Rows whose reads fail at this home: 1 here only, 2 at the twin's replica as well (R233). -/
  bad        : Assoc Nat
deriving DecidableEq, Repr

/-- A combining entry (R238, R239): the ADD sum of each element in units of 2^-298, and the winning SET proposal. -/
structure Combine where
  table    : BitVec 16
  epoch    : Nat
  row      : Nat
  adds     : List Int
  set      : Option (BitVec 64 × Bytes)
  conflict : Bool
deriving DecidableEq, Repr

/-- A contribution of a run the Headbox has not accepted yet (R240). -/
structure Contribution where
  item    : ItemKey
  attempt : Nat
  entry   : Combine
deriving DecidableEq, Repr

/-- Migration state of a redirect entry (Table 9.6). -/
inductive MigState where
  | copy
  | writeThrough
  | new
deriving DecidableEq, Repr

/-- A redirect directory entry (R245): the row, its home before the migration (none: the shard's base location), the
new home, the copy there, and whether the migration has been released (step 5 of Table 9.6). -/
structure Redirect where
  table    : BitVec 16
  row      : Nat
  state    : MigState
  oldHome  : Option (BitVec 56)
  newHome  : BitVec 56
  copy     : Bytes
  released : Bool
deriving DecidableEq, Repr

/-- A close that waits for the twin's log: the LSN that must be held (R333), the migration epoch its row operations are stamped
with (R245), and the LEASE_NO of each shard it applies to (R342). -/
structure CloseWait where
  table  : BitVec 16
  epoch  : Nat
  lsn    : Nat
  stamp  : BitVec 32
  leases : List (BitVec 32 × Option (BitVec 64))
deriving DecidableEq, Repr

/-- The Felt engines. -/
structure Felt where
  tables    : List Table
  combines  : List Combine
  pending   : List Contribution
  redirects : List Redirect
  migEpoch  : BitVec 32
  waiting   : List CloseWait
  /-- Each Vat's coalescing window: table and row of its entries, most recently used first (at most 4,096). -/
  windows   : Assoc (List (BitVec 16 × Nat))
deriving DecidableEq, Repr

/-- A Watermark bank (R251, R261). -/
inductive Bank where
  | free
  | holds (set : BitVec 16)
  | retired
deriving DecidableEq, Repr

/-- An entry of a pattern set (Tables 10.2, 10.3, 10.8). -/
structure WmEntry where
  valid : Bool
  value : BitVec 320
  care  : BitVec 320
  data  : BitVec 32
deriving DecidableEq, Repr

/-- A loaded pattern set (Table 10.7). -/
structure WmSet where
  id       : BitVec 16
  width    : Nat
  mutable_ : Bool
  digest   : BitVec 64
  classmap : List (BitVec 64)
  entries  : List WmEntry
deriving DecidableEq, Repr

/-- The Watermark banks of the four dies and the loaded sets. -/
structure Watermark where
  banks : Vector (Vector Bank 16) 4
  sets  : List WmSet
deriving DecidableEq, Repr

/-- Engines in service of one die's Pulper (Table 6.1). -/
structure Pulper where
  decompression : Nat
  jpeg          : Nat
  pointRecord   : Nat
  page          : Nat
deriving DecidableEq, Repr

/-! ### Slurry exchange (07) -/

/-- A row in the send pool or retained after sending (R186, R196). -/
structure TxRow where
  item  : ItemKey
  /-- The one destination of a row copied for a BROADCAST exchange. -/
  dest  : Option (BitVec 14)
  part  : Nat
  round : Nat
  bytes : Bytes
  /-- The SEQ of the DATA message that carried it, 0 until one has in this generation (R195). -/
  seq   : Nat
deriving DecidableEq, Repr

/-- Rows received for a partition and round (R191). -/
structure RxRows where
  src   : BitVec 14
  part  : Nat
  round : Nat
  rows  : Nat
  bytes : Bytes
deriving DecidableEq, Repr

/-- One exchange of one job on this module, as sender and as receiver. -/
structure Exch where
  job       : BitVec 64
  exch      : BitVec 4
  /-- Partition number to home module; unlisted: this module. -/
  homes     : Assoc (BitVec 14)
  pool      : List TxRow
  retained  : List (BitVec 14 × TxRow)
  /-- Credits held per destination module and partition (key: partition + 2^32 × module, R190), last SEQ and rounds ended per
  module, and rows sent per module and round since that round was last ended (key: module + 2^14 × round). -/
  credits   : Assoc Nat
  txSeq     : Assoc Nat
  txRound   : Assoc Nat
  txRows    : Assoc Nat
  /-- Receiver: slots held, staged rows, next unconsumed round per partition, ended rounds (src, round, rows). -/
  slots     : List RxRows
  staged    : List RxRows
  base      : Assoc Nat
  ended     : List (BitVec 14 × Nat × Nat)
  /-- Rows received per source and round since its last ROUND_END. -/
  got       : List (BitVec 14 × Nat × Nat)
  /-- Ended rounds owed again: module, partition (none: whole rounds) and round (R196, R345). -/
  redo      : List (BitVec 14 × Option Nat × Nat)
  /-- Ends of rounds that a partition newly homed here waits for again: partition, holder and round (R193, R196). -/
  awaits    : List (Nat × BitVec 14 × Nat)
  /-- As a holder: partition and round of each ROUND_DONE that has come (R196). -/
  doneOf    : List (Nat × Nat)
  rxSeq     : Assoc Nat
  asks      : Assoc Nat
  granted   : List (BitVec 14 × Nat × Nat)
  /-- Modules and partitions (keys as of credits) for which more credits have been asked and none has come (R190). -/
  creditAsked : List Nat
  /-- Rows received per partition (R178). -/
  rowsIn    : Assoc Nat
deriving DecidableEq, Repr

/-! ### Fabric and twin (13) -/

/-- A queue pair (Table 13.1): `rate` is the send rate in bit/s as an exact fraction (R324). -/
structure Qp where
  number  : BitVec 16
  peer    : BitVec 14
  remote  : BitVec 32
  cls     : BitVec 2
  port    : BitVec 3
  ip      : BitVec 128
  rateNum : Nat
  rateDen : Nat
  retries : Nat
  rnr     : Nat
  error   : Bool
  unacked : List (BitVec 8 × Msg)
deriving DecidableEq, Repr

/-- A lease (Table 13.8); `mine` when this module is the holder, else it is the authority. -/
structure Lease where
  kind      : BitVec 8
  object    : BitVec 32
  number    : BitVec 64
  holderGen : BitVec 32
  expiry    : BitVec 48
  mine      : Bool
  stopped   : Bool
deriving DecidableEq, Repr

/-- A replica log record (Table 13.6). -/
structure LogRec where
  lsn   : BitVec 64
  table : BitVec 16
  kind  : BitVec 8
  count : BitVec 32
  epoch : BitVec 32
  data  : Bytes
deriving DecidableEq, Repr

/-- A mirror record received (Table 13.7). -/
structure Mirror where
  kind      : BitVec 8
  ring      : BitVec 16
  flow      : BitVec 32
  mseq      : BitVec 64
  w0        : BitVec 64
  w1        : BitVec 64
  slots     : BitVec 32
  slotBytes : BitVec 32
  rkey      : BitVec 32
  standby   : BitVec 32
deriving DecidableEq, Repr

/-- A fence this module has started (R339). -/
structure Fence where
  victim    : BitVec 14
  gen       : BitVec 32
  id        : BitVec 64
  awaiting  : List (BitVec 14)
  acked     : List (BitVec 14)
  lost      : List (BitVec 14)
  /-- Peers the notice has gone to again on every active port. -/
  again     : List (BitVec 14)
  committed : Bool
deriving DecidableEq, Repr

/-- TWIN_STATE (Table 13.5, HEARTBEAT). -/
inductive TwinState where
  | boot
  | unpaired
  | resync
  | paired
  | takeover
  | detaching
deriving DecidableEq, Repr

/-- A class A request in a receive buffer for which no item can be made yet (R289, R323): whether it was received in a window that failed
or in the one after it, and whether the window it was received in still runs (R318). -/
structure HeldReq where
  msg    : Msg
  failed : Bool
  fresh  : Bool
deriving DecidableEq, Repr

structure Fabric where
  ports       : BitVec 8
  retired     : BitVec 8
  qps         : List Qp
  gen         : BitVec 32
  gens        : Assoc (BitVec 32)
  peers       : List (BitVec 14)
  stopped     : Bool
  /-- Modules whose fence this module has accepted or committed: their twins act for them until the orchestrator remaps
  (R339, R343). -/
  fenceSeen   : List (BitVec 14)
  responses   : List (BitVec 64 × Bytes)
  /-- Gathers held for a version to close (R327), with the migration epoch they are stamped with (R245). -/
  heldGathers : List (Msg × BitVec 32)
  /-- Class A requests in receive buffers, oldest first (R289, R323). -/
  heldA       : List HeldReq
  /-- The next request ID of this module (Table 13.2). -/
  nextReq     : BitVec 64
  /-- The answers kept to the last 64 tunnel request numbers of each sender, by sender, generation and number, oldest first
  (Table 13.2). -/
  kept        : List ((BitVec 14 × BitVec 32 × BitVec 64) × BitVec 16 × Bytes)
deriving DecidableEq, Repr

structure Twin where
  state      : TwinState
  peerState  : TwinState
  couchUp    : Bool
  couchDown  : Bool
  lanes      : BitVec 16
  retiredLanes : BitVec 16
  /-- The twin's ATTACH frame has come and agrees (Table 13.10, step 2). -/
  peerOk     : Bool
  fseqTx     : BitVec 64
  fseqRx     : BitVec 64
  unacked    : List (BitVec 8 × Frame)
  suspect    : Bool
  probe      : Option (BitVec 64)
  probeNext  : BitVec 64
  hold       : Bool
  lsnTx      : BitVec 64
  lsnAcked   : BitVec 64
  lsnHeld    : BitVec 64
  lsnApplied : BitVec 64
  logHeld    : List LogRec
  /-- Log records sent that the twin has not applied: LSN and bytes in its log area (R333). -/
  logOut     : List (BitVec 64 × Nat)
  replica    : List (BitVec 16 × Nat × Bytes)
  mseqTx     : BitVec 64
  mseqAcked  : BitVec 64
  /-- Consumer index covered by each RELEASE record sent: (MSEQ, flow, CONS_INDEX). -/
  mseqLog    : List (BitVec 64 × BitVec 20 × Nat)
  mirrors    : List Mirror
  fences     : List Fence
  fenceNext  : BitVec 64
  leases     : List Lease
  leaseNext  : BitVec 64
  strapBad   : Bool
deriving DecidableEq, Repr

/-! ### Dictionary, reset, power, meter, security (14-17) -/

structure Grade where
  name    : BitVec 128
  /-- False for a grade shipped empty until its first write (R384). -/
  written : Bool
  rev     : BitVec 16
  entries : Assoc Nat
deriving DecidableEq, Repr

structure Furnish where
  rev     : BitVec 32
  entries : Assoc Nat
  /-- The image it came in (R382: the same revision is taken again only with the same image). -/
  image   : Bytes
deriving DecidableEq, Repr

/-- A DOMAIN write in progress (R377). -/
structure Transfer where
  path : Path
  key  : Nat
  got  : Bytes
deriving DecidableEq, Repr

structure Dictionary where
  /-- Live values of Furnish entries that a write has changed (R383). -/
  live      : Assoc Nat
  furnish   : Furnish
  pending   : Option Furnish
  grades    : Vector Grade 8
  active    : BitVec 3
  /-- The grade in force at reel 0 and the switches that have fired since the start (R279). -/
  start     : BitVec 3
  past      : List (BitVec 48 × BitVec 3)
  /-- Pending switches: reel and grade. -/
  schedule  : List (BitVec 48 × BitVec 3)
  /-- Overlays of revisions still stamped on items (R280). -/
  kept      : List (BitVec 3 × BitVec 16 × Assoc Nat)
  /-- Counters and other values of source Module, by key. -/
  values    : Assoc Nat
  transfers : List Transfer
  fwStaged  : Option Bytes
  swap      : Option (BitVec 6 × Bytes × Bool)
  coresOut  : List CoreId
  spareMap  : Assoc (BitVec 8)
  eventLog  : List (BitVec 16 × Nat)
  nmt       : BitVec 8
deriving DecidableEq, Repr

/-- Straps as latched (Table 17.5). -/
structure Straps where
  modid   : BitVec 14
  twinb   : Bool
  boot    : BitVec 2
  canNode : BitVec 7
  maxFail : BitVec 2
  tierbEn : Bool
  grade   : BitVec 2
  safeClk : Bool
deriving DecidableEq, Repr

/-- Where the start stands (Table 14.4). -/
inductive Boot where
  | inReset
  | starting
  | recovery
  | ready
deriving DecidableEq, Repr

/-- A reset window (R352, R353): the reach 0 power-on, 1 cold, 2 warm, 3 host interface. -/
structure Window where
  reach : Nat
  taken : List ResetSource
  low   : List ResetSource
deriving DecidableEq, Repr

structure Reset where
  boot        : Boot
  window      : Option Window
  hostReset   : Bool
  cause       : BitVec 32
  failCount   : BitVec 8
  counted     : Bool
  endedJobs   : List (BitVec 64 × BitVec 32)
  recoveryVat : BitVec 6
  scrub       : Bool
  journalSeq  : Nat
  /-- A warm reset has interrupted a rebalance, which has not resumed yet (R369). -/
  rebalDue    : Bool
  /-- REFCLK has left its range, and no start has found it back (R414). -/
  refclkOut   : Bool
  /-- Where a rebalance has put shards: table, shard, place (1 tier A, 2 tier B, 3 twin). -/
  shardPlace  : List (BitVec 16 × BitVec 16 × BitVec 8)
deriving DecidableEq, Repr

structure Power where
  level       : Nat
  /-- Dies on the floor clock, and stretches of each die since power-on. -/
  stretched   : BitVec 4
  stretches   : Vector Nat 4
  pwrGood     : Bool
  sense       : Bool
  /-- A condition of R391 has occurred since the last quiet hold interval. -/
  lastCond    : Bool
  /-- Ticks at which each die has entered its latest stretches, since they last lowered L (R391). -/
  recent      : Vector (List (BitVec 64)) 4
  /-- The latest 1 ms average input power in W and the latest temperature of each die's junction in degrees Celsius. -/
  watts       : Nat
  celsius     : Vector Nat 4
  /-- Since the hold interval began, the power or a junction has left what R392 asks for. -/
  disturbed   : Bool
  /-- The Vat that a calibration has taken from dispatch, and the next Vat of each die to be calibrated (R395). -/
  calVat      : Option (BitVec 6)
  calNext     : Vector (BitVec 4) 4
deriving DecidableEq, Repr

structure Report where
  number  : BitVec 64
  job     : BitVec 64
  flow    : BitVec 20
  batch   : Nat
  rows    : Nat
  rewrite : Bool
deriving DecidableEq, Repr

structure MeterEvent where
  seq     : BitVec 32
  seconds : BitVec 32
  code    : BitVec 16
  data    : BitVec 32
deriving DecidableEq, Repr

structure Meter where
  fitted     : Bool
  supplied   : Bool
  energy     : Nat
  stored     : Nat
  seconds    : Nat
  powerW     : Nat
  sealBreaks : BitVec 32
  sealClosed : Bool
  adjClosed  : Bool
  log        : List MeterEvent
  logCount   : BitVec 32
  rseq       : BitVec 64
  fwVersion  : BitVec 32
  fwCrc      : BitVec 32
  fwHeader   : Bytes
  gain       : BitVec 32
  offset     : BitVec 32
  /-- Tenant number to ROWS_RELEASED and ROWS_REWRITTEN. -/
  tenants    : Assoc (Nat × Nat)
  counted    : BitVec 64
  queue      : List Report
  nextReport : BitVec 64
  /-- NMT state of the meter's own node (Table 15.3). -/
  nmt        : BitVec 8
deriving DecidableEq, Repr

structure Security where
  state      : BitVec 8
  zeroised   : Nat
  tamper     : BitVec 8
  /-- Nonces the SC has generated since the first start (R407). -/
  nonceCount : Nat
  ownerKeys  : Bool
  /-- The provisioning image whose owner keys the SC holds; none: those it was shipped with (R405). -/
  ownerImage : Option Bytes
  deviceKey  : Nat
  /-- Namespace keys: present, and the generation that encrypted what is stored (R306, R405). -/
  nsKeys     : Bool
  nsKeyGen   : Nat
  ideKeys    : Vector Nat 4
  markEra    : Nat
  debugOpen  : Bool
  /-- What the open port reaches (SCOPE of Table 16.7): bit 1 the compute dies, bit 0 the I/O die. -/
  debugScope : BitVec 2
deriving DecidableEq, Repr

/-- The AES-256-XTS key pair of a namespace (R306): the namespace and the generation the SC made it in. -/
structure XtsKey where
  nsid : BitVec 32
  gen  : Nat
deriving DecidableEq, Repr

/-- A tier C block as it lies on the drive (R306): the data unit enciphered by AES-256-XTS, with the key pair and the tweak that
enciphered it. No block holds plaintext. -/
structure Block where
  key   : XtsKey
  tweak : BitVec 128
  sealed : Bytes
deriving DecidableEq, Repr

/-- A byte a core has stored while another core had a read stream bound (R124): the draw, and the byte before. -/
structure Stored where
  core : CoreId
  /-- The Vat that sees the byte before. -/
  vat  : BitVec 6
  draw : Nat
  addr : Nat
  old  : BitVec 8
deriving DecidableEq, Repr

structure Memory where
  /-- Memory-side bytes. -/
  bytes      : List Host.Cell
  l2         : List L2Line
  /-- DRAM symbol errors per line: 1 is corrected, 2 or more is uncorrectable (R300). -/
  ecc        : Assoc Nat
  /-- Corrected errors per DRAM row this scrub period (R301). -/
  rowErrors  : Assoc Nat
  sparesUsed : Assoc Nat
  /-- Usable bytes of the device on each tier B port; 0 when the port is left out or down. -/
  tierB      : Vector Nat 4
  /-- The tier B links have been trained since the last cold or power-on reset, or recovery mode. -/
  tierBUp    : Bool
  /-- Tier B ports that have gone down in service (R304). -/
  tierBDown  : BitVec 4
  /-- Namespaces whose LBA format the module does not use (R305). -/
  tierCUnused : List (BitVec 32)
  /-- Tier C blocks by namespace and LBA. -/
  tierC      : List (BitVec 32 × BitVec 64 × Block)
  /-- Bytes stored while read streams of other cores are bound, oldest first. -/
  stores     : List Stored
deriving DecidableEq, Repr

structure HostPort where
  cmdBase  : BitVec 64
  cmdSlots : BitVec 32
  cmdTail  : BitVec 32
  cmdHead  : BitVec 32
  cplBase  : BitVec 64
  cplCount : Nat
  /-- MB_REQ as the last request found it (Table 15.4). -/
  mbReq    : Bytes
  /-- MB_STATUS: bit 31 BUSY, and the status of the last request. -/
  mbStatus : BitVec 32
  mbResp   : Bytes
  /-- Commands in the ring that the module has not taken, because the first is a class A request held back (R289). -/
  waiting  : List Instr
deriving DecidableEq, Repr

/-- What the module has sent, oldest first: the model's own record of its outputs. -/
inductive Out where
  | completion (tag : BitVec 32) (status : BitVec 16) (final : Bool) (phase : Bool) (job : BitVec 64) (ring : BitVec 16)
  | answer (path : Path) (status : BitVec 16) (data : Bytes)
  /-- A node's USDO response on its CAN-ID: the value, or after a refusal the abort code (R375, R388). -/
  | usdo (id : BitVec 16) (status : BitVec 16) (data : Bytes)
  | fabric (type : BitVec 8) (m : Msg)
  /-- The receiver of a queue pair has no receive buffer posted (R323). -/
  | rnrNak (qp : BitVec 16)
  /-- A NAK for an invalid request, and a CNP on a received CE mark (R321). -/
  | nak (qp : BitVec 16)
  | cnp (qp : BitVec 16)
  /-- A copy of a message on one port (R338, R339). -/
  | fabricOn (port : BitVec 3) (type : BitVec 8) (m : Msg)
  /-- The content of a Couch frame as a class C message on a queue pair (R338; Table 13.2 gives it no TYPE). -/
  | framed (qp : BitVec 16) (type : BitVec 8) (f : Frame)
  /-- FENCE_NOTICE to the orchestrator, which has no module number (R339). -/
  | orchNotice (victim : BitVec 14) (gen : BitVec 32) (id : BitVec 64)
  | couch (type : BitVec 8) (f : Frame)
  | batch (ring : BitVec 12) (slot : Nat) (batch : Nat) (data : Bytes)
  | egress (ring : BitVec 12) (record : Bytes)
  | hostWrite (tag : BitVec 32) (data : Bytes)
  | can (id : BitVec 16) (data : Bytes)
  | report (r : Report)
  | reportAck (number : BitVec 64)
  | reportResend (number : BitVec 64)
  /-- A receiver's request for a resend (R195; the spec gives no message for it). -/
  | resend (holder : BitVec 14) (job : BitVec 64) (exch : BitVec 4)
  /-- A partial combining entry handed to the row's home module (R238; the spec gives no message for it). -/
  | combine (home : BitVec 14) (e : Combine)
deriving DecidableEq, Repr

/-- The whole module. -/
structure State where
  pending : List Instr
  cores   : Assoc Core
  mem     : Memory
  ports   : Assoc PortWindow
  units   : List UnitCmd
  pulpers : Vector Pulper 4
  hb      : Headbox
  felt    : Felt
  wm      : Watermark
  slurry  : List Exch
  fab     : Fabric
  twin    : Twin
  dict    : Dictionary
  straps  : Straps
  /-- The strap pins as the MC's three samples of the next power-on reset find them (R416). -/
  pins    : Vector Straps 3
  rst     : Reset
  pow     : Power
  meter   : Meter
  sec     : Security
  host    : HostPort
  /-- The 1 us tick (TICK of Table 2.9). -/
  tick    : BitVec 64
  sent    : List Out
  /-- The model's own counter of free values drawn (not the spec's). -/
  free    : Nat
deriving DecidableEq, Repr

/-! ### Reset -/

/-- An unbound stream register (R423). -/
def Stream.unbound : Stream :=
  { desc := 0, pos := 0, allocBase := 0, allocExtent := 0, bound := false, write := false, plane := 0, image := 0,
    index := [], since := 0 }

/-- A core at reset: the state R423 lists is zero; the rest is DESIGN CHOICE zero (log entry 1). -/
def Core.reset : Core :=
  { x := Vector.replicate 32 0, w := Vector.replicate 32 0, p := Vector.replicate 8 0,
    e := Vector.replicate 2 (Vector.replicate 16 0), st := Vector.replicate 16 Stream.unbound,
    pc := 0, active := false, firmware := false, item := none, itemPtr := 0, itemClass := 0,
    fpctl := 0, fpflags := 0, topkK := 0, topkst := 0, epc := 0, cause := 0, faddr := 0, evec := 0,
    cycle := 0, retired := 0, itemCycles := 0, kept := Vector.replicate 16 Stream.unbound, tickets := Vector.replicate 32 .free, handler := false, finishing := none,
    runahead := false, preempted := none, wordsRun := 0, lineUses := 0, otherUnit := false }

/-- A record number no allocation holds. -/
def Alloc.none : Alloc := { base := 0, extent := 0, tierB := false, rw := false, job := 0, gen := 0, live := false }

def PortWindow.reset : PortWindow := { draft := 0, dst := 0, ctrl := 0, stat := 0 }

/-- A die's Pulper with every engine in service (Table 6.1). -/
def Pulper.reset : Pulper :=
  { decompression := 16, jpeg := 16, pointRecord := 4, page := 16 }

def Headbox.reset : Headbox :=
  { reel := 0, lastReelEdge := false, delays := [], stampHorizon := 0, jobs := [], items := [], queued := [],
    rings := [], allocs := [], pull := true, slots := [], shardRuns := [], dispatchOff := [],
    reelQp := 0, winRequests := 0, winLines := 0, winPrevFailed := false, winLevel := 16, winItems := [],
    firmwareFault := [] }

def Felt.reset : Felt :=
  { tables := [], combines := [], pending := [], redirects := [], migEpoch := 0, waiting := [], windows := [] }

def Watermark.reset : Watermark :=
  { banks := Vector.replicate 4 (Vector.replicate 16 .free), sets := [] }

def Fabric.reset : Fabric :=
  { ports := 0xFF, retired := 0, qps := [], gen := 0, gens := [], peers := [], stopped := false,
    fenceSeen := [], responses := [], heldGathers := [], heldA := [], nextReq := 1, kept := [] }

def Twin.reset : Twin :=
  { state := .boot, peerState := .boot, couchUp := false, couchDown := false, lanes := 0xFFFF,
    retiredLanes := 0, peerOk := false, fseqTx := 0, fseqRx := 0, unacked := [], suspect := false, probe := none, probeNext := 1,
    hold := false, lsnTx := 0, lsnAcked := 0, lsnHeld := 0, lsnApplied := 0, logHeld := [], logOut := [], replica := [],
    mseqTx := 0, mseqAcked := 0, mseqLog := [], mirrors := [], fences := [], fenceNext := 1, leases := [],
    leaseNext := 1, strapBad := false }

/-- The grades at shipment (Table 15.15); NAME is the ASCII name, zero-padded, little-endian. -/
def Grade.shipped : Vector Grade 8 :=
  #v[{ name := 0x4E49415254, written := true, rev := 1, entries := [] },
     { name := 0x4556524553, written := true, rev := 1, entries := [(0x380004, 1)] },
     { name := 0x4C4C49464B434142, written := true, rev := 1, entries := [(0x400003, 1)] },
     { name := 0x47414944, written := true, rev := 1, entries := [(0x400004, 1), (0x400005, 10000)] },
     { name := 0, written := false, rev := 1, entries := [] }, { name := 0, written := false, rev := 1, entries := [] },
     { name := 0, written := false, rev := 1, entries := [] }, { name := 0, written := false, rev := 1, entries := [] }]

def Dictionary.reset : Dictionary :=
  { live := [], furnish := { rev := 1, entries := [], image := [] }, pending := none, grades := Grade.shipped, active := 0,
    start := 0, past := [], schedule := [], kept := [], values := [], transfers := [], fwStaged := none, swap := none,
    coresOut := [], spareMap := [], eventLog := [], nmt := 0x7F }

/-- Every strap open reads 0 (R412, Table 17.5). -/
def Straps.reset : Straps :=
  { modid := 0, twinb := false, boot := 0, canNode := 0, maxFail := 0, tierbEn := false, grade := 0, safeClk := false }

/-- Just after a power-on reset: the window has closed and the start has begun (Table 14.4, step 1). -/
def Reset.reset : Reset :=
  { boot := .starting, window := none, hostReset := false, cause := 0x00000001, failCount := 0, counted := false,
    endedJobs := [], recoveryVat := 0, scrub := false, journalSeq := 0, rebalDue := false, refclkOut := false, shardPlace := [] }

def Power.reset : Power :=
  { level := 16, stretched := 0, stretches := Vector.replicate 4 0, pwrGood := true,
    sense := true, lastCond := false, recent := Vector.replicate 4 [], watts := 0, celsius := Vector.replicate 4 0,
    disturbed := false, calVat := none, calNext := Vector.replicate 4 0 }

def Meter.reset : Meter :=
  { fitted := true, supplied := true, energy := 0, stored := 0, seconds := 0, powerW := 0, sealBreaks := 0,
    sealClosed := true, adjClosed := false, log := [], logCount := 0, rseq := 0, fwVersion := 0, fwCrc := 0,
    fwHeader := List.replicate 64 0, gain := 0, offset := 0, tenants := [], counted := 0, queue := [],
    nextReport := 1, nmt := 0x7F }

def Security.reset : Security :=
  { state := 0, zeroised := 0, tamper := 0, nonceCount := 0, ownerKeys := true, ownerImage := none, deviceKey := 1,
    nsKeys := true, nsKeyGen := 1, ideKeys := Vector.replicate 4 1, markEra := 1, debugOpen := false, debugScope := 0 }

def Memory.reset : Memory :=
  { bytes := [], l2 := [], ecc := [], rowErrors := [], sparesUsed := [], tierB := Vector.replicate 4 0, tierBUp := false, tierBDown := 0,
    tierCUnused := [], tierC := [], stores := [] }

def HostPort.reset : HostPort :=
  { cmdBase := 0, cmdSlots := 16, cmdTail := 0, cmdHead := 0, cplBase := 0, cplCount := 0, mbReq := [], mbStatus := 0, mbResp := [], waiting := [] }

/-- The module right after a power-on reset, with nothing commanded yet. -/
def State.reset : State :=
  { pending := [], cores := [], mem := Memory.reset, ports := [], units := [],
    pulpers := Vector.replicate 4 Pulper.reset, hb := Headbox.reset, felt := Felt.reset, wm := Watermark.reset,
    slurry := [], fab := Fabric.reset, twin := Twin.reset, dict := Dictionary.reset, straps := Straps.reset,
    pins := Vector.replicate 3 Straps.reset, rst := Reset.reset, pow := Power.reset, meter := Meter.reset, sec := Security.reset, host := HostPort.reset,
    tick := 0, sent := [], free := 0 }

end Sys2Proof.Machine
end

