-- ==== Sys2Proof/Machine/Ops.lean ====
section
/-! DEFINITION. The named operations over sparse collections, byte strings, memory, cached lines, registers and
tickets, and the module's outputs. Everything else reads and writes the state through these. -/

namespace Sys2Proof.Machine

open Sys2Proof

/-! ### Sparse collections in canonical form -/

/-- The value at a key; an unlisted key reads as `d`. -/
def Assoc.get {α : Type} (d : α) : Assoc α → Nat → α
  | [], _ => d
  | (k, v) :: m, a => if k = a then v else Assoc.get d m a

/-- The collection without a key. -/
def Assoc.erase {α : Type} : Assoc α → Nat → Assoc α
  | [], _ => []
  | (k, v) :: m, a => if k = a then Assoc.erase m a else (k, v) :: Assoc.erase m a

/-- Put an entry before the first larger key. -/
def Assoc.place {α : Type} : Assoc α → Nat → α → Assoc α
  | [], a, x => [(a, x)]
  | (k, v) :: m, a, x => if a < k then (a, x) :: (k, v) :: m else (k, v) :: Assoc.place m a x

/-- Write a key; writing the default removes the entry, so that equal collections are equal data. -/
def Assoc.set {α : Type} [DecidableEq α] (d : α) (m : Assoc α) (a : Nat) (x : α) : Assoc α :=
  if x = d then Assoc.erase m a else Assoc.place (Assoc.erase m a) a x

/-- Keys strictly rising and above `lo`, and no entry equal to the default. -/
def Assoc.wfFrom {α : Type} [DecidableEq α] (d : α) : Option Nat → Assoc α → Bool
  | _, [] => true
  | lo, (k, v) :: m =>
    (match lo with | none => true | some l => decide (l < k)) && decide (v ≠ d) && Assoc.wfFrom d (some k) m

def Assoc.wf {α : Type} [DecidableEq α] (d : α) (m : Assoc α) : Bool := Assoc.wfFrom d none m

/-! ### Byte strings (R2) -/

/-- The number a little-endian byte string holds. -/
def leVal : Bytes → Nat
  | [] => 0
  | b :: bs => b.toNat + 256 * leVal bs

/-- `n` bytes of a number, least significant first. -/
def leBytes : Nat → Nat → Bytes
  | 0, _ => []
  | n + 1, v => BitVec.ofNat 8 v :: leBytes n (v / 256)

/-- The `n`-byte field at an offset; bytes beyond the end read as zero. -/
def fieldAt (b : Bytes) (off n : Nat) : Nat := leVal ((b.drop off).take n)

/-- The byte string with the bytes at an offset replaced. -/
def putAt (b : Bytes) (off : Nat) (x : Bytes) : Bytes := b.take off ++ x ++ b.drop (off + x.length)

def zeros (n : Nat) : Bytes := List.replicate n 0

/-- The lowest of `k` numbers from `n` on for which `p` holds. -/
def firstFrom (p : Nat → Bool) : Nat → Nat → Option Nat
  | 0, _ => none
  | k + 1, n => if p n then some n else firstFrom p k (n + 1)

/-- The bytes of a record of `n` bytes from (offset, size, value) fields; other bytes are zero (R4). -/
def record (n : Nat) (fs : List (Nat × Nat × Nat)) : Bytes :=
  fs.foldl (fun b f => putAt b f.1 (leBytes f.2.1 f.2.2)) (zeros n)

def roundUpTo (n k : Nat) : Nat := (n + (k - 1)) / k * k

def ceilDiv (n k : Nat) : Nat := (n + (k - 1)) / k

/-- All bytes zero: a reserved field as R4 wants it. -/
def allZero (b : Bytes) : Bool := b.all (· == 0)

/-! ### CRC-32C (R199) -/

def crcBit : Nat → BitVec 32 → BitVec 32
  | 0, r => r
  | n + 1, r => crcBit n (if r.getLsbD 0 then (r >>> 1) ^^^ 0x82F63B78#32 else r >>> 1)

/-- CRC-32C of a byte string from an initial value. -/
def crc32c (s : BitVec 32) (m : Bytes) : BitVec 32 :=
  (m.foldl (fun r b => crcBit 8 (r ^^^ b.setWidth 32)) (s ^^^ 0xFFFFFFFF#32)) ^^^ 0xFFFFFFFF#32

/-- The module is in service. -/
def State.up (s : State) : Bool := s.rst.boot = .ready

/-! ### Outputs, free values, event log, counters -/

def State.emit (s : State) (o : Out) : State := { s with sent := s.sent ++ [o] }

/-- Advance the model's counter of free values. -/
def State.drawn (s : State) : State := { s with free := s.free + 1 }

/-- Add an entry to the MC event log. -/
def State.logEvent (s : State) (code : BitVec 16) (data : Nat) : State :=
  { s with dict := { s.dict with eventLog := s.dict.eventLog ++ [(code, data)] } }

/-- Read a value of source Module. -/
def State.modVal (s : State) (key d : Nat) : Nat := Assoc.get d s.dict.values key

def State.setModVal (s : State) (key d v : Nat) : State :=
  { s with dict := { s.dict with values := Assoc.set d s.dict.values key v } }

/-- Add to a counter of source Module, default 0. -/
def State.bump (s : State) (key n : Nat) : State := s.setModVal key 0 (s.modVal key 0 + n)

/-- MEM_POISON (Table 2.10): the status of a read that stayed uncorrectable (R23). -/
def poisonStatus : BitVec 16 := 0x0107

/-- A read that stayed uncorrectable is counted (ECC_UNCORRECTABLE, Table 12.9). -/
def State.notePoison (s : State) (st : BitVec 16) : State := if st = poisonStatus then s.bump 0x48000F 1 else s

/-- The live value of a Furnish entry: an edit, else the furnish, else the default (R383). -/
def State.furn (s : State) (key d : Nat) : Nat :=
  Assoc.get (Assoc.get d s.dict.furnish.entries key) s.dict.live key

/-- The value of a Grade entry under an overlay: the overlay, else the furnish, else the default (15, Grades). -/
def State.gradeIn (s : State) (overlay : Assoc Nat) (key d : Nat) : Nat :=
  Assoc.get (Assoc.get d s.dict.furnish.entries key) overlay key

/-- The overlay of the grade in force. -/
def State.activeOverlay (s : State) : Assoc Nat := (s.dict.grades[s.dict.active.toNat]).entries

/-- The value of a Grade entry in the grade in force. -/
def State.gradeVal (s : State) (key d : Nat) : Nat := s.gradeIn s.activeOverlay key d

/-- The overlay of a stamped grade revision (R280): the current one, or the one kept for items that carry it. -/
def State.stampedOverlay (s : State) (grade : BitVec 8) (rev : BitVec 16) : Assoc Nat :=
  let n : BitVec 3 := grade.setWidth 3
  let g := s.dict.grades[n.toNat]
  if g.rev = rev then g.entries
  else match s.dict.kept.find? (fun k => k.1 = n && k.2.1 = rev) with
    | some k => k.2.2
    | none => g.entries

/-! ### Address map (Table 12.1, R297) -/

inductive Region where
  | tierA
  | tierB
  | rootRegs
  | ports
  | l2Window
  | l3Window
  | unmapped
deriving DecidableEq, Repr

def tierAEnd : Nat := 0x02540BE40000
def tierBBase : Nat := 0x040000000000

/-- Usable tier B bytes in the window: absent with STRAP_TIERB_EN clear (R304). -/
def State.tierBBytes (s : State) : Nat :=
  if s.straps.tierbEn then s.mem.tierB.foldl (· + ·) 0 else 0

/-- The home die of an address (R298, R299). -/
def homeDie (a : Nat) : Nat :=
  if tierBBase ≤ a then a / 4096 % 4 else if a / 0x009502F90000 < 4 then a / 0x009502F90000 else 3

/-- The stack of a tier A address (R298): stack 8d + (g mod 8) for granule g of die region d. -/
def stackOf (a : Nat) : Nat := 8 * homeDie a + (a - homeDie a * 0x009502F90000) / 4096 % 8

/-- A DRAM row of the module: its row in the stack and the stack. -/
def rowOfLine (n : Nat) : Nat := 32 * Config.dramRow n + stackOf (64 * n)

/-- The bank of a DRAM row. -/
def bankOfRow (r : Nat) : Nat := 32 * Config.dramBank (r / 32) + r % 32

def vatDie (v : BitVec 6) : BitVec 2 := v.extractLsb' 4 2

/-- The stack behind a tier A address runs: in recovery mode only those of the recovery Vat's die (Table 14.6). -/
def State.stackUp (s : State) (a : Nat) : Bool :=
  s.rst.boot ≠ .recovery || homeDie a = (vatDie s.rst.recoveryVat).toNat

def State.region (s : State) (a : Nat) : Region :=
  if a < tierAEnd then (if s.stackUp a then .tierA else .unmapped)
  else if tierBBase ≤ a && a < tierBBase + s.tierBBytes && a < 0x0C0000000000 then .tierB
  else if 0xF00000000000 ≤ a && a < 0xF00000100000 then .rootRegs
  else if 0xF00000100000 ≤ a && a < 0xF00000200000 then .ports
  else if 0xF10000000000 ≤ a && a < 0xF10020000000 then .l2Window
  else if 0xF20000000000 ≤ a && a < 0xF20010000000 then .l3Window
  else .unmapped

/-- The byte lies in tier A or the populated tier B window. -/
def State.plain (s : State) (a : Nat) : Bool :=
  match s.region a with
  | .tierA => true
  | .tierB => true
  | _ => false

/-- Every byte of a range lies in tier A, or every byte in the tier B window: the map has one range of each. -/
def State.plainRange (s : State) (a n : Nat) : Bool :=
  n == 0 || (s.plain a && s.plain (a + n - 1) && s.region a == s.region (a + n - 1))

/-- Fixed places of the model (DESIGN CHOICE, log entry 12): context areas, item store. -/
def contextBase : Nat := 0
def itemStoreBase : Nat := 0x100000000
def itemStoreEnd : Nat := 0x200000000

/-- Bytes of a die region of tier A (R298). -/
def dieBytes : Nat := 0x009502F90000

/-- In recovery mode the fixed places lie in the region of the recovery Vat's die, whose stacks alone run. -/
def State.dieShift (s : State) : Nat := if s.rst.boot = .recovery then dieBytes * (vatDie s.rst.recoveryVat).toNat else 0

/-- The end of the tier A the module allocates from. -/
def State.tierATop (s : State) : Nat := if s.rst.boot = .recovery then s.dieShift + dieBytes else tierAEnd

/-- An access touches the item store. -/
def State.inItemStore (s : State) (a n : Nat) : Bool :=
  a < itemStoreEnd + s.dieShift && itemStoreBase + s.dieShift < a + n

/-! ### Memory side -/

/-- A byte at the memory side; a byte nothing has written reads zero (log entry 2). -/
def Memory.byte (m : Memory) (a : Nat) : BitVec 8 := Assoc.get 0 m.bytes a

def Memory.setByte (m : Memory) (a : Nat) (b : BitVec 8) : Memory :=
  { m with bytes := Assoc.set 0 m.bytes a b }

def Memory.read (m : Memory) (a : Nat) : Nat → Bytes
  | 0 => []
  | n + 1 => m.byte a :: Memory.read m (a + 1) n

def Memory.write (m : Memory) (a : Nat) : Bytes → Memory
  | [] => m
  | b :: bs => Memory.write (m.setByte a b) (a + 1) bs

def bytesToLine (b : Bytes) : BitVec 512 := BitVec.ofNat 512 (leVal b)
def lineToBytes (l : BitVec 512) : Bytes := leBytes 64 l.toNat

def Memory.line (m : Memory) (n : Nat) : BitVec 512 := bytesToLine (m.read (64 * n) 64)

/-- Present tier B ports, in port order. -/
def Memory.portsIn (m : Memory) : List (Nat × Nat) :=
  (List.range 4).filterMap (fun p => match m.tierB[p]? with
    | some n => if n = 0 then none else some (p, n)
    | none => none)

/-- The port that holds a place in concatenated capacities. -/
def portAfter : List (Nat × Nat) → Nat → Option Nat
  | [], _ => none
  | (p, n) :: ps, o => if o < n then some p else portAfter ps (o - n)

/-- The port behind an offset in the tier B window (R299): interleaved by 4 KiB granules when all capacities are equal,
otherwise one after the other. -/
def Memory.portOf (m : Memory) (off : Nat) : Option Nat :=
  let ps := m.portsIn
  match ps with
  | [] => none
  | (_, n) :: _ =>
    if ps.all (fun q => q.2 = n) then (ps[off / 4096 % ps.length]?).map (·.1) else portAfter ps off

/-- A range has a byte behind a tier B port. -/
def Memory.onPort (m : Memory) (a n : Nat) (port : Nat) : Bool :=
  (List.range ((a + n - 1) / 4096 - a / 4096 + 1)).any (fun g =>
    let b := (a / 4096 + g) * 4096
    tierBBase ≤ b && m.portOf (b - tierBBase) = some port)

/-- A range lies on a tier B port that is down (R304). -/
def Memory.portDown (m : Memory) (a n : Nat) : Bool :=
  m.tierBDown ≠ 0 && n ≠ 0 && (List.range 4).any (fun p => m.tierBDown.getLsbD p && m.onPort a n p)

/-- A range holds a line whose data comes back marked uncorrectable (R300), or lies on a tier B port that is down (R304). -/
def Memory.poisoned (m : Memory) (a n : Nat) : Bool :=
  m.ecc.any (fun e => 2 ≤ e.2 && a < 64 * (e.1 + 1) && 64 * e.1 < a + n) || m.portDown a n

/-- A read of a line at the memory side cannot be corrected, or is on a port that is down. -/
def Memory.lineBad (m : Memory) (n : Nat) : Bool := 2 ≤ Assoc.get 0 m.ecc n || m.portDown (64 * n) 64

/-- Lines that a write of `n` bytes fills whole get a new ECC (log entry 125). -/
def Memory.renew (m : Memory) (a n : Nat) : Memory :=
  { m with ecc := m.ecc.filter (fun e => !(a ≤ 64 * e.1 && 64 * (e.1 + 1) ≤ a + n)) }

def State.memWrite (s : State) (a : Nat) (b : Bytes) : State := { s with mem := (s.mem.write a b).renew a b.length }
def State.memRead (s : State) (a n : Nat) : Bytes := s.mem.read a n

/-! ### Cached lines of a Vat (R11, R51-R58) -/

def l2Find (ls : List L2Line) (vat : BitVec 6) (n : Nat) : Option L2Line :=
  ls.find? (fun l => l.vat = vat && l.line = n)

def l2Drop (ls : List L2Line) (vat : BitVec 6) (n : Nat) : List L2Line :=
  ls.filter (fun l => !(l.vat = vat && l.line = n))

/-- The memory side of a line as a Vat reaches it: another Vat's dirty copy may or may not have been written back
(R11). -/
def State.belowLine (s : State) (vat : BitVec 6) (n : Nat) : BitVec 512 :=
  match s.mem.l2.find? (fun l => l.line = n && l.dirty && l.vat ≠ vat && Config.replaced s.free l.vat.toNat n) with
  | some l => l.data
  | none => s.mem.line n

/-- What a core of a Vat sees in a line: the Vat's dirty copy (R51), its clean copy unless replaced meanwhile, and
otherwise the memory side. -/
def State.seenLine (s : State) (vat : BitVec 6) (n : Nat) : BitVec 512 :=
  match l2Find s.mem.l2 vat n with
  | some l => if l.dirty || !Config.replaced s.free vat.toNat n then l.data else s.belowLine vat n
  | none => s.belowLine vat n

def State.seenByte (s : State) (vat : BitVec 6) (a : Nat) : BitVec 8 :=
  (s.seenLine vat (a / 64)).extractLsb' (8 * (a % 64)) 8

def State.seen (s : State) (vat : BitVec 6) (a : Nat) : Nat → Bytes
  | 0 => []
  | n + 1 => s.seenByte vat a :: State.seen s vat (a + 1) n

/-- A Vat's read of a line comes back uncorrectable: its copy is poisoned, or it has none and the memory side is (R300). -/
def State.lineLost (s : State) (vat : BitVec 6) (n : Nat) : Bool :=
  match l2Find s.mem.l2 vat n with
  | some l => l.poison
  | none => s.mem.lineBad n

/-- Put a Vat's copy of a line in place; a copy made over bytes that cannot be read is poisoned. -/
def State.putLine (s : State) (vat : BitVec 6) (n : Nat) (dirty : Bool) (data : BitVec 512) : State :=
  { s with mem := { s.mem with
      l2 := { vat := vat, line := n, dirty := dirty, data := data, poison := s.lineLost vat n } ::
        l2Drop s.mem.l2 vat n } }

/-- A store that fills lines whole does not read them (R307), and its copies are good. -/
def State.heal (s : State) (vat : BitVec 6) (whole : List Nat) : State :=
  { s with mem := { s.mem with l2 := s.mem.l2.map (fun l =>
      if l.vat = vat && whole.contains l.line then { l with poison := false } else l) } }

/-- Lines that a list of stored bytes fills whole. -/
def wholeLines (cs : List (Nat × BitVec 8)) : List Nat :=
  ((cs.map (fun c => c.1 / 64)).eraseDups).filter (fun n => (List.range 64).all (fun i => cs.any (fun c => c.1 = 64 * n + i)))

/-- A read leaves a copy of the line in the Vat's caches; a dirty copy stays dirty. -/
def State.touchLine (s : State) (vat : BitVec 6) (n : Nat) : State :=
  let dirty := match l2Find s.mem.l2 vat n with
    | some l => l.dirty
    | none => false
  s.putLine vat n dirty (s.seenLine vat n)

/-- Lines `n` to `n + k − 1` are read by a core of the Vat. -/
def State.touchLines (s : State) (vat : BitVec 6) (n : Nat) : Nat → State
  | 0 => s
  | k + 1 => State.touchLines (s.touchLine vat n) vat (n + 1) k

/-- Lines a range of `len` bytes overlaps. -/
def lineSpan (a len : Nat) : Nat := if len = 0 then 0 else (a + len - 1) / 64 - a / 64 + 1

def State.touch (s : State) (vat : BitVec 6) (a len : Nat) : State := s.touchLines vat (a / 64) (lineSpan a len)

def setLineByte (l : BitVec 512) (i : Nat) (b : BitVec 8) : BitVec 512 :=
  bytesToLine (putAt (lineToBytes l) i [b])

/-- A core's store of one byte: the line is allocated in the Vat's caches and marked dirty. -/
def State.storeByte (s : State) (vat : BitVec 6) (a : Nat) (b : BitVec 8) : State :=
  s.putLine vat (a / 64) true (setLineByte (s.seenLine vat (a / 64)) (a % 64) b)

def State.store (s : State) (vat : BitVec 6) (a : Nat) : Bytes → State
  | [] => s
  | b :: bs => State.store (s.storeByte vat a b) vat (a + 1) bs

/-- Store the bytes of a list of (address, byte) pairs, in order. -/
def State.storeCells (s : State) (vat : BitVec 6) : List (Nat × BitVec 8) → State
  | [] => s
  | (a, b) :: cs => State.storeCells (s.storeByte vat a b) vat cs

/-- Write a Vat's dirty copy of a line back to the memory side, with its mark when it is poisoned; the copy stays, clean. -/
def State.flushLine (s : State) (vat : BitVec 6) (n : Nat) : State :=
  match l2Find s.mem.l2 vat n with
  | some l =>
    if l.dirty then
      let t := (s.memWrite (64 * n) (lineToBytes l.data)).putLine vat n false l.data
      if l.poison then { t with mem := { t.mem with ecc := Assoc.set 0 t.mem.ecc n 2 } } else t
    else s
  | none => s

/-- Write back and drop a Vat's copy of a line. -/
def State.invalLine (s : State) (vat : BitVec 6) (n : Nat) : State :=
  let s := s.flushLine vat n
  { s with mem := { s.mem with l2 := l2Drop s.mem.l2 vat n } }

/-- The lines of a Vat's copies that overlap a range. -/
def State.linesIn (s : State) (vat : BitVec 6) (a len : Nat) : List Nat :=
  (s.mem.l2.filter (fun l => l.vat = vat && 0 < len && a < 64 * (l.line + 1) && 64 * l.line < a + len)).map (·.line)

/-- FLUSH over a range (Table 2.8). -/
def State.flushRange (s : State) (vat : BitVec 6) (a len : Nat) : State :=
  (s.linesIn vat a len).foldl (fun s n => s.flushLine vat n) s

/-- INVAL over a range (Table 2.8). -/
def State.invalRange (s : State) (vat : BitVec 6) (a len : Nat) : State :=
  (s.linesIn vat a len).foldl (fun s n => s.invalLine vat n) s

/-- Write back every dirty line of a Vat and drop its copies (R358). -/
def State.invalVat (s : State) (vat : BitVec 6) : State :=
  ((s.mem.l2.filter (fun l => l.vat = vat)).map (·.line)).foldl (fun s n => s.invalLine vat n) s

/-! ### Registers -/

def coreNum (c : CoreId) : Nat := 16 * c.vat.toNat + c.core.toNat
def coreOf (n : Nat) : CoreId := { vat := BitVec.ofNat 6 (n / 16), core := BitVec.ofNat 4 n }
def State.core (s : State) (c : CoreId) : Core := Assoc.get Core.reset s.cores (coreNum c)
def State.setCore (s : State) (c : CoreId) (k : Core) : State :=
  { s with cores := Assoc.set Core.reset s.cores (coreNum c) k }

/-- X0 reads as zero (R28, R29). -/
def Core.getX (k : Core) (r : BitVec 5) : BitVec 64 := if r = 0 then 0 else k.x[r.toNat]

/-- A write to X0 is discarded (R29). -/
def Core.setX (k : Core) (r : BitVec 5) (v : BitVec 64) : Core :=
  if r = 0 then k else { k with x := k.x.set r.toNat v }

def Core.getW (k : Core) (r : BitVec 5) : BitVec 4096 := k.w[r.toNat]
def Core.setW (k : Core) (r : BitVec 5) (v : BitVec 4096) : Core := { k with w := k.w.set r.toNat v }
def Core.getP (k : Core) (r : BitVec 3) : BitVec 512 := k.p[r.toNat]
def Core.setP (k : Core) (r : BitVec 3) (v : BitVec 512) : Core := { k with p := k.p.set r.toNat v }
def Core.getE (k : Core) (r : BitVec 1) : Vector (BitVec 576) 16 := k.e[r.toNat]
def Core.setE (k : Core) (r : BitVec 1) (v : Vector (BitVec 576) 16) : Core := { k with e := k.e.set r.toNat v }
def Core.getS (k : Core) (r : BitVec 4) : Stream := k.st[r.toNat]
def Core.setS (k : Core) (r : BitVec 4) (v : Stream) : Core := { k with st := k.st.set r.toNat v }
def Core.getT (k : Core) (t : BitVec 5) : Ticket := k.tickets[t.toNat]
def Core.setT (k : Core) (t : BitVec 5) (v : Ticket) : Core := { k with tickets := k.tickets.set t.toNat v }

/-- The tickets of a class (R49): A has 24-31, B and C have 0-23. -/
def ticketLo (cls : BitVec 2) : Nat := if cls = 0 then 24 else 0
def ticketHi (cls : BitVec 2) : Nat := if cls = 0 then 31 else 23

/-- The class a core's tickets and unit commands take: the item's, or in firmware mode that of class C. -/
def Core.cls (k : Core) : BitVec 2 := if k.firmware then 2 else k.itemClass

/-- The ticket number is one of the running item's class. -/
def Core.owns (k : Core) (i : Nat) : Bool := ticketLo k.cls ≤ i && i ≤ ticketHi k.cls

/-- Some completed ticket of the running item tells of a unit read that failed (R424). -/
def Core.unitFailed (k : Core) : Bool :=
  (List.range 32).any (fun i => k.owns i && k.tickets[i]? = some (.complete 0x0107))

/-- Bitmap of the item's outstanding tickets (TICKETS of Table 2.9): pending, or completed and not yet reported (R49). -/
def Core.ticketMap (k : Core) : BitVec 64 :=
  BitVec.ofNat 64 ((List.range 32).foldl (fun a i =>
    if k.owns i && k.tickets[i]? ≠ some .free then a + 2 ^ i else a) 0)

/-- Some ticket of the item in `lo` to `hi` is still pending. -/
def Core.anyPending (k : Core) (lo hi : Nat) : Bool :=
  (List.range 32).any (fun i => lo ≤ i && i ≤ hi && k.tickets[i]? = some .pending)

def Core.freeTicket (k : Core) (cls : BitVec 2) : Option (BitVec 5) :=
  ((List.range 32).find? (fun i => ticketLo cls ≤ i && i ≤ ticketHi cls && k.tickets[i]? = some .free)).map
    (BitVec.ofNat 5)

/-- Complete a ticket with a status (R48). -/
def State.completeTicket (s : State) (c : CoreId) (t : BitVec 5) (st : BitVec 16) : State :=
  let k := s.core c
  if k.getT t = .pending then s.setCore c (k.setT t (.complete st)) else s

/-- Per-line and per-word accounting of condition 5 (Table 12.5). -/
def Core.used (k : Core) (lines : Nat) : Core := { k with lineUses := k.lineUses + lines }

/-! ### Jobs, flows, items -/

def State.item? (s : State) (key : ItemKey) : Option Item := s.hb.items.find? (fun i => i.key = key)

def State.setItem (s : State) (it : Item) : State :=
  { s with hb := { s.hb with items := s.hb.items.map (fun i => if i.key = it.key then it else i) } }

def State.job? (s : State) (j : BitVec 64) : Option Job := s.hb.jobs.find? (fun x => x.job = j)

def State.setJob (s : State) (j : Job) : State :=
  { s with hb := { s.hb with jobs := s.hb.jobs.map (fun x => if x.job = j.job then j else x) } }

/-- The loaded job and flow of a flow ID (flow IDs are unique on the module, R276). -/
def State.flow? (s : State) (f : BitVec 20) : Option (Job × FlowRun) :=
  s.hb.jobs.findSome? (fun j => (j.flows.find? (fun r => r.decl.flow = f)).map (fun r => (j, r)))

def Job.setFlow (j : Job) (r : FlowRun) : Job :=
  { j with flows := j.flows.map (fun x => if x.decl.flow = r.decl.flow then r else x) }

def State.setFlow (s : State) (r : FlowRun) : State :=
  { s with hb := { s.hb with jobs := s.hb.jobs.map (fun j => j.setFlow r) } }


/-- A core is in service: not retired without a spare (R10). -/
def State.coreInService (s : State) (c : CoreId) : Bool := !(s.dict.coresOut.contains c)

def State.idle (s : State) (c : CoreId) : Bool := !(s.core c).active && s.coreInService c

/-- Post a command completion (Table 15.7); PHASE follows the completion count. -/
def State.complete (s : State) (tag : BitVec 32) (st : BitVec 16) (final : Bool) (job : BitVec 64)
    (ring : BitVec 16) : State :=
  let ph := (s.host.cplCount / s.host.cmdSlots.toNat + 1) % 2 == 1
  { s with host := { s.host with cplCount := s.host.cplCount + 1 },
           sent := s.sent ++ [.completion tag st final ph job ring] }

end Sys2Proof.Machine
end

