-- ==== Sys2Proof/Machine/Lanes.lean ====
section
/-! DEFINITION. Elements of vector registers and predicates (R30, R31): reading an element, packing elements, and
governing a result by a predicate with or without zeroing. -/

namespace Sys2Proof.Machine

open Sys2Proof

/-- Elements of a vector register for an element width. -/
def laneCount (w : Nat) : Nat := 512 / w

/-- Element i of a vector register at width w. -/
def lane (w : Nat) (v : BitVec 4096) (i : Nat) : Nat := v.toNat / 2 ^ (8 * w * i) % 2 ^ (8 * w)

/-- The number whose digits of w bytes are the listed elements, the first lowest. -/
def packNat (w : Nat) : List Nat → Nat
  | [] => 0
  | x :: xs => x % 2 ^ (8 * w) + 2 ^ (8 * w) * packNat w xs

def packLanes (w : Nat) (xs : List Nat) : BitVec 4096 := BitVec.ofNat 4096 (packNat w xs)

/-- Element i is governed by predicate bit i × w (R30). -/
def laneOn (w : Nat) (p : BitVec 512) (i : Nat) : Bool := p.getLsbD (i * w)

/-- The bits of predicate elements, w bits each, the first lowest. -/
def predBits (w : Nat) : List Bool → Nat
  | [] => 0
  | b :: bs => (if b then 2 ^ w - 1 else 0) + 2 ^ w * predBits w bs

/-- A predicate that sets all w bits of each element named true (R30). -/
def predOf (w : Nat) (f : Nat → Bool) : BitVec 512 :=
  BitVec.ofNat 512 (predBits w ((List.range (laneCount w)).map f))

/-- The result in active elements; in the others zero with zm set, else the old element (R31). -/
def governed (w : Nat) (pg : BitVec 512) (zm : Bool) (old : BitVec 4096) (f : Nat → Nat) : BitVec 4096 :=
  packLanes w ((List.range (laneCount w)).map (fun i =>
    if laneOn w pg i then f i else if zm then 0 else lane w old i))

/-- As `governed` for rounded results, with the flags of the active elements together. -/
def governedR (w : Nat) (pg : BitVec 512) (zm : Bool) (old : BitVec 4096) (f : Nat → Rounded) :
    BitVec 4096 × BitVec 5 :=
  let rs := (List.range (laneCount w)).map (fun i =>
    if laneOn w pg i then f i else { bits := if zm then 0 else lane w old i, flags := 0 })
  (packLanes w (rs.map (·.bits)), rs.foldl (fun a r => a ||| r.flags) 0)

/-- Active elements under a predicate, in element order. -/
def activeLanes (w : Nat) (pg : BitVec 512) : List Nat :=
  (List.range (laneCount w)).filter (laneOn w pg)

/-- The 512 bytes of a vector register, byte lane 0 first. -/
def vecBytes (v : BitVec 4096) : Bytes := leBytes 512 v.toNat
def vecOfBytes (b : Bytes) : BitVec 4096 := BitVec.ofNat 4096 (leVal b)
def predBytes (p : BitVec 512) : Bytes := leBytes 64 p.toNat
def predOfBytes (b : Bytes) : BitVec 512 := BitVec.ofNat 512 (leVal b)

end Sys2Proof.Machine
end

