-- ==== Sys2Proof/Machine/Exact.lean ====
section
/-! DEFINITION. Exact accumulator lanes (R76 to R79): 576-bit two's complement integers in units of 2^-298, their
byte layout, and rounding a lane or an exact quotient of lanes. -/

namespace Sys2Proof.Machine

open Sys2Proof

/-- The integer a lane holds. -/
def laneInt (l : BitVec 576) : Int := l.toInt

def laneOfInt (v : Int) : BitVec 576 := BitVec.ofInt 576 v

/-- The range of R76. -/
def laneFits (v : Int) : Bool := decide (-(2 ^ 575 : Int) ≤ v ∧ v < (2 ^ 575 : Int))

/-- An input of VEACC in units of 2^-298, or none for a NaN or an infinity (R77). -/
def exactInput (t bits : Nat) : Option Int :=
  if etypeIsFloat t then
    match (fmtOf t).decode bits with
    | .fin n m e => some (finAt n m e (-298))
    | _ => none
  else some (intVal (etypeSigned t) (etypeBytes t) bits * (2 ^ 298 : Nat))

/-- The square of an input of VESQ in units of 2^-298; the square of a multiple of 2^-149 is a multiple of it. -/
def exactSquare (t bits : Nat) : Option Int :=
  if etypeIsFloat t then
    match (fmtOf t).decode bits with
    | .fin _ m e => some (finAt false (m * m) (e + e) (-298))
    | _ => none
  else
    let v := intVal (etypeSigned t) (etypeBytes t) bits
    some (v * v * (2 ^ 298 : Nat))

/-- Lanes as 16 little-endian images of 72 bytes (ELD, EST). -/
def lanesBytes (e : Vector (BitVec 576) 16) : Bytes := e.toList.flatMap (fun l => leBytes 72 l.toNat)

def lanesOfBytes (b : Bytes) : Vector (BitVec 576) 16 :=
  Vector.ofFn (fun j => BitVec.ofNat 576 (fieldAt b (72 * j.val) 72))

/-- Add a list of (lane, amount) pairs; none when a lane would leave its range (R78). -/
def addLanes (e : Vector (BitVec 576) 16) (xs : List (Nat × Int)) : Option (Vector (BitVec 576) 16) :=
  let sums := (List.range 16).map (fun j =>
    xs.foldl (fun a x => if x.1 = j then a + x.2 else a) (laneInt (e[j]?.getD 0)))
  if sums.all laneFits then some (Vector.ofFn (fun j => laneOfInt (sums[j.val]?.getD 0))) else none

/-- A lane rounded once to nearest-even into FP32 or FP64 (R79). -/
def roundLane (f : FpFmt) (v : Int) : Rounded := f.roundDyadic 0 (v < 0) v.natAbs (-298)

end Sys2Proof.Machine
end

