-- ==== Sys2Proof/Machine/Hash.lean ====
section
/-! DEFINITION. The three hash functions of R199 to R202 over byte strings, and the canonical join key of R170. -/

namespace Sys2Proof.Machine

open Sys2Proof

/-! ### Deckle hash 64 (R201) -/

def deckleK1 : BitVec 64 := 0x9E3779B97F4A7C15
def deckleK2 : BitVec 64 := 0xA3B195C72E4D6F0B
def deckleK3 : BitVec 64 := 0x5F3C8E17D2A4B961

def deckleMix (w : BitVec 64) : BitVec 64 := (w * deckleK3).rotateLeft 31 * deckleK1

/-- One 8-byte word, or the zero-extended tail, taken into the running hash. -/
def deckleStep (h : BitVec 64) (w : Bytes) : BitVec 64 :=
  (h ^^^ deckleMix (BitVec.ofNat 64 (leVal w))).rotateLeft 27 * deckleK2 + deckleK3

/-- Words of a byte string, eight bytes each but for a shorter last one; `fuel` bounds their number. -/
def wordsOf : Nat → Bytes → List Bytes
  | 0, _ => []
  | _ + 1, [] => []
  | fuel + 1, b => b.take 8 :: wordsOf fuel (b.drop 8)

def deckle64 (seed : BitVec 64) (m : Bytes) : BitVec 64 :=
  let h := seed ^^^ (BitVec.ofNat 64 m.length * deckleK1)
  let h := (wordsOf m.length m).foldl deckleStep h
  let h := (h ^^^ (h >>> 33)) * deckleK2
  let h := (h ^^^ (h >>> 29)) * deckleK3
  h ^^^ (h >>> 32)

/-! ### xxHash64 (R200: the XXH64 algorithm; PRESUMED from its specification, log entry 5) -/

def xxP1 : BitVec 64 := 0x9E3779B185EBCA87
def xxP2 : BitVec 64 := 0xC2B2AE3D27D4EB4F
def xxP3 : BitVec 64 := 0x165667B19E3779F9
def xxP4 : BitVec 64 := 0x85EBCA77C2B2AE63
def xxP5 : BitVec 64 := 0x27D4EB2F165667C5

def xxRound (acc lane : BitVec 64) : BitVec 64 := (acc + lane * xxP2).rotateLeft 31 * xxP1

def xxMerge (acc v : BitVec 64) : BitVec 64 := (acc ^^^ xxRound 0 v) * xxP1 + xxP4

def xxWord (b : Bytes) (off : Nat) : BitVec 64 := BitVec.ofNat 64 (fieldAt b off 8)

/-- The four accumulators over whole 32-byte stripes; what is left of the string. -/
def xxStripes : Nat → (BitVec 64 × BitVec 64 × BitVec 64 × BitVec 64) → Bytes →
    (BitVec 64 × BitVec 64 × BitVec 64 × BitVec 64) × Bytes
  | 0, v, b => (v, b)
  | fuel + 1, (v1, v2, v3, v4), b =>
    if b.length < 32 then ((v1, v2, v3, v4), b)
    else xxStripes fuel (xxRound v1 (xxWord b 0), xxRound v2 (xxWord b 8), xxRound v3 (xxWord b 16),
      xxRound v4 (xxWord b 24)) (b.drop 32)

/-- The last bytes: eight at a time, then four, then single bytes. -/
def xxTail : Nat → BitVec 64 → Bytes → BitVec 64
  | 0, h, _ => h
  | fuel + 1, h, b =>
    if 8 ≤ b.length then
      xxTail fuel ((h ^^^ xxRound 0 (xxWord b 0)).rotateLeft 27 * xxP1 + xxP4) (b.drop 8)
    else if 4 ≤ b.length then
      xxTail fuel ((h ^^^ BitVec.ofNat 64 (fieldAt b 0 4) * xxP1).rotateLeft 23 * xxP2 + xxP3) (b.drop 4)
    else match b with
      | [] => h
      | x :: rest => xxTail fuel ((h ^^^ x.setWidth 64 * xxP5).rotateLeft 11 * xxP1) rest

def xxHash64 (seed : BitVec 64) (m : Bytes) : BitVec 64 :=
  let ((v1, v2, v3, v4), rest) :=
    xxStripes m.length (seed + xxP1 + xxP2, seed + xxP2, seed, seed - xxP1) m
  let h :=
    if m.length < 32 then seed + xxP5
    else
      let h := v1.rotateLeft 1 + v2.rotateLeft 7 + v3.rotateLeft 12 + v4.rotateLeft 18
      xxMerge (xxMerge (xxMerge (xxMerge h v1) v2) v3) v4
  let h := xxTail m.length (h + BitVec.ofNat 64 m.length) rest
  let h := (h ^^^ (h >>> 33)) * xxP2
  let h := (h ^^^ (h >>> 29)) * xxP3
  h ^^^ (h >>> 32)

/-! ### Reduction and canonical keys -/

/-- (h[63:32] × n) >> 32: the reduction of R179, R185, R205 and R228. -/
def hashReduce (h : BitVec 64) (n : Nat) : Nat := (h.toNat / 2 ^ 32) * n / 2 ^ 32

/-- A floating-point key of −0 is replaced by +0 (R170); type 0xC or 0xD. -/
def canonField (ktype : Nat) (b : Bytes) : Bytes :=
  if ktype == 0xC && leVal b == 0x80000000 then zeros 4
  else if ktype == 0xD && leVal b == 0x8000000000000000 then zeros 8
  else b

end Sys2Proof.Machine
end

