-- ==== Sys2Proof/Machine/FeltOps.lean ====
section
/-! DEFINITION. Tables and combining entries of the Felt engines (R226 to R243): looking a table up, reading a stored
row, merging contributions, and committing an accepted run. -/

namespace Sys2Proof.Machine

open Sys2Proof

def State.table? (s : State) (id : BitVec 16) : Option Table := s.felt.tables.find? (fun t => t.id = id)

def State.setTable (s : State) (t : Table) : State :=
  { s with felt := { s.felt with tables := s.felt.tables.map (fun u => if u.id = t.id then t else u) } }

def Table.rowBytes (t : Table) : Nat := t.elems * etypeBytes t.etype.toNat

/-- The stored row size, whole lines (R227). -/
def Table.stored (t : Table) : Nat := roundUpTo t.rowBytes 64

/-- A stored row; a row never written is zeros. -/
def Table.row (t : Table) (r : Nat) : Bytes := Assoc.get (zeros t.rowBytes) t.rows r

def Table.setRow (t : Table) (r : Nat) (b : Bytes) : Table :=
  { t with rows := Assoc.set (zeros t.rowBytes) t.rows r b }

/-- The shard a row lies in (R231); REPLICATED and COMPOSED tables have none. -/
def Table.shardOf (t : Table) (r : Nat) : Nat := if t.shardRows = 0 then 0 else r / t.shardRows

/-- The home of a row's shard; none when it is homed here. -/
def Table.homeOf (t : Table) (r : Nat) (self : BitVec 14) : Option (BitVec 14) :=
  if t.replicated || t.shardRows = 0 then none
  else
    let h := Assoc.get self t.homes (t.shardOf r)
    if h = self then none else some h

def State.self (s : State) : BitVec 14 := s.straps.modid

/-- The twin's number (R328). -/
def State.twinId (s : State) : BitVec 14 := s.straps.modid ^^^ 1

/-- Entries of the coalescing windows leave (R236: an update of the row, or a change of its home). -/
def State.forgetRows (s : State) (gone : BitVec 16 → Nat → Bool) : State :=
  let w := (s.felt.windows.map (fun e => (e.1, e.2.filter (fun r => !gone r.1 r.2)))).filter (fun e => e.2 ≠ [])
  { s with felt := { s.felt with windows := w } }

/-! ### Combining entries (R238, R239) -/

/-- The winning one of two SET proposals, and whether the winners' bytes conflict (R239). -/
def mergeSet (a b : Option (BitVec 64 × Bytes)) (ca cb : Bool) : Option (BitVec 64 × Bytes) × Bool :=
  match a, b with
  | none, y => (y, cb)
  | x, none => (x, ca)
  | some (ka, ba), some (kb, bb) =>
    if kb < ka then (some (ka, ba), ca)
    else if ka < kb then (some (kb, bb), cb)
    else if ba = bb then (some (ka, ba), ca || cb)
    else (some (ka, if leVal ba ≤ leVal bb then ba else bb), true)

/-- Element-wise sum of ADD lanes; an empty list stands for no ADD. -/
def mergeAdds : List Int → List Int → List Int
  | [], b => b
  | a, [] => a
  | a :: as, b :: bs => (a + b) :: mergeAdds as bs

def mergeCombine (a b : Combine) : Combine :=
  let w := mergeSet a.set b.set a.conflict b.conflict
  { a with adds := mergeAdds a.adds b.adds, set := w.1, conflict := w.2 }

def Combine.sameRow (a b : Combine) : Bool := a.table = b.table && a.epoch = b.epoch && a.row = b.row

/-- Merge an entry into a list of entries. -/
def addCombine (e : Combine) : List Combine → List Combine
  | [] => [e]
  | c :: cs => if c.sameRow e then mergeCombine c e :: cs else c :: addCombine e cs

/-- The twin keeps a copy of this module's shards and release state: the pair is whole or being made whole. -/
def State.mirrored (s : State) : Bool := s.twin.state = .paired || s.twin.state = .resync

/-! ### Where row storage lies (R231, R232, R329) -/

/-- Shards of a table; a REPLICATED table counts as one, and a COMPOSED one stores nothing. -/
def Table.shardCount (t : Table) : Nat :=
  if t.kind = 3 then 0 else if t.shardRows = 0 then 1 else ceilDiv t.nrows t.shardRows

/-- Row bytes of a shard; the last one may be partial. -/
def Table.shardBytes (t : Table) (d : Nat) : Nat :=
  let left := t.nrows - d * t.shardRows
  (if t.shardRows = 0 || left < t.shardRows then left else t.shardRows) * t.stored

/-- A shard is homed on a module; a REPLICATED table is homed on each. -/
def Table.shardOn (t : Table) (self m : BitVec 14) (d : Nat) : Bool :=
  if t.replicated || t.shardRows = 0 then m = self else Assoc.get self t.homes d = m

/-- Where a shard that has moved lies, as Table 14.7 numbers it: 1 tier A, 2 tier B, 3 the twin; 4 stands for the tier B copy of a
shard taken over from the twin (R343, step 3; log entry 174). -/
def inTierB (place : BitVec 8) : Bool := place = 2 || place = 4

/-- A shard was taken over from the twin, and is served here from its replica (R343). -/
def State.shardTaken (s : State) (t : Table) (d : Nat) : Bool :=
  s.rst.shardPlace.any (fun p => p.1 = t.id && p.2.1.toNat = d && p.2.2 = 4)

/-- A shard lies in tier B (R232, 14). -/
def State.shardTierB (s : State) (t : Table) (d : Nat) : Bool :=
  if t.replicated then false
  else match s.rst.shardPlace.find? (fun x => x.1 = t.id && x.2.1.toNat = d) with
    | some x => inTierB x.2.2
    | none => t.tierB

/-- A row lies in tier B. -/
def State.rowTierB (s : State) (t : Table) (r : Nat) : Bool := s.shardTierB t (t.shardOf r)

/-- Row bytes of a table's shards homed on a module that lie in a tier. -/
def State.storedOn (s : State) (m : BitVec 14) (tierB : Bool) (t : Table) : Nat :=
  (List.range t.shardCount).foldl (fun a d =>
    if t.shardOn s.self m d && s.shardTierB t d = tierB then a + t.shardBytes d else a) 0

/-- Row bytes of this module's tables in a tier. -/
def State.rowBytesIn (s : State) (tierB : Bool) : Nat := s.felt.tables.foldl (fun a t => a + s.storedOn s.self tierB t) 0

/-- Bytes of the replica of the twin's tier A shards (R329): those of jobs, and of tables outside any job. -/
def State.replicaBytes (s : State) : Nat :=
  if s.mirrored then
    s.hb.jobs.foldl (fun a j => a + Config.twinShardBytes j.job) 0 +
      (s.felt.tables.filter (fun t => t.job = none && !t.replicated)).foldl (fun a t => a + s.storedOn s.twinId false t) 0
  else 0

/-- Bytes of live allocation records in a tier. -/
def State.allocBytes (s : State) (tierB : Bool) : Nat :=
  s.hb.allocs.foldl (fun a e => if e.2.live && e.2.tierB = tierB then a + e.2.extent else a) 0

/-- The tier B bytes that no allocation record, table or replica holds. -/
def State.tierBFree (s : State) : Nat := s.tierBBytes - (s.allocBytes true + s.rowBytesIn true + s.replicaBytes)

/-! ### Leases a module holds (R341, R342) -/

/-- A lease this module holds on an object has stopped. -/
def State.leaseStopped (s : State) (kind : BitVec 8) (object : BitVec 32) : Bool :=
  s.twin.leases.any (fun l => l.kind = kind && l.object = object && l.mine && l.stopped)

/-- The LEASE_NO under which this module acts on an object. -/
def State.leaseNow (s : State) (kind : BitVec 8) (object : BitVec 32) : Option (BitVec 64) :=
  (s.twin.leases.find? (fun l => l.kind = kind && l.object = object && l.mine && !l.stopped)).map (·.number)

/-- An operation that carries a LEASE_NO is stale: the number is no longer the current one; one that carries none is stale once the
object's lease has stopped. -/
def State.leaseStale (s : State) (kind : BitVec 8) (object : BitVec 32) (n : Option (BitVec 64)) : Bool :=
  match n with
  | some k => s.leaseNow kind object ≠ some k
  | none => s.leaseStopped kind object

/-! ### The room of combining entries (R243) -/

/-- Bytes an entry counts against FELT_COMBINE_BYTES. -/
def State.combineBytes (s : State) (c : Combine) : Nat :=
  match s.table? c.table with
  | none => 0
  | some t => 72 * t.elems + (if c.set = none then 0 else t.stored + 8)

/-- The entry's row is homed here. -/
def State.combineHere (s : State) (c : Combine) : Bool :=
  match s.table? c.table with
  | some t => (t.homeOf c.row s.self).isNone
  | none => false

/-- The stop code the combining entries call for: overflow of a lane, or no room left (R243). -/
def State.combineStop (s : State) : Option (BitVec 16) :=
  if s.felt.combines.any (fun c => c.adds.any (fun v => !laneFits v)) then some 0x0531
  else
    let used := (s.felt.combines.filter s.combineHere).foldl (fun a c => a + s.combineBytes c) 0
    if used ≤ s.furn 0x380003 16000000000 + s.tierBFree then none else some 0x0532

/-- Take the contributions of an accepted run into the combining entries and drop those of its other runs (R240). -/
def State.commitRun (s : State) (key : ItemKey) (attempt : Nat) : State :=
  let mine := s.felt.pending.filter (fun c => c.item = key && c.attempt = attempt)
  { s with felt := { s.felt with
      combines := mine.foldl (fun cs c => addCombine c.entry cs) s.felt.combines,
      pending := s.felt.pending.filter (fun c => c.item ≠ key) } }

/-- Drop the contributions of a run that is discarded (R240). -/
def State.dropRun (s : State) (key : ItemKey) : State :=
  { s with felt := { s.felt with pending := s.felt.pending.filter (fun c => c.item ≠ key) } }

/-- Count an accepted item toward its epoch of each table its flow updates (R240, R241). -/
def State.countEpoch (s : State) (key : ItemKey) : State :=
  { s with felt := { s.felt with tables := s.felt.tables.map (fun t =>
      if t.updatable && t.flow = key.flow && t.epochItems ≠ 0 then
        let u := key.seq.toNat / t.epochItems
        { t with commits := Assoc.set 0 t.commits u (Assoc.get 0 t.commits u + 1) }
      else t) } }

end Sys2Proof.Machine
end

