-- ==== Sys2Proof/Machine/Messages.lean ====
section
/-! DEFINITION. Fabric messages (Table 7.6, 13.2) and Couch frames (Table 13.4): header bytes and check values,
building and sending them, and the checks a receiver makes first. -/

namespace Sys2Proof.Machine

open Sys2Proof

/-! ### Fabric messages -/

end Sys2Proof.Machine

namespace Sys2Proof

open Sys2Proof.Machine

/-- Header bytes 0x00-0x3B (Table 7.6). -/
def Msg.header (t : BitVec 8) (m : Msg) : Bytes :=
  [t, m.version, m.exch, m.cls] ++ leBytes 4 m.gen.toNat ++ leBytes 8 m.job.toNat ++ leBytes 2 m.src.toNat ++
    leBytes 2 m.dst.toNat ++ leBytes 4 m.part.toNat ++ leBytes 4 m.round.toNat ++ leBytes 4 m.length.toNat ++
    leBytes 8 m.seq.toNat ++ leBytes 4 m.value.toNat ++ leBytes 16 m.rsv.toNat

/-- The CRC of R189: header bytes 0x00-0x3B and the payload. -/
def Msg.check (t : BitVec 8) (m : Msg) : BitVec 32 := crc32c 0 (m.header t ++ m.payload)

/-- A message as it leaves: its TYPE and its CRC. -/
def Msg.withCrc (t : BitVec 8) (m : Msg) : Msg := { m with type := t, crc := m.check t }

/-- The sending or receiving module a header names; bits [15:14] are reserved. -/
def Msg.from (m : Msg) : BitVec 14 := m.src.setWidth 14
def Msg.to (m : Msg) : BitVec 14 := m.dst.setWidth 14

/-- Version, class and module fields without reserved values, the length true and the CRC good (R189, R325). -/
def Msg.wellFormed (t : BitVec 8) (m : Msg) : Bool :=
  m.version = 1 && m.cls.toNat < 4 && m.src.toNat < 2 ^ 14 && m.dst.toNat < 2 ^ 14 &&
    m.length.toNat = m.payload.length && m.crc = m.check t

end Sys2Proof

namespace Sys2Proof.Machine

/-- Line rate of an Ethernet port, bit/s. -/
def lineRate : Nat := 800000000000

/-- The active Ethernet ports, counted upward from port 0. -/
def activePorts (ports : BitVec 8) : List (BitVec 3) := (List.range 8).filter (ports.getLsbD ·) |>.map (BitVec.ofNat 3)

/-- The port of a queue pair to peer m for class c: active port (m + c) mod n (R322). -/
def portOver (ports : BitVec 8) (peer : BitVec 14) (cls : BitVec 2) : BitVec 3 :=
  let ps := activePorts ports
  (ps[(peer.toNat + cls.toNat) % ps.length]?).getD 0

def State.portFor (s : State) (peer : BitVec 14) (cls : BitVec 2) : BitVec 3 := portOver s.fab.ports peer cls

def State.qp? (s : State) (n : BitVec 16) : Option Qp := s.fab.qps.find? (fun q => q.number = n)

def State.setQp (s : State) (q : Qp) : State :=
  { s with fab := { s.fab with qps := s.fab.qps.map (fun x => if x.number = q.number then q else x) } }

/-- The queue pair to a peer for a class (R322). -/
def State.qpFor (s : State) (peer : BitVec 14) (cls : BitVec 2) : BitVec 16 :=
  match s.fab.qps.find? (fun q => q.peer = peer && q.cls = cls) with
  | some q => q.number
  | none => 0

/-- Send a message on its queue pair, unless the module has stopped sending (R337); it stays there until
acknowledged (R323). -/
def State.sendMsg (s : State) (t : BitVec 8) (m : Msg) : State :=
  if s.fab.stopped then s
  else
    let s := s.emit (.fabric t m)
    match s.qp? m.qp with
    | some q => s.setQp { q with unacked := q.unacked ++ [(t, m)] }
    | none => s

/-- A message of this module to a peer, its reserved bytes zero. -/
def State.newMsg (s : State) (t : BitVec 8) (peer : BitVec 14) (cls : BitVec 2) (exch : BitVec 8) (job : BitVec 64)
    (part round : BitVec 32) (seq : BitVec 64) (value : BitVec 32) (payload : Bytes) : Msg :=
  Msg.withCrc t
    { qp := s.qpFor peer cls, version := 1, exch := exch, cls := cls.setWidth 8, gen := s.fab.gen, job := job,
      src := s.self.setWidth 16, dst := peer.setWidth 16, part := part, round := round,
      length := BitVec.ofNat 32 payload.length, seq := seq, value := value, rsv := 0, crc := 0, payload := payload }

/-- The answer to a message: on the queue pair it came by, its job, part and sequence number echoed. -/
def State.answerMsg (s : State) (t : BitVec 8) (m : Msg) (value : BitVec 32) (payload : Bytes) : Msg :=
  Msg.withCrc t
    { qp := m.qp, version := 1, exch := 0, cls := m.cls, gen := s.fab.gen, job := m.job,
      src := s.self.setWidth 16, dst := m.src, part := m.part, round := 0,
      length := BitVec.ofNat 32 payload.length, seq := m.seq, value := value, rsv := 0, crc := 0,
      payload := payload }

/-- The lowest generation accepted from a module (13, Generations and fencing). -/
def State.genOf (s : State) (m : BitVec 14) : BitVec 32 := Assoc.get 0 s.fab.gens m.toNat

def State.raiseGen (s : State) (m : BitVec 14) (g : BitVec 32) : State :=
  if (s.genOf m).toNat < g.toNat then { s with fab := { s.fab with gens := Assoc.set 0 s.fab.gens m.toNat g } } else s

/-- FENCED to a module: it names the module and the generation recorded for it. -/
def State.sendFenced (s : State) (peer : BitVec 14) (cls : BitVec 2) : State :=
  s.sendMsg 0x42 (s.newMsg 0x42 peer cls 0 0 (peer.setWidth 32) 0 0 (s.genOf peer) [])

/-- A message or frame below the sender's entry is dropped, counted, recorded (FAB_STALE_GEN) and answered with FENCED (R337). -/
def State.refuseStale (s : State) (m : Msg) : State :=
  ((s.bump 0x4C000F 1).logEvent 0x0A02 m.from.toNat).sendFenced m.from (m.cls.setWidth 2)

/-- A protocol error is refused, counted and recorded (FAB_PROTOCOL, R321, R325). -/
def State.protocolError (s : State) : State := (s.bump 0x4C0010 1).logEvent 0x0A01 0

/-- What the transport does before the header is read (R321, R325): a CE mark is answered with a CNP, a request outside the subset of
Table 13.1 with a NAK, and a TYPE that is not the row's is refused. -/
def State.arrives (s : State) (t : BitVec 8) (m : Msg) (f : State → State) : State :=
  let s := if m.ce && !s.fab.stopped then s.emit (.cnp m.qp) else s
  if m.by' ≠ .send then (if s.fab.stopped then s else s.emit (.nak m.qp)).protocolError
  else if m.type ≠ t then s.protocolError
  else f s

/-- The checks of R325 and R337 on a fabric message of another chapter; outside service the Ethernet ports are down
(Table 14.2, Table 14.6). -/
def State.takeMsg (s : State) (t : BitVec 8) (m : Msg) (f : State → State) : State :=
  if !s.up then s
  else s.arrives t m (fun s =>
    if !m.wellFormed t || m.exch ≠ 0 || m.round ≠ 0 || m.rsv ≠ 0 || m.to ≠ s.self then s.protocolError
    else if m.gen.toNat < (s.genOf m.from).toNat then s.refuseStale m
    else f s)

/-! ### Couch frames -/

end Sys2Proof.Machine

namespace Sys2Proof

open Sys2Proof.Machine

/-- Header bytes 0x00-0x1B (Table 13.4). -/
def Frame.header (t : BitVec 8) (f : Frame) : Bytes :=
  [t, f.version] ++ leBytes 2 f.rsv.toNat ++ leBytes 4 f.length.toNat ++ leBytes 8 f.fseq.toNat ++
    leBytes 8 f.ack.toNat ++ leBytes 4 f.gen.toNat

def Frame.check (t : BitVec 8) (f : Frame) : BitVec 32 := crc32c 0 (f.header t ++ f.payload)

/-- Version, length and CRC as Table 13.4 wants them; the reserved field is ignored (R4). -/
def Frame.wellFormed (t : BitVec 8) (f : Frame) : Bool :=
  f.version = 1 && f.length.toNat = f.payload.length && f.length.toNat % 32 = 0 &&
    f.length.toNat ≤ 1048576 && f.crc = f.check t

end Sys2Proof

namespace Sys2Proof.Machine

/-- A payload padded with zeros to whole 32-byte units. -/
def padTo (k : Nat) (b : Bytes) : Bytes := b ++ zeros (roundUpTo b.length k - b.length)

/-- Log, mirror and lease frames, which go over the fabric in COUCH_DOWN (R338); RESYNC frames carry records of the same log, of which
none is dropped (R333; DEDUCED, log entry 173). -/
def overFabric (t : BitVec 8) : Bool := t = 2 || t = 3 || t = 4 || t = 5 || t = 7 || t = 9

/-- Send a frame on the Couch link with the next FSEQ and the acknowledgement held; a stopped module sends nothing. With the link
down, log, mirror and lease frames go over the fabric once the pair is in COUCH_DOWN (R338), and wait with those not yet
acknowledged until then; others are not sent. -/
def State.sendFrame (s : State) (t : BitVec 8) (payload : Bytes) : State :=
  let payload := padTo 32 payload
  if s.fab.stopped then s
  else if s.twin.couchUp then
    let n := s.twin.fseqTx + 1
    let f : Frame := { version := 1, rsv := 0, length := BitVec.ofNat 32 payload.length, fseq := n,
                       ack := s.twin.fseqRx, gen := s.fab.gen, crc := 0, payload := payload }
    let f := { f with crc := f.check t }
    { s with twin := { s.twin with fseqTx := n, unacked := s.twin.unacked ++ [(t, f)] },
             sent := s.sent ++ [.couch t f] }
  else if !overFabric t then s
  else if s.twin.couchDown then
    let f : Frame := { version := 1, rsv := 0, length := BitVec.ofNat 32 payload.length, fseq := 0, ack := 0,
                       gen := s.fab.gen, crc := 0, payload := payload }
    s.emit (.framed (s.qpFor s.twinId 2) t { f with crc := f.check t })
  else
    let n := s.twin.fseqTx + 1
    let f : Frame := { version := 1, rsv := 0, length := BitVec.ofNat 32 payload.length, fseq := n,
                       ack := s.twin.fseqRx, gen := s.fab.gen, crc := 0, payload := payload }
    { s with twin := { s.twin with fseqTx := n, unacked := s.twin.unacked ++ [(t, { f with crc := f.check t })] } }

/-! ### CAN (Table 15.3) and faults -/

/-- The CAN-ID of a service on this node. -/
def State.canId (s : State) (base : Nat) : BitVec 16 := BitVec.ofNat 16 (base + s.straps.canNode.toNat)

/-- A CAN frame leaves only when the node is not held in listen-only operation (R375). -/
def State.sendCan (s : State) (base : Nat) (data : Bytes) : State :=
  if s.straps.canNode = 0 then s else s.emit (.can (s.canId base) data)

/-- A job-stopping or fault code: it is logged, sets bit 0 of the error register, and leaves by EMCY with error code
0xFF00 and the status code in the manufacturer bytes (Tables 15.3, 15.9). -/
def State.faultCode (s : State) (code : BitVec 16) (data : Nat) : State :=
  let s := (s.logEvent code data).setModVal 0x100100 0 1
  if s.dict.nmt = 0x04 then s
  else s.sendCan 0x080 ([0x00, 0xFF, 0x01] ++ leBytes 2 code.toNat ++ zeros 3)

end Sys2Proof.Machine
end

