-- ==== Sys2Proof/Machine/Desc.lean ====
section
/-! DEFINITION. What a descriptor holds (05): the field map of Table 5.1, the conditions of Table 5.3 in their order, and MARK
(R119, R120). -/

namespace Sys2Proof.Machine

open Sys2Proof

/-- An allocation record by its number. -/
def State.alloc (s : State) (n : BitVec 16) : Alloc := Assoc.get Alloc.none s.hb.allocs n.toNat

/-- The fields of a descriptor. -/
structure Desc where
  addr     : Nat
  planar   : Bool
  addrRsv  : Nat
  sizes    : List Nat
  strides  : List Int
  raws     : List Nat
  code     : Nat
  planes   : Nat
  gather   : Bool
  gdim     : Nat
  writable : Bool
  ndim     : Nat
  alloc    : BitVec 16
  mark     : BitVec 32
deriving DecidableEq, Repr

/-- The n-byte field of a descriptor at an offset. -/
def descField (b : BitVec 512) (off n : Nat) : Nat := b.toNat / 2 ^ (8 * off) % 2 ^ (8 * n)

def descOf (b : BitVec 512) : Desc :=
  let a := descField b 0 8
  let raws := (List.range 6).map (fun d => descField b (8 + 8 * d) 8)
  let dt := descField b 0x38 1
  let sh := descField b 0x39 1
  { addr := a % 2 ^ 56, planar := a / 2 ^ 56 % 2 = 1, addrRsv := a / 2 ^ 57,
    sizes := raws.map (· % 2 ^ 32), strides := raws.map (fun r => (BitVec.ofNat 32 (r / 2 ^ 32)).toInt), raws := raws,
    code := dt % 32, planes := dt / 32, gather := sh / 128 = 1, gdim := sh / 16 % 8, writable := sh / 8 % 2 = 1,
    ndim := sh % 8, alloc := BitVec.ofNat 16 (descField b 0x3A 2), mark := BitVec.ofNat 32 (descField b 0x3C 4) }

/-- Type codes of Table 5.2. -/
def Desc.bits (d : Desc) : Bool := (0x11 ≤ d.code && d.code ≤ 0x17) || (0x19 ≤ d.code && d.code ≤ 0x1F)
def Desc.bytes (d : Desc) : Bool := d.code ≤ 0xD
/-- Width of a bit-plane type. -/
def Desc.width (d : Desc) : Nat := d.code % 8
def Desc.signed (d : Desc) : Bool := if d.bits then d.code < 0x18 else etypeSigned d.code
/-- Bytes an element takes in delivery: its size, or one for a bit-plane type (R130). -/
def Desc.esize (d : Desc) : Nat := if d.bits then 1 else etypeBytes d.code

def Desc.size (d : Desc) (i : Nat) : Nat := d.sizes[i]?.getD 0
def Desc.stride (d : Desc) (i : Nat) : Int := d.strides[i]?.getD 0

/-- The address of the index descriptor (IDXREF). -/
def Desc.idxref (d : Desc) : Nat := (d.raws[5]?.getD 0) / 64 % 2 ^ 50 * 64

/-- Data records, then the plane record of a bit-plane type. -/
def Desc.records (d : Desc) : List Nat := List.range (d.ndim + if d.bits then 1 else 0)

/-- Lowest and highest byte of the footprint (05, the footprint computation). -/
def Desc.footprint (d : Desc) : Int × Int :=
  let r := d.records.foldl (fun (acc : Int × Int) i =>
    let n : Int := d.size i
    if d.bits && i = 0 then (acc.1, acc.2 + (d.size 0 / 8 : Nat) - 1)
    else if d.stride i < 0 then (acc.1 + (n - 1) * d.stride i, acc.2)
    else (acc.1, acc.2 + (n - 1) * d.stride i)) ((d.addr : Int), (d.addr : Int))
  (r.1, if d.bits then r.2 else r.2 + d.esize - 1)

def insertStride (a : Nat × Nat) : List (Nat × Nat) → List (Nat × Nat)
  | [] => [a]
  | b :: bs => if b.1 ≤ a.1 then b :: insertStride a bs else a :: b :: bs

/-- Two coordinates can reach the same byte (05, the alias check). -/
def Desc.aliases (d : Desc) : Bool :=
  let rs := (d.records.filter (fun i => !(d.bits && i = 0) && 1 < d.size i)).map
    (fun i => ((d.stride i).natAbs, d.size i))
  let sorted := rs.foldl (fun acc a => insertStride a acc) []
  (sorted.foldl (fun (acc : Bool × Nat) r =>
    (acc.1 || decide (r.1 < acc.2), acc.2 + (r.2 - 1) * r.1))
    (false, if d.bits then d.size 0 / 8 else d.esize)).1

/-- MARK of a descriptor for a job (R119): over bytes 0x00-0x3B, the record's generation and the job's key. -/
def State.markOf (s : State) (b : BitVec 512) (job : BitVec 64) : BitVec 32 :=
  let d := descOf b
  Config.mark (b.extractLsb' 0 480) (s.alloc d.alloc).gen job s.self s.sec.markEra

/-- SBIND's check (R44, R119): the record is live and MARK matches. -/
def State.markGood (s : State) (b : BitVec 512) (job : BitVec 64) : Bool :=
  let d := descOf b
  (s.alloc d.alloc).live && d.mark = s.markOf b job

def State.descFieldBad (d : Desc) : Bool :=
  d.addrRsv ≠ 0 || !(d.bits || d.bytes) || d.ndim = 0 || d.ndim = 7 || (d.ndim = 6 && d.gather) ||
    (d.gather && d.ndim ≤ d.gdim) || (!d.gather && d.gdim ≠ 0) ||
    (List.range 6).any (fun i => (d.ndim + (if d.bits then 1 else 0)) ≤ i && !(d.gather && i = 5) &&
      (d.raws[i]?.getD 0) ≠ 0) ||
    (d.gather && ((d.raws[5]?.getD 0) / 2 ^ 56 ≠ 0 || (d.raws[5]?.getD 0) % 64 ≠ 0))

/-- DESC_PLANES. With six data dimensions and GATHER clear no record is left for the planes, so that their SIZE is not PLANES
(DESIGN CHOICE, log entry 164). -/
def State.descPlanesBad (d : Desc) : Bool :=
  if d.bits then
    d.planes = 0 || d.width < d.planes || d.size d.ndim ≠ d.planes || d.stride d.ndim ≤ 0 ||
      (d.writable && d.planes < d.width) || (d.gather && 4 < d.ndim)
  else d.planes ≠ 0

/-- The first condition of Table 5.3 that applies; `index` is the index descriptor as read. -/
def State.descCheck (s : State) (b : BitVec 512) (job : BitVec 64) (index : BitVec 512) : Option (BitVec 16) :=
  let d := descOf b
  let a := s.alloc d.alloc
  let ix := descOf index
  let f := d.footprint
  if State.descFieldBad d then some 0x0201
  else if (List.range d.ndim).any (fun i => d.size i = 0) ||
      (d.bits && (d.size 0 % 8 ≠ 0 || d.stride 0 ≠ 0)) then some 0x0202
  else if State.descPlanesBad d then some 0x0203
  else if d.bytes && (d.addr % d.esize ≠ 0 ||
      (List.range d.ndim).any (fun i => d.stride i % (d.esize : Int) ≠ 0)) then some 0x0204
  else if !a.live || a.job ≠ job || (a.tierB && s.tierBBytes = 0) then some 0x0205
  else if d.writable && !a.rw then some 0x0206
  else if d.gather && (!s.markGood index job || ix.ndim ≠ 1 || !(ix.code = 4 || ix.code = 5) || ix.gather ||
      ix.planar) then some 0x0207
  else if !(((a.base : Int) ≤ f.1) && f.2 < (a.base + a.extent : Nat)) then some 0x0208
  else if d.writable && d.aliases then some 0x0209
  else none

/-- The descriptor with its MARK in bytes 0x3C-0x3F. -/
def State.marked (s : State) (b : BitVec 512) (job : BitVec 64) : BitVec 512 :=
  BitVec.ofNat 512 (b.toNat % 2 ^ 480 + 2 ^ 480 * (s.markOf b job).toNat)

end Sys2Proof.Machine
end

