-- ==== Sys2Proof/Machine/Items.lean ====
section
/-! DEFINITION. Work items (11): allocation records, flow windows, the item store, placement on cores, pre-emption and
the context area (02), the outcome of a run (Table 11.8), class A answers, and the end of a job. -/

namespace Sys2Proof.Machine

open Sys2Proof

/-! ### Allocation records (R116, R117, R273) -/

def State.setAlloc (s : State) (n : BitVec 16) (a : Alloc) : State :=
  { s with hb := { s.hb with allocs := Assoc.set Alloc.none s.hb.allocs n.toNat a } }

def overlaps (a n b m : Nat) : Bool := n ≠ 0 && m ≠ 0 && a < b + m && b < a + n

/-- Lowest address of a list of candidates, at or above nothing. -/
def lowest : List Nat → Option Nat
  | [] => none
  | a :: as => match lowest as with
    | none => some a
    | some b => some (if a ≤ b then a else b)

/-- The lowest 64 KiB-aligned place for an extent beside the live records of its tier (DESIGN CHOICE, log entry 13). -/
def State.allocPlace (s : State) (tierB : Bool) (extent : Nat) : Option Nat :=
  let lo := if tierB then tierBBase else itemStoreEnd + s.dieShift
  let hi := if tierB then tierBBase + s.tierBBytes else s.tierATop
  let live := s.hb.allocs.filter (fun e => e.2.live && e.2.tierB = tierB)
  let cands := lo :: live.map (fun e => roundUpTo (e.2.base + e.2.extent) 65536)
  lowest (cands.filter (fun b => b + extent ≤ hi && live.all (fun e => !overlaps b extent e.2.base e.2.extent)))

/-- The lowest record number in no use (R116). -/
def State.allocNumber (s : State) : Option Nat :=
  firstFrom (fun n => !(Assoc.get Alloc.none s.hb.allocs n).live) 65535 1

/-- Bytes of a range are zero again at the memory side; copies in a Vat's caches stay (R308). -/
def State.zeroRange (s : State) (a n : Nat) : State :=
  { s with mem := { s.mem with bytes := s.mem.bytes.filter (fun c => !(a ≤ c.1 && c.1 < a + n)) }.renew a n }

/-- Bytes of a range read zero, to every core too: the copies in the Vats' caches go (R273, "reads zero at load"). -/
def State.clearRange (s : State) (a n : Nat) : State :=
  let t := s.zeroRange a n
  { t with mem := { t.mem with l2 := t.mem.l2.filter (fun l => !(a < 64 * (l.line + 1) && 64 * l.line < a + n)) } }

/-- Create a record, whose bytes are zero at the memory side: its number, its base and the state, or none for want of numbers,
space or tier B. -/
def State.newAlloc (s : State) (job : BitVec 64) (tierB rw : Bool) (extent : Nat) :
    Option (BitVec 16 × Nat × State) :=
  match s.allocNumber, s.allocPlace tierB extent with
  | some n, some b =>
    let num := BitVec.ofNat 16 n
    some (num, b, (s.zeroRange b extent).setAlloc num
      { base := b, extent := extent, tierB := tierB, rw := rw, job := job, gen := (s.alloc num).gen, live := true })
  | _, _ => none

/-- Free a record: its generation rises (R117). -/
def State.freeAlloc (s : State) (n : BitVec 16) : State :=
  let a := s.alloc n
  if a.live then s.setAlloc n { a with live := false, gen := a.gen + 1 } else s

/-! ### Flows: created, accepted and freed items (R281) -/

def keyOf (flow : BitVec 20) (q : Nat) : ItemKey := { flow := flow, seq := BitVec.ofNat 40 q }

def FlowRun.created (f : FlowRun) (q : Nat) : Bool := q < f.next || f.ahead.contains q

/-- Move the lowest uncreated number past created ones. -/
def absorb : Nat → Nat → List Nat → Nat × List Nat
  | 0, n, a => (n, a)
  | fuel + 1, n, a => if a.contains n then absorb fuel (n + 1) (a.erase n) else (n, a)

def FlowRun.noteCreated (f : FlowRun) (q : Nat) : FlowRun :=
  if f.created q then f
  else
    let r := absorb (f.ahead.length + 1) f.next (q :: f.ahead)
    { f with next := r.1, ahead := r.2 }

def Phase.done : Phase → Bool
  | .accepted => true
  | .released => true
  | _ => false

/-- Item q of a flow has been accepted: it stands accepted, or it has been created and since removed. -/
def State.acceptedSeq (s : State) (f : FlowRun) (q : Nat) : Bool :=
  match s.item? (keyOf f.decl.flow q) with
  | some it => it.phase.done
  | none => f.created q

def Job.flow? (j : Job) (id : Nat) : Option FlowRun := j.flows.find? (fun f => f.decl.flow.toNat = id)
def Job.exch? (j : Job) (n : Nat) : Option ExchRec := j.exchanges.find? (fun e => e.exch.toNat = n)
def Job.input? (j : Job) (t : Nat) : Option InputRec := j.inputs.find? (fun i => i.table.toNat = t)

/-- Rounds of an exchange: the rows of its source table in runs of ROUND_ROWS (R186). -/
def Job.rounds (j : Job) (e : ExchRec) : Nat :=
  match j.input? e.table.toNat with
  | some i => ceilDiv i.rows e.roundRows
  | none => 0

/-- Partitions of an exchange; a BROADCAST exchange builds its rows as one (R183). -/
def ExchRec.parts (e : ExchRec) : Nat := if e.npart = 0 then 1 else e.npart

/-- r_lo and r_hi of a COLLECT item (R275). -/
def collectRounds (span roundRows s : Nat) : Nat × Nat := (s * span / roundRows, ((s + 1) * span - 1) / roundRows)

/-- The exchange a COLLECT flow's producer consumes. -/
def Job.collectExch (j : Job) (f : FlowRec) : Option ExchRec :=
  match j.flow? f.producer with
  | some p => j.exch? p.decl.producer
  | none => none

/-- Sequence numbers of the producer items one item of a CHAIN or COLLECT flow consumes, in order. -/
def Job.producerItems (j : Job) (f : FlowRec) (s : Nat) : List Nat :=
  match j.flow? f.producer with
  | none => []
  | some p =>
    if f.trigger = 2 then (List.range f.span).map (s * f.span + ·) |>.filter (· < p.decl.items)
    else match j.collectExch f with
      | none => []
      | some e =>
        let r := collectRounds f.span e.roundRows s
        (List.range ((r.2 - r.1 + 1) * e.parts)).map (r.1 * e.parts + ·) |>.filter (· < p.decl.items)

/-- Items of the flows of the job that consume item q of a flow, and all of them accepted (R281). -/
def State.consumed (s : State) (j : Job) (f : FlowRun) (q : Nat) : Bool :=
  j.flows.all (fun g =>
    if g.decl.trigger = 2 && g.decl.producer = f.decl.flow.toNat then s.acceptedSeq g (q / g.decl.span)
    else if g.decl.trigger = 4 && g.decl.producer = f.decl.flow.toNat then
      match j.collectExch g.decl with
      | none => true
      | some e =>
        let r := q / e.parts
        let lo := r * e.roundRows / g.decl.span
        let hi := ((r + 1) * e.roundRows - 1) / g.decl.span
        ((List.range (hi - lo + 1)).map (lo + ·)).all (fun c => g.decl.items ≤ c || s.acceptedSeq g c)
    else true)

/-- Rows of an item still wait in a send pool or are retained for a receiver (R196). -/
def State.rowsHeld (s : State) (key : ItemKey) : Bool :=
  s.slurry.any (fun x => x.pool.any (·.item = key) || x.retained.any (fun r => r.2.item = key))

/-- The output reservation of an accepted item is free (R281). -/
def State.freed (s : State) (j : Job) (f : FlowRun) (it : Item) : Bool :=
  it.phase.done &&
    (if f.decl.batch then decide (it.key.seq.toNat < f.egressed)
     else s.consumed j f it.key.seq.toNat && !s.rowsHeld it.key)

/-- The base of a flow: the lowest sequence number whose reservation is held, items not yet created counted. -/
def State.flowBase (s : State) (j : Job) (f : FlowRun) : Nat :=
  let held := s.hb.items.filter (fun it => it.key.flow = f.decl.flow && !s.freed j f it)
  match lowest (f.next :: held.map (fun it => it.key.seq.toNat)) with
  | some b => b
  | none => f.next

/-! ### The item store (R277, R278) -/

/-- Where the descriptors of an item's reservations stand after its argument area (log entry 117). -/
def descsOff (inputs : Nat) : Nat := roundUpTo (64 + 16 + 16 * inputs) 64

/-- Slots of 256 bytes an item takes, with its argument area and the descriptors of its inputs and its output. -/
def itemSlots (inputs : Nat) : Nat := ceilDiv (descsOff inputs + 64 * (inputs + 1)) 256

/-- The lowest free place in the item store. -/
def State.itemPlace (s : State) (slots : Nat) : Nat :=
  let taken := s.hb.items.map (fun it => (it.ptr, 256 * itemSlots it.inputs.length))
  let base := itemStoreBase + s.dieShift
  let cands := base :: taken.map (fun t => t.1 + t.2)
  (lowest (cands.filter (fun b => taken.all (fun t => !overlaps b (256 * slots) t.1 t.2)))).getD base

/-- AFFINITY of Table 11.7. -/
def affinityBits : Option CoreId → Nat
  | none => 0
  | some c => 0x8000 + coreNum c

/-- The 64 bytes of a work item (Table 11.7). A stamp reel of 2^48 or more, which R279 allows and the reel count never
reaches, has no room in bits [47:0]: its low bits stand there (log entry 127). -/
def Item.bytes (it : Item) : Bytes :=
  record 64 [(0, 4, it.key.flow.toNat), (4, 1, it.cls.toNat), (5, 1, it.grade.toNat), (6, 2, it.gradeRev.toNat),
    (8, 8, it.key.seq.toNat), (0x10, 8, it.entry), (0x18, 8, it.arg), (0x20, 8, it.out), (0x28, 4, it.outBytes),
    (0x2C, 2, it.outAlloc.toNat), (0x2E, 2, affinityBits it.affinity), (0x30, 8, it.stampReel % 2 ^ 48),
    (0x38, 1, it.attempt), (0x39, 1, (if it.last then 2 else 0) + (if it.reproducible then 1 else 0))]

/-- The argument area (R278). -/
def Item.argBytes (it : Item) (block : Nat) : Bytes :=
  leBytes 8 block ++ leBytes 4 it.inputs.length ++ zeros 4 ++
    it.inputs.flatMap (fun i => leBytes 8 i.addr ++ leBytes 4 i.bytes ++ leBytes 2 i.alloc.toNat ++ zeros 2)

/-! ### Stamps (R279, R280) -/

def stampBatch (f : FlowRec) (q : Nat) : Nat := q / f.stampDiv * f.stampNum / f.stampDen

def stampReel (f : FlowRec) (q : Nat) : Nat := f.dueBase + stampBatch f q * f.dueStep - f.lead

/-- The release reel of a batch (R282). -/
def releaseReel (f : FlowRec) (q : Nat) : Nat := f.dueBase + q * f.dueStep - f.lead

/-- The grade the schedule puts in force at a reel value: that of the latest switch at or before it, fired or pending,
or the start grade. -/
def State.gradeAt (s : State) (reel : Nat) : BitVec 3 :=
  ((s.dict.past ++ s.dict.schedule).foldl (fun (b : Nat × BitVec 3) x =>
    if x.1.toNat ≤ reel && b.1 ≤ x.1.toNat then (x.1.toNat, x.2) else b) (0, s.dict.start)).2

/-- A setting of Table 1.6 is in force in an overlay (R386). -/
def State.breaksRepro (s : State) (o : Assoc Nat) : Bool :=
  s.gradeIn o 0x400004 0 = 1 || s.gradeIn o 0x400006 0 = 1 || s.gradeIn o 0x340003 0 = 1 || s.gradeIn o 0x380004 0 = 1

/-! ### Creating an item -/

/-- The core that last ran an item of a Felt shard (R286). -/
def State.shardCore (s : State) (n : Nat) : Option CoreId := (s.hb.shardRuns.find? (fun x => x.1 = n)).map (·.2)

def FlowRec.isA (f : FlowRec) : Bool := f.cls = 0

/-- Create item q of a flow from its inputs; none when no record or space is left. -/
def State.createItem (s : State) (j : Job) (f : FlowRun) (q : Nat) (inputs : List Input) (affinity : Option CoreId)
    (reply : Reply) : Option State :=
  let d := f.decl
  let room := if d.outMax = 0 then some (0, 0, s) else s.newAlloc j.job false true d.outMax
  match room with
  | none => none
  | some (num, base, s) =>
    let reel := stampReel d q
    let g := if d.isA then s.dict.active else s.gradeAt reel
    let affinity := match affinity with
      | some c => some c
      | none => f.shard.bind s.shardCore
    let rev := (s.dict.grades[g.toNat]).rev
    let ptr := s.itemPlace (itemSlots inputs.length)
    let it : Item :=
      { key := keyOf d.flow q, job := j.job, cls := d.cls.setWidth 2, grade := g.setWidth 8, gradeRev := rev,
        entry := j.codeBase + d.entry, ptr := ptr, arg := ptr + 64, out := base, outBytes := d.outMax, outAlloc := num,
        affinity := affinity, stampReel := reel, attempt := 0, counted := 0, last := q + 1 = d.items,
        reproducible := !j.unordered && !s.breaksRepro (s.dict.grades[g.toNat]).entries,
        phase := .created, inputs := inputs, core := none, avoidDie := none, avoidCore := none, avoidVat := none, reply := reply,
        degraded := false, coreFailed := false, descs := [] }
    let s := s.memWrite ptr (it.bytes ++ it.argBytes (j.argsBase + d.arg))
    let s := s.setFlow (f.noteCreated q)
    let horizon := if reel ≤ s.hb.stampHorizon then s.hb.stampHorizon else reel
    some { s with hb := { s.hb with items := s.hb.items ++ [it], stampHorizon := horizon } }

/-! ### Class A answers (R326, R318) -/

/-- A code of an owned range (Table 0.4), which the spec does not name. -/
def reportedCode (st : BitVec 16) : BitVec 16 := BitVec.ofNat 16 (0x0100 + (Config.ownedCode st).toNat % 0x0D00)

/-- STATUS, two reserved bytes, BYTES and the data: the payload of CLASSA_RESP. -/
def classAPayload (status : BitVec 16) (data : Bytes) : Bytes :=
  leBytes 2 status.toNat ++ zeros 2 ++ leBytes 4 data.length ++ data

/-- Answer a class A request: to a peer by CLASSA_RESP, to the host by its response buffer and a completion. -/
def State.answerClassA (s : State) (r : Reply) (job : BitVec 64) (status : BitVec 16) (data : Bytes) : State :=
  match r with
  | .none => s
  | .host tag room =>
    (s.emit (.hostWrite tag ((classAPayload status data).take room))).complete tag status true job 0
  | .peer m => s.sendMsg 0x31 (s.answerMsg 0x31 m 0 (classAPayload status data))

def State.removeItem (s : State) (key : ItemKey) : State :=
  match s.item? key with
  | none => s
  | some it =>
    let s := it.inputs.foldl (fun s i => if it.cls = 0 then s.freeAlloc i.alloc else s) s
    let s := s.freeAlloc it.outAlloc
    { s with hb := { s.hb with items := s.hb.items.filter (fun x => x.key ≠ key),
                               queued := s.hb.queued.filter (fun x => x.2 ≠ key),
                               slots := s.hb.slots.filter (fun x => x.2 ≠ key) } }

/-- The core entries hold at least their defaults (condition 7 of Table 12.5). -/
def State.classADefaults (s : State) : Bool :=
  512 ≤ s.furn 0x380005 512 && 2 ≤ s.furn 0x3C0001 2 && 2000000000 ≤ s.furn 0x301005 2000000000 &&
    65536 ≤ s.furn 0x301007 65536 && 16 ≤ s.furn 0x481003 16 && 25 ≤ s.furn 0x481001 25

/-- The latency of an answered class A request (R318, Table 12.9): a free time, above 20 µs when a request that met every
condition missed the bound, which is counted and reported as a hardware fault, of an open code (log entry 128). -/
def State.noteLatency (s : State) (degraded : Bool) : State :=
  let missed := !degraded && Config.freeBool s.free 1
  let w := (Config.freeWord s.free 0x481008).toNat
  let ns := (if degraded then w else if missed then 20001 + w else w % 20001) % 2 ^ 32
  let most := s.modVal 0x481008 0
  let misses := s.modVal 0x481007 0 + (if missed then 1 else 0)
  { s with
    free := s.free + 1,
    dict := { s.dict with
      values := Assoc.set 0 (Assoc.set 0 s.dict.values 0x481008 (if most < ns then ns else most)) 0x481007 misses,
      eventLog := if missed then s.dict.eventLog ++ [(reportedCode 0, ns)] else s.dict.eventLog } }

/-- The status of a request that succeeded: CLASSA_DEGRADED when any condition failed (R318), counted. -/
def State.classAStatus (s : State) (it : Item) : BitVec 16 × State :=
  if it.degraded || s.hb.pull || !s.classADefaults then (0x0920, (s.bump 0x481006 1).noteLatency true)
  else (0, s.noteLatency false)

/-- A class A request fails with a code of its own; a missed condition still counts. -/
def State.failClassA (s : State) (it : Item) (code : BitVec 16) : State :=
  (((s.classAStatus it).2.dropRun it.key).answerClassA it.reply it.job code []).removeItem it.key

/-- Answer a class A item whose run was accepted, with its output, and remove it; an output that cannot be read fails the
request (R23, R283). -/
def State.serveClassA (s : State) (it : Item) : State :=
  let n := if it.outBytes ≤ 32768 then it.outBytes else 32768
  if s.mem.poisoned it.out n then (s.notePoison poisonStatus).failClassA { it with degraded := true } 0x0906
  else
    let r := s.classAStatus it
    (r.2.answerClassA it.reply it.job r.1 (s.memRead it.out n)).removeItem it.key

/-! ### The end of a job (R284, R378) -/

def Item.onCore (it : Item) : Bool :=
  match it.phase with
  | .running => true
  | .preempted => true
  | _ => false

/-- The exchange of a job on this module. -/
def State.exch? (s : State) (jid : BitVec 64) (n : Nat) : Option Exch :=
  s.slurry.find? (fun x => x.job = jid && x.exch.toNat = n)

/-- An item is this module's or another's to run: every item of a one-module job is this module's, a ROUND item is
its partition's home's, and otherwise the orchestrator's input assignment decides; the twin of a fenced module acts for it
(R343). -/
def State.assigned (s : State) (j : Job) (f : FlowRec) (q : Nat) (m : BitVec 14) : Bool :=
  if f.trigger = 3 then
    match j.exch? f.producer, s.exch? j.job f.producer with
    | some e, some x => Assoc.get s.self x.homes (q % e.parts) = m
    | _, _ => m = s.self
  else if j.modules = [s.self] then m = s.self
  else
    let own := Config.assigned j.job f.flow q
    !s.fab.fenceSeen.contains m && (own m || (s.fab.fenceSeen.contains (m ^^^ 1) && own (m ^^^ 1)))

/-- Items of an epoch that this module runs. -/
def State.epochItems (s : State) (t : Table) (u : Nat) : Nat :=
  match s.flow? t.flow with
  | none => 0
  | some (j, f) =>
    let lo := u * t.epochItems
    let hi := if f.decl.items < lo + t.epochItems then f.decl.items else lo + t.epochItems
    ((List.range (hi - lo)).filter (fun k => s.assigned j f.decl (lo + k) s.self)).length

/-- Every item of the epoch has had its accepted run committed (R241). -/
def State.epochCommitted (s : State) (t : Table) (u : Nat) : Bool :=
  match s.flow? t.flow with
  | none => false
  | some (_, f) => u * t.epochItems < f.decl.items && s.epochItems t u ≤ Assoc.get 0 t.commits u

/-- A table outside any job whose FLOW is in this job: its update epochs are the job's. -/
def Job.feeds (j : Job) (t : Table) : Bool :=
  t.job.isNone && t.updatable && j.flows.any (fun f => f.decl.flow = t.flow)

/-- An epoch of such a table is still to close: all its items are committed, or its close waits for the twin. -/
def State.closeOwed (s : State) (j : Job) : Bool :=
  s.felt.tables.any (fun t => j.feeds t &&
    (s.epochCommitted t t.version || s.felt.waiting.any (fun w => w.table = t.id)))

/-- Forget a job with no item left on a core and no epoch still to close: its records are freed, its tables, exchanges,
rings and delays go, and a table outside any job that its flows fed starts at epoch 0 again (log entry 118). -/
def State.unload (s : State) (jid : BitVec 64) : State :=
  match s.job? jid with
  | none => s
  | some j =>
    if s.hb.items.any (fun it => it.job = jid && it.onCore) || s.closeOwed j then s
    else
      let s := (s.hb.items.filter (fun it => it.job = jid)).foldl (fun s it => s.removeItem it.key) s
      let owned := s.hb.allocs.filter (fun e => e.2.live && e.2.job = jid)
      let s := owned.foldl (fun s e => s.freeAlloc (BitVec.ofNat 16 e.1)) s
      let flowIn : BitVec 20 → Bool := fun f => j.flows.any (fun r => r.decl.flow = f)
      let tabIn : BitVec 16 → Bool := fun t => s.felt.tables.any (fun u => u.id = t && u.job = some jid)
      let fed : BitVec 16 → Bool := fun t => s.felt.tables.any (fun u => u.id = t && j.feeds u)
      let s := s.forgetRows (fun t _ => tabIn t)
      { s with
        hb := { s.hb with
          jobs := s.hb.jobs.filter (fun x => x.job ≠ jid),
          rings := s.hb.rings.filter (fun r => !flowIn r.flow),
          delays := s.hb.delays.filter (fun d => !(d.kind = 3 && flowIn (BitVec.ofNat 20 d.object))) },
        rst := { s.rst with shardPlace := s.rst.shardPlace.filter (fun p => !tabIn p.1) },
        felt := { s.felt with
          tables := (s.felt.tables.filter (fun t => t.job ≠ some jid)).map (fun t =>
            if j.feeds t then { t with version := 0, commits := [] } else t),
          combines := s.felt.combines.filter (fun c => !tabIn c.table && !fed c.table),
          pending := s.felt.pending.filter (fun c => !flowIn c.item.flow),
          redirects := s.felt.redirects.filter (fun r => !tabIn r.table),
          waiting := s.felt.waiting.filter (fun w => !tabIn w.table) },
        slurry := s.slurry.filter (fun x => x.job ≠ jid) }

/-- A job that has ended is unloaded once the last of its epochs has closed. -/
def State.unloadEnded (s : State) : State :=
  (s.hb.jobs.filter (·.finalSent)).foldl (fun s j => s.unload j.job) s

/-- A record is an input of an item still on a core, which keeps it until that item's DONE (R117). -/
def State.inUse (s : State) (n : BitVec 16) : Bool :=
  n ≠ 0 && s.hb.items.any (fun it => it.onCore && it.inputs.any (fun i => i.alloc = n))

/-- Stop a job with a status (R284): its waiting items go, class A requests among them are answered with the code,
and the second completion carries it. -/
def State.stopJob (s : State) (jid : BitVec 64) (code : BitVec 16) : State :=
  match s.job? jid with
  | none => s
  | some j =>
    if j.stopped.isSome then s
    else
      let s := (s.setJob { j with stopped := some code, finalSent := true }).faultCode code jid.toNat
      let s := if j.finalSent || j.test then s else s.complete j.tag code true jid 0
      let waiting := s.hb.items.filter (fun it => it.job = jid && !it.onCore && !s.inUse it.outAlloc)
      let s := waiting.foldl (fun s it =>
        if it.cls = 0 then s.failClassA it code else (s.dropRun it.key).removeItem it.key) s
      s.unload jid

/-- Pass over items that another module runs. -/
def skipFrom (mine : Nat → Bool) (items : Nat) : Nat → Nat → Nat
  | 0, q => q
  | fuel + 1, q => if q < items && !mine q then skipFrom mine items fuel (q + 1) else q

/-- Passing over what other modules run. -/
def State.skipOthers (s : State) (j : Job) (f : FlowRun) (q : Nat) : Nat :=
  skipFrom (fun k => s.assigned j f.decl k s.self) f.decl.items (f.decl.items - q + 1) q

/-- Post the final completion when the job's work is done (R378), and unload it: with 0x0000 once the last batch of every BATCH flow
has been written; a job one of whose BATCH flows has lost its egress ends with that code (DEDUCED, log entry 48). -/
def State.checkJobEnd (s : State) (jid : BitVec 64) : State :=
  match s.job? jid with
  | none => s
  | some j =>
    if j.stopped.isSome || j.finalSent then s
    else
      let work := j.flows.filter (fun f => !f.decl.isA && !f.stopped)
      let batches := work.filter (fun f => f.decl.batch)
      let lost := (j.flows.filter (fun f => !f.decl.isA && f.decl.batch)).findSome? (·.lost)
      let done :=
        if batches.isEmpty then !work.isEmpty && work.all (fun f => decide (f.decl.items ≤ s.skipOthers j f f.released))
        else batches.all (fun f => decide (f.decl.items ≤ s.skipOthers j f f.egressed))
      if !done then s
      else match lost with
        | some code => s.stopJob jid code
        | none =>
          let s := s.setJob { j with finalSent := true }
          let s := if j.test then s else s.complete j.tag 0 true jid 0
          s.unload jid

/-- Remove released items whose reservations are free. -/
def State.sweep (s : State) (jid : BitVec 64) : State :=
  match s.job? jid with
  | none => s
  | some j =>
    let gone := s.hb.items.filter (fun it => it.job = jid && it.phase = .released &&
      (match j.flows.find? (fun f => f.decl.flow = it.key.flow) with
       | some f => s.freed j f it
       | none => false))
    gone.foldl (fun s it => s.removeItem it.key) s

/-! ### Rows for the Slurry exchange (R185, R186) -/

/-- The input table at the root of a SOURCE flow or of the CHAIN flows over it. -/
def Job.rootTable (j : Job) : Nat → FlowRec → Option Nat
  | 0, _ => none
  | fuel + 1, f =>
    if f.trigger = 1 then some f.producer
    else if f.trigger = 2 then
      match j.flow? f.producer with
      | some p => Job.rootTable j fuel p.decl
      | none => none
    else none

/-- The exchanges a flow sends on: a flow that no other flow consumes and that releases no batch sends on the
exchanges of its root table, and a ROUND flow on those of its exchange's NEXT_MASK (DEDUCED, log entry 14). -/
def Job.sendsOn (j : Job) (f : FlowRec) : List ExchRec :=
  if f.batch || f.isA || j.flows.any (fun g => (g.decl.trigger = 2 || g.decl.trigger = 4) &&
      g.decl.producer = f.flow.toNat) then []
  else if f.trigger = 3 then
    match j.exch? f.producer with
    | some e => j.exchanges.filter (fun x => e.nextMask.getLsbD x.exch.toNat)
    | none => []
  else match Job.rootTable j (j.flows.length + 1) f with
    | some t => j.exchanges.filter (fun x => x.table.toNat = t)
    | none => []

/-- What the two sides of a join name (Table 7.1): 0 input table, 1 exchange, 2 join record. -/
def JoinRec.lkind (js : JoinRec) : Nat := js.flags.toNat / 8 % 4
def JoinRec.rkind (js : JoinRec) : Nat := js.flags.toNat / 32 % 4

/-- What a side of a join names: 0 input table, 1 exchange, 2 join record. -/
def sideOf (j : JoinRec) (left : Bool) : Nat × Nat :=
  if left then (j.lkind, j.left.toNat) else (j.rkind, j.right.toNat)

/-- The exchange behind a side: its own, or that of the left side of the join record it names; the fuel is the number of
join records, which may name only earlier ones. -/
def sideExch (js : List JoinRec) (es : List ExchRec) : Nat → Nat × Nat → Option ExchRec
  | 0, _ => none
  | fuel + 1, (k, n) =>
    if k = 1 then es.find? (fun e => e.exch.toNat = n)
    else if k = 2 then
      match js[n]? with
      | some j => sideExch js es fuel (sideOf j true)
      | none => none
    else none

/-- The side a join builds, through the exchange behind it. -/
def Job.rightExch (j : Job) (js : JoinRec) : Option ExchRec :=
  sideExch j.joins j.exchanges (j.joins.length + 1) (sideOf js false)

/-- The key fields of a join for one side, canonical (R170). -/
def joinKeyOf (js : JoinRec) (left : Bool) (row : Bytes) : Bytes :=
  js.keys.flatMap (fun k =>
    canonField k.ktype.toNat ((row.drop (if left then k.loff.toNat else k.roff.toNat)).take k.klen.toNat))

/-- Key fields that lie one after another, each made canonical (R170). -/
def canonKeys : List JoinKey → Bytes → Bytes
  | [], b => b
  | k :: ks, b => canonField k.ktype.toNat (b.take k.klen.toNat) ++ canonKeys ks (b.drop k.klen.toNat)

/-- An exchange stands behind a side of a HASH or SORTMERGE join. -/
def Job.keysJoin (j : Job) (e : ExchRec) (js : JoinRec) : Bool :=
  js.kind ≠ 3 && [true, false].any (fun left =>
    (sideExch j.joins j.exchanges (j.joins.length + 1) (sideOf js left)).map ExchRec.exch = some e.exch)

/-- The canonical partition key of a row: its KEY_LEN bytes at KEY_OFF, which are the key fields of the HASH and SORTMERGE joins over
this exchange one after another, made canonical (R169, R170, R185). A BROADCAST join ties no key to an exchange. -/
def Job.partKey (j : Job) (e : ExchRec) (row : Bytes) : Bytes :=
  let raw := (row.drop e.keyOff).take e.keyLen
  match j.joins.find? (j.keysJoin e) with
  | some js => canonKeys js.keys raw
  | none => raw

def Job.partOf (j : Job) (e : ExchRec) (row : Bytes) : Nat :=
  if e.npart = 0 then 0 else hashReduce (deckle64 e.partSeed (j.partKey e row)) e.npart

/-- The round of a row: the ordinal of its first provenance entry for TABLE over ROUND_ROWS (R164, R186). -/
def ExchRec.roundOf (e : ExchRec) (row : Bytes) : Nat :=
  let entries := (List.range e.prov).map (fun i => fieldAt row (8 * i) 8)
  match entries.find? (fun p => p / 2 ^ 48 = e.table.toNat) with
  | some p => p % 2 ^ 48 / e.roundRows
  | none => 0

def bloomSalts : List Nat :=
  [0x6C8E9CF5, 0x3A1F7D23, 0x9B05688D, 0xD2B74407, 0x58E13C69, 0xA4F01B3B, 0x1D8CE5A1, 0xF3A92C17]

/-- The bits of a key in a Bloom filter: block and bit numbers (R179). -/
def bloomBits (blocks k : Nat) (h : BitVec 64) : Nat × List Nat :=
  (hashReduce h blocks, (bloomSalts.take k).map (fun salt => (h.toNat % 2 ^ 32) * salt % 2 ^ 32 / 2 ^ 23))

def bitOf (b : Bytes) (i : Nat) : Bool := ((b[i / 8]?).getD 0).getLsbD (i % 8)

/-- A key passes a filter when all of its bits are set (R179). -/
def bloomPasses (filter : Bytes) (blocks k : Nat) (h : BitVec 64) : Bool :=
  let r := bloomBits blocks k h
  r.2.all (fun n => bitOf filter (512 * r.1 + n))

/-- The join key of a row on an exchange: that of the side which names the exchange, and behind a side that names a join record the
partition key, which is the canonical join key as it lies in the rows (R169, R185). -/
def Job.bloomKey (j : Job) (e : ExchRec) (js : JoinRec) (row : Bytes) : Bytes :=
  if sideOf js true = (1, e.exch.toNat) then joinKeyOf js true row
  else if sideOf js false = (1, e.exch.toNat) then joinKeyOf js false row
  else j.partKey e row

/-- A row that the exchange drops at the source: its key fails the published filter (R181, R185). -/
def State.bloomDrops (s : State) (j : Job) (e : ExchRec) (it : Item) (row : Bytes) : Bool :=
  if !e.flags.getLsbD 0 || s.gradeIn (s.stampedOverlay it.grade it.gradeRev) 0x440004 1 = 0 then false
  else match j.joins[e.join.toNat]? with
    | some js =>
      let filter := Assoc.get [] j.filters e.join.toNat
      !filter.isEmpty && !bloomPasses filter js.bloomBlocks js.bloomK (deckle64 js.seed (j.bloomKey e js row))
    | none => false

/-- Cut a byte string into whole rows. -/
def rowsOf (size : Nat) : Nat → Bytes → List Bytes
  | 0, _ => []
  | n + 1, b => b.take size :: rowsOf size n (b.drop size)

def State.setExch (s : State) (x : Exch) : State :=
  { s with slurry := s.slurry.map (fun y => if y.job = x.job && y.exch = x.exch then x else y) }

/-- The copies the engine makes of a row: one, or under BROADCAST one for each module of the job (R183). -/
def Job.txRows (j : Job) (e : ExchRec) (key : ItemKey) (row : Bytes) : List TxRow :=
  let t : TxRow := { item := key, dest := none, part := j.partOf e row, round := e.roundOf row, bytes := row, seq := 0 }
  if e.flags.getLsbD 1 then j.modules.map (fun m => { t with dest := some m }) else [t]

/-- Where a row goes. -/
def TxRow.to (t : TxRow) (x : Exch) (self : BitVec 14) : BitVec 14 := t.dest.getD (Assoc.get self x.homes t.part)

/-- A row is still owed: its round has not been ended to its home, or is owed again, for its partition or whole. -/
def Exch.owes (x : Exch) (self : BitVec 14) (t : TxRow) : Bool :=
  Assoc.get 0 x.txRound (t.to x self).toNat ≤ t.round ||
    x.redo.any (fun d => d.1 = t.to x self && d.2.2 = t.round && (d.2.1 = none || d.2.1 = some t.part))

/-- Hand the rows of an accepted item to the Slurry engine, into the send pool of each exchange it sends on. -/
def State.handRows (s : State) (j : Job) (f : FlowRec) (it : Item) : State :=
  (j.sendsOn f).foldl (fun s e =>
    match s.exch? j.job e.exch.toNat with
    | none => s
    | some x =>
      let out := s.memRead it.out it.outBytes
      let most := it.outBytes / e.rowBytes
      let n := Config.rowsOut out e.rowBytes
      let rows := rowsOf e.rowBytes (if n ≤ most then n else most) out
      let kept := rows.filter (fun r => !s.bloomDrops j e it r)
      let s := s.bump 0x440006 (rows.length - kept.length)
      let owed := (kept.flatMap (j.txRows e it.key)).filter (x.owes s.self)
      s.setExch { x with pool := x.pool ++ owed }) s

/-- The output of an item is read for its rows: for the exchanges it sends on, for the joins over it and for their counts. -/
def Job.readsRows (j : Job) (f : FlowRec) : Bool :=
  j.sendsOn f ≠ [] || (j.joins ≠ [] && (f.trigger = 3 || f.stage = 2))

/-- The rows of an item cannot be read, which stops its job (R23). -/
def State.rowsLost (s : State) (j : Job) (f : FlowRec) (it : Item) : Bool :=
  j.readsRows f && s.mem.poisoned it.out it.outBytes

/-- Ordinals of the root table that one item of a SOURCE flow, or of a CHAIN flow over it, stands for. -/
def Job.ordinalSpan (j : Job) : Nat → FlowRec → Nat
  | 0, _ => 1
  | fuel + 1, f =>
    if f.trigger = 2 then
      match j.flow? f.producer with
      | some p => f.span * Job.ordinalSpan j fuel p.decl
      | none => f.span
    else f.span

/-- Items of a flow that may hold rows of a round of an exchange it sends on (R186). -/
def Job.roundItems (j : Job) (e : ExchRec) (f : FlowRec) (r : Nat) : List Nat :=
  let lo := r * e.roundRows
  let hi := (r + 1) * e.roundRows - 1
  let all := List.range f.items
  if f.trigger = 3 then
    match j.exch? f.producer with
    | some d =>
      if d.table = e.table then
        (List.range ((hi / d.roundRows - lo / d.roundRows + 1) * d.parts)).map (lo / d.roundRows * d.parts + ·) |>.filter
          (· < f.items)
      else all
    | none => all
  else
    let n := Job.ordinalSpan j (j.flows.length + 1) f
    if n = 0 then all
    else (List.range (hi / n - lo / n + 1)).map (lo / n + ·) |>.filter (· < f.items)

/-- The flows that send on an exchange. -/
def Job.senders (j : Job) (e : ExchRec) : List FlowRun :=
  j.flows.filter (fun f => (j.sendsOn f.decl).any (fun x => x.exch = e.exch))

/-- The holders of a round (R186). -/
def State.holders (s : State) (j : Job) (e : ExchRec) (r : Nat) : List (BitVec 14) :=
  j.modules.filter (fun m => (j.senders e).any (fun f => (j.roundItems e f.decl r).any (fun q => s.assigned j f.decl q m)))

/-- The ROUND flows on an exchange. -/
def Job.roundFlows (j : Job) (e : ExchRec) : List FlowRun :=
  j.flows.filter (fun f => f.decl.trigger = 3 && f.decl.producer = e.exch.toNat)

/-- Round r of partition p has been consumed: its ROUND items are accepted (R193). -/
def State.roundUsed (s : State) (j : Job) (e : ExchRec) (p r : Nat) : Bool :=
  let fs := j.roundFlows e
  !fs.isEmpty && fs.all (fun f => s.acceptedSeq f (r * e.parts + p))

/-- The lowest round not consumed, from a round on. -/
def State.baseFrom (s : State) (j : Job) (e : ExchRec) (p : Nat) : Nat → Nat → Nat
  | 0, r => r
  | fuel + 1, r => if r < j.rounds e && s.roundUsed j e p r then State.baseFrom s j e p fuel (r + 1) else r

/-- Forget the rows retained for a receiver's partition and round (R196). -/
def Exch.forget (x : Exch) (m : BitVec 14) (p r : Nat) : Exch :=
  { x with retained := x.retained.filter (fun t => !(t.1 = m && t.2.part = p && t.2.round = r)) }

/-- Joins with a Bloom filter whose right side an exchange stands behind, with their numbers; `direct` when it carries that side's
rows itself. -/
def Job.bloomJoins (j : Job) (e : ExchRec) (direct : Bool) : List (JoinRec × Nat) :=
  j.joins.zipIdx.filter (fun p => p.1.flags.getLsbD 2 && decide (p.1.rkind = 1) = direct &&
    (j.rightExch p.1).map ExchRec.exch = some e.exch)

/-- The key hashes of rows for the filters of joins. -/
def filterHashes (js : List (JoinRec × Nat)) (rows : JoinRec → List Bytes) : List (Nat × BitVec 64) :=
  js.flatMap (fun p => (rows p.1).map (fun b => (p.2, deckle64 p.1.seed (joinKeyOf p.1 false b))))

/-- Keep key hashes for a job's filters. -/
def State.keepHashes (s : State) (jid : BitVec 64) (hs : List (Nat × BitVec 64)) : State :=
  if hs = [] then s
  else match s.job? jid with
    | none => s
    | some j => s.setJob { j with hashes := j.hashes ++ hs }

/-- The key under which the rows of a build that come from a join record are counted. -/
def joinedKey (n p : Nat) : Nat := p + 2 ^ 32 * n

/-- Rows of joins in a partition are counted for the builds of R178. -/
def State.countBuilt (s : State) (jid : BitVec 64) (p : Nat) (js : List (JoinRec × Nat)) (rows : JoinRec → List Bytes) : State :=
  match s.job? jid with
  | none => s
  | some j =>
    let add := fun (m : Assoc Nat) (x : JoinRec × Nat) =>
      let k := joinedKey x.2 p
      Assoc.set 0 m k (Assoc.get 0 m k + (rows x.1).length)
    s.setJob { j with joined := js.foldl add j.joined }

/-- Where the right side is a join record, its rows are those in the outputs of the ROUND items of the exchange behind it
(DEDUCED, log entry 132): they are counted, and their keys kept for the filter. -/
def State.keepJoined (s : State) (j : Job) (f : FlowRec) (it : Item) : State :=
  if f.trigger ≠ 3 then s
  else match j.exch? f.producer with
    | none => s
    | some e =>
      let above := j.joins.zipIdx.filter (fun p => p.1.rkind = 2 && (j.rightExch p.1).map ExchRec.exch = some e.exch)
      if above = [] then s
      else
        let out := s.memRead it.out it.outBytes
        let rows := fun (k : JoinRec) =>
          let n := Config.rowsOut out k.rowBytes
          let most := it.outBytes / k.rowBytes
          rowsOf k.rowBytes (if n ≤ most then n else most) out
        (s.countBuilt j.job (it.key.seq.toNat % e.parts) above rows).keepHashes j.job (filterHashes (j.bloomJoins e false) rows)

/-- Join output rows of an accepted item of the join stage are counted (Table 7.10, log entry 116). -/
def State.countJoined (s : State) (j : Job) (f : FlowRec) (it : Item) : State :=
  if j.joins = [] || f.stage ≠ 2 || it.outBytes = 0 then s
  else s.bump 0x440005 (Config.joinRowsOut (s.memRead it.out it.outBytes))

/-- The class an exchange's messages travel in: that of the flows that send on it. -/
def Job.exchClass (j : Job) (e : ExchRec) : BitVec 2 :=
  match j.senders e with
  | f :: _ => f.decl.cls.setWidth 2
  | [] => 1

/-- The next SEQ of the stream to a module. -/
def Exch.nextSeq (x : Exch) (dst : BitVec 14) : Nat := Assoc.get 0 x.txSeq dst.toNat + 1

/-- Send a Slurry message under a SEQ of its stream (Table 7.6). -/
def State.sendSeq (s : State) (j : Job) (e : ExchRec) (t : BitVec 8) (dst : BitVec 14) (seq part round value : Nat)
    (payload : Bytes) : State :=
  let m := s.newMsg t dst (j.exchClass e) e.exch j.job (BitVec.ofNat 32 part) (BitVec.ofNat 32 round)
    (BitVec.ofNat 64 seq) (BitVec.ofNat 32 value) payload
  (s.sendMsg t m).bump 0x441002 1

/-- Send a Slurry message with the next SEQ of its stream. -/
def State.sendSlurry (s : State) (j : Job) (e : ExchRec) (t : BitVec 8) (dst : BitVec 14) (part round value : Nat)
    (payload : Bytes) : State :=
  match s.exch? j.job e.exch.toNat with
  | none => s
  | some x =>
    let seq := x.nextSeq dst
    (s.setExch { x with txSeq := Assoc.set 0 x.txSeq dst.toNat seq }).sendSeq j e t dst seq part round value payload

/-- ROUND_DONE has come for a receiver's partition and round (R196): its retained rows go. -/
def Exch.noteDone (x : Exch) (m : BitVec 14) (p r : Nat) : Exch :=
  { x.forget m p r with doneOf := (x.doneOf ++ [(p, r)]).eraseDups }

/-- The rows of a round of a partition have been consumed (R193, R196): ROUND_DONE goes to its holders, base moves, and
the hashes of built rows are kept for the join's filter. -/
def State.finishRound (s : State) (j : Job) (f : FlowRec) (q : Nat) : State :=
  match j.exch? f.producer, s.exch? j.job f.producer with
  | some e, some x =>
    let p := q % e.parts
    let r := q / e.parts
    if f.trigger ≠ 3 || !s.roundUsed j e p r then s
    else
      let mine := x.staged.filter (fun t => t.part = p && t.round = r)
      let rows := mine.flatMap (fun t => rowsOf e.rowBytes t.rows t.bytes)
      let s := s.keepHashes j.job (filterHashes (j.bloomJoins e true) (fun _ => rows))
      let x := { x with staged := x.staged.filter (fun t => !(t.part = p && t.round = r)) }
      let b := Assoc.get 0 x.base p
      let x := { x with base := Assoc.set 0 x.base p (s.baseFrom j e p (j.rounds e + 1) b) }
      let s := s.setExch (x.noteDone s.self p r)
      ((s.holders j e r).filter (· ≠ s.self)).foldl (fun s h => s.sendSlurry j e 0x14 h p r 0 []) s
  | _, _ => s

/-! ### Outcomes (R283) -/

/-- Accept the run of an item (R240, R282, R287). -/
def State.acceptRun (s : State) (it : Item) : State :=
  let s := (s.commitRun it.key it.attempt).setItem { it with phase := .accepted, core := none }
  let s := s.countEpoch it.key
  match s.combineStop with
  | some code => s.stopJob it.job code
  | none =>
    match s.flow? it.key.flow with
    | none => s
    | some (j, f) =>
      let own := it.inputs.filter (fun i => f.decl.trigger = 1 || f.decl.trigger = 3 || s.hb.items.all (fun x => x.outAlloc ≠ i.alloc))
      let s := own.foldl (fun s i => s.freeAlloc i.alloc) s
      let s := s.setFlow { f with staged := f.staged.filter (fun x => x.1 ≠ it.key.seq.toNat) }
      if s.rowsLost j f.decl it then (s.notePoison poisonStatus).stopJob it.job 0x0906
      else
        let s := ((s.handRows j f.decl it).keepJoined j f.decl it).countJoined j f.decl it
        (s.finishRound j f.decl it.key.seq.toNat).sweep it.job

/-- Run an item again from its start (R24); its earlier contributions are dropped. -/
def State.rerun (s : State) (it : Item) (counted : Bool) (avoidCore : Option CoreId) (avoidDie : Option (BitVec 2)) :
    State :=
  let it' := { it with attempt := it.attempt + 1, counted := it.counted + (if counted then 1 else 0),
                       phase := .created, core := none, avoidCore := avoidCore, avoidDie := avoidDie }
  let s := ((s.dropRun it.key).setItem it').bump 0x30000E 1
  s.memWrite it.ptr it'.bytes

def isCoreFault (st : BitVec 16) : Bool := st = 0x0111 || st = 0x0110
def isNoEngine (st : BitVec 16) : Bool := st = 0x0387 || st = 0x0620

/-- The status lies in a reserved range of Table 0.4. -/
def reservedStatus (st : BitVec 16) : Bool := (0x0001 ≤ st.toNat && st.toNat ≤ 0x00FF) || 0x0E00 ≤ st.toNat

/-- The status the module reports for a run that ended with one: a program may give DONE a status of a reserved range,
and the module never returns such a code (R7), so it returns one of an owned range, which is open (log entry 124). -/
def reportedStatus (st : BitVec 16) : BitVec 16 := if reservedStatus st then reportedCode st else st

/-- A class A request of the host that a reset of the host port has failed while its item was on a core (R357): it is answered, and
its item only ends. -/
def Item.answered (it : Item) : Bool := it.cls = 0 && it.reply = .none

/-- The Headbox's treatment of an ended run (Table 11.8). -/
def State.outcome (s : State) (it : Item) (c : CoreId) (st : BitVec 16) : State :=
  let limit := decide (s.furn 0x300007 3 ≤ it.counted)
  let stopped := match s.job? it.job with
    | some j => j.stopped.isSome
    | none => true
  if it.answered then ((s.dropRun it.key).removeItem it.key).unload it.job
  else if stopped then
    (if it.cls = 0 then s.failClassA it (if st = 0 then 0x0C0C else reportedStatus st)
     else (s.dropRun it.key).removeItem it.key).unload it.job
  else if st = 0 then
    if it.cls = 0 then
      if s.hb.winItems.contains it.key then s.setItem { it with phase := .accepted, core := none } else s.serveClassA it
    else s.acceptRun it
  else if isCoreFault st then
    if it.cls = 0 then
      if it.coreFailed then s.failClassA it st else s.rerun { it with coreFailed := true } false (some c) it.avoidDie
    else if limit then s.stopJob it.job 0x0811
    else s.rerun it true (some c) it.avoidDie
  else if st = 0x0107 then
    let it := { it with degraded := true }
    if limit then (if it.cls = 0 then s.failClassA it 0x0906 else s.stopJob it.job 0x0906)
    else s.rerun it true it.avoidCore it.avoidDie
  else if isNoEngine st then
    if limit then (if it.cls = 0 then s.failClassA it 0x0811 else s.stopJob it.job 0x0811)
    else s.rerun it true it.avoidCore (some (vatDie c.vat))
  else if it.cls = 0 then s.failClassA it (reportedStatus st)
  else s.stopJob it.job (reportedStatus st)

/-! ### The context area (R67 to R70, Tables 2.13 to 2.15) -/

def contextArea (c : CoreId) : Nat := contextBase + 0x8000 * coreNum c

/-- The 64 bytes of a stream register (Table 2.15). -/
def Stream.bytes (t : Stream) : Bytes :=
  record 64 [(0, 8, if t.bound then t.desc.toNat else 0), (8, 8, t.pos.toNat), (0x10, 8, t.allocBase.toNat),
    (0x18, 8, t.allocExtent.toNat), (0x20, 1, (if t.bound then 2 else 0) + (if t.write then 1 else 0)),
    (0x21, 1, t.plane.toNat)]

/-- Bytes 0x0040-0x50FF of the context area (Table 2.13). -/
def Core.context (k : Core) : Bytes :=
  (0 :: (List.range 31).map (fun i => (k.x[i + 1]?.getD 0).toNat)).flatMap (leBytes 8) ++
    leBytes 8 k.fpctl.toNat ++ leBytes 8 k.fpflags.toNat ++ leBytes 8 k.topkK.toNat ++ leBytes 8 k.topkst.toNat ++
    leBytes 8 k.ticketMap.toNat ++ zeros 88 ++
    k.p.toList.flatMap predBytes ++ k.st.toList.flatMap Stream.bytes ++ k.e.toList.flatMap lanesBytes ++
    zeros 64 ++ k.w.toList.flatMap vecBytes

/-- The header (Table 2.14) for an item with its context bytes. -/
def contextHeader (it : Item) (epc cycles : Nat) (ctx : Bytes) : Bytes :=
  record 64 [(0, 2, 1), (2, 2, 1), (4, 4, it.key.flow.toNat), (8, 8, it.key.seq.toNat), (0x10, 8, epc),
    (0x18, 8, it.ptr), (0x20, 4, cycles), (0x38, 4, (crc32c 0 ctx).toNat)]

/-- A stream register from its saved bytes. What SBIND read behind them (R121) and the index entries read (R128) are as
the pre-emption left them, so that the stream goes on as if never interrupted (R16); bytes that name another descriptor
take the one that stands there (log entry 15). -/
def streamOf (b : Bytes) (was : Stream) (image : BitVec 512) (draw : Nat) : Stream :=
  let same := was.bound && was.desc.toNat = fieldAt b 0 8
  { desc := BitVec.ofNat 64 (fieldAt b 0 8), pos := BitVec.ofNat 64 (fieldAt b 8 8),
    allocBase := BitVec.ofNat 64 (fieldAt b 0x10 8), allocExtent := BitVec.ofNat 64 (fieldAt b 0x18 8),
    bound := (fieldAt b 0x20 1) / 2 % 2 = 1, write := (fieldAt b 0x20 1) % 2 = 1,
    plane := BitVec.ofNat 8 (fieldAt b 0x21 1), image := if same then was.image else image,
    index := if same then was.index else [], since := if same then was.since else draw }

/-- Restore the saved state (R69): registers, predicates, streams, accumulators and control registers. -/
def State.restore (s : State) (c : CoreId) (k : Core) (ctx : Bytes) : Core :=
  let st := fun (i : Nat) =>
    let b := (ctx.drop (0x380 + 64 * i)).take 64
    let d := fieldAt b 0 8
    streamOf b (k.kept[i]?.getD Stream.unbound) (if d = 0 then 0 else bytesToLine (s.seen c.vat d 64)) s.free
  { k with
    x := Vector.ofFn (fun i => if i.val = 0 then 0 else BitVec.ofNat 64 (fieldAt ctx (8 * i.val) 8)),
    fpctl := BitVec.ofNat 2 (fieldAt ctx 0x100 8), fpflags := BitVec.ofNat 5 (fieldAt ctx 0x108 8),
    topkK := BitVec.ofNat 7 (fieldAt ctx 0x110 8), topkst := BitVec.ofNat 64 (fieldAt ctx 0x118 8),
    p := Vector.ofFn (fun i => predOfBytes ((ctx.drop (0x180 + 64 * i.val)).take 64)),
    st := Vector.ofFn (fun i => st i.val),
    e := Vector.ofFn (fun i => lanesOfBytes ((ctx.drop (0x780 + 1152 * i.val)).take 1152)),
    w := Vector.ofFn (fun i => vecOfBytes ((ctx.drop (0x10C0 + 512 * i.val)).take 512)) }

/-! ### Cores -/

/-- The core without its item; tickets of the item's class are free, those of a pre-empted item stay (R49). -/
def Core.vacate (k : Core) : Core :=
  { k with active := false, item := none, finishing := none, runahead := false, wordsRun := 0, lineUses := 0,
           otherUnit := false, preempted := none,
           tickets := Vector.ofFn (fun i =>
             if ticketLo k.itemClass ≤ i.val && i.val ≤ ticketHi k.itemClass then .free else k.tickets[i.val]) }

/-- The core as a work item starts on it (R423): the program's registers are zero, every stream is unbound and no ticket
of its class is outstanding; those of an item it pre-empts stay with that item (R49). -/
def Core.begin (k : Core) (it : Item) (pre : Option ItemKey) : Core :=
  { k with
    x := Vector.replicate 32 0, w := Vector.replicate 32 0, p := Vector.replicate 8 0,
    e := Vector.replicate 2 (Vector.replicate 16 0), st := Vector.replicate 16 Stream.unbound,
    pc := BitVec.ofNat 64 it.entry, active := true, firmware := false, item := some it.key,
    itemPtr := BitVec.ofNat 64 it.ptr, itemClass := it.cls, fpctl := 0, fpflags := 0, topkK := 0, topkst := 0,
    handler := false, finishing := none, runahead := false, preempted := pre, wordsRun := 0, lineUses := 0,
    otherUnit := false, itemCycles := 0,
    tickets := Vector.ofFn (fun i =>
      if pre.isNone || (ticketLo it.cls ≤ i.val && i.val ≤ ticketHi it.cls) then .free else k.tickets[i.val]) }

/-- Resume the pre-empted item after the class A item (R69): the header must be valid and the check value match;
otherwise the class B item ends with CONTEXT_CORRUPT. The core clears VALID (R70). -/
def State.resume (s : State) (c : CoreId) (key : ItemKey) : State :=
  match s.item? key with
  | none => s
  | some it =>
    let a := contextArea c
    let hdr := s.seen c.vat a 64
    let ctx := s.seen c.vat (a + 0x40) 20672
    if fieldAt hdr 2 2 % 2 = 1 && fieldAt hdr 0x38 4 = (crc32c 0 ctx).toNat then
      let k := s.restore c (s.core c) ctx
      let k := { k with pc := BitVec.ofNat 64 (fieldAt hdr 0x10 8), active := true, item := some key,
                        itemPtr := BitVec.ofNat 64 (fieldAt hdr 0x18 8), itemClass := it.cls,
                        itemCycles := BitVec.ofNat 32 (fieldAt hdr 0x20 4), kept := Vector.replicate 16 Stream.unbound }
      let s := (s.setCore c k).store c.vat (a + 2) [0, 0]
      if it.phase = .preempted then s.setItem { it with phase := .running, core := some c } else s
    else
      let k := s.core c
      (s.setCore c { k with tickets := Vector.replicate 32 .free }).outcome it c 0x0110

/-- End the item on a core with a status (R50, R61): the core is vacated, the Headbox treats the status, and a
pre-empted item resumes. -/
def State.itemEnd (s : State) (c : CoreId) (st : BitVec 16) : State :=
  let k := s.core c
  match k.item with
  | none => s.setCore c k.vacate
  | some key =>
    let s := s.setCore c k.vacate
    let s := match s.item? key with
      | none => s
      | some it =>
        let it := if it.cls = 0 && (decide (2048 < k.wordsRun) || decide (16 < k.lineUses) || k.otherUnit)
          then { it with degraded := true } else it
        (s.setItem it).outcome it c st
    match k.preempted with
    | none => s
    | some b => s.resume c b

/-- A class A item takes the grade in force when it is dispatched, and its mark (R259, R279). -/
def State.restamp (s : State) (it : Item) : Item :=
  let g := s.dict.grades[s.dict.active.toNat]
  let ordered := match s.job? it.job with
    | some j => !j.unordered
    | none => true
  if it.cls = 0 then
    { it with grade := s.dict.active.setWidth 8, gradeRev := g.rev, reproducible := ordered && !s.breaksRepro g.entries }
  else it

/-- The flow argument block of an item with what follows it in ARGS, which gives it no length of its own (R278). -/
def State.argBlock (s : State) (it : Item) : Nat × Nat :=
  match s.flow? it.key.flow with
  | some (j, f) => (j.argsBase + f.decl.arg, j.argsBytes - f.decl.arg)
  | none => (0, 0)

/-- The draft a slice makes for a reservation: ADDR is its base, ALLOC_ID its record, and WRITABLE stands for an output; what else
it holds is open (log entry 117). -/
def sliceDraft (base bytes : Nat) (rec_ : BitVec 16) (write : Bool) : BitVec 512 :=
  let d := Config.reservationDraft base bytes rec_ write
  let shape := (d.extractLsb' 456 8 &&& 0xF7) ||| (if write then 8 else 0)
  (0 : BitVec 32) ++ rec_ ++ shape ++ d.extractLsb' 64 392 ++ (0 : BitVec 7) ++ d.extractLsb' 56 1 ++ BitVec.ofNat 56 base

/-- A descriptor a slice creates for a reservation (R118): the marked draft, when it passes Table 5.3 (R119, R120). -/
def State.sliceDesc (s : State) (job : BitVec 64) (base bytes : Nat) (rec_ : BitVec 16) (write : Bool) : Option (BitVec 512) :=
  let b := sliceDraft base bytes rec_ write
  match s.descCheck b job (bytesToLine (s.memRead (descOf b).idxref 64)) with
  | none => some (s.marked b job)
  | some _ => none

/-- The descriptors of an item's input and output reservations, in order. -/
def State.sliceDescs (s : State) (it : Item) : List (Option (BitVec 512)) :=
  it.inputs.map (fun i => s.sliceDesc it.job i.addr i.bytes i.alloc false) ++
    (if it.outBytes = 0 then [] else [s.sliceDesc it.job it.out it.outBytes it.outAlloc true])

/-- The created descriptors are written to the item store, where the item can bind and copy them. -/
def State.writeSliceDescs (s : State) (a : Nat) (ds : List (Option (BitVec 512))) : State :=
  ds.zipIdx.foldl (fun s d => match d.1 with
    | some b => s.memWrite (a + 64 * d.2) (lineToBytes b)
    | none => s) s

/-- A core runs an item whose flow names a Felt shard (R286). -/
def State.noteShard (s : State) (shard : Option Nat) (c : CoreId) : State :=
  match shard with
  | some n => { s with hb := { s.hb with shardRuns := (n, c) :: s.hb.shardRuns.filter (fun x => x.1 ≠ n) } }
  | none => s

/-- Put an item on a core: the Vat's copies of the work item, its argument area and flow argument block and its inputs are
dropped (R56), and the slice creates the descriptors of its reservations (R118). -/
def State.startOn (s : State) (it : Item) (c : CoreId) (pre : Option ItemKey) : State :=
  let s := s.invalRange c.vat it.ptr (256 * itemSlots it.inputs.length)
  let s := s.invalRange c.vat (s.argBlock it).1 (s.argBlock it).2
  let s := it.inputs.foldl (fun s i => s.invalRange c.vat i.addr i.bytes) s
  let s := s.setCore c ((s.core c).begin it pre)
  let it := s.restamp it
  let s := s.memWrite it.ptr it.bytes
  let ds := s.sliceDescs it
  let s := (s.writeSliceDescs (it.ptr + descsOff it.inputs.length) ds).setItem
    { it with phase := .running, core := some c, descs := ds.filterMap id }
  let s := { s with hb := { s.hb with queued := s.hb.queued.filter (fun x => x.2 ≠ it.key),
                                      slots := s.hb.slots.filter (fun x => x.2 ≠ it.key) } }
  let s := match s.flow? it.key.flow with
    | some (_, f) => (s.setFlow { f with lastCore := some c }).noteShard f.shard c
    | none => s
  s.bump 0x30000C 1

/-- Pre-empt the class B item of a core and start a class A item (R67, Table 2.12): the context bytes go to the
context area through the Vat's caches, the header last. -/
def State.preempt (s : State) (it b : Item) (c : CoreId) : State :=
  let k := s.core c
  let ctx := k.context
  let a := contextArea c
  let s := s.store c.vat (a + 0x40) ctx
  let s := s.store c.vat a (contextHeader b k.pc.toNat k.itemCycles.toNat ctx)
  let s := (s.setCore c { k with kept := k.st }).setItem { b with phase := .preempted }
  (s.startOn it c (some b.key)).bump 0x30000D 1

/-! ### Placement (R286) -/

def coresOf (v : BitVec 6) : List CoreId := (List.range 16).map (fun i => { vat := v, core := BitVec.ofNat 4 i })

def allVats : List (BitVec 6) := (List.range 64).map (BitVec.ofNat 6)

/-- No dispatch to the Vat: a firmware swap (R387) or a calibration (R395) has stopped it. -/
def State.vatClosed (s : State) (v : BitVec 6) : Bool := s.hb.dispatchOff.contains v || s.pow.calVat = some v

/-- The core suits the item: it is in service, its Vat takes dispatch, and a rerun keeps away from the core or die its
earlier run failed on. -/
def State.suits (s : State) (it : Item) (c : CoreId) : Bool :=
  s.coreInService c && !s.hb.firmwareFault.contains c && !s.vatClosed c.vat && it.avoidCore ≠ some c &&
    it.avoidDie ≠ some (vatDie c.vat) && (it.avoidVat ≠ some c.vat || s.rst.boot = .recovery) &&
    (s.rst.boot ≠ .recovery || c.vat = s.rst.recoveryVat)

/-- A core's local slot is taken; there is one in PULL only (R285). -/
def State.slotHeld (s : State) (c : CoreId) : Bool := s.hb.slots.any (fun x => x.1 = c)

/-- The core may take the item: it is idle, its local slot is free and it suits the item. -/
def State.mayTake (s : State) (it : Item) (c : CoreId) : Bool := s.idle c && !s.slotHeld c && s.suits it c

def State.takerIn (s : State) (it : Item) (v : BitVec 6) : Option CoreId := (coresOf v).find? (s.mayTake it)

/-- Class A items running in a Vat or queued there. -/
def State.classACount (s : State) (v : BitVec 6) : Nat :=
  (s.hb.items.filter (fun it => it.cls = 0 &&
    (match it.core with | some c => c.vat = v | none => false))).length +
  (s.hb.queued.filter (fun q => q.1 = v &&
    (match s.item? q.2 with | some it => it.cls = 0 | none => false))).length

def State.queueCount (s : State) (v : BitVec 6) : Nat := (s.hb.queued.filter (fun q => q.1 = v)).length

/-- The Vat of a list with the least measure, the first on a tie. -/
def leastVat (f : BitVec 6 → Nat) : List (BitVec 6) → BitVec 6
  | [] => 0
  | [v] => v
  | v :: vs => let u := leastVat f vs; if f v ≤ f u then v else u

def State.openVats (s : State) : List (BitVec 6) := allVats.filter (fun v => !s.vatClosed v)

/-- The Vat an item of class B or C keeps to: that of its AFFINITY, else the one that last ran its flow, unless it takes no
dispatch (R387). -/
def State.keptVat (s : State) (it : Item) : Option (BitVec 6) :=
  let last := match s.flow? it.key.flow with
    | some (_, f) => f.lastCore
    | none => none
  ((it.affinity.filter (fun c => !s.vatClosed c.vat)) <|> (last.filter (fun c => !s.vatClosed c.vat))).map CoreId.vat

def State.affinityVat (s : State) (it : Item) : BitVec 6 :=
  if it.cls = 0 then leastVat s.classACount s.openVats
  else match s.keptVat it with
    | some v => v
    | none =>
      let die := match it.inputs with
        | i :: _ => homeDie i.addr
        | [] => 0
      let near := s.openVats.filter (fun v => (vatDie v).toNat = die)
      leastVat s.queueCount (if near = [] then s.openVats else near)

/-- The class B item a core runs, when it can be pre-empted. -/
def State.preemptable (s : State) (c : CoreId) : Option Item :=
  let k := s.core c
  if k.active && !k.firmware && k.itemClass = 1 && k.finishing.isNone && k.preempted.isNone then
    match k.item with
    | some key => s.item? key
    | none => none
  else none

/-- The class B item of a core that a class A item may pre-empt there: its rerun keeps away from the core, the die and
the Vat its earlier run failed on (R24, R283). -/
def State.victimOf (s : State) (it : Item) (c : CoreId) : Option Item :=
  if it.avoidCore = some c || it.avoidDie = some (vatDie c.vat) || it.avoidVat = some c.vat then none else s.preemptable c

def State.preemptRoom (s : State) : Bool :=
  decide ((s.cores.filter (fun e => e.2.preempted.isSome)).length < s.furn 0x481005 128)

/-- Other Vats of the die, in the order k = 1 to 15. -/
def dieOrder (v : BitVec 6) : List (BitVec 6) :=
  (List.range 15).map (fun k => BitVec.ofNat 6 (16 * (v.toNat / 16) + (v.toNat + k + 1) % 16))

/-- Put an item into a core's local slot (R285). -/
def State.intoSlot (s : State) (it : Item) (c : CoreId) : State :=
  let s := s.setItem { it with phase := .queued }
  { s with hb := { s.hb with slots := s.hb.slots ++ [(c, it.key)],
                             queued := s.hb.queued.filter (fun x => x.2 ≠ it.key) } }

/-- A slice gives an item to an idle core: in PUSH by interrupt, in PULL through the core's local slot (R285). -/
def State.give (s : State) (it : Item) (c : CoreId) : State :=
  if s.hb.pull then s.intoSlot it c else s.startOn it c none

/-- Place a ready item (R286); in PULL nothing is pre-empted (R285). -/
def State.place (s : State) (it : Item) : State :=
  let v := s.affinityVat it
  let last := match s.flow? it.key.flow with
    | some (_, { lastCore := some c, .. }) => if c.vat = v && s.mayTake it c then some c else none
    | _ => none
  let here := match last with
    | some c => some c
    | none => s.takerIn it v
  match here with
  | some c => s.give it c
  | none =>
    let victim := if it.cls = 0 && !s.hb.pull && s.preemptRoom && !s.vatClosed v
      then (coresOf v).find? (fun c => (s.victimOf it c).isSome) else none
    match victim with
    | some c =>
      match s.victimOf it c with
      | some b => s.preempt it b c
      | none => s
    | none =>
      match (dieOrder v).findSome? (s.takerIn it) with
      | some c => s.give it c
      | none =>
        let s := s.setItem { it with phase := .queued }
        { s with hb := { s.hb with queued := s.hb.queued ++ [(v, it.key)] } }

end Sys2Proof.Machine
end

