-- ==== Sys2Proof/Machine/Descriptors.lean ====
section
/-! DEFINITION. Creation of descriptors through a creation port (R118 to R123). -/

namespace Sys2Proof.Machine

open Sys2Proof

/-! ### Creation ports (Table 5.4, R123) -/

/-- The window of physical core `core` of a Vat. -/
def portNum (vat : BitVec 6) (core : Nat) : Nat := 32 * vat.toNat + core

def State.port (s : State) (n : Nat) : PortWindow := Assoc.get PortWindow.reset s.ports n

def State.setPort (s : State) (n : Nat) (w : PortWindow) : State :=
  { s with ports := Assoc.set PortWindow.reset s.ports n w }

/-- The address lies in a read-write record of the job, whole. -/
def State.rwRecordHolds (s : State) (job : BitVec 64) (a n : Nat) : Bool :=
  s.hb.allocs.any (fun e => e.2.live && e.2.rw && e.2.job = job && e.2.base ≤ a && a + n ≤ e.2.base + e.2.extent)

/-- Serve a request of a window: firmware acts for the job that owns the named record (DEDUCED, log entry 16). DST is tested after
all of Table 5.3 (DESIGN CHOICE, log entry 161). The code goes to STAT; on 0x0000 the marked descriptor goes to DST through the Vat's caches. -/
def State.portCreate (s : State) (vat : BitVec 6) (n : Nat) : State :=
  let w := s.port n
  let job := (s.alloc (descOf w.draft).alloc).job
  let index := bytesToLine (s.seen vat (descOf w.draft).idxref 64)
  let dst := w.dst.toNat
  let code := match s.descCheck w.draft job index with
    | some c => c
    | none => if dst % 64 = 0 && s.rwRecordHolds job dst 64 then 0 else 0x0205
  let s := s.setPort n { w with stat := code.setWidth 32 }
  if code = 0 then s.store vat dst (lineToBytes (s.marked w.draft job)) else s

/-- Write the CTRL register of a window; values other than 1 are reserved and start nothing. -/
def State.portCtrl (s : State) (vat : BitVec 6) (n : Nat) (v : BitVec 32) : State :=
  if (s.port n).stat.getLsbD 31 then s
  else
    let s := s.setPort n { s.port n with ctrl := v }
    if v = 1 then s.portCreate vat n else s

/-- The bytes of a window as a load sees them; the rest of the window is reserved and reads zero (R4). -/
def PortWindow.bytes (w : PortWindow) : Bytes :=
  lineToBytes w.draft ++ leBytes 8 w.dst.toNat ++ leBytes 4 w.ctrl.toNat ++ leBytes 4 w.stat.toNat ++ zeros 176

/-- A firmware store of bytes into a window (R123), offset and byte of each: DRAFT and DST take them unless BUSY; one
that reaches CTRL writes it; STAT and reserved bytes ignore them. -/
def State.portStore (s : State) (vat : BitVec 6) (n : Nat) (cs : List (Nat × BitVec 8)) : State :=
  let w := s.port n
  if w.stat.getLsbD 31 then s
  else
    let img := cs.foldl (fun b x => putAt b x.1 [x.2]) w.bytes
    let s := s.setPort n { w with draft := bytesToLine (img.take 64), dst := BitVec.ofNat 64 (fieldAt img 0x40 8) }
    if cs.any (fun x => 0x48 ≤ x.1 && x.1 < 0x4C) then s.portCtrl vat n (BitVec.ofNat 32 (fieldAt img 0x48 4)) else s

/-- The lowest address of control space (Table 12.1). -/
def controlBase : Nat := 0xF00000000000

/-- Vat, window and offset of a byte of a creation port window: 64 ports of 0x2000 bytes, and nothing above them (DESIGN
CHOICE, log entry 162). -/
def portAt (a : Nat) : Option (BitVec 6 × Nat × Nat) :=
  if 0xF00000100000 ≤ a && a < 0xF00000180000 then
    let r := a - 0xF00000100000
    let off := r % 0x2000
    if off < 0x1100 then
      some (BitVec.ofNat 6 (r / 0x2000), portNum (BitVec.ofNat 6 (r / 0x2000)) (off / 0x100), off % 0x100)
    else none
  else none

end Sys2Proof.Machine
end

