-- ==== Sys2Proof/Machine/TopK.lean ====
section
/-! DEFINITION. Selection of the best entries (R92 to R104), shared by VTOPK, VMERGEK and the sort unit. -/

namespace Sys2Proof.Machine

open Sys2Proof

/-- A candidate: its key bits and its index. -/
structure Entry where
  key : Nat
  idx : Nat
deriving DecidableEq, Repr

def padIndex : Nat := 0xFFFFFFFF

/-- Key types: INT32 4, UINT32 5, FP32 0xC, INT64 6, UINT64 7, FP64 0xD. -/
def keyBytes (kt : Nat) : Nat := etypeBytes kt

/-- A floating-point key that is a NaN (R95). -/
def keyNan (kt key : Nat) : Bool := etypeIsFloat kt && ((fmtOf kt).decode key).isNan

/-- An integer in the order of R92: integers by value; floating-point keys by value with −0 equal to +0. -/
def keyOrd (kt key : Nat) : Int :=
  if etypeIsFloat kt then
    let sign := 2 ^ (8 * keyBytes kt - 1)
    if key < sign then key else -((key - sign : Nat) : Int)
  else intVal (etypeSigned kt) (keyBytes kt) key

/-- The empty key of padding (Table 4.1). -/
def emptyKey (kt : Nat) (smallest : Bool) : Nat :=
  if etypeIsFloat kt then (fmtOf kt).nan
  else wrapInt (keyBytes kt)
    (if smallest then intMax (etypeSigned kt) (keyBytes kt) else intMin (etypeSigned kt) (keyBytes kt))

/-- a ranks before b, or is equal to it, under R92. -/
def ranksBefore (kt : Nat) (smallest : Bool) (a b : Entry) : Bool :=
  let x := keyOrd kt a.key
  let y := keyOrd kt b.key
  if x == y then a.idx ≤ b.idx else if smallest then x < y else y < x

/-- Insert into a ranked list, after entries that rank no later. -/
def rankInsert (kt : Nat) (smallest : Bool) (a : Entry) : List Entry → List Entry
  | [] => [a]
  | b :: bs => if ranksBefore kt smallest b a then b :: rankInsert kt smallest a bs else a :: b :: bs

def rankSort (kt : Nat) (smallest : Bool) (xs : List Entry) : List Entry :=
  xs.foldl (fun acc a => rankInsert kt smallest a acc) []

/-- Keep the first entry of each index (sources stand in list-number order, R99, and within one list the lower position is kept,
DESIGN CHOICE, log entry 158); whether a removed one had other key bits. -/
def collapse (xs : List Entry) : List Entry × Bool :=
  xs.foldl (fun acc a =>
    match acc.1.find? (fun b => b.idx = a.idx) with
    | some b => (acc.1, acc.2 || b.key ≠ a.key)
    | none => (acc.1 ++ [a], acc.2)) ([], false)

/-- The outcome of a selection. -/
structure Selection where
  entries  : List Entry
  ties     : Nat
  nans     : Nat
  conflict : Bool
deriving DecidableEq, Repr

/-- Status of a selection (R104, Table 4.2). -/
def Selection.status (r : Selection) : BitVec 16 :=
  if r.conflict then 0x0701 else if r.nans ≠ 0 then 0x0702 else 0

/-- The entries that can be candidates, and how many NaN keys were dropped (R94, R95). -/
def admitted (kt : Nat) (xs : List Entry) : List Entry × Nat :=
  let real := xs.filter (fun a => a.idx ≠ padIndex)
  (real.filter (fun a => !keyNan kt a.key), (real.filter (fun a => keyNan kt a.key)).length)

/-- The best k of the candidates, given in list-number order (R96 to R103). -/
def select (kt k : Nat) (smallest : Bool) (xs : List Entry) : Selection :=
  let (cs, nans) := admitted kt xs
  let (ds, conflict) := collapse cs
  let ranked := rankSort kt smallest ds
  let out := ranked.take k
  let ties := if out.length < k then 0
    else match out.getLast? with
      | some e => ((ranked.drop k).filter (fun a => keyOrd kt a.key = keyOrd kt e.key)).length
      | none => 0
  { entries := out, ties := ties, nans := nans, conflict := conflict }

/-- n entries, the valid ones first and then padding (R93, R102). -/
def padded (kt n : Nat) (smallest : Bool) (es : List Entry) : List Entry :=
  es ++ List.replicate (n - es.length) { key := emptyKey kt smallest, idx := padIndex }

/-- A list of 64 pairs in a vector register: key in bits [31:0], index in [63:32] (R93). -/
def listOfVec (v : BitVec 4096) : List Entry :=
  (List.range 64).map (fun i => { key := lane 8 v i % 2 ^ 32, idx := lane 8 v i / 2 ^ 32 })

def vecOfList (es : List Entry) : BitVec 4096 := packLanes 8 (es.map (fun a => a.key + 2 ^ 32 * a.idx))

end Sys2Proof.Machine
end

