-- ==== Sys2Proof/Machine/Operands.lean ====
section
/-! DEFINITION. What a slot of a Tistra word may need and do: its legality and destinations (R35, R36, R422), the
reasons it stops the word, the checks on data addresses (Table 2.10), loads and stores of a core, and the effect it
asks for, which the word commits with those of its other slots (R34). -/

namespace Sys2Proof.Machine

open Sys2Proof

/-- A register a slot writes (R35). -/
inductive Dest where
  | x (r : BitVec 5)
  | w (r : BitVec 5)
  | p (r : BitVec 3)
  | e (r : BitVec 1)
deriving DecidableEq, Repr

/-- Why a slot does not complete: an exception (its code, trap code and faulting data address, where it has one), or a
wait for a ticket (R49). -/
inductive Stop where
  | exc (code : BitVec 16) (trap : Option (BitVec 10)) (faddr : Option (BitVec 64))
  | wait
deriving DecidableEq, Repr

/-- What a slot does beside registers. -/
inductive Act where
  /-- Lines read, which leave copies in the Vat's caches. -/
  | touch (lines : List Nat)
  /-- Bytes stored, in order. -/
  | cells (cs : List (Nat × BitVec 8))
  /-- Single bits stored: byte address, bit number, value (R132). -/
  | bits (bs : List (Nat × Nat × Bool))
  /-- An atomic at the memory side (R54): the new bytes at the address. -/
  | atomic (a : Nat) (b : Bytes)
  | flush (a n : Nat)
  | inval (a n : Nat)
  /-- Bytes stored into a creation port window: its number, its Vat, and offset and byte of each. -/
  | port (n : Nat) (vat : BitVec 6) (cs : List (Nat × BitVec 8))
  | submit (u : UnitCmd)
deriving DecidableEq, Repr

/-- The results of a slot, written when the word completes. -/
structure Effect where
  x      : Option (BitVec 5 × BitVec 64) := none
  w      : Option (BitVec 5 × BitVec 4096) := none
  p      : Option (BitVec 3 × BitVec 512) := none
  e      : Option (BitVec 1 × Vector (BitVec 576) 16) := none
  flags  : BitVec 5 := 0
  csr    : Option (BitVec 10 × BitVec 64) := none
  target : Option (BitVec 64) := none
  topkst : Option (BitVec 64) := none
  stream : Option (BitVec 4 × Stream) := none
  ticket : Option (BitVec 5 × Ticket) := none
  acts   : List Act := []
  /-- Line accesses of condition 5 of Table 12.5. -/
  lines  : Nat := 0
  /-- A unit command other than a Felt GATHER. -/
  other  : Bool := false
  done   : Option (BitVec 16) := none
  eret   : Bool := false
deriving DecidableEq, Repr

/-- What a slot reads: the state before the word (R34), its core, and the word's address. -/
structure Ctx where
  s : State
  c : CoreId
  k : Core

/-- The meaning of a slot. -/
structure Meaning where
  legal      : Core → Bool := fun _ => true
  dests      : List Dest := []
  privileged : Bool := false
  run        : Ctx → Except Stop Effect := fun _ => .ok {}

/-- An illegal encoding: it names no destination. -/
def Meaning.illegal : Meaning := { legal := fun _ => false }

/-- A no-operation slot; every bit below the opcode is reserved. -/
def Meaning.nop (bits : Nat) : Meaning := { legal := fun _ => bits = 0 }

/-- An exception of a data access at an address, and one without a data address. -/
def excAt (code : BitVec 16) (a : Nat) : Stop := .exc code none (some (BitVec.ofNat 64 a))
def excOf (code : BitVec 16) : Stop := .exc code none none

/-! ### Sign extension -/

def sext15 (v : BitVec 15) : BitVec 64 := v.signExtend 64

/-- base + off × unit modulo 2^64. -/
def offsetAddr (base : BitVec 64) (off : Int) (unit : Nat) : BitVec 64 := base + BitVec.ofInt 64 (off * unit)

/-! ### Data addresses (Table 2.10, Table 12.1) -/

/-- Control space that firmware may reach (Table 12.1): the registers, the windows of the creation ports, and in PULL
the direct windows. -/
def State.controlByte (s : State) (a : Nat) : Bool :=
  match s.region a with
  | .rootRegs => true
  | .ports => (portAt a).isSome
  | .l2Window => s.hb.pull
  | .l3Window => s.hb.pull
  | _ => false

/-- Why an access of n bytes at an address stops: ALIGN, then ACCESS_FAULT. No access is longer than the gaps of control
space, so its first and last byte decide. -/
def Ctx.access (t : Ctx) (store : Bool) (a n align : Nat) : Option Stop :=
  if a % align ≠ 0 then some (excAt 0x0105 a)
  else if t.s.plainRange a n then
    if store && !t.k.firmware && t.s.inItemStore a n then some (excAt 0x0106 a)
    else none
  else if t.k.firmware && t.s.controlByte a && t.s.controlByte (a + n - 1) then none
  else some (excAt 0x0106 a)

/-- A line of a range comes back uncorrectable to this core (R300, R304). -/
def Ctx.poisoned (t : Ctx) (a n : Nat) : Bool :=
  (List.range (lineSpan a n)).any (fun i => t.s.lineLost t.c.vat (a / 64 + i))

/-- A byte of control space as a load sees it: that of a creation port window, and a free value of a register or a
direct window, whose content the spec does not give (log entry 122). -/
def State.controlRead (s : State) (a : Nat) : BitVec 8 :=
  match portAt a with
  | some (_, w, off) => (s.port w).bytes[off]?.getD 0
  | none => Config.freeByte s.free a

/-- The bytes a checked access delivers: memory as the core sees it, or control space. -/
def Ctx.bytesAt (t : Ctx) (a n : Nat) : Bytes :=
  if a < controlBase then t.s.seen t.c.vat a n else (List.range n).map (fun i => t.s.controlRead (a + i))

/-- A load: checks, MEM_POISON after the attempts of R23, then the bytes. -/
def Ctx.load (t : Ctx) (a n align : Nat) : Except Stop Bytes :=
  match t.access false a n align with
  | some e => .error e
  | none => if t.poisoned a n then .error (excAt 0x0107 a) else .ok (t.bytesAt a n)

/-- The lines of a range. -/
def linesOf (a n : Nat) : List Nat := (List.range (lineSpan a n)).map (a / 64 + ·)

/-- The action of a load on the caches; control space is not cached. -/
def Ctx.loadAct (t : Ctx) (a n : Nat) : List Act := if t.s.plainRange a n then [.touch (linesOf a n)] else []

/-- Consecutive addresses for bytes. -/
def cellsAt (a : Nat) : Bytes → List (Nat × BitVec 8)
  | [] => []
  | b :: bs => (a, b) :: cellsAt (a + 1) bs

/-- The windows of the creation ports that checked cells of control space reach, in order. -/
def windowsOf (cs : List (Nat × BitVec 8)) : List (BitVec 6 × Nat) :=
  (cs.filterMap (fun x => (portAt x.1).map (fun p => (p.1, p.2.1)))).eraseDups

/-- The actions of a checked store of bytes: memory takes them, a creation port window takes those that lie in it, and
the registers and direct windows hold nothing the spec gives (log entry 122). -/
def storeActs (cs : List (Nat × BitVec 8)) : List Act :=
  if (cs.head?.map (·.1)).getD 0 < controlBase then [.cells cs]
  else (windowsOf cs).map (fun w => .port w.2 w.1 (cs.filterMap (fun x => match portAt x.1 with
    | some (_, n, off) => if n = w.2 then some (off, x.2) else none
    | none => none)))

/-! ### Carrying out actions -/

def State.setBit (s : State) (vat : BitVec 6) (a i : Nat) (v : Bool) : State :=
  let old := s.seenByte vat a
  s.storeByte vat a (if v then old ||| (1#8 <<< i) else old &&& ~~~(1#8 <<< i))

/-- Lines that a list of written bits fills whole. -/
def bitLines (bs : List (Nat × Nat × Bool)) : List Nat :=
  ((bs.map (fun b => b.1 / 64)).eraseDups).filter (fun n =>
    (List.range 512).all (fun i => bs.any (fun b => b.1 = 64 * n + i / 8 && b.2.1 = i % 8)))

def State.act (s : State) (c : CoreId) : Act → State
  | .touch ls => ls.foldl (fun s l => s.touchLine c.vat l) s
  | .cells cs => (s.storeCells c.vat cs).heal c.vat (wholeLines cs)
  | .bits bs => (bs.foldl (fun s b => s.setBit c.vat b.1 b.2.1 b.2.2) s).heal c.vat (bitLines bs)
  | .atomic a b => (s.invalLine c.vat (a / 64)).memWrite a b
  | .flush a n => s.flushRange c.vat a n
  | .inval a n => s.invalRange c.vat a n
  | .port n v cs => s.portStore v n cs
  | .submit u => { s with units := s.units ++ [u] }

/-! ### What a bound stream may still see (R124) -/

/-- The addresses an action stores to. -/
def Act.stored : Act → List Nat
  | .cells cs => cs.map (·.1)
  | .bits bs => bs.map (·.1)
  | .atomic a b => (List.range b.length).map (a + ·)
  | _ => []

/-- The Vats in which a stream is bound. -/
def State.boundVats (s : State) : List (BitVec 6) :=
  ((s.cores.filter (fun e => e.2.st.any (·.bound))).map (fun e => (coreOf e.1).vat)).eraseDups

/-- Note what the stores of a word replace, as each Vat with a bound stream sees it; with no stream bound nothing need be
kept. -/
def State.noteStores (s : State) (c : CoreId) (acts : List Act) : State :=
  let at' := acts.flatMap Act.stored
  if at' = [] then s
  else
    { s with mem := { s.mem with stores :=
        if s.boundVats = [] then []
        else s.mem.stores ++ at'.flatMap (fun a => s.boundVats.map (fun v =>
          { core := c, vat := v, draw := s.free, addr := a, old := s.seenByte v a })) } }

/-- The byte a stream reads (R124): as its core sees it, or as it was before stores that other cores have made since the
stream was bound and since its own core last stored there; how far back is chosen for each line. -/
def Ctx.streamByte (t : Ctx) (st : Stream) (a : Nat) : BitVec 8 :=
  let from_ := st.since + (Config.freeWord t.s.free (a / 64)).toNat % (t.s.free - st.since + 1)
  let mine := t.s.mem.stores.filter (fun x => x.vat = t.c.vat && x.addr = a)
  let old : Option (BitVec 8) := mine.foldl (fun o x =>
    if x.core = t.c then none else if o.isSome || x.draw < from_ then o else some x.old) none
  old.getD (t.s.seenByte t.c.vat a)

def Ctx.streamBytes (t : Ctx) (st : Stream) (a n : Nat) : Bytes := (List.range n).map (fun i => t.streamByte st (a + i))

/-! ### Writing registers when the word completes (R34) -/

def Core.writeX (k : Core) : Option (BitVec 5 × BitVec 64) → Core
  | none => k
  | some (r, v) => k.setX r v

def Core.writeW (k : Core) : Option (BitVec 5 × BitVec 4096) → Core
  | none => k
  | some (r, v) => k.setW r v

def Core.writeP (k : Core) : Option (BitVec 3 × BitVec 512) → Core
  | none => k
  | some (r, v) => k.setP r v

def Core.writeE (k : Core) : Option (BitVec 1 × Vector (BitVec 576) 16) → Core
  | none => k
  | some (r, v) => k.setE r v

/-- CSRW: the writable bits of Table 2.9. -/
def Core.writeCsr (k : Core) : Option (BitVec 10 × BitVec 64) → Core
  | none => k
  | some (i, v) =>
    if i = 0x008 then { k with fpctl := v.setWidth 2 }
    else if i = 0x009 then { k with fpflags := v.setWidth 5 }
    else if i = 0x00A then { k with topkK := v.setWidth 7 }
    else if i = 0x010 then { k with epc := v }
    else if i = 0x013 then { k with evec := v &&& ~~~15#64 }
    else k

def Core.writeStream (k : Core) : Option (BitVec 4 × Stream) → Core
  | none => k
  | some (r, v) => k.setS r v

def Core.writeTicket (k : Core) : Option (BitVec 5 × Ticket) → Core
  | none => k
  | some (r, v) => k.setT r v

/-- The registers a slot's effect writes; flags are OR-ed after any write of FPFLAGS (R34). -/
def Core.write (k : Core) (e : Effect) : Core :=
  let k := ((((k.writeX e.x).writeW e.w).writeP e.p).writeE e.e).writeCsr e.csr
  let k := (k.writeStream e.stream).writeTicket e.ticket
  { k with topkst := e.topkst.getD k.topkst, lineUses := k.lineUses + e.lines, otherUnit := k.otherUnit || e.other,
           handler := k.handler && !e.eret }

end Sys2Proof.Machine
end

