-- ==== Sys2Proof/Machine/Slot0.lean ====
section
/-! DEFINITION. Slot 0 of a Tistra word (Table 2.5): scalar arithmetic, branches and control. -/

namespace Sys2Proof.Machine

open Sys2Proof

/-- An SR instruction that computes xd from xs1 and xs2. -/
def scalar2 (f : SR) (g : BitVec 64 → BitVec 64 → BitVec 64) : Meaning :=
  { legal := fun _ => f.imm10 = 0, dests := [.x f.xd],
    run := fun t => .ok { x := some (f.xd, g (t.k.getX f.xs1) (t.k.getX f.xs2)) } }

/-- An SR instruction that computes xd from xs1 alone; xs2 must be zero (R422). -/
def scalar1 (f : SR) (g : BitVec 64 → BitVec 64) : Meaning :=
  { legal := fun _ => f.imm10 = 0 && f.xs2 = 0, dests := [.x f.xd],
    run := fun t => .ok { x := some (f.xd, g (t.k.getX f.xs1)) } }

/-- An SI instruction. -/
def scalarI (f : SI) (g : BitVec 64 → BitVec 64) : Meaning :=
  { dests := [.x f.xd], run := fun t => .ok { x := some (f.xd, g (t.k.getX f.xs1)) } }

/-- An SI shift: imm15[14:6] reserved. -/
def shiftI (f : SI) (g : BitVec 64 → Nat → BitVec 64) : Meaning :=
  { scalarI f (fun a => g a (f.imm15.toNat % 64)) with legal := fun _ => f.imm15.toNat < 64 }

def all64 : BitVec 64 := 0xFFFFFFFFFFFFFFFF

def bit64 (b : Bool) : BitVec 64 := if b then 1 else 0

def leadingZeros (v : BitVec 64) : Nat := if v = 0 then 64 else 63 - Nat.log2 v.toNat

def onesIn (v : BitVec 64) : Nat := ((List.range 64).filter (fun i => v.getLsbD i)).length

def slotNop0 (bits : BitVec 25) : Meaning := Meaning.nop bits.toNat
def slotAdd (f : SR) : Meaning := scalar2 f (· + ·)
def slotSub (f : SR) : Meaning := scalar2 f (· - ·)
def slotMul (f : SR) : Meaning := scalar2 f (· * ·)
def slotMulh (f : SR) : Meaning :=
  scalar2 f (fun a b => (BitVec.ofInt 128 (a.toInt * b.toInt)).extractLsb' 64 64)
def slotMulhu (f : SR) : Meaning :=
  scalar2 f (fun a b => BitVec.ofNat 64 (a.toNat * b.toNat / 2 ^ 64))
def slotDiv (f : SR) : Meaning := scalar2 f (fun a b => if b = 0 then all64 else a.sdiv b)
def slotDivu (f : SR) : Meaning := scalar2 f (fun a b => if b = 0 then all64 else a / b)
def slotRem (f : SR) : Meaning := scalar2 f (fun a b => if b = 0 then a else a.srem b)
def slotAnd (f : SR) : Meaning := scalar2 f (· &&& ·)
def slotOr (f : SR) : Meaning := scalar2 f (· ||| ·)
def slotXor (f : SR) : Meaning := scalar2 f (· ^^^ ·)
def slotShl (f : SR) : Meaning := scalar2 f (fun a b => a <<< (b.toNat % 64))
def slotShr (f : SR) : Meaning := scalar2 f (fun a b => a >>> (b.toNat % 64))
def slotSra (f : SR) : Meaning := scalar2 f (fun a b => a.sshiftRight (b.toNat % 64))
def slotSlt (f : SR) : Meaning := scalar2 f (fun a b => bit64 (a.slt b))
def slotSltu (f : SR) : Meaning := scalar2 f (fun a b => bit64 (a.ult b))
def slotClz (f : SR) : Meaning := scalar1 f (fun a => BitVec.ofNat 64 (leadingZeros a))
def slotPopc (f : SR) : Meaning := scalar1 f (fun a => BitVec.ofNat 64 (onesIn a))

def slotAddi (f : SI) : Meaning := scalarI f (fun a => a + sext15 f.imm15)
def slotAndi (f : SI) : Meaning := scalarI f (fun a => a &&& f.imm15.setWidth 64)
def slotOri (f : SI) : Meaning := scalarI f (fun a => a ||| f.imm15.setWidth 64)
def slotXori (f : SI) : Meaning := scalarI f (fun a => a ^^^ f.imm15.setWidth 64)
def slotShli (f : SI) : Meaning := shiftI f (fun a n => a <<< n)
def slotShri (f : SI) : Meaning := shiftI f (fun a n => a >>> n)
def slotSrai (f : SI) : Meaning := shiftI f (fun a n => a.sshiftRight n)
def slotLsi (f : SI) : Meaning := scalarI f (fun a => (a <<< 15) ||| f.imm15.setWidth 64)
def slotSlti (f : SI) : Meaning := scalarI f (fun a => bit64 (a.slt (sext15 f.imm15)))

/-- The target of a branch or jump: PC + offset × 16. -/
def Ctx.target (t : Ctx) (off : Int) : BitVec 64 := t.k.pc + BitVec.ofInt 64 (off * 16)

/-- A conditional branch on two scalars. -/
def branch2 (f : SB) (g : BitVec 64 → BitVec 64 → Bool) : Meaning :=
  { run := fun t =>
      let taken := g (t.k.getX f.xs1) (t.k.getX f.xs2)
      .ok { target := if taken then some (t.target f.off15.toInt) else none } }

/-- A conditional branch on a predicate: xs1[4:3] and xs2 reserved, Pn in xs1[2:0]. -/
def branchP (f : SB) (g : BitVec 512 → Bool) : Meaning :=
  { legal := fun _ => f.xs1.toNat < 8 && f.xs2 = 0,
    run := fun t =>
      let taken := g (t.k.getP (f.xs1.setWidth 3))
      .ok { target := if taken then some (t.target f.off15.toInt) else none } }

def slotBeq (f : SB) : Meaning := branch2 f (fun a b => a = b)
def slotBne (f : SB) : Meaning := branch2 f (fun a b => a ≠ b)
def slotBlt (f : SB) : Meaning := branch2 f (fun a b => a.slt b)
def slotBge (f : SB) : Meaning := branch2 f (fun a b => !a.slt b)
def slotBltu (f : SB) : Meaning := branch2 f (fun a b => a.ult b)
def slotBgeu (f : SB) : Meaning := branch2 f (fun a b => !a.ult b)
def slotBany (f : SB) : Meaning := branchP f (fun p => p ≠ 0)
def slotBnone (f : SB) : Meaning := branchP f (fun p => p = 0)

def slotJmp (f : SJ) : Meaning := { run := fun t => .ok { target := some (t.target f.off25.toInt) } }

/-- CALL names X31 as its destination (R35). -/
def slotCall (f : SJ) : Meaning :=
  { dests := [.x 31],
    run := fun t => .ok { x := some (31, t.k.pc + 16), target := some (t.target f.off25.toInt) } }

def slotJr (f : SR) : Meaning :=
  { legal := fun _ => f.imm10 = 0 && f.xd = 0 && f.xs2 = 0,
    run := fun t =>
      let a := t.k.getX f.xs1
      if a.toNat % 16 ≠ 0 then .error (excOf 0x0105) else .ok { target := some a } }

def slotCallr (f : SR) : Meaning :=
  { legal := fun _ => f.imm10 = 0 && f.xs2 = 0, dests := [.x f.xd],
    run := fun t =>
      let a := t.k.getX f.xs1
      if a.toNat % 16 ≠ 0 then .error (excOf 0x0105)
      else .ok { x := some (f.xd, t.k.pc + 16), target := some a } }

/-! ### Control registers (R42, Table 2.9) -/

/-- The indices of Table 2.9. -/
def csrListed (i : BitVec 10) : Bool :=
  [0x000, 0x001, 0x002, 0x003, 0x008, 0x009, 0x00A, 0x00B, 0x010, 0x011, 0x012, 0x013, 0x020, 0x021, 0x022, 0x023,
   0x030].contains i

def csrFirmware (i : BitVec 10) : Bool := [0x010, 0x011, 0x012, 0x013].contains i

def csrWritable (i : BitVec 10) : Bool := [0x008, 0x009, 0x00A, 0x010, 0x013].contains i

/-- The content of a control register. -/
def Ctx.csr (t : Ctx) (i : BitVec 10) : BitVec 64 :=
  let k := t.k
  if i = 0x000 then BitVec.ofNat 64 (coreNum t.c)
  else if i = 0x001 then k.itemPtr
  else if i = 0x002 then k.itemClass.setWidth 64
  else if i = 0x003 then bit64 k.firmware
  else if i = 0x008 then k.fpctl.setWidth 64
  else if i = 0x009 then k.fpflags.setWidth 64
  else if i = 0x00A then k.topkK.setWidth 64
  else if i = 0x00B then k.topkst
  else if i = 0x010 then k.epc
  else if i = 0x011 then k.cause.setWidth 64
  else if i = 0x012 then k.faddr
  else if i = 0x013 then k.evec
  else if i = 0x020 then k.cycle
  else if i = 0x021 then k.retired
  else if i = 0x022 then t.s.tick
  else if i = 0x023 then t.s.hb.reel.setWidth 64
  else k.ticketMap

def slotCsrr (f : SR) : Meaning :=
  { legal := fun _ => f.xs1 = 0 && f.xs2 = 0 && csrListed f.imm10, dests := [.x f.xd],
    privileged := csrFirmware f.imm10,
    run := fun t => .ok { x := some (f.xd, t.csr f.imm10) } }

def slotCsrw (f : SR) : Meaning :=
  { legal := fun _ => f.xd = 0 && f.xs2 = 0 && csrListed f.imm10,
    privileged := csrFirmware f.imm10,
    run := fun t =>
      if csrWritable f.imm10 then .ok { csr := some (f.imm10, t.k.getX f.xs1) } else .error (excOf 0x0106) }

def slotTrap (f : SR) : Meaning :=
  { legal := fun _ => f.xd = 0 && f.xs1 = 0 && f.xs2 = 0,
    run := fun _ => .error (.exc 0x010F (some f.imm10) none) }

/-- DONE (R49, R50): it waits while a ticket of the item is pending; a ticket whose unit read failed and that no
TWAIT or TPOLL has reported raises MEM_POISON (R424). -/
def slotDone (f : SR) : Meaning :=
  { legal := fun _ => f.imm10 = 0 && f.xd = 0 && f.xs2 = 0,
    run := fun t =>
      let k := t.k
      if k.anyPending (ticketLo k.cls) (ticketHi k.cls) then .error .wait
      else if k.unitFailed then .error (excOf poisonStatus)
      else .ok { done := some ((k.getX f.xs1).setWidth 16) } }

/-- ERET: the pc takes EPC as it stands (log entry 140). -/
def slotEret (f : SR) : Meaning :=
  { legal := fun _ => f.imm10 = 0 && f.xd = 0 && f.xs1 = 0 && f.xs2 = 0, privileged := true,
    run := fun t => .ok { target := some t.k.epc, eret := true } }

end Sys2Proof.Machine
end

