-- ==== Sys2Proof/Machine/Slot1.lean ====
section
/-! DEFINITION. Slot 1 of a Tistra word (Table 2.6): floating-point multiply-add, integer multiply, dot products and
the exact accumulators. -/

namespace Sys2Proof.Machine

open Sys2Proof

/-- Rounding mode of FPCTL (R74). -/
def Ctx.mode (t : Ctx) : Nat := t.k.fpctl.toNat

def etypeFloat (e : BitVec 4) : Bool := etypeIsFloat e.toNat
def etypeInt (e : BitVec 4) : Bool := etypeIsInt e.toNat
def etypeAny (e : BitVec 4) : Bool := e.toNat ≤ 0xD

end Sys2Proof.Machine

namespace Sys2Proof

/-- Bytes of the element type of a VR instruction. -/
def VR.width (f : VR) : Nat := Machine.etypeBytes f.etype.toNat

end Sys2Proof

namespace Sys2Proof.Machine

/-- Elements of the sources and the destination. -/
def Ctx.a (t : Ctx) (f : VR) (i : Nat) : Nat := lane f.width (t.k.getW f.wa) i
def Ctx.b (t : Ctx) (f : VR) (i : Nat) : Nat := lane f.width (t.k.getW f.wb) i
def Ctx.d (t : Ctx) (f : VR) (i : Nat) : Nat := lane f.width (t.k.getW f.wd) i

/-- A governed vector result without flags (R30, R31), and the result of a rounded operation with its flags. -/
def Ctx.vecOut (t : Ctx) (f : VR) (w : Nat) (g : Nat → Nat) : Effect :=
  { w := some (f.wd, governed w (t.k.getP f.pg) (f.zm = 1) (t.k.getW f.wd) g) }

def Ctx.vecOutR (t : Ctx) (f : VR) (w : Nat) (g : Nat → Rounded) : Effect :=
  let r := governedR w (t.k.getP f.pg) (f.zm = 1) (t.k.getW f.wd) g
  { w := some (f.wd, r.1), flags := r.2 }

/-- A floating-point instruction of slot 1, element by element. -/
def floatOp (f : VR) (g : FpFmt → Nat → FVal → FVal → FVal → Rounded) : Meaning :=
  { legal := fun _ => etypeFloat f.etype && f.mod = 0, dests := [.w f.wd],
    run := fun t =>
      let m := fmtOf f.etype.toNat
      .ok (t.vecOutR f f.width (fun i => g m t.mode (m.decode (t.d f i)) (m.decode (t.a f i)) (m.decode (t.b f i)))) }

/-- maximumNumber and minimumNumber, which deliver the chosen operand's bits. -/
def extremumOp (f : VR) (big : Bool) : Meaning :=
  { legal := fun _ => etypeFloat f.etype && f.mod = 0, dests := [.w f.wd],
    run := fun t => .ok (t.vecOutR f f.width (fun i => (fmtOf f.etype.toNat).extremum big (t.a f i) (t.b f i))) }

/-- An integer instruction, element by element on destination, wa and wb values; low bits are kept. -/
def intOp (f : VR) (g : Int → Int → Int → Int) : Meaning :=
  { legal := fun _ => etypeInt f.etype && f.mod = 0, dests := [.w f.wd],
    run := fun t =>
      let v := fun n => intVal (etypeSigned f.etype.toNat) f.width n
      .ok (t.vecOut f f.width (fun i => wrapInt f.width (g (v (t.d f i)) (v (t.a f i)) (v (t.b f i))))) }

/-- VNOP: every bit below the opcode is zero. -/
def slotVnop (bits : BitVec 26) : Meaning := Meaning.nop bits.toNat

def slotVfma (f : VR) : Meaning := floatOp f (fun m r d a b => m.fma r d a b)
def slotVfms (f : VR) : Meaning := floatOp f (fun m r d a b => m.fma r d a.neg b)
def slotVfmul (f : VR) : Meaning := floatOp f (fun m r _ a b => m.mulVal r a b)
def slotVfadd (f : VR) : Meaning := floatOp f (fun m r _ a b => m.addVal r a b)
def slotVfsub (f : VR) : Meaning := floatOp f (fun m r _ a b => m.addVal r a b.neg)
def slotVfmax (f : VR) : Meaning := extremumOp f true
def slotVfmin (f : VR) : Meaning := extremumOp f false
def slotVimul (f : VR) : Meaning := intOp f (fun _ a b => a * b)
def slotVimac (f : VR) : Meaning := intOp f (fun d a b => d + a * b)

/-! ### VDOT4 -/

/-- The exact product of two values, and whether it is infinity times zero. -/
def productVal (a b : FVal) : FVal × Bool :=
  match a, b with
  | .nan _, _ => (.nan false, false)
  | _, .nan _ => (.nan false, false)
  | .inf x, .inf y => (.inf (x != y), false)
  | .inf x, .fin y m _ => if m = 0 then (.nan false, true) else (.inf (x != y), false)
  | .fin x m _, .inf y => if m = 0 then (.nan false, true) else (.inf (x != y), false)
  | .fin n1 m1 e1, .fin n2 m2 e2 => (.fin (n1 != n2) (m1 * m2) (e1 + e2), false)

/-- The least exponent of the finite values of a list, at most 0. -/
def leastExp (vs : List FVal) : Int :=
  vs.foldl (fun a v => match v with | .fin _ _ e => if e < a then e else a | _ => a) 0

/-- The exact sum of values rounded once to nearest-even; a NaN or infinities of both signs give the canonical NaN. The sign of a zero
sum, and invalid beside a NaN, are the model's (log entry 148). -/
def FpFmt.sumVals (f : FpFmt) (vs : List FVal) (invalid : Bool) : Rounded :=
  if vs.any (·.isNan) then f.quietNan invalid
  else
    let pos := vs.any (fun v => v = .inf false)
    let neg := vs.any (fun v => v = .inf true)
    if pos && neg then f.quietNan true
    else if pos then f.infinity false
    else if neg then f.infinity true
    else
      let e0 := leastExp vs
      let s := vs.foldl (fun a v => match v with | .fin n m e => a + finAt n m e e0 | _ => a) (0 : Int)
      if s = 0 then { bits := if vs.all (fun v => v.isZero && v.isNeg) then f.signBit else 0, flags := 0 }
      else f.roundDyadic 0 (s < 0) s.natAbs e0

/-- Lane j of VDOT4: for FP8 the prior FP32 value and four exact products, summed exactly and rounded once; for
integers wrapping at 32 bits. -/
def dotLane (t : Nat) (prior : Nat) (a b : List Nat) : Rounded :=
  if etypeIsFloat t then
    let m := fmtOf t
    let vs := (a.zip b).map (fun x => (m.decode x.1, m.decode x.2))
    let c := (fmtOf 0xC).decode prior
    let ps := vs.map (fun v => productVal v.1 v.2)
    (fmtOf 0xC).sumVals (c :: ps.map (·.1))
      (c.isSnan || vs.any (fun v => v.1.isSnan || v.2.isSnan) || ps.any (·.2))
  else
    let v := fun n => intVal (etypeSigned t) 1 n
    { bits := wrapInt 4 (intVal true 4 prior + (a.zip b).foldl (fun s x => s + v x.1 * v x.2) 0), flags := 0 }

def slotVdot4 (f : VR) : Meaning :=
  { legal := fun _ => [0x0, 0x1, 0x8, 0x9].contains f.etype && f.mod = 0, dests := [.w f.wd],
    run := fun t =>
      let four := fun (r : BitVec 5) (j : Nat) => (List.range 4).map (fun i => lane 1 (t.k.getW r) (4 * j + i))
      .ok (t.vecOutR f 4 (fun j => dotLane f.etype.toNat (lane 4 (t.k.getW f.wd) j) (four f.wa j) (four f.wb j))) }

/-! ### Exact accumulators (R76 to R79) -/

/-- A 5-bit field that names an accumulator: bits [4:1] are reserved. -/
def accField (r : BitVec 5) : Bool := r.toNat < 2
def accOf (r : BitVec 5) : BitVec 1 := r.setWidth 1

/-- VEACC and VESQ: active elements, or their squares, gained by lane i mod 16. zm is ignored (log entry 142). -/
def exactOp (f : VR) (g : Nat → Nat → Option Int) : Meaning :=
  { legal := fun _ => (etypeInt f.etype || f.etype = 0xA || f.etype = 0xC) && f.mod = 0 && f.wb = 0 && accField f.wd,
    dests := [.e (accOf f.wd)],
    run := fun t =>
      let xs := (activeLanes f.width (t.k.getP f.pg)).map (fun i =>
        (g f.etype.toNat (t.a f i)).map (fun v => (i % 16, v)))
      if xs.any (·.isNone) then .error (excOf 0x010E)
      else match addLanes (t.k.getE (accOf f.wd)) (xs.filterMap id) with
        | none => .error (excOf 0x010E)
        | some e => .ok { e := some (accOf f.wd, e) } }

def slotVeacc (f : VR) : Meaning := exactOp f exactInput
def slotVesq (f : VR) : Meaning := exactOp f exactSquare

def slotVerd (f : VR) : Meaning :=
  { legal := fun _ => (f.etype = 0xC || f.etype = 0xD) && f.mod = 0 && f.wb = 0 && accField f.wa, dests := [.w f.wd],
    run := fun t =>
      let e := t.k.getE (accOf f.wa)
      .ok (t.vecOutR f f.width (fun i =>
        if i < 16 then roundLane (fmtOf f.etype.toNat) (laneInt (e[i]?.getD 0)) else { bits := 0, flags := 0 })) }

def slotVeclr (f : VR) : Meaning :=
  { legal := fun _ => f.etype = 0 && f.mod = 0 && f.wa = 0 && f.wb = 0 && f.pg = 0 && accField f.wd,
    dests := [.e (accOf f.wd)],
    run := fun _ => .ok { e := some (accOf f.wd, Vector.replicate 16 0) } }

def slotVeadd (f : VR) : Meaning :=
  { legal := fun _ => f.etype = 0 && f.mod = 0 && f.wb = 0 && f.pg = 0 && accField f.wd && accField f.wa,
    dests := [.e (accOf f.wd)],
    run := fun t =>
      let src := t.k.getE (accOf f.wa)
      match addLanes (t.k.getE (accOf f.wd)) ((List.range 16).map (fun j => (j, laneInt (src[j]?.getD 0)))) with
      | none => .error (excOf 0x010E)
      | some e => .ok { e := some (accOf f.wd, e) } }

end Sys2Proof.Machine
end

