-- ==== Sys2Proof/Machine/Slot2.lean ====
section
/-! DEFINITION. Slot 2 of a Tistra word (Table 2.7): vector integer and logic, compare, permute, convert, top-k, hash
and predicates. -/

namespace Sys2Proof.Machine

open Sys2Proof

/-- A bit operation on elements of any type. -/
def bitOp (f : VR) (g : Nat → Nat → Nat) : Meaning :=
  { legal := fun _ => etypeAny f.etype && f.mod = 0, dests := [.w f.wd],
    run := fun t => .ok (t.vecOut f f.width (fun i => g (t.a f i) (t.b f i))) }

/-- A shift of integer elements, by the wb element modulo the element's bits. -/
def shiftOp (f : VR) (g : Nat → Nat → Nat) : Meaning :=
  { legal := fun _ => etypeInt f.etype && f.mod = 0, dests := [.w f.wd],
    run := fun t => .ok (t.vecOut f f.width (fun i => g (t.a f i) (t.b f i % (8 * f.width)))) }

/-- Arithmetic right shift of an integer element. -/
def sraInt (signed : Bool) (w a n : Nat) : Nat := wrapInt w (intVal signed w a / ((2 ^ n : Nat) : Int))

def satOp (f : VR) (g : Int → Int → Int) : Meaning :=
  intOp f (fun _ a b => clampInt (etypeSigned f.etype.toNat) f.width (g a b))

def slotVadd (f : VR) : Meaning := intOp f (fun _ a b => a + b)
def slotVsub (f : VR) : Meaning := intOp f (fun _ a b => a - b)
def slotVadds (f : VR) : Meaning := satOp f (· + ·)
def slotVsubs (f : VR) : Meaning := satOp f (· - ·)
def slotVand (f : VR) : Meaning := bitOp f (fun a b => a &&& b)
def slotVor (f : VR) : Meaning := bitOp f (fun a b => a ||| b)
def slotVxor (f : VR) : Meaning := bitOp f (fun a b => a ^^^ b)
def slotVshl (f : VR) : Meaning := shiftOp f (fun a n => a * 2 ^ n)
def slotVshr (f : VR) : Meaning := shiftOp f (fun a n => a / 2 ^ n)
def slotVsra (f : VR) : Meaning := shiftOp f (fun a n => sraInt (etypeSigned f.etype.toNat) f.width a n)
def slotVmin (f : VR) : Meaning := intOp f (fun _ a b => if a ≤ b then a else b)
def slotVmax (f : VR) : Meaning := intOp f (fun _ a b => if a ≤ b then b else a)

/-! ### Compare and select -/

/-- A 5-bit field that names a predicate: bits [4:3] are reserved. -/
def predField (r : BitVec 5) : Bool := r.toNat < 8
def predReg (r : BitVec 5) : BitVec 3 := r.setWidth 3

/-- The outcome of a comparison condition on an order; 6 (unordered) is false of ordered operands. -/
def condHolds (mod : Nat) (o : Ordering) : Bool :=
  match mod with
  | 0 => o == .eq
  | 1 => o != .eq
  | 2 => o == .lt
  | 3 => o != .gt
  | 4 => o == .gt
  | 5 => o != .lt
  | _ => false

/-- One element of VCMP: the condition and the flags (with a NaN, NE and unordered hold and nothing else does). -/
def compareElem (t mod a b : Nat) : Bool × BitVec 5 :=
  if etypeIsFloat t then
    let x := (fmtOf t).decode a
    let y := (fmtOf t).decode b
    if x.isNan || y.isNan then
      (mod = 1 || mod = 6, if x.isSnan || y.isSnan || (2 ≤ mod && mod ≤ 5) then flagInvalid else 0)
    else (condHolds mod (x.cmp y), 0)
  else
    let w := etypeBytes t
    (condHolds mod (compare (intVal (etypeSigned t) w a) (intVal (etypeSigned t) w b)), 0)

/-- A governed predicate result (R30, R31): inactive elements are cleared with zm, else unchanged. -/
def governedP (w : Nat) (pg : BitVec 512) (zm : Bool) (old : BitVec 512) (g : Nat → Bool) : BitVec 512 :=
  predOf w (fun i => laneOn w pg i && g i) ||| (if zm then 0 else old &&& ~~~(predOf w (laneOn w pg)))

def slotVcmp (f : VR) : Meaning :=
  { legal := fun _ => etypeAny f.etype && f.mod ≠ 7 && predField f.wd, dests := [.p (predReg f.wd)],
    run := fun t =>
      let pg := t.k.getP f.pg
      let g := fun i => compareElem f.etype.toNat f.mod.toNat (t.a f i) (t.b f i)
      .ok { p := some (predReg f.wd, governedP f.width pg (f.zm = 1) (t.k.getP (predReg f.wd)) (fun i => (g i).1)),
            flags := (activeLanes f.width pg).foldl (fun a i => a ||| (g i).2) 0 } }

def slotVsel (f : VR) : Meaning :=
  { legal := fun _ => etypeAny f.etype && f.mod = 0 && f.zm = 0, dests := [.w f.wd],
    run := fun t =>
      let pg := t.k.getP f.pg
      .ok { w := some (f.wd, packLanes f.width ((List.range (laneCount f.width)).map (fun i =>
        if laneOn f.width pg i then t.a f i else t.b f i))) } }

/-! ### Conversion (R40) -/

def slotVcvt (f : VR) : Meaning :=
  let dst := f.wb.toNat % 16
  let ws := f.width
  let wt := etypeBytes dst
  let wide := ws < wt
  { legal := fun _ => etypeAny f.etype && f.wb.toNat < 16 && dst ≤ 0xD &&
      f.mod.toNat < (if wide then wt / ws else 5),
    dests := [.w f.wd],
    run := fun t =>
      let base := if wide then f.mod.toNat * laneCount wt else 0
      let mode := if wide || f.mod = 0 then t.mode else f.mod.toNat - 1
      .ok (t.vecOutR f wt (fun i =>
        if !wide && laneCount ws ≤ i then { bits := 0, flags := 0 }
        else convert f.etype.toNat dst mode (lane ws (t.k.getW f.wa) (base + i)))) }

/-! ### Permutes and moves -/

def slotVperm (f : VR) : Meaning :=
  { legal := fun _ => etypeAny f.etype && f.mod = 0, dests := [.w f.wd],
    run := fun t => .ok (t.vecOut f f.width (fun i => t.a f (t.b f i % laneCount f.width))) }

def slotVbcast (f : VR) : Meaning :=
  { legal := fun _ => etypeAny f.etype && f.mod = 0 && f.wb = 0, dests := [.w f.wd],
    run := fun t => .ok (t.vecOut f f.width (fun _ => (t.k.getX f.wa).toNat)) }

def slotVmovx (f : VR) : Meaning :=
  { legal := fun _ => etypeAny f.etype && f.mod = 0 && f.pg = 0 && f.zm = 0, dests := [.x f.wd],
    run := fun t =>
      let v := t.a f ((t.k.getX f.wb).toNat % laneCount f.width)
      .ok { x := some (f.wd, BitVec.ofInt 64 (intVal (etypeSigned f.etype.toNat) f.width v)) } }

def slotVmovi (f : VI) : Meaning :=
  { legal := fun _ => etypeInt f.etype && f.wa = 0, dests := [.w f.wd],
    run := fun t =>
      let w := etypeBytes f.etype.toNat
      .ok { w := some (f.wd, governed w (t.k.getP f.pg) (f.zm = 1) (t.k.getW f.wd) (fun _ => wrapInt w f.imm8.toInt)) } }

def slotVcompress (f : VR) : Meaning :=
  { legal := fun _ => etypeAny f.etype && f.mod = 0 && f.wb = 0 && f.zm = 0, dests := [.w f.wd],
    run := fun t =>
      .ok { w := some (f.wd, packLanes f.width ((activeLanes f.width (t.k.getP f.pg)).map (t.a f))) } }

def slotVexpand (f : VR) : Meaning :=
  { legal := fun _ => etypeAny f.etype && f.mod = 0 && f.wb = 0, dests := [.w f.wd],
    run := fun t =>
      let on := activeLanes f.width (t.k.getP f.pg)
      .ok (t.vecOut f f.width (fun i => t.a f (on.idxOf i))) }

def slotVscan (f : VR) : Meaning :=
  { legal := fun _ => etypeInt f.etype && f.mod = 0 && f.wb = 0, dests := [.w f.wd],
    run := fun t =>
      let on := activeLanes f.width (t.k.getP f.pg)
      .ok (t.vecOut f f.width (fun i => (on.filter (· ≤ i)).foldl (fun s j => s + t.a f j) 0)) }

/-! ### Top-k (R96 to R104) -/

def topkType (e : BitVec 4) : Bool := e = 0x4 || e = 0x5 || e = 0xC

/-- TOPK_K outside 1 to 64 makes VTOPK and VMERGEK illegal (Table 2.9). -/
def topkReady (k : Core) : Bool := decide (1 ≤ k.topkK.toNat) && decide (k.topkK.toNat ≤ 64)

/-- TOPKST: status, tie count and valid count. -/
def topkStatus (r : Selection) : BitVec 64 :=
  BitVec.ofNat 64 (r.status.toNat * 2 ^ 48 + (r.ties % 2 ^ 24) * 2 ^ 24 + r.entries.length)

def Ctx.selected (t : Ctx) (f : VR) (cs : List Entry) : Effect :=
  let kt := f.etype.toNat
  let smallest := f.mod.toNat % 2 = 1
  let r := select kt t.k.topkK.toNat smallest cs
  { w := some (f.wd, vecOfList (padded kt 64 smallest r.entries)), topkst := some (topkStatus r) }

def slotVtopk (f : VR) : Meaning :=
  { legal := fun k => topkType f.etype && f.mod.toNat < 2 && f.zm = 0 && topkReady k, dests := [.w f.wd],
    run := fun t =>
      let new := (activeLanes 4 (t.k.getP f.pg)).map (fun i => ({ key := t.a f i, idx := t.b f i } : Entry))
      .ok (t.selected f (listOfVec (t.k.getW f.wd) ++ new)) }

def slotVmergek (f : VR) : Meaning :=
  { legal := fun k => topkType f.etype && f.mod.toNat < 2 && f.zm = 0 && f.pg = 0 && topkReady k, dests := [.w f.wd],
    run := fun t => .ok (t.selected f (listOfVec (t.k.getW f.wa) ++ listOfVec (t.k.getW f.wb))) }

/-! ### Hash (R202, Table 8.1) -/

def hashElem (w mod a seed : Nat) : Nat :=
  let m := leBytes w a
  if mod = 0 then (crc32c (BitVec.ofNat 32 seed) m).toNat
  else
    let h := if mod = 1 then xxHash64 (BitVec.ofNat 64 seed) m else deckle64 (BitVec.ofNat 64 seed) m
    if w = 4 then h.toNat / 2 ^ 32 else h.toNat

def slotVhash (f : VR) : Meaning :=
  { legal := fun _ => etypeInt f.etype && 4 ≤ f.width && f.mod.toNat ≤ 2, dests := [.w f.wd],
    run := fun t => .ok (t.vecOut f f.width (fun i => hashElem f.width f.mod.toNat (t.a f i) (t.b f i))) }

/-! ### Predicates (R31) -/

/-- An instruction that writes every element of Pd. -/
def predOp (f : VR) (srcs : Bool) (g : Ctx → Nat → Bool) : Meaning :=
  { legal := fun _ => etypeAny f.etype && f.mod = 0 && f.pg = 0 && f.zm = 0 && predField f.wd && srcs,
    dests := [.p (predReg f.wd)],
    run := fun t => .ok { p := some (predReg f.wd, predOf f.width (g t)) } }

def predOp2 (f : VR) (g : Bool → Bool → Bool) : Meaning :=
  predOp f (predField f.wa && predField f.wb) (fun t i =>
    g (laneOn f.width (t.k.getP (predReg f.wa)) i) (laneOn f.width (t.k.getP (predReg f.wb)) i))

def slotPand (f : VR) : Meaning := predOp2 f (fun a b => a && b)
def slotPor (f : VR) : Meaning := predOp2 f (fun a b => a || b)
def slotPxor (f : VR) : Meaning := predOp2 f (fun a b => a != b)
def slotPnot (f : VR) : Meaning :=
  predOp f (predField f.wa && f.wb = 0) (fun t i => !laneOn f.width (t.k.getP (predReg f.wa)) i)
def slotPlen (f : VR) : Meaning := predOp f (f.wb = 0) (fun t i => i < (t.k.getX f.wa).toNat)

def slotPcnt (f : VR) : Meaning :=
  { legal := fun _ => etypeAny f.etype && f.mod = 0 && f.pg = 0 && f.zm = 0 && f.wb = 0 && predField f.wa,
    dests := [.x f.wd],
    run := fun t =>
      .ok { x := some (f.wd, BitVec.ofNat 64 (activeLanes f.width (t.k.getP (predReg f.wa))).length) } }

end Sys2Proof.Machine
end

