-- ==== Sys2Proof/Machine/Streams.lean ====
section
/-! DEFINITION. Streams (R44 to R47, R115, R124 to R132, R425): the elements a bound descriptor names in order, what an
SREAD delivers, where an SWRITE puts its elements, and the position after each. -/

namespace Sys2Proof.Machine

open Sys2Proof

/-- Coordinates of the n-th element, dimension 0 varying fastest (R115). -/
def coordsOf : Nat → List Nat → List Nat
  | _, [] => []
  | n, s :: ss => n % s :: coordsOf (n / s) ss

/-- What a stream access works on: the descriptor and the descriptor of its index tensor. -/
structure View where
  d  : Desc
  ix : Desc

/-- The view of a bound stream; the index descriptor is read where IDXREF points (R125), anew at each access and without a look at its
MARK (DESIGN CHOICE, log entry 163). -/
def Ctx.view (t : Ctx) (st : Stream) : View :=
  let d := descOf st.image
  { d := d, ix := descOf (if d.gather then bytesToLine (t.bytesAt d.idxref 64) else 0) }

/-- Sizes of the data dimensions as the stream sees them: N in place of SIZEg (R125). -/
def View.shape (v : View) : List Nat :=
  (List.range v.d.ndim).map (fun i => if v.d.gather && i = v.d.gdim then v.ix.size 0 else v.d.size i)

/-- Elements of the stream. -/
def View.count (v : View) : Nat := v.shape.foldl (· * ·) 1

/-- Address of an index entry. -/
def View.indexAddr (v : View) (i : Nat) : Nat := ((v.ix.addr : Int) + i * v.ix.stride 0).toNat

/-- The value of an index entry: signed for INT32, unsigned for UINT32 (R125). -/
def View.indexVal (v : View) (b : BitVec 32) : Int := if v.ix.code = 4 then b.toInt else b.toNat

/-- Where element n lies: its source coordinates, or none when its index is out of range (R126); with the index
entries read so far, each entry being read once (R128). -/
def Ctx.locate (t : Ctx) (st : Stream) (v : View) (cache : List (Nat × BitVec 32)) (n : Nat) :
    Option (List Nat) × List (Nat × BitVec 32) :=
  let co := coordsOf n v.shape
  if !v.d.gather then (some co, cache)
  else
    let i := co[v.d.gdim]?.getD 0
    let (b, cache) := match cache.find? (fun x => x.1 = i) with
      | some x => (x.2, cache)
      | none =>
        let b := BitVec.ofNat 32 (leVal (t.streamBytes st (v.indexAddr i) 4))
        (b, (i, b) :: cache)
    let x := v.indexVal b
    if 0 ≤ x && x < v.d.size v.d.gdim then (some (co.set v.d.gdim x.toNat), cache) else (none, cache)

/-- Places of m elements from position n on. -/
def Ctx.locateMany (t : Ctx) (st : Stream) (v : View) : Nat → List (Nat × BitVec 32) → Nat →
    List (Option (List Nat)) × List (Nat × BitVec 32)
  | 0, cache, _ => ([], cache)
  | m + 1, cache, n =>
    let (a, cache) := t.locate st v cache n
    let (as, cache) := Ctx.locateMany t st v m cache (n + 1)
    (a :: as, cache)

/-- Σ of coordinate × stride from dimension `i` on. -/
def strideSum (d : Desc) : Nat → List Nat → Int
  | _, [] => 0
  | i, c :: cs => c * d.stride i + strideSum d (i + 1) cs

/-- Byte address of an element of a byte type. -/
def Desc.byteAddr (d : Desc) (co : List Nat) : Nat := ((d.addr : Int) + strideSum d 0 co).toNat

/-- Byte address and bit number of an element's bit in plane p (R129). -/
def Desc.bitAddr (d : Desc) (p : Nat) (co : List Nat) : Nat × Nat :=
  let i0 := co.headD 0
  (((d.addr : Int) + (p : Int) * d.stride d.ndim + (i0 / 8 : Nat) + strideSum d 1 (co.drop 1)).toNat, i0 % 8)

/-- The lines and byte ranges an element's delivery reads. -/
def Desc.reads (d : Desc) (co : List Nat) : List (Nat × Nat) :=
  if d.bits then (List.range d.planes).map (fun p => ((d.bitAddr p co).1, 1)) else [(d.byteAddr co, d.esize)]

/-- The value of an unpacked bit-plane element as one byte (R130): leading planes in the high bits of the width, lower
bits zero, sign-extended for INT types. -/
def Ctx.planeElem (t : Ctx) (st : Stream) (d : Desc) (co : List Nat) : Nat :=
  let v := (List.range d.planes).foldl (fun a p =>
    let r := d.bitAddr p co
    let bit := (t.streamByte st r.1).getLsbD r.2
    a + if bit then 2 ^ (d.width - 1 - p) else 0) 0
  if d.signed && v / 2 ^ (d.width - 1) % 2 = 1 then v + 256 - 2 ^ d.width else v

/-- The bytes of an element as delivered; zeros when its index is out of range (R126). -/
def Ctx.elemBytes (t : Ctx) (st : Stream) (d : Desc) : Option (List Nat) → Bytes
  | none => zeros d.esize
  | some co =>
    if d.bits then [BitVec.ofNat 8 (t.planeElem st d co)] else t.streamBytes st (d.byteAddr co) d.esize

/-- Ranges of a list that stop a core: ACCESS_FAULT, then MEM_POISON. -/
def Ctx.rangesStop (t : Ctx) (store : Bool) (rs : List (Nat × Nat)) : Option Stop :=
  match rs.findSome? (fun r => t.access store r.1 r.2 1) with
  | some e => some e
  | none => if store then none else rs.findSome? (fun r => if t.poisoned r.1 r.2 then some (excAt 0x0107 r.1) else none)

/-- Distinct lines of byte ranges, in order. -/
def distinctLines (rs : List (Nat × Nat)) : List Nat := (rs.flatMap (fun r => linesOf r.1 r.2)).eraseDups

/-- The index descriptor and the index entries a stream access reads for the first time. -/
def View.indexReads (v : View) (before after : List (Nat × BitVec 32)) : List (Nat × Nat) :=
  if v.d.gather then (v.d.idxref, 64) :: (after.take (after.length - before.length)).map (fun x => (v.indexAddr x.1, 4))
  else []

/-- What an SREAD gives: 512 bytes, the valid-byte mask, the stream after it, and the lines read. -/
structure Delivery where
  data   : BitVec 4096
  mask   : BitVec 512
  stream : Stream
  lines  : List Nat
  stop   : Option Stop

/-- SREAD in planar delivery (R131, R425): one plane of the run that begins at the position. -/
def Ctx.readPlanar (t : Ctx) (st : Stream) (v : View) : Delivery :=
  let pos := st.pos.toNat
  let left := v.count - pos
  let run := if left < 4096 then left else 4096
  let p := st.plane.toNat
  let (els, cache) := t.locateMany st v run st.index pos
  let bits := els.map (fun e => match e with
    | none => false
    | some co =>
      let r := v.d.bitAddr p co
      (t.streamByte st r.1).getLsbD r.2)
  let rs := els.filterMap (fun e => e.map (fun co => ((v.d.bitAddr p co).1, 1)))
  let lastPlane := v.d.planes ≤ p + 1
  { data := BitVec.ofNat 4096 (predBits 1 bits), mask := BitVec.ofNat 512 (2 ^ ceilDiv run 8 - 1),
    stream := { st with index := cache,
                        pos := if lastPlane then st.pos + BitVec.ofNat 64 run else st.pos,
                        plane := if lastPlane || run = 0 then 0 else st.plane + 1 },
    lines := distinctLines rs, stop := t.rangesStop false (v.indexReads st.index cache ++ rs) }

/-- SREAD of whole elements (R45, R130). -/
def Ctx.readElems (t : Ctx) (st : Stream) (v : View) : Delivery :=
  let pos := st.pos.toNat
  let w := v.d.esize
  let room := 512 / w
  let m := if v.count - pos < room then v.count - pos else room
  let (els, cache) := t.locateMany st v m st.index pos
  let rs := els.flatMap (fun e => match e with | none => [] | some co => v.d.reads co)
  { data := vecOfBytes (els.flatMap (t.elemBytes st v.d)),
    mask := BitVec.ofNat 512 (predBits w (els.map (·.isSome))),
    stream := { st with index := cache, pos := st.pos + BitVec.ofNat 64 m },
    lines := distinctLines rs, stop := t.rangesStop false (v.indexReads st.index cache ++ rs) }

def Ctx.streamRead (t : Ctx) (st : Stream) : Delivery :=
  let v := t.view st
  if v.d.planar && v.d.bits then t.readPlanar st v else t.readElems st v

/-- Bits of a bit-plane element, saturated to the width (R132): plane p takes bit b − 1 − p. -/
def Desc.planeBits (d : Desc) (co : List Nat) (byte : Nat) : List (Nat × Nat × Bool) :=
  let x := intVal d.signed 1 byte
  let lo : Int := if d.signed then -((2 ^ (d.width - 1) : Nat) : Int) else 0
  let hi : Int := if d.signed then ((2 ^ (d.width - 1) : Nat) : Int) - 1 else ((2 ^ d.width : Nat) : Int) - 1
  let y := if x < lo then lo else if hi < x then hi else x
  let n := (y % ((2 ^ d.width : Nat) : Int)).toNat
  (List.range d.planes).map (fun p =>
    let r := d.bitAddr p co
    (r.1, r.2, n / 2 ^ (d.width - 1 - p) % 2 = 1))

/-- SWRITE of the elements given, in lane order: the actions, the stream after it and the lines written, or why it
stops (R46, R126, R127). -/
def Ctx.streamWrite (t : Ctx) (st : Stream) (els : List Nat) : Except Stop (Act × Stream × List Nat) :=
  let v := t.view st
  let pos := st.pos.toNat
  if v.d.planar then .error (excOf 0x0109)
  else if v.count < pos + els.length then .error (excOf 0x010B)
  else
    let (places, cache) := t.locateMany st v els.length st.index pos
    if places.any (·.isNone) then .error (excOf 0x010B)
    else
      let cos := places.filterMap id
      let rs := cos.flatMap v.d.reads
      match t.rangesStop false (v.indexReads st.index cache), t.rangesStop true rs with
      | some e, _ => .error e
      | none, some e => .error e
      | none, none =>
        let act :=
          if v.d.bits then Act.bits ((cos.zip els).flatMap (fun x => v.d.planeBits x.1 x.2))
          else Act.cells ((cos.zip els).flatMap (fun x => cellsAt (v.d.byteAddr x.1) (leBytes v.d.esize x.2)))
        .ok (act, { st with index := cache, pos := st.pos + BitVec.ofNat 64 els.length }, distinctLines rs)

/-- SSKIP (R425): the run in progress is abandoned; the position moves, clamped to the end. -/
def Ctx.streamSkip (t : Ctx) (st : Stream) (n : Nat) : Stream :=
  let total := (t.view st).count
  let p := st.pos.toNat + n
  { st with pos := BitVec.ofNat 64 (if p < total then p else total), plane := 0 }

/-- The job whose key made an item's descriptors; firmware has the job that owns the record (log entry 16). -/
def Ctx.job (t : Ctx) (b : BitVec 512) : BitVec 64 :=
  match t.k.item with
  | some key => (match t.s.item? key with
    | some it => it.job
    | none => (t.s.alloc (descOf b).alloc).job)
  | none => (t.s.alloc (descOf b).alloc).job

/-- SBIND (R44): ALIGN, ACCESS_FAULT, STREAM_DESC, STREAM_DIRECTION in order, then the binding. -/
def Ctx.bind (t : Ctx) (a : Nat) (write : Bool) : Except Stop Stream :=
  match t.load a 64 64 with
  | .error e => .error e
  | .ok b =>
    let img := bytesToLine b
    let d := descOf img
    if !t.s.markGood img (t.job img) then .error (excOf 0x010A)
    else if write && !d.writable then .error (excOf 0x0109)
    else
      let r := t.s.alloc d.alloc
      .ok { desc := BitVec.ofNat 64 a, pos := 0, allocBase := BitVec.ofNat 64 r.base,
            allocExtent := BitVec.ofNat 64 r.extent, bound := true, write := write, plane := 0, image := img,
            index := [], since := t.s.free }

end Sys2Proof.Machine
end

