-- ==== Sys2Proof/Machine/Slot3.lean ====
section
/-! DEFINITION. Slot 3 of a Tistra word (Table 2.8): loads, stores, streams, gathers, atomics, coherence, and handing
commands to units. -/

namespace Sys2Proof.Machine

open Sys2Proof

/-- A checked store: why it stops, or the effect of storing the bytes. -/
def Ctx.storeEffect (t : Ctx) (a : Nat) (b : Bytes) (align : Nat) : Except Stop Effect :=
  match t.access true a b.length align with
  | some e => .error e
  | none => .ok { acts := storeActs (cellsAt a b), lines := lineSpan a b.length }

/-- A checked load and what it writes. -/
def Ctx.loadEffect (t : Ctx) (a n align : Nat) (g : Bytes → Effect) : Except Stop Effect :=
  match t.load a n align with
  | .error e => .error e
  | .ok b => .ok { g b with acts := t.loadAct a n, lines := lineSpan a n }

def slotMnop (bits : BitVec 26) : Meaning := Meaning.nop bits.toNat

/-! ### Scalar loads and stores -/

/-- Access size and address of an MI instruction. -/
def miBytes (f : MI) : Nat := 2 ^ f.sz.toNat
def Ctx.miAddr (t : Ctx) (f : MI) : Nat := (offsetAddr (t.k.getX f.xb) f.off14.toInt (miBytes f)).toNat

def slotLd (f : MI) : Meaning :=
  { dests := [.x f.xd],
    run := fun t => t.loadEffect (t.miAddr f) (miBytes f) (miBytes f) (fun b =>
      { x := some (f.xd, BitVec.ofNat 64 (leVal b)) }) }

def slotLds (f : MI) : Meaning :=
  { dests := [.x f.xd],
    run := fun t => t.loadEffect (t.miAddr f) (miBytes f) (miBytes f) (fun b =>
      { x := some (f.xd, BitVec.ofInt 64 (intVal true (miBytes f) (leVal b))) }) }

def slotSt (f : MI) : Meaning :=
  { run := fun t => t.storeEffect (t.miAddr f) (leBytes (miBytes f) (t.k.getX f.xd).toNat) (miBytes f) }

/-! ### Vector and predicate loads and stores -/

def Ctx.mvAddr (t : Ctx) (f : MV) : Nat := (offsetAddr (t.k.getX f.xb) f.off13.toInt 64).toNat

/-- Bytes of `new` where the predicate is set, else bytes of `old`. -/
def byteSelect (p : BitVec 512) (new old : BitVec 4096) : BitVec 4096 :=
  packLanes 1 ((List.range 512).map (fun i => if p.getLsbD i then lane 1 new i else lane 1 old i))

/-- VLD: all 512 bytes are accessed, whatever the predicate (log entry 138). -/
def slotVld (f : MV) : Meaning :=
  { dests := [.w f.wd],
    run := fun t => t.loadEffect (t.mvAddr f) 512 64 (fun b =>
      { w := some (f.wd, byteSelect (t.k.getP f.pg) (vecOfBytes b) (t.k.getW f.wd)) }) }

/-- The active bytes of a vector register with the addresses they go to. -/
def activeCells (p : BitVec 512) (a : Nat) (b : Bytes) : List (Nat × BitVec 8) :=
  ((List.range 512).filter (fun i => p.getLsbD i)).map (fun i => (a + i, b[i]?.getD 0))

/-- VST: all 512 bytes are checked, whatever the predicate (log entry 138). -/
def slotVst (f : MV) : Meaning :=
  { run := fun t =>
      let a := t.mvAddr f
      match t.access true a 512 64 with
      | some e => .error e
      | none => .ok { acts := storeActs (activeCells (t.k.getP f.pg) a (vecBytes (t.k.getW f.wd))),
                      lines := lineSpan a 512 } }

def slotPld (f : MV) : Meaning :=
  { legal := fun _ => f.pg = 0 && predField f.wd, dests := [.p (predReg f.wd)],
    run := fun t => t.loadEffect (t.mvAddr f) 64 64 (fun b => { p := some (predReg f.wd, predOfBytes b) }) }

def slotPst (f : MV) : Meaning :=
  { legal := fun _ => f.pg = 0 && predField f.wd,
    run := fun t => t.storeEffect (t.mvAddr f) (predBytes (t.k.getP (predReg f.wd))) 64 }

/-! ### Streams (R44 to R46, R425) -/

def slotSbind (f : MS) : Meaning :=
  { legal := fun _ => f.imm14.toNat < 2 && f.pg = 0,
    run := fun t =>
      let a := (t.k.getX f.reg).toNat
      match t.bind a (f.imm14 = 1) with
      | .error e => .error e
      | .ok st => .ok { stream := some (f.sn, st), acts := t.loadAct a 64, lines := 1 } }

/-- The bound stream of an instruction, or why it stops. -/
def Ctx.bound (t : Ctx) (f : MS) (write : Option Bool) : Except Stop Stream :=
  let st := t.k.getS f.sn
  if !st.bound then .error (excOf 0x0108)
  else match write with
    | some w => if st.write = w then .ok st else .error (excOf 0x0109)
    | none => .ok st

def slotSread (f : MS) : Meaning :=
  { legal := fun _ => f.imm14 = 0, dests := [.w f.reg, .p f.pg],
    run := fun t =>
      match t.bound f (some false) with
      | .error e => .error e
      | .ok st =>
        let r := t.streamRead st
        match r.stop with
        | some e => .error e
        | none => .ok { w := some (f.reg, r.data), p := some (f.pg, r.mask), stream := some (f.sn, r.stream),
                        acts := [.touch r.lines], lines := r.lines.length } }

def slotSwrite (f : MS) : Meaning :=
  { legal := fun _ => f.imm14 = 0,
    run := fun t =>
      match t.bound f (some true) with
      | .error e => .error e
      | .ok st =>
        let w := (descOf st.image).esize
        let els := (activeLanes w (t.k.getP f.pg)).map (lane w (t.k.getW f.reg))
        match t.streamWrite st els with
        | .error e => .error e
        | .ok (act, st', lines) => .ok { stream := some (f.sn, st'), acts := [act], lines := lines.length } }

def slotSskip (f : MS) : Meaning :=
  { legal := fun _ => f.imm14 = 0 && f.pg = 0,
    run := fun t =>
      match t.bound f (some false) with
      | .error e => .error e
      | .ok st => .ok { stream := some (f.sn, t.streamSkip st (t.k.getX f.reg).toNat) } }

def slotSpos (f : MS) : Meaning :=
  { legal := fun _ => f.imm14 = 0 && f.pg = 0, dests := [.x f.reg],
    run := fun t =>
      match t.bound f none with
      | .error e => .error e
      | .ok st => .ok { x := some (f.reg, st.pos) } }

def slotSclose (f : MS) : Meaning :=
  { legal := fun _ => f.imm14 = 0 && f.pg = 0 && f.reg = 0,
    run := fun t =>
      match t.bound f none with
      | .error e => .error e
      | .ok _ => .ok { stream := some (f.sn, Stream.unbound) } }

/-! ### Gathers and scatters -/

def mxEtype (f : MX) : Nat := f.func.toNat / 128
def mxWidth (f : MX) : Nat := etypeBytes (mxEtype f)
def mxPg (f : MX) : BitVec 3 := BitVec.ofNat 3 (f.func.toNat / 4)

def mxScale (f : MX) : Nat :=
  match f.func.toNat / 32 % 4 with
  | 0 => 1
  | 1 => mxWidth f
  | 2 => 64
  | _ => 512

def gatherLegal (f : MX) : Bool := mxEtype f ≤ 0xD && f.func.toNat % 4 = 0

/-- Active elements with an index, and the address of each. -/
def Ctx.gatherAddrs (t : Ctx) (f : MX) : List (Nat × Nat) :=
  ((activeLanes (mxWidth f) (t.k.getP (mxPg f))).filter (· < 128)).map (fun i =>
    (i, (offsetAddr (t.k.getX f.rs1) (intVal true 4 (lane 4 (t.k.getW f.rs2) i)) (mxScale f)).toNat))

/-- Distinct lines of accesses of w bytes. -/
def addrLines (w : Nat) (xs : List (Nat × Nat)) : List Nat := distinctLines (xs.map (fun x => (x.2, w)))

def slotVgather (f : MX) : Meaning :=
  { legal := fun _ => gatherLegal f, dests := [.w f.rd],
    run := fun t =>
      let w := mxWidth f
      let xs := t.gatherAddrs f
      match xs.findSome? (fun x => match t.load x.2 w w with | .error e => some e | .ok _ => none) with
      | some e => .error e
      | none =>
        let old := t.k.getW f.rd
        let val := fun i => match xs.find? (fun x => x.1 = i) with
          | some x => leVal (t.bytesAt x.2 w)
          | none => lane w old i
        .ok { w := some (f.rd, packLanes w ((List.range (laneCount w)).map val)),
              acts := xs.flatMap (fun x => t.loadAct x.2 w), lines := (addrLines w xs).length } }

def slotVscatter (f : MX) : Meaning :=
  { legal := fun _ => gatherLegal f,
    run := fun t =>
      let w := mxWidth f
      let xs := t.gatherAddrs f
      match xs.findSome? (fun x => t.access true x.2 w w) with
      | some e => .error e
      | none =>
        .ok { acts := xs.flatMap (fun x => storeActs (cellsAt x.2 (leBytes w (lane w (t.k.getW f.rd) x.1)))),
              lines := (addrLines w xs).length } }

/-! ### Accumulator images -/

def slotEld (f : MX) : Meaning :=
  { legal := fun _ => f.rs2 = 0 && f.func = 0 && accField f.rd, dests := [.e (accOf f.rd)],
    run := fun t => t.loadEffect (t.k.getX f.rs1).toNat 1152 64 (fun b => { e := some (accOf f.rd, lanesOfBytes b) }) }

def slotEst (f : MX) : Meaning :=
  { legal := fun _ => f.rs2 = 0 && f.func = 0 && accField f.rd,
    run := fun t => t.storeEffect (t.k.getX f.rs1).toNat (lanesBytes (t.k.getE (accOf f.rd))) 64 }

/-! ### Atomics (R41, R54) -/

/-- The value an atomic finds: the issuing Vat's copy is written back first. -/
def Ctx.atomicOld (t : Ctx) (a w : Nat) : Nat :=
  leVal (if a < controlBase then (t.s.invalLine t.c.vat (a / 64)).seen t.c.vat a w else t.bytesAt a w)

/-- The actions of an atomic: its new bytes go to the memory side (R54), and in control space to the byte's register. -/
def atomicActs (a : Nat) (b : Bytes) : List Act :=
  if a < controlBase then [.atomic a b] else storeActs (cellsAt a b)

/-- An atomic of w bytes: checks, then the new value from the old one; the old value goes to rd. -/
def Ctx.atomic (t : Ctx) (f : MX) (w : Nat) (sign : Bool) (g : Nat → Nat) : Except Stop Effect :=
  let a := (t.k.getX f.rs1).toNat
  match t.access true a w w with
  | some e => .error e
  | none =>
    if t.poisoned a w then .error (excAt 0x0107 a)
    else
      let old := t.atomicOld a w
      let shown := if sign then BitVec.ofInt 64 (intVal true w old) else BitVec.ofNat 64 old
      .ok { x := some (f.rd, shown), acts := atomicActs a (leBytes w (g old)), lines := 1 }

def amoWidth (f : MX) : Nat := if f.func = 2 then 4 else 8

/-- AMOADD, AMOMAX, AMOSWAP and AMOCAS: the new value from width, old rd, rs2 and memory. -/
def amoOp (f : MX) (sign : Bool) (g : Nat → Nat → Nat → Nat → Nat) : Meaning :=
  { legal := fun _ => f.func = 2 || f.func = 3, dests := [.x f.rd],
    run := fun t =>
      let w := amoWidth f
      let lo := fun (v : BitVec 64) => v.toNat % 2 ^ (8 * w)
      t.atomic f w sign (g w (lo (t.k.getX f.rd)) (lo (t.k.getX f.rs2))) }

def slotAmoadd (f : MX) : Meaning := amoOp f false (fun _ _ v old => old + v)
def slotAmomax (f : MX) : Meaning :=
  amoOp f true (fun w _ v old => if intVal true w v ≤ intVal true w old then old else v)
def slotAmoswap (f : MX) : Meaning := amoOp f false (fun _ _ v _ => v)
def slotAmocas (f : MX) : Meaning := amoOp f false (fun _ c v old => if old = c then v else old)

/-- UNORDERED_OK of the Plaud that runs (R55); firmware runs under none. -/
def Ctx.unorderedOk (t : Ctx) : Bool :=
  match t.k.item with
  | some key => (match t.s.flow? key.flow with | some (j, _) => j.unordered | none => false)
  | none => false

def slotAmofadd (f : MX) : Meaning :=
  { legal := fun _ => f.func.toNat < 2, dests := [.x f.rd],
    run := fun t =>
      if !t.unorderedOk then .error (excOf 0x010C)
      else
        let w := if f.func = 1 then 8 else 4
        let m := fmtOf (if f.func = 1 then 0xD else 0xC)
        let v := m.decode ((t.k.getX f.rs2).toNat % 2 ^ (8 * w))
        t.atomic f w false (fun old => (m.addVal 0 (m.decode old) v).bits) }

/-! ### Coherence -/

/-- FLUSH: func[0] has no meaning here and is ignored, and no address faults (log entries 139 and 141). -/
def slotFlush (f : MX) : Meaning :=
  { legal := fun _ => f.rd = 0 && f.func.toNat < 2,
    run := fun t => .ok { acts := [.flush (t.k.getX f.rs1).toNat (t.k.getX f.rs2).toNat] } }

def slotInval (f : MX) : Meaning :=
  { legal := fun _ => f.rd = 0 && f.func.toNat < 2,
    run := fun t => .ok { acts := [.inval (t.k.getX f.rs1).toNat (t.k.getX f.rs2).toNat] } }

/-- FENCE and SYNC order what a core that runs its words in order has already ordered. -/
def orderOp (f : MX) : Meaning := { legal := fun _ => f.rd = 0 && f.rs1 = 0 && f.rs2 = 0 && f.func = 0 }

def slotFence (f : MX) : Meaning := orderOp f
def slotSync (f : MX) : Meaning := orderOp f

/-- PREF brings the line into the caches where it can, and never faults. -/
def slotPref (f : MX) : Meaning :=
  { legal := fun _ => f.rd = 0 && f.rs2 = 0 && f.func.toNat < 2,
    run := fun t =>
      let a := (t.k.getX f.rs1).toNat
      .ok { acts := if t.s.plain a && !t.poisoned a 1 then [.touch [a / 64]] else [] } }

/-! ### Units and tickets (R48, R49, R424) -/

/-- The instance of a unit that serves a Vat: the die's, the die's sort unit, or the Vat's own (R105). -/
def unitInst (u : Nat) (vat : BitVec 6) : Nat :=
  if u = 3 || u = 6 then (vatDie vat).toNat else if u = 4 then vat.toNat / 4 else vat.toNat

/-- UNIT hands the command block to the unit, which answers it in its turn (R48, R203). -/
def slotUnit (f : MX) : Meaning :=
  { legal := fun _ => f.rs2 = 0 && f.func.toNat ≤ 6, dests := [.x f.rd],
    run := fun t =>
      let a := (t.k.getX f.rs1).toNat
      match t.load a 64 1 with
      | .error e => .error e
      | .ok block =>
        match t.k.freeTicket t.k.cls with
        | none => .error .wait
        | some n =>
          let u := f.func.toNat
          let attempt := match t.k.item with
            | some key => (match t.s.item? key with | some it => it.attempt | none => 0)
            | none => 0
          let cmd : UnitCmd :=
            { unit := BitVec.ofNat 4 u, inst := unitInst u t.c.vat, core := t.c, ticket := n, cls := t.k.cls,
              block := block, item := t.k.item, attempt := attempt, asked := [],
              lease := if u = 3 && fieldAt block 0 1 = 3 then t.s.leaseNow 3 (BitVec.ofNat 32 (fieldAt block 2 2)) else none }
          .ok { x := some (f.rd, BitVec.ofNat 64 n.toNat),
                ticket := some (n, .pending), acts := t.loadAct a 64 ++ [.submit cmd], lines := lineSpan a 64,
                other := !(u = 0 && fieldAt block 0 1 = 1) } }

/-- The ticket a TPOLL or TWAIT names, when it is outstanding for the item. -/
def Ctx.ticketOf (t : Ctx) (v : BitVec 64) : Option (BitVec 5 × Ticket) :=
  let n := v.toNat
  if ticketLo t.k.cls ≤ n && n ≤ ticketHi t.k.cls then
    let b := BitVec.ofNat 5 n
    if t.k.getT b = .free then none else some (b, t.k.getT b)
  else none

/-- Report a completed ticket: it is freed, or MEM_POISON is raised for a failed unit read. -/
def Ctx.report (f : MX) (n : BitVec 5) (st : BitVec 16) : Except Stop Effect :=
  if st = poisonStatus then .error (excOf poisonStatus)
  else .ok { x := some (f.rd, st.setWidth 64), ticket := some (n, .free) }

def slotTpoll (f : MX) : Meaning :=
  { legal := fun _ => f.rs2 = 0 && f.func = 0, dests := [.x f.rd],
    run := fun t =>
      match t.ticketOf (t.k.getX f.rs1) with
      | none => .error (excOf 0x010D)
      | some (n, .complete st) => Ctx.report f n st
      | some (_, _) => .ok { x := some (f.rd, all64) } }

def slotTwait (f : MX) : Meaning :=
  { legal := fun _ => f.rs2 = 0 && f.func = 0, dests := [.x f.rd],
    run := fun t =>
      match t.ticketOf (t.k.getX f.rs1) with
      | none => .error (excOf 0x010D)
      | some (n, .complete st) => Ctx.report f n st
      | some (_, _) => .error .wait }

end Sys2Proof.Machine
end

