-- ==== Sys2Proof/Machine/Words.lean ====
section
/-! DEFINITION. Words (R33 to R37, R59 to R61): reading the raw companion slots by Tables 2.4 to 2.8, and running a
word: its exceptions in the order of R60, and the results of all its slots written together. -/

namespace Sys2Proof.Machine

open Sys2Proof

/-! ### Slot formats (Table 2.4) -/

def srOf (w : BitVec 32) : SR :=
  { xd := w.extractLsb' 20 5, xs1 := w.extractLsb' 15 5, xs2 := w.extractLsb' 10 5, imm10 := w.extractLsb' 0 10 }

def siOf (w : BitVec 32) : SI :=
  { xd := w.extractLsb' 20 5, xs1 := w.extractLsb' 15 5, imm15 := w.extractLsb' 0 15 }

def sbOf (w : BitVec 32) : SB :=
  { xs1 := w.extractLsb' 20 5, xs2 := w.extractLsb' 15 5, off15 := w.extractLsb' 0 15 }

def sjOf (w : BitVec 32) : SJ := { off25 := w.extractLsb' 0 25 }

def vrOf (w : BitVec 32) : VR :=
  { etype := w.extractLsb' 22 4, wd := w.extractLsb' 17 5, wa := w.extractLsb' 12 5, wb := w.extractLsb' 7 5,
    mod := w.extractLsb' 4 3, zm := w.extractLsb' 3 1, pg := w.extractLsb' 0 3 }

def viOf (w : BitVec 32) : VI :=
  { etype := w.extractLsb' 22 4, wd := w.extractLsb' 17 5, wa := w.extractLsb' 12 5, imm8 := w.extractLsb' 4 8,
    zm := w.extractLsb' 3 1, pg := w.extractLsb' 0 3 }

def miOf (w : BitVec 32) : MI :=
  { sz := w.extractLsb' 24 2, xd := w.extractLsb' 19 5, xb := w.extractLsb' 14 5, off14 := w.extractLsb' 0 14 }

def mvOf (w : BitVec 32) : MV :=
  { pg := w.extractLsb' 23 3, wd := w.extractLsb' 18 5, xb := w.extractLsb' 13 5, off13 := w.extractLsb' 0 13 }

def msOf (w : BitVec 32) : MS :=
  { sn := w.extractLsb' 22 4, reg := w.extractLsb' 17 5, pg := w.extractLsb' 14 3, imm14 := w.extractLsb' 0 14 }

def mxOf (w : BitVec 32) : MX :=
  { rd := w.extractLsb' 21 5, rs1 := w.extractLsb' 16 5, rs2 := w.extractLsb' 11 5, func := w.extractLsb' 0 11 }

/-! ### Opcodes (Tables 2.5 to 2.8); any other opcode is reserved (R36) -/

/-- Slot 0 (Table 2.5). -/
def slotMeaning0 (w : BitVec 32) : Meaning :=
  match (w.extractLsb' 25 7).toNat with
  | 0x00 => slotNop0 (w.extractLsb' 0 25)
  | 0x01 => slotAdd (srOf w)
  | 0x02 => slotSub (srOf w)
  | 0x03 => slotMul (srOf w)
  | 0x04 => slotMulh (srOf w)
  | 0x05 => slotMulhu (srOf w)
  | 0x06 => slotDiv (srOf w)
  | 0x07 => slotDivu (srOf w)
  | 0x08 => slotRem (srOf w)
  | 0x09 => slotAnd (srOf w)
  | 0x0A => slotOr (srOf w)
  | 0x0B => slotXor (srOf w)
  | 0x0C => slotShl (srOf w)
  | 0x0D => slotShr (srOf w)
  | 0x0E => slotSra (srOf w)
  | 0x0F => slotSlt (srOf w)
  | 0x10 => slotSltu (srOf w)
  | 0x11 => slotClz (srOf w)
  | 0x12 => slotPopc (srOf w)
  | 0x18 => slotAddi (siOf w)
  | 0x19 => slotAndi (siOf w)
  | 0x1A => slotOri (siOf w)
  | 0x1B => slotXori (siOf w)
  | 0x1C => slotShli (siOf w)
  | 0x1D => slotShri (siOf w)
  | 0x1E => slotSrai (siOf w)
  | 0x1F => slotLsi (siOf w)
  | 0x20 => slotSlti (siOf w)
  | 0x28 => slotBeq (sbOf w)
  | 0x29 => slotBne (sbOf w)
  | 0x2A => slotBlt (sbOf w)
  | 0x2B => slotBge (sbOf w)
  | 0x2C => slotBltu (sbOf w)
  | 0x2D => slotBgeu (sbOf w)
  | 0x2E => slotBany (sbOf w)
  | 0x2F => slotBnone (sbOf w)
  | 0x30 => slotJmp (sjOf w)
  | 0x31 => slotCall (sjOf w)
  | 0x32 => slotJr (srOf w)
  | 0x33 => slotCallr (srOf w)
  | 0x38 => slotCsrr (srOf w)
  | 0x39 => slotCsrw (srOf w)
  | 0x3A => slotTrap (srOf w)
  | 0x3B => slotDone (srOf w)
  | 0x3C => slotEret (srOf w)
  | _ => Meaning.illegal

/-- Slot 1 (Table 2.6). -/
def slotMeaning1 (w : BitVec 32) : Meaning :=
  match (w.extractLsb' 26 6).toNat with
  | 0x00 => slotVnop (w.extractLsb' 0 26)
  | 0x01 => slotVfma (vrOf w)
  | 0x02 => slotVfms (vrOf w)
  | 0x03 => slotVfmul (vrOf w)
  | 0x04 => slotVfadd (vrOf w)
  | 0x05 => slotVfsub (vrOf w)
  | 0x06 => slotVfmax (vrOf w)
  | 0x07 => slotVfmin (vrOf w)
  | 0x08 => slotVimul (vrOf w)
  | 0x09 => slotVimac (vrOf w)
  | 0x0A => slotVdot4 (vrOf w)
  | 0x10 => slotVeacc (vrOf w)
  | 0x11 => slotVesq (vrOf w)
  | 0x12 => slotVerd (vrOf w)
  | 0x13 => slotVeclr (vrOf w)
  | 0x14 => slotVeadd (vrOf w)
  | _ => Meaning.illegal

/-- Slot 2 (Table 2.7). -/
def slotMeaning2 (w : BitVec 32) : Meaning :=
  match (w.extractLsb' 26 6).toNat with
  | 0x00 => slotVnop (w.extractLsb' 0 26)
  | 0x01 => slotVadd (vrOf w)
  | 0x02 => slotVsub (vrOf w)
  | 0x03 => slotVadds (vrOf w)
  | 0x04 => slotVsubs (vrOf w)
  | 0x05 => slotVand (vrOf w)
  | 0x06 => slotVor (vrOf w)
  | 0x07 => slotVxor (vrOf w)
  | 0x08 => slotVshl (vrOf w)
  | 0x09 => slotVshr (vrOf w)
  | 0x0A => slotVsra (vrOf w)
  | 0x0B => slotVmin (vrOf w)
  | 0x0C => slotVmax (vrOf w)
  | 0x0D => slotVcmp (vrOf w)
  | 0x0E => slotVsel (vrOf w)
  | 0x0F => slotVcvt (vrOf w)
  | 0x10 => slotVperm (vrOf w)
  | 0x11 => slotVbcast (vrOf w)
  | 0x12 => slotVmovx (vrOf w)
  | 0x13 => slotVmovi (viOf w)
  | 0x14 => slotVcompress (vrOf w)
  | 0x15 => slotVexpand (vrOf w)
  | 0x16 => slotVscan (vrOf w)
  | 0x17 => slotVtopk (vrOf w)
  | 0x18 => slotVmergek (vrOf w)
  | 0x19 => slotVhash (vrOf w)
  | 0x20 => slotPand (vrOf w)
  | 0x21 => slotPor (vrOf w)
  | 0x22 => slotPxor (vrOf w)
  | 0x23 => slotPnot (vrOf w)
  | 0x24 => slotPcnt (vrOf w)
  | 0x25 => slotPlen (vrOf w)
  | _ => Meaning.illegal

/-- Slot 3 (Table 2.8). -/
def slotMeaning3 (w : BitVec 32) : Meaning :=
  match (w.extractLsb' 26 6).toNat with
  | 0x00 => slotMnop (w.extractLsb' 0 26)
  | 0x01 => slotLd (miOf w)
  | 0x02 => slotLds (miOf w)
  | 0x03 => slotSt (miOf w)
  | 0x04 => slotVld (mvOf w)
  | 0x05 => slotVst (mvOf w)
  | 0x06 => slotPld (mvOf w)
  | 0x07 => slotPst (mvOf w)
  | 0x08 => slotSbind (msOf w)
  | 0x09 => slotSread (msOf w)
  | 0x0A => slotSwrite (msOf w)
  | 0x0B => slotSskip (msOf w)
  | 0x0C => slotSpos (msOf w)
  | 0x0D => slotSclose (msOf w)
  | 0x10 => slotVgather (mxOf w)
  | 0x11 => slotVscatter (mxOf w)
  | 0x12 => slotEld (mxOf w)
  | 0x13 => slotEst (mxOf w)
  | 0x18 => slotAmoadd (mxOf w)
  | 0x19 => slotAmomax (mxOf w)
  | 0x1A => slotAmoswap (mxOf w)
  | 0x1B => slotAmocas (mxOf w)
  | 0x1C => slotAmofadd (mxOf w)
  | 0x20 => slotFlush (mxOf w)
  | 0x21 => slotInval (mxOf w)
  | 0x22 => slotFence (mxOf w)
  | 0x23 => slotSync (mxOf w)
  | 0x24 => slotPref (mxOf w)
  | 0x28 => slotUnit (mxOf w)
  | 0x29 => slotTpoll (mxOf w)
  | 0x2A => slotTwait (mxOf w)
  | _ => Meaning.illegal

/-! ### Running a word -/

/-- The four slots of a word from its own slot (number `own`) and its companions. -/
def wordSlots (own : Nat) (m : Meaning) (w : Companions) : List Meaning :=
  match own with
  | 0 => [m, slotMeaning1 w.o1, slotMeaning2 w.o2, slotMeaning3 w.o3]
  | 1 => [slotMeaning0 w.o1, m, slotMeaning2 w.o2, slotMeaning3 w.o3]
  | 2 => [slotMeaning0 w.o1, slotMeaning1 w.o2, m, slotMeaning3 w.o3]
  | _ => [slotMeaning0 w.o1, slotMeaning1 w.o2, slotMeaning2 w.o3, m]

/-- Two slots name one destination (R35); X0 never counts (R29). The check comes before that of each slot's own
encoding (R60), so a slot that would raise ILLEGAL_OPCODE names its destination too. -/
def destsClash (ms : List Meaning) : Bool :=
  let ds := ms.flatMap (fun m => m.dests.filter (· ≠ .x 0))
  ds.length ≠ ds.eraseDups.length

/-- The slots from number `i` on, in turn (R60): the first that stops and why, or the effects of all. -/
def evalSlots (t : Ctx) : Nat → List Meaning → Except (Nat × Stop) (List Effect)
  | _, [] => .ok []
  | i, m :: ms =>
    if !m.legal t.k then .error (i, excOf 0x0101)
    else if m.privileged && !t.k.firmware then .error (i, excOf 0x0103)
    else match m.run t with
      | .error e => .error (i, e)
      | .ok e =>
        match evalSlots t (i + 1) ms with
        | .error x => .error x
        | .ok es => .ok (e :: es)

/-- The core takes an exception: EPC holds the word's address (R59). In item mode the item ends with the code; in
firmware mode CAUSE and FADDR are written too and the core goes on at EVEC; in a handler the Vat reports a firmware fault
through the dictionary, whose event log takes it, and the core stops (R61, log entry 123).
FADDR without a data address, the slot of a whole word and the trap code of another exception are free values. -/
def State.exception (s : State) (c : CoreId) (slot : Option (BitVec 2)) (code : BitVec 16) (trap : Option (BitVec 10))
    (faddr : Option (BitVec 64)) : State :=
  let k := { s.core c with cycle := (s.core c).cycle + 1 + BitVec.ofNat 64 (Config.stall s.free),
                           itemCycles := (s.core c).itemCycles + 1 + BitVec.ofNat 32 (Config.stall s.free) }
  let fa := faddr.getD (Config.freeWord s.free 0)
  let tr := trap.getD ((Config.freeWord s.free 1).setWidth 10)
  let sl := slot.getD ((Config.freeWord s.free 2).setWidth 2)
  let s := if faddr.isSome && code = poisonStatus then s.bump 0x48000F 1 else s
  let s := (s.setCore c k).drawn
  if !k.firmware then (s.setCore c { k with epc := k.pc }).itemEnd c code
  else if k.handler then
    let s := (s.setCore c { k with epc := k.pc, active := false }).faultCode code (coreNum c)
    { s with hb := { s.hb with firmwareFault := s.hb.firmwareFault ++ [c] } }
  else
    s.setCore c { k with epc := k.pc, cause := tr ++ sl ++ code, faddr := fa, pc := k.evec,
                         handler := true }

/-- The item of a core is done with a status (R50): the output reservation is written back, and the Headbox takes
the status. -/
def State.finish (s : State) (c : CoreId) (st : BitVec 16) : State :=
  let s := match (s.core c).item with
    | some key => (match s.item? key with
      | some it => s.flushRange c.vat it.out it.outBytes
      | none => s)
    | none => s
  s.itemEnd c st

/-- The word of a DONE that has waited is retired. -/
def State.retireDone (s : State) (c : CoreId) : State :=
  let k := s.core c
  let n := 1 + Config.stall s.free
  (s.setCore c { k with retired := k.retired + 1, wordsRun := k.wordsRun + 1, cycle := k.cycle + BitVec.ofNat 64 n,
                        itemCycles := k.itemCycles + BitVec.ofNat 32 n }).drawn

/-- A unit completes a ticket (R48); a core whose DONE waits for the ticket of its own word ends its item. When that ticket's unit
read failed, the word of DONE raises MEM_POISON (R424), and EPC holds its address (R59). -/
def State.reportTicket (s : State) (c : CoreId) (t : BitVec 5) (st : BitVec 16) : State :=
  let s := s.completeTicket c t st
  let k := s.core c
  match k.finishing with
  | none => s
  | some done =>
    if k.anyPending (ticketLo k.cls) (ticketHi k.cls) then s
    else if k.unitFailed then s.exception c (some 0) poisonStatus none none
    else (s.retireDone c).finish c done

/-- The core while the DONE of its word waits for the ticket that UNIT of the same word has taken: no other slot has taken effect,
and the word has not completed (R59, log entry 168). -/
def Core.waiting (k k' : Core) (st : BitVec 16) : Core :=
  { k with tickets := k'.tickets, lineUses := k'.lineUses, otherUnit := k'.otherUnit, finishing := some st }

/-- The word completes: registers, then the actions of its slots, then DONE. -/
def State.commit (s : State) (c : CoreId) (es : List Effect) : State :=
  let k := s.core c
  let k' := es.foldl (fun k e => k.write e) k
  let flags := es.foldl (fun a e => a ||| e.flags) 0
  let k' := { k' with
    fpflags := k'.fpflags ||| flags, pc := (es.findSome? (·.target)).getD (k.pc + 16), retired := k.retired + 1,
    cycle := k.cycle + 1 + BitVec.ofNat 64 (Config.stall s.free),
    itemCycles := k.itemCycles + 1 + BitVec.ofNat 32 (Config.stall s.free), wordsRun := k.wordsRun + 1 }
  let acts := es.flatMap (·.acts)
  let s := acts.foldl (fun s a => s.act c a) ((s.noteStores c acts).setCore c k')
  let s := s.drawn
  match es.findSome? (·.done) with
  | none => s
  | some st =>
    if k.firmware then s
    else if k'.anyPending (ticketLo k.cls) (ticketHi k.cls) then s.setCore c (k.waiting k' st)
    else s.finish c st

/-- The word at the core's pc cannot be fetched (FETCH_FAULT of Table 2.10). -/
def fetchFault (s : State) (k : Core) : Bool :=
  !s.plainRange k.pc.toNat 16 &&
    (!k.firmware || s.region k.pc.toNat == .unmapped || s.region (k.pc.toNat + 15) == .unmapped)

/-- Run one word of a core: `m` is its slot number `own`, `w` the other three. A core that runs no item and no
firmware, whose DONE waits for tickets, or that is in run-ahead, commits no word. -/
def runWord (c : CoreId) (own : Nat) (m : Meaning) (w : Companions) (s : State) : Host.Outcome State Fault Refusal :=
  let k := s.core c
  if !k.active || k.finishing.isSome || k.runahead then .next s
  else if fetchFault s k then .next (s.exception c none 0x0104 none none)
  else
    let ms := wordSlots own m w
    if destsClash ms then .next (s.exception c none 0x0102 none none)
    else match evalSlots { s := s, c := c, k := k } 0 ms with
      | .error (_, .wait) => .next s
      | .error (i, .exc code trap fa) => .next (s.exception c (some (BitVec.ofNat 2 i)) code trap fa)
      | .ok es => .next (s.commit c es)

end Sys2Proof.Machine
end

