-- ==== Sys2Proof/Machine/Units.lean ====
section
/-! DEFINITION. Serving unit commands (R48, R49, R105, R203, R424): which queued command a unit runs next, what a
command reads and writes, and how its ticket completes. -/

namespace Sys2Proof.Machine

open Sys2Proof

/-- The next command of a unit instance: class A first, then classes B and C in one submission order (R105, R203; DESIGN
CHOICE, log entry 160). -/
def State.nextUnit (s : State) (unit : BitVec 4) (inst : Nat) : Option UnitCmd :=
  let mine := s.units.filter (fun u => u.unit = unit && u.inst = inst)
  match mine.find? (fun u => u.cls = 0) with
  | some u => some u
  | none => mine.head?

/-- The core still holds the item (or firmware) and the run that a command belongs to. -/
def State.unitOwned (s : State) (u : UnitCmd) : Bool :=
  let k := s.core u.core
  match u.item with
  | none => k.firmware
  | some key => (k.item = some key || k.preempted = some key) &&
      (match s.item? key with | some it => it.attempt = u.attempt | none => false)

/-- Take a command out of the queue and complete its ticket. -/
def State.unitEnd (s : State) (u : UnitCmd) (st : BitVec 16) : State :=
  let s := { s with units := s.units.erase u }
  if s.unitOwned u then s.reportTicket u.core u.ticket st else s

/-- The first and last OP (or MODE) value of a unit of func[3:0]. -/
def unitOps (u : Nat) : Nat × Nat :=
  match u with
  | 0 => (1, 3)
  | 1 => (1, 6)
  | 2 => (0, 3)
  | 3 => (1, 4)
  | 4 => (1, 3)
  | 5 => (1, 2)
  | _ => (1, 3)

/-- The code a unit answers for a reserved OP (Tables 3.5, 3.8, 4.8, 6.5, 8.10, 9.8, 10.6). -/
def unitFieldCode (u : Nat) : BitVec 16 :=
  match u with
  | 0 => 0x0501
  | 1 => 0x0420
  | 2 => 0x04F0
  | 3 => 0x0601
  | 4 => 0x0710
  | 5 => 0x0180
  | _ => 0x0380

/-- The field of a command block. -/
def UnitCmd.field (u : UnitCmd) (off n : Nat) : Nat := fieldAt u.block off n

/-- The OP is one the unit has. -/
def UnitCmd.known (u : UnitCmd) : Bool :=
  let r := unitOps u.unit.toNat
  r.1 ≤ u.field 0 1 && u.field 0 1 ≤ r.2

/-- What a command comes to: its status, the ranges it reads, the bytes it writes, and the ranges it would have written had
the data it read not led it to another end, which a failed read leaves undefined too (R424). -/
structure UnitPlan where
  status : BitVec 16
  reads  : List (Nat × Nat)
  writes : List (Nat × Bytes)
  spoils : List (Nat × Nat) := []
deriving DecidableEq, Repr

/-- A command that is rejected. -/
def UnitPlan.reject (code : BitVec 16) : UnitPlan := { status := code, reads := [], writes := [] }

/-- A command that is rejected for what it read: MEM_POISON comes first when that data cannot be read (R424). -/
def UnitPlan.rejectRead (code : BitVec 16) (reads spoils : List (Nat × Nat)) : UnitPlan :=
  { status := code, reads := reads, writes := [], spoils := spoils }

/-- A unit's read of a range comes back uncorrectable (R300, R304). -/
def State.unitPoisoned (s : State) (vat : BitVec 6) (r : Nat × Nat) : Bool := (linesOf r.1 r.2).any (s.lineLost vat)

/-- `n` free bytes of this draw. -/
def freeBytes (draw n : Nat) : Bytes := (List.range n).map (Config.freeByte draw)

/-- Free bytes in place of every byte a plan writes. -/
def freeWrites (draw : Nat) : Nat → List (Nat × Bytes) → List (Nat × Bytes)
  | _, [] => []
  | off, (a, b) :: ws =>
    (a, (List.range b.length).map (fun i => Config.freeByte draw (off + i))) :: freeWrites draw (off + b.length) ws

/-- The plan as carried out: a failed read completes with MEM_POISON and leaves the written bytes undefined (R424). -/
def UnitPlan.settle (p : UnitPlan) (s : State) (vat : BitVec 6) : UnitPlan :=
  if p.reads.any (s.unitPoisoned vat) then
    { p with status := poisonStatus, writes := freeWrites s.free 0 (p.writes ++ p.spoils.map (fun r => (r.1, zeros r.2))) }
  else p

/-- Writes through the Vat's caches. -/
def State.unitStore (s : State) (vat : BitVec 6) (ws : List (Nat × Bytes)) : State :=
  ws.foldl (fun s w => s.store vat w.1 w.2) s

/-- Bytes as a unit that works at the memory side reads them: the Vat's own dirty lines are visible to it (R48). -/
def State.sideLine (s : State) (vat : BitVec 6) (n : Nat) : BitVec 512 :=
  match l2Find s.mem.l2 vat n with
  | some l => if l.dirty then l.data else s.belowLine vat n
  | none => s.belowLine vat n

def State.sideBytes (s : State) (vat : BitVec 6) (a : Nat) : Nat → Bytes
  | 0 => []
  | n + 1 => (s.sideLine vat (a / 64)).extractLsb' (8 * (a % 64)) 8 :: State.sideBytes s vat (a + 1) n

/-- A write at the memory side, visible to the Vat: its copies of the lines are written back and dropped. -/
def State.sideWrite (s : State) (vat : BitVec 6) (a : Nat) (b : Bytes) : State :=
  (s.invalRange vat a b.length).memWrite a b

def State.sideStore (s : State) (vat : BitVec 6) (ws : List (Nat × Bytes)) : State :=
  ws.foldl (fun s w => s.sideWrite vat w.1 w.2) s

/-- Every byte of each range lies in tier A or the tier B window. -/
def State.plainAll (s : State) (rs : List (Nat × Nat)) : Bool := rs.all (fun r => s.plainRange r.1 r.2)

/-- The ranges of a list that lie in memory. -/
def State.plainOf (s : State) (rs : List (Nat × Nat)) : List (Nat × Nat) := rs.filter (fun r => s.plainRange r.1 r.2)

/-- A command with a reserved OP, when its turn comes (R203): its code, and from the sort unit STATUS of a usable result
record (R111). -/
def State.rejectReserved (s : State) (u : UnitCmd) : State :=
  let code := unitFieldCode u.unit.toNat
  let r := u.field 0x20 8
  (if u.unit = 4 && r % 16 = 0 && s.plainRange r 16 then s.unitStore u.core.vat [(r, leBytes 2 code.toNat)] else s).unitEnd
    u code

/-- In recovery mode the units that are not the recovery Vat's own are held in reset (Table 14.6): the matchers, the sort
units and the Pulpers. -/
def State.unitHeld (s : State) (unit : BitVec 4) : Bool := s.rst.boot = .recovery && (unit = 3 || unit = 4 || unit = 6)

/-- A unit instance takes its next command: `run` carries out the OP named, and every row of the unit answers a reserved
OP, which has no row of its own (log entry 126). A command of another OP waits for its row. -/
def serveNext (unit : BitVec 4) (inst op : Nat) (run : State → UnitCmd → State) (s : State) :
    Host.Outcome State Fault Refusal :=
  match s.nextUnit unit inst with
  | none => .next s
  | some u =>
    if s.unitHeld unit then .next s
    else if !u.known then .next (s.rejectReserved u)
    else if u.field 0 1 ≠ op then .next s
    else .next (run s u)

/-- Run the next command of a unit instance when its OP is the one named. `plan` reads the state; `side` says that
the unit works at the memory side; `tally` counts. Until this one step the old bytes stand (log entry 146). -/
def runUnitTally (unit : BitVec 4) (inst op : Nat) (side : Bool) (plan : State → UnitCmd → UnitPlan)
    (tally : UnitPlan → State → State) (s : State) : Host.Outcome State Fault Refusal :=
  serveNext unit inst op (fun s u =>
    let vat := u.core.vat
    let p := (plan s u).settle s vat
    let s := if side then s.sideStore vat p.writes else s.unitStore vat p.writes
    ((tally p s.drawn).notePoison p.status).unitEnd u p.status) s

def runUnit (unit : BitVec 4) (inst op : Nat) (side : Bool) (plan : State → UnitCmd → UnitPlan) (s : State) :
    Host.Outcome State Fault Refusal := runUnitTally unit inst op side plan (fun _ s => s) s

end Sys2Proof.Machine
end

