-- ==== Sys2Proof/Machine/Calender.lean ====
section
/-! DEFINITION. The Calender (R203 to R220, R223): hashing, bucketing, quantiles, row assembly and sealing. -/

namespace Sys2Proof.Machine

open Sys2Proof

/-! ### Column entries (Table 8.3) -/

structure Column where
  addr   : Nat
  valid  : Nat
  typ    : Nat
  len    : Nat
  cnt    : Nat
  stride : Nat
  data   : Nat
deriving DecidableEq, Repr

def columnAt (b : Bytes) (j : Nat) : Column :=
  let o := 32 * j
  { addr := fieldAt b o 8, valid := fieldAt b (o + 8) 8, typ := fieldAt b (o + 0x10) 1, len := fieldAt b (o + 0x11) 1,
    cnt := fieldAt b (o + 0x12) 2, stride := fieldAt b (o + 0x14) 4, data := fieldAt b (o + 0x18) 8 }

def typeBytes : Nat := 0x10
def typeVar : Nat := 0x11

def Column.isVar (c : Column) : Bool := c.typ = typeVar
def Column.isBytes (c : Column) : Bool := c.typ = typeBytes
def Column.numeric (c : Column) : Bool := c.typ ≤ 0xD

/-- Bytes of an element, and of the value of a row. -/
def Column.esize (c : Column) : Nat := if c.isBytes then c.len else etypeBytes c.typ
def Column.width (c : Column) : Nat := c.esize * c.cnt
def Column.step (c : Column) : Nat := if c.stride = 0 then c.width else c.stride

/-- Reserved values in an entry (CAL_FIELD). -/
def Column.reserved (c : Column) : Bool :=
  !(c.numeric || c.isBytes || c.isVar) || (c.isVar && c.stride ≠ 0) || (!c.isVar && c.data ≠ 0)

/-- LEN and CNT that no entry may hold, or that the OP does not take (CAL_TYPE). -/
def Column.sizeBad (c : Column) (most : Nat) : Bool :=
  if c.isBytes then c.len = 0 || 64 < c.len || c.cnt ≠ 1
  else if c.isVar then c.len ≠ 0 || c.cnt ≠ 1
  else c.len ≠ 0 || c.cnt = 0 || most < c.cnt

/-- The state a Calender reads, at the memory side of its Vat (R206). -/
structure CalView where
  s     : State
  vat   : BitVec 6
  cmd   : UnitCmd

def CalView.bytes (v : CalView) (a n : Nat) : Bytes := v.s.sideBytes v.vat a n
def CalView.nat (v : CalView) (a n : Nat) : Nat := leVal (v.bytes a n)

def CalView.op (v : CalView) : Nat := v.cmd.field 0 1
def CalView.flags (v : CalView) : Nat := v.cmd.field 1 1
def CalView.ncol (v : CalView) : Nat := v.cmd.field 2 1
def CalView.count (v : CalView) : Nat := v.cmd.field 4 4
def CalView.cols (v : CalView) : Nat := v.cmd.field 8 8
def CalView.dst (v : CalView) : Nat := v.cmd.field 0x10 8
def CalView.aux (v : CalView) : Nat := v.cmd.field 0x18 8
def CalView.p1 (v : CalView) : Nat := v.cmd.field 0x20 8
def CalView.p2 (v : CalView) : Nat := v.cmd.field 0x28 8
def CalView.seed (v : CalView) : Nat := v.cmd.field 0x30 8

/-- Offset i of a VARBYTES column. -/
def CalView.offset (v : CalView) (c : Column) (i : Nat) : Nat := v.nat (c.addr + 4 * i) 4

/-- A row's value is not null. -/
def CalView.present (v : CalView) (c : Column) (i : Nat) : Bool :=
  c.valid = 0 || v.nat (c.valid + i / 8) 1 / 2 ^ (i % 8) % 2 = 1

/-- The value bytes of a row. -/
def CalView.value (v : CalView) (c : Column) (i : Nat) : Bytes :=
  if c.isVar then v.bytes (c.data + v.offset c i) (v.offset c (i + 1) - v.offset c i)
  else v.bytes (c.addr + i * c.step) c.width

/-- The ranges a column of `n` rows takes in memory; `data` adds the value bytes of a VARBYTES column. -/
def CalView.ranges (v : CalView) (n : Nat) (c : Column) (data : Bool) : List (Nat × Nat) :=
  (if c.isVar then
    (c.addr, 4 * (n + 1)) ::
      (if data then [(c.data + v.offset c 0, v.offset c n - v.offset c 0)] else [])
   else [(c.addr, (n - 1) * c.step + c.width)]) ++
  (if c.valid = 0 then [] else [(c.valid, ceilDiv n 8)])

def CalView.columns (v : CalView) : List Column :=
  let b := v.bytes v.cols (32 * v.ncol)
  (List.range v.ncol).map (columnAt b)

/-- The column list can be read. -/
def CalView.listed (v : CalView) : Bool := v.s.plainRange v.cols (32 * v.ncol)

/-- VARBYTES offsets that decrease, where the offsets can be read. -/
def CalView.offsetsBad (v : CalView) (c : Column) : Bool :=
  c.isVar && v.s.plainRange c.addr (4 * (v.count + 1)) &&
    (List.range v.count).any (fun i => decide (v.offset c (i + 1) < v.offset c i))

/-- CAL_FIELD and CAL_TYPE of the column list. -/
def CalView.columnReject (v : CalView) (allowed : Column → Bool) (most : Nat) : Option (BitVec 16) :=
  if !v.listed then none
  else if v.columns.any (fun c => c.reserved || v.offsetsBad c) then some 0x0420
  else if v.columns.any (fun c => !allowed c || c.sizeBad most) then some 0x0421
  else none

/-- Ranges of the column list and of the columns. -/
def CalView.columnReads (v : CalView) : List (Nat × Nat) :=
  (v.cols, 32 * v.ncol) ::
    (if v.listed then v.columns.flatMap (fun c =>
      v.ranges v.count c (v.s.plainRange c.addr (4 * (v.count + 1)))) else [])

/-- What the checks of the column list read: the list, and the offsets of VARBYTES columns. -/
def CalView.listReads (v : CalView) : List (Nat × Nat) :=
  if v.listed then
    (v.cols, 32 * v.ncol) ::
      v.s.plainOf ((v.columns.filter (·.isVar)).map (fun c => (c.addr, 4 * (v.count + 1))))
  else []

/-- A rejection: from the block alone, or after the reads that the checks make (R424). -/
def CalView.reject (v : CalView) (block : Bool) (code : BitVec 16) (reads spoils : List (Nat × Nat)) : UnitPlan :=
  if block then .reject code else .rejectRead code (v.s.plainOf reads) (v.s.plainOf spoils)

/-- CAL_ALIGN, CAL_ADDR and CAL_OVERLAP in their order (R205). -/
def CalView.rangeReject (v : CalView) (aligned : Bool) (reads writes : List (Nat × Nat)) : Option (BitVec 16) :=
  if !aligned then some 0x0422
  else if !v.s.plainAll (reads ++ writes) then some 0x0423
  else if writes.any (fun w => reads.any (fun r => overlaps w.1 w.2 r.1 r.2)) then some 0x0424
  else none

/-- Reserved bytes and the fields no OP may set. -/
def CalView.blockBad (v : CalView) : Bool := v.cmd.field 3 1 ≠ 0 || v.cmd.field 0x38 8 ≠ 0

def maxRows : Nat := 16777216

/-- A floating-point element that is a NaN. -/
def elemNan (t b : Nat) : Bool := etypeIsFloat t && ((fmtOf t).decode b).isNan

/-- The bits of an element with −0 replaced by +0. -/
def elemPlus (t b : Nat) : Nat := if etypeIsFloat t && b = (fmtOf t).signBit then 0 else b

/-- The first rejection of a list of checks. -/
def firstOf : List (Option (BitVec 16)) → Option (BitVec 16)
  | [] => none
  | none :: xs => firstOf xs
  | some c :: _ => some c

/-- Bits as bytes, bit i at bit i mod 8 of byte i / 8. -/
def bitBytes (n : Nat) (f : Nat → Bool) : Bytes :=
  (List.range (ceilDiv n 8)).map (fun j =>
    BitVec.ofNat 8 ((List.range 8).foldl (fun a k =>
      if 8 * j + k < n && f (8 * j + k) then a + 2 ^ k else a) 0))

/-! ### HASHX (R207, R208) -/

/-- The key bytes of a column in a row, or none for a null or a NaN. -/
def CalView.keyPart (v : CalView) (i : Nat) (c : Column) : Option Bytes :=
  if !v.present c i then none
  else
    let b := v.value c i
    if c.numeric then
      if elemNan c.typ (leVal b) then none else some (leBytes c.esize (elemPlus c.typ (leVal b)))
    else if c.isVar && 1 < v.ncol then some (leBytes 4 b.length ++ b)
    else some b

/-- The key of a row. -/
def keyOfRow : List (Option Bytes) → Option Bytes
  | [] => some []
  | none :: _ => none
  | some b :: xs => (keyOfRow xs).map (b ++ ·)

/-- The output value for a key. -/
def hashOut (fn n : Nat) (seed : Nat) (key : Bytes) : Nat :=
  if fn = 2 then
    let c := (crc32c (BitVec.ofNat 32 seed) key).toNat
    if n = 0 then c else c * n / 2 ^ 32
  else
    let h := if fn = 0 then deckle64 (BitVec.ofNat 64 seed) key else xxHash64 (BitVec.ofNat 64 seed) key
    if n = 0 then h.toNat else hashReduce h n

def hashxPlan (s : State) (u : UnitCmd) : UnitPlan :=
  let v : CalView := { s := s, vat := u.core.vat, cmd := u }
  let fieldBad := v.blockBad || 3 ≤ v.flags || v.ncol = 0 || 4 < v.ncol || v.count = 0 || maxRows < v.count ||
    2 ^ 32 < v.p1
  let w := if v.p1 = 0 then 8 else 4
  let writes := (v.dst, w * v.count) :: (if v.aux = 0 then [] else [(v.aux, ceilDiv v.count 8)])
  let reads := v.columnReads
  match firstOf [if fieldBad then some 0x0420 else none, v.columnReject (fun _ => true) 1,
      v.rangeReject (v.cols % 32 = 0 && v.dst % 64 = 0) reads writes] with
  | some c => v.reject fieldBad c v.listReads writes
  | none =>
    let cs := v.columns
    let keys := (List.range v.count).map (fun i => keyOfRow (cs.map (v.keyPart i)))
    let out := keys.flatMap (fun k => leBytes w (match k with
      | none => v.p2
      | some key => hashOut v.flags v.p1 v.seed key))
    { status := if keys.any (·.isNone) then 0x0430 else 0, reads := reads,
      writes := (v.dst, out) ::
        (if v.aux = 0 then [] else [(v.aux, bitBytes v.count (fun i => (keys[i]?.getD none).isSome))]) }

/-! ### BUCKET (R209, R210) -/

/-- x is at or above the boundary b, both free of NaN. -/
def atLeast (tx x tb b : Nat) : Bool :=
  if etypeIsFloat tx then ((fmtOf tb).decode b).cmp ((fmtOf tx).decode x) != .gt
  else intVal (etypeSigned tb) (etypeBytes tb) b ≤ intVal (etypeSigned tx) (etypeBytes tx) x

/-- The boundary table breaks R210: a NaN, or a boundary not above the one before it. -/
def boundsBad (t : Nat) : List Nat → Bool
  | [] => false
  | [b] => elemNan t b
  | a :: b :: bs => elemNan t a || elemNan t b || atLeast t a t b || boundsBad t (b :: bs)

def boundaryType (t : Nat) : Nat := if etypeIsFloat t then (if t = 0xD then 0xD else 0xC) else t

def bucketPlan (s : State) (u : UnitCmd) : UnitPlan :=
  let v : CalView := { s := s, vat := u.core.vat, cmd := u }
  let nb := v.p1 % 2 ^ 16
  let tb := v.p1 / 2 ^ 16 % 256
  let fieldBad := v.blockBad || v.flags ≠ 0 || v.ncol ≠ 1 || v.count = 0 || maxRows < v.count || 2 ^ 24 ≤ v.p1 ||
    nb = 0 || 0xD < tb || v.seed ≠ 0
  let wb := etypeBytes tb
  let reads := v.columnReads ++ [(v.aux, nb * wb)]
  let c := (v.columns.head?).getD { addr := 0, valid := 0, typ := 0, len := 0, cnt := 1, stride := 0, data := 0 }
  match firstOf [if fieldBad then some 0x0420 else none, v.columnReject (·.numeric) 1,
      if v.listed && tb ≠ boundaryType c.typ then some 0x0421 else none,
      v.rangeReject (v.cols % 32 = 0 && v.dst % 64 = 0) reads [(v.dst, 4 * v.count)]] with
  | some code => v.reject fieldBad code v.listReads [(v.dst, 4 * v.count)]
  | none =>
    let table := v.bytes v.aux (nb * wb)
    let bounds := (List.range nb).map (fun j => fieldAt table (wb * j) wb)
    if boundsBad tb bounds then v.reject false 0x0425 (v.listReads ++ [(v.aux, nb * wb)]) [(v.dst, 4 * v.count)]
    else
      let xs := (List.range v.count).map (fun i =>
        let x := leVal (v.value c i)
        if v.present c i && !elemNan c.typ x then some x else none)
      let out := xs.flatMap (fun x => leBytes 4 (match x with
        | none => v.p2
        | some x => (bounds.filter (atLeast c.typ x tb)).length))
      { status := if xs.any (·.isNone) then 0x0430 else 0, reads := reads, writes := [(v.dst, out)] }

/-! ### QHIST and QPICK (R211, R212) -/

def histBytes : Nat := 524352

/-- The 32-bit key of a value that is not a NaN. -/
def histKey (t b : Nat) : Nat :=
  if t = 0x5 then b
  else if t = 0x4 then (b + 2 ^ 31) % 2 ^ 32
  else
    let x := elemPlus 0xC (if t = 0xC then b else (convert t 0xC 0 b).bits)
    if x < 2 ^ 31 then x + 2 ^ 31 else 2 ^ 32 - 1 - x

/-- What a row adds to: a bin, the NaN count or the null count. -/
def CalView.histSlot (v : CalView) (c : Column) (i : Nat) : Nat :=
  if !v.present c i then 65537
  else
    let x := leVal (v.value c i)
    if elemNan c.typ x then 65536 else histKey c.typ x / 2 ^ 16

/-- Add one to the counts named. -/
def histAdd (slots : List Nat) (old : Nat → Nat) : Bytes :=
  let tally := slots.foldl (fun (m : Assoc Nat) k => Assoc.set 0 m k (Assoc.get 0 m k + 1)) []
  (List.range 65538).flatMap (fun k => leBytes 8 (old k + Assoc.get 0 tally k))

def qhistPlan (s : State) (u : UnitCmd) : UnitPlan :=
  let v : CalView := { s := s, vat := u.core.vat, cmd := u }
  let acc := v.flags / 4 % 2 = 1
  let fieldBad := v.blockBad || !(v.flags = 0 || v.flags = 4) || v.ncol ≠ 1 || v.count = 0 || maxRows < v.count ||
    v.aux ≠ 0 || v.p1 ≠ 0 || v.p2 ≠ 0 || v.seed ≠ 0
  let reads := v.columnReads
  match firstOf [if fieldBad then some 0x0420 else none,
      v.columnReject (fun c => [0x4, 0x5, 0xA, 0xB, 0xC].contains c.typ) 1,
      v.rangeReject (v.cols % 32 = 0 && v.dst % 64 = 0) reads [(v.dst, histBytes)]] with
  | some code => v.reject fieldBad code v.listReads [(v.dst, histBytes)]
  | none =>
    let c := (v.columns.head?).getD { addr := 0, valid := 0, typ := 0, len := 0, cnt := 1, stride := 0, data := 0 }
    let slots := (List.range v.count).map (v.histSlot c)
    let old := fun k => if acc then v.nat (v.dst + 8 * k) 8 else 0
    { status := 0, reads := reads ++ (if acc then [(v.dst, histBytes)] else []),
      writes := [(v.dst, histAdd slots old ++ zeros 48)] }

/-- The boundary of a bin: its lowest key that encodes no NaN, decoded; bins of NaN keys alone give an infinity. -/
def binValue (t bin : Nat) : Nat :=
  let key := bin * 2 ^ 16
  if t = 0x5 then key
  else if t = 0x4 then (key + 2 ^ 31) % 2 ^ 32
  else if bin ≤ 0x7F then 0xFF800000
  else if 0xFF80 < bin then 0x7F800000
  else if key < 2 ^ 31 then 2 ^ 32 - 1 - key else key - 2 ^ 31

/-- The lowest bin whose cumulative count reaches a rank, from the bins left and the count so far. -/
def binOfRank (t : Nat) : Nat → Nat → List Nat → Nat
  | bin, _, [] => bin
  | bin, sum, c :: cs => if t ≤ sum + c then bin else binOfRank t (bin + 1) (sum + c) cs

def decreasing : List Nat → Bool
  | a :: b :: xs => b < a || decreasing (b :: xs)
  | _ => false

/-- Equal consecutive values written once. -/
def onceEach : List Nat → List Nat
  | a :: b :: xs => if a = b then onceEach (b :: xs) else a :: onceEach (b :: xs)
  | xs => xs

def qpickPlan (s : State) (u : UnitCmd) : UnitPlan :=
  let v : CalView := { s := s, vat := u.core.vat, cmd := u }
  let t := v.p1 % 256
  let fieldBad := v.blockBad || v.flags ≠ 0 || v.ncol ≠ 0 || v.count = 0 || 65535 < v.count || 256 ≤ v.p1 ||
    !([0x4, 0x5, 0xC].contains t) || v.p2 ≠ 0 || v.seed ≠ 0
  let reads := [(v.cols, histBytes), (v.aux, 8 * v.count)]
  let readable := s.plainAll reads
  let hist := v.bytes v.cols 524288
  let counts := (List.range 65536).map (fun k => fieldAt hist (8 * k) 8)
  let n := counts.foldl (· + ·) 0
  let list := v.bytes v.aux (8 * v.count)
  let ranks := (List.range v.count).map (fun j => fieldAt list (8 * j) 8)
  let ranksBad := readable && n ≠ 0 && (ranks.any (fun r => r = 0 || n < r) || decreasing ranks)
  let bounds := if n = 0 then [] else ranks.map (fun r => binValue t (binOfRank r 0 0 counts))
  let kept := onceEach bounds
  let out := leBytes 4 kept.length ++ zeros 60 ++ kept.flatMap (leBytes 4)
  if fieldBad then .reject 0x0420
  else if ranksBad then v.reject false 0x0420 reads [(v.dst, 64 + 4 * v.count)]
  else match v.rangeReject (v.dst % 64 = 0) reads (if readable then [(v.dst, out.length)] else []) with
    | some code => v.reject false code reads [(v.dst, 64 + 4 * v.count)]
    | none =>
      { status := if n = 0 then 0x0432 else if kept.length < bounds.length then 0x0433 else 0, reads := reads,
        writes := [(v.dst, out)] }

/-! ### Row layouts (R213 to R215) -/

structure LayoutField where
  off  : Nat
  col  : Nat
  typ  : Nat
  cnt  : Nat
  vbit : Nat
deriving DecidableEq, Repr

structure Layout where
  rowBytes : Nat
  nfield   : Nat
  validOff : Nat
  number   : Nat
  fields   : List LayoutField
deriving DecidableEq, Repr

def layoutField (b : Bytes) (j : Nat) : LayoutField :=
  let o := 0x10 + 8 * j
  { off := fieldAt b o 2, col := fieldAt b (o + 2) 1, typ := fieldAt b (o + 3) 1, cnt := fieldAt b (o + 4) 2,
    vbit := fieldAt b (o + 6) 1 }

/-- A layout record and its field entries, at most 256; reserved bytes are ignored (R4). -/
def layoutOf (b : Bytes) : Layout :=
  let n := fieldAt b 2 2
  { rowBytes := fieldAt b 0 2, nfield := n, validOff := fieldAt b 4 2, number := fieldAt b 6 2,
    fields := (List.range (if n ≤ 256 then n else 256)).map (layoutField b) }

/-- ROW_BYTES and NFIELD within Table 8.4. -/
def Layout.sizesGood (l : Layout) : Bool :=
  64 ≤ l.rowBytes && l.rowBytes ≤ 16384 && l.rowBytes % 64 = 0 && 1 ≤ l.nfield && l.nfield ≤ 256

def LayoutField.esize (f : LayoutField) : Nat := if f.typ = typeBytes then 1 else etypeBytes f.typ
def LayoutField.bytes (f : LayoutField) : Nat := f.esize * f.cnt

/-- Offsets aligned to the element size, and the validity word to 8 (Tables 8.4, 8.5). -/
def Layout.aligned (l : Layout) : Bool :=
  (l.validOff = 0xFFFF || l.validOff % 8 = 0) &&
    l.fields.all (fun f => f.esize = 0 || f.off % f.esize = 0)

/-- Places of the fields and of the validity word. -/
def Layout.places (l : Layout) : List (Nat × Nat) :=
  l.fields.map (fun f => (f.off, f.bytes)) ++ (if l.validOff = 0xFFFF then [] else [(l.validOff, 8)])

def overlapAny : List (Nat × Nat) → Bool
  | [] => false
  | p :: ps => ps.any (fun q => overlaps p.1 p.2 q.1 q.2) || overlapAny ps

def repeats : List Nat → Bool
  | [] => false
  | a :: as => as.contains a || repeats as

/-- A layout that breaks R215 but for its column references. -/
def Layout.bad (l : Layout) : Bool :=
  !l.sizesGood || l.fields.any (fun f => !(f.typ ≤ 0xD || f.typ = typeBytes) || f.cnt = 0 || 4096 < f.cnt || !(f.vbit < 64 || f.vbit = 0xFF)) ||
    l.places.any (fun p => l.rowBytes < p.1 + p.2) || overlapAny l.places ||
    repeats ((l.fields.filter (fun f => f.vbit ≠ 0xFF)).map (·.vbit))

/-- A field that breaks R214 on the columns of a command. -/
def LayoutField.colBad (f : LayoutField) (cs : List Column) : Bool :=
  match cs[f.col]? with
  | none => true
  | some c => if f.typ = typeBytes then c.numeric else !c.numeric || f.cnt ≠ c.cnt

/-! ### ASSEMBLE (R214) -/

/-- Elements of a numeric value, converted where the row type differs; else copied, a NaN's bits too (DESIGN CHOICE,
log entry 157). -/
def convertAll (tc tr w n : Nat) (b : Bytes) : Bytes :=
  (List.range n).flatMap (fun k =>
    let x := fieldAt b (w * k) w
    leBytes (etypeBytes tr) (if tc = tr then x else (convert tc tr 0 x).bits))

/-- The bytes of a field in a row, and whether a value was cut; null values are zeros. -/
def CalView.fieldBytes (v : CalView) (cs : List Column) (i : Nat) (f : LayoutField) : Bytes × Bool :=
  match cs[f.col]? with
  | none => (zeros f.bytes, false)
  | some c =>
    if !v.present c i then (zeros f.bytes, false)
    else
      let b := v.value c i
      if f.typ = typeBytes then (b.take f.cnt ++ zeros (f.cnt - b.length), f.cnt < b.length)
      else (convertAll c.typ f.typ c.esize f.cnt b, false)

/-- The validity word of a row. -/
def CalView.validWord (v : CalView) (cs : List Column) (l : Layout) (i : Nat) : Nat :=
  l.fields.foldl (fun a f => match cs[f.col]? with
    | some c => if f.vbit ≠ 0xFF && v.present c i then a + 2 ^ f.vbit else a
    | none => a) 0

/-- A row. -/
def CalView.rowOf (v : CalView) (cs : List Column) (l : Layout) (i : Nat) : Bytes :=
  let row := l.fields.foldl (fun r f => putAt r f.off (v.fieldBytes cs i f).1) (zeros l.rowBytes)
  if l.validOff = 0xFFFF then row else putAt row l.validOff (leBytes 8 (v.validWord cs l i))

def assemblePlan (s : State) (u : UnitCmd) : UnitPlan :=
  let v : CalView := { s := s, vat := u.core.vat, cmd := u }
  let fieldBad := v.blockBad || v.flags ≠ 0 || v.ncol = 0 || 64 < v.ncol || v.count = 0 || 65536 < v.count ||
    v.p1 ≠ 0 || v.p2 ≠ 0 || v.seed ≠ 0
  let head := s.plainRange v.aux 16
  let n := if head then (let k := v.nat (v.aux + 2) 2; if k ≤ 256 then k else 256) else 0
  let whole := head && s.plainRange v.aux (16 + 8 * n)
  let l := layoutOf (if whole then v.bytes v.aux (16 + 8 * n) else [])
  let reads := v.columnReads ++ [(v.aux, 16 + 8 * n)]
  let writes := if whole then [(v.dst, v.count * l.rowBytes)] else []
  let cs := v.columns
  match firstOf [if fieldBad then some 0x0420 else none, v.columnReject (fun _ => true) 4096,
      v.rangeReject (v.cols % 32 = 0 && v.dst % 64 = 0 && (!whole || l.aligned)) reads writes,
      if l.bad || l.fields.any (fun f => f.colBad cs) then some 0x0426 else none] with
  | some code => v.reject fieldBad code (v.listReads ++ [(v.aux, 16 + 8 * n)]) writes
  | none =>
    let rows := List.range v.count
    { status := if rows.any (fun i => l.fields.any (fun f => (v.fieldBytes cs i f).2)) then 0x0431 else 0,
      reads := reads, writes := [(v.dst, rows.flatMap (v.rowOf cs l))] }

/-! ### SEAL (R216 to R218) -/

structure BatchPlan where
  list  : Nat
  rows  : Nat
  total : Nat
deriving DecidableEq, Repr

/-- The layout of a batch (R216). -/
def batchPlan (rows cap rowBytes : Nat) : BatchPlan :=
  let lo := 0x100 + roundUpTo (ceilDiv rows 8) 64
  let ro := lo + roundUpTo (16 * cap) 64
  { list := lo, rows := ro, total := ro + rows * rowBytes }

/-- A broke record (R159) with the row it attaches to. -/
structure Attachment where
  ordinal : Nat
  count   : Nat
  code    : Nat
  row     : Nat
  rsv     : Nat
deriving DecidableEq, Repr

def attachmentAt (b : Bytes) (j : Nat) : Attachment :=
  let o := 24 * j
  { ordinal := fieldAt b o 8, count := fieldAt b (o + 8) 4, code := fieldAt b (o + 0xC) 2, row := fieldAt b (o + 0x10) 4,
    rsv := fieldAt b (o + 0xE) 2 + fieldAt b (o + 0x14) 4 }

/-- Records by ORDINAL: equal ordinals keep the lower CODE, then the lower COUNT. -/
def attachInsert (a : Attachment) : List Attachment → List Attachment
  | [] => [a]
  | b :: bs =>
    if a.ordinal < b.ordinal then a :: b :: bs
    else if a.ordinal = b.ordinal then
      (if a.code < b.code || (a.code = b.code && a.count < b.count) then a else b) :: bs
    else b :: attachInsert a bs

/-- Two records of one ORDINAL differ. -/
def attachConflict (xs : List Attachment) : Bool :=
  xs.any (fun a => xs.any (fun b => a.ordinal = b.ordinal && (a.code ≠ b.code || a.count ≠ b.count)))

def Attachment.bytes (a : Attachment) : Bytes := leBytes 8 a.ordinal ++ leBytes 4 a.count ++ leBytes 2 a.code ++ zeros 2

/-- What the Headbox stamped on the sealing item (R217). -/
structure SealStamp where
  job   : Nat
  flow  : Nat
  batch : Nat
  due   : Nat
  lead  : Nat
  grade : Nat
  seed  : Nat
  last  : Bool
  place : Bool
  repro : Bool
deriving DecidableEq, Repr

/-- The stamp of a command's item; a command of firmware has none and reads as zeros. -/
def State.sealStamp (s : State) (u : UnitCmd) : SealStamp :=
  match u.item.bind s.item? with
  | none => { job := 0, flow := 0, batch := 0, due := 0, lead := 0, grade := 0, seed := 0, last := false, place := false,
              repro := false }
  | some it =>
    let (seed, due, lead) := match s.flow? it.key.flow with
      | some (j, f) => (j.seed.toNat, (f.decl.dueBase + it.key.seq.toNat * f.decl.dueStep) % 2 ^ 48, f.decl.lead)
      | none => (0, 0, 0)
    { job := it.job.toNat, flow := it.key.flow.toNat, batch := it.key.seq.toNat, due := due, lead := lead,
      grade := it.grade.toNat, seed := seed, last := it.last,
      place := s.gradeIn (s.stampedOverlay it.grade it.gradeRev) 0x400003 0 = 1, repro := it.reproducible }

/-- The header but for its CRC (Table 8.6). -/
def SealStamp.header (t : SealStamp) (rows nbroke nlist : Nat) (trunc : Bool) (p : BatchPlan) (l : Layout) : Bytes :=
  record 256
    [(0x00, 4, 0x31425644), (0x04, 2, 1),
     (0x06, 2, (if t.last then 8 else 0) + (if trunc then 4 else 0) + (if t.place then 2 else 0) +
       (if t.repro then 1 else 0)),
     (0x08, 8, t.job), (0x10, 4, t.flow), (0x14, 4, rows), (0x18, 8, t.batch), (0x20, 8, t.due), (0x28, 4, t.lead),
     (0x2C, 4, l.rowBytes), (0x30, 4, nbroke), (0x34, 4, nlist), (0x38, 4, 0x100), (0x3C, 4, p.list),
     (0x40, 4, p.rows), (0x44, 4, p.total), (0x48, 4, Config.rowsem.toNat), (0x4C, 2, l.number), (0x4E, 1, t.grade),
     (0x50, 8, t.seed)]

/-- BROKE_LIST_CAP. -/
def State.listCap (s : State) : Nat := s.furn 0x442001 1024

def sealPlan (s : State) (u : UnitCmd) : UnitPlan :=
  let v : CalView := { s := s, vat := u.core.vat, cmd := u }
  let rows := v.p1
  let cap := s.listCap
  let blockBad := v.blockBad || v.flags ≠ 0 || v.ncol ≠ 0 || 1048576 < v.count || (v.count = 0 && v.cols ≠ 0) ||
    rows = 0 || 1048576 < rows || v.p2 ≠ 0 || v.seed ≠ 0
  let listable := s.plainRange v.cols (24 * v.count)
  let b := if listable then v.bytes v.cols (24 * v.count) else []
  let xs := if listable then (List.range v.count).map (attachmentAt b) else []
  let entryBad := xs.any (fun a => a.rsv ≠ 0 || !(a.row < rows || a.row = 0xFFFFFFFF))
  let head := s.plainRange v.aux 16
  let l := layoutOf (if head then v.bytes v.aux 16 else [])
  let p := batchPlan rows cap (if l.sizesGood then l.rowBytes else 0)
  let rowRange := (v.dst + p.rows, p.total - p.rows)
  let reads := [(v.cols, 24 * v.count), (v.aux, 16), rowRange]
  match firstOf [if blockBad || entryBad then some 0x0420 else none,
      v.rangeReject (v.dst % 64 = 0) reads [(v.dst, p.rows)],
      if !l.sizesGood then some 0x0426 else none] with
  | some code => v.reject blockBad code [(v.cols, 24 * v.count), (v.aux, 16)] [(v.dst, p.rows)]
  | none =>
    let recs := xs.foldl (fun acc a => attachInsert a acc) []
    let kept := recs.take cap
    let trunc := cap < recs.length
    let bitmap := bitBytes rows (fun r => xs.any (fun a => a.row = r))
    let body := bitmap ++ zeros (p.list - 0x100 - bitmap.length) ++ kept.flatMap Attachment.bytes ++
      zeros (p.rows - p.list - 16 * kept.length)
    let head := ((s.sealStamp u).header rows recs.length kept.length trunc p l).take 0xFC
    let crc := crc32c 0 (head ++ body ++ v.bytes rowRange.1 rowRange.2)
    { status := if attachConflict xs then 0x0434 else if trunc then 0x0435 else 0, reads := reads,
      writes := [(v.dst + 0x100, body), (v.dst, head ++ leBytes 4 crc.toNat)] }

/-! ### The rows -/

/-- CAL_COMMANDS. -/
def calTally (_ : UnitPlan) (s : State) : State := s.bump 0x442002 1

/-- BATCHES_SEALED with CAL_COMMANDS: a batch is sealed when the command wrote it. -/
def sealTally (p : UnitPlan) (s : State) : State :=
  if p.status = 0 || p.status = 0x0434 || p.status = 0x0435 then (calTally p s).bump 0x442003 1 else calTally p s

/-- HASHX (R207). -/
def execHashx (vat : BitVec 6) (s : State) : Host.Outcome State Fault Refusal :=
  runUnitTally 1 vat.toNat 1 true hashxPlan calTally s

/-- BUCKET (R209). -/
def execBucket (vat : BitVec 6) (s : State) : Host.Outcome State Fault Refusal :=
  runUnitTally 1 vat.toNat 2 true bucketPlan calTally s

/-- QHIST (R211). -/
def execQhist (vat : BitVec 6) (s : State) : Host.Outcome State Fault Refusal :=
  runUnitTally 1 vat.toNat 3 true qhistPlan calTally s

/-- QPICK (R212). -/
def execQpick (vat : BitVec 6) (s : State) : Host.Outcome State Fault Refusal :=
  runUnitTally 1 vat.toNat 4 true qpickPlan calTally s

/-- ASSEMBLE (R214). -/
def execAssemble (vat : BitVec 6) (s : State) : Host.Outcome State Fault Refusal :=
  runUnitTally 1 vat.toNat 5 true assemblePlan calTally s

/-- SEAL (R218). -/
def execSeal (vat : BitVec 6) (s : State) : Host.Outcome State Fault Refusal :=
  runUnitTally 1 vat.toNat 6 true sealPlan sealTally s

end Sys2Proof.Machine
end

