-- ==== Sys2Proof/Machine/CoreEvents.lean ====
section
/-! DEFINITION. Pre-emption requests (R67 to R70) and run-ahead (R64 to R66). -/

namespace Sys2Proof.Machine

open Sys2Proof

/-- PREEMPT_REQUEST (R67, R285): the core runs a class B item that can be pre-empted, the named class A item waits for
a core, the module is in PUSH, and CLASSA_PREEMPT_MAX leaves room; otherwise nothing happens. Run-ahead work is
discarded. -/
def execPreemptRequest (c : CoreId) (flow : BitVec 20) (seq : BitVec 40) (s : State) :
    Host.Outcome State Fault Refusal :=
  match s.item? { flow := flow, seq := seq }, s.preemptable c with
  | some it, some b =>
    if (s.victimOf it c).isSome && it.cls = 0 && (it.phase = .created || it.phase = .queued) && !s.hb.pull && s.preemptRoom then
      .next (s.preempt it b c)
    else .next s
  | _, _ => .next s

/-- RUNAHEAD_CYCLES (R64): 0 is off. -/
def State.runaheadCycles (s : State) : Nat := s.furn 0x340001 32

/-- RUNAHEAD_ENTRY (R64): a word has waited longer than the threshold for data. -/
def execRunaheadEntry (c : CoreId) (waited : Nat) (s : State) : Host.Outcome State Fault Refusal :=
  let k := s.core c
  let t := s.runaheadCycles
  if k.active && k.finishing.isNone && t ≠ 0 && decide (t < waited) then .next (s.setCore c { k with runahead := true })
  else .next s

/-- RUNAHEAD_EXIT (R66): the awaited data has arrived; run-ahead leaves no trace in the core (R62). -/
def execRunaheadExit (c : CoreId) (s : State) : Host.Outcome State Fault Refusal :=
  let k := s.core c
  if k.runahead then .next (s.setCore c { k with runahead := false }) else .next s

end Sys2Proof.Machine
end

