-- ==== Sys2Proof/Machine/Inflate.lean ====
section
/-! DEFINITION. Decompression of DEFLATE, zlib and gzip (Table 6.6) and the record all decompressors keep. The formats are those of
RFC 1951, RFC 1950 and RFC 1952, which the spec cites and does not state (PRESUMED, log entry 178). -/

namespace Sys2Proof.Machine

open Sys2Proof

/-! ### What a decompressor meets, in its fixed processing order (R155); what each thing costs and which code it is answered with is
the engines' (Tables 6.6, 6.11, 6.13) -/

/-- A defect of Table 6.13 in the bytes of a sample, page or batch. -/
inductive Defect
  | wrapHeader | wrapData | wrapChecksum | wrapTruncated
  | jpegMarker | jpegHuffman | jpegRestart | jpegScan | jpegTruncated
  | pageHeader | pageEncoding | pageData | pageCrc | pageCount
  | arrowMessage | arrowUnsupported | arrowBounds
deriving DecidableEq, Repr, Inhabited

/-- What a decompressor meets: a block or frame header, input bytes, output bytes, and the features of Table 6.6: a preset
dictionary (FDICT, or a Dictionary ID other than 0), a gzip compression method, a Zstandard window size, the LZ4 legacy frame and
the Snappy framing format. -/
inductive WrapStep
  | header
  | input (n : Nat)
  | output (b : Bytes)
  | dictionary
  | method (cm : Nat)
  | window (n : Nat)
  | legacy
  | framing
  | bad (d : Defect)
deriving DecidableEq, Repr, Inhabited

/-! ### A decompressor at work -/

/-- A decompressor: input left, bits left of the byte it is in (least significant first), output and steps so far (newest first),
how much of the output no copy reaches any more (an earlier member or frame), and whether a defect or a feature outside the subset has
ended it. -/
structure Unwrap where
  rest  : Bytes
  bits  : List Bool
  out   : Bytes
  steps : List WrapStep
  past  : Nat
  ended : Bool
deriving DecidableEq, Repr

def Unwrap.start (b : Bytes) : Unwrap := { rest := b, bits := [], out := [], steps := [], past := 0, ended := false }

/-- A new member, frame or independent block begins: copies do not reach behind it. -/
def Unwrap.fresh (u : Unwrap) : Unwrap := { u with past := u.out.length }

/-- The output since then, oldest first. -/
def Unwrap.latest (u : Unwrap) : Bytes := (u.out.take (u.out.length - u.past)).reverse

/-- What it met, in order. -/
def Unwrap.met (u : Unwrap) : List WrapStep := u.steps.reverse

def Unwrap.note (w : WrapStep) (u : Unwrap) : Unwrap := if u.ended then u else { u with steps := w :: u.steps }

/-- End with a step when a condition holds. -/
def Unwrap.stopIf (c : Bool) (w : WrapStep) (u : Unwrap) : Unwrap :=
  if u.ended || !c then u else { u with steps := w :: u.steps, ended := true }

def Unwrap.stop (w : WrapStep) (u : Unwrap) : Unwrap := u.stopIf true w

/-- Output bytes, oldest first. -/
def Unwrap.emit (b : Bytes) (u : Unwrap) : Unwrap :=
  if u.ended || b.isEmpty then u else { u with out := b.reverse ++ u.out, steps := .output b :: u.steps }

/-- The next `n` whole bytes; the rest of a byte begun is dropped. -/
def Unwrap.take (n : Nat) (u : Unwrap) : Bytes × Unwrap :=
  let b := u.rest.take n
  if u.ended then ([], u)
  else if b.length < n then
    (b, { u with rest := [], bits := [], steps := .bad .wrapTruncated :: .input b.length :: u.steps, ended := true })
  else (b, { u with rest := u.rest.drop n, bits := [], steps := if n = 0 then u.steps else .input n :: u.steps })

/-- An `n`-byte number, least significant byte first. -/
def Unwrap.le (n : Nat) (u : Unwrap) : Nat × Unwrap :=
  let r := u.take n
  (leVal r.1, r.2)

def byteBits (b : BitVec 8) : List Bool := (List.range 8).map b.getLsbD

/-- The next bit; an input byte is consumed with its first bit. -/
def Unwrap.bit (u : Unwrap) : Nat × Unwrap :=
  if u.ended then (0, u)
  else match u.bits with
    | b :: bs => (b.toNat, { u with bits := bs })
    | [] => match u.rest with
      | [] => (0, u.stop (.bad .wrapTruncated))
      | x :: xs => ((x.getLsbD 0).toNat, { u with rest := xs, bits := (byteBits x).drop 1, steps := .input 1 :: u.steps })

/-- A field of `n` bits, least significant first. -/
def Unwrap.field : Nat → Unwrap → Nat × Unwrap
  | 0, u => (0, u)
  | n + 1, u =>
    let b := u.bit
    let r := Unwrap.field n b.2
    (b.1 + 2 * r.1, r.2)

/-- `n` fields of `w` bits. -/
def Unwrap.fields (w : Nat) : Nat → Unwrap → List Nat × Unwrap
  | 0, u => ([], u)
  | n + 1, u =>
    let b := u.field w
    let r := Unwrap.fields w n b.2
    (b.1 :: r.1, r.2)

/-- `n` bytes copied from `d` bytes back, one by one, so that a copy may run into its own output; newest first. -/
def backCopy (d : Nat) : Nat → Bytes → Bytes
  | 0, out => out
  | n + 1, out => backCopy d n (out[d - 1]?.getD 0 :: out)

/-- Output a match: `n` bytes from `d` bytes back, of at most the `most` newest; another distance is a defect. -/
def Unwrap.copy (d n most : Nat) (u : Unwrap) : Unwrap :=
  let u := u.stopIf (d = 0 || most < d || u.out.length < u.past + d) (.bad .wrapData)
  if u.ended then u else u.emit ((backCopy d n u.out).take n).reverse

/-! ### Canonical prefix codes -/

/-- A canonical code: how many codes have each length from 1 on, and the symbols in order of code. -/
structure PrefixCode where
  counts : List Nat
  syms   : List Nat
deriving DecidableEq, Repr

/-- The code of a list of code lengths (0: the symbol has no code) up to `most`. -/
def prefixCode (most : Nat) (lens : List Nat) : PrefixCode :=
  let of := fun l => (List.range lens.length).filter (fun s => lens[s]?.getD 0 = l)
  { counts := (List.range most).map (fun l => (of (l + 1)).length), syms := (List.range most).flatMap (fun l => of (l + 1)) }

/-- Codes of a length leave fewer than none for the longer ones: `free` are left at the length before. -/
def overfull : Nat → List Nat → Bool
  | _, [] => false
  | free, c :: cs => if 2 * free < c then true else overfull (2 * free - c) cs

def PrefixCode.bad (p : PrefixCode) : Bool := overfull 1 p.counts

/-- The next symbol of a code; a bit string that is no code is a defect. -/
def Unwrap.symFrom (syms : List Nat) : List Nat → Nat → Nat → Nat → Unwrap → Nat × Unwrap
  | [], _, _, _, u => (0, u.stop (.bad .wrapData))
  | c :: cs, code, first, index, u =>
    let b := u.bit
    let code := code + b.1
    if code < first + c then
      match syms[index + (code - first)]? with
      | some s => (s, b.2)
      | none => (0, b.2.stop (.bad .wrapData))
    else Unwrap.symFrom syms cs (2 * code) (2 * (first + c)) (index + c) b.2

def Unwrap.sym (p : PrefixCode) (u : Unwrap) : Nat × Unwrap := Unwrap.symFrom p.syms p.counts 0 0 0 u

/-! ### DEFLATE (RFC 1951) -/

/-- Base and extra bits of length code 257 + k. -/
def lengthCode (k : Nat) : Nat × Nat :=
  if k < 8 then (3 + k, 0) else if k = 28 then (258, 0) else ((4 + k % 4) * 2 ^ (k / 4 - 1) + 3, k / 4 - 1)

/-- Base and extra bits of distance code k. -/
def distCode (k : Nat) : Nat × Nat := if k < 4 then (k + 1, 0) else ((2 + k % 2) * 2 ^ (k / 2 - 1) + 1, k / 2 - 1)

/-- The window of DEFLATE (Table 6.6). -/
def deflateWindow : Nat := 32768

/-- Symbols of a block up to the end-of-block code. -/
def Unwrap.codes (lit dist : PrefixCode) : Nat → Unwrap → Unwrap
  | 0, u => u
  | fuel + 1, u =>
    let r := u.sym lit
    if r.2.ended || r.1 = 256 then r.2
    else if r.1 < 256 then Unwrap.codes lit dist fuel (r.2.emit [BitVec.ofNat 8 r.1])
    else
      let u := r.2.stopIf (285 < r.1) (.bad .wrapData)
      let l := lengthCode (r.1 - 257)
      let lx := u.field l.2
      let ds := lx.2.sym dist
      let u := ds.2.stopIf (29 < ds.1) (.bad .wrapData)
      let d := distCode ds.1
      let dx := u.field d.2
      let u := dx.2.copy (d.1 + dx.1) (l.1 + lx.1) deflateWindow
      if u.ended then u else Unwrap.codes lit dist fuel u

/-- Code lengths of a dynamic block, newest first, up to `total`. -/
def Unwrap.lengths (p : PrefixCode) (total : Nat) : Nat → List Nat → Unwrap → List Nat × Unwrap
  | 0, ls, u => (ls, u)
  | fuel + 1, ls, u =>
    if u.ended || total ≤ ls.length then (ls, u.stopIf (total < ls.length) (.bad .wrapData))
    else
      let r := u.sym p
      if r.1 < 16 then Unwrap.lengths p total fuel (r.1 :: ls) r.2
      else if r.1 = 16 then
        let n := (r.2.stopIf ls.isEmpty (.bad .wrapData)).field 2
        Unwrap.lengths p total fuel (List.replicate (3 + n.1) (ls.head?.getD 0) ++ ls) n.2
      else
        let n := r.2.field (if r.1 = 17 then 3 else 7)
        Unwrap.lengths p total fuel (List.replicate ((if r.1 = 17 then 3 else 11) + n.1) 0 ++ ls) n.2

/-- The order of the code lengths of the code length code. -/
def codeLengthOrder : List Nat := [16, 17, 18, 0, 8, 7, 9, 6, 10, 5, 11, 4, 12, 3, 13, 2, 14, 1, 15]

/-- A block with fixed codes. -/
def Unwrap.fixed (u : Unwrap) : Unwrap :=
  let lit := List.replicate 144 8 ++ List.replicate 112 9 ++ List.replicate 24 7 ++ List.replicate 8 8
  Unwrap.codes (prefixCode 15 lit) (prefixCode 15 (List.replicate 30 5)) (8 * u.rest.length + 8) u

/-- A block with codes of its own. -/
def Unwrap.dynamic (u : Unwrap) : Unwrap :=
  let hlit := u.field 5
  let hdist := hlit.2.field 5
  let hclen := hdist.2.field 4
  let cl := (hclen.2.stopIf (29 < hlit.1) (.bad .wrapData)).fields 3 (hclen.1 + 4)
  let p := prefixCode 7 ((List.range 19).map (fun s => cl.1[codeLengthOrder.idxOf s]?.getD 0))
  let total := hlit.1 + 257 + (hdist.1 + 1)
  let ls := Unwrap.lengths p total (total + 1) [] (cl.2.stopIf p.bad (.bad .wrapData))
  let lens := ls.1.reverse
  let lit := prefixCode 15 (lens.take (hlit.1 + 257))
  let dist := prefixCode 15 (lens.drop (hlit.1 + 257))
  let u := ls.2.stopIf (lit.bad || dist.bad) (.bad .wrapData)
  if u.ended then u else Unwrap.codes lit dist (8 * u.rest.length + 8) u

/-- A stored block: LEN and its complement on a byte boundary. -/
def Unwrap.stored (u : Unwrap) : Unwrap :=
  let len := u.le 2
  let inv := len.2.le 2
  let b := (inv.2.stopIf (len.1 + inv.1 ≠ 0xFFFF) (.bad .wrapData)).take len.1
  b.2.emit b.1

/-- Blocks up to the final one; the input counts as ended there (Table 6.6). -/
def Unwrap.inflate : Nat → Unwrap → Unwrap
  | 0, u => u
  | fuel + 1, u =>
    let final := (u.note .header).bit
    let kind := final.2.field 2
    let u := kind.2.stopIf (kind.1 = 3) (.bad .wrapData)
    let u := if u.ended then u else if kind.1 = 0 then u.stored else if kind.1 = 1 then u.fixed else u.dynamic
    if u.ended || final.1 = 1 then u else Unwrap.inflate fuel u

/-- DEFLATE from the next byte on. -/
def Unwrap.deflate (u : Unwrap) : Unwrap := Unwrap.inflate (8 * u.rest.length + 8) u

/-! ### zlib (RFC 1950) -/

/-- Adler-32. -/
def adler32 (b : Bytes) : Nat :=
  let r := b.foldl (fun (r : Nat × Nat) x => ((r.1 + x.toNat) % 65521, (r.2 + r.1 + x.toNat) % 65521)) (1, 0)
  r.2 * 65536 + r.1

/-- Numbers with the most significant byte first. -/
def beVal (b : Bytes) : Nat := leVal b.reverse

def unwrapZlib (b : Bytes) : Unwrap :=
  let h := ((Unwrap.start b).note .header).take 2
  let cmf := fieldAt h.1 0 1
  let flg := fieldAt h.1 1 1
  let u := (h.2.stopIf (cmf % 16 ≠ 8 || 7 < cmf / 16 || (256 * cmf + flg) % 31 ≠ 0) (.bad .wrapHeader)).stopIf
    (flg / 32 % 2 = 1) .dictionary
  let u := if u.ended then u else u.deflate
  let sum := u.take 4
  sum.2.stopIf (beVal sum.1 ≠ adler32 u.out.reverse) (.bad .wrapChecksum)

/-! ### gzip (RFC 1952) -/

def crc32Bit : Nat → BitVec 32 → BitVec 32
  | 0, r => r
  | n + 1, r => crc32Bit n (if r.getLsbD 0 then (r >>> 1) ^^^ 0xEDB88320#32 else r >>> 1)

/-- CRC-32 of ISO 3309, as gzip and Parquet have it. -/
def crc32 (b : Bytes) : Nat :=
  ((b.foldl (fun r x => crc32Bit 8 (r ^^^ x.setWidth 32)) 0xFFFFFFFF#32) ^^^ 0xFFFFFFFF#32).toNat

/-- The bytes of a string with its closing zero. -/
def zeroString : Bytes → Nat
  | [] => 1
  | x :: xs => if x = 0 then 1 else zeroString xs + 1

/-- The header of a member: magic, CM, flags, and the optional fields that are skipped. -/
def Unwrap.gzipHeader (u : Unwrap) : Unwrap :=
  let all := u.rest
  let id := (u.note .header).take 2
  let cm := (id.2.stopIf (id.1 ≠ [0x1F, 0x8B]) (.bad .wrapHeader)).le 1
  let flg := (cm.2.stopIf (cm.1 ≠ 8) (.method cm.1)).le 1
  let bit := fun k => flg.1 / 2 ^ k % 2 = 1
  let u := ((flg.2.stopIf (32 ≤ flg.1) (.bad .wrapHeader)).take 6).2
  let u := if bit 2 then
      let n := u.le 2
      (n.2.take n.1).2
    else u
  let u := if bit 3 then (u.take (zeroString u.rest)).2 else u
  let u := if bit 4 then (u.take (zeroString u.rest)).2 else u
  if bit 1 then
    let sum := u.le 2
    sum.2.stopIf (sum.1 ≠ crc32 (all.take (all.length - u.rest.length)) % 65536) (.bad .wrapChecksum)
  else u

/-- Members in turn to the end of the input. -/
def Unwrap.members : Nat → Unwrap → Unwrap
  | 0, u => u
  | fuel + 1, u =>
    let h := u.fresh.gzipHeader
    let d := if h.ended then h else h.deflate
    let data := d.latest
    let crc := d.le 4
    let size := (crc.2.stopIf (crc.1 ≠ crc32 data) (.bad .wrapChecksum)).le 4
    let u := size.2.stopIf (size.1 ≠ data.length % 2 ^ 32) (.bad .wrapChecksum)
    if u.ended || u.rest.isEmpty then u else Unwrap.members fuel u

def unwrapGzip (b : Bytes) : Unwrap := Unwrap.members (b.length + 1) (Unwrap.start b)

end Sys2Proof.Machine
end

