-- ==== Sys2Proof/Machine/Lz4.lean ====
section
/-! DEFINITION. Decompression of LZ4 frames and raw Snappy (Table 6.6). The formats are those of the LZ4 frame and block formats, of
xxHash32 and of the Snappy format, which the spec cites and does not state (PRESUMED, log entry 178). -/

namespace Sys2Proof.Machine

open Sys2Proof

/-! ### xxHash32 -/

def xx32P1 : BitVec 32 := 0x9E3779B1
def xx32P2 : BitVec 32 := 0x85EBCA77
def xx32P3 : BitVec 32 := 0xC2B2AE3D
def xx32P4 : BitVec 32 := 0x27D4EB2F
def xx32P5 : BitVec 32 := 0x165667B1

def xx32Word (b : Bytes) (off : Nat) : BitVec 32 := BitVec.ofNat 32 (fieldAt b off 4)

def xx32Round (acc lane : BitVec 32) : BitVec 32 := (acc + lane * xx32P2).rotateLeft 13 * xx32P1

/-- The four accumulators over whole 16-byte stripes; what is left of the string. -/
def xx32Stripes : Nat → List (BitVec 32) → Bytes → List (BitVec 32) × Bytes
  | 0, v, b => (v, b)
  | fuel + 1, v, b =>
    if (b.take 16).length < 16 then (v, b)
    else xx32Stripes fuel (List.zipWith xx32Round v ([0, 4, 8, 12].map (xx32Word b))) (b.drop 16)

def xx32Tail : Nat → BitVec 32 → Bytes → BitVec 32
  | 0, h, _ => h
  | fuel + 1, h, b =>
    if 4 ≤ b.length then xx32Tail fuel ((h + xx32Word b 0 * xx32P3).rotateLeft 17 * xx32P4) (b.drop 4)
    else match b with
      | [] => h
      | x :: xs => xx32Tail fuel ((h + x.setWidth 32 * xx32P5).rotateLeft 11 * xx32P1) xs

/-- xxHash32 with seed 0. -/
def xxHash32 (m : Bytes) : Nat :=
  let r := xx32Stripes m.length [xx32P1 + xx32P2, xx32P2, 0, 0 - xx32P1] m
  let h := if m.length < 16 then xx32P5
    else (List.zipWith (fun (v : BitVec 32) n => v.rotateLeft n) r.1 [1, 7, 12, 18]).foldl (· + ·) 0
  let h := xx32Tail m.length (h + BitVec.ofNat 32 m.length) r.2
  let h := (h ^^^ (h >>> 15)) * xx32P2
  let h := (h ^^^ (h >>> 13)) * xx32P3
  (h ^^^ (h >>> 16)).toNat

/-! ### LZ4 blocks -/

/-- A length that goes on in bytes after the 15 of its nibble: the length, and the bytes left of the block. -/
def lz4Length : Nat → Bytes → Option (Nat × Bytes)
  | n, [] => if n < 15 then some (n, []) else none
  | n, b => if n < 15 then some (n, b) else more n b
where
  more : Nat → Bytes → Option (Nat × Bytes)
    | _, [] => none
    | n, x :: xs => if x = 255 then more (n + 255) xs else some (n + x.toNat, xs)

/-- The longest distance of LZ4. -/
def lz4Window : Nat := 65535

/-- The sequences of a block: literals and a match each, the last one literals alone. -/
def Unwrap.lz4Block : Nat → Bytes → Unwrap → Unwrap
  | 0, _, u => u
  | _ + 1, [], u => u.stop (.bad .wrapData)
  | fuel + 1, t :: b, u =>
    match lz4Length (t.toNat / 16) b with
    | none => u.stop (.bad .wrapData)
    | some (n, b) =>
      let u := (u.stopIf (b.length < n) (.bad .wrapData)).emit (b.take n)
      let b := b.drop n
      if u.ended || b.isEmpty then u
      else if b.length < 2 then u.stop (.bad .wrapData)
      else match lz4Length (t.toNat % 16) (b.drop 2) with
        | none => u.stop (.bad .wrapData)
        | some (m, b') =>
          let u := u.copy (fieldAt b 0 2) (m + 4) lz4Window
          if u.ended then u else Unwrap.lz4Block fuel b' u

/-! ### LZ4 frames -/

/-- What a frame descriptor says. -/
structure Lz4Frame where
  linked   : Bool
  blockSum : Bool
  sum      : Bool
  size     : Option Nat
  most     : Nat
deriving DecidableEq, Repr

/-- Data blocks up to the end mark. -/
def Unwrap.lz4Blocks (f : Lz4Frame) : Nat → Unwrap → Unwrap
  | 0, u => u
  | fuel + 1, u =>
    let h := u.le 4
    if h.2.ended || h.1 = 0 then h.2
    else
      let n := h.1 % 2 ^ 31
      let data := ((h.2.note .header).stopIf (f.most < n) (.bad .wrapData)).take n
      let sum := if f.blockSum then data.2.le 4 else (xxHash32 data.1, data.2)
      let u := sum.2.stopIf (sum.1 ≠ xxHash32 data.1) (.bad .wrapChecksum)
      let past := u.past
      let size := u.out.length
      let u := if f.linked then u else u.fresh
      let u := if u.ended then u else if h.1 < 2 ^ 31 then u.lz4Block (n + 1) data.1 else u.emit data.1
      let u := ({ u with past := past } : Unwrap).stopIf (size + f.most < u.out.length) (.bad .wrapData)
      if u.ended then u else Unwrap.lz4Blocks f fuel u

/-- A frame behind its magic number. -/
def Unwrap.lz4Frame (u : Unwrap) : Unwrap :=
  let all := u.rest
  let flg := u.fresh.le 1
  let bit := fun k => flg.1 / 2 ^ k % 2 = 1
  let u := (flg.2.stopIf (flg.1 / 64 ≠ 1 || bit 1) (.bad .wrapHeader)).stopIf (bit 0) .dictionary
  let bd := u.le 1
  let u := bd.2.stopIf (bd.1 % 16 ≠ 0 || 128 ≤ bd.1 || bd.1 / 16 < 4) (.bad .wrapHeader)
  let size := if bit 3 then u.le 8 else (0, u)
  let hc := size.2.le 1
  let head := all.take (if bit 3 then 10 else 2)
  let u := hc.2.stopIf (hc.1 ≠ xxHash32 head / 256 % 256) (.bad .wrapChecksum)
  let f : Lz4Frame :=
    { linked := !(bit 5), blockSum := bit 4, sum := bit 2, size := (if bit 3 then some size.1 else none),
      most := 2 ^ (8 + 2 * (bd.1 / 16)) }
  let u := if u.ended then u else u.lz4Blocks f (u.rest.length + 1)
  let data := u.latest
  let u := u.stopIf (match f.size with
    | some n => n ≠ data.length
    | none => false) (.bad .wrapChecksum)
  if f.sum then
    let sum := u.le 4
    sum.2.stopIf (sum.1 ≠ xxHash32 data) (.bad .wrapChecksum)
  else u

/-- A magic number of a skippable frame. -/
def skippable (magic : Nat) : Bool := magic / 16 = 0x184D2A5

/-- A skippable frame behind its magic number. -/
def Unwrap.skip (u : Unwrap) : Unwrap :=
  let n := u.le 4
  (n.2.take n.1).2

/-- Frames to the end of the input. -/
def Unwrap.lz4Frames : Nat → Unwrap → Unwrap
  | 0, u => u
  | fuel + 1, u =>
    let magic := (u.note .header).le 4
    let u := (magic.2.stopIf (magic.1 = 0x184C2102) .legacy).stopIf (magic.1 ≠ 0x184D2204 && !skippable magic.1) (.bad .wrapHeader)
    let u := if u.ended then u else if skippable magic.1 then u.skip else u.lz4Frame
    if u.ended || u.rest.isEmpty then u else Unwrap.lz4Frames fuel u

def unwrapLz4 (b : Bytes) : Unwrap := Unwrap.lz4Frames (b.length + 1) (Unwrap.start b)

/-! ### Raw Snappy -/

/-- A base-128 number of at most `n` bytes. -/
def Unwrap.varint : Nat → Unwrap → Nat × Unwrap
  | 0, u => (0, u.stop (.bad .wrapHeader))
  | n + 1, u =>
    let b := u.le 1
    if b.2.ended || b.1 < 128 then b
    else
      let r := Unwrap.varint n b.2
      (b.1 - 128 + 128 * r.1, r.2)

/-- Elements until the `size` bytes of the preamble are out. -/
def Unwrap.elements (size : Nat) : Nat → Unwrap → Unwrap
  | 0, u => u
  | fuel + 1, u =>
    if u.ended || (u.out.length = size && u.rest.isEmpty) then u
    else
      let t := u.le 1
      let kind := t.1 % 4
      let more := if kind = 0 then t.1 / 4 - 59 else if kind = 1 then 1 else if kind = 2 then 2 else 4
      let x := t.2.le more
      let n := if kind = 0 then (if more = 0 then t.1 / 4 + 1 else x.1 + 1) else if kind = 1 then t.1 / 4 % 8 + 4 else t.1 / 4 + 1
      let u := x.2.stopIf (size < x.2.out.length + n) (.bad .wrapData)
      let u := if kind = 0 then
          let b := u.take n
          b.2.emit b.1
        else u.copy (if kind = 1 then t.1 / 32 * 256 + x.1 else x.1) n (2 ^ 32)
      Unwrap.elements size fuel u

/-- The stream identifier that begins the framing format. -/
def snappyFraming : Bytes := [0xFF, 0x06, 0x00, 0x00, 0x73, 0x4E, 0x61, 0x50, 0x70, 0x59]

def unwrapSnappy (b : Bytes) : Unwrap :=
  let u := (Unwrap.start b).stopIf (b.take 10 = snappyFraming) .framing
  let n := u.varint 5
  let u := n.2.stopIf (2 ^ 32 ≤ n.1) (.bad .wrapHeader)
  u.elements n.1 (b.length + 1)

end Sys2Proof.Machine
end

