-- ==== Sys2Proof/Machine/Zstd.lean ====
section
/-! DEFINITION. Decompression of Zstandard frames (Table 6.6), and the decompressor of each WRAP number. The format is that of
RFC 8878, which the spec cites and does not state (PRESUMED, log entry 178). -/

namespace Sys2Proof.Machine

open Sys2Proof

/-! ### Bit streams -/

/-- The number of a bit string, most significant bit first. -/
def bitsVal (b : List Bool) : Nat := b.foldl (fun n x => 2 * n + x.toNat) 0

/-- The bits of a string read forward, least significant first. -/
def forwardBits (b : Bytes) : List Bool := b.flatMap byteBits

/-- The bits of a stream read backward from the last bit set of its last byte; none where that byte is zero. -/
def backwardBits (b : Bytes) : Option (List Bool) :=
  match (forwardBits b).reverse with
  | [] => none
  | bs => if (bs.take 8).all (fun x => !x) then none else some ((bs.dropWhile (fun x => !x)).drop 1)

/-- `n` bits from the front, when there are as many. -/
def takeBits (n : Nat) (b : List Bool) : Option (Nat × List Bool) :=
  let t := b.take n
  if t.length < n then none else some (bitsVal t, b.drop n)

/-! ### FSE tables -/

/-- A cell of a table: its symbol, and the bits and the base of the state behind it. -/
structure FseCell where
  sym  : Nat
  bits : Nat
  base : Nat
deriving DecidableEq, Repr

structure FseTable where
  log   : Nat
  cells : List FseCell
deriving DecidableEq, Repr

/-- The symbol of each state: those of probability "less than 1" from the end down, the others spread. -/
def fseSpread (log : Nat) (norm : List Int) : List Nat :=
  let size := 2 ^ log
  let syms := List.range norm.length
  let low := syms.filter (fun s => norm[s]?.getD 0 = -1)
  let most := syms.flatMap (fun s => List.replicate (norm[s]?.getD 0).toNat s)
  let step := size / 2 + size / 8 + 3
  let places := ((List.range size).map (fun k => k * step % size)).filter (· < size - low.length)
  (List.range size).map (fun i =>
    if i < size - low.length then most[places.idxOf i]?.getD 0 else low[size - 1 - i]?.getD 0)

/-- The cells in order of state; `seen` says how often each symbol has stood before. -/
def fseCells (log : Nat) (norm : List Int) : List Nat → List Nat → List FseCell
  | _, [] => []
  | seen, s :: ss =>
    let x := (norm[s]?.getD 0).natAbs + (seen.filter (· = s)).length
    let nb := log - x.log2
    { sym := s, bits := nb, base := x * 2 ^ nb - 2 ^ log } :: fseCells log norm (s :: seen) ss

def fseTable (log : Nat) (norm : List Int) : FseTable :=
  { log := log, cells := fseCells log norm [] (fseSpread log norm) }

/-- A table of one symbol. -/
def fseOne (s : Nat) : FseTable := { log := 0, cells := [{ sym := s, bits := 0, base := 0 }] }

def FseTable.cell (t : FseTable) (state : Nat) : FseCell := t.cells[state]?.getD { sym := 0, bits := 0, base := 0 }

/-- Further zero probabilities after a zero: two bits at a time, three standing for more. -/
def fseZeros : Nat → List Bool → Option (Nat × Nat)
  | 0, _ => none
  | fuel + 1, b =>
    match takeBits 2 b with
    | none => none
    | some (_, bs) =>
      let n := bitsVal (b.take 2).reverse
      if n = 3 then (fseZeros fuel bs).map (fun r => (r.1 + 3, r.2 + 2)) else some (n, 2)

/-- The probabilities of a table description, newest first, and the bits they took; `left` is still to be given out. -/
def fseNorm : Nat → Nat → List Int → Nat → List Bool → Option (List Int × Nat)
  | 0, _, _, _, _ => none
  | fuel + 1, left, norm, used, b =>
    if left = 0 then some (norm, used)
    else
      let n := (left + 1).log2 + 1
      let low := bitsVal (b.take (n - 1)).reverse
      let full := bitsVal (b.take n).reverse
      let limit := 2 ^ n - 1 - (left + 1)
      let short := low < limit
      let took := if short then n - 1 else n
      let v := if short then low else if full < 2 ^ (n - 1) then full else full - limit
      if (b.take took).length < took then none
      else
        let p : Int := (v : Int) - 1
        let b := b.drop took
        if p ≠ 0 then fseNorm fuel (left - p.natAbs) (p :: norm) (used + took) b
        else match fseZeros b.length b with
          | none => none
          | some (z, zb) => fseNorm fuel left (List.replicate (z + 1) 0 ++ norm) (used + took + zb) (b.drop zb)

/-- A table description: the table, and the bytes behind it. -/
def fseRead (mostLog mostSym : Nat) (b : Bytes) : Option (FseTable × Bytes) :=
  let bs := forwardBits b
  let log := bitsVal (bs.take 4).reverse + 5
  if bs.isEmpty || mostLog < log then none
  else match fseNorm (bs.length + 1) (2 ^ log) [] 4 (bs.drop 4) with
    | none => none
    | some (norm, used) =>
      if mostSym + 1 < norm.length then none else some (fseTable log norm.reverse, b.drop (ceilDiv used 8))

/-! ### Huffman codes -/

/-- Weights of an FSE-coded description, newest first: two states in turn until a state asks for more bits than are left. -/
def huffWeights (t : FseTable) : Nat → Nat → Nat → List Nat → List Bool → List Nat
  | 0, _, _, ws, _ => ws
  | fuel + 1, s1, s2, ws, b =>
    let c := t.cell s1
    match takeBits c.bits b with
    | none => (t.cell s2).sym :: c.sym :: ws
    | some (v, b) => huffWeights t fuel s2 (c.base + v) (c.sym :: ws) b

/-- A code of Zstandard: its longest length and, for every string of that many bits, the symbol and its length. -/
structure ZstdHuff where
  log   : Nat
  cells : List (Nat × Nat)
deriving DecidableEq, Repr

/-- The code of the weights given, the last weight following from the others. -/
def zstdHuff (ws : List Nat) : Option ZstdHuff :=
  let sum := (ws.map (fun w => if w = 0 then 0 else 2 ^ (w - 1))).foldl (· + ·) 0
  let log := sum.log2 + 1
  let left := 2 ^ log - sum
  if sum = 0 || 11 < log || 255 < ws.length || left ≠ 2 ^ left.log2 then none
  else
    let all := ws ++ [left.log2 + 1]
    some { log := log, cells := (List.range log).flatMap (fun k =>
      ((List.range all.length).filter (fun s => all[s]?.getD 0 = k + 1)).flatMap (fun s =>
        List.replicate (2 ^ k) (s, log - k))) }

/-- A tree description: the code, and the bytes behind it. -/
def zstdTree (b : Bytes) : Option (ZstdHuff × Bytes) :=
  match b with
  | [] => none
  | h :: b =>
    if 128 ≤ h.toNat then
      let n := h.toNat - 127
      let d := b.take (ceilDiv n 2)
      if d.length < ceilDiv n 2 then none
      else
        let ws := (d.flatMap (fun x => [x.toNat / 16, x.toNat % 16])).take n
        (zstdHuff ws).map (fun t => (t, b.drop (ceilDiv n 2)))
    else
      let d := b.take h.toNat
      if d.length < h.toNat then none
      else match fseRead 6 255 d with
        | none => none
        | some (t, r) => do
          let bs ← backwardBits r
          let s1 ← takeBits t.log bs
          let s2 ← takeBits t.log s1.2
          let code ← zstdHuff (huffWeights t 256 s1.1 s2.1 [] s2.2).reverse
          some (code, b.drop h.toNat)

/-- `n` symbols, which take the whole stream. -/
def ZstdHuff.decode (t : ZstdHuff) : Nat → List Bool → Option Bytes
  | 0, b => if b.isEmpty then some [] else none
  | n + 1, b =>
    let p := b.take t.log
    let c := t.cells[bitsVal p * 2 ^ (t.log - p.length)]?.getD (0, 0)
    if (b.take c.2).length < c.2 then none else (ZstdHuff.decode t n (b.drop c.2)).map (BitVec.ofNat 8 c.1 :: ·)

def ZstdHuff.stream (t : ZstdHuff) (n : Nat) (b : Bytes) : Option Bytes := (backwardBits b).bind (t.decode n)

/-- Four streams behind their jump table. -/
def ZstdHuff.streams (t : ZstdHuff) (n : Nat) (b : Bytes) : Option Bytes :=
  let q := ceilDiv n 4
  let a := fieldAt b 0 2
  let c := fieldAt b 2 2
  let e := fieldAt b 4 2
  let d := b.drop 6
  if b.length < 6 + a + c + e || n < 3 * q then none
  else do
    let w ← t.stream q (d.take a)
    let x ← t.stream q ((d.drop a).take c)
    let y ← t.stream q ((d.drop (a + c)).take e)
    let z ← t.stream (n - 3 * q) (d.drop (a + c + e))
    some (w ++ x ++ y ++ z)

/-! ### Blocks -/

/-- What a frame carries from block to block: the code, the three tables and the three latest offsets. -/
structure ZstdCtx where
  huff : Option ZstdHuff
  lit  : Option FseTable
  off  : Option FseTable
  mat  : Option FseTable
  reps : List Nat
deriving DecidableEq, Repr

def zstdCtx : ZstdCtx := { huff := none, lit := none, off := none, mat := none, reps := [1, 4, 8] }

/-- Literals of a block: the code afterwards, the literals and the bytes behind them. -/
def zstdLiterals (old : Option ZstdHuff) (b : Bytes) : Option (Option ZstdHuff × Bytes × Bytes) :=
  let h := fieldAt b 0 5
  let kind := h % 4
  let form := h / 4 % 4
  if kind < 2 then
    let hb := if form = 1 then 2 else if form = 3 then 3 else 1
    let n := h % 2 ^ (8 * hb) / (if form % 2 = 0 then 8 else 16)
    let data := b.drop hb
    if b.length < hb then none
    else if kind = 0 then (if (data.take n).length < n then none else some (old, data.take n, data.drop n))
    else match data with
      | [] => none
      | x :: xs => some (old, List.replicate n x, xs)
  else
    let hb := if form < 2 then 3 else form + 2
    let w := if form < 2 then 10 else if form = 2 then 14 else 18
    let n := h / 16 % 2 ^ w
    let size := h / 2 ^ (4 + w) % 2 ^ w
    let data := (b.drop hb).take size
    if b.length < hb || data.length < size then none
    else do
      let t ← if kind = 2 then zstdTree data else old.map (fun t => (t, data))
      let ls ← if form = 0 then t.1.stream n t.2 else t.1.streams n t.2
      some (some t.1, ls, b.drop (hb + size))

/-- Base and extra bits of a literal length code. -/
def zstdLitCode (k : Nat) : Nat × Nat :=
  if k < 16 then (k, 0)
  else [(16, 1), (18, 1), (20, 1), (22, 1), (24, 2), (28, 2), (32, 3), (40, 3), (48, 4), (64, 6), (128, 7), (256, 8), (512, 9),
    (1024, 10), (2048, 11), (4096, 12), (8192, 13), (16384, 14), (32768, 15), (65536, 16)][k - 16]?.getD (0, 0)

/-- Base and extra bits of a match length code. -/
def zstdMatCode (k : Nat) : Nat × Nat :=
  if k < 32 then (k + 3, 0)
  else [(35, 1), (37, 1), (39, 1), (41, 1), (43, 2), (47, 2), (51, 3), (59, 3), (67, 4), (83, 4), (99, 5), (131, 7), (259, 8),
    (515, 9), (1027, 10), (2051, 11), (4099, 12), (8195, 13), (16387, 14), (32771, 15), (65539, 16)][k - 32]?.getD (0, 0)

def zstdLitNorm : List Int :=
  [4, 3, 2, 2, 2, 2, 2, 2, 2, 2, 2, 2, 2, 1, 1, 1, 2, 2, 2, 2, 2, 2, 2, 2, 2, 3, 2, 1, 1, 1, 1, 1, -1, -1, -1, -1]

def zstdOffNorm : List Int :=
  [1, 1, 1, 1, 1, 1, 2, 2, 2, 1, 1, 1, 1, 1, 1, 1, 1, 1, 1, 1, 1, 1, 1, 1, -1, -1, -1, -1, -1]

def zstdMatNorm : List Int :=
  [1, 4, 3, 2, 2, 2, 2, 2, 2] ++ List.replicate 37 1 ++ List.replicate 7 (-1)

/-- A table by its mode: predefined, one symbol, described, or the one before. -/
def zstdTable (mode mostLog mostSym : Nat) (predefined : FseTable) (old : Option FseTable) (b : Bytes) :
    Option (FseTable × Bytes) :=
  match mode with
  | 0 => some (predefined, b)
  | 1 => match b with
    | [] => none
    | x :: xs => if mostSym < x.toNat then none else some (fseOne x.toNat, xs)
  | 2 => fseRead mostLog mostSym b
  | _ => old.map (fun t => (t, b))

/-- The distance of an offset value, and the latest offsets after it (RFC 8878, 3.1.1.5). -/
def zstdOffset (reps : List Nat) (lits v : Nat) : Nat × List Nat :=
  let r := fun i => reps[i]?.getD 0
  if 3 < v then (v - 3, [v - 3, r 0, r 1])
  else
    match (if lits = 0 then v else v - 1) with
    | 0 => (r 0, reps)
    | 1 => (r 1, [r 1, r 0, r 2])
    | 2 => (r 2, [r 2, r 0, r 1])
    | _ => (r 0 - 1, [r 0 - 1, r 0, r 1])

/-- The states of the three tables. -/
structure ZstdStates where
  lit : Nat
  off : Nat
  mat : Nat
deriving DecidableEq, Repr

/-- The tables of a block. -/
structure ZstdTables where
  lit : FseTable
  off : FseTable
  mat : FseTable
deriving DecidableEq, Repr

/-- One sequence: literals, match and distance; the bits behind it. -/
def zstdSequence (t : ZstdTables) (s : ZstdStates) (b : List Bool) : Option (Nat × Nat × Nat × List Bool) := do
  let o := (t.off.cell s.off).sym
  let m := zstdMatCode (t.mat.cell s.mat).sym
  let l := zstdLitCode (t.lit.cell s.lit).sym
  let ox ← takeBits o b
  let mx ← takeBits m.2 ox.2
  let lx ← takeBits l.2 mx.2
  some (l.1 + lx.1, m.1 + mx.1, 2 ^ o + ox.1, lx.2)

/-- The states behind a sequence. -/
def zstdNext (t : ZstdTables) (s : ZstdStates) (b : List Bool) : Option (ZstdStates × List Bool) := do
  let l := t.lit.cell s.lit
  let m := t.mat.cell s.mat
  let o := t.off.cell s.off
  let lx ← takeBits l.bits b
  let mx ← takeBits m.bits lx.2
  let ox ← takeBits o.bits mx.2
  some ({ lit := l.base + lx.1, mat := m.base + mx.1, off := o.base + ox.1 }, ox.2)

/-- `n` sequences, which take the whole stream, and the literals behind the last; the latest offsets at the end. -/
def Unwrap.sequences (t : ZstdTables) (window : Nat) :
    Nat → ZstdStates → List Nat → Bytes → List Bool → Unwrap → List Nat × Unwrap
  | 0, _, reps, lits, b, u => (reps, (u.stopIf (!b.isEmpty) (.bad .wrapData)).emit lits)
  | n + 1, s, reps, lits, b, u =>
    match zstdSequence t s b with
    | none => (reps, u.stop (.bad .wrapData))
    | some (l, m, v, b) =>
      let d := zstdOffset reps l v
      let u := ((u.stopIf (lits.length < l) (.bad .wrapData)).emit (lits.take l)).copy d.1 m window
      if u.ended then (d.2, u)
      else match (if n = 0 then some (s, b) else zstdNext t s b) with
        | none => (d.2, u.stop (.bad .wrapData))
        | some (s, b) => Unwrap.sequences t window n s d.2 (lits.drop l) b u

/-- The count of sequences and the bytes behind it. -/
def zstdCount (b : Bytes) : Option (Nat × Bytes) :=
  match b with
  | [] => none
  | x :: b =>
    let x := x.toNat
    if x < 128 then some (x, b)
    else if x < 255 then (if b.isEmpty then none else some ((x - 128) * 256 + fieldAt b 0 1, b.drop 1))
    else if b.length < 2 then none else some (fieldAt b 0 2 + 0x7F00, b.drop 2)

/-- The three tables of a sequences section and the stream behind them. -/
def zstdTables (c : ZstdCtx) (b : Bytes) : Option (ZstdTables × Bytes) :=
  match b with
  | [] => none
  | modes :: b => do
    let m := modes.toNat
    if m % 4 ≠ 0 then none
    else
      let l ← zstdTable (m / 64) 9 35 (fseTable 6 zstdLitNorm) c.lit b
      let o ← zstdTable (m / 16 % 4) 8 31 (fseTable 5 zstdOffNorm) c.off l.2
      let t ← zstdTable (m / 4 % 4) 9 52 (fseTable 6 zstdMatNorm) c.mat o.2
      some ({ lit := l.1, off := o.1, mat := t.1 }, t.2)

/-- The first states of a stream. -/
def zstdInit (t : ZstdTables) (b : Bytes) : Option (ZstdStates × List Bool) := do
  let bs ← backwardBits b
  let l ← takeBits t.lit.log bs
  let o ← takeBits t.off.log l.2
  let m ← takeBits t.mat.log o.2
  some ({ lit := l.1, off := o.1, mat := m.1 }, m.2)

/-- A compressed block. -/
def Unwrap.zstdBlock (c : ZstdCtx) (window : Nat) (b : Bytes) (u : Unwrap) : ZstdCtx × Unwrap :=
  match zstdLiterals c.huff b with
  | none => (c, u.stop (.bad .wrapData))
  | some (huff, lits, b) =>
    let c := { c with huff := huff }
    match zstdCount b with
    | none => (c, u.stop (.bad .wrapData))
    | some (n, b) =>
      if n = 0 then (c, (u.stopIf (!b.isEmpty) (.bad .wrapData)).emit lits)
      else match zstdTables c b with
        | none => (c, u.stop (.bad .wrapData))
        | some (t, b) =>
          match zstdInit t b with
          | none => (c, u.stop (.bad .wrapData))
          | some (s, bs) =>
            let r := u.sequences t window n s c.reps lits bs
            ({ c with lit := some t.lit, off := some t.off, mat := some t.mat, reps := r.1 }, r.2)

/-- Blocks up to the last one. -/
def Unwrap.zstdBlocks (window : Nat) : Nat → ZstdCtx → Unwrap → Unwrap
  | 0, _, u => u
  | fuel + 1, c, u =>
    let h := (u.note .header).le 3
    let kind := h.1 / 2 % 4
    let n := h.1 / 8
    let most := min window 131072
    let size := h.2.out.length
    let data := (h.2.stopIf (kind = 3 || most < n) (.bad .wrapData)).take (if kind = 1 then 1 else n)
    let r := if data.2.ended then (c, data.2)
      else if kind = 0 then (c, data.2.emit data.1)
      else if kind = 1 then (c, data.2.emit (List.replicate n (data.1.head?.getD 0)))
      else data.2.zstdBlock c window data.1
    let u := r.2.stopIf (size + most < r.2.out.length) (.bad .wrapData)
    if u.ended || h.1 % 2 = 1 then u else Unwrap.zstdBlocks window fuel r.1 u

/-! ### Frames -/

/-- A frame behind its magic number. -/
def Unwrap.zstdFrame (u : Unwrap) : Unwrap :=
  let fhd := u.fresh.le 1
  let single := fhd.1 / 32 % 2 = 1
  let u := fhd.2.stopIf (fhd.1 / 8 % 2 = 1) (.bad .wrapHeader)
  let wd := if single then (0, u) else u.le 1
  let dict := wd.2.le ([0, 1, 2, 4][fhd.1 % 4]?.getD 0)
  let u := dict.2.stopIf (dict.1 ≠ 0) .dictionary
  let fw := [if single then 1 else 0, 2, 4, 8][fhd.1 / 64]?.getD 0
  let fcs := u.le fw
  let content := if fw = 2 then fcs.1 + 256 else fcs.1
  let base := 2 ^ (10 + wd.1 / 8)
  let window := if single then content else base + base / 8 * (wd.1 % 8)
  let u := (fcs.2.note (.window window)).stopIf (2 ^ 24 < window) (.window window)
  let u := if u.ended then u else u.zstdBlocks window (u.rest.length + 1) zstdCtx
  let data := u.latest
  let u := u.stopIf (fw ≠ 0 && content ≠ data.length) (.bad .wrapChecksum)
  if fhd.1 / 4 % 2 = 1 then
    let sum := u.le 4
    sum.2.stopIf (sum.1 ≠ (xxHash64 0 data).toNat % 2 ^ 32) (.bad .wrapChecksum)
  else u

/-- Frames to the end of the input. -/
def Unwrap.zstdFrames : Nat → Unwrap → Unwrap
  | 0, u => u
  | fuel + 1, u =>
    let magic := (u.note .header).le 4
    let u := magic.2.stopIf (magic.1 ≠ 0xFD2FB528 && !skippable magic.1) (.bad .wrapHeader)
    let u := if u.ended then u else if skippable magic.1 then u.skip else u.zstdFrame
    if u.ended || u.rest.isEmpty then u else Unwrap.zstdFrames fuel u

def unwrapZstd (b : Bytes) : Unwrap := Unwrap.zstdFrames (b.length + 1) (Unwrap.start b)

/-! ### WRAP (Table 6.2) -/

/-- The decompressor of a WRAP number. -/
def unwrap (wrap : Nat) (b : Bytes) : List WrapStep :=
  match wrap with
  | 1 => (Unwrap.start b).deflate.met
  | 2 => (unwrapZlib b).met
  | 3 => (unwrapGzip b).met
  | 4 => (unwrapZstd b).met
  | 5 => (unwrapLz4 b).met
  | 6 => (unwrapSnappy b).met
  | _ => []

/-- The bytes a decompression step writes. -/
def wrapOut (w : WrapStep) : Bytes :=
  match w with
  | .output b => b
  | _ => []

end Sys2Proof.Machine
end

