-- ==== Sys2Proof/Machine/Jpeg.lean ====
section
/-! DEFINITION. Parsing and entropy decoding of JPEG (Table 6.6): the quantised coefficients of each component, and what the engine
meets on the way. The format is that of ISO/IEC 10918-1, which the spec cites and does not state (PRESUMED, log entry 179). -/

namespace Sys2Proof.Machine

open Sys2Proof

/-- What the JPEG engine meets: a marker segment, an SOF segment (its number n of SOFn, precision, width, height and the sampling
factors of its components), arithmetic coding, DNL, a hierarchical process, entropy-coded bytes, and a visit of one block by a scan
from Ss to Se. -/
inductive JpegStep
  | marker
  | frame (sof precision width height : Nat) (sampling : List (Nat × Nat))
  | arithmetic
  | dnl
  | hierarchical
  | entropy (n : Nat)
  | visit (ss se : Nat)
  | bad (d : Defect)
deriving DecidableEq, Repr, Inhabited

/-- A component of a decoded JPEG: its quantisation table Q and its blocks in raster order over whole MCUs, each 64 quantised
coefficients, row by row. -/
structure JpegComp where
  quant  : List Int
  blocks : List (List Int)
deriving DecidableEq, Repr, Inhabited

structure Jpeg where
  steps : List JpegStep
  comps : List JpegComp
deriving DecidableEq, Repr, Inhabited

/-- One component, or three in 4:4:4, 4:2:2 or 4:2:0 (Table 6.6). -/
def samplingOk (k : List (Nat × Nat)) : Bool :=
  match k with
  | [_] => true
  | [y, b, r] => b = r && (y = b || y = (2 * b.1, b.2) || y = (2 * b.1, 2 * b.2))
  | _ => false

/-! ### Entropy-coded bits -/

/-- A field of `n` entropy-coded bits and the bits behind it. Bits that run out read as a truncated input here and below, and the scan
says what that means. -/
def jpegField (n : Nat) (b : List Bool) : Except Defect (Nat × List Bool) :=
  match takeBits n b with
  | some r => .ok r
  | none => .error .jpegTruncated

/-- The next symbol of a canonical code. -/
def jpegSymFrom (syms : List Nat) : List Nat → Nat → Nat → Nat → List Bool → Except Defect (Nat × List Bool)
  | [], _, _, _, _ => .error .jpegHuffman
  | _ :: _, _, _, _, [] => .error .jpegTruncated
  | c :: cs, code, first, index, b :: bs =>
    let code := code + b.toNat
    if code < first + c then
      match syms[index + (code - first)]? with
      | some s => .ok (s, bs)
      | none => .error .jpegHuffman
    else jpegSymFrom syms cs (2 * code) (2 * (first + c)) (index + c) bs

def jpegSym (p : PrefixCode) (b : List Bool) : Except Defect (Nat × List Bool) := jpegSymFrom p.syms p.counts 0 0 0 b

/-- A number of `s` bits with its sign (EXTEND). -/
def jpegExtend (v s : Nat) : Int := if s = 0 then 0 else if v < 2 ^ (s - 1) then (v : Int) - 2 ^ s + 1 else v

/-- Where a scan stands in the band of a block: before a code, with zeros to pass before a value, or behind an end-of-band code with
so many further blocks in its run. -/
inductive AcMode where
  | fetch
  | run (zeros : Nat) (value : Int)
  | done (blocks : Nat)
deriving DecidableEq, Repr

/-- The next code of a band; a baseline scan knows no runs of blocks. In a refining scan a new value is one bit, its sign. -/
def acFetch (p : PrefixCode) (al : Nat) (baseline refine : Bool) (b : List Bool) : Except Defect (AcMode × List Bool) := do
  let c ← jpegSym p b
  let r := c.1 / 16
  let s := c.1 % 16
  if s ≠ 0 then
    if refine && s ≠ 1 then .error .jpegHuffman
    else
      let v ← jpegField s c.2
      .ok (.run r (jpegExtend v.1 s * 2 ^ al), v.2)
  else if r = 15 then .ok (.run 15 0, c.2)
  else if baseline && r ≠ 0 then .error .jpegHuffman
  else
    let v ← jpegField r c.2
    .ok (.done (2 ^ r + v.1 - 1), v.2)

/-- One more bit of a coefficient that is not zero. -/
def acCorrect (al : Nat) (c : Int) (b : List Bool) : Except Defect (Int × List Bool) := do
  let v ← jpegField 1 b
  .ok (if v.1 = 1 && c.natAbs / 2 ^ al % 2 = 0 then (if 0 ≤ c then c + 2 ^ al else c - 2 ^ al) else c, v.2)

/-- A band of a block, in zigzag order: its coefficients and the blocks left of an end-of-band run. -/
def acBand (p : PrefixCode) (al : Nat) (baseline refine : Bool) : List Int → AcMode → List Bool →
    Except Defect ((List Int × Nat) × List Bool)
  | [], .fetch, b => .ok (([], 0), b)
  | [], .run _ _, _ => .error .jpegHuffman
  | [], .done n, b => .ok (([], n), b)
  | c :: cs, mode, b => do
    let f ← match mode with
      | .fetch => acFetch p al baseline refine b
      | m => .ok (m, b)
    let x ← if refine && c ≠ 0 then acCorrect al c f.2 else .ok (c, f.2)
    let kept := refine && c ≠ 0
    let y : Int × AcMode := match f.1 with
      | .run (n + 1) v => if kept then (x.1, .run (n + 1) v) else (x.1, .run n v)
      | .run 0 v => if kept then (x.1, .run 0 v) else (v, .fetch)
      | m => (x.1, m)
    let r ← acBand p al baseline refine cs y.2 x.2
    .ok ((y.1 :: r.1.1, r.1.2), r.2)

/-! ### Scans -/

/-- A component at work: its row of the SOF segment, blocks in a row, its quantisation table once a scan has taken it, and its
blocks in raster order over whole MCUs, each 64 coefficients in zigzag order. -/
structure JpegPart where
  id     : Nat
  h      : Nat
  v      : Nat
  tq     : Nat
  wide   : Nat
  quant  : Option (List Int)
  blocks : List (List Int)
deriving DecidableEq, Repr

/-- A component in a scan: its place in the frame and its codes. -/
structure JpegSel where
  part : Nat
  dc   : PrefixCode
  ac   : PrefixCode
deriving DecidableEq, Repr

/-- The parameters of a scan. -/
structure JpegScan where
  sels     : List JpegSel
  ss       : Nat
  se       : Nat
  ah       : Nat
  al       : Nat
  baseline : Bool
deriving DecidableEq, Repr

/-- A scan at work. -/
structure JpegRun where
  parts  : List JpegPart
  preds  : List Int
  eob    : Nat
  bits   : List Bool
  visits : Nat
  fault  : Option Defect
deriving DecidableEq, Repr

/-- The DC coefficient of a block. -/
def jpegDc (q : JpegScan) (sel : JpegSel) (pred c : Int) (b : List Bool) : Except Defect ((Int × Int) × List Bool) := do
  if q.ss ≠ 0 then .ok ((c, pred), b)
  else if q.ah ≠ 0 then
    let v ← jpegField 1 b
    .ok ((c + v.1 * 2 ^ q.al, pred), v.2)
  else
    let s ← jpegSym sel.dc b
    if 15 < s.1 then .error .jpegHuffman
    else
      let v ← jpegField s.1 s.2
      let p := pred + jpegExtend v.1 s.1
      .ok ((p * 2 ^ q.al, p), v.2)

/-- One block of a scan: its coefficients, the prediction and the end-of-band run behind it. -/
def jpegBlock (q : JpegScan) (sel : JpegSel) (pred : Int) (eob : Nat) (z : List Int) (b : List Bool) :
    Except Defect ((List Int × Int × Nat) × List Bool) := do
  let d ← jpegDc q sel pred (z.head?.getD 0) b
  if q.se = 0 then .ok ((d.1.1 :: z.drop 1, d.1.2, eob), d.2)
  else
    let lo := max q.ss 1
    let mode : AcMode := if eob = 0 then .fetch else .done (eob - 1)
    let a ← acBand sel.ac q.al q.baseline (q.ah ≠ 0) ((z.drop lo).take (q.se + 1 - lo)) mode d.2
    .ok ((d.1.1 :: (z.take lo).drop 1 ++ a.1.1 ++ z.drop (q.se + 1), d.1.2, a.1.2), a.2)

/-- The block of a unit: a component of the scan, and the block's place in it. -/
def JpegRun.unit (q : JpegScan) (r : JpegRun) (u : JpegSel × Nat) : JpegRun :=
  match r.fault, r.parts[u.1.part]? with
  | none, some p =>
    match jpegBlock q u.1 (r.preds[u.1.part]?.getD 0) r.eob (p.blocks[u.2]?.getD []) r.bits with
    | .error d => { r with fault := some d }
    | .ok ((z, pred, eob), bits) =>
      { r with parts := r.parts.set u.1.part { p with blocks := p.blocks.set u.2 z }, preds := r.preds.set u.1.part pred,
               eob := eob, bits := bits, visits := r.visits + 1 }
  | _, _ => r

/-- The MCUs of a scan, each the units it holds. -/
def jpegMcus (width height hmax vmax : Nat) (parts : List JpegPart) (q : JpegScan) : List (List (JpegSel × Nat)) :=
  match q.sels with
  | [sel] => match parts[sel.part]? with
    | some p =>
      let wide := ceilDiv (ceilDiv (width * p.h) hmax) 8
      let high := ceilDiv (ceilDiv (height * p.v) vmax) 8
      (List.range high).flatMap (fun y => (List.range wide).map (fun x => [(sel, y * p.wide + x)]))
    | none => []
  | sels =>
    (List.range (ceilDiv height (8 * vmax))).flatMap (fun my => (List.range (ceilDiv width (8 * hmax))).map (fun mx =>
      sels.flatMap (fun sel => match parts[sel.part]? with
        | some p => (List.range p.v).flatMap (fun j => (List.range p.h).map (fun i =>
            (sel, (my * p.v + j) * p.wide + (mx * p.h + i))))
        | none => [])))

/-- Entropy-coded bytes up to the next marker: the bytes without stuffing, how many there were, and what follows. -/
def entropyBytes : Bytes → Bytes × Nat × Bytes
  | [] => ([], 0, [])
  | [x] => if x = 0xFF then ([], 0, [x]) else ([x], 1, [])
  | x :: y :: r =>
    if x = 0xFF then
      if y = 0 then
        let e := entropyBytes r
        (x :: e.1, e.2.1 + 2, e.2.2)
      else ([], 0, x :: y :: r)
    else
      let e := entropyBytes (y :: r)
      (x :: e.1, e.2.1 + 1, e.2.2)

/-- The marker at the front, fill bytes before it skipped: its code and what follows. -/
def jpegMarkerAt : Bytes → Option (Nat × Bytes)
  | [] => none
  | x :: xs => if x = 0xFF then code xs else none
where
  code : Bytes → Option (Nat × Bytes)
    | [] => none
    | y :: ys => if y = 0xFF then code ys else some (y.toNat, ys)

/-! ### Segments -/

/-- A JPEG being parsed; steps newest first. -/
structure JpegDec where
  rest    : Bytes
  quant   : List (Nat × List Int)
  dc      : List (Nat × PrefixCode)
  ac      : List (Nat × PrefixCode)
  frame   : Option (Nat × Nat × Nat)
  parts   : List JpegPart
  restart : Nat
  scans   : Nat
  steps   : List JpegStep
  ended   : Bool
deriving DecidableEq, Repr

def JpegDec.start (b : Bytes) : JpegDec :=
  { rest := b, quant := [], dc := [], ac := [], frame := none, parts := [], restart := 0, scans := 0, steps := [], ended := false }

def JpegDec.note (x : JpegStep) (d : JpegDec) : JpegDec := { d with steps := x :: d.steps }

def JpegDec.stop (x : JpegStep) (d : JpegDec) : JpegDec := { d with steps := x :: d.steps, ended := true }

def JpegDec.fail (x : Defect) (d : JpegDec) : JpegDec := d.stop (.bad x)

/-- The defect of a marker that is not there: the input has ended, or something else stands in its place. -/
def missingMarker (b : Bytes) : Defect := if b.all (· = 0xFF) then .jpegTruncated else .jpegMarker

/-- Quantisation tables of a DQT segment. -/
def jpegQuants : Nat → Bytes → Option (List (Nat × List Int))
  | 0, _ => none
  | _ + 1, [] => some []
  | fuel + 1, x :: b =>
    let wide := x.toNat / 16
    let n := 64 * (wide + 1)
    if 1 < wide || 3 < x.toNat % 16 || b.length < n then none
    else
      let q := (List.range 64).map (fun k => ((if wide = 0 then fieldAt b k 1 else beVal ((b.drop (2 * k)).take 2) : Nat) : Int))
      (jpegQuants fuel (b.drop n)).map ((x.toNat % 16, q) :: ·)

/-- Codes of a DHT segment: class, destination and code. -/
def jpegHuffs : Nat → Bytes → Option (List (Nat × Nat × PrefixCode))
  | 0, _ => none
  | _ + 1, [] => some []
  | fuel + 1, x :: b =>
    let counts := (b.take 16).map BitVec.toNat
    let n := counts.foldl (· + ·) 0
    if 1 < x.toNat / 16 || 3 < x.toNat % 16 || b.length < 16 + n then none
    else
      let code : PrefixCode := { counts := counts, syms := ((b.drop 16).take n).map BitVec.toNat }
      (jpegHuffs fuel (b.drop (16 + n))).map ((x.toNat / 16, x.toNat % 16, code) :: ·)

/-- An SOFn segment. -/
def JpegDec.sof (n : Nat) (b : Bytes) (d : JpegDec) : JpegDec :=
  let k := fieldAt b 5 1
  let row := fun i => (b.drop (6 + 3 * i)).take 3
  let rows := (List.range k).map (fun i => (fieldAt (row i) 0 1, fieldAt (row i) 1 1 / 16, fieldAt (row i) 1 1 % 16, fieldAt (row i) 2 1))
  let height := beVal ((b.drop 1).take 2)
  let width := beVal ((b.drop 3).take 2)
  let sampling := rows.map (fun r => (r.2.1, r.2.2.1))
  if b.length ≠ 6 + 3 * k || d.frame.isSome || rows.any (fun r => r.2.1 = 0 || r.2.2.1 = 0 || 3 < r.2.2.2) then
    (d.note .marker).fail .jpegMarker
  else
    let d := d.note (.frame n (fieldAt b 0 1) width height sampling)
    if !(n = 0 || n = 2) || fieldAt b 0 1 ≠ 8 || !samplingOk sampling then { d with ended := true }
    else
      let hmax := (sampling.map (·.1)).foldl max 1
      let vmax := (sampling.map (·.2)).foldl max 1
      let part := fun (r : Nat × Nat × Nat × Nat) =>
        let wide := if k = 1 then ceilDiv width 8 else ceilDiv width (8 * hmax) * r.2.1
        let high := if k = 1 then ceilDiv height 8 else ceilDiv height (8 * vmax) * r.2.2.1
        ({ id := r.1, h := r.2.1, v := r.2.2.1, tq := r.2.2.2, wide := wide, quant := none,
           blocks := List.replicate (wide * high) (List.replicate 64 0) } : JpegPart)
      { d with frame := some (n, width, height), parts := rows.map part }

/-- The intervals of a scan between restart markers. -/
def JpegDec.intervals (q : JpegScan) : Nat → Nat → List (List (JpegSel × Nat)) → JpegDec → JpegDec
  | 0, _, _, d => d
  | fuel + 1, k, mcus, d =>
    let e := entropyBytes d.rest
    let n := if d.restart = 0 then mcus.length else d.restart
    let run := (mcus.take n).flatten.foldl (JpegRun.unit q)
      { parts := d.parts, preds := d.parts.map (fun _ => 0), eob := 0, bits := e.1.flatMap (fun x => (byteBits x).reverse),
        visits := 0, fault := none }
    let rst := (jpegMarkerAt e.2.2).map (fun m => (m.1, m.2))
    let d := { d with rest := e.2.2, parts := run.parts,
                      steps := List.replicate run.visits (.visit q.ss q.se) ++ .entropy e.2.1 :: d.steps }
    let isRst := fun (m : Nat) => 0xD0 ≤ m && m ≤ 0xD7
    match run.fault with
    | some .jpegTruncated => match rst with
      | none => d.fail (if missingMarker e.2.2 = .jpegTruncated then .jpegTruncated else .jpegHuffman)
      | some m => d.fail (if isRst m.1 then .jpegRestart else .jpegHuffman)
    | some x => d.fail x
    | none =>
      let mcus := mcus.drop n
      if mcus.isEmpty then d
      else match rst with
        | none => d.fail (if missingMarker e.2.2 = .jpegTruncated then .jpegTruncated else .jpegRestart)
        | some m => if m.1 = 0xD0 + k % 8 then JpegDec.intervals q fuel (k + 1) mcus { d with rest := m.2 } else d.fail .jpegRestart

/-- The scan parameters that a frame allows. -/
def jpegScanOk (baseline : Bool) (n ss se ah al : Nat) : Bool :=
  if baseline then ss = 0 && se = 63 && ah = 0 && al = 0
  else (if ss = 0 then se = 0 else ss ≤ se && se ≤ 63 && n = 1) && al ≤ 13 && (ah = 0 || ah = al + 1)

/-- An SOS segment and the scan behind it. -/
def JpegDec.sos (b : Bytes) (d : JpegDec) : JpegDec :=
  let n := fieldAt b 0 1
  let row := fun i => (fieldAt b (1 + 2 * i) 1, fieldAt b (2 + 2 * i) 1)
  let at' := fun i => d.parts.findIdx (fun p => p.id = (row i).1)
  let places := (List.range n).map at'
  let ss := fieldAt b (1 + 2 * n) 1
  let se := fieldAt b (2 + 2 * n) 1
  let ah := fieldAt b (3 + 2 * n) 1 / 16
  let al := fieldAt b (3 + 2 * n) 1 % 16
  match d.frame with
  | none => d.fail .jpegMarker
  | some (sof, width, height) =>
    let baseline := sof = 0
    if b.length ≠ 4 + 2 * n || n = 0 || 3 < n || places.any (fun i => d.parts.length ≤ i) || places.eraseDups.length ≠ n then
      d.fail .jpegMarker
    else if !jpegScanOk baseline n ss se ah al then d.fail .jpegScan
    else
      let code := fun (t : List (Nat × PrefixCode)) (k : Nat) => (t.find? (fun x => x.1 = k)).map (·.2)
      let dcs := (List.range n).map (fun i => code d.dc ((row i).2 / 16))
      let acs := (List.range n).map (fun i => code d.ac ((row i).2 % 16))
      let parts := (List.range d.parts.length).map (fun i => match d.parts[i]? with
        | some p => if places.contains i && p.quant.isNone then
            { p with quant := (d.quant.find? (fun x => x.1 = p.tq)).map (·.2) } else p
        | none => { id := 0, h := 1, v := 1, tq := 0, wide := 0, quant := none, blocks := [] })
      let none' : PrefixCode := { counts := [], syms := [] }
      let sels := (List.range n).map (fun i =>
        ({ part := at' i, dc := (dcs[i]?.getD none).getD none', ac := (acs[i]?.getD none).getD none' } : JpegSel))
      if (ss = 0 && ah = 0 && dcs.any Option.isNone) || (se ≠ 0 && acs.any Option.isNone) ||
        places.any (fun i => match parts[i]? with
          | some p => p.quant.isNone
          | none => true) then d.fail .jpegHuffman
      else
        let q : JpegScan := { sels := sels, ss := ss, se := se, ah := ah, al := al, baseline := baseline }
        let mcus := jpegMcus width height ((parts.map (·.h)).foldl max 1) ((parts.map (·.v)).foldl max 1) parts q
        JpegDec.intervals q (mcus.length + 1) 0 mcus { d with parts := parts, scans := d.scans + 1 }

/-- A marker segment without its length. -/
def JpegDec.segment (m : Nat) (b : Bytes) (d : JpegDec) : JpegDec :=
  if m = 0xC4 then
    match jpegHuffs (b.length + 1) b with
    | none => (d.note .marker).fail .jpegMarker
    | some hs =>
      let d := d.note .marker
      if hs.any (fun h => h.2.2.bad) then d.fail .jpegHuffman
      else { d with dc := (hs.filter (fun h => h.1 = 0)).reverse.map (·.2) ++ d.dc,
                    ac := (hs.filter (fun h => h.1 = 1)).reverse.map (·.2) ++ d.ac }
  else if m = 0xCC then (d.note .marker).stop .arithmetic
  else if 0xC0 ≤ m && m ≤ 0xCF then d.sof (m - 0xC0) b
  else if m = 0xDA then (d.note .marker).sos b
  else if m = 0xDB then
    match jpegQuants (b.length + 1) b with
    | none => (d.note .marker).fail .jpegMarker
    | some qs => { d.note .marker with quant := qs.reverse ++ d.quant }
  else if m = 0xDC then (d.note .marker).stop .dnl
  else if m = 0xDD then
    if b.length ≠ 2 then (d.note .marker).fail .jpegMarker else { d.note .marker with restart := beVal b }
  else if m = 0xDE || m = 0xDF then (d.note .marker).stop .hierarchical
  else if (0xE0 ≤ m && m ≤ 0xEF) || m = 0xFE then d.note .marker
  else d.fail .jpegMarker

/-- Markers up to EOI. -/
def JpegDec.markers : Nat → JpegDec → JpegDec
  | 0, d => d
  | fuel + 1, d =>
    if d.ended then d
    else match jpegMarkerAt d.rest with
      | none => d.fail (missingMarker d.rest)
      | some (m, b) =>
        if m = 0xD9 then (if d.scans = 0 then d.fail .jpegMarker else d)
        else if 0xD0 ≤ m && m ≤ 0xD7 then d.fail .jpegRestart
        else if m < 0xC0 || m = 0xD8 then d.fail .jpegMarker
        else
          let n := beVal (b.take 2)
          if b.length < 2 || b.length < n then d.fail .jpegTruncated
          else if n < 2 then d.fail .jpegMarker
          else JpegDec.markers fuel (JpegDec.segment m ((b.drop 2).take (n - 2)) { d with rest := b.drop n })

/-! ### The picture's coefficients -/

/-- Zigzag order: the place in a block, row by row, of each coefficient. -/
def zigzag : List Nat :=
  [0, 1, 8, 16, 9, 2, 3, 10, 17, 24, 32, 25, 18, 11, 4, 5, 12, 19, 26, 33, 40, 48, 41, 34, 27, 20, 13, 6, 7, 14, 21, 28] ++
  [35, 42, 49, 56, 57, 50, 43, 36, 29, 22, 15, 23, 30, 37, 44, 51, 58, 59, 52, 45, 38, 31, 39, 46, 53, 60, 61, 54, 47, 55, 62, 63]

/-- A block or table row by row. -/
def rowByRow (z : List Int) : List Int := (List.range 64).map (fun n => z[zigzag.idxOf n]?.getD 0)

/-- Parse a JPEG: what is met, and each component's quantisation table and blocks. -/
def jpegDecode (b : Bytes) : Jpeg :=
  let d := match jpegMarkerAt b with
    | some (0xD8, r) => JpegDec.markers (b.length + 1) (JpegDec.start r)
    | _ => (JpegDec.start b).fail .jpegMarker
  { steps := d.steps.reverse,
    comps := d.parts.map (fun p => { quant := rowByRow (p.quant.getD []), blocks := p.blocks.map rowByRow }) }

end Sys2Proof.Machine
end

