-- ==== Sys2Proof/Machine/Parquet.lean ====
section
/-! DEFINITION. Decoding of Parquet data pages (Table 6.6, R147): what the page engine meets, and the rows, lists and values of a page.
The format is that of Apache Parquet and of the Thrift compact protocol, which the spec cites and does not state (PRESUMED, log entry
180). -/

namespace Sys2Proof.Machine

open Sys2Proof

/-! ### What the page engine meets -/

/-- A type of an Arrow schema (Table 6.6). -/
inductive ArrowType
  | supported (depth : Nat)
  | union | map | runEnd | view | other
deriving DecidableEq, Repr, Inhabited

/-- What the page engine meets: a page header (its type and encoding, the encodings of its levels, its value count), an Arrow record
batch (the types of its schema, its metadata version, byte order, a delta dictionary, and its length), a step of the body's
decompression, input bytes, and a decoded value or row with its dictionary index. -/
inductive ColStep
  | page (dataPage : Bool) (encoding : Nat) (levels : List Nat) (count : Nat)
  | batch (types : List ArrowType) (version : Nat) (bigEndian delta : Bool) (length : Nat)
  | codec (w : WrapStep)
  | input (n : Nat)
  | value (index : Option Nat)
  | bad (d : Defect)
deriving DecidableEq, Repr, Inhabited

/-! ### Thrift compact protocol -/

/-- A base-128 number of at most `n` bytes, and the bytes behind it. -/
def varintOf : Nat → Bytes → Option (Nat × Bytes)
  | 0, _ => none
  | _, [] => none
  | n + 1, x :: xs =>
    if x.toNat < 128 then some (x.toNat, xs) else (varintOf n xs).map (fun r => (x.toNat - 128 + 128 * r.1, r.2))

def varint (b : Bytes) : Option (Nat × Bytes) := varintOf 10 b

/-- A number with its sign in the lowest bit. -/
def zigzagInt (n : Nat) : Int := if n % 2 = 0 then (n / 2 : Nat) else -((n / 2 : Nat) : Int) - 1

def thriftNumber (b : Bytes) : Option (Int × Bytes) := (varint b).map (fun r => (zigzagInt r.1, r.2))

inductive ThriftVal where
  | int (v : Int)
  | bin (b : Bytes)
deriving DecidableEq, Repr

/-- Work to do: the fields of a structure from its last field on, or so many elements of a type; where they stand. -/
inductive ThriftWork where
  | fields (last : Nat) (path : List Nat)
  | elems (n typ idx : Nat) (path : List Nat)
deriving DecidableEq, Repr

/-- A value of a type that is not a field's boolean: the value, or the work it holds, and the bytes behind it. -/
def thriftValue (typ : Nat) (path : List Nat) (b : Bytes) : Option (Option ThriftVal × List ThriftWork × Bytes) :=
  match typ with
  | 1 | 2 | 3 => match b with
    | [] => none
    | x :: xs => some (some (.int x.toInt), [], xs)
  | 4 | 5 | 6 => (thriftNumber b).map (fun r => (some (.int r.1), [], r.2))
  | 7 => if b.length < 8 then none else some (some (.bin (b.take 8)), [], b.drop 8)
  | 8 => match varint b with
    | none => none
    | some (n, b) => if b.length < n then none else some (some (.bin (b.take n)), [], b.drop n)
  | 9 | 10 => match b with
    | [] => none
    | x :: xs =>
      let t := x.toNat % 16
      if x.toNat / 16 < 15 then some (none, [.elems (x.toNat / 16) t 0 path], xs)
      else (varint xs).map (fun r => (none, [.elems r.1 t 0 path], r.2))
  | 11 => match varint b with
    | none => none
    | some (0, b) => some (none, [], b)
    | some (n, b) => match b with
      | [] => none
      | x :: xs =>
        if xs.length < n then none
        else some (none, (List.range n).flatMap (fun i =>
          [.elems 1 (x.toNat / 16) (2 * i) path, .elems 1 (x.toNat % 16) (2 * i + 1) path]), xs)
  | 12 => some (none, [.fields 0 path], b)
  | _ => none

/-- A structure: its values by path, and the bytes behind it. -/
def thriftRun : Nat → List ThriftWork → List (List Nat × ThriftVal) → Bytes → Option (List (List Nat × ThriftVal) × Bytes)
  | 0, _, _, _ => none
  | _ + 1, [], vs, b => some (vs.reverse, b)
  | fuel + 1, .elems 0 _ _ _ :: ws, vs, b => thriftRun fuel ws vs b
  | fuel + 1, .elems (n + 1) t i path :: ws, vs, b =>
    match thriftValue t (path ++ [i]) b with
    | none => none
    | some (v, more, b) =>
      thriftRun fuel (more ++ .elems n t (i + 1) path :: ws) ((v.map (fun v => (path ++ [i], v))).toList ++ vs) b
  | _ + 1, .fields _ _ :: _, _, [] => none
  | fuel + 1, .fields last path :: ws, vs, h :: b =>
    if h = 0 then thriftRun fuel ws vs b
    else
      let t := h.toNat % 16
      match (if h.toNat / 16 ≠ 0 then some (last + h.toNat / 16, b)
             else (thriftNumber b).map (fun r => (r.1.toNat, r.2))) with
      | none => none
      | some (id, b) =>
        let at' := path ++ [id]
        if t = 1 || t = 2 then thriftRun fuel (.fields id path :: ws) ((at', .int (if t = 1 then 1 else 0)) :: vs) b
        else match thriftValue t at' b with
          | none => none
          | some (v, more, b) =>
            thriftRun fuel (more ++ .fields id path :: ws) ((v.map (fun v => (at', v))).toList ++ vs) b

def thrift (b : Bytes) : Option (List (List Nat × ThriftVal) × Bytes) := thriftRun (4 * b.length + 4) [.fields 0 []] [] b

/-- The number at a path. -/
def thriftInt (vs : List (List Nat × ThriftVal)) (path : List Nat) : Option Int :=
  match vs.find? (fun v => v.1 = path) with
  | some (_, .int v) => some v
  | _ => none

/-- A number that counts something. -/
def thriftNat (vs : List (List Nat × ThriftVal)) (path : List Nat) : Option Nat :=
  (thriftInt vs path).bind (fun v => if v < 0 then none else some v.toNat)

/-! ### Page headers -/

/-- A page header: its type, sizes and CRC, and what the header of its kind says; in a page of version 2, rows, the bytes of its levels
and whether the rest is compressed. -/
structure PageHead where
  kind     : Int
  plain    : Nat
  stored   : Nat
  crc      : Option Nat
  count    : Nat
  encoding : Nat
  defEnc   : Nat
  repEnc   : Nat
  rows     : Option Nat
  defLen   : Nat
  repLen   : Nat
  packed   : Bool
deriving DecidableEq, Repr

/-- A header and the bytes behind it; none where it does not parse. -/
def pageHead (b : Bytes) : Option (PageHead × Bytes) := do
  let (vs, r) ← thrift b
  let kind ← thriftInt vs [1]
  let plain ← thriftNat vs [2]
  let stored ← thriftNat vs [3]
  let crc := (thriftInt vs [4]).map (fun v => wrapInt 4 v)
  let head : PageHead :=
    { kind := kind, plain := plain, stored := stored, crc := crc, count := 0, encoding := 0, defEnc := 3, repEnc := 3, rows := none,
      defLen := 0, repLen := 0, packed := true }
  if kind = 0 then
    let n ← thriftNat vs [5, 1]
    let e ← thriftNat vs [5, 2]
    let d ← thriftNat vs [5, 3]
    let p ← thriftNat vs [5, 4]
    some ({ head with count := n, encoding := e, defEnc := d, repEnc := p }, r)
  else if kind = 3 then
    let n ← thriftNat vs [8, 1]
    let rows ← thriftNat vs [8, 3]
    let e ← thriftNat vs [8, 4]
    let d ← thriftNat vs [8, 5]
    let p ← thriftNat vs [8, 6]
    some ({ head with count := n, encoding := e, rows := some rows, defLen := d, repLen := p,
                      packed := thriftInt vs [8, 7] ≠ some 0 }, r)
  else if kind = 2 then
    let n ← thriftNat vs [7, 1]
    let e ← thriftNat vs [7, 2]
    some ({ head with count := n, encoding := e }, r)
  else some (head, r)

/-! ### The encodings -/

/-- `n` fields of `w` bits, least significant bit first; fewer where the bits end. -/
def unpackBits (w : Nat) : Nat → List Bool → List Nat
  | 0, _ => []
  | n + 1, b =>
    let t := b.take w
    if t.length < w then [] else bitsVal t.reverse :: unpackBits w n (b.drop w)

/-- The RLE/bit-packed hybrid: up to `n` numbers of `w` bits, fewer where the bytes end between runs; none for a bad run. -/
def hybrid (w : Nat) : Nat → Nat → Bytes → Option (List Nat)
  | 0, _, _ => some []
  | _ + 1, 0, _ => some []
  | _ + 1, _, [] => some []
  | fuel + 1, n, b =>
    match varint b with
    | none => none
    | some (h, b) =>
      if h / 2 = 0 then none
      else if h % 2 = 0 then
        let size := ceilDiv w 8
        let v := fieldAt b 0 size
        if b.length < size || 2 ^ w ≤ v then none
        else (hybrid w fuel (n - h / 2) (b.drop size)).map (List.replicate (min n (h / 2)) v ++ ·)
      else
        let size := h / 2 * w
        if b.length < size then none
        else (hybrid w fuel (n - 8 * (h / 2)) (b.drop size)).map
          (unpackBits w (min n (8 * (h / 2))) (forwardBits (b.take size)) ++ ·)

def hybridOf (w n : Nat) (b : Bytes) : Option (List Nat) := hybrid w (b.length + 1) n b

/-- Values behind their predecessors: differences added modulo 2^bits. -/
def deltaSums (bits : Nat) : Nat → List Nat → List Nat
  | _, [] => []
  | v, d :: ds => (v + d) % 2 ^ bits :: deltaSums bits ((v + d) % 2 ^ bits) ds

/-- Miniblocks of a block: `n` differences are still to come, `per` of them a miniblock; the differences and the bytes behind them. -/
def miniblocks (bits per : Nat) (low : Int) : Nat → List Nat → Bytes → Option (List Nat × Bytes)
  | _, [], b => some ([], b)
  | 0, _ :: _, b => some ([], b)
  | n, w :: ws, b =>
    let size := per * w / 8
    if bits < w || b.length < size then none
    else
      let ds := (unpackBits w (min n per) (forwardBits (b.take size))).map (fun v => wrapInt (bits / 8) (low + v))
      (miniblocks bits per low (n - per) ws (b.drop size)).map (fun r => (ds ++ r.1, r.2))

/-- Blocks of a DELTA_BINARY_PACKED string: `n` differences are still to come. -/
def deltaBlocks (bits minis per : Nat) : Nat → Nat → Bytes → Option (List Nat × Bytes)
  | 0, _, _ => none
  | _ + 1, 0, b => some ([], b)
  | fuel + 1, n, b =>
    match thriftNumber b with
    | none => none
    | some (low, b) =>
      if b.length < minis then none
      else match miniblocks bits per low n ((b.take minis).map BitVec.toNat) (b.drop minis) with
        | none => none
        | some (ds, b) => (deltaBlocks bits minis per fuel (n - minis * per) b).map (fun r => (ds ++ r.1, r.2))

/-- DELTA_BINARY_PACKED: numbers modulo 2^bits and the bytes behind them. -/
def deltaBinary (bits : Nat) (b : Bytes) : Option (List Nat × Bytes) := do
  let (block, b) ← varint b
  let (minis, b) ← varint b
  let (total, b) ← varint b
  let (first, b) ← thriftNumber b
  let per := block / minis
  if minis = 0 || block % 128 ≠ 0 || block = 0 || block % minis ≠ 0 || per % 32 ≠ 0 then none
  else if total = 0 then some ([], b)
  else
    let v := wrapInt (bits / 8) first
    let (ds, b) ← deltaBlocks bits minis per (b.length + 1) (total - 1) b
    some (v :: deltaSums bits v ds, b)

/-- Bytes of a value of a physical type; none for BYTE_ARRAY. -/
def ptypeWidth (ptype typeLen : Nat) : Option Nat :=
  match ptype with
  | 0 => some 1
  | 1 => some 4
  | 2 => some 8
  | 4 => some 4
  | 5 => some 8
  | 7 => some typeLen
  | _ => none

/-- Up to `n` values of `w` bytes. -/
def chunks (w : Nat) : Nat → Bytes → List Bytes
  | 0, _ => []
  | n + 1, b => if (b.take w).length < w then [] else b.take w :: chunks w n (b.drop w)

/-- Up to `n` byte arrays behind their lengths; none where a length runs beyond the data. -/
def byteArrays : Nat → Bytes → Option (List Bytes)
  | 0, _ => some []
  | n + 1, b =>
    if b.isEmpty then some []
    else
      let k := fieldAt b 0 4
      if b.length < 4 + k then none else (byteArrays n (b.drop (4 + k))).map ((b.drop 4).take k :: ·)

/-- Byte arrays of the lengths given; none where one runs beyond the data. -/
def byteRuns : List Nat → Bytes → Option (List Bytes)
  | [], _ => some []
  | k :: ks, b => if b.length < k then none else (byteRuns ks (b.drop k)).map (b.take k :: ·)

/-- PLAIN values; a BOOLEAN is a byte of 0 or 1. -/
def plainValues (ptype typeLen n : Nat) (b : Bytes) : Option (List Bytes) :=
  if ptype = 0 then some ((unpackBits 1 n (forwardBits b)).map (fun v => [BitVec.ofNat 8 v]))
  else match ptypeWidth ptype typeLen with
    | some w => some (chunks w n b)
    | none => byteArrays n b

/-- An encoding fits a physical type: RLE is for booleans, DELTA_BINARY_PACKED for integers, DELTA_LENGTH_BYTE_ARRAY for byte
arrays. -/
def encodingFits (encoding ptype : Nat) : Bool :=
  match encoding with
  | 3 => ptype = 0
  | 5 => ptype = 1 || ptype = 2
  | 6 => ptype = 6
  | _ => true

/-- The values of a page are dictionary indexes. -/
def indexed (encoding : Nat) : Bool := encoding = 2 || encoding = 8

/-- Values that stand in the page itself: up to `n`, fewer where the data ends; none for a defect. -/
def pageValues (encoding ptype typeLen n : Nat) (b : Bytes) : Option (List Bytes) :=
  match encoding with
  | 3 =>
    let k := fieldAt b 0 4
    if b.length < 4 + k then (if n = 0 then some [] else none)
    else (hybridOf 1 n ((b.drop 4).take k)).map (·.map (fun v => [BitVec.ofNat 8 v]))
  | 5 =>
    let w := if ptype = 1 then 4 else 8
    if b.isEmpty then some [] else (deltaBinary (8 * w) b).map (·.1.map (leBytes w))
  | 6 =>
    if b.isEmpty then some []
    else (deltaBinary 32 b).bind (fun r => if r.1.any (2 ^ 31 ≤ ·) then none else byteRuns r.1 r.2)
  | _ => plainValues ptype typeLen n b

/-- Dictionary indexes: up to `n` behind their bit width. -/
def pageIndexes (n : Nat) (b : Bytes) : Option (List Nat) :=
  match b with
  | [] => some []
  | w :: b => if 32 < w.toNat then none else hybridOf w.toNat n b

/-! ### Rows and lists -/

/-- What an entry of a column is: a null list, an empty list, a null element or a value. -/
inductive EntryKind where
  | nullList
  | emptyList
  | nullElem
  | value
deriving DecidableEq, Repr

/-- A column's lists can be null, and its elements: MAX_DEF counts one level for each and one for the list itself. With MAX_DEF 2 the
parameter block does not say which (log entry 150). -/
def listsNullable (maxDef : Nat) : Bool := 3 ≤ maxDef || (maxDef = 2 && Config.listNullable)

def elemsNullable (maxDef : Nat) : Bool := 3 ≤ maxDef || (maxDef = 2 && !Config.listNullable)

/-- The entry of a definition level. -/
def entryKind (maxRep maxDef d : Nat) : EntryKind :=
  if d = maxDef then .value
  else if maxRep = 0 then .nullElem
  else if d = 0 && listsNullable maxDef then .nullList
  else if d = (if listsNullable maxDef then 1 else 0) then .emptyList
  else .nullElem

/-- A row of a column: whether it is valid, and its elements (one, where the column has no lists). -/
structure PageRow where
  valid : Bool
  elems : List (Option Bytes)
deriving DecidableEq, Repr

/-- Rows, newest first, from entries (repetition level, kind) and the values in order; none where a level is out of place. -/
def pageRows (maxRep : Nat) : List (Nat × EntryKind) → List Bytes → List PageRow → Option (List PageRow)
  | [], _, rows => some rows
  | (rep, kind) :: es, vs, rows =>
    let slot := if kind = .value then some (vs.head?.getD []) else none
    let vs := if kind = .value then vs.drop 1 else vs
    if rep = 0 then
      let row : PageRow := match kind with
        | .nullList => { valid := false, elems := [] }
        | .emptyList => { valid := true, elems := [] }
        | k => { valid := maxRep ≠ 0 || k = .value, elems := [slot] }
      pageRows maxRep es vs (row :: rows)
    else match rows with
      | [] => none
      | r :: rs =>
        if kind = .nullList || kind = .emptyList || r.elems.isEmpty then none
        else pageRows maxRep es vs ({ r with elems := r.elems ++ [slot] } :: rs)

/-! ### Pages -/

/-- A decoded page: its steps, the rows it has or would have, and the rows themselves. -/
structure Page where
  steps  : List ColStep
  rows   : Nat
  column : List PageRow
deriving DecidableEq, Repr

/-- The WRAP number of a Parquet codec. -/
def codecWrap (codec : Nat) : Nat := if codec = 1 then 6 else if codec = 2 then 3 else 4

/-- A body after its codec: the steps of the decompression, and the bytes. -/
def codecOpen (codec : Nat) (b : Bytes) : List WrapStep × Bytes :=
  if codec = 0 then ([], b)
  else
    let ws := unwrap (codecWrap codec) b
    (ws, ws.flatMap wrapOut)

/-- The entries of a dictionary page; one that does not decode has none, so that every index lies beyond it. -/
def dictEntries (param b : Bytes) : List Bytes :=
  match pageHead b with
  | none => []
  | some (h, r) =>
    let d := codecOpen (fieldAt param 3 1) (r.take h.stored)
    if h.kind ≠ 2 || !(h.encoding = 0 || h.encoding = 2) then []
    else (plainValues (fieldAt param 0 1) (fieldAt param 4 4) h.count d.2).getD []

/-- Levels behind a 4-byte length (version 1): the levels, and the bytes behind them. -/
def levelsOf (most n : Nat) (b : Bytes) : Option (List Nat × Bytes) :=
  let k := fieldAt b 0 4
  if most = 0 then some (List.replicate n 0, b)
  else if b.length < 4 + k then none
  else (hybridOf (most.log2 + 1) n ((b.drop 4).take k)).map (fun l => (l, b.drop (4 + k)))

/-- Levels of a given length (version 2). -/
def levelsIn (most n : Nat) (b : Bytes) : Option (List Nat) :=
  if most = 0 then some (List.replicate n 0) else hybridOf (most.log2 + 1) n b

/-- The body of a page: repetition and definition levels and the data behind them, with the steps on the way there; a version 2 page
holds its levels uncompressed. -/
def pageBody (h : PageHead) (maxRep maxDef codec : Nat) (b : Bytes) : List WrapStep × Option (List Nat × List Nat × Bytes) :=
  if h.kind = 3 then
    let data := b.drop (h.repLen + h.defLen)
    let o := if h.packed && !data.isEmpty then codecOpen codec data else ([], data)
    (o.1, do
      let r ← levelsIn maxRep h.count (b.take h.repLen)
      let d ← levelsIn maxDef h.count ((b.drop h.repLen).take h.defLen)
      if b.length < h.repLen + h.defLen || h.repLen + h.defLen + o.2.length ≠ h.plain then none else some (r, d, o.2))
  else
    let o := codecOpen codec b
    (o.1, do
      let r ← levelsOf maxRep h.count o.2
      let d ← levelsOf maxDef h.count r.2
      if o.2.length ≠ h.plain then none else some (r.1, d.1, d.2))

/-- The value steps of entries: values and nulls in order, as far as the values go, an index for each value of a dictionary. -/
def valueSteps : List EntryKind → List (Option Nat) → List ColStep
  | [], _ => []
  | .value :: _, [] => []
  | .value :: ks, i :: vs => .value i :: valueSteps ks vs
  | _ :: ks, vs => .value none :: valueSteps ks vs

/-- The rows of a page, where its header and levels say how many; else free (R159). -/
def pageRowCount (h : PageHead) (maxRep : Nat) (reps : Option (List Nat)) (b : Bytes) : Nat :=
  match h.rows with
  | some n => n
  | none => if maxRep = 0 then h.count else match reps with
    | some l => (l.filter (· = 0)).length
    | none => Config.brokeRows b

/-- The values or indexes of a page: the bytes of each, and its index where it has one; none for a defect. -/
def pageSlots (h : PageHead) (param : Bytes) (dict : List Bytes) (n : Nat) (data : Bytes) : Option (List (Option Nat × Bytes)) :=
  if indexed h.encoding then (pageIndexes n data).map (·.map (fun i => (some i, dict[i]?.getD [])))
  else (pageValues h.encoding (fieldAt param 0 1) (fieldAt param 4 4) n data).map (·.map (fun v => (none, v)))

/-- A data page under a parameter block (Table 6.8, PAGE), with the entries of its dictionary. -/
def parquetPage (param : Bytes) (dict : List Bytes) (b : Bytes) : Page :=
  let maxDef := fieldAt param 1 1
  let maxRep := fieldAt param 2 1
  match pageHead b with
  | none => { steps := [.input b.length, .bad .pageHeader], rows := Config.brokeRows b, column := [] }
  | some (h, r) =>
    let levels := (if maxRep = 0 then [] else [h.repEnc]) ++ (if maxDef = 0 then [] else [h.defEnc])
    let head : List ColStep := [.input (b.length - r.length), .page (h.kind = 0 || h.kind = 3) h.encoding levels h.count] ++
      (if encodingFits h.encoding (fieldAt param 0 1) then [] else [.bad .pageEncoding]) ++ [.input r.length]
    let data := r.take h.stored
    if data.length < h.stored then
      { steps := head ++ [.bad .pageData], rows := pageRowCount h maxRep none b, column := [] }
    else if h.crc.any (· ≠ crc32 data) then
      { steps := head ++ [.bad .pageCrc], rows := pageRowCount h maxRep none b, column := [] }
    else
      let body := pageBody h maxRep maxDef (fieldAt param 3 1) data
      let head := head ++ body.1.map .codec
      match body.2 with
      | none => { steps := head ++ [.bad .pageData], rows := pageRowCount h maxRep none b, column := [] }
      | some (reps, defs, rest) =>
        let kinds := (List.zip reps defs).map (fun e => (e.1, entryKind maxRep maxDef e.2))
        let bad := reps.any (maxRep < ·) || defs.any (maxDef < ·)
        let want := (kinds.filter (fun e => e.2 = .value)).length
        let rows := pageRowCount h maxRep (some reps) b
        match pageSlots h param dict want rest with
        | none => { steps := head ++ [.bad .pageData], rows := rows, column := [] }
        | some vs =>
          match pageRows maxRep kinds (vs.map (·.2)) [] with
          | none => { steps := head ++ [.bad .pageData], rows := rows, column := [] }
          | some column =>
            { steps := head ++ (if bad then [.bad .pageData] else []) ++ valueSteps (kinds.map (·.2)) (vs.map (·.1)) ++
                (if column.length = rows && vs.length = want then [] else [.bad .pageCount]),
              rows := rows, column := column.reverse }

end Sys2Proof.Machine
end

