-- ==== Sys2Proof/Machine/Arrow.lean ====
section
/-! DEFINITION. Decoding of Arrow IPC record batches (Table 6.6, R147): what the page engine meets, and the buffers of a batch. The
format is that of Apache Arrow and of FlatBuffers, which the spec cites and does not state (PRESUMED, log entry 181). -/

namespace Sys2Proof.Machine

open Sys2Proof

/-! ### FlatBuffers -/

/-- An `n`-byte number inside the buffer. -/
def fbNat (b : Bytes) (p n : Nat) : Option Nat := if b.length < p + n then none else some (fieldAt b p n)

/-- Where a reference leads. -/
def fbRef (b : Bytes) (p : Nat) : Option Nat := (fbNat b p 4).map (p + ·)

/-- The place of field `i` of a table: `some none` where the table has none. -/
def fbField (b : Bytes) (t i : Nat) : Option (Option Nat) := do
  let back ← fbNat b t 4
  let v := (t : Int) - intVal true 4 back
  if v < 0 then none
  else
    let size ← fbNat b v.toNat 2
    if size < 6 + 2 * i then some none
    else
      let off ← fbNat b (v.toNat + 4 + 2 * i) 2
      some (if off = 0 then none else some (t + off))

/-- A number field with its default. -/
def fbNum (b : Bytes) (t i n d : Nat) : Option Nat := do
  match ← fbField b t i with
  | none => some d
  | some p => fbNat b p n

/-- A table field. -/
def fbTable (b : Bytes) (t i : Nat) : Option (Option Nat) := do
  match ← fbField b t i with
  | none => some none
  | some p => (fbRef b p).map some

/-- A vector field: the places of its elements of `n` bytes. -/
def fbVec (b : Bytes) (t i n : Nat) : Option (List Nat) := do
  match ← fbField b t i with
  | none => some []
  | some p =>
    let v ← fbRef b p
    let k ← fbNat b v 4
    if b.length < v + 4 + n * k then none else some ((List.range k).map (fun j => v + 4 + n * j))

/-! ### Schemas -/

/-- The layout of an array: values of so many bits, byte strings or lists with offsets of so many bytes, lists of one size, or a
structure. -/
inductive ArrowKind where
  | fixed (bits : Nat)
  | strings (width : Nat)
  | list (width : Nat)
  | fixedList (size : Nat)
  | struct
deriving DecidableEq, Repr, Inhabited

/-- A field or child of a schema, in order of its parents: its level, layout, type, and the dictionary its values index. -/
structure ArrowNode where
  level : Nat
  kind  : ArrowKind
  typ   : ArrowType
  dict  : Option Nat
deriving DecidableEq, Repr, Inhabited

/-- A type: its layout, and the name Table 6.6 has for it at a level. -/
def arrowType (b : Bytes) (id : Nat) (t : Option Nat) (level : Nat) : Option (ArrowKind × ArrowType) := do
  let num := fun i n d => match t with
    | some t => fbNum b t i n d
    | none => some d
  match id with
  | 2 =>
    let w ← num 0 4 0
    some (.fixed w, if [8, 16, 32, 64].contains w then .supported level else .other)
  | 3 =>
    let p ← num 0 2 0
    some (.fixed (16 * 2 ^ p), if p ≤ 2 then .supported level else .other)
  | 4 => some (.strings 4, .supported level)
  | 5 => some (.strings 4, .supported level)
  | 6 => some (.fixed 1, .supported level)
  | 12 => some (.list 4, .supported (level + 1))
  | 13 => some (.struct, .supported (level + 1))
  | 14 => some (.struct, .union)
  | 15 =>
    let w ← num 0 4 0
    some (.fixed (8 * w), .supported level)
  | 16 =>
    let n ← num 0 4 0
    some (.fixedList n, .supported (level + 1))
  | 17 => some (.list 4, .map)
  | 19 => some (.strings 8, .supported level)
  | 20 => some (.strings 8, .supported level)
  | 21 => some (.list 8, .supported (level + 1))
  | 22 => some (.struct, .runEnd)
  | 23 => some (.strings 4, .view)
  | 24 => some (.strings 4, .view)
  | 25 => some (.list 4, .view)
  | 26 => some (.list 8, .view)
  | _ => some (.fixed 0, .other)

/-- A schema: the nodes of its fields, and the nodes of its dictionaries by number. -/
structure ArrowSchema where
  nodes : List ArrowNode
  dicts : List (Nat × List ArrowNode)
deriving DecidableEq, Repr

/-- The nodes of a record batch that comes without a schema, from its counts of nodes and buffers: one column, fixed or of strings, or
with a list or another parent above it (DESIGN CHOICE, log entry 186). -/
def bareNodes (nodes bufs : Nat) : Option (List ArrowNode) :=
  let node := fun l k => ({ level := l, kind := k, typ := .supported l, dict := none } : ArrowNode)
  match nodes, bufs with
  | 1, 2 => some [node 0 (.fixed 0)]
  | 1, 3 => some [node 0 (.strings 4)]
  | 2, 3 => some [node 0 .struct, node 1 (.fixed 0)]
  | 2, 4 => some [node 0 (.list 4), node 1 (.fixed 0)]
  | 2, 5 => some [node 0 (.list 4), node 1 (.strings 4)]
  | _, _ => none

def ArrowSchema.append (x y : ArrowSchema) : ArrowSchema := { nodes := x.nodes ++ y.nodes, dicts := x.dicts ++ y.dicts }

/-- The schemas of fields in turn. -/
def joinSchemas : List (Option ArrowSchema) → Option ArrowSchema
  | [] => some { nodes := [], dicts := [] }
  | x :: xs => do
    let a ← x
    let r ← joinSchemas xs
    some (a.append r)

/-- A field at a level; `fuel` bounds the nesting read. -/
def arrowField (b : Bytes) : Nat → Nat → Nat → Option ArrowSchema
  | 0, _, _ => none
  | fuel + 1, level, t => do
    let id ← fbNum b t 2 1 0
    let tt ← fbTable b t 3
    let dict ← fbTable b t 4
    let kids ← fbVec b t 5 4
    let at' := if dict.isSome then 0 else level
    let k ← arrowType b id tt at'
    let sub ← joinSchemas (kids.map (fun p => (fbRef b p).bind (arrowField b fuel (at' + 1))))
    match dict with
    | none => some { nodes := { level := level, kind := k.1, typ := k.2, dict := none } :: sub.nodes, dicts := sub.dicts }
    | some d =>
      let num ← fbNum b d 0 8 0
      let ix ← fbTable b d 1
      let bits ← match ix with
        | none => some 32
        | some x => fbNum b x 0 4 0
      some { nodes := [{ level := level, kind := .fixed bits, typ := k.2, dict := some num }],
             dicts := (num, { level := 0, kind := k.1, typ := k.2, dict := none } :: sub.nodes) :: sub.dicts }

/-- Nested types to this depth are read at all; more than 3 are outside the subset. -/
def arrowNesting : Nat := 64

/-- A Schema table: whether it is big-endian, and its fields. -/
def arrowSchema (b : Bytes) (t : Nat) : Option (Bool × ArrowSchema) := do
  let e ← fbNum b t 0 2 0
  let fs ← fbVec b t 1 4
  let s ← joinSchemas (fs.map (fun p => (fbRef b p).bind (arrowField b arrowNesting 0)))
  some (e ≠ 0, s)

def ArrowSchema.types (s : ArrowSchema) : List ArrowType := (s.nodes ++ s.dicts.flatMap (·.2)).map (·.typ)

/-- A type of the subset: Struct nests to depth 3. -/
def arrowTypeOk (x : ArrowType) : Bool :=
  match x with
  | .supported depth => depth ≤ 3
  | _ => false

/-! ### Record batches -/

/-- A RecordBatch table: length, nodes (length, nulls), buffers (offset, length) and codec. -/
structure ArrowHead where
  length : Nat
  nodes  : List (Nat × Nat)
  bufs   : List (Nat × Nat)
  codec  : Option Nat
deriving DecidableEq, Repr

def arrowHead (b : Bytes) (t : Nat) : Option ArrowHead := do
  let len ← fbNum b t 0 8 0
  let ns ← fbVec b t 1 16
  let bs ← fbVec b t 2 16
  let pair := fun p => (fieldAt b p 8, fieldAt b (p + 8) 8)
  let codec ← match ← fbTable b t 3 with
    | none => some none
    | some c => (fbNum b c 0 1 0).map some
  some { length := len, nodes := ns.map pair, bufs := bs.map pair, codec := codec }

/-- The WRAP number of a body compression. -/
def arrowWrap (codec : Nat) : Nat := if codec = 0 then 5 else 4

/-- A buffer of a body after its compression: the steps, and the bytes; none where it lies outside the body or holds another length
than it says. -/
def arrowBuffer (codec : Option Nat) (body : Bytes) (p : Nat × Nat) : List WrapStep × Option Bytes :=
  let b := (body.drop p.1).take p.2
  if body.length < p.1 + p.2 then ([], none)
  else match codec with
    | none => ([], some b)
    | some c =>
      if b.isEmpty then ([], some b)
      else if b.length < 8 then ([], none)
      else if fieldAt b 0 8 = 2 ^ 64 - 1 then ([], some (b.drop 8))
      else
        let ws := unwrap (arrowWrap c) (b.drop 8)
        let out := ws.flatMap wrapOut
        (ws, if out.length = fieldAt b 0 8 then some out else none)

/-- The buffers of a batch in order, up to the first that cannot be had. -/
def arrowBuffers (codec : Option Nat) (body : Bytes) : List (Nat × Nat) → List WrapStep × Option (List Bytes)
  | [] => ([], some [])
  | p :: ps =>
    match arrowBuffer codec body p with
    | (ws, none) => (ws, none)
    | (ws, some b) =>
      let r := arrowBuffers codec body ps
      (ws ++ r.1, r.2.map (b :: ·))

/-- An array: its node, length, nulls, validity, offsets and data. -/
structure ArrowArray where
  node    : ArrowNode
  len     : Nat
  nulls   : Nat
  valid   : Bytes
  offsets : Bytes
  data    : Bytes
deriving DecidableEq, Repr

/-- The arrays of a batch from its nodes and buffers in order; none where there are too few. -/
def arrowArrays : List ArrowNode → List (Nat × Nat) → List Bytes → Option (List ArrowArray)
  | [], _, _ => some []
  | n :: ns, (len, nulls) :: ls, v :: bs =>
    let arr := fun o d => ({ node := n, len := len, nulls := nulls, valid := v, offsets := o, data := d } : ArrowArray)
    match n.kind, bs with
    | .fixed _, d :: bs => (arrowArrays ns ls bs).map (arr [] d :: ·)
    | .strings _, o :: d :: bs => (arrowArrays ns ls bs).map (arr o d :: ·)
    | .list _, o :: bs => (arrowArrays ns ls bs).map (arr o [] :: ·)
    | .fixedList _, bs => (arrowArrays ns ls bs).map (arr [] [] :: ·)
    | .struct, bs => (arrowArrays ns ls bs).map (arr [] [] :: ·)
    | _, _ => none
  | _ :: _, _, _ => none

/-- The offsets of an array of `n` entries. -/
def arrowOffsets (width n : Nat) (b : Bytes) : List Nat := (List.range (n + 1)).map (fun i => fieldAt b (width * i) width)

/-- Offsets are absent, decreasing, or lead beyond `most` (ARROW_BOUNDS). -/
def offsetsBad (width n : Nat) (b : Bytes) (most : Nat) : Bool :=
  let o := arrowOffsets width n b
  if n = 0 && b.isEmpty then false
  else b.length < width * (n + 1) || (List.zip o (o.drop 1)).any (fun p => p.2 < p.1) || o.any (most < ·)

/-- A buffer of an array is too short for its length; `child` is the length of the array behind it. -/
def ArrowArray.bad (a : ArrowArray) (child : Nat) : Bool :=
  (!a.valid.isEmpty && a.valid.length < ceilDiv a.len 8) || (a.valid.isEmpty && a.nulls ≠ 0) ||
    (match a.node.kind with
      | .fixed bits => a.data.length < ceilDiv (a.len * bits) 8
      | .strings w => offsetsBad w a.len a.offsets a.data.length
      | .list w => offsetsBad w a.len a.offsets child
      | .fixedList n => child < n * a.len
      | .struct => false)

/-- An array of the batch with the defect above. -/
def arraysBad : List ArrowArray → Bool
  | [] => false
  | a :: as => a.bad ((as.head?.map (·.len)).getD 0) || arraysBad as

/-! ### Columns -/

/-- A page or batch ready to write: rows, nulls and the four buffers of R147. -/
structure Columns where
  rows  : Nat
  nulls : Nat
  bufs  : List (Option Bytes)
deriving DecidableEq, Repr

def ArrowArray.isLeaf (a : ArrowArray) : Bool :=
  match a.node.kind with
  | .fixed _ => true
  | .strings _ => true
  | _ => false

def ArrowArray.isList (a : ArrowArray) : Bool :=
  match a.node.kind with
  | .list _ => true
  | _ => false

/-- The parents of an array at a level among those before it, nearest first; outermost first. -/
def parentsOf : Nat → List ArrowArray → List ArrowArray
  | _, [] => []
  | l, a :: as => if a.node.level < l then parentsOf a.node.level as ++ [a] else parentsOf l as

/-- Each leaf with its parents, outermost first. -/
def leafChains : List ArrowArray → List ArrowArray → List (List ArrowArray)
  | _, [] => []
  | before, a :: as =>
    (if a.isLeaf then [parentsOf a.node.level before ++ [a]] else []) ++ leafChains (a :: before) as

/-- A bit of a bitmap in the Arrow order; an absent one is all ones. -/
def validBit (b : Bytes) (i : Nat) : Bool := b.isEmpty || (b[i / 8]?.getD 0).getLsbD (i % 8)

/-- A validity bitmap in the Arrow bit order: bit k of byte b is value 8 b + k. -/
def validBytes (v : List Bool) : Bytes :=
  (List.range (ceilDiv v.length 8)).map (fun b =>
    BitVec.ofNat 8 (((List.range 8).map (fun k => if v[8 * b + k]?.getD false then 2 ^ k else 0)).foldl (· + ·) 0))

/-- Offsets of `w` bytes: the sums of the lengths before each entry, and of all of them. -/
def offsetBytes (w : Nat) : Nat → List Nat → Bytes
  | at', [] => leBytes w at'
  | at', n :: ns => leBytes w at' ++ offsetBytes w (at' + n) ns

/-- Decoded values one behind the other: of `width` bytes each, a null having a slot of its own; byte strings (no width) have no bytes
for a null. -/
def slotBytes (width : Option Nat) : Nat → List (Option Bytes) → Bytes
  | _, [] => []
  | k, some v :: xs => v ++ slotBytes width (k + 1) xs
  | k, none :: xs => (List.range (width.getD 0)).map (Config.nullByte k) ++ slotBytes width (k + 1) xs

/-- Decoded booleans as a bitmap; the bit of a null is open. -/
def slotBits (xs : List (Option Bytes)) : Bytes :=
  validBytes ((List.range xs.length).map (fun k => match xs[k]?.getD none with
    | some v => v.head?.getD 0 = 1
    | none => (Config.nullByte k 0).getLsbD 0))

/-- The entries of a dictionary whose type has no children, null ones absent. -/
def ArrowArray.entries (a : ArrowArray) : List (Option Bytes) :=
  (List.range a.len).map (fun i =>
    if !validBit a.valid i then none
    else match a.node.kind with
      | .fixed 1 => some [BitVec.ofNat 8 (if validBit a.data i then 1 else 0)]
      | .fixed bits => some ((a.data.drop (bits / 8 * i)).take (bits / 8))
      | .strings w =>
        let off := fun k => fieldAt a.offsets (w * k) w
        some ((a.data.drop (off i)).take (off (i + 1) - off i))
      | _ => none)

/-- The indexes of a dictionary-encoded array, null ones absent. -/
def ArrowArray.indexes (a : ArrowArray) : List (Option Nat) :=
  let w := match a.node.kind with
    | .fixed bits => bits / 8
    | _ => 0
  (List.range a.len).map (fun i => if validBit a.valid i then some (fieldAt a.data (w * i) w) else none)

/-- What stands for an array: itself, or, when its values index a dictionary, those values written out (R147); none where an index lies
beyond the dictionary. A dictionary of a type with children has no place of its own in the four buffers, and its values are free. -/
def ArrowArray.decoded (dicts : List (Nat × List ArrowArray)) (a : ArrowArray) : Option ArrowArray :=
  match a.node.dict with
  | none => some a
  | some n => match (dicts.find? (fun d => d.1 = n)).map (·.2) with
    | some [d] =>
      let es := d.entries
      let ix := a.indexes
      if ix.any (fun i => i.any (es.length ≤ ·)) then none
      else
        let xs := ix.map (fun i => match i with
          | some i => es[i]?.getD none
          | none => none)
        let valid := xs.map Option.isSome
        some { a with
          node := { d.node with level := a.node.level }
          nulls := (valid.filter (fun v => !v)).length
          valid := if d.nulls = 0 then a.valid else validBytes valid
          offsets := (match d.node.kind with
            | .strings w => offsetBytes w 0 (xs.map (fun x => (x.getD []).length))
            | _ => [])
          data := (match d.node.kind with
            | .fixed 1 => slotBits xs
            | .fixed bits => slotBytes (some (bits / 8)) 0 xs
            | _ => slotBytes none 0 xs) }
    | some (d :: _) =>
      if a.indexes.any (fun i => i.any (d.len ≤ ·)) then none else some { a with data := Config.nestedValues a.data }
    | _ => none

/-- A buffer that is there when it has bytes. -/
def presentBuf (b : Bytes) : Option Bytes := if b.isEmpty then none else some b

/-- The four buffers of a leaf and its parents: the outermost validity, the offsets of the outermost list (of the byte strings
themselves, where there is no list), the leaf's validity when it is not the outermost array, and its values. -/
def chainBufs (c : List ArrowArray) : List (Option Bytes) :=
  match c.head?, c.getLast? with
  | some root, some leaf =>
    [presentBuf root.valid,
     (match c.find? (·.isList) with
      | some l => some l.offsets
      | none => presentBuf leaf.offsets),
     if c.length = 1 then none else presentBuf leaf.valid, some leaf.data]
  | _, _ => [none, none, none, none]

/-! ### Messages -/

/-- A stream being read; steps newest first; what is written once the record batch has come. -/
structure ArrowDec where
  rest    : Bytes
  schema  : Option ArrowSchema
  dicts   : List (Nat × List ArrowArray)
  steps   : List ColStep
  rows    : Option Nat
  columns : Option Columns
  ended   : Bool
deriving DecidableEq, Repr

def ArrowDec.note (x : ColStep) (d : ArrowDec) : ArrowDec := { d with steps := x :: d.steps }

def ArrowDec.fail (x : Defect) (d : ArrowDec) : ArrowDec := { d with steps := .bad x :: d.steps, ended := true }

/-- The arrays of a record batch table in a body, after the steps of its compression; `none` ends the stream with its defect. Widths
and offsets are known, and checked, where a schema gives the types. -/
def ArrowDec.arrays (typed : Bool) (nodes : List ArrowNode) (h : ArrowHead) (body : Bytes) (d : ArrowDec) :
    ArrowDec × Option (List ArrowArray) :=
  if h.codec.any (1 < ·) then (d.fail .arrowUnsupported, none)
  else
    let bufs := arrowBuffers h.codec body h.bufs
    let d := { d with steps := (bufs.1.map ColStep.codec).reverse ++ d.steps }
    match bufs.2 with
    | none => (d.fail .arrowBounds, none)
    | some bs => match arrowArrays nodes h.nodes bs with
      | none => (d.fail .arrowMessage, none)
      | some as => if typed && arraysBad as then (d.fail .arrowBounds, none) else (d, some as)

/-- A dictionary batch. -/
def ArrowDec.dictionary (m : Bytes) (t version : Nat) (body : Bytes) (d : ArrowDec) : ArrowDec :=
  match d.schema, fbNum m t 0 8 0, fbTable m t 1, fbNum m t 2 1 0 with
  | some s, some id, some (some r), some delta =>
    let d := d.note (.batch [] version false (delta ≠ 0) 0)
    if delta ≠ 0 then { d with ended := true }
    else match (s.dicts.find? (fun x => x.1 = id)).map (·.2), arrowHead m r with
      | some nodes, some h =>
        match d.arrays true nodes h body with
        | (d, none) => d
        | (d, some as) => { d with dicts := (id, as) :: d.dicts }
      | _, _ => d.fail .arrowMessage
  | _, _, _, _ => d.fail .arrowMessage

/-- The record batch: its column, and a step for each row. -/
def ArrowDec.record (all m : Bytes) (t version len : Nat) (body : Bytes) (d : ArrowDec) : ArrowDec :=
  match arrowHead m t with
  | some h =>
    let d := { d.note (.batch [] version false false h.length) with rows := some h.length }
    if body.length < len then d.fail .arrowBounds
    else match (match d.schema with
      | some s => some s.nodes
      | none => bareNodes h.nodes.length h.bufs.length) with
    | none => d.fail .arrowMessage
    | some nodes => match d.arrays d.schema.isSome nodes h body with
    | (d, none) => d
    | (d, some as) =>
      let known := as.all (fun a => a.node.dict.all (fun n => d.dicts.any (fun x => x.1 = n)))
      if !known || as.any (fun a => a.node.level = 0 && a.len ≠ h.length) then d.fail .arrowMessage
      else if as.any (fun a => (a.decoded d.dicts).isNone) then d.fail .arrowBounds
      else
        let chains := leafChains [] (as.map (fun a => (a.decoded d.dicts).getD a))
        let pick := if chains.length ≤ 1 then 0 else Config.batchLeaf all % chains.length
        let c := chains[pick]?.getD []
        { d with steps := List.replicate h.length (.value none) ++ d.steps, ended := true,
                 columns := some { rows := h.length, nulls := (c.head?.map (·.nulls)).getD 0, bufs := chainBufs c } }
  | none => d.fail .arrowMessage

/-- Messages up to the first record batch. -/
def ArrowDec.messages (all : Bytes) : Nat → ArrowDec → ArrowDec
  | 0, d => d
  | fuel + 1, d =>
    if d.ended then d
    else
      let b := d.rest
      let n := fieldAt b 4 4
      let m := (b.drop 8).take n
      if b.length < 8 || fieldAt b 0 4 ≠ 0xFFFFFFFF || n = 0 || m.length < n then d.fail .arrowMessage
      else
        let d := d.note (.input (8 + n))
        match (do
          let t ← fbRef m 0
          let version ← fbNum m t 0 2 0
          let kind ← fbNum m t 1 1 0
          let head ← fbTable m t 2
          let len ← fbNum m t 3 8 0
          some (version, kind, head, len)) with
        | some (version, kind, some head, len) =>
          let body := (b.drop (8 + n)).take len
          let d := { d.note (.input body.length) with rest := b.drop (8 + n + len) }
          if kind = 1 then
            match arrowSchema m head with
            | none => d.fail .arrowMessage
            | some (big, s) =>
              let d := d.note (.batch s.types version big false 0)
              if body.length < len then d.fail .arrowBounds
              else ArrowDec.messages all fuel { d with schema := some s }
          else if kind = 3 then d.record all m head version len body
          else if body.length < len then d.fail .arrowBounds
          else if kind = 2 then ArrowDec.messages all fuel (d.dictionary m head version body)
          else d.fail .arrowMessage
        | _ => d.fail .arrowMessage

/-- The magic that begins a file, padded to 8 bytes. -/
def arrowMagic : Bytes := [0x41, 0x52, 0x52, 0x4F, 0x57, 0x31, 0x00, 0x00]

/-- A decoded batch: its steps, and what is written; a broke one has only rows. -/
structure Batch where
  steps   : List ColStep
  rows    : Nat
  columns : Columns
deriving DecidableEq, Repr

/-- A stream or file (Table 6.6) up to its first record batch; the bytes behind it are charged as input. -/
def arrowBatch (b : Bytes) : Batch :=
  let file := b.take 8 = arrowMagic
  let d := ArrowDec.messages b (b.length + 1)
    { rest := if file then b.drop 8 else b, schema := none, dicts := [], steps := if file then [.input 8] else [], rows := none,
      columns := none, ended := false }
  let rows := match d.rows with
    | some n => n
    | none => Config.brokeRows b
  { steps := d.steps.reverse ++ (if d.columns.isSome then [.input d.rest.length] else []), rows := rows,
    columns := d.columns.getD { rows := rows, nulls := 0, bufs := [none, none, none, none] } }

end Sys2Proof.Machine
end

