-- ==== Sys2Proof/Machine/Footer.lean ====
section
/-! DEFINITION. Parquet footers and Arrow schemas as ingress reads them (R274): the rows and column chunks of a file. The formats are
those of Apache Parquet and Apache Arrow, which the spec cites and does not state (PRESUMED, log entry 182). -/

namespace Sys2Proof.Machine

open Sys2Proof

/-- What a Parquet footer or Arrow schema gives (R274): rows, and per column chunk its leaf column, first row,
rows, offset in the file and bytes; `none` when it cannot be used. -/
structure FooterChunk where
  col   : Nat
  first : Nat
  rows  : Nat
  off   : Nat
  bytes : Nat
  /-- The chunk lies in another file (a Parquet column chunk with file_path set). -/
  elsewhere : Bool
deriving DecidableEq, Repr, Inhabited

structure Footer where
  rows   : Nat
  chunks : List FooterChunk
deriving DecidableEq, Repr, Inhabited

/-! ### Parquet -/

/-- The magic of a Parquet file. -/
def parquetMagic : Bytes := [0x50, 0x41, 0x52, 0x31]

/-- The definition and repetition levels of a schema's leaves from its elements (children, repetition type) in order; `stack` holds the
children still to come and the levels of each parent. -/
def leafLevels : List (Nat × Int) → List (Nat × Nat × Nat) → List (Nat × Nat)
  | [], _ => []
  | (kids, rep) :: es, stack =>
    let up := (stack.dropWhile (fun s => s.1 = 0))
    let base := (up.head?.map (·.2)).getD (0, 0)
    let lv := (base.1 + (if rep = 0 then 0 else 1), base.2 + (if rep = 2 then 1 else 0))
    let rest := match up with
      | [] => []
      | s :: ss => (s.1 - 1, s.2) :: ss
    if kids = 0 then lv :: leafLevels es rest else leafLevels es ((kids, lv) :: rest)

/-- How many elements the list at a path has. -/
def thriftCount (vs : List (List Nat × ThriftVal)) (path : List Nat) : Nat :=
  ((vs.filter (fun v => path.isPrefixOf v.1 && path.length < v.1.length)).map (fun v => v.1[path.length]?.getD 0 + 1)).foldl max 0

/-- A column chunk's codec and type are those of Table 6.6. -/
def parquetChunkOk (vs : List (List Nat × ThriftVal)) (p : List Nat) : Bool :=
  (match thriftInt vs (p ++ [3, 1]) with
    | some t => [0, 1, 2, 4, 5, 6, 7].contains t
    | none => false) &&
  (match thriftInt vs (p ++ [3, 4]) with
    | some c => [0, 1, 2, 6].contains c
    | none => false) &&
  (List.range (thriftCount vs (p ++ [3, 2]))).all (fun i => match thriftInt vs (p ++ [3, 2, i]) with
    | some e => [0, 2, 3, 4, 5, 6, 8].contains e
    | none => true)

/-- A column chunk: from its dictionary page, where it has one, else from its first data page. -/
def parquetChunk (vs : List (List Nat × ThriftVal)) (p : List Nat) (col first rows : Nat) : Option FooterChunk := do
  let data ← thriftNat vs (p ++ [3, 9])
  let size ← thriftNat vs (p ++ [3, 7])
  let off := match thriftNat vs (p ++ [3, 11]) with
    | some d => if d = 0 then data else min d data
    | none => data
  some { col := col, first := first, rows := rows, off := off, bytes := size,
         elsewhere := vs.any (fun v => v.1 = p ++ [1]) }

/-- The row groups from number `g` on, `first` rows before them. -/
def parquetGroups (vs : List (List Nat × ThriftVal)) : Nat → Nat → Nat → Option (Nat × List FooterChunk)
  | 0, _, first => some (first, [])
  | n + 1, g, first => do
    let rows ← thriftNat vs [4, g, 3]
    let cols := List.range (thriftCount vs [4, g, 1])
    let chunks := cols.map (fun c => parquetChunk vs [4, g, 1, c] c first rows)
    let r ← parquetGroups vs n (g + 1) (first + rows)
    if chunks.any Option.isNone then none else some (r.1, chunks.filterMap id ++ r.2)

/-- A Parquet file: none where the footer does not parse, uses a feature outside Table 6.6, or a chunk of its own leads outside the
file. -/
def parquetFooter (b : Bytes) : Option Footer := do
  let size := fieldAt b (b.length - 8) 4
  let stop := b.length - 8 - size
  let (vs, _) ← if b.length < 12 + size || b.take 4 ≠ parquetMagic || b.drop (b.length - 4) ≠ parquetMagic then none
    else thrift ((b.drop stop).take size)
  let rows ← thriftNat vs [3]
  let groups := thriftCount vs [4]
  let elems := (List.range (thriftCount vs [2])).map (fun i =>
    ((thriftNat vs [2, i, 5]).getD 0, (thriftInt vs [2, i, 3]).getD 0))
  let (total, chunks) ← parquetGroups vs groups 0 0
  let known := (List.range groups).all (fun g => (List.range (thriftCount vs [4, g, 1])).all (fun c => parquetChunkOk vs [4, g, 1, c]))
  let levels := (leafLevels (elems.drop 1) [((elems.head?.map (·.1)).getD 0, 0, 0)]).all (fun l => l.1 ≤ 3 && l.2 ≤ 1)
  if !known || !levels || total ≠ rows || chunks.any (fun c => !c.elsewhere && (c.off < 4 || stop < c.off + c.bytes)) then none
  else some { rows := rows, chunks := chunks }

/-! ### Arrow -/

/-- The magic that ends an Arrow file. -/
def arrowEnd : Bytes := [0x41, 0x52, 0x52, 0x4F, 0x57, 0x31]

/-- The record batch at an offset of a file: its rows and the bytes of its message. -/
def arrowBlock (b : Bytes) (off meta' body : Nat) : Option (Nat × Nat) := do
  let m := (b.drop (off + 8)).take (meta' - 8)
  let t ← fbRef m 0
  let kind ← fbNum m t 1 1 0
  let head ← fbTable m t 2
  let h ← head.bind (arrowHead m)
  if b.length < off + meta' + body || fieldAt b off 4 ≠ 0xFFFFFFFF || kind ≠ 3 || h.codec.any (1 < ·) then none
  else some (h.length, meta' + body)

/-- The record batches in file order: the chunk of each leaf column is the batch's message. -/
def arrowBlocks (b : Bytes) (cols : Nat) : List (Nat × Nat × Nat) → Nat → Option (Nat × List FooterChunk)
  | [], first => some (first, [])
  | (off, meta', body) :: ps, first => do
    let (rows, bytes) ← arrowBlock b off meta' body
    let r ← arrowBlocks b cols ps (first + rows)
    some (r.1, (List.range cols).map (fun c =>
      { col := c, first := first, rows := rows, off := off, bytes := bytes, elsewhere := false }) ++ r.2)

/-- An Arrow file: none where the footer or schema does not parse or uses a feature outside Table 6.6. -/
def arrowFooter (b : Bytes) : Option Footer := do
  let size := fieldAt b (b.length - 10) 4
  let f := (b.drop (b.length - 10 - size)).take size
  let t ← if b.length < 18 + size || b.take 8 ≠ arrowMagic || b.drop (b.length - 6) ≠ arrowEnd then none else fbRef f 0
  let version ← fbNum f t 0 2 0
  let st ← fbTable f t 1
  let (big, schema) ← st.bind (arrowSchema f)
  let blocks ← fbVec f t 3 24
  let leaves := schema.nodes.filter (fun n => match n.kind with
    | .fixed _ => true
    | .strings _ => true
    | _ => false)
  let (rows, chunks) ← arrowBlocks b leaves.length
    (blocks.map (fun p => (fieldAt f p 8, fieldAt f (p + 8) 4, fieldAt f (p + 16) 8))) 0
  if version ≠ 4 || big || !schema.types.all arrowTypeOk then none else some { rows := rows, chunks := chunks }

/-- The footer or schema of a file by FORMAT (Table 11.4); none when it cannot be used. -/
def footer (format : Nat) (b : Bytes) : Option Footer := if format = 1 then parquetFooter b else arrowFooter b

end Sys2Proof.Machine
end

