-- ==== Sys2Proof/Machine/Felt.lean ====
section
/-! DEFINITION. The Felt engines (R225 to R248, R233, R327): reading rows, GATHER and the two scatters, remote gathers,
the close of an update epoch, and hot-row migration. -/

namespace Sys2Proof.Machine

open Sys2Proof

/-! ### Rows (R226 to R230) -/

/-- What an index names (R228): nothing, a place outside the table, or stored rows of one or two tables. -/
inductive RowRef where
  | null
  | range
  | rows (parts : List (BitVec 16 × Nat))
deriving DecidableEq, Repr

/-- The stored row, or the two part rows, that index i names (Table 9.3). -/
def State.resolve (s : State) (t : Table) (i : Nat) : RowRef :=
  if i = 2 ^ 64 - 1 then .null
  else if t.kind = 1 then (if i < t.nrows then .rows [(t.id, i)] else .range)
  else if t.kind = 2 then
    if t.nindex ≠ 0 && t.nindex ≤ i then .range
    else .rows [(t.id, hashReduce (deckle64 t.seed (leBytes 8 i)) t.nrows)]
  else match s.table? t.part1, s.table? t.part2 with
    | some a, some b =>
      if i < a.nrows * b.nrows then .rows [(a.id, i % a.nrows), (b.id, i / a.nrows)] else .range
    | _, _ => .range

/-- The redirect directory's entry of a row (R245). -/
def State.redirect? (s : State) (t : BitVec 16) (r : Nat) : Option Redirect :=
  s.felt.redirects.find? (fun x => x.table = t && x.row = r)

/-- The row as a lookup reads it, at exactly one home (R247). -/
def State.rowAt (s : State) (t : Table) (r : Nat) : Bytes :=
  match s.redirect? t.id r with
  | some x => if x.state = .new && !x.released then x.copy else t.row r
  | none => t.row r

/-- A row homed here lies in tier A, or is one of the twin's tier A rows that this module has taken over: the resync gives it to
the twin (R329, R370, Table 13.10). -/
def State.resynced (s : State) (t : Table) (r : Nat) : Bool :=
  !t.replicated && (!s.rowTierB t r || s.shardTaken t (t.shardOf r)) && (t.homeOf r s.self).isNone

/-- The twin keeps a replica of a row homed here (R329), whole or being made whole, so closes send it to the log (R333). -/
def State.logsRow (s : State) (t : Table) (r : Nat) : Bool := s.mirrored && s.resynced t r

/-- A row of this module can be read from its twin's replica: the pair is whole. -/
def State.hasReplica (s : State) (t : Table) (r : Nat) : Bool := s.twin.state = .paired && s.logsRow t r

/-- The read of a local row fails at its home: its line cannot be read, or its tier B port is down (R304). -/
def State.rowBad (s : State) (t : Table) (r : Nat) : Bool :=
  Assoc.get 0 t.bad r ≠ 0 || (s.rowTierB t r && s.mem.portDown (Config.rowBase t.id.toNat r).toNat t.stored)

/-- The read of a local row fails at this home and at the twin's replica (R233). -/
def State.rowFails (s : State) (t : Table) (r : Nat) : Bool :=
  s.rowBad t r && (2 ≤ Assoc.get 0 t.bad r || !s.hasReplica t r)

/-- Elements of a byte string, each `w` bytes. -/
def elemsOf (w n : Nat) (b : Bytes) : List Nat := (List.range n).map (fun e => fieldAt b (w * e) w)

/-- The exact value of an element. -/
def elemVal (t x : Nat) : FVal :=
  if etypeIsFloat t then (fmtOf t).decode x
  else
    let v := intVal (etypeSigned t) (etypeBytes t) x
    .fin (v < 0) v.natAbs 0

/-- One element of a composed row (R230): the exact sum or product of a part of type ta and one of type tb, rounded once
into type t; integer results saturate. -/
def composeElem (mul : Bool) (t ta tb x y : Nat) : Nat :=
  let a := elemVal ta x
  let b := elemVal tb y
  if etypeIsFloat t then
    let f := fmtOf t
    (if mul then f.mulVal 0 a b else f.addVal 0 a b).bits
  else match a, b with
    | .fin na ma ea, .fin nb mb eb =>
      let w := etypeBytes t
      let sg := etypeSigned t
      let e0 := if ea < eb then ea else eb
      let v := finAt na ma ea e0 + finAt nb mb eb e0
      let r := if mul then roundToInt 0 (na != nb) (ma * mb) (ea + eb) else roundToInt 0 (v < 0) v.natAbs e0
      wrapInt w (clampInt sg w r.1)
    | _, _ =>
      let d := fmtOf 0xD
      (convert 0xD t 0 (if mul then d.mulVal 0 a b else d.addVal 0 a b).bits).bits

def zipElems (mul : Bool) (t ta tb : Nat) : List Nat → List Nat → List Nat
  | x :: xs, y :: ys => composeElem mul t ta tb x y :: zipElems mul t ta tb xs ys
  | _, _ => []

/-- The elements of the row a command reads, from the elements of its stored rows and their types. -/
def Table.combineParts (t : Table) : List (List Nat × Nat) → List Nat
  | [a] => a.1
  | [a, b] =>
    let e := t.etype.toNat
    if t.compOp = 3 then
      a.1.map (fun x => (convert a.2 e 0 x).bits) ++ b.1.map (fun x => (convert b.2 e 0 x).bits)
    else zipElems (t.compOp = 2) e a.2 b.2 a.1 b.1
  | _ => []

/-- The row converted into the output type (R235), packed. -/
def convertRow (src dst : Nat) (es : List Nat) : Bytes :=
  es.flatMap (fun x => leBytes (etypeBytes dst) (convert src dst 0 x).bits)

/-! ### Checks of Table 9.8 -/

/-- Types a table or a scatter's values may have (Tables 9.2, 9.4). -/
def feltType (t : Nat) : Bool := [0x0, 0x4, 0x8, 0x9, 0xA, 0xB, 0xC].contains t

def feltOp (u : UnitCmd) : Nat := u.field 0 1
def feltType? (u : UnitCmd) : Nat := u.field 1 1
def feltTable (u : UnitCmd) : BitVec 16 := BitVec.ofNat 16 (u.field 2 2)
def feltCount (u : UnitCmd) : Nat := u.field 4 4
def feltIndex (u : UnitCmd) : Nat := u.field 8 8
def feltDst (u : UnitCmd) : Nat := u.field 0x10 8
def feltValid (u : UnitCmd) : Nat := u.field 0x18 8
def feltValues (u : UnitCmd) : Nat := u.field 0x20 8
def feltOrder (u : UnitCmd) : Nat := u.field 0x28 8
def feltStride (u : UnitCmd) : Nat := u.field 0x30 4

/-- FELT_FIELD, but for an OUT_STRIDE too small for the table. -/
def feltFieldBad (u : UnitCmd) : Bool :=
  let gather := feltOp u = 1
  let w := etypeBytes (feltType? u)
  feltCount u = 0 || 1048576 < feltCount u || !allZero (u.block.drop 0x34) ||
    (if gather then w = 0 || feltValues u ≠ 0 || feltStride u % w ≠ 0
     else !feltType (feltType? u) || feltDst u ≠ 0 || feltValid u ≠ 0 || feltStride u ≠ 0) ||
    (feltOp u ≠ 3 && feltOrder u ≠ 0)

def feltAlignBad (u : UnitCmd) : Bool :=
  feltIndex u % 8 ≠ 0 || feltDst u % 64 ≠ 0 || feltOrder u % 8 ≠ 0 ||
    (feltOp u ≠ 1 && feltValues u % etypeBytes (feltType? u) ≠ 0)

/-- Bytes between output rows. -/
def gatherStep (u : UnitCmd) (elems : Nat) : Nat :=
  if feltStride u = 0 then elems * etypeBytes (feltType? u) else feltStride u

/-- The ranges a command reads and writes; without a registered table a row counts its stride alone. -/
def feltRanges (u : UnitCmd) (elems : Nat) : List (Nat × Nat) × List (Nat × Nat) :=
  let n := feltCount u
  let row := elems * etypeBytes (feltType? u)
  if feltOp u = 1 then
    ([(feltIndex u, 8 * n)], (feltDst u, (n - 1) * gatherStep u elems + row) ::
      (if feltValid u = 0 then [] else [(feltValid u, ceilDiv n 8)]))
  else
    ((feltIndex u, 8 * n) :: (feltValues u, n * row) :: (if feltOp u = 3 then [(feltOrder u, 8 * n)] else []), [])

/-- FELT_ADDR: a range outside the item's memory, or DST over INDEX or VALID. -/
def State.feltAddrBad (s : State) (u : UnitCmd) (elems : Nat) : Bool :=
  let r := feltRanges u elems
  !s.plainAll (r.1 ++ r.2) ||
    (match r.2 with
     | [] => false
     | d :: rest => (r.1 ++ rest).any (fun x => overlaps d.1 d.2 x.1 x.2))

/-- The item a command belongs to. -/
def State.cmdItem (s : State) (u : UnitCmd) : Option Item :=
  match u.item with
  | some key => s.item? key
  | none => none

/-- FELT_READ = LIVE is stamped on the command's item (R244). -/
def State.feltLive (s : State) (u : UnitCmd) : Bool :=
  match s.cmdItem u with
  | some it => s.gradeIn (s.stampedOverlay it.grade it.gradeRev) 0x380004 0 = 1
  | none => false

/-- The table is registered outside any job, or for the command's own. -/
def State.tableUsable (s : State) (t : Table) (u : UnitCmd) : Bool :=
  match t.job with
  | none => true
  | some j => (match s.cmdItem u with | some it => it.job = j | none => false)

/-- R236 excludes a class B or C gather of an UPDATABLE table by another flow. -/
def State.gatherBarred (s : State) (t : Table) (u : UnitCmd) : Bool :=
  feltOp u = 1 && t.updatable && u.cls ≠ 0 && !s.feltLive u &&
    (match u.item with | some key => key.flow ≠ t.flow | none => true)

/-- R236 excludes the scatter. -/
def State.scatterBarred (t : Table) (u : UnitCmd) : Bool :=
  feltOp u ≠ 1 && (!t.updatable || u.cls = 0 || (match u.item with | some key => key.flow ≠ t.flow | none => true))

/-- Value rows of a scatter, as elements. -/
def State.scatterRow (s : State) (u : UnitCmd) (t : Table) (j : Nat) : List Nat :=
  let w := etypeBytes (feltType? u)
  elemsOf w t.elems (s.seen u.core.vat (feltValues u + j * t.elems * w) (t.elems * w))

/-- The first code of Table 9.8 that applies, in its order (R234). -/
def State.feltReject (s : State) (u : UnitCmd) : Option (BitVec 16) :=
  let t := s.table? (feltTable u)
  let elems := match t with | some t => t.elems | none => 0
  if feltFieldBad u then some 0x0501
  else if feltAlignBad u then some 0x0502
  else if s.feltAddrBad u elems then some 0x0503
  else match t with
    | none => some 0x0504
    | some t =>
      if !s.tableUsable t u || s.gatherBarred t u then some 0x0504
      else if feltOp u = 1 && feltStride u ≠ 0 && feltStride u < t.elems * etypeBytes (feltType? u) then some 0x0501
      else if State.scatterBarred t u then some 0x0505
      else if feltOp u = 2 && (List.range (feltCount u)).any (fun j =>
          (s.scatterRow u t j).any (fun x => (exactInput (feltType? u) x).isNone)) then some 0x0506
      else none

/-- Index j of a command. -/
def State.feltIndexAt (s : State) (u : UnitCmd) (j : Nat) : Nat :=
  leVal (s.seen u.core.vat (feltIndex u + 8 * j) 8)

/-! ### Rows of other modules (R233, R327) -/

/-- A stored row that another module homes: its table, the key to ask with and the home. -/
structure RemoteRow where
  table : BitVec 16
  key   : Nat
  home  : BitVec 14
deriving DecidableEq, Repr

/-- The type rows of a table arrive in: the output type, but a part row of a composed table in its own. -/
def State.wireType (s : State) (u : UnitCmd) (t : Table) : Nat :=
  if t.id = feltTable u then feltType? u
  else (match s.table? t.id with | some p => p.etype.toNat | none => 0)

/-- The remote rows index i needs. -/
def State.remoteRows (s : State) (t : Table) (i : Nat) : List RemoteRow :=
  match s.resolve t i with
  | .rows parts => parts.filterMap (fun p =>
      match s.table? p.1 with
      | some q => (q.homeOf p.2 s.self).map (fun h =>
          { table := q.id, key := if q.id = t.id then i else p.2, home := h })
      | none => none)
  | _ => []

/-- Cut a list into runs of at most n + 1. -/
def chunksOf {α : Type} (n : Nat) : Nat → List α → List (List α)
  | 0, _ => []
  | _ + 1, [] => []
  | fuel + 1, l => l.take (n + 1) :: chunksOf n fuel (l.drop (n + 1))

/-- The payload of a GATHER_REQ (Table 13.3). -/
def gatherReqPayload (table : BitVec 16) (vtype epoch : Nat) (keys : List Nat) : Bytes :=
  leBytes 2 table.toNat ++ leBytes 1 vtype ++ [0] ++ leBytes 4 keys.length ++ leBytes 4 epoch ++ zeros 4 ++
    keys.flatMap (leBytes 8)

/-- Ask one home for keys of one table (R233): the message, and what the command notes of it. -/
def State.askHome (s : State) (u : UnitCmd) (table : Table) (home : BitVec 14) (keys : List Nat) : State × UnitCmd :=
  let id := s.fab.nextReq
  let epoch := if s.feltLive u then 0xFFFFFFFF else table.version % 2 ^ 32
  let m := s.newMsg 0x32 home u.cls 0 (match s.cmdItem u with | some it => it.job | none => 0)
    (table.id.setWidth 32) 0 id (BitVec.ofNat 32 keys.length)
    (gatherReqPayload table.id (s.wireType u table) epoch keys)
  let s := s.sendMsg 0x32 m
  ({ s with fab := { s.fab with nextReq := id + 1 } }, { u with asked := u.asked ++ [(id, table.id, keys)] })

/-- Keys in one request: at most 4,096, and at most 1,048,576 bytes of output rows (Table 13.3). -/
def keysPerReq (rowBytes : Nat) : Nat :=
  let m := if rowBytes = 0 then 4096 else 1048576 / rowBytes
  if m < 4096 then m else 4096

/-- Send the requests a gather needs, each home and table apart, and note them on the queued command, with the migration epoch its
row operations are stamped with (R245). -/
def State.askAll (s : State) (u : UnitCmd) (rows : List RemoteRow) : State :=
  let groups := (rows.map (fun r => (r.table, r.home))).eraseDups
  let r := groups.foldl (fun (acc : State × UnitCmd) g =>
    match acc.1.table? g.1 with
    | none => acc
    | some t =>
      let keys := ((rows.filter (fun r => r.table = g.1 && r.home = g.2)).map (·.key)).eraseDups
      let n := keysPerReq (t.elems * etypeBytes (acc.1.wireType u t))
      (chunksOf (n - 1) keys.length keys).foldl (fun a ks => a.1.askHome a.2 t g.2 ks) acc) (s, u)
  { r.1 with units := r.1.units.map (fun x => if x = u then { r.2 with stamp := some s.felt.migEpoch } else x) }

/-- The answer to a request, once it has arrived. -/
def State.response? (s : State) (id : BitVec 64) : Option Bytes :=
  (s.fab.responses.find? (fun r => r.1 = id)).map (·.2)

/-- Every answer a command waits for is here. -/
def State.answered (s : State) (u : UnitCmd) : Bool := u.asked.all (fun a => (s.response? a.1).isSome)

/-- The first failing status among the answers; a peer's code of a reserved range is never returned (R7). -/
def State.answerStatus (s : State) (u : UnitCmd) : BitVec 16 :=
  (u.asked.findSome? (fun a => match s.response? a.1 with
    | some b => if fieldAt b 0 2 = 0 || fieldAt b 0 2 = 0x0510 then none else some (reportedStatus (BitVec.ofNat 16 (fieldAt b 0 2)))
    | none => none)).getD 0

/-- Place of a key in a list. -/
def placeOf (k : Nat) : List Nat → Option Nat
  | [] => none
  | x :: xs => if x = k then some 0 else (placeOf k xs).map (· + 1)

/-- Elements of a remote row from the answer that holds it (R327). -/
def State.remoteElems (s : State) (u : UnitCmd) (t : Table) (key : Nat) : List Nat :=
  (u.asked.findSome? (fun a =>
    if a.2.1 = t.id then
      match placeOf key a.2.2, s.response? a.1 with
      | some p, some b =>
        let w := etypeBytes (s.wireType u t)
        let off := 8 + ceilDiv a.2.2.length 64 * 8
        some (elemsOf w t.elems (b.drop (off + p * t.elems * w)))
      | _, _ => none
    else none)).getD (List.replicate t.elems 0)

/-- Elements of one stored row and their type: local, or from an answer. -/
def State.partElems (s : State) (u : UnitCmd) (i : Nat) (p : BitVec 16 × Nat) : List Nat × Nat :=
  match s.table? p.1 with
  | none => ([], 0)
  | some t =>
    if (t.homeOf p.2 s.self).isSome then
      (s.remoteElems u t (if t.id = feltTable u then i else p.2), s.wireType u t)
    else (elemsOf (etypeBytes t.etype.toNat) t.elems (s.rowAt t p.2), t.etype.toNat)

/-- The output bytes of index i, or none for a null or out-of-range index. -/
def State.gatherRow (s : State) (u : UnitCmd) (t : Table) (i : Nat) : Option Bytes :=
  match s.resolve t i with
  | .rows [p] =>
    let e := s.partElems u i p
    some (convertRow e.2 (feltType? u) e.1)
  | .rows parts => some (convertRow t.etype.toNat (feltType? u) (t.combineParts (parts.map (s.partElems u i))))
  | _ => none

/-! ### The coalescing window (R236, R237) -/

/-- Serve a stored row of this module through a Vat's window: a hit, or its line reads (class A lines count toward
condition 4 of Table 12.5). -/
def State.windowRead (s : State) (vat : BitVec 6) (clsA : Bool) (p : BitVec 16 × Nat) : State :=
  let w := Assoc.get [] s.felt.windows vat.toNat
  let hit := w.contains p
  let w' := (p :: w.erase p).take 4096
  let lines := match s.table? p.1 with | some t => t.stored / 64 | none => 0
  let s := { s with felt := { s.felt with windows := Assoc.set [] s.felt.windows vat.toNat w' } }
  if hit then s.bump 0x38000B 1
  else
    let s := s.bump 0x38000A lines
    if clsA then { s with hb := { s.hb with winLines := s.hb.winLines + lines } } else s

/-- The stored rows of this module an index reads. -/
def State.localParts (s : State) (t : Table) (i : Nat) : List (BitVec 16 × Nat) :=
  match s.resolve t i with
  | .rows parts => parts.filter (fun p =>
      match s.table? p.1 with | some q => (q.homeOf p.2 s.self).isNone | none => false)
  | _ => []

/-- Condition 2 of Table 12.5: a class A request's rows lie in this module's tier A or in REPLICATED tables. -/
def State.farParts (s : State) (t : Table) (i : Nat) : Bool :=
  match s.resolve t i with
  | .rows parts => parts.any (fun p =>
      match s.table? p.1 with
      | some q => (q.homeOf p.2 s.self).isSome || s.rowTierB q p.2
      | none => false)
  | _ => false

/-- Some row of this module that an index reads is such. -/
def State.anyPart (s : State) (bad : Table → Nat → Bool) (t : Table) (i : Nat) : Bool :=
  (s.localParts t i).any (fun p => match s.table? p.1 with | some q => bad q p.2 | none => false)

/-- Some row of this module that an index reads cannot be read (R233). -/
def State.partsFail (s : State) (t : Table) (i : Nat) : Bool := s.anyPart s.rowFails t i

/-- The stored rows of this module that indices read go through a Vat's window. -/
def State.windowReads (s : State) (vat : BitVec 6) (clsA : Bool) (t : Table) (idx : List Nat) : State :=
  (idx.flatMap (s.localParts t)).foldl (fun s r => s.windowRead vat clsA r) s

/-- Mark the class A item of a command degraded. -/
def State.degrade (s : State) (u : UnitCmd) : State :=
  match s.cmdItem u with
  | some it => if it.cls = 0 then s.setItem { it with degraded := true } else s
  | none => s

/-- FELT_READ_FAULT (Table 9.8): the command completes with the code; the class A request does so too, any other job stops. -/
def State.readFault (s : State) (u : UnitCmd) (code : BitVec 16) : State :=
  let s := { s with units := s.units.erase u }
  match s.cmdItem u with
  | none => s.reportTicket u.core u.ticket code
  | some it =>
    if it.cls = 0 then s.itemEnd u.core code else (s.stopJob it.job code).reportTicket u.core u.ticket code

/-- A bit of the validity bitmap as it stands. -/
def State.validBit (s : State) (u : UnitCmd) (j : Nat) : Bool :=
  ((s.seen u.core.vat (feltValid u + j / 8) 1).headD 0).getLsbD (j % 8)

/-- The end of a GATHER that has all its rows (R235); bits of the bitmap beyond COUNT stay as they are (log entry 120). -/
def State.gatherEnd (s : State) (u : UnitCmd) (t : Table) : State :=
  let vat := u.core.vat
  let idx := (List.range (feltCount u)).map (s.feltIndexAt u)
  let step := gatherStep u t.elems
  let size := t.elems * etypeBytes (feltType? u)
  let rows := idx.map (s.gatherRow u t)
  let writes := (List.range (feltCount u)).map (fun j =>
    (feltDst u + j * step, ((rows[j]?.getD none).getD (zeros size))))
  let bitmap := if feltValid u = 0 then []
    else [(feltValid u, bitBytes (8 * ceilDiv (feltCount u) 8) (fun j =>
      if j < feltCount u then (rows[j]?.getD none).isSome else s.validBit u j))]
  let st : BitVec 16 := if idx.any (fun i => s.resolve t i = .range) then 0x0510 else 0
  let s := if u.cls = 0 && idx.any (fun i => s.farParts t i || s.anyPart s.rowBad t i) then s.degrade u else s
  let s := s.windowReads vat (u.cls = 0) t idx
  let ids := u.asked.map (·.1)
  let s := { s with fab := { s.fab with responses := s.fab.responses.filter (fun r => !ids.contains r.1) } }
  (s.unitStore vat (writes ++ bitmap)).unitEnd u st

/-- GATHER: rejected, waiting for other homes, failed, or complete. -/
def State.gatherCmd (s : State) (u : UnitCmd) : State :=
  match s.feltReject u, s.table? (feltTable u) with
  | some c, _ => s.unitEnd u c
  | none, none => s.unitEnd u 0x0504
  | none, some t =>
    let idx := (List.range (feltCount u)).map (s.feltIndexAt u)
    let lost := (feltRanges u t.elems).1.any (s.unitPoisoned u.core.vat)
    let far := idx.flatMap (s.remoteRows t)
    if lost then (s.notePoison poisonStatus).readFault u 0x0530
    else if u.asked = [] && far ≠ [] then s.askAll u far
    else if !s.answered u then s
    else if s.answerStatus u ≠ 0 then
      if s.answerStatus u = 0x0530 then s.readFault u 0x0530 else s.unitEnd u (s.answerStatus u)
    else if idx.any (s.partsFail t) then
      ((s.windowReads u.core.vat (u.cls = 0) t idx).notePoison poisonStatus).readFault u 0x0530
    else s.gatherEnd u t

/-! ### Scatters (R238 to R240) -/

/-- The contributions of a scatter: one entry for each index that names a row. -/
def State.scatterEntries (s : State) (u : UnitCmd) (t : Table) (key : ItemKey) : List Contribution :=
  let epoch := if t.epochItems = 0 then 0 else key.seq.toNat / t.epochItems
  (List.range (feltCount u)).filterMap (fun j =>
    match s.resolve t (s.feltIndexAt u j) with
    | .rows [(_, r)] =>
      let v := s.scatterRow u t j
      let e : Combine :=
        if feltOp u = 2 then
          { table := t.id, epoch := epoch, row := r, adds := v.map (fun x => (exactInput (feltType? u) x).getD 0),
            set := none, conflict := false }
        else
          { table := t.id, epoch := epoch, row := r, adds := [],
            set := some (BitVec.ofNat 64 (leVal (s.seen u.core.vat (feltOrder u + 8 * j) 8)),
              convertRow (feltType? u) t.etype.toNat v), conflict := false }
      some { item := key, attempt := u.attempt, entry := e }
    | _ => none)

def State.scatterCmd (s : State) (u : UnitCmd) : State :=
  match s.feltReject u, s.table? (feltTable u), u.item with
  | some c, _, _ => s.unitEnd u c
  | none, some t, some key =>
    let reads := (feltRanges u t.elems).1
    if reads.any (s.unitPoisoned u.core.vat) then (s.notePoison poisonStatus).readFault u 0x0530
    else
      let out := (List.range (feltCount u)).any (fun j => s.resolve t (s.feltIndexAt u j) = .range)
      let s' := { s with felt := { s.felt with pending := s.felt.pending ++ s.scatterEntries u t key } }
      s'.unitEnd u (if out then 0x0510 else 0)
  | none, _, _ => s.unitEnd u 0x0505

/-- Run the next command of a Vat's Felt engine when its OP is the one named. -/
def runFelt (op : Nat) (vat : BitVec 6) (f : State → UnitCmd → State) (s : State) :
    Host.Outcome State Fault Refusal :=
  serveNext 0 vat.toNat op f s

/-- GATHER (R235). -/
def execGather (vat : BitVec 6) (s : State) : Host.Outcome State Fault Refusal := runFelt 1 vat State.gatherCmd s

/-- SCATTER_ADD (R238). -/
def execScatterAdd (vat : BitVec 6) (s : State) : Host.Outcome State Fault Refusal := runFelt 2 vat State.scatterCmd s

/-- SCATTER_SET (R239). -/
def execScatterSet (vat : BitVec 6) (s : State) : Host.Outcome State Fault Refusal := runFelt 3 vat State.scatterCmd s

/-! ### Serving remote gathers (R327) -/

/-- The status, validity and rows of a GATHER_REQ at the home. -/
def State.serveGather (s : State) (m : Msg) : BitVec 16 × Bytes :=
  let b := m.payload
  let n := fieldAt b 4 4
  let vt := fieldAt b 2 1
  let none' : Nat → BitVec 16 × Bytes := fun c => (BitVec.ofNat 16 c, leBytes 2 c ++ zeros 6)
  match s.table? (BitVec.ofNat 16 (fieldAt b 0 2)) with
  | none => none' 0x0504
  | some t =>
    let size := t.elems * etypeBytes vt
    let idx := elemsOf 8 n (b.drop 0x10)
    if fieldAt b 3 1 ≠ 0 || fieldAt b 0xC 4 ≠ 0 || etypeBytes vt = 0 || n = 0 || 4096 < n || 1048576 < n * size ||
        b.length < 0x10 + 8 * n then none' 0x0501
    else if t.kind = 3 || idx.any (fun i => s.remoteRows t i ≠ []) then none' 0x0504
    else if idx.any (s.partsFail t) then none' 0x0530
    else
      let row := fun i => match s.resolve t i with
        | .rows [(_, r)] => some (convertRow t.etype.toNat vt
            (elemsOf (etypeBytes t.etype.toNat) t.elems (s.rowAt t r)))
        | _ => none
      let rows := idx.map row
      let st := if idx.any (fun i => s.resolve t i = .range) then 0x0510 else 0
      let bits := bitBytes (64 * ceilDiv n 64) (fun j => (rows[j]?.getD none).isSome)
      (BitVec.ofNat 16 st, leBytes 2 st ++ zeros 2 ++ leBytes 4 n ++ bits ++
        rows.flatMap (fun r => r.getD (zeros size)))

/-- A request is held until the version it names is closed. -/
def State.gatherHeld (s : State) (m : Msg) : Bool :=
  let e := fieldAt m.payload 8 4
  match s.table? (BitVec.ofNat 16 (fieldAt m.payload 0 2)) with
  | some t => e ≠ 0xFFFFFFFF && t.version < e
  | none => false

/-- The rows that a request which is served reads here go through the window of the home's engine; a class A request's lines count
toward condition 4 of Table 12.5 (R317; the engine is DESIGN CHOICE, log entry 133). -/
def State.gatherReads (s : State) (m : Msg) (st : BitVec 16) : State :=
  match s.table? (BitVec.ofNat 16 (fieldAt m.payload 0 2)) with
  | some t =>
    if st = 0 || st = 0x0510 || st = 0x0530 then
      let s := s.windowReads 0 (m.cls = 0) t (elemsOf 8 (fieldAt m.payload 4 4) (m.payload.drop 0x10))
      if st = 0x0530 then s.notePoison poisonStatus else s
    else s
  | none => s

/-- Answer a request stamped with a migration epoch, or hold it. -/
def State.takeStamped (s : State) (g : Msg × BitVec 32) : State :=
  if s.gatherHeld g.1 then { s with fab := { s.fab with heldGathers := s.fab.heldGathers ++ [g] } }
  else
    let r := s.serveGather g.1
    (s.gatherReads g.1 r.1).sendMsg 0x33 (s.answerMsg 0x33 g.1 0 r.2)

/-- Answer a request, or hold it; it is stamped with M as it comes (R245). -/
def State.takeGather (s : State) (m : Msg) : State := s.takeStamped (m, s.felt.migEpoch)

/-- Look at the held requests again. -/
def State.retryGathers (s : State) : State :=
  s.fab.heldGathers.foldl State.takeStamped { s with fab := { s.fab with heldGathers := [] } }

/-! ### The close of an epoch (R241, R243, R333) -/

/-- Old element plus the combined sum, exactly, rounded once into ETYPE. -/
def applyAdd (t : Nat) (old : Nat) (sum : Int) : Nat :=
  if etypeIsFloat t then
    let f := fmtOf t
    match f.decode old with
    | .nan sg => (f.quietNan sg).bits
    | .inf n => (f.infinity n).bits
    | .fin n m e => let v := finAt n m e (-298) + sum; (f.roundDyadic 0 (v < 0) v.natAbs (-298)).bits
  else
    let w := etypeBytes t
    let sg := etypeSigned t
    let v := intVal sg w old * ((2 ^ 298 : Nat) : Int) + sum
    wrapInt w (clampInt sg w (roundToInt 0 (v < 0) v.natAbs (-298)).1)

def applyAdds (t : Nat) : List Nat → List Int → List Nat
  | x :: xs, v :: vs => applyAdd t x v :: applyAdds t xs vs
  | xs, _ => xs

/-- The new content of a touched row: SET first, then the ADD sum. -/
def State.closedRow (s : State) (t : Table) (c : Combine) : Bytes :=
  let base := match c.set with | some (_, b) => b | none => s.rowAt t c.row
  let w := etypeBytes t.etype.toNat
  (applyAdds t.etype.toNat (elemsOf w t.elems base) c.adds).flatMap (leBytes w)

/-- Combining entries of the epoch a close applies, and those of them that lie on this module. -/
def State.epochEntries (s : State) (t : Table) (u : Nat) : List Combine :=
  s.felt.combines.filter (fun c => c.table = t.id && c.epoch = u)

def State.ownEntries (s : State) (t : Table) (u : Nat) : List Combine :=
  (s.epochEntries t u).filter (fun c => (t.homeOf c.row s.self).isNone)

/-- Write a row at every home it has: the old home, and the new one of a migration under way (R246, R247). -/
def State.writeRow (s : State) (tid : BitVec 16) (r : Nat) (b : Bytes) : State :=
  match s.table? tid with
  | none => s
  | some t =>
    let s := (s.setTable (t.setRow r b)).forgetRows (fun t' r' => t' = tid && r' = r)
    { s with felt := { s.felt with redirects := s.felt.redirects.map (fun x =>
        if x.table = tid && x.row = r then { x with copy := b } else x) } }

/-- Complete the close of epoch u: the rows are applied, the version rises, and held requests are looked at again. -/
def State.closeDone (s : State) (tid : BitVec 16) (u : Nat) : State :=
  match s.table? tid with
  | none => s
  | some t =>
    let own := s.ownEntries t u
    let new := own.map (fun c => (c.row, s.closedRow t c))
    let s := new.foldl (fun s r => s.writeRow tid r.1 r.2) s
    let s := s.bump 0x38000E (own.filter (·.conflict)).length
    let s := match s.table? tid with
      | some t => s.setTable { t with version := u + 1, commits := Assoc.erase t.commits u }
      | none => s
    let s := { s with felt := { s.felt with
      combines := s.felt.combines.filter (fun c => !(c.table = tid && c.epoch = u)),
      waiting := s.felt.waiting.filter (fun w => !(w.table = tid && w.epoch = u)) } }
    s.retryGathers

/-- Complete a close that waited; one whose LEASE_NO is no longer a shard's current one is refused (TWIN_LEASE_STALE) and has no
effect (R342). -/
def State.closeWaited (s : State) (w : CloseWait) : State :=
  if w.leases.any (fun l => s.leaseStale 2 l.1 l.2) then
    ({ s with felt := { s.felt with waiting := s.felt.waiting.erase w } }).logEvent 0x0A09 w.table.toNat
  else s.closeDone w.table w.epoch

/-- The bytes of a LOG record (Table 13.6). -/
def logBytes (r : LogRec) : Bytes :=
  leBytes 8 r.lsn.toNat ++ leBytes 2 r.table.toNat ++ leBytes 1 r.kind.toNat ++ [0] ++ leBytes 4 r.count.toNat ++
    leBytes 4 r.epoch.toNat ++ zeros 12 ++ r.data

/-- Bytes of the twin's log area in use. -/
def State.logUsed (s : State) : Nat := s.twin.logOut.foldl (fun a r => a + r.2) 0

/-- Send one record to the twin's log. -/
def State.sendLog (s : State) (frame : BitVec 8) (table : BitVec 16) (kind : BitVec 8) (count epoch : Nat)
    (data : Bytes) : State :=
  let lsn := s.twin.lsnTx + 1
  let b := logBytes { lsn := lsn, table := table, kind := kind, count := BitVec.ofNat 32 count,
                      epoch := BitVec.ofNat 32 epoch, data := data }
  let s := { s with twin := { s.twin with lsnTx := lsn, logOut := s.twin.logOut ++ [(lsn, b.length)] } }
  s.sendFrame frame b

/-- DATA of a ROWS record: the row number padded to 64 bytes and the stored row. -/
def rowData (t : Table) (r : Nat × Bytes) : Bytes :=
  leBytes 8 r.1 ++ zeros 56 ++ r.2 ++ zeros (t.stored - r.2.length)

/-- Rows in one record of a frame of at most 1,048,576 bytes. -/
def rowsPerLog (t : Table) : Nat := (1048576 - 32) / (64 + t.stored)

/-- Send rows to the twin's replica, in records of whole frames. -/
def State.sendRows (s : State) (frame : BitVec 8) (t : Table) (epoch : Nat) (rows : List (Nat × Bytes)) : State :=
  (chunksOf (rowsPerLog t - 1) rows.length rows).foldl (fun s rs =>
    s.sendLog frame t.id 1 rs.length epoch (rs.flatMap (rowData t))) s

/-- Hand the partial entries of rows homed elsewhere to their homes, and those of a REPLICATED table to the job's other
modules. -/
def State.handPartials (s : State) (t : Table) (u : Nat) : State :=
  (s.epochEntries t u).foldl (fun s c =>
    match t.homeOf c.row s.self with
    | some h => s.emit (.combine h c)
    | none =>
      if t.replicated then
        match t.job.bind s.job? with
        | some j => (j.modules.filter (· ≠ s.self)).foldl (fun s m => s.emit (.combine m c)) s
        | none => s
      else s) s

/-- The entries that the other modules of the flow's job have handed over for an epoch join those here (R241; what they hold is
free, log entry 134). -/
def State.mergeFar (s : State) (t : Table) (u : Nat) : State :=
  match s.flow? t.flow with
  | none => s
  | some (j, _) =>
    if j.modules = [s.self] then s
    else
      let far := (Config.farCombines s.free t.id.toNat u).filter (fun c =>
        c.row < t.nrows && (t.homeOf c.row s.self).isNone)
      let entry : Config.FarCombine → Combine := fun c =>
        { table := t.id, epoch := u, row := c.row, adds := c.adds.take t.elems,
          set := c.set.map (fun p => (p.1, (p.2 ++ zeros t.rowBytes).take t.rowBytes)), conflict := c.conflict }
      { s with free := s.free + 1,
               felt := { s.felt with combines := far.foldl (fun cs c => addCombine (entry c) cs) s.felt.combines } }

/-- The job a table's updates come from stops. -/
def State.stopUpdates (s : State) (t : Table) (code : BitVec 16) : State :=
  match s.flow? t.flow with
  | some (j, _) => s.stopJob j.job code
  | none => s

/-- The shards of the rows an epoch's close applies here, as objects of leases. -/
def State.closeShards (s : State) (t : Table) (u : Nat) : List (BitVec 32) :=
  ((s.ownEntries t u).map (fun c => BitVec.ofNat 32 (t.id.toNat * 65536 + t.shardOf c.row))).eraseDups

/-- Apply epoch u of a table (R241): rows with a replica go to the twin's log first, and the close then waits for its
acknowledgement under the LEASE_NO of each shard; a full log area makes the close wait (none). -/
def State.applyClose (s : State) (t : Table) (u : Nat) : Option State :=
  let logged := (s.ownEntries t u).filter (fun c => s.logsRow t c.row)
  let rows := logged.map (fun c => (c.row, s.closedRow t c))
  let need := rows.length * (64 + t.stored) + 32
  if rows = [] then some ((s.handPartials t u).closeDone t.id u)
  else if s.furn 0x4C000C 4000000000 < s.logUsed + need then none
  else
    let leases := (s.closeShards t u).map (fun d => (d, s.leaseNow 2 d))
    let s := (s.handPartials t u).sendRows 2 t u rows
    let w : CloseWait := { table := t.id, epoch := u, lsn := s.twin.lsnTx.toNat, stamp := s.felt.migEpoch, leases := leases }
    some { s with felt := { s.felt with waiting := s.felt.waiting ++ [w] } }

/-- Close epoch u of a table (R241), with what the other modules have handed over. A row that must be read and cannot be stops the
job (R23, R233), as does an entry beyond its range or room (R243); a stopped lease makes the close wait. -/
def State.closeEpoch (s : State) (t : Table) (u : Nat) : State :=
  let m := s.mergeFar t u
  if (m.closeShards t u).any (fun d => s.leaseStopped 2 d) then s
  else if (m.ownEntries t u).any (fun c => c.set.isNone && s.rowFails t c.row) then
    (m.notePoison poisonStatus).stopUpdates t 0x0530
  else match m.combineStop with
    | some code => m.stopUpdates t code
    | none => (m.applyClose t u).getD s

/-- EPOCH_CLOSE (R241, R244): closes are applied in epoch order. -/
def execEpochClose (table : BitVec 16) (s : State) : Host.Outcome State Fault Refusal :=
  match s.table? table with
  | none => .next s
  | some t =>
    if t.updatable && s.epochCommitted t t.version && s.felt.waiting.all (fun w => w.table ≠ table)
    then .next (s.closeEpoch t t.version).unloadEnded else .next s

/-! ### Hot-row migration (R245 to R248) -/

def State.setRedirect (s : State) (r : Redirect) : State :=
  let rest := s.felt.redirects.filter (fun x => !(x.table = r.table && x.row = r.row))
  { s with felt := { s.felt with redirects := rest ++ [r] } }

def State.dropRedirect (s : State) (t : BitVec 16) (r : Nat) : State :=
  { s with felt := { s.felt with redirects := s.felt.redirects.filter (fun x => !(x.table = t && x.row = r)) } }

/-- M ← M + 1: a drain begins. -/
def State.raiseM (s : State) : State := { s with felt := { s.felt with migEpoch := s.felt.migEpoch + 1 } }

/-- A migration may start: HOT_MIGRATE is set, the row is a sharded table's and homed here, no other migration runs and
the directory has room. -/
def State.mayMigrate (s : State) (t : Table) (r : Nat) : Bool :=
  s.gradeVal 0x380006 1 = 1 && !t.replicated && t.kind ≠ 3 && r < t.nrows && (t.homeOf r s.self).isNone &&
    s.felt.redirects.all (·.released) &&
    ((s.redirect? t.id r).isSome || s.felt.redirects.length < s.furn 0x380008 65536)

/-- No row operation stamped with an epoch below M is outstanding in any engine (R246). -/
def State.drained (s : State) : Bool :=
  s.units.all (fun u => match u.stamp with | some n => n = s.felt.migEpoch | none => true) &&
    s.fab.heldGathers.all (fun g => g.2 = s.felt.migEpoch) && s.felt.waiting.all (fun w => w.stamp = s.felt.migEpoch)

/-- Steps 2 and 3 of Table 9.6 for a row in step 1: the copy is written at the new home, and the drain begins. -/
def State.writeThrough (s : State) (r : Redirect) : State :=
  if r.state = .copy then (s.setRedirect { r with state := .writeThrough }).raiseM else s

/-- MIGRATION_START (step 1 of Table 9.6): the row is read and write-through is armed; time does steps 2 and 3 (log entry 129). A row
whose read fails (R23) is not copied, and stays where it is (DESIGN CHOICE, log entry 175). -/
def execMigrationStart (table : BitVec 16) (row : Nat) (home : BitVec 56) (s : State) :
    Host.Outcome State Fault Refusal :=
  match s.table? table with
  | none => .next s
  | some t =>
    if s.mayMigrate t row && !s.rowFails t row then
      let old := (s.redirect? table row).map (·.newHome)
      .next ((s.setRedirect { table := table, row := row, state := .copy, oldHome := old, newHome := home,
                              copy := t.row row, released := false }))
    else .next s

/-- Step 4 of Table 9.6 once the drain of step 3 is complete, and M for the drain of step 5. -/
def State.switchRow (s : State) (r : Redirect) : State :=
  if r.state = .writeThrough && s.drained then
    ((s.setRedirect { r with state := .new }).forgetRows (fun t x => t = r.table && x = r.row)).raiseM
  else s

/-- MIGRATION_SWITCH (steps 2 to 4): what time had still to do of steps 2 and 3 is done by then. -/
def execMigrationSwitch (table : BitVec 16) (row : Nat) (s : State) : Host.Outcome State Fault Refusal :=
  match s.redirect? table row with
  | some r =>
    let t := s.writeThrough r
    .next (match t.redirect? table row with | some r => t.switchRow r | none => t)
  | none => .next s

/-- Step 5: write-through ends and the old copy is freed; a row back at its base location needs no entry. -/
def State.releaseMigration (s : State) (r : Redirect) : State :=
  match s.table? r.table with
  | none => s
  | some t =>
    let t := t.setRow r.row r.copy
    let s := (s.setTable { t with bad := Assoc.erase t.bad r.row }).bump 0x38000C 1
    if r.newHome = Config.rowBase r.table.toNat r.row then s.dropRedirect r.table r.row
    else s.setRedirect { r with released := true }

/-- MIGRATION_RELEASE (step 5 of Table 9.6), once its drain is complete. -/
def execMigrationRelease (table : BitVec 16) (row : Nat) (s : State) : Host.Outcome State Fault Refusal :=
  match s.redirect? table row with
  | some r => if r.state = .new && !r.released && s.drained then .next (s.releaseMigration r) else .next s
  | none => .next s

/-- The entry returns to the old home and the new copy is freed (R248). -/
def State.abandonMigration (s : State) (r : Redirect) : State :=
  let s := match r.oldHome with
    | none => s.dropRedirect r.table r.row
    | some h => s.setRedirect { r with state := .new, oldHome := none, newHome := h, released := true }
  (s.forgetRows (fun t x => t = r.table && x = r.row)).bump 0x38000D 1

/-- MIGRATION_ABANDON (R248). -/
def execMigrationAbandon (table : BitVec 16) (row : Nat) (s : State) : Host.Outcome State Fault Refusal :=
  match s.redirect? table row with
  | some r => if r.released then .next s else .next (s.abandonMigration r)
  | none => .next s

/-- A warm reset abandons migrations in steps 1 to 3 and completes those in steps 4 and 5 (R248). -/
def State.settleMigrations (s : State) : State :=
  (s.felt.redirects.filter (fun r => !r.released)).foldl (fun s r =>
    if r.state = .new then s.releaseMigration r else s.abandonMigration r) s

end Sys2Proof.Machine
end

