-- ==== Sys2Proof/Machine/Watermark.lean ====
section
/-! DEFINITION. The Watermark matcher (R251 to R268): pattern images, the search of R257, and loading, changing and
unloading sets. -/

namespace Sys2Proof.Machine

open Sys2Proof

/-! ### Entries and images (Tables 10.2, 10.3, 10.7, 10.8) -/

/-- An entry record as read. -/
structure WmRecord where
  value : BitVec 320
  care  : BitVec 320
  data  : BitVec 32
  entry : Nat
  uop   : Nat
  rsv   : Bytes
deriving DecidableEq, Repr

def wmRecordAt (b : Bytes) (i : Nat) : WmRecord :=
  let r := (b.drop (96 * i)).take 96
  { value := BitVec.ofNat 320 (fieldAt r 0 40), care := BitVec.ofNat 320 (fieldAt r 0x28 40),
    data := BitVec.ofNat 32 (fieldAt r 0x50 4), entry := fieldAt r 0x54 2, uop := fieldAt r 0x56 1, rsv := r.drop 0x57 }

/-- Fields of a data word (Table 10.3). -/
def wmNext (d : BitVec 32) : BitVec 16 := d.extractLsb' 16 16
def wmAction (d : BitVec 32) : Nat := (d.extractLsb' 13 3).toNat
def wmAdv (d : BitVec 32) : Nat := (d.extractLsb' 11 2).toNat
def wmTag (d : BitVec 32) : BitVec 11 := d.extractLsb' 0 11

/-- A data word with allowed ACTION that Table 10.3 does not allow at a width. -/
def wmDataBad (width : Nat) (d : BitVec 32) : Bool :=
  width ≤ wmAdv d || (2 ≤ wmAction d && wmNext d ≠ 0) ||
    ((wmAction d = 0 || wmAction d = 3) && wmTag d ≠ 0)

/-- A key Table 10.2 and R254 do not allow at a width. -/
def wmKeyBad (width : Nat) (value care : BitVec 320) : Bool :=
  value &&& ~~~care ≠ 0 || care.extractLsb' 76 4 ≠ 0xF ||
    [1, 2, 3].any (fun k => width ≤ k && care.extractLsb' (80 * k) 64 ≠ 0)

/-- A reserved value or non-zero reserved field of an entry record: a UOP of Table 10.8, an ACTION of Table 10.3, key bits [79:64] of
units 1 to 3 (Table 10.2) and the bytes after UOP (WM_FIELD). -/
def WmRecord.reserved (r : WmRecord) : Bool :=
  2 ≤ r.uop || 3 < wmAction r.data || !allZero r.rsv ||
    [1, 2, 3].any (fun k => (r.value ||| r.care).extractLsb' (80 * k + 64) 16 ≠ 0)

def WmRecord.bad (r : WmRecord) (width : Nat) : Bool := wmDataBad width r.data || wmKeyBad width r.value r.care

def WmRecord.toEntry (r : WmRecord) : WmEntry := { valid := true, value := r.value, care := r.care, data := r.data }

/-- The digest of an image: Deckle hash 64, seed 0, with the DIGEST bytes zero. -/
def wmDigest (b : Bytes) : BitVec 64 := deckle64 0 (putAt b 0x10 (zeros 8))

/-- The class map of an image. -/
def wmClasses (b : Bytes) : List (BitVec 64) := (List.range 256).map (fun i => BitVec.ofNat 64 (fieldAt b (0x40 + 8 * i) 8))

/-- Entries of an image, at most those a bank holds. -/
def wmRecords (b : Bytes) : List WmRecord :=
  let n := fieldAt b 8 4
  (List.range (if n ≤ 8192 then n else 8192)).map (wmRecordAt (b.drop 0x840))

def wmImageWidth (b : Bytes) : Nat := fieldAt b 6 1

/-- Reserved values and fields of an image's entry records (WM_FIELD). -/
def wmImageField (b : Bytes) : Bool := (wmRecords b).any WmRecord.reserved

/-- The image breaks Table 10.7, R253, R254 or Table 10.3, or its digest differs (WM_IMAGE). -/
def wmImageBad (b : Bytes) : Bool :=
  let w := wmImageWidth b
  let n := fieldAt b 8 4
  fieldAt b 0 4 ≠ 0x31575644 || fieldAt b 4 2 ≠ 1 || !([1, 2, 4].contains w) || 2 ≤ fieldAt b 7 1 || n = 0 ||
    8192 / w < n || fieldAt b 0xC 4 ≠ 0 || !allZero ((b.drop 0x18).take 40) || b.length ≠ 0x840 + 96 * n ||
    BitVec.ofNat 64 (fieldAt b 0x10 8) ≠ wmDigest b || (wmClasses b).any (fun c => c.getLsbD 63) ||
    (wmRecords b).any (fun r => r.bad w || r.entry ≠ 0 || r.uop ≠ 0)

/-! ### Sets and banks -/

def State.wmSet? (s : State) (id : BitVec 16) : Option WmSet := s.wm.sets.find? (fun x => x.id = id)

/-- Put a set into the first free banks of a die, `n` of them. -/
def takeBanks (id : BitVec 16) : Nat → List Bank → List Bank
  | 0, bs => bs
  | _ + 1, [] => []
  | n + 1, b :: bs => if b = .free then .holds id :: takeBanks id n bs else b :: takeBanks id (n + 1) bs

def freeBanks (v : Vector Bank 16) : Nat := (v.toList.filter (· = .free)).length

def bankVector (bs : List Bank) : Vector Bank 16 := Vector.ofFn (fun i => bs[i.val]?.getD .free)

/-- Load an image under a set ID (R263), or the code that turns it away (Table 10.12). -/
def State.wmLoadImage (s : State) (id : BitVec 16) (copies : Nat) (b : Bytes) : Except (BitVec 16) State :=
  if wmImageField b then .error 0x0601
  else if wmImageBad b then .error 0x0605
  else if (s.wmSet? id).isSome then .error 0x0606
  else if s.wm.banks.toList.any (fun v => decide (freeBanks v < copies)) then .error 0x0607
  else
    let set : WmSet :=
      { id := id, width := wmImageWidth b, mutable_ := fieldAt b 7 1 = 1, digest := wmDigest b, classmap := wmClasses b,
        entries := (wmRecords b).map WmRecord.toEntry }
    .ok { s with wm := { s.wm with
      banks := s.wm.banks.map (fun v => bankVector (takeBanks id copies v.toList)), sets := s.wm.sets ++ [set] } }

/-- Free the banks of a set and forget it. -/
def State.wmFree (s : State) (id : BitVec 16) : State :=
  { s with wm := { s.wm with
      banks := s.wm.banks.map (fun v => v.map (fun b => if b = .holds id then .free else b)),
      sets := s.wm.sets.filter (fun x => x.id ≠ id) } }

/-- The digest a slot holds under an overlay. -/
def State.wmSlot (s : State) (o : Assoc Nat) (slot : Nat) : BitVec 64 :=
  BitVec.ofNat 64 (s.gradeIn o (0x3C1001 + slot) 0)

/-- A slot of an overlay names the digest. -/
def State.wmNamed (s : State) (o : Assoc Nat) (d : BitVec 64) : Bool :=
  (List.range 16).any (fun i => s.wmSlot o i = d)

/-- The overlay a SEARCH uses (R259): stamped on the item, or for firmware the grade in force. -/
def State.wmOverlay (s : State) (u : UnitCmd) : Assoc Nat :=
  match s.cmdItem u with
  | some it => s.stampedOverlay it.grade it.gradeRev
  | none => s.activeOverlay

/-- The set is in use (R264): named by the slot map in force, a scheduled one, one stamped on an item, or a command. -/
def State.wmBusy (s : State) (x : WmSet) : Bool :=
  s.wmNamed s.activeOverlay x.digest ||
    s.dict.schedule.any (fun g => s.wmNamed (s.dict.grades[g.2.toNat]).entries x.digest) ||
    s.hb.items.any (fun it => !it.phase.done && it.phase ≠ .ended &&
      s.wmNamed (s.stampedOverlay it.grade it.gradeRev) x.digest) ||
    s.units.any (fun u => u.unit = 3 &&
      (if u.field 0 1 = 1 then s.wmSlot (s.wmOverlay u) (u.field 2 2) = x.digest else u.field 2 2 = x.id.toNat))

/-- UNLOAD (R264): a code, or the state with the banks freed. -/
def State.wmUnloadSet (s : State) (id : BitVec 16) : Except (BitVec 16) State :=
  match s.wmSet? id with
  | none => .error 0x0608
  | some x => if s.wmBusy x then .error 0x060A else .ok (s.wmFree id)

/-! ### SEARCH (R253 to R258) -/

/-- The class vector of a position. -/
def wmClass (map : List (BitVec 64)) (str : Bytes) (q : Nat) : BitVec 64 :=
  match str[q]? with
  | some b => map[b.toNat]?.getD 0
  | none => 0x8000000000000000

/-- The key of a lookup (R254). -/
def wmKey (x : WmSet) (str : Bytes) (s : BitVec 16) (p : Nat) : BitVec 320 :=
  let cv := fun k => if k < x.width then (wmClass x.classmap str (p + k)).toNat * 2 ^ (80 * k) else 0
  BitVec.ofNat 320 (cv 0 + cv 1 + cv 2 + cv 3 + s.toNat * 2 ^ 64)

def WmEntry.fits (e : WmEntry) (key : BitVec 320) : Bool := e.valid && (key ^^^ e.value) &&& e.care = 0

/-- A string's search so far: the result record's fields, its emits, and its lookups. -/
structure WmRun where
  outcome : Nat
  tag     : Nat
  nemit   : Nat
  s       : BitVec 16
  q       : Nat
  emits   : List (Nat × Nat)
  lookups : Nat
deriving DecidableEq, Repr

/-- The loop of R257; `fuel` bounds its steps, each of which consumes a position. -/
def wmLoop (x : WmSet) (str : Bytes) : Nat → BitVec 16 → Nat → WmRun → WmRun
  | 0, _, _, r => r
  | fuel + 1, state, p, r =>
    let r := { r with s := state, q := p }
    if str.length < p then { r with outcome := 3 }
    else
      let r := { r with lookups := r.lookups + 1 }
      match x.entries.find? (fun e => e.fits (wmKey x str state p)) with
      | none => { r with outcome := 2 }
      | some e =>
        let a := wmAction e.data
        let t := (wmTag e.data).toNat
        let r := if a = 1 || a = 2 then { r with nemit := r.nemit + 1, tag := t, emits := r.emits ++ [(p, t)] } else r
        if a = 2 then { r with outcome := 0 }
        else if a = 3 then { r with outcome := 1 }
        else wmLoop x str fuel (wmNext e.data) (p + wmAdv e.data + 1) r

/-- The search of one string; none is a null string. -/
def wmSearch (x : WmSet) (start : BitVec 16) (str : Option Bytes) : WmRun :=
  let r : WmRun := { outcome := 4, tag := 0xFFFF, nemit := 0, s := start, q := 0, emits := [], lookups := 0 }
  match str with
  | none => r
  | some b => if 65535 < b.length then { r with outcome := 5 } else wmLoop x b (b.length + 2) start 0 r

/-- A result record (Table 10.5). -/
def WmRun.record (r : WmRun) : Bytes :=
  leBytes 1 r.outcome ++ [0] ++ leBytes 2 r.tag ++ leBytes 2 r.s.toNat ++ leBytes 2 r.q ++ leBytes 4 r.nemit ++ zeros 4

/-- Emit records of the strings from number i on (Table 10.6). -/
def emitRecords : Nat → List WmRun → List Bytes
  | _, [] => []
  | i, r :: rs => r.emits.map (fun e => leBytes 4 i ++ leBytes 2 e.1 ++ leBytes 2 e.2) ++ emitRecords (i + 1) rs

/-! ### Command blocks (Table 10.4) -/

def wmCount (u : UnitCmd) : Nat := u.field 4 4
def wmSrc (u : UnitCmd) : Nat := u.field 8 8
def wmId (u : UnitCmd) : BitVec 16 := BitVec.ofNat 16 (u.field 2 2)

/-- Offsets of a SEARCH, and its strings. -/
def State.wmOffset (s : State) (u : UnitCmd) (i : Nat) : Nat := leVal (s.seen u.core.vat (wmSrc u + 4 * i) 4)

def State.wmString (s : State) (u : UnitCmd) (i : Nat) : Option Bytes :=
  let v := u.field 0x18 8
  if v ≠ 0 && leVal (s.seen u.core.vat (v + i / 8) 1) / 2 ^ (i % 8) % 2 = 0 then none
  else some (s.seen u.core.vat (u.field 0x10 8 + s.wmOffset u i) (s.wmOffset u (i + 1) - s.wmOffset u i))

/-- WM_FIELD of a SEARCH block. -/
def wmSearchField (u : UnitCmd) : Bool :=
  let emits := u.field 1 1 = 1
  2 ≤ u.field 1 1 || 16 ≤ u.field 2 2 || wmCount u = 0 || 65536 < wmCount u || !allZero (u.block.drop 0x36) ||
    (if emits then u.field 0x30 4 = 0 || 16777216 < u.field 0x30 4 else u.field 0x28 8 ≠ 0 || u.field 0x30 4 ≠ 0)

def wmSearchReads (s : State) (u : UnitCmd) : List (Nat × Nat) :=
  let n := wmCount u
  let offs := s.plainRange (wmSrc u) (4 * (n + 1))
  (wmSrc u, 4 * (n + 1)) ::
    (if offs then [(u.field 0x10 8 + s.wmOffset u 0, s.wmOffset u n - s.wmOffset u 0)] else []) ++
    (if u.field 0x18 8 = 0 then [] else [(u.field 0x18 8, ceilDiv n 8)])

def wmSearchWrites (u : UnitCmd) : List (Nat × Nat) :=
  (u.field 0x20 8, 16 * wmCount u) :: (if u.field 1 1 = 1 then [(u.field 0x28 8, 8 * u.field 0x30 4)] else [])

/-- Offsets that decrease, where they can be read. -/
def State.wmOffsetsBad (s : State) (u : UnitCmd) : Bool :=
  s.plainRange (wmSrc u) (4 * (wmCount u + 1)) &&
    (List.range (wmCount u)).any (fun i => decide (s.wmOffset u (i + 1) < s.wmOffset u i))

/-- A die's bank holds a copy of a set with the digest. -/
def State.wmCopyOn (s : State) (die : BitVec 2) (d : BitVec 64) : Option WmSet :=
  s.wm.sets.find? (fun x => x.digest = d && (s.wm.banks[die.toNat]).toList.contains (.holds x.id))

/-- The first code of Table 10.12 that turns a SEARCH away, or the set to search. -/
def State.wmTarget (s : State) (u : UnitCmd) : Except (BitVec 16) WmSet :=
  if wmSearchField u || s.wmOffsetsBad u then .error 0x0601
  else if wmSrc u % 4 ≠ 0 || u.field 0x20 8 % 16 ≠ 0 || u.field 0x28 8 % 8 ≠ 0 then .error 0x0602
  else if !s.plainAll (wmSearchReads s u ++ wmSearchWrites u) || (wmSearchWrites u).any (fun w =>
      (wmSearchReads s u).any (fun r => overlaps w.1 w.2 r.1 r.2)) then .error 0x0603
  else
    let d := s.wmSlot (s.wmOverlay u) (u.field 2 2)
    match s.wm.sets.find? (fun x => x.digest = d) with
    | none => .error 0x060B
    | some x =>
      if d = 0 then .error 0x060B
      else if x.mutable_ && u.cls = 1 then .error 0x060C
      else match s.wmCopyOn (vatDie u.core.vat) d with
        | some y => .ok y
        | none => .error 0x0620

/-- The plan of a SEARCH and the lookups it makes. -/
def State.wmRuns (s : State) (u : UnitCmd) (x : WmSet) : List WmRun :=
  (List.range (wmCount u)).map (fun i => wmSearch x (BitVec.ofNat 16 (u.field 0x34 2)) (s.wmString u i))

def wmSearchPlan (s : State) (u : UnitCmd) : UnitPlan :=
  match s.wmTarget u with
  | .error c =>
    if wmSearchField u then .reject c
    else .rejectRead c (s.plainOf [(wmSrc u, 4 * (wmCount u + 1))]) (s.plainOf (wmSearchWrites u))
  | .ok x =>
    let rs := s.wmRuns u x
    let all := emitRecords 0 rs
    let most := u.field 0x30 4
    let emits := u.field 1 1 = 1
    let st : BitVec 16 :=
      if emits && most < all.length then 0x0610 else if rs.any (·.outcome = 5) then 0x0611 else 0
    { status := st, reads := wmSearchReads s u,
      writes := (u.field 0x20 8, rs.flatMap WmRun.record) ::
        (if emits then [(u.field 0x28 8, (all.take most).flatten)] else []) }

/-- WM_SEARCHES and WM_LOOKUPS of a command that ran. -/
def State.wmTally (s : State) (u : UnitCmd) (now : State) : State :=
  match s.wmTarget u with
  | .error _ => now
  | .ok x => (now.bump 0x3C0002 1).bump 0x3C0003 ((s.wmRuns u x).foldl (fun a r => a + r.lookups) 0)

/-- Run the next command of a die's matcher when its OP is the one named. -/
def runMatcher (op : Nat) (die : BitVec 2) (f : State → UnitCmd → State) (s : State) :
    Host.Outcome State Fault Refusal :=
  serveNext 3 die.toNat op f s

def State.wmSearchCmd (s : State) (u : UnitCmd) : State :=
  let p := (wmSearchPlan s u).settle s u.core.vat
  (s.wmTally u (((s.unitStore u.core.vat p.writes).drawn).notePoison p.status)).unitEnd u p.status

/-- Fields of LOAD, UPDATE and UNLOAD blocks. -/
def wmAdminField (u : UnitCmd) : Bool :=
  let op := u.field 0 1
  u.field 1 1 ≠ 0 || u.field 2 2 = 0 || 0xFF < u.field 2 2 || !allZero ((u.block.drop 0x10).take 0x26) ||
    !allZero (u.block.drop 0x37) ||
    (if op = 2 then u.field 0x36 1 = 0 || 4 < u.field 0x36 1 else u.field 0x36 1 ≠ 0) ||
    (op = 3 && (wmCount u = 0 || 8192 < wmCount u)) || (op = 4 && (wmCount u ≠ 0 || wmSrc u ≠ 0))

/-- WM_FIELD, WM_ALIGN, WM_ADDR and WM_CLASS of LOAD, UPDATE and UNLOAD; `bad` is a defect of the records read. -/
def State.wmAdminReject (s : State) (u : UnitCmd) (align len : Nat) (bad : Bool) : Option (BitVec 16) :=
  if wmAdminField u || (s.plainRange (wmSrc u) len && bad) then some 0x0601
  else if wmSrc u % align ≠ 0 then some 0x0602
  else if !s.plainRange (wmSrc u) len then some 0x0603
  else if u.cls ≠ 2 then some 0x0604
  else none

/-- The image or records of a command cannot be read (R424); its block passed and they lie in memory. -/
def State.wmLost (s : State) (u : UnitCmd) (len : Nat) : Bool :=
  !wmAdminField u && s.plainRange (wmSrc u) len && s.unitPoisoned u.core.vat (wmSrc u, len)

def State.wmLoadCmd (s : State) (u : UnitCmd) : State :=
  let b := s.seen u.core.vat (wmSrc u) (wmCount u)
  if s.wmLost u (wmCount u) then (s.notePoison poisonStatus).unitEnd u poisonStatus
  else match s.wmAdminReject u 64 (wmCount u) (wmImageField b) with
    | some c => s.unitEnd u c
    | none => match s.wmLoadImage (wmId u) (u.field 0x36 1) b with
      | .error c => s.unitEnd u c
      | .ok s => s.unitEnd u 0

/-- One record applied to a set's entries (R266). -/
def applyRecord (es : List WmEntry) (r : WmRecord) : List WmEntry :=
  es.set r.entry (if r.uop = 0 then r.toEntry
    else { (es[r.entry]?.getD { valid := false, value := 0, care := 0, data := 0 }) with valid := false })

/-- The codes of an UPDATE that come from its records and its set. -/
def State.wmUpdateReject (s : State) (u : UnitCmd) (rs : List WmRecord) : Option (BitVec 16) :=
  let x := s.wmSet? (wmId u)
  let width := match x with | some x => x.width | none => 4
  if rs.any (fun r => r.uop = 0 && r.bad width) then some 0x0605
  else match x with
    | none => some 0x0608
    | some x =>
      if !x.mutable_ then some 0x0608
      else if rs.any (fun r => x.entries.length ≤ r.entry) then some 0x0609
      else if s.leaseStale 3 (x.id.setWidth 32) u.lease then some 0x0A09
      else none

/-- UPDATE (R266), all records in one step (log entry 147); a pair keeps its mutable sets identical (DEDUCED, log entry 135),
so the records go to the twin's log. -/
def State.wmUpdateCmd (s : State) (u : UnitCmd) : State :=
  let n := wmCount u
  let b := s.seen u.core.vat (wmSrc u) (96 * n)
  let rs := (List.range n).map (wmRecordAt b)
  if s.wmLost u (96 * n) then (s.notePoison poisonStatus).unitEnd u poisonStatus
  else match s.wmAdminReject u 32 (96 * n) (rs.any WmRecord.reserved) with
    | some c => s.unitEnd u c
    | none => match s.wmUpdateReject u rs with
      | some c => s.unitEnd u c
      | none =>
        let change : WmSet → WmSet := fun x =>
          if x.id = wmId u then { x with entries := rs.foldl applyRecord x.entries } else x
        let s := { s with wm := { s.wm with sets := s.wm.sets.map change } }
        let s := if s.mirrored then s.sendLog 2 (wmId u) 4 n 0 b else s
        (s.bump 0x3C0004 1).unitEnd u 0

def State.wmUnloadCmd (s : State) (u : UnitCmd) : State :=
  match s.wmAdminReject u 1 0 false with
  | some c => s.unitEnd u c
  | none => match ({ s with units := s.units.erase u }).wmUnloadSet (wmId u) with
    | .error c => s.unitEnd u c
    | .ok t => ({ t with units := s.units }).unitEnd u 0

/-- SEARCH (R257). -/
def execSearch (die : BitVec 2) (s : State) : Host.Outcome State Fault Refusal :=
  runMatcher 1 die State.wmSearchCmd s

/-- LOAD (R263). -/
def execLoad (die : BitVec 2) (s : State) : Host.Outcome State Fault Refusal := runMatcher 2 die State.wmLoadCmd s

/-- UPDATE (R266). -/
def execUpdate (die : BitVec 2) (s : State) : Host.Outcome State Fault Refusal := runMatcher 3 die State.wmUpdateCmd s

/-- UNLOAD (R264). -/
def execUnload (die : BitVec 2) (s : State) : Host.Outcome State Fault Refusal := runMatcher 4 die State.wmUnloadCmd s

/-- BANK_RETIRE (R261): the bank holds nothing from now on; its strings are searched again on another copy. -/
def execBankRetire (die : BitVec 2) (bank : BitVec 4) (s : State) : Host.Outcome State Fault Refusal :=
  .next { s with wm := { s.wm with
    banks := s.wm.banks.set die.toNat ((s.wm.banks[die.toNat]).set bank.toNat .retired) } }

end Sys2Proof.Machine
end

