-- ==== Sys2Proof/Machine/Pulper.lean ====
section
/-! DEFINITION. The Pulper (R136 to R162): samples, pages and batches decoded, augmented, packed and written at the
memory side, with broke records in list order. -/

namespace Sys2Proof.Machine

open Sys2Proof

/-! ### Command block (Tables 6.2, 6.3) -/

def pulOp (u : UnitCmd) : Nat := u.field 0 1
def pulWrap (u : UnitCmd) : Nat := u.field 1 1
def pulFormat (u : UnitCmd) : Nat := u.field 2 1
def pulFlags (u : UnitCmd) : Nat := u.field 3 1
def pulPack (u : UnitCmd) : Bool := pulFlags u / 4 % 2 = 1
def pulStarts (u : UnitCmd) : Bool := pulFlags u / 2 % 2 = 1
def pulAugment (u : UnitCmd) : Bool := pulFlags u % 2 = 1
def pulCount (u : UnitCmd) : Nat := u.field 4 4
def pulList (u : UnitCmd) : Nat := u.field 8 8
def pulOut (u : UnitCmd) : Nat := u.field 0x10 8
def pulOutSize (u : UnitCmd) : Nat := u.field 0x18 4
def pulOutMax (u : UnitCmd) : Nat := u.field 0x1C 4
def pulParam (u : UnitCmd) : Nat := u.field 0x20 8
def pulAug (u : UnitCmd) : Nat := u.field 0x28 8
def pulBroke (u : UnitCmd) : Nat := u.field 0x30 8
def pulTable (u : UnitCmd) : Nat := u.field 0x38 2
def pulAugN (u : UnitCmd) : Nat := u.field 0x3A 1
def pulRowElems (u : UnitCmd) : Nat := u.field 0x3C 4

/-- A sample list entry. -/
structure SampleRef where
  addr    : Nat
  ordinal : Nat
  len     : Nat
  rsv     : Bool
deriving DecidableEq, Repr

def sampleRefAt (b : Bytes) (i : Nat) : SampleRef :=
  let e := (b.drop (32 * i)).take 32
  { addr := fieldAt e 0 7, ordinal := fieldAt e 8 6, len := fieldAt e 0x10 4,
    rsv := fieldAt e 7 1 ≠ 0 || fieldAt e 0xE 2 ≠ 0 || !allZero (e.drop 0x14) }

/-- An augmentation entry (R152). -/
structure AugEntry where
  op   : Nat
  slot : Nat
  rsv  : Nat
  p0   : Nat
  p1   : Nat
deriving DecidableEq, Repr

def augAt (b : Bytes) (i : Nat) : AugEntry :=
  let e := (b.drop (8 * i)).take 8
  { op := fieldAt e 0 1, slot := fieldAt e 1 1, rsv := fieldAt e 2 2, p0 := fieldAt e 4 2, p1 := fieldAt e 6 2 }

/-- An augmentation entry Table 6.10 does not allow for a format. -/
def AugEntry.bad (a : AugEntry) (format : Nat) : Bool :=
  a.rsv ≠ 0 ||
    (if format = 1 then
      !(a.op = 1 || (a.op = 2 && a.p1 = 0) || (a.op = 3 && a.p0 ≤ 255 && a.p1 = 0))
     else !((a.op = 0x10 || a.op = 0x11) && a.p1 = 0))

/-! ### Parameter blocks (Table 6.8) -/

def paramBytes (op format : Nat) : Nat :=
  if op = 2 then 32 else if op = 1 && format = 1 then 32 else if op = 1 && format = 2 then 64 else 0

def fp64Finite (b : Nat) : Bool := b / 2 ^ 52 % 2 ^ 11 ≠ 2047

def triple (p : Bytes) (off : Nat) : List Nat := [fieldAt p off 8, fieldAt p (off + 8) 8, fieldAt p (off + 16) 8]

/-- Reserved or impossible values of a parameter block (PULPER_FIELD). -/
def paramBad (op format : Nat) (p : Bytes) : Bool :=
  if op = 2 then
    !([0, 1, 2, 4, 5, 6, 7].contains (fieldAt p 0 1)) || 3 < fieldAt p 1 1 || 1 < fieldAt p 2 1 ||
      !([0, 1, 2, 6].contains (fieldAt p 3 1)) || (fieldAt p 0 1 ≠ 7 && fieldAt p 4 4 ≠ 0) || !allZero (p.drop 0x14)
  else if format = 1 then
    3 < fieldAt p 0 1 || !allZero ((p.drop 1).take 7) || fieldAt p 8 2 = 0 || 8192 < fieldAt p 8 2 ||
      fieldAt p 0xA 2 = 0 || 8192 < fieldAt p 0xA 2 || !allZero (p.drop 0xC)
  else if format = 2 then
    let file := fieldAt p 0 1 = 1
    1 < fieldAt p 0 1 || fieldAt p 4 1 = 0 || 128 ≤ fieldAt p 4 1 || 2 < fieldAt p 5 1 || fieldAt p 6 2 ≠ 0 ||
      !allZero (p.drop 0x38) ||
      (if file then fieldAt p 1 1 ≠ 0 || fieldAt p 2 2 ≠ 0 || !allZero ((p.drop 8).take 48)
       else fieldAt p 1 1 < 6 || 10 < fieldAt p 1 1 || !((triple p 8 ++ triple p 0x20).all fp64Finite))
  else false

/-! ### Philox-4x32-10 (R151, R152) -/

/-- Four words of a round: counters and keys to counters and keys. -/
def philoxRounds : Nat → List Nat → List Nat → List Nat
  | 0, c, _ => c
  | n + 1, [c0, c1, c2, c3], [k0, k1] =>
    let a := 0xD2511F53 * c0
    let b := 0xCD9E8D57 * c2
    let xor := fun x y z => (BitVec.ofNat 32 x ^^^ BitVec.ofNat 32 y ^^^ BitVec.ofNat 32 z).toNat
    philoxRounds n [xor (b / 2 ^ 32) c1 k0, b % 2 ^ 32, xor (a / 2 ^ 32) c3 k1, a % 2 ^ 32]
      [(k0 + 0x9E3779B9) % 2 ^ 32, (k1 + 0xBB67AE85) % 2 ^ 32]
  | _ + 1, c, _ => c

/-- Word w of draw d of a slot on ordinal o of a table under a job seed. -/
def philox (seed table o slot d w : Nat) : Nat :=
  (philoxRounds 10 [d % 2 ^ 32, slot, o % 2 ^ 32, table * 2 ^ 16 + o / 2 ^ 32 % 2 ^ 16]
    [seed % 2 ^ 32, seed / 2 ^ 32])[w]?.getD 0

/-- A word as an integer below n. -/
def scaled (w n : Nat) : Nat := w * n / 2 ^ 32

/-! ### Settings of a command (R154, R161, R162) -/

structure PulSet where
  mult    : Nat
  base    : Nat
  holder  : Bool
  wall    : Bool
  arrival : Bool
  max     : Nat
  seed    : Nat
  first   : Nat
deriving DecidableEq, Repr

/-- The settings a command runs under. One issued in firmware mode belongs to no job, and its augmentation keys take the job seed 0
(DESIGN CHOICE, log entry 167). -/
def State.pulSet (s : State) (u : UnitCmd) : PulSet :=
  let o := s.wmOverlay u
  let job := (s.cmdItem u).bind (fun it => s.job? it.job)
  let flow := (s.cmdItem u).bind (fun it => s.flow? it.key.flow)
  { mult := s.furn 0x400001 16, base := s.furn 0x400002 65536, holder := s.gradeIn o 0x400003 0 = 1,
    wall := s.gradeIn o 0x400004 0 = 1, arrival := s.gradeIn o 0x400006 0 = 1, max := s.furn 0x400007 0,
    seed := match job with | some j => j.seed.toNat | none => 0,
    first := match flow with | some (_, f) => f.arrivals | none => 0 }

/-! ### The decode budget (R154, R155) -/

/-- A decoder's position: work charged, and whether an entry stands. -/
structure Meterage where
  work  : Nat
  broke : Option (BitVec 16)
deriving DecidableEq, Repr

/-- One charge against the budget for the units known. -/
def Meterage.charge (c : PulSet) (len units n : Nat) (m : Meterage) : Meterage :=
  if m.broke.isSome then m
  else
    let w := m.work + n
    if !c.wall && c.mult * (len + units) + c.base < w then { work := w, broke := some 0x0307 } else { m with work := w }

def Meterage.fail (code : BitVec 16) (bad : Bool) (m : Meterage) : Meterage :=
  if m.broke.isSome || !bad then m else { m with broke := some code }

/-- One step of a decoder: what it charges, the output units known then, and the code it is broke with, if any. -/
structure PulStep where
  work  : Nat
  units : Nat
  bad   : Option (BitVec 16)
deriving DecidableEq, Repr

/-- A decoder's steps in turn: the first condition met stands (R158). -/
def Meterage.run (c : PulSet) (len : Nat) : List PulStep → Meterage → Meterage
  | [], m => m
  | x :: xs, m =>
    let m := match x.bad with
      | some code => m.fail code true
      | none => m
    Meterage.run c len xs (m.charge c len x.units x.work)

/-- A decoded entry: its broke code, or its bytes and how many elements they are; and the rows of a page. -/
structure Decoded where
  broke : Option (BitVec 16)
  bytes : Bytes
  elems : Nat
  rows  : Nat
deriving DecidableEq, Repr

def Decoded.fail (code : BitVec 16) : Decoded := { broke := some code, bytes := [], elems := 0, rows := 1 }

/-! ### Codes of the formats (Tables 6.6, 6.13) and charges (Table 6.11) -/

/-- The broke code of a defect (Table 6.13). -/
def defectCode (d : Defect) : BitVec 16 :=
  match d with
  | .wrapHeader => 0x0301
  | .wrapData => 0x0302
  | .wrapChecksum => 0x0303
  | .wrapTruncated => 0x0304
  | .jpegMarker => 0x0310
  | .jpegHuffman => 0x0313
  | .jpegRestart => 0x0314
  | .jpegScan => 0x0315
  | .jpegTruncated => 0x0316
  | .pageHeader => 0x0330
  | .pageEncoding => 0x0331
  | .pageData => 0x0332
  | .pageCrc => 0x0333
  | .pageCount => 0x0334
  | .arrowMessage => 0x0340
  | .arrowUnsupported => 0x0341
  | .arrowBounds => 0x0342

/-- WRAP_UNSUPPORTED, WRAP_HEADER or the defect of a decompression step; the largest Zstandard window is 16 MiB. -/
def wrapCode (w : WrapStep) : Option (BitVec 16) :=
  match w with
  | .header => none
  | .input _ => none
  | .output _ => none
  | .dictionary => some 0x0305
  | .method cm => if cm = 8 then none else some 0x0305
  | .window n => if 2 ^ 24 < n then some 0x0305 else none
  | .legacy => some 0x0305
  | .framing => some 0x0301
  | .bad d => some (defectCode d)

/-- The charge of a decompression step: 256 for a header, 1 for each input byte and each output byte. -/
def wrapWork (w : WrapStep) : Nat :=
  match w with
  | .header => 256
  | .input n => n
  | .output b => b.length
  | _ => 0

/-- The steps of a decompression from `out` bytes on; with FORMAT bytes the output is the output units, and it is capped at
OUT_MAX. -/
def wrapSteps (plain : Bool) (most : Nat) : Nat → List WrapStep → List PulStep
  | _, [] => []
  | out, w :: ws =>
    let out := out + (wrapOut w).length
    { work := wrapWork w, units := if plain then out else 0,
      bad := match wrapCode w with
        | some code => some code
        | none => if plain && most < out then some 0x0306 else none } :: wrapSteps plain most out ws

/-! ### JPEG (R144, R145) -/

def cosTable : List Int := [8192, 8035, 7568, 6811, 5793, 4551, 3135, 1598, 0]

/-- 2^14 / 2 × cos(nπ / 16), rounded. -/
def cosK (n : Nat) : Int :=
  let r := n % 32
  let r := if 16 < r then 32 - r else r
  if r ≤ 8 then cosTable[r]?.getD 0 else -(cosTable[16 - r]?.getD 0)

/-- K[x][u]. -/
def idctK (x u : Nat) : Int := if u = 0 then 5793 else cosK ((2 * x + 1) * u)

def sumTo : Nat → (Nat → Int) → Int
  | 0, _ => 0
  | n + 1, f => sumTo n f + f n

/-- t[v][x] of a block F, row by row. -/
def idctRow (f : List Int) (v x : Nat) : Int :=
  (sumTo 8 (fun u => idctK x u * (f[8 * v + u]?.getD 0)) + 1024) / 2048

/-- The 64 samples of a block, row by row. -/
def idct (f : List Int) : List Nat :=
  let t := (List.range 64).map (fun i => idctRow f (i / 8) (i % 8))
  (List.range 64).map (fun i =>
    let s := sumTo 8 (fun v => idctK (i / 8) v * (t[8 * v + i % 8]?.getD 0))
    (clampInt false 1 ((s + 65536) / 131072 + 128)).toNat)

/-- The sample of a component at its own coordinates. -/
def compSample (blocks : List (List Nat)) (wide x y : Nat) : Nat :=
  ((blocks[y / 8 * wide + x / 8]?.getD [])[8 * (y % 8) + x % 8]?).getD 0

/-- Colour conversion of one pixel (R145). -/
def toRgb (y cb cr : Nat) : List Nat :=
  let b : Int := (cb : Int) - 128
  let r : Int := (cr : Int) - 128
  let cl := fun (v : Int) => (clampInt false 1 v).toNat
  [cl (y + (91881 * r + 32768) / 65536), cl (y - (22554 * b + 46802 * r + 32768) / 65536),
   cl (y + (116130 * b + 32768) / 65536)]

/-- A picture: rows of pixels of channels. -/
abbrev Picture := List (List (List Nat))

def picWidth (p : Picture) : Nat := (p.head?.getD []).length

/-- The frame of an SOF segment. -/
structure JpegFrame where
  width    : Nat
  height   : Nat
  sampling : List (Nat × Nat)
deriving DecidableEq, Repr

def jpegFrame : List JpegStep → JpegFrame
  | [] => { width := 0, height := 0, sampling := [] }
  | .frame _ _ w h k :: _ => { width := w, height := h, sampling := k }
  | _ :: xs => jpegFrame xs

/-- A component is halved in a direction (R145). -/
def halved (k : List Nat) (n : Nat) : Nat := if k.any (fun m => m = 2 * n) then 1 else 0

/-- Blocks in a row of a component over whole MCUs (R145). -/
def compWide (f : JpegFrame) (h : Nat) : Nat :=
  match f.sampling with
  | [_] => ceilDiv f.width 8
  | k => ceilDiv f.width (8 * (k.map (·.1)).foldl max 1) * h

/-- Dequantised coefficients: F[v][u] = coefficient × Q (R144). -/
def dequant (quant coeff : List Int) : List Int := List.zipWith (· * ·) coeff quant

/-- Supported frames are SOF0 and SOF2 with 8-bit samples. -/
def jpegCode (maxW maxH : Nat) (x : JpegStep) : Option (BitVec 16) :=
  match x with
  | .marker => none
  | .frame sof precision w h k =>
    if !(sof = 0 || sof = 2) || precision ≠ 8 || !samplingOk k then some 0x0311
    else if w = 0 || h = 0 || maxW < w || maxH < h then some 0x0312
    else none
  | .arithmetic => some 0x0311
  | .dnl => some 0x0311
  | .hierarchical => some 0x0311
  | .entropy _ => none
  | .visit _ _ => none
  | .bad d => some (defectCode d)

/-- Charges of the JPEG engine (Table 6.11), an SOF being a marker segment too. -/
def jpegWork (x : JpegStep) : Nat :=
  match x with
  | .marker => 256
  | .frame _ _ _ _ _ => 256
  | .entropy n => n
  | .visit ss se => se - ss + 1
  | _ => 0

/-- The steps of the JPEG engine: width × height are the units from the SOF segment on. -/
def jpegSteps (maxW maxH : Nat) : Nat → List JpegStep → List PulStep
  | _, [] => []
  | units, x :: xs =>
    let units := match x with
      | .frame _ _ w h _ => w * h
      | _ => units
    { work := jpegWork x, units := units, bad := jpegCode maxW maxH x } :: jpegSteps maxW maxH units xs

/-- The decoded picture in an output format (OUT_FMT of Table 6.8). -/
def jpegPicture (j : Jpeg) (fmt : Nat) : Picture :=
  let f := jpegFrame j.steps
  let comps := j.comps.map (fun c => c.blocks.map (fun b => idct (dequant c.quant b)))
  let at' := fun (k x y : Nat) => match comps[k]?, f.sampling[k]? with
    | some b, some (h, v) =>
      compSample b (compWide f h) (x / 2 ^ halved (f.sampling.map (·.1)) h) (y / 2 ^ halved (f.sampling.map (·.2)) v)
    | _, _ => 0
  let gray := comps.length ≤ 1
  (List.range f.height).map (fun y => (List.range f.width).map (fun x =>
    let l := at' 0 x y
    if fmt = 2 then [l]
    else if fmt = 3 then (if gray then [l, Config.grayChroma.toNat, Config.grayChroma.toNat]
                          else [l, at' 1 x y, at' 2 x y])
    else if gray then [l, l, l] else toRgb l (at' 1 x y) (at' 2 x y)))

/-- Bytes of a picture: interleaved, or planar under OUT_FMT 1. -/
def pictureBytes (p : Picture) (fmt : Nat) : Bytes :=
  if fmt = 1 then (List.range 3).flatMap (fun k => p.flatMap (fun r => r.map (fun px => BitVec.ofNat 8 (px[k]?.getD 0))))
  else p.flatMap (fun r => r.flatMap (fun px => px.map (BitVec.ofNat 8)))

/-- One augmentation entry on a picture (Table 6.10): none for AUG_SIZE. -/
def augPicture (draw : Nat → Nat → Nat) (a : AugEntry) (p : Picture) : Option Picture :=
  let w := picWidth p
  let h := p.length
  if a.op = 1 then
    if w < a.p0 || h < a.p1 then none
    else
      let x := scaled (draw 0 0) (w - a.p0 + 1)
      let y := scaled (draw 0 1) (h - a.p1 + 1)
      some (((p.drop y).take a.p1).map (fun r => (r.drop x).take a.p0))
  else if a.op = 2 then some (if draw 0 0 / 2 ^ 16 < a.p0 then p.map List.reverse else p)
  else
    let m := scaled (draw 0 0) (2 * a.p0 + 1)
    some (p.map (fun r => r.map (fun px => px.map (fun (c : Nat) =>
      (clampInt false 1 ((c : Int) + m - a.p0)).toNat))))

/-- The augmentation entries in list order, one charge per output pixel and entry. -/
def augPictures (c : PulSet) (len units : Nat) (draw : Nat → Nat → Nat → Nat) :
    List AugEntry → Picture → Meterage → Picture × Meterage
  | [], p, m => (p, m)
  | a :: as, p, m =>
    if m.broke.isSome then (p, m)
    else match augPicture (draw a.slot) a p with
      | none => (p, m.fail 0x0351 true)
      | some q => augPictures c len units draw as q (m.charge c len units (picWidth q * q.length))

/-- JPEG after unwrapping: `b` is the payload, `len` the input bytes; each decoded pixel is charged after its scans. -/
def decodeJpeg (c : PulSet) (len outMax : Nat) (param b : Bytes) (augs : List AugEntry) (draw : Nat → Nat → Nat → Nat)
    (m : Meterage) : Decoded :=
  let j := jpegDecode b
  let f := jpegFrame j.steps
  let units := f.width * f.height
  let m := (Meterage.run c len (jpegSteps (fieldAt param 8 2) (fieldAt param 0xA 2) 0 j.steps) m).charge c len units units
  match m.broke with
  | some code => .fail code
  | none =>
    let fmt := fieldAt param 0 1
    let r := augPictures c len units draw augs (jpegPicture j fmt) m
    let out := pictureBytes r.1 fmt
    match (r.2.fail 0x0306 (outMax < out.length)).broke with
    | some code => .fail code
    | none => { broke := none, bytes := out, elems := out.length, rows := 1 }

/-! ### LAS (R146; the record layout of LAS 1.4 is PRESUMED, log entry 20) -/

def lasStandard (pdrf : Nat) : Nat :=
  match pdrf with
  | 6 => 30
  | 7 => 36
  | 8 => 38
  | 9 => 59
  | _ => 67

/-- A point: raw coordinates, and its record. -/
structure LasPoint where
  index : Nat
  xyz   : List Int
  raw   : Bytes
deriving DecidableEq, Repr

def lasPoint (b : Bytes) (len i : Nat) : LasPoint :=
  let r := (b.drop (len * i)).take len
  { index := i, xyz := [0, 4, 8].map (fun o => intVal true 4 (fieldAt r o 4)), raw := r }

/-- Bytes of one output record for FIELDS and COORD. -/
def lasRecordSize (fields coord : Nat) : Nat :=
  let f := fun i => fields / 2 ^ i % 2 = 1
  (if f 6 then (if coord = 2 then 24 else 12) else 0) + (if f 5 then 2 else 0) + (if f 4 then 1 else 0) +
    (if f 3 then 1 else 0) + (if f 2 then 8 else 0) + (if f 1 then 6 else 0) + (if f 0 then 2 else 0)

/-- A coordinate in the form COORD selects. -/
def lasCoord (coord : Nat) (raw : Int) (scale offset : Nat) : Bytes :=
  if coord = 0 then leBytes 4 (wrapInt 4 raw)
  else
    let f := fmtOf (if coord = 1 then 0xC else 0xD)
    let d := fmtOf 0xD
    leBytes (if coord = 1 then 4 else 8)
      (f.fma 0 (d.decode offset) (.fin (raw < 0) raw.natAbs 0) (d.decode scale)).bits

/-- One output record (R146); GPS time is written as FP64, and a NaN in it as the canonical one (R73). -/
def lasRecord (fields coord pdrf : Nat) (scale offset : List Nat) (p : LasPoint) : Bytes :=
  let f := fun i => fields / 2 ^ i % 2 = 1
  let rgb := pdrf ≠ 6 && pdrf ≠ 9
  let nir := pdrf = 8 || pdrf = 10
  (if f 6 then (List.range 3).flatMap (fun k =>
      lasCoord coord (p.xyz[k]?.getD 0) (scale[k]?.getD 0) (offset[k]?.getD 0)) else []) ++
    (if f 5 then (p.raw.drop 12).take 2 else []) ++ (if f 4 then (p.raw.drop 14).take 1 else []) ++
    (if f 3 then (p.raw.drop 16).take 1 else []) ++ (if f 2 then leBytes 8 (convert 0xD 0xD 0 (fieldAt p.raw 22 8)).bits else []) ++
    (if f 1 then (if rgb then (p.raw.drop 30).take 6 else zeros 6) else []) ++
    (if f 0 then (if nir then (p.raw.drop 36).take 2 else zeros 2) else [])

/-- One augmentation entry on a point: none when DROP removes it. -/
def augPoint (draw : Nat → Nat → Nat) (a : AugEntry) (p : LasPoint) : Option LasPoint :=
  if a.op = 0x10 then
    let j := fun (k : Nat) (v : Int) => clampInt true 4 (v + scaled (draw p.index k) (2 * a.p0 + 1) - a.p0)
    some { p with xyz := (List.range 3).map (fun k => j k (p.xyz[k]?.getD 0)) }
  else if draw p.index 0 / 2 ^ 16 < a.p0 then some p else none

/-- The entries in list order, one charge per output point and entry. -/
def augPoints (c : PulSet) (len units : Nat) (draw : Nat → Nat → Nat → Nat) :
    List AugEntry → List LasPoint → Meterage → List LasPoint × Meterage
  | [], p, m => (p, m)
  | a :: as, p, m =>
    let q := p.filterMap (augPoint (draw a.slot) a)
    augPoints c len units draw as q (m.charge c len units q.length)

/-- Where the points of a payload lie: format, record length, first byte, count, scale, offset; or a broke code. -/
structure LasPlace where
  pdrf   : Nat
  recLen : Nat
  start  : Nat
  count  : Nat
  scale  : List Nat
  offset : List Nat
  broke  : Option (BitVec 16)
deriving DecidableEq, Repr

/-- Bytes of a LAS 1.4 header. -/
def lasHeaderBytes : Nat := 375

/-- RECORDS mode takes the place of the points from the parameter block, FILE mode from the header of the sample: signature LASF,
version 1.4, offset to the points, format, record length, scales, offsets and point count, at the places of LAS 1.4 (PRESUMED, log
entry 20). -/
def lasPlace (param b : Bytes) : LasPlace :=
  if fieldAt param 0 1 = 0 then
    let len := fieldAt param 2 2
    let pdrf := fieldAt param 1 1
    { pdrf := pdrf, recLen := len, start := 0, count := b.length / len, scale := triple param 8,
      offset := triple param 0x20,
      broke := if len < lasStandard pdrf then some 0x0321 else if b.length % len ≠ 0 then some 0x0322 else none }
  else
    let pdrf := fieldAt b 104 1
    let recLen := fieldAt b 105 2
    let start := fieldAt b 96 4
    let count := fieldAt b 247 8
    let sc := triple b 131
    let off := triple b 155
    { pdrf := pdrf, recLen := recLen, start := start, count := count, scale := sc, offset := off,
      broke :=
        if b.length < lasHeaderBytes || b.take 4 ≠ [0x4C, 0x41, 0x53, 0x46] || fieldAt b 24 2 ≠ 0x0401 || b.length < start ||
          !((sc ++ off).all fp64Finite) then some 0x0320
        else if pdrf < 6 || 10 < pdrf || recLen < lasStandard pdrf then some 0x0321
        else if b.length < start + count * recLen then some 0x0322
        else none }

/-- Steps of the point-record engine over `len` input bytes (Table 6.11): the bytes before the points, each record's bytes and its
point, and the bytes behind them. -/
def lasSteps (p : LasPlace) (len : Nat) : List PulStep :=
  { work := p.start, units := p.count, bad := p.broke } ::
    (List.replicate p.count { work := p.recLen + 1, units := p.count, bad := none } ++
      [{ work := len - (p.start + p.count * p.recLen), units := p.count, bad := none }])

def decodeLas (c : PulSet) (len outMax : Nat) (param b : Bytes) (augs : List AugEntry) (draw : Nat → Nat → Nat → Nat)
    (m : Meterage) : Decoded :=
  let p := lasPlace param b
  let m := Meterage.run c len (lasSteps { p with count := if p.broke.isSome then 0 else p.count } b.length) m
  match m.broke with
  | some code => .fail code
  | none =>
    let pts := (List.range p.count).map (lasPoint (b.drop p.start) p.recLen)
    let r := augPoints c len p.count draw augs pts m
    let fields := fieldAt param 4 1
    let coord := fieldAt param 5 1
    let out := r.1.flatMap (lasRecord fields coord p.pdrf p.scale p.offset)
    match (r.2.fail 0x0306 (outMax < out.length)).broke with
    | some code => .fail code
    | none => { broke := none, bytes := out, elems := r.1.length, rows := 1 }

/-! ### Samples, pages and batches -/

/-- The draws of a sample: slot, draw index and word. -/
def pulDraw (c : PulSet) (u : UnitCmd) (o : Nat) (slot d w : Nat) : Nat := philox c.seed (pulTable u) o slot d w

/-- SAMPLES: unwrap, then decode by format. -/
def decodeSample (c : PulSet) (u : UnitCmd) (param : Bytes) (augs : List AugEntry) (o : Nat) (b : Bytes) : Decoded :=
  let len := b.length
  let most := pulOutMax u
  let plain := pulFormat u = 0
  let steps := if pulWrap u = 0 then [] else unwrap (pulWrap u) b
  let result := if pulWrap u = 0 then b else steps.flatMap wrapOut
  let m := (Meterage.run c len (wrapSteps plain most 0 steps) { work := 0, broke := none }).fail 0x0306
    (plain && most < result.length)
  match m.broke with
  | some code => .fail code
  | none =>
    if plain then { broke := none, bytes := result, elems := result.length, rows := 1 }
    else if pulFormat u = 1 then decodeJpeg c len most param result augs (pulDraw c u o) m
    else decodeLas c len most param result augs (pulDraw c u o) m

/-! ### Pages and batches (R147, R160) -/

/-- The encodings a page may have (Table 6.6) are PLAIN 0, PLAIN_DICTIONARY 2, RLE 3, DELTA_BINARY_PACKED 5,
DELTA_LENGTH_BYTE_ARRAY 6 and RLE_DICTIONARY 8, and its levels are RLE; the numbers are Parquet's (PRESUMED, log entry 180). -/
def pageEncodingOk (encoding : Nat) (levels : List Nat) : Bool :=
  [0, 2, 3, 5, 6, 8].contains encoding && levels.all (· = 3)

/-- PAGE_HEADER, PAGE_ENCODING, PAGE_DATA for an index beyond a dictionary of `n` entries, ARROW_UNSUPPORTED, or the defect of a
step; metadata version V5 is number 4 of the Arrow format (PRESUMED, log entry 181). -/
def colCode (n : Nat) (x : ColStep) : Option (BitVec 16) :=
  match x with
  | .page dataPage encoding levels _ =>
    if !dataPage then some 0x0330 else if !pageEncodingOk encoding levels then some 0x0331 else none
  | .batch types version big delta _ => if version ≠ 4 || big || delta || !types.all arrowTypeOk then some 0x0341 else none
  | .codec w => wrapCode w
  | .input _ => none
  | .value (some i) => if n ≤ i then some 0x0332 else none
  | .value none => none
  | .bad d => some (defectCode d)

/-- Charges of the page engine, and of the decompression engine for its body. -/
def colWork (x : ColStep) : Nat :=
  match x with
  | .codec w => wrapWork w
  | .input n => n
  | .value _ => 1
  | _ => 0

/-- The steps of a page or batch: its value count or length are the units once its header is read. -/
def colSteps (n : Nat) : Nat → List ColStep → List PulStep
  | _, [] => []
  | units, x :: xs =>
    let units := match x with
      | .page _ _ _ count => count
      | .batch _ _ _ _ length => length
      | _ => units
    { work := colWork x, units := units, bad := colCode n x } :: colSteps n units xs

/-- The value count a page header gives. -/
def colCount : List ColStep → Nat
  | [] => 0
  | .page _ _ _ count :: _ => count
  | _ :: xs => colCount xs

/-- The value steps of a page, in order. -/
def colValues : List ColStep → List (Option Nat)
  | [] => []
  | .value i :: xs => i :: colValues xs
  | _ :: xs => colValues xs

/-- A Parquet page in the Arrow columnar layout (R147): byte arrays outside lists have their offsets in the place of list offsets, and
inside lists stand one behind the other (DESIGN CHOICE, log entry 166). -/
def pageColumns (param : Bytes) (p : Page) : Columns :=
  let ptype := fieldAt param 0 1
  let maxDef := fieldAt param 1 1
  let listed := fieldAt param 2 1 ≠ 0
  let slots := p.column.flatMap (·.elems)
  let valid := p.column.map (·.valid)
  { rows := p.rows, nulls := (valid.filter (fun v => !v)).length,
    bufs := [
      if (if listed then listsNullable maxDef else maxDef ≠ 0) then some (validBytes valid) else none,
      if listed then some (offsetBytes 4 0 (p.column.map (·.elems.length)))
      else if ptype = 6 then some (offsetBytes 4 0 (slots.map (fun x => (x.getD []).length)))
      else none,
      if listed && elemsNullable maxDef then some (validBytes (slots.map Option.isSome)) else none,
      some (if ptype = 0 then slotBits slots else slotBytes (ptypeWidth ptype (fieldAt param 4 4)) 0 slots)] }

/-- Buffers one after another, each 64-byte aligned, with their offsets from the record; absent ones have offset 0. The bytes of a
gap are open, and depend on the data alone (R21, log entry 77). -/
def placeBuffers : Nat → List (Option Bytes) → List Nat × Bytes
  | _, [] => ([], [])
  | at', none :: bs =>
    let r := placeBuffers at' bs
    (0 :: r.1, r.2)
  | at', some b :: bs =>
    let pad := roundUpTo b.length 64 - b.length
    let r := placeBuffers (at' + b.length + pad) bs
    (at' :: r.1, b ++ (List.range pad).map (fun i => Config.gapByte b (at' + b.length + i)) ++ r.2)

/-- A page record and its buffers (R147). -/
def pageBytes (rows nulls : Nat) (bufs : List (Option Bytes)) : Bytes :=
  let r := placeBuffers 64 bufs
  leBytes 4 rows ++ leBytes 4 nulls ++ r.1.flatMap (leBytes 4) ++ zeros (64 - 24) ++ r.2

/-- A broke page or batch: under PLACEHOLDER its rows with row validity clear (R160), when OUT_MAX holds them (log entry 130). -/
def brokeColumns (holder : Bool) (outMax rows : Nat) (code : BitVec 16) : Decoded :=
  let b := pageBytes rows rows [some (zeros (ceilDiv rows 8)), none, none, none]
  { broke := some code, elems := 0, rows := rows, bytes := if holder && b.length ≤ outMax then b else [] }

/-- A page or batch after its steps. -/
def decodeColumns (c : PulSet) (outMax : Nat) (m : Meterage) (k : Columns) : Decoded :=
  let out := pageBytes k.rows k.nulls k.bufs
  match (m.fail 0x0306 (outMax < out.length)).broke with
  | some code => brokeColumns c.holder outMax k.rows code
  | none => { broke := none, bytes := out, elems := out.length, rows := k.rows }

/-- PAGE, with the entries of its dictionary: the values decoded must be the header's count. -/
def decodePage (c : PulSet) (len outMax : Nat) (param : Bytes) (dict : List Bytes) (b : Bytes) : Decoded :=
  let p := parquetPage param dict b
  let m := Meterage.run c len (colSteps dict.length 0 p.steps) { work := 0, broke := none }
  decodeColumns c outMax (m.fail 0x0334 ((colValues p.steps).length ≠ colCount p.steps)) (pageColumns param p)

/-- ARROW. -/
def decodeBatch (c : PulSet) (len outMax : Nat) (b : Batch) : Decoded :=
  decodeColumns c outMax (Meterage.run c len (colSteps 0 0 b.steps) { work := 0, broke := none }) b.columns

/-! ### Packing (R148 to R150) -/

/-- A packed row: used elements, its bytes, and the starts of its segments. -/
structure PackRow where
  used   : Nat
  bytes  : Bytes
  starts : List Nat
deriving DecidableEq, Repr

/-- Place a segment: the rows, newest last, and where it went (row and element). -/
def packPlace (cap limit : Nat) (rows : List PackRow) (b : Bytes) (n : Nat) : List PackRow × Nat × Nat :=
  match rows.getLast? with
  | some r =>
    if r.used + n ≤ cap && r.starts.length < limit then
      (rows.dropLast ++ [{ used := r.used + n, bytes := r.bytes ++ b, starts := r.starts ++ [r.used] }],
        rows.length - 1, r.used)
    else (rows ++ [{ used := n, bytes := b, starts := [0] }], rows.length, 0)
  | none => ([{ used := n, bytes := b, starts := [0] }], 0, 0)

/-- Segment numbers of the elements of a row: each start and the next, in turn. -/
def segIds : Nat → List Nat → Nat → List Nat
  | _, [], _ => []
  | k, [a], used => List.replicate (used - a) k
  | k, a :: b :: rest, used => List.replicate (b - a) k ++ segIds (k + 1) (b :: rest) used

/-- The mark block of a row (Table 6.7). -/
def packMarks (starts' : Bool) (cap : Nat) (r : PackRow) : Bytes :=
  if starts' then
    let b := leBytes 4 r.starts.length ++ r.starts.flatMap (leBytes 4) ++ leBytes 4 r.used
    b ++ zeros (4096 - b.length)
  else
    let b := (segIds 1 r.starts r.used).flatMap (leBytes 2)
    b ++ zeros (roundUpTo (2 * cap) 64 - b.length)

def packMarkBytes (starts' : Bool) (cap : Nat) : Nat := if starts' then 4096 else roundUpTo (2 * cap) 64

def packRowBytes (starts' : Bool) (cap esize : Nat) : Nat :=
  roundUpTo (cap * esize) 64 + packMarkBytes starts' cap

def packRowOut (starts' : Bool) (cap esize : Nat) (r : PackRow) : Bytes :=
  let n := roundUpTo (cap * esize) 64
  r.bytes ++ zeros (n - r.bytes.length) ++ packMarks starts' cap r

/-- A directory entry: offset, length, code. -/
def dirEntry (off len : Nat) (code : BitVec 16) : Bytes :=
  leBytes 8 off ++ leBytes 4 len ++ leBytes 2 code.toNat ++ zeros 2

/-- Pack decoded samples: the rows and the directory; `data` is the offset of the data from OUT. -/
def packAll (holder starts' : Bool) (cap esize data : Nat) :
    List Decoded → List PackRow → Bytes → List PackRow × Bytes
  | [], rows, dir => (rows, dir)
  | d :: ds, rows, dir =>
    let limit := if starts' then 1022 else 65535
    match d.broke with
    | some code =>
      let rows := if holder then (packPlace cap limit rows [] 0).1 else rows
      packAll holder starts' cap esize data ds rows (dir ++ dirEntry 0 0 code)
    | none =>
      let r := packPlace cap limit rows d.bytes d.elems
      packAll holder starts' cap esize data ds r.1
        (dir ++ dirEntry (data + r.2.1 * packRowBytes starts' cap esize + r.2.2 * esize) d.bytes.length 0)

/-- Unpacked outputs in list order on 64-byte boundaries, and the directory, where a broke entry has OFFSET 0 and LENGTH 0
(R142); `at'` is the offset reached. -/
def unpackedAll : Nat → List Decoded → Bytes × Bytes
  | _, [] => ([], [])
  | at', d :: ds =>
    if d.bytes = [] then
      let r := unpackedAll at' ds
      (r.1, dirEntry (if d.broke.isSome then 0 else at') 0 (d.broke.getD 0) ++ r.2)
    else
      let pad := if ds.any (fun x => x.broke.isNone || x.bytes ≠ []) then roundUpTo d.bytes.length 64 - d.bytes.length else 0
      let r := unpackedAll (at' + d.bytes.length + pad) ds
      (d.bytes ++ (List.range pad).map (fun i => Config.gapByte d.bytes (at' + d.bytes.length + i)) ++ r.1,
        (match d.broke with
          | some code => dirEntry 0 0 code
          | none => dirEntry at' d.bytes.length 0) ++ r.2)

/-! ### Checks of Table 6.4 (R139, R141) -/

def pulEsize (u : UnitCmd) (param : Bytes) : Nat :=
  if pulFormat u = 2 then lasRecordSize (fieldAt param 4 1) (fieldAt param 5 1) else 1

def pulFieldBad (u : UnitCmd) : Bool :=
  let op := pulOp u
  let samples := op = 1
  let f := pulFormat u
  (if samples then 6 < pulWrap u || 2 < f else pulWrap u ≠ 0 || f ≠ 0) || 8 ≤ pulFlags u ||
    (pulPack u && !(samples && (f = 0 || f = 2))) || (pulAugment u && !(samples && (f = 1 || f = 2))) ||
    pulCount u = 0 || 65536 < pulCount u || pulOutMax u = 0 || 0xFFFFFFC0 < pulOutMax u ||
    (if pulAugment u then pulAugN u = 0 || 8 < pulAugN u else pulAugN u ≠ 0 || pulAug u ≠ 0) ||
    u.field 0x3B 1 ≠ 0 ||
    (if pulPack u then pulRowElems u = 0 || 1048576 < pulRowElems u else pulRowElems u ≠ 0) ||
    (if paramBytes op f = 0 then pulParam u ≠ 0 else pulParam u = 0)

def State.pulBytes (s : State) (u : UnitCmd) (a n : Nat) : Bytes := s.sideBytes u.core.vat a n

def State.pulRefs (s : State) (u : UnitCmd) : List SampleRef :=
  let b := s.pulBytes u (pulList u) (32 * pulCount u)
  (List.range (pulCount u)).map (sampleRefAt b)

def State.pulParams (s : State) (u : UnitCmd) : Bytes := s.pulBytes u (pulParam u) (paramBytes (pulOp u) (pulFormat u))

def State.pulAugs (s : State) (u : UnitCmd) : List AugEntry :=
  let b := s.pulBytes u (pulAug u) (8 * pulAugN u)
  (List.range (pulAugN u)).map (augAt b)

/-- Reserved values inside the areas that can be read. -/
def State.pulContentBad (s : State) (u : UnitCmd) : Bool :=
  let np := paramBytes (pulOp u) (pulFormat u)
  let slots := (s.pulAugs u).map (·.slot)
  (s.plainRange (pulList u) (32 * pulCount u) && (s.pulRefs u).any (·.rsv)) ||
    (s.plainRange (pulParam u) np && paramBad (pulOp u) (pulFormat u) (s.pulParams u)) ||
    (s.plainRange (pulAug u) (8 * pulAugN u) &&
      ((s.pulAugs u).any (·.bad (pulFormat u)) || slots.length ≠ slots.eraseDups.length))

/-- The dictionary page of a PAGE command. -/
def State.pulDict (s : State) (u : UnitCmd) : Nat × Nat :=
  let p := s.pulParams u
  if pulOp u = 2 && fieldAt p 8 8 ≠ 0 then (fieldAt p 8 8, fieldAt p 0x10 4) else (0, 0)

def State.pulSamples (s : State) (u : UnitCmd) : List (Nat × Nat) := (s.pulRefs u).map (fun r => (r.addr, r.len))

def State.pulAreas (_ : State) (u : UnitCmd) : List (Nat × Nat) :=
  [(pulList u, 32 * pulCount u), (pulParam u, paramBytes (pulOp u) (pulFormat u)), (pulAug u, 8 * pulAugN u)]

/-- The required output size (R141). -/
def State.pulRequired (s : State) (u : UnitCmd) : Nat :=
  64 + roundUpTo (16 * pulCount u) 64 +
    (if pulPack u then
      pulCount u * packRowBytes (pulStarts u) (pulRowElems u) (pulEsize u (s.pulParams u))
     else pulCount u * roundUpTo (pulOutMax u) 64)

/-- The first code of Table 6.4 that rejects the command. -/
def State.pulReject (s : State) (u : UnitCmd) : Option (BitVec 16) :=
  let out := (pulOut u, pulOutSize u)
  let broke := (pulBroke u, 16 * pulCount u)
  let ov := fun (a b : Nat × Nat) => overlaps a.1 a.2 b.1 b.2
  if pulFieldBad u || s.pulContentBad u then some 0x0380
  else if pulList u % 32 ≠ 0 || pulOut u % 64 ≠ 0 || pulParam u % 64 ≠ 0 || pulAug u % 8 ≠ 0 || pulBroke u % 16 ≠ 0
    then some 0x0381
  else if !s.plainAll (out :: broke :: s.pulAreas u) || !s.plainAll (s.pulDict u :: s.pulSamples u) then some 0x0382
  else if pulOutSize u < s.pulRequired u then some 0x0383
  else if ov out broke || (s.pulAreas u ++ s.pulSamples u).any (fun r => ov out r || ov broke r) then some 0x0384
  else none

def isCodec (x : ColStep) : Bool :=
  match x with
  | .codec _ => true
  | _ => false

/-- A needed engine type has no engine left on the die (R137); a compressed Parquet page or Arrow body needs Decompression too
(Table 6.1). -/
def State.pulNoEngine (s : State) (u : UnitCmd) : Bool :=
  let p := s.pulpers[(vatDie u.core.vat).toNat]
  let codec := (pulOp u = 2 && fieldAt (s.pulParams u) 3 1 ≠ 0) ||
    (pulOp u = 3 && (s.pulSamples u).any (fun r => (arrowBatch (s.pulBytes u r.1 r.2)).steps.any isCodec))
  (((pulOp u = 1 && pulWrap u ≠ 0) || codec) && p.decompression = 0) ||
    (pulOp u = 1 && pulFormat u = 1 && p.jpeg = 0) || (pulOp u = 1 && pulFormat u = 2 && p.pointRecord = 0) ||
    (pulOp u ≠ 1 && p.page = 0)

/-! ### Running a command -/

/-- One list entry decoded. -/
def State.pulEntry (s : State) (u : UnitCmd) (c : PulSet) (i : Nat) (r : SampleRef) : Decoded :=
  let b := s.pulBytes u r.addr r.len
  let o := if c.arrival then c.first + i else r.ordinal
  if pulOp u = 1 then
    let d := decodeSample c u (s.pulParams u) (s.pulAugs u) o b
    if pulPack u && d.broke.isNone && pulRowElems u < d.elems then .fail 0x0350 else d
  else if pulOp u = 2 then
    decodePage c r.len (pulOutMax u) (s.pulParams u)
      (dictEntries (s.pulParams u) (s.pulBytes u (s.pulDict u).1 (s.pulDict u).2)) b
  else decodeBatch c r.len (pulOutMax u) (arrowBatch b)

/-- An entry as it comes out: under WALLTIME an overdue one is broke (R156), a page or batch as its broke rows (R160). -/
def State.pulDecode (s : State) (u : UnitCmd) (c : PulSet) (i : Nat) (r : SampleRef) : Decoded :=
  let d := s.pulEntry u c i r
  if c.wall && u.overdue.contains i then
    if pulOp u = 1 then .fail 0x0308 else brokeColumns c.holder (pulOutMax u) d.rows 0x0308
  else d

/-- A broke record (R159). -/
def brokeRecord (table : Nat) (r : SampleRef) (d : Decoded) : Bytes :=
  leBytes 6 r.ordinal ++ leBytes 2 table ++ leBytes 4 d.rows ++ leBytes 2 (d.broke.getD 0).toNat ++ zeros 2

/-- Broke records in list order. -/
def brokeRecords (table : Nat) : List (SampleRef × Decoded) → List Bytes
  | [] => []
  | (r, d) :: xs => if d.broke.isSome then brokeRecord table r d :: brokeRecords table xs else brokeRecords table xs

/-- The bytes a command writes to OUT; those between the directory's end and the next 64-byte boundary are zero (DESIGN CHOICE, log
entry 165). -/
def pulOutput (u : UnitCmd) (c : PulSet) (esize nbroke : Nat) (ds : List Decoded) : Bytes :=
  let data := 64 + roundUpTo (16 * pulCount u) 64
  let cap := pulRowElems u
  let packed := packAll c.holder (pulStarts u) cap esize data ds [] []
  let loose := unpackedAll data ds
  let body := if pulPack u then packed.1.flatMap (packRowOut (pulStarts u) cap esize) else loose.1
  let dir := if pulPack u then packed.2 else loose.2
  leBytes 2 (if nbroke = 0 then 0 else 0x0390) ++ zeros 2 ++ leBytes 4 nbroke ++
    leBytes 4 (if pulPack u then packed.1.length else 0) ++ zeros 4 ++ leBytes 8 body.length ++ zeros 40 ++
    dir ++ zeros (roundUpTo (16 * pulCount u) 64 - 16 * pulCount u) ++ body

/-- OUT and BROKE come to hold free bytes (Table 6.4, "undefined"). -/
def State.pulUndefined (s : State) (u : UnitCmd) : State :=
  let n := pulOutSize u
  ((s.memWrite (pulOut u) (freeBytes s.free n)).memWrite (pulBroke u)
    ((List.range (16 * pulCount u)).map (fun i => Config.freeByte s.free (n + i)))).drawn

/-- Samples a command takes in count toward the arrivals of its flow (R153). -/
def State.pulArrive (s : State) (u : UnitCmd) : State :=
  if pulOp u ≠ 1 then s
  else match (s.cmdItem u).bind (fun it => s.flow? it.key.flow) with
    | some (_, f) => s.setFlow { f with arrivals := f.arrivals + pulCount u }
    | none => s

def State.setPulper (s : State) (die : BitVec 2) (p : Pulper) : State :=
  { s with pulpers := s.pulpers.set die.toNat p }

/-- A command that passed its checks (R142, R159, R162). Its writes reach the memory side and leave the Vat's copies, which a core drops
with INVAL (R57, R308) before it reads what the ticket reports (R49, log entry 143). -/
def State.pulServe (s : State) (u : UnitCmd) : State :=
  let c := s.pulSet u
  let refs := s.pulRefs u
  let s' := s.pulArrive u
  if s.pulNoEngine u then (s'.pulUndefined u).unitEnd u 0x0387
  else if (s.pulDict u :: s.pulAreas u ++ s.pulSamples u).any (s.unitPoisoned u.core.vat) then
    (s'.pulUndefined u).unitEnd u 0x0386
  else
    let ds := (List.range (pulCount u)).map (fun i =>
      s.pulDecode u c i (refs[i]?.getD { addr := 0, ordinal := 0, len := 0, rsv := false }))
    let recs := brokeRecords (pulTable u) (refs.zip ds)
    let aborts := (ds.filter (fun d => d.broke = some 0x0307)).length
    let s' := (s'.bump 0x400010 recs.length).bump 0x400011 aborts
    if c.max ≠ 0 && c.max < recs.length then (s'.pulUndefined u).unitEnd u 0x0385
    else
      let out := pulOutput u c (pulEsize u (s.pulParams u)) recs.length ds
      let s' := ((s'.memWrite (pulOut u) out).memWrite (pulBroke u) recs.flatten).drawn
      s'.unitEnd u (if recs = [] then 0 else 0x0390)

/-- Run the next command of a die's Pulper when its OP is the one named. -/
def runPulper (op : Nat) (die : BitVec 2) (s : State) : Host.Outcome State Fault Refusal :=
  serveNext 6 die.toNat op (fun s u => match s.pulReject u with
    | some code => s.unitEnd u code
    | none => s.pulServe u) s

/-- SAMPLES (R138). -/
def execSamples (die : BitVec 2) (s : State) : Host.Outcome State Fault Refusal := runPulper 1 die s

/-- PAGE (R147). -/
def execPage (die : BitVec 2) (s : State) : Host.Outcome State Fault Refusal := runPulper 2 die s

/-- ARROW (R147). -/
def execArrow (die : BitVec 2) (s : State) : Host.Outcome State Fault Refusal := runPulper 3 die s

/-- DEADLINE_EXCEEDED (R156): an entry of the die's next command, under WALLTIME, has run DECODE_US ticks. -/
def execDeadlineExceeded (die : BitVec 2) (entry : Nat) (s : State) : Host.Outcome State Fault Refusal :=
  match s.nextUnit 6 die.toNat with
  | none => .next s
  | some u =>
    if (s.pulSet u).wall && entry < pulCount u && !u.overdue.contains entry then
      .next { s with units := s.units.map (fun v => if v = u then { u with overdue := u.overdue ++ [entry] } else v) }
    else .next s

/-- ENGINE_RETIRE (R137). -/
def execEngineRetire (die : BitVec 2) (kind : EngineKind) (s : State) : Host.Outcome State Fault Refusal :=
  let p := s.pulpers[die.toNat]
  let n := match kind with
    | .decompression => p.decompression
    | .jpeg => p.jpeg
    | .pointRecord => p.pointRecord
    | .page => p.page
  let p' := match kind with
    | .decompression => { p with decompression := n - 1 }
    | .jpeg => { p with jpeg := n - 1 }
    | .pointRecord => { p with pointRecord := n - 1 }
    | .page => { p with page := n - 1 }
  if n = 0 then .next s else .next ((s.setPulper die p').bump 0x400012 1)

end Sys2Proof.Machine
end

