-- ==== Sys2Proof/Machine/Slurry.lean ====
section
/-! DEFINITION. The Slurry exchange (R184 to R196) and the Bloom filter of a join (R179 to R181): sending rounds,
receiving DATA into slots and staging, credits, ends of rounds, resends and changed homes. -/

namespace Sys2Proof.Machine

open Sys2Proof

/-! ### Bloom filters (R180) -/

/-- Set a bit of a byte string. -/
def setBitAt (b : Bytes) (i : Nat) : Bytes :=
  b.set (i / 8) ((b[i / 8]?.getD 0) ||| BitVec.ofNat 8 (2 ^ (i % 8)))

/-- The filter of a set of key hashes. -/
def bloomOf (blocks k : Nat) (hs : List (BitVec 64)) : Bytes :=
  hs.foldl (fun b h =>
    let r := bloomBits blocks k h
    r.2.foldl (fun b n => setBitAt b (512 * r.1 + n)) b) (zeros (64 * blocks))

/-- Bitwise OR; bytes missing on the right are zero. -/
def orBytes : Bytes → Bytes → Bytes
  | a :: as, b :: bs => (a ||| b) :: orBytes as bs
  | as, _ => as

/-- Every round of every partition homed here of an exchange has been consumed. -/
def State.exchBuilt (s : State) (j : Job) (e : ExchRec) (x : Exch) : Bool :=
  (List.range e.parts).all (fun p => Assoc.get s.self x.homes p ≠ s.self || j.rounds e ≤ Assoc.get 0 x.base p)

/-- BLOOM_PUBLISH (R180): once every partition of the right side is built, the filter of what this module built and those of the
others become the published one, of which the job keeps a replica. -/
def execBloomPublish (jid : BitVec 64) (join : Nat) (others : Bytes) (s : State) : Host.Outcome State Fault Refusal :=
  match s.job? jid with
  | none => .next s
  | some j =>
    match j.joins[join]? with
    | none => .next s
    | some js =>
      match j.rightExch js with
      | none => .next s
      | some e =>
        match s.exch? jid e.exch.toNat with
        | none => .next s
        | some x =>
          if js.flags.getLsbD 2 && s.exchBuilt j e x then
            let mine := (j.hashes.filter (fun h => h.1 = join)).map (·.2)
            let f := orBytes (bloomOf js.bloomBlocks js.bloomK mine) others
            .next (s.setJob { j with filters := Assoc.set [] j.filters join f })
          else .next s

/-! ### Receiving -/

/-- Staging bytes beyond STAGE_BYTES, over all exchanges (R192). -/
def State.spilled (s : State) : Nat :=
  s.slurry.foldl (fun a x =>
    match (s.job? x.job).bind (fun j => j.exch? x.exch.toNat) with
    | none => a
    | some e =>
      let keys := (x.staged.map (fun t => (t.part, t.round))).eraseDups
      keys.foldl (fun a k =>
        let n := (x.staged.filter (fun t => t.part = k.1 && t.round = k.2)).foldl (fun a t => a + t.bytes.length) 0
        a + (n - e.stageBytes)) a) 0

/-- Staging is open for a round of a partition (R191). -/
def Exch.isOpen (x : Exch) (e : ExchRec) (p r : Nat) : Bool :=
  let b := Assoc.get 0 x.base p
  b ≤ r && r < b + e.roundsAhead

/-- Credits a source holds for a partition, as the receiver counts them; one is granted at the start (R190). -/
def Exch.creditOf (x : Exch) (src : BitVec 14) (p : Nat) : Nat :=
  match x.granted.find? (fun g => g.1 = src && g.2.1 = p) with
  | some g => g.2.2
  | none => 1

def Exch.setCredit (x : Exch) (src : BitVec 14) (p n : Nat) : Exch :=
  { x with granted := (src, p, n) :: x.granted.filter (fun g => !(g.1 = src && g.2.1 = p)) }

/-- Return a credit to a source by CREDIT (R190); a module's own rows use none. -/
def State.returnCredit (s : State) (j : Job) (e : ExchRec) (src : BitVec 14) (p : Nat) : State :=
  match s.exch? j.job e.exch.toNat with
  | none => s
  | some x =>
    if src = s.self then s
    else (s.setExch (x.setCredit src p (x.creditOf src p + 1))).sendSlurry j e 0x12 src p 0 1 []

/-- Rows received from a holder for a round since it last ended it. -/
def Exch.rowsFrom (x : Exch) (src : BitVec 14) (r : Nat) : Nat :=
  match x.got.find? (fun g => g.1 = src && g.2.1 = r) with
  | some g => g.2.2
  | none => 0

/-- The counts of every other holder and round. -/
def Exch.gotBut (x : Exch) (src : BitVec 14) (r : Nat) : List (BitVec 14 × Nat × Nat) :=
  x.got.filter (fun g => !(g.1 = src && g.2.1 = r))

/-- Rows of a round that their holder has ended for the partition already come twice and are not kept: the twin of a fenced holder
sends whole rounds to every home, one that the holder had ended included (R345; DEDUCED, log entry 136). -/
def Exch.hasRound (x : Exch) (t : RxRows) : Bool :=
  x.ended.any (fun g => g.1 = t.src && g.2.1 = t.round) && !x.awaits.contains (t.part, t.src, t.round)

/-- Rows into open staging, the slot freed and its credit returned; otherwise they stay in the slot (R191, R192). -/
def State.takeRows (s : State) (j : Job) (e : ExchRec) (t : RxRows) : State :=
  match s.exch? j.job e.exch.toNat with
  | none => s
  | some x =>
    let twice := x.hasRound t
    let x := { x with rowsIn := if twice then x.rowsIn else Assoc.set 0 x.rowsIn t.part (Assoc.get 0 x.rowsIn t.part + t.rows),
                      got := (t.src, t.round, x.rowsFrom t.src t.round + t.rows) :: x.gotBut t.src t.round }
    if twice then (s.setExch x).returnCredit j e t.src t.part
    else if x.isOpen e t.part t.round then
      let s := (s.setExch { x with staged := x.staged ++ [t] }).returnCredit j e t.src t.part
      if Config.spillBytes < s.spilled then s.stopJob j.job 0x0412 else s
    else s.setExch { x with slots := x.slots ++ [t] }

/-- Note the end of a round (R193): a count that differs stops the job. -/
def State.takeEnd (s : State) (j : Job) (e : ExchRec) (src : BitVec 14) (r rows : Nat) : State :=
  match s.exch? j.job e.exch.toNat with
  | none => s
  | some x =>
    if x.rowsFrom src r ≠ rows then s.stopJob j.job 0x0413
    else s.setExch { x with got := x.gotBut src r,
                            ended := (src, r, rows) :: x.ended.filter (fun g => !(g.1 = src && g.2.1 = r)),
                            awaits := x.awaits.filter (fun a => a.2 ≠ (src, r)) }

/-- Round r of partition p is complete (R193): every holder has ended it, and has ended it again for a partition that came here since. -/
def State.roundComplete (s : State) (j : Job) (e : ExchRec) (x : Exch) (p r : Nat) : Bool :=
  (s.holders j e r).all (fun h => x.ended.any (fun g => g.1 = h && g.2.1 = r) && !x.awaits.contains (p, h, r))

/-- Ask a holder for a resend, at most three times; then the job stops (R195). -/
def State.askResend (s : State) (j : Job) (e : ExchRec) (src : BitVec 14) : State :=
  match s.exch? j.job e.exch.toNat with
  | none => s
  | some x =>
    let n := Assoc.get 0 x.asks src.toNat
    if 3 ≤ n then s.stopJob j.job 0x0414
    else
      (s.setExch { x with asks := Assoc.set 0 x.asks src.toNat (n + 1) }).emit
        (.resend src j.job (e.exch.setWidth 4))

/-- The key of a receive stream: sender and generation. -/
def streamKey (m : Msg) : Nat := m.from.toNat * 2 ^ 32 + m.gen.toNat

/-- What a receiver finds in a Slurry message, in the order of R189, R196 and R195. -/
inductive SlurryCheck where
  /-- Not for this module, or for an exchange it does not run: refused (FAB_PROTOCOL_ERRORS). -/
  | refuse
  | stale
  | duplicate
  | protocol (j : Job)
  | resend (j : Job) (e : ExchRec)
  | good (j : Job) (e : ExchRec)
deriving DecidableEq, Repr

/-- Reserved fields and fixed fields of a Slurry message (Table 7.6), the CRC apart. -/
def slurryFields (t : BitVec 8) (m : Msg) : Bool :=
  m.version = 1 && m.cls.toNat < 4 && m.src.toNat < 2 ^ 14 && m.dst.toNat < 2 ^ 14 && m.rsv = 0 &&
    m.length.toNat = m.payload.length && (t = 0x10 || m.length = 0) && (t ≠ 0x11 || m.part = 0) &&
    (!(t = 0x12 || t = 0x13) || m.round = 0) && (t ≠ 0x14 || m.value = 0)

def State.checkSlurry (s : State) (t : BitVec 8) (m : Msg) : SlurryCheck :=
  if m.to ≠ s.self then .refuse
  else if m.gen.toNat < (s.genOf m.from).toNat then .stale
  else match s.job? m.job with
    | none => .refuse
    | some j =>
      match j.exch? m.exch.toNat, s.exch? m.job m.exch.toNat with
      | some e, some x =>
        let last := Assoc.get 0 x.rxSeq (streamKey m)
        if !slurryFields t m then .protocol j
        else if m.crc ≠ m.check t then .resend j e
        else if m.seq.toNat ≤ last then .duplicate
        else if last + 1 < m.seq.toNat then .resend j e
        else .good j e
      | _, _ => .refuse

/-- Accept the SEQ of a message and count it. -/
def State.acceptSeq (s : State) (j : Job) (e : ExchRec) (m : Msg) : State :=
  match s.exch? j.job e.exch.toNat with
  | none => s
  | some x =>
    (s.setExch { x with rxSeq := Assoc.set 0 x.rxSeq (streamKey m) m.seq.toNat,
                        asks := Assoc.set 0 x.asks m.from.toNat 0 }).bump 0x441003 1

/-- Receive a Slurry message: `f` is what a good one does. -/
def State.takeSlurry (s : State) (t : BitVec 8) (m : Msg) (f : Job → ExchRec → State → State) : State :=
  if !s.up then s
  else s.arrives t m (fun s => match s.checkSlurry t m with
    | .refuse => s.protocolError
    | .stale => (s.refuseStale m).bump 0x441004 1
    | .duplicate => s
    | .protocol j => s.stopJob j.job 0x0414
    | .resend j e => s.askResend j e m.from
    | .good j e => f j e s)

/-- A DATA message with whole rows of a partition homed here (R188, R191). -/
def State.takeData (s : State) (m : Msg) (j : Job) (e : ExchRec) : State :=
  match s.exch? j.job e.exch.toNat with
  | none => s
  | some x =>
    let p := m.part.toNat
    let n := m.value.toNat
    if n * e.rowBytes ≠ m.payload.length || 8128 / e.rowBytes < n then s.stopJob j.job 0x0414
    else if e.flags.getLsbD 1 = false && Assoc.get s.self x.homes p ≠ s.self then s.protocolError
    else if x.creditOf m.from p = 0 then s.askResend j e m.from
    else
      let s := s.acceptSeq j e m
      match s.exch? j.job e.exch.toNat with
      | none => s
      | some x =>
        let s := s.setExch (x.setCredit m.from p (x.creditOf m.from p - 1))
        s.takeRows j e { src := m.from, part := p, round := m.round.toNat, rows := n, bytes := m.payload }

/-- DATA (R191). -/
def execData (m : Msg) (s : State) : Host.Outcome State Fault Refusal :=
  .next (s.takeSlurry 0x10 m (fun j e s => s.takeData m j e))

/-- SLURRY_STAGE_COPY (R191): the first held message of a partition whose round is open. -/
def execSlurryStageCopy (jid : BitVec 64) (exch : BitVec 4) (part : BitVec 32) (s : State) :
    Host.Outcome State Fault Refusal :=
  match s.job? jid with
  | none => .next s
  | some j =>
    match j.exch? exch.toNat, s.exch? jid exch.toNat with
    | some e, some x =>
      match x.slots.find? (fun t => t.part = part.toNat && x.isOpen e t.part t.round) with
      | none => .next s
      | some t =>
        let s := (s.setExch { x with slots := x.slots.erase t, staged := x.staged ++ [t] }).returnCredit j e t.src t.part
        .next (if Config.spillBytes < s.spilled then s.stopJob jid 0x0412 else s)
    | _, _ => .next s

/-- ROUND_END (R193). -/
def execRoundEnd (m : Msg) (s : State) : Host.Outcome State Fault Refusal :=
  .next (s.takeSlurry 0x11 m (fun j e s => (s.acceptSeq j e m).takeEnd j e m.from m.round.toNat m.value.toNat))

/-- The key of a source's credits for a partition at a module (R190). -/
def creditKey (m : BitVec 14) (p : Nat) : Nat := p + 2 ^ 32 * m.toNat

/-- More credits for a partition at the source. -/
def State.takeCredit (s : State) (m : Msg) (j : Job) (e : ExchRec) : State :=
  let s := s.acceptSeq j e m
  match s.exch? j.job e.exch.toNat with
  | none => s
  | some x =>
    let k := creditKey m.from m.part.toNat
    s.setExch { x with credits := Assoc.set 1 x.credits k (Assoc.get 1 x.credits k + m.value.toNat),
                       creditAsked := x.creditAsked.filter (· ≠ k) }

/-- CREDIT (R190). -/
def execCredit (m : Msg) (s : State) : Host.Outcome State Fault Refusal :=
  .next (s.takeSlurry 0x12 m (fun j e s => s.takeCredit m j e))

/-- Grant what is asked from the partition's pool: CREDIT_MAX messages per source beside the reserved one (R190). -/
def State.grantCredit (s : State) (m : Msg) (j : Job) (e : ExchRec) : State :=
  let s := s.acceptSeq j e m
  match s.exch? j.job e.exch.toNat with
  | none => s
  | some x =>
    let p := m.part.toNat
    let held := (x.slots.filter (fun t => t.src = m.from && t.part = p)).length
    let out := x.creditOf m.from p
    let room := 1 + e.creditMax - (out + held)
    let n := if m.value.toNat < room then m.value.toNat else room
    if n = 0 then s else (s.setExch (x.setCredit m.from p (out + n))).sendSlurry j e 0x12 m.from p 0 n []

/-- CREDIT_REQ (R190). -/
def execCreditReq (m : Msg) (s : State) : Host.Outcome State Fault Refusal :=
  .next (s.takeSlurry 0x13 m (fun j e s => s.grantCredit m j e))

/-- ROUND_DONE frees the rows retained for the receiver's partition and round (R196). -/
def State.takeDone (s : State) (m : Msg) (j : Job) (e : ExchRec) : State :=
  let s := s.acceptSeq j e m
  match s.exch? j.job e.exch.toNat with
  | none => s
  | some x => (s.setExch (x.noteDone m.from m.part.toNat m.round.toNat)).sweep j.job

/-- ROUND_DONE (R196). -/
def execRoundDone (m : Msg) (s : State) : Host.Outcome State Fault Refusal :=
  .next (s.takeSlurry 0x14 m (fun j e s => s.takeDone m j e))

/-! ### Sending (R186 to R188) -/

/-- The module has accepted every item of the round that is its own to run. -/
def State.roundReady (s : State) (j : Job) (e : ExchRec) (r : Nat) : Bool :=
  (j.senders e).all (fun f => (j.roundItems e f.decl r).all (fun q =>
    !s.assigned j f.decl q s.self || s.acceptedSeq f q))

/-- Modules a holder ends its rounds to: homes of the partitions, or all of the job's under BROADCAST. -/
def Exch.dests (x : Exch) (j : Job) (e : ExchRec) (self : BitVec 14) : List (BitVec 14) :=
  if e.flags.getLsbD 1 then j.modules
  else ((List.range e.parts).map (fun p => Assoc.get self x.homes p)).eraseDups

/-- Rows that one message carries at most. -/
def ExchRec.msgRows (e : ExchRec) : Nat := 8128 / e.rowBytes

/-- The key of the rows sent to a module of a round. -/
def txKey (dst : BitVec 14) (r : Nat) : Nat := dst.toNat + 16384 * r

/-- Send rows of one partition and round to a module: a DATA message that uses a credit, or into the module's own
staging. -/
def State.sendRowsTo (s : State) (j : Job) (e : ExchRec) (dst : BitVec 14) (p r : Nat) (rows : List TxRow) : State :=
  match s.exch? j.job e.exch.toNat with
  | none => s
  | some x =>
    let bytes := rows.flatMap (·.bytes)
    let sent := Assoc.get 0 x.txRows (txKey dst r) + rows.length
    let seq := if dst = s.self then 0 else x.nextSeq dst
    let x := { x with pool := rows.foldl (fun l t => l.erase t) x.pool,
                      retained := x.retained ++ rows.map (fun t => (dst, { t with seq := seq })),
                      txRows := Assoc.set 0 x.txRows (txKey dst r) sent }
    if dst = s.self then
      (s.setExch x).takeRows j e { src := dst, part := p, round := r, rows := rows.length, bytes := bytes }
    else
      let k := creditKey dst p
      (s.setExch { x with credits := Assoc.set 1 x.credits k (Assoc.get 1 x.credits k - 1) }).sendSlurry j e 0x10 dst p r rows.length bytes

/-- End a round to a module. -/
def State.endRoundTo (s : State) (j : Job) (e : ExchRec) (dst : BitVec 14) (r : Nat) : State :=
  match s.exch? j.job e.exch.toNat with
  | none => s
  | some x =>
    let n := Assoc.get 0 x.txRows (txKey dst r)
    let next := Assoc.get 0 x.txRound dst.toNat
    let s := s.setExch { x with txRound := Assoc.set 0 x.txRound dst.toNat (if next < r + 1 then r + 1 else next),
                                txRows := Assoc.erase x.txRows (txKey dst r),
                                redo := x.redo.filter (fun d => !(d.1 = dst && d.2.2 = r)) }
    if dst = s.self then s.takeEnd j e dst r n else s.sendSlurry j e 0x11 dst 0 r n []

/-- Ask for more credits for a partition, once until some come. -/
def State.askCredit (s : State) (j : Job) (e : ExchRec) (dst : BitVec 14) (p : Nat) : State :=
  match s.exch? j.job e.exch.toNat with
  | none => s
  | some x =>
    let s := s.bump 0x441005 1
    let k := creditKey dst p
    if e.creditMax = 0 || x.creditAsked.contains k then s
    else (s.setExch { x with creditAsked := x.creditAsked ++ [k] }).sendSlurry j e 0x13 dst p 0 e.creditMax []

/-- The right side of a BROADCAST exchange is too large (R183). -/
def State.broadcastBig (s : State) (j : Job) (e : ExchRec) : Bool :=
  e.flags.getLsbD 1 && (match j.input? e.table.toNat with
    | some i => s.furn 0x440002 16000000000 < i.rows * e.rowBytes
    | none => false)

/-- The round the engine sends to a module: the lowest one owed again, else the next it has not ended to it. -/
def Exch.sendRound (x : Exch) (dst : BitVec 14) : Nat :=
  match lowest ((x.redo.filter (·.1 = dst)).map (·.2.2)) with
  | some r => r
  | none => Assoc.get 0 x.txRound dst.toNat

/-- The next message the engine owes a module: of the round it sends, a full DATA message; once the round's items are
accepted what is left, and then the end of the round. -/
def State.slurryNext (s : State) (j : Job) (e : ExchRec) (x : Exch) (dst : BitVec 14) : State :=
  let r := x.sendRound dst
  if j.rounds e ≤ r then s
  else if x.redo.all (fun d => !(d.1 = dst && d.2.2 = r)) && !(s.holders j e r).contains s.self then s.setExch { x with txRound := Assoc.set 0 x.txRound dst.toNat (r + 1) }
  else
    let mine := x.pool.filter (fun t => t.to x s.self = dst && t.round = r)
    let parts := (mine.map (·.part)).eraseDups
    let of := fun p => mine.filter (fun t => t.part = p)
    let ready := s.roundReady j e r
    let can := parts.filter (fun p => ready || e.msgRows ≤ (of p).length)
    let paid := can.filter (fun p => dst = s.self || Assoc.get 1 x.credits (creditKey dst p) ≠ 0)
    match paid, can with
    | p :: _, _ => s.sendRowsTo j e dst p r ((of p).take e.msgRows)
    | [], p :: _ => s.askCredit j e dst p
    | [], [] => if ready && mine.isEmpty then s.endRoundTo j e dst r else s

/-- SLURRY_SEND (R187, R188): one message. -/
def execSlurrySend (jid : BitVec 64) (exch : BitVec 4) (dst : BitVec 14) (s : State) :
    Host.Outcome State Fault Refusal :=
  match s.job? jid with
  | none => .next s
  | some j =>
    match j.exch? exch.toNat, s.exch? jid exch.toNat with
    | some e, some x =>
      if j.stopped.isSome || !(x.dests j e s.self).contains dst then .next s
      else if s.broadcastBig j e then .next (s.stopJob jid 0x0404)
      else .next (s.slurryNext j e x dst)
    | _, _ => .next s

/-! ### Resends and changed homes (R195, R196, R345) -/

/-- Send one DATA message with retained rows again (SLURRY_RESENDS counts it), under the SEQ it was sent with, since the receiver
takes SEQs in order (R194, R195); rows that no message of this generation has carried take the next SEQ. -/
def State.resendMessage (s : State) (j : Job) (e : ExchRec) (dst : BitVec 14) (seq p r : Nat) (rs : List TxRow) : State :=
  let bytes := rs.flatMap (·.bytes)
  if seq ≠ 0 then (s.sendSeq j e 0x10 dst seq p r rs.length bytes).bump 0x441006 1
  else match s.exch? j.job e.exch.toNat with
    | none => s
    | some x =>
      let n := x.nextSeq dst
      let kept := x.retained.map (fun y => if y.1 = dst && rs.contains y.2 then (y.1, { y.2 with seq := n }) else y)
      ((s.setExch { x with retained := kept }).sendSlurry j e 0x10 dst p r rs.length bytes).bump 0x441006 1

/-- Send retained rows again in DATA messages, those of one message together. -/
def State.resendRows (s : State) (j : Job) (e : ExchRec) (dst : BitVec 14) (rows : List TxRow) : State :=
  let keys := (rows.map (fun t => (t.seq, t.part, t.round))).eraseDups
  keys.foldl (fun s k =>
    let mine := rows.filter (fun t => t.seq = k.1 && t.part = k.2.1 && t.round = k.2.2)
    (chunksOf (e.msgRows - 1) mine.length mine).foldl (fun s rs => s.resendMessage j e dst k.1 k.2.1 k.2.2 rs) s) s

/-- SLURRY_RESEND_REQUEST (R195): the named data goes again from what is retained. -/
def execSlurryResendRequest (jid : BitVec 64) (exch : BitVec 4) (dst : BitVec 14) (part round : BitVec 32) (s : State) :
    Host.Outcome State Fault Refusal :=
  match s.job? jid with
  | none => .next s
  | some j =>
    match j.exch? exch.toNat, s.exch? jid exch.toNat with
    | some e, some x =>
      let rows := (x.retained.filter (fun t => t.1 = dst && t.2.part = part.toNat && t.2.round = round.toNat)).map (·.2)
      .next (s.resendRows j e dst rows)
    | _, _ => .next s

/-- The stream to a module starts again: the rows retained for it have no SEQ of it yet. -/
def Exch.unnumbered (x : Exch) (dst : BitVec 14) : Exch :=
  { x with retained := x.retained.map (fun t => if t.1 = dst then (t.1, { t.2 with seq := 0 }) else t) }

/-- A partition's retained rows from round `lo` on go back to the pool for a new home, SEQ from 1 again (R196); rounds
already ended to that module, and not known as consumed, are owed it again. -/
def State.resendPartition (s : State) (j : Job) (e : ExchRec) (p lo : Nat) (dst : BitVec 14) : State :=
  match s.exch? j.job e.exch.toNat with
  | none => s
  | some x =>
    let mine : BitVec 14 × TxRow → Bool := fun t => t.2.part = p && lo ≤ t.2.round
    let sent := Assoc.get 0 x.txRound dst.toNat
    let again := ((List.range (sent - lo)).map (lo + ·)).filter (fun r =>
      (s.holders j e r).contains s.self && !x.doneOf.contains (p, r))
    let n := ((x.retained.filter mine).map (·.2.round)).eraseDups.length
    let x' : Exch := { x with
      pool := x.pool ++ (x.retained.filter mine).map (·.2), retained := x.retained.filter (fun t => !mine t),
      redo := (x.redo ++ again.map (fun r => (dst, some p, r))).eraseDups, txSeq := Assoc.set 0 x.txSeq dst.toNat 0 }
    (s.bump 0x441006 n).setExch (x'.unnumbered dst)

/-- Rounds of a partition from one on are to be consumed again. -/
def Exch.undone (x : Exch) (p lo : Nat) : Exch := { x with doneOf := x.doneOf.filter (fun d => !(d.1 = p && lo ≤ d.2)) }

/-- A source starts with the reserved credit of R190 for a partition at a home. -/
def Exch.freshCredit (x : Exch) (home : BitVec 14) (p : Nat) : Exch :=
  let k := creditKey home p
  { x with credits := Assoc.erase x.credits k, creditAsked := x.creditAsked.filter (· ≠ k) }

/-- Partition p has a new home: as a source, this module starts there with the reserved credit; what stands here of the partition
goes, and is no longer counted. -/
def Exch.rehome (x : Exch) (self home : BitVec 14) (p : Nat) : Exch :=
  let here : RxRows → Bool := fun t => t.part = p
  { x.freshCredit home p with
    homes := Assoc.set self x.homes p home, granted := x.granted.filter (fun g => g.2.1 ≠ p),
    slots := x.slots.filter (fun t => !here t), staged := x.staged.filter (fun t => !here t), rowsIn := Assoc.erase x.rowsIn p }

/-- A partition newly homed here waits again for every round that has been ended here before, from a round on (R193). -/
def Exch.awaitAgain (x : Exch) (p lo : Nat) : Exch :=
  let mine := x.awaits.filter (fun a => a.1 ≠ p)
  let again := (x.ended.filter (fun g => lo ≤ g.2.1)).map (fun g => (p, g.1, g.2.1))
  { x with awaits := mine ++ again, rxSeq := [] }

/-- Take items back to be created again. -/
def FlowRun.uncreate (f : FlowRun) (qs : List Nat) : FlowRun :=
  let qs := qs.filter f.created
  match lowest qs with
  | none => f
  | some q =>
    if q < f.next then
      let above := (List.range (f.next - q)).map (q + ·) ++ f.ahead
      { f with next := q, ahead := above.filter (fun k => !qs.contains k) }
    else { f with ahead := f.ahead.filter (fun k => !qs.contains k) }

/-- An item is on a core: its records stay until its DONE (R117). -/
def State.runsNow (s : State) (key : ItemKey) : Bool :=
  match s.item? key with
  | some it => it.onCore
  | none => false

/-- Create items of a flow again: what stands of them is removed first. One that is on a core runs already. -/
def State.recreate (s : State) (flow : BitVec 20) (qs : List Nat) : State :=
  let qs := qs.filter (fun q => !s.runsNow (keyOf flow q))
  let s := qs.foldl (fun s q => s.removeItem (keyOf flow q)) s
  match s.flow? flow with
  | none => s
  | some (_, f) => s.setFlow { f.uncreate qs with staged := f.staged.filter (fun x => !qs.contains x.1) }

/-- Create again the items that hold a round's ordinals (R345). -/
def State.recreateRound (s : State) (j : Job) (e : ExchRec) (r : Nat) : State :=
  (j.senders e).foldl (fun s f =>
    s.recreate f.decl.flow ((j.roundItems e f.decl r).filter (fun q => s.assigned j f.decl q s.self))) s

/-- What a holder does for a partition's home that starts from a round (R196, R345): it sends what it retains from that round on, and
creates again the items of those rounds it no longer retains. -/
def State.holderResends (s : State) (j : Job) (e : ExchRec) (p lo : Nat) (home : BitVec 14) : State :=
  match s.exch? j.job e.exch.toNat with
  | none => s
  | some x =>
    let gone := ((List.range (j.rounds e - lo)).map (lo + ·)).filter (fun r =>
      (s.holders j e r).contains s.self && x.doneOf.contains (p, r))
    let s := (s.setExch ((x.undone p lo).freshCredit home p)).resendPartition j e p lo home
    gone.foldl (fun s r => s.recreateRound j e r) s

/-- HOLDER_STATE at a holder (R345): for each exchange of the job whose partition the sender homes, retained rounds from
the named one on are sent again, and rounds ended but no longer retained have their items created again. -/
def State.takeHolderState (s : State) (m : Msg) : State :=
  match s.job? m.job with
  | none => s
  | some j =>
    let p := m.part.toNat
    let lo := m.value.toNat
    j.exchanges.foldl (fun s e =>
      match s.exch? j.job e.exch.toNat with
      | none => s
      | some x =>
        if p < e.parts && Assoc.get s.self x.homes p = m.from && m.from ≠ s.self then s.holderResends j e p lo m.from
        else s) s

/-- HOLDER_STATE (R345). -/
def execHolderState (m : Msg) (s : State) : Host.Outcome State Fault Refusal :=
  .next (s.takeMsg 0x43 m (fun s => s.takeHolderState m))

/-- New homes of partitions: the map changes, and retained rounds go to the new home (R196), which waits for them. -/
def State.remapPart (s : State) (jid : BitVec 64) (u : BitVec 4 × BitVec 32 × BitVec 14) : State :=
  match s.job? jid with
  | none => s
  | some j =>
    match j.exch? u.1.toNat, s.exch? jid u.1.toNat with
    | some e, some x =>
      let p := u.2.1.toNat
      if Assoc.get s.self x.homes p = u.2.2 || e.npart ≤ p then s
      else
        let x := x.rehome s.self u.2.2 p
        let x := if u.2.2 = s.self then x.awaitAgain p 0 else x
        (s.setExch x).resendPartition j e p 0 u.2.2
    | _, _ => s

/-- New homes of flows: this module runs a flow only while it is the flow's home. -/
def State.remapFlow (s : State) (u : BitVec 20 × BitVec 14) : State :=
  match s.flow? u.1 with
  | none => s
  | some (_, f) => s.setFlow { f with stopped := u.2 ≠ s.self }

end Sys2Proof.Machine
end

