-- ==== Sys2Proof/Machine/Plaud.lean ====
section
/-! DEFINITION. The Plaud image (R271 to R276, R287, R288): its sections and records, the checks of R272 in their
order, and loading a job. -/

namespace Sys2Proof.Machine

open Sys2Proof

/-! ### Header and sections (Tables 11.1, 11.2) -/

def plaudBytes (b : Bytes) : Nat := fieldAt b 0x1C 4
def secOff (b : Bytes) (n : Nat) : Nat := fieldAt b (0x40 + 8 * n) 4
def secCount (b : Bytes) (n : Nat) : Nat := fieldAt b (0x44 + 8 * n) 4
/-- Entry i of a section of entries of a size. -/
def secEntry (b : Bytes) (n size i : Nat) : Bytes := (b.drop (secOff b n + size * i)).take size
def secEntries (b : Bytes) (n size : Nat) : List Bytes := (List.range (secCount b n)).map (secEntry b n size)

/-- Bytes of the layout records from an offset on: each record padded to whole 64 bytes. -/
def layoutSpan (b : Bytes) : Nat → Nat → Nat
  | 0, _ => 0
  | n + 1, off =>
    let size := roundUpTo (0x10 + 8 * fieldAt b (off + 2) 2) 64
    size + layoutSpan b n (off + size)

/-- Offsets of the layout records. -/
def layoutOffs (b : Bytes) : Nat → Nat → List Nat
  | 0, _ => []
  | n + 1, off => off :: layoutOffs b n (off + roundUpTo (0x10 + 8 * fieldAt b (off + 2) 2) 64)

/-- Bytes a section takes. -/
def secBytes (b : Bytes) (n : Nat) : Nat :=
  let c := secCount b n
  match n with
  | 0 => c
  | 2 => 32 * c
  | 8 => layoutSpan b c (secOff b 8)
  | 9 => c
  | 10 => 32 * c
  | _ => 64 * c

def plaudFormatBad (b : Bytes) : Bool :=
  b.length < 256 || fieldAt b 0 4 ≠ 0x31505644 || fieldAt b 4 2 ≠ 1 || plaudBytes b % 64 ≠ 0 || plaudBytes b < 256 ||
    0xFFFFFFC0 < plaudBytes b || plaudBytes b ≠ b.length

/-- The sections that hold something, as (offset, bytes). -/
def plaudSpans (b : Bytes) : List (Nat × Nat) :=
  ((List.range 11).filter (fun n => secCount b n ≠ 0)).map (fun n => (secOff b n, secBytes b n))

def plaudFieldBad (b : Bytes) : Bool :=
  2 ≤ fieldAt b 6 2 || !allZero ((b.drop 0x24).take 28) || !allZero ((b.drop 0xC0).take 64) ||
    (plaudSpans b).any (fun p => p.1 % 64 ≠ 0) || secCount b 0 % 16 ≠ 0 ||
    (List.range 5).any (fun n => secOff b (n + 11) ≠ 0 || secCount b (n + 11) ≠ 0) ||
    (plaudSpans b).any (fun p => p.1 < 256 || plaudBytes b < p.1 + p.2) || overlapAny (plaudSpans b)

def plaudCrcBad (b : Bytes) : Bool := fieldAt b 0x20 4 ≠ (crc32c 0 (putAt b 0x20 (zeros 4))).toNat

def plaudJob (b : Bytes) : BitVec 64 := BitVec.ofNat 64 (fieldAt b 8 8)

/-! ### Allocations (Table 11.3, R273) -/

structure AllocEntry where
  localId : Nat
  tier    : Nat
  flags   : Nat
  bytes   : Nat
  initOff : Nat
  initLen : Nat
  rsv     : Bool
deriving DecidableEq, Repr

def allocEntryOf (e : Bytes) : AllocEntry :=
  { localId := fieldAt e 0 2, tier := fieldAt e 2 1, flags := fieldAt e 3 1, bytes := fieldAt e 8 8,
    initOff := fieldAt e 0x10 4, initLen := fieldAt e 0x14 4, rsv := fieldAt e 4 4 ≠ 0 || fieldAt e 0x18 8 ≠ 0 }

def plaudAllocs (b : Bytes) : List AllocEntry := (secEntries b 2 32).map allocEntryOf

def AllocEntry.bad (b : Bytes) (a : AllocEntry) : Bool :=
  a.localId = 0 || 0xFFF < a.localId || !(a.tier = 1 || a.tier = 2) || 4 ≤ a.flags || a.rsv || a.bytes = 0 ||
    a.bytes % 64 ≠ 0 ||
    (if a.flags / 2 = 1 then a.initOff % 64 ≠ 0 || plaudBytes b < a.initOff + a.initLen || a.bytes < a.initLen
     else a.initOff ≠ 0 || a.initLen ≠ 0)

/-- The records of the allocation entries, with what LOCAL_ID each stands for. -/
def State.makeAllocs (s : State) (b : Bytes) (job : BitVec 64) :
    List AllocEntry → List (Nat × BitVec 16 × Nat) → Option (State × List (Nat × BitVec 16 × Nat))
  | [], acc => some (s, acc)
  | a :: as, acc =>
    match s.newAlloc job (a.tier = 2) (a.flags % 2 = 0) a.bytes with
    | none => none
    | some (num, base, s) =>
      let s := (s.clearRange base a.bytes).memWrite base ((b.drop a.initOff).take a.initLen)
      State.makeAllocs s b job as (acc ++ [(a.localId, num, base)])

/-! ### Descriptors (R120, R273) -/

/-- A descriptor of the image with its record number and address in place of LOCAL_ID and offset; `descs` is where the
DESCS section lies in memory, from which IDXREF counts (DESIGN CHOICE, log entry 41). -/
def relocate (map : List (Nat × BitVec 16 × Nat)) (descs : Nat) (d : BitVec 512) : BitVec 512 :=
  let b := lineToBytes d
  let r := map.find? (fun m => m.1 = fieldAt b 0x3A 2)
  let num := match r with | some m => m.2.1.toNat | none => 0
  let base := match r with | some m => m.2.2 | none => 0
  let b := putAt (putAt b 0x3A (leBytes 2 num)) 0 (leBytes 7 (fieldAt b 0 7 + base))
  let b := if (descOf d).gather then putAt b 0x30 (leBytes 8 (fieldAt b 0x30 8 + descs)) else b
  bytesToLine (putAt b 0x3C (zeros 4))

def plaudDescs (b : Bytes) : List (BitVec 512) := (secEntries b 3 64).map bytesToLine

/-- The index descriptor a gathered one names, relocated and marked; zero when IDXREF names none. -/
def State.plaudIndex (s : State) (map : List (Nat × BitVec 16 × Nat)) (descs : Nat) (ds : List (BitVec 512))
    (d : BitVec 512) (job : BitVec 64) : BitVec 512 :=
  match ds[(descOf d).idxref / 64]? with
  | some i => s.marked (relocate map descs i) job
  | none => 0

/-- The first code of R120 over the descriptor table. -/
def State.plaudDescCode (s : State) (map : List (Nat × BitVec 16 × Nat)) (descs : Nat) (ds : List (BitVec 512))
    (job : BitVec 64) : Option (BitVec 16) :=
  ds.findSome? (fun d => s.descCheck (relocate map descs d) job (s.plaudIndex map descs ds d job))

/-! ### Inputs and files (Table 11.4) -/

structure FileEntry where
  nsid  : BitVec 32
  lba   : BitVec 64
  bytes : Nat
  rsv   : Bool
deriving DecidableEq, Repr

def fileOf (e : Bytes) : FileEntry :=
  { nsid := BitVec.ofNat 32 (fieldAt e 0 4), lba := BitVec.ofNat 64 (fieldAt e 8 8), bytes := fieldAt e 0x10 8,
    rsv := fieldAt e 4 4 ≠ 0 || fieldAt e 0x18 8 ≠ 0 }

def plaudFiles (b : Bytes) : List FileEntry := (secEntries b 10 32).map fileOf

structure InputEntry where
  rec'  : InputRec
  files : Nat
  file0 : Nat
  rsv   : Bool
deriving DecidableEq, Repr

def inputOf (e : Bytes) : InputEntry :=
  { rec' := { table := BitVec.ofNat 16 (fieldAt e 0 2), format := BitVec.ofNat 8 (fieldAt e 2 1), rows := fieldAt e 0x10 8,
              cols := BitVec.ofNat 64 (fieldAt e 0x18 8), chunks := [] },
    files := fieldAt e 4 4, file0 := fieldAt e 8 4,
    rsv := fieldAt e 3 1 ≠ 0 || fieldAt e 0xC 4 ≠ 0 || !allZero (e.drop 0x20) }

def plaudInputs (b : Bytes) : List InputEntry := (secEntries b 4 64).map inputOf

def InputEntry.bad (nfiles : Nat) (i : InputEntry) : Bool :=
  i.rsv || !(i.rec'.format = 1 || i.rec'.format = 2) || i.files = 0 || 1048576 < i.files || nfiles < i.file0 + i.files ||
    i.rec'.cols = 0

def plaudInputsBad (b : Bytes) : Bool :=
  let fs := plaudFiles b
  let is := plaudInputs b
  fs.any (·.rsv) || is.any (·.bad fs.length) || repeats (is.map (fun i => i.rec'.table.toNat))

/-! ### Joins and exchanges (R168, R169, R184) -/

def joinKeyAt (e : Bytes) (k : Nat) : JoinKey × Bool :=
  let o := 8 + 8 * k
  ({ ktype := BitVec.ofNat 8 (fieldAt e o 1), klen := BitVec.ofNat 8 (fieldAt e (o + 1) 1),
     loff := BitVec.ofNat 16 (fieldAt e (o + 2) 2), roff := BitVec.ofNat 16 (fieldAt e (o + 4) 2),
     nullbit := BitVec.ofNat 8 (fieldAt e (o + 6) 1) }, fieldAt e (o + 7) 1 ≠ 0)

def joinOf (e : Bytes) : JoinRec :=
  let n := fieldAt e 2 1
  { kind := BitVec.ofNat 8 (fieldAt e 0 1), mode := BitVec.ofNat 8 (fieldAt e 1 1), nkeys := BitVec.ofNat 8 n,
    flags := BitVec.ofNat 8 (fieldAt e 3 1), left := BitVec.ofNat 16 (fieldAt e 4 2),
    right := BitVec.ofNat 16 (fieldAt e 6 2),
    keys := (List.range (if n ≤ 4 then n else 4)).map (fun k => (joinKeyAt e k).1),
    seed := BitVec.ofNat 64 (fieldAt e 0x28 8), bloomBlocks := fieldAt e 0x30 4, bloomK := fieldAt e 0x34 1,
    bucketLog2 := fieldAt e 0x35 1, rowBytes := fieldAt e 0x36 2 }

def plaudJoins (b : Bytes) : List JoinRec := (secEntries b 5 64).map joinOf

def JoinKey.bad (k : JoinKey) : Bool :=
  let t := k.ktype.toNat
  let n := k.klen.toNat
  !(t < 8 || t = 0xC || t = 0xD || t = 0x10) || (if t = 0x10 then n = 0 || 64 < n else n ≠ etypeBytes t) ||
    !(k.nullbit.toNat < 8 || k.nullbit = 0xFF)

/-- A row size of Tables 7.1 and 7.5. -/
def rowSizeBad (n : Nat) : Bool := n < 16 || 4096 < n || n % 8 ≠ 0

/-- A join record against Tables 7.1 and 7.2. -/
def joinTableBad (e : Bytes) : Bool :=
  let j := joinOf e
  let k := j.kind.toNat
  let n := j.nkeys.toNat
  let bloom := j.flags.getLsbD 2
  k = 0 || 3 < k || 3 < j.mode.toNat || n = 0 || 4 < n || (k = 2 && n ≠ 1) || j.flags.getLsbD 7 || j.lkind = 3 ||
    j.rkind = 3 || j.flags.toNat % 4 = 3 || j.keys.any JoinKey.bad ||
    j.keys.any (fun x => j.rowBytes < x.roff.toNat + x.klen.toNat) ||
    (List.range n).any (fun i => (joinKeyAt e i).2) || !allZero ((e.drop (8 + 8 * n)).take (32 - 8 * n)) ||
    (k = 2 && j.keys.any (fun x => 8 < x.klen.toNat)) ||
    (if bloom then j.bloomBlocks = 0 || 2 ^ 28 < j.bloomBlocks || j.bloomK = 0 || 8 < j.bloomK
     else j.bloomBlocks ≠ 0 || j.bloomK ≠ 0) ||
    (if k = 2 then j.bucketLog2 ≠ 0 else j.bucketLog2 < 6 || 32 < j.bucketLog2) || rowSizeBad j.rowBytes ||
    fieldAt e 0x38 8 ≠ 0

def exchOf (e : Bytes) : ExchRec :=
  { exch := BitVec.ofNat 8 (fieldAt e 0 1), flags := BitVec.ofNat 8 (fieldAt e 1 1), rowBytes := fieldAt e 2 2,
    npart := fieldAt e 4 4, partSeed := BitVec.ofNat 64 (fieldAt e 8 8), keyOff := fieldAt e 0x10 2,
    keyLen := fieldAt e 0x12 1, join := BitVec.ofNat 8 (fieldAt e 0x13 1), roundRows := fieldAt e 0x14 4,
    stageBytes := fieldAt e 0x18 8, creditMax := fieldAt e 0x20 2, roundsAhead := fieldAt e 0x22 1,
    prov := fieldAt e 0x23 1, table := BitVec.ofNat 16 (fieldAt e 0x24 2), nextMask := BitVec.ofNat 16 (fieldAt e 0x26 2) }

def plaudExchs (b : Bytes) : List ExchRec := (secEntries b 6 64).map exchOf

/-- An exchange record against Table 7.5. -/
def exchTableBad (njoin : Nat) (tables : List Nat) (e : Bytes) : Bool :=
  let x := exchOf e
  let bcast := x.flags.getLsbD 1
  15 < x.exch.toNat || 4 ≤ x.flags.toNat || rowSizeBad x.rowBytes ||
    (if bcast then x.npart ≠ 0 else x.npart = 0 || 1048576 < x.npart) || x.keyLen = 0 || 64 < x.keyLen ||
    x.rowBytes < x.keyOff + x.keyLen || (if x.flags.getLsbD 0 then njoin ≤ x.join.toNat else x.join ≠ 0xFF) ||
    x.roundRows = 0 || x.stageBytes % 8192 ≠ 0 || 64 < x.creditMax || x.roundsAhead = 0 || 8 < x.roundsAhead ||
    x.prov = 0 || 8 < x.prov || x.rowBytes < 8 * x.prov || !tables.contains x.table.toNat || !allZero (e.drop 0x28)

/-- NEXT_MASK names only exchanges numbered higher (R197). -/
def exchCycle (x : ExchRec) : Bool :=
  (List.range 16).any (fun e => x.nextMask.getLsbD e && e ≤ x.exch.toNat)

/-- Key fields lie one after another in a row from an offset on. -/
def keysFrom (left : Bool) : Nat → List JoinKey → Bool
  | _, [] => true
  | off, k :: ks => (if left then k.loff.toNat else k.roff.toNat) = off && keysFrom left (off + k.klen.toNat) ks

/-- The partition key of a side's exchange is its canonical join key as it lies in the rows (R169). -/
def sideKeyed (j : JoinRec) (left : Bool) (e : ExchRec) : Bool :=
  j.keys.foldl (fun a k => a + k.klen.toNat) 0 = e.keyLen && ((sideOf j left).1 ≠ 1 || keysFrom left e.keyOff j.keys)

/-- A source that a join record names exists, and a join record named is an earlier one. -/
def sideExists (es : List ExchRec) (tables : List Nat) (i : Nat) (s : Nat × Nat) : Bool :=
  if s.1 = 0 then tables.contains s.2
  else if s.1 = 1 then es.any (fun e => e.exch.toNat = s.2)
  else s.2 < i

/-- A key lies beyond the rows of the exchange that LEFT names. -/
def leftBeyond (es : List ExchRec) (j : JoinRec) : Bool :=
  let l := sideOf j true
  l.1 = 1 && es.any (fun e => e.exch.toNat = l.2 && j.keys.any (fun k => e.rowBytes < k.loff.toNat + k.klen.toNat))

/-- The sides of join record i against R168 and R169. -/
def joinSidesBad (js : List JoinRec) (es : List ExchRec) (tables : List Nat) (i : Nat) (j : JoinRec) : Bool :=
  let l := sideOf j true
  let r := sideOf j false
  !sideExists es tables i l || !sideExists es tables i r || leftBeyond es j ||
    (if j.kind = 3 then
      !(r.1 = 1 && es.any (fun e => e.exch.toNat = r.2 && e.flags.getLsbD 1))
     else match sideExch js es (js.length + 1) l, sideExch js es (js.length + 1) r with
      | some a, some b => a.npart ≠ b.npart || a.partSeed ≠ b.partSeed || !sideKeyed j true a || !sideKeyed j false b
      | _, _ => true)

/-- A filter is applied at the source only for an INNER or SEMI join (R185). -/
def bloomModeBad (js : List JoinRec) (e : ExchRec) : Bool :=
  e.flags.getLsbD 0 && (match js[e.join.toNat]? with | some j => !(j.mode = 0 || j.mode = 2) | none => false)

/-- The code of the join and exchange records. -/
def joinExchCode (b : Bytes) : Option (BitVec 16) :=
  let js := plaudJoins b
  let es := plaudExchs b
  let tables := (plaudInputs b).map (fun i => i.rec'.table.toNat)
  if (secEntries b 5 64).any joinTableBad ||
      (js.zipIdx).any (fun p => joinSidesBad js es tables p.2 p.1) || es.any (bloomModeBad js) then some 0x0401
  else if 16 < es.length || (secEntries b 6 64).any (exchTableBad js.length tables) ||
      repeats (es.map (·.exch.toNat)) then some 0x0410
  else if es.any exchCycle then some 0x0411
  else none

/-! ### Table records (R227, R230 to R232) -/

def tableOf (e : Bytes) (job : Option (BitVec 64)) : Table :=
  let fl := BitVec.ofNat 8 (fieldAt e 6 1)
  { id := BitVec.ofNat 16 (fieldAt e 0 2), kind := BitVec.ofNat 8 (fieldAt e 2 1), etype := BitVec.ofNat 8 (fieldAt e 3 1),
    elems := fieldAt e 4 2, updatable := fl.getLsbD 3, replicated := fl.getLsbD 2, tier := fl.extractLsb' 0 2,
    compOp := BitVec.ofNat 8 (fieldAt e 7 1), nrows := fieldAt e 8 8, nindex := fieldAt e 0x10 8,
    seed := BitVec.ofNat 64 (fieldAt e 0x18 8), part1 := BitVec.ofNat 16 (fieldAt e 0x20 2),
    part2 := BitVec.ofNat 16 (fieldAt e 0x22 2), shardRows := fieldAt e 0x24 4, flow := BitVec.ofNat 20 (fieldAt e 0x28 4),
    epochItems := fieldAt e 0x2C 4, job := job, tierB := false, rows := [], version := 0, commits := [], homes := [],
    bad := [] }

/-- The record of a table (Table 9.2). -/
def Table.record (t : Table) : Bytes :=
  let flags := t.tier.toNat + (if t.replicated then 4 else 0) + (if t.updatable then 8 else 0)
  Sys2Proof.Machine.record 64 [(0, 2, t.id.toNat), (2, 1, t.kind.toNat), (3, 1, t.etype.toNat), (4, 2, t.elems), (6, 1, flags),
    (7, 1, t.compOp.toNat), (8, 8, t.nrows), (0x10, 8, t.nindex), (0x18, 8, t.seed.toNat), (0x20, 2, t.part1.toNat),
    (0x22, 2, t.part2.toNat), (0x24, 4, t.shardRows), (0x28, 4, t.flow.toNat), (0x2C, 4, t.epochItems)]

/-- A COMPOSED record and its parts (R230); `known` are the tables it may name. -/
def composedBad (known : List Table) (t : Table) : Bool :=
  t.updatable || t.replicated || t.nrows ≠ 0 || t.shardRows ≠ 0 || t.compOp = 0 || 3 < t.compOp.toNat ||
    (match known.find? (fun x => x.id = t.part1), known.find? (fun x => x.id = t.part2) with
     | some a, some b =>
       a.kind ≠ 1 || b.kind ≠ 1 || a.updatable || b.updatable ||
         (if t.compOp = 3 then t.elems ≠ a.elems + b.elems else a.elems ≠ t.elems || b.elems ≠ t.elems)
     | _, _ => true)

/-- A table record against Table 9.2 (FELT_TABLE_RECORD). -/
def tableRecordBad (taken : List (BitVec 16)) (known : List Table) (e : Bytes) : Bool :=
  let t := tableOf e none
  let k := t.kind.toNat
  let shards := if t.shardRows = 0 then 0 else ceilDiv t.nrows t.shardRows
  t.id = 0 || 0xFFF < t.id.toNat || taken.contains t.id || k = 0 || 3 < k || !feltType t.etype.toNat || t.elems = 0 ||
    4096 < t.elems || 16384 < t.rowBytes || 16 ≤ fieldAt e 6 1 || t.tier = 3 ||
    (k ≠ 3 && (t.compOp ≠ 0 || t.part1 ≠ 0 || t.part2 ≠ 0 || t.nrows = 0 ||
      (if t.replicated then t.shardRows ≠ 0 else t.shardRows = 0) || 65536 < shards)) ||
    (k = 1 && 2 ^ 40 < t.nrows) || (k = 2 && 2 ^ 32 < t.nrows) || (k ≠ 2 && (t.nindex ≠ 0 || t.seed ≠ 0)) ||
    (k = 3 && composedBad known t) ||
    (if t.updatable then 2 ^ 20 ≤ fieldAt e 0x28 4 || t.epochItems = 0 else fieldAt e 0x28 4 ≠ 0 || t.epochItems ≠ 0) ||
    !allZero (e.drop 0x30)

/-- Row bytes of a whole table, at the stored row size. -/
def Table.bytesHere (t : Table) : Nat := if t.kind = 3 then 0 else t.nrows * t.stored

/-- Row bytes of this module's tables in tier A and in all. -/
def State.feltBytes (s : State) : Nat × Nat := (s.rowBytesIn false, s.rowBytesIn false + s.rowBytesIn true)

/-- A table registered outside any job: the shards that a rebalance has committed to the twin are homed there still (R370). -/
def State.movedHomes (s : State) (t : Table) : Table :=
  if t.job.isSome then t
  else
    let moved := s.rst.shardPlace.filter (fun p => p.1 = t.id && p.2.2 = 3)
    { t with homes := moved.foldl (fun h p => Assoc.set s.self h p.2.1.toNat s.twinId) t.homes }

/-- Place a table (R231, R232): the state with the table registered, or FELT_CAPACITY. Under TIER automatic shards stay
in tier A while they fit, lowest shard first, and the others go to tier B. -/
def State.placeTable (s : State) (t : Table) : Option State :=
  let t := s.movedHomes t
  let used := s.feltBytes
  let n := t.bytesHere
  let most := s.furn 0x380001 400000000000
  let tb := s.tierBBytes ≠ 0
  let add := fun (s : State) (t : Table) => { s with felt := { s.felt with tables := s.felt.tables ++ [t] } }
  if 1200000000000 < used.2 + n || (t.replicated && s.furn 0x380002 4000000000 < n) || (t.tier = 2 && !tb) then none
  else if t.tier = 2 && !t.replicated then some (add s { t with tierB := true })
  else if used.1 + n ≤ most || t.kind = 3 || (tb && (t.replicated || t.tier = 1)) then some (add s t)
  else if !tb then none
  else
    let size := t.shardRows * t.stored
    let beyond : Nat → Bool := fun i => most < used.1 + i * size + t.shardBytes i
    let far := ((List.range t.shardCount).filter beyond).map (fun i => (t.id, BitVec.ofNat 16 i, (2 : BitVec 8)))
    some (add { s with rst := { s.rst with shardPlace := s.rst.shardPlace ++ far } } t)

/-- Register the job's tables in turn. -/
def State.placeTables (s : State) (job : BitVec 64) : List Bytes → List Table → Except (BitVec 16) State
  | [], _ => .ok s
  | e :: es, mine =>
    let outside := s.felt.tables.filter (fun t => t.job = none)
    if tableRecordBad (s.felt.tables.map (·.id)) (mine ++ outside) e then .error 0x0520
    else
      let t := tableOf e (some job)
      match s.placeTable t with
      | none => .error 0x0521
      | some s => State.placeTables s job es (mine ++ [t])

/-- The twin's tier A shards that the job adds do not fit in free tier B (R329). -/
def State.replicaShort (s : State) (job : BitVec 64) : Bool :=
  s.mirrored && s.tierBFree < Config.twinShardBytes job

/-! ### Flows (R275, R276, R287, R288) -/

structure FlowEntry where
  decl : FlowRec
  rsv  : Bool
deriving DecidableEq, Repr

def flowOf (window0 : Nat) (e : Bytes) : FlowEntry :=
  let w := fieldAt e 0x24 4
  { decl :=
      { flow := BitVec.ofNat 20 (fieldAt e 0 4), cls := BitVec.ofNat 8 (fieldAt e 4 1), stage := BitVec.ofNat 8 (fieldAt e 5 1),
        trigger := BitVec.ofNat 8 (fieldAt e 6 1), batch := fieldAt e 7 1 % 2 = 1, items := fieldAt e 8 8,
        entry := fieldAt e 0x10 4, arg := fieldAt e 0x14 4, producer := fieldAt e 0x18 4, span := fieldAt e 0x1C 4,
        outMax := fieldAt e 0x20 4, window := if w = 0 then window0 else w, dueBase := fieldAt e 0x28 8,
        dueStep := fieldAt e 0x30 2, lead := fieldAt e 0x32 2, stampDiv := fieldAt e 0x34 4, stampNum := fieldAt e 0x38 4,
        stampDen := fieldAt e 0x3C 4 },
    rsv := 2 ^ 20 ≤ fieldAt e 0 4 || 2 ≤ fieldAt e 7 1 || 2 ^ 40 ≤ fieldAt e 8 8 || 2 ^ 48 ≤ fieldAt e 0x28 8 }

def plaudFlows (w : Nat) (b : Bytes) : List FlowEntry := (secEntries b 1 64).map (flowOf w)

/-- A flow against R276 and Table 11.6; a class A flow's items come from requests, not from its trigger. -/
def flowGraphBad (j : Job) (f : FlowRec) : Bool :=
  let earlier := fun (p : FlowRec) => decide (p.stage.toNat < f.stage.toNat)
  if f.isA then false
  else if f.trigger = 1 then
    match j.input? f.producer with
    | some i => f.span = 0 || f.items ≠ ceilDiv i.rows f.span
    | none => true
  else if f.trigger = 2 then
    match j.flow? f.producer with
    | some p => !earlier p.decl || f.span = 0 || 65536 < f.span || f.items ≠ ceilDiv p.decl.items f.span
    | none => true
  else if f.trigger = 3 then
    match j.exch? f.producer with
    | some e => f.stage = 1 || f.span ≠ 0 || f.items ≠ j.rounds e * e.parts ||
        (j.senders e).any (fun p => !(earlier p.decl ||
          (p.decl.trigger = 3 && p.decl.producer < f.producer && p.decl.stage = 2 && f.stage = 2)))
    | none => true
  else
    match j.flow? f.producer, j.collectExch f with
    | some p, some e => !earlier p.decl || p.decl.trigger ≠ 3 || f.span = 0 ||
        (match j.input? e.table.toNat with | some i => f.items ≠ ceilDiv i.rows f.span | none => true)
    | _, _ => true

/-- The largest r_hi − r_lo over the items of a COLLECT flow; the rounds repeat with period ROUND_ROWS over the common
divisor. -/
def collectReach (f : FlowRec) (e : ExchRec) : Nat :=
  let period := e.roundRows / Nat.gcd f.span e.roundRows
  ((List.range (if f.items < period then f.items else period)).map (fun s =>
    (collectRounds f.span e.roundRows s).2 - (collectRounds f.span e.roundRows s).1)).foldl max 0

/-- A producer's window too small for one consumer item (R288). -/
def flowWindowBad (j : Job) (f : FlowRec) : Bool :=
  match j.flow? f.producer with
  | none => false
  | some p =>
    if f.isA then false
    else if f.trigger = 2 then decide (p.decl.window < f.span)
    else if f.trigger = 4 then
      match j.collectExch f with
      | some e => decide (p.decl.window < e.parts * (1 + collectReach f e))
      | none => false
    else false

/-- BYTES_PER_ORDINAL and STAGE_ITEMS of a SOURCE flow's argument block, and its 4 reserved bytes. -/
def sourceArgs (b : Bytes) (f : FlowRec) : Nat × Nat × Nat :=
  let a := secOff b 9 + f.arg
  (fieldAt b a 8, fieldAt b (a + 8) 4, fieldAt b (a + 12) 4)

/-- Values Table 11.5 and R287 do not allow: an invalid field of the Plaud (R5). -/
def flowValueBad (b : Bytes) (f : FlowRec) : Bool :=
  let src := sourceArgs b f
  2 < f.cls.toNat || f.stage = 0 || 3 < f.stage.toNat || f.trigger = 0 || 4 < f.trigger.toNat || f.items = 0 ||
    f.entry % 16 ≠ 0 || secCount b 0 < f.entry + 16 || f.arg % 64 ≠ 0 || secCount b 9 < f.arg || f.outMax % 64 ≠ 0 ||
    65536 < f.window || f.dueStep = 0 || f.stampDiv = 0 || f.stampDen = 0 ||
    (f.trigger = 1 && !f.isA &&
      (secCount b 9 < f.arg + 16 || src.2.1 = 0 || f.window < src.2.1 || src.2.2 ≠ 0))

/-- Pool numbers: 0 ingress staging, 1 join, 2 Slurry send, 3 assemble, 4 release, 5 item store. -/
def State.poolSize (s : State) (p : Nat) : Nat :=
  match p with
  | 0 => s.furn 0x301001 160000000000
  | 1 => s.furn 0x301002 200000000000
  | 2 => s.furn 0x441001 64000000000
  | 3 => s.furn 0x301003 160000000000
  | 4 => s.furn 0x301004 64000000000
  | _ => s.furn 0x301006 16777216

def State.poolReserve (s : State) (p : Nat) : Nat :=
  if p = 5 then s.furn 0x301007 65536 else s.furn 0x301005 2000000000

/-- The pool a flow's output enters (R287, Table 11.9). -/
def Job.outPool (j : Job) (f : FlowRec) : Nat :=
  if j.sendsOn f ≠ [] then 2 else if f.stage = 1 then 1 else if f.stage = 2 then 3 else 4

/-- A flow's shares; class A shares carry pool numbers from 8 on. -/
def flowShares (j : Job) (b : Bytes) (f : FlowRec) : List (Nat × Nat) :=
  let k := if f.isA then 8 else 0
  let src := sourceArgs b f
  (k + j.outPool f, f.window * f.outMax) :: (k + 5, f.window) ::
    (if f.trigger = 1 && !f.isA then [(k, src.2.1 * f.span * src.1)] else [])

/-- Shares held of a pool. -/
def State.poolUsed (s : State) (p : Nat) : Nat :=
  s.hb.jobs.foldl (fun a j => a + (j.shares.filter (·.1 = p)).foldl (fun a x => a + x.2) 0) 0

def sharesOf (p : Nat) (l : List (Nat × Nat)) : Nat := (l.filter (·.1 = p)).foldl (fun a x => a + x.2) 0

/-- The job's shares do not fit: outside the class A reserve for classes B and C, inside it for class A. -/
def State.poolsBad (s : State) (shares : List (Nat × Nat)) : Bool :=
  (List.range 6).any (fun p =>
    decide (s.poolSize p - s.poolReserve p < s.poolUsed p + sharesOf p shares) ||
      decide (s.poolReserve p < s.poolUsed (p + 8) + sharesOf (p + 8) shares))

/-- The first code of the flow records and the pool shares (R272, check 6). -/
def State.flowCode (s : State) (b : Bytes) (j : Job) (fs : List FlowEntry) : Option (BitVec 16) :=
  let ds := fs.map (·.decl)
  if fs.any (·.rsv) || ds.any (flowValueBad b) then some 0x0802
  else if repeats (ds.map (·.flow.toNat)) || ds.any (fun f => f.batch && f.stage ≠ 3) || ds.any (flowGraphBad j) then
    some 0x0804
  else if ds.any (fun f => (s.flow? f.flow).isSome) then some 0x0805
  else if ds.any (flowWindowBad j) then some 0x0806
  else if s.poolsBad (ds.flatMap (flowShares j b)) then some 0x0807
  else none

/-! ### Delay lists (R292, R293) -/

/-- The slice of a flow (DESIGN CHOICE, log entry 42): lists are 0 the root's, 1 + Vat a slice's, 65 the overflow. -/
def flowSlice (f : BitVec 20) : Nat := 1 + f.toNat % 64

def State.listLen (s : State) (l : Nat) : Nat := (s.hb.delays.filter (fun d => d.list = l)).length

/-- Put an entry in its list, else the root list, else the overflow table; none when it fits nowhere. -/
def State.addDelay (s : State) (d : DelayEntry) : Option State :=
  let put := fun (s : State) (l : Nat) => { s with hb := { s.hb with delays := s.hb.delays ++ [{ d with list := l }] } }
  if s.listLen d.list < 4096 then some (put s d.list)
  else if s.listLen 0 < 4096 then some (put s 0)
  else if s.listLen 65 < 65536 then some ((put s 65).bump 0x30000F 1)
  else none

/-- Reserve one RELEASE entry for each BATCH flow. -/
def State.addReleases (s : State) : List FlowRec → Option State
  | [] => some s
  | f :: fs =>
    if f.batch then
      match s.addDelay { value := releaseReel f 0, kind := 3, object := f.flow.toNat, list := flowSlice f.flow } with
      | some s => State.addReleases s fs
      | none => none
    else State.addReleases s fs

/-! ### Footers (R274) -/

/-- The key pair of a namespace now (R306). -/
def State.nsKey (s : State) (nsid : BitVec 32) : XtsKey := { nsid := nsid, gen := s.sec.nsKeyGen }

/-- A block enciphered under a key pair with its number in the namespace as tweak (R306). -/
def Block.seal (k : XtsKey) (n : BitVec 64) (b : Bytes) : Block :=
  { key := k, tweak := n.setWidth 128, sealed := Config.xts k.nsid k.gen (n.setWidth 128) b }

/-- The block deciphered under its own key pair and tweak. -/
def Block.plain (b : Block) : Bytes := (Config.xts b.key.nsid b.key.gen b.tweak).symm b.sealed

/-- A tier C block as the module reads it: none where it is absent, another key pair or tweak has enciphered it (R306) or
its namespace is not used (R305), and outside service, where tier C is held in reset (Table 14.6). -/
def State.tierCBlock (s : State) (nsid : BitVec 32) (lba : BitVec 64) : Option Bytes :=
  match s.mem.tierC.find? (fun b => b.1 = nsid && b.2.1 = lba) with
  | some b =>
    if s.up && !s.mem.tierCUnused.contains nsid && s.sec.nsKeys && b.2.2.key = s.nsKey nsid &&
      b.2.2.tweak = lba.setWidth 128 then some b.2.2.plain else none
  | none => none

/-- Blocks from an LBA on, or none when one of them cannot be read. -/
def State.tierCRead (s : State) (nsid : BitVec 32) : BitVec 64 → Nat → Option Bytes
  | _, 0 => some []
  | lba, n + 1 =>
    match s.tierCBlock nsid lba, State.tierCRead s nsid (lba + 1) n with
    | some a, some b => some (a ++ b)
    | _, _ => none

def State.fileBytes (s : State) (f : FileEntry) : Option Bytes :=
  (s.tierCRead f.nsid f.lba (ceilDiv f.bytes 4096)).map (·.take f.bytes)

/-- The chunks of a table's files, ordinals counted through them; none when a footer cannot be used. -/
def State.readFooters (s : State) (i : InputRec) : List FileEntry → Nat → Option (Nat × List Chunk)
  | [], n => some (n, [])
  | f :: fs, n =>
    match (s.fileBytes f).bind (footer i.format.toNat) with
    | none => none
    | some ft =>
      if ft.chunks.any (fun c => i.cols.getLsbD c.col && c.elsewhere) then none
      else match State.readFooters s i fs (n + ft.rows) with
      | none => none
      | some r =>
        let mine := (ft.chunks.filter (fun c => i.cols.getLsbD c.col)).map (fun c =>
          ({ col := c.col, first := n + c.first, rows := c.rows, nsid := f.nsid, lba := f.lba, off := c.off,
             bytes := c.bytes } : Chunk))
        some (r.1, mine ++ r.2)

/-- The key pair of a block of some file is absent (R306): none is held, or another one has enciphered the block. -/
def State.keysAbsent (s : State) (fs : List FileEntry) : Bool :=
  fs.any (fun f => !s.sec.nsKeys || s.mem.tierC.any (fun b =>
    b.1 = f.nsid && (b.2.1 - f.lba).toNat < ceilDiv f.bytes 4096 && b.2.2.key ≠ s.nsKey f.nsid))

/-- Read every footer of a job's inputs: MEM_TIERC_KEY, HB_INPUT_FOOTER, HB_INPUT_ROWS, or the inputs with their chunks. -/
def State.startInputs (s : State) (files : List FileEntry) : List InputEntry → Except (BitVec 16) (List InputRec)
  | [] => .ok []
  | i :: is =>
    match s.readFooters i.rec' ((files.drop i.file0).take i.files) 0 with
    | none => .error (if s.keysAbsent ((files.drop i.file0).take i.files) then 0x0905 else 0x0817)
    | some (n, cs) =>
      if n ≠ i.rec'.rows then .error 0x0810
      else match State.startInputs s files is with
        | .error c => .error c
        | .ok rest => .ok ({ i.rec' with chunks := cs } :: rest)

/-! ### Loading (R272, R273) -/

/-- The argument block of a flow with what follows it in ARGS. -/
def flowArgs (b : Bytes) (f : FlowRec) : Bytes := ((b.drop (secOff b 9)).take (secCount b 9)).drop f.arg

def flowRunOf (b : Bytes) (f : FlowRec) : FlowRun :=
  { decl := f, shard := Config.argShard (flowArgs b f), bpo := if f.trigger = 1 && !f.isA then (sourceArgs b f).1 else 0,
    stageMax := if f.trigger = 1 && !f.isA then (sourceArgs b f).2.1 else 0, next := 0, ahead := [], staged := [],
    released := 0, egressed := 0, ring := none, lastCore := none, arrivals := 0, rewrite := 0,
    stopped := false }

def exchState (job : BitVec 64) (e : ExchRec) : Exch :=
  { job := job, exch := e.exch.setWidth 4, homes := [], pool := [], retained := [], credits := [], txSeq := [],
    txRound := [], txRows := [], slots := [], staged := [], base := [], ended := [], got := [], redo := [],
    awaits := [], doneOf := [], rxSeq := [], asks := [], granted := [], creditAsked := [], rowsIn := [] }

/-- The job an image declares, its inputs without their chunks. -/
def jobOf (b : Bytes) (tag : BitVec 32) (test : Bool) (self : BitVec 14) (base : Nat) (fs : List FlowEntry)
    (allocs : List (Nat × BitVec 16 × Nat)) : Job :=
  let j : Job :=
    { job := plaudJob b, tag := tag, seed := BitVec.ofNat 64 (fieldAt b 0x10 8), unordered := fieldAt b 6 2 % 2 = 1,
      test := test, flows := fs.map (fun f => flowRunOf b f.decl),
      allocs := allocs.map (fun a => (BitVec.ofNat 16 a.1, a.2.1)), codeBase := base + secOff b 0,
      argsBase := base + secOff b 9, argsBytes := secCount b 9,
      descs := (plaudDescs b).map (relocate allocs (base + secOff b 3)), descsBase := base + secOff b 3, joins := plaudJoins b, exchanges := plaudExchs b,
      inputs := (plaudInputs b).map (·.rec'), layouts := base + secOff b 8,
      tables := (secEntries b 7 64).map (fun e => BitVec.ofNat 16 (fieldAt e 0 2)), shares := [], modules := [self],
      hashes := [], filters := [], stopped := none, finalSent := false }
  { j with shares := fs.flatMap (fun f => flowShares j b f.decl) }

/-- Marked descriptors of a job in place, from a number on. -/
def State.writeDescs (s : State) (base : Nat) (job : BitVec 64) : Nat → List (BitVec 512) → State
  | _, [] => s
  | i, d :: ds => State.writeDescs (s.memWrite (base + 64 * i) (lineToBytes (s.marked d job))) base job (i + 1) ds

/-- The Headbox creates the descriptors of a job's Plaud (R118), again where a flow comes to this module (R134). -/
def State.makeDescs (s : State) (j : Job) : State := s.writeDescs j.descsBase j.job 0 j.descs

/-- Checks 1 to 6 of R272 in their order, and the state with the job loaded. An image whose JOB is loaded already is
turned away with PLAUD_FIELD (DESIGN CHOICE, log entry 44). The image itself stands in a read-only
record of the job (DESIGN CHOICE, log entry 43). -/
def State.loadPlaud (s : State) (tag : BitVec 32) (test : Bool) (b : Bytes) : Except (BitVec 16) State :=
  let job := plaudJob b
  if plaudFormatBad b then .error 0x0801
  else if plaudFieldBad b then .error 0x0802
  else if plaudCrcBad b then .error 0x0801
  else if (s.job? job).isSome then .error 0x0802
  else if fieldAt b 0x18 4 ≠ Config.rowsem.toNat then .error 0x0803
  else if (plaudAllocs b).any (AllocEntry.bad b) || repeats ((plaudAllocs b).map (·.localId)) then .error 0x0802
  else match s.newAlloc job false false (plaudBytes b) with
    | none => .error 0x0808
    | some (_, base, s1) =>
      match s1.makeAllocs b job (plaudAllocs b) [] with
      | none => .error 0x0808
      | some (s1, map) =>
        let descs := base + secOff b 3
        match s1.plaudDescCode map descs (plaudDescs b) job with
        | some c => .error c
        | none =>
          match joinExchCode b with
          | some c => .error c
          | none =>
            match s1.placeTables job (secEntries b 7 64) [] with
            | .error c => .error c
            | .ok s1 =>
              let fs := plaudFlows (s.furn 0x300002 4096) b
              let j := jobOf b tag test s.self base fs map
              if s.replicaShort job then .error 0x0A05
              else if (layoutOffs b (secCount b 8) (secOff b 8)).any (fun o => (layoutOf (b.drop o)).bad) then .error 0x0426
              else if plaudInputsBad b then .error 0x0802
              else match s.flowCode b j fs with
                | some c => .error c
                | none =>
                  match s1.addReleases (fs.map (·.decl)) with
                  | none => .error 0x0814
                  | some s1 =>
                    let s1 := (s1.memWrite base b).makeDescs j
                    .ok { s1 with hb := { s1.hb with jobs := s1.hb.jobs ++ [j] },
                                  slurry := s1.slurry ++ (plaudExchs b).map (exchState job) }

/-- Start a loaded job: its footers are read, and one that cannot start ends at once (R274). -/
def State.startJob (s : State) (jid : BitVec 64) (b : Bytes) : State :=
  match s.job? jid with
  | none => s
  | some j =>
    match s.startInputs (plaudFiles b) (plaudInputs b) with
    | .error c => s.stopJob jid c
    | .ok is => s.setJob { j with inputs := is }

end Sys2Proof.Machine
end

