-- ==== Sys2Proof/Machine/Paths.lean ====
section
/-! DEFINITION. The ways into the module: the dictionary paths (R375 to R379, R399), how they answer, and taking a
command from the host command ring (R378). -/

namespace Sys2Proof.Machine

open Sys2Proof

/-! ### Dictionary paths -/

/-- The USDO abort code of a refusal (R388, Table 15.20); codes of other ranges go as HB_SWITCH_LATE does. -/
def usdoAbort (read : Bool) (st : BitVec 16) : Nat :=
  let c := st.toNat
  if c = 0x0C01 then 0x06020000
  else if c = 0x0C02 then 0x06090011
  else if c = 0x0C03 then (if read then 0x06010001 else 0x06010002)
  else if c = 0x0C04 then 0x06070010
  else if c = 0x0C05 then 0x06090030
  else if c = 0x0C06 || c = 0x0C0B then 0x06010000
  else if [0x0C10, 0x0C11, 0x0C12, 0x0C13, 0x0C20, 0x0C21].contains c then 0x08000020
  else 0x08000022

/-- MB_RESP (Table 15.4). -/
def mbResponse (st : BitVec 16) (data : Bytes) : Bytes := leBytes 2 st.toNat ++ zeros 2 ++ leBytes 4 data.length ++ data

/-- MB_REQ of a request (Table 15.5), as far as LENGTH reaches. -/
def mbRequest (op sub index offset flags : Nat) (data : Bytes) : Bytes :=
  record 16 [(0, 1, op), (1, 1, sub), (2, 2, index), (4, 4, data.length), (8, 4, offset), (0xC, 1, flags)] ++ data

/-- The operations of Table 15.6. -/
def mbOps : List Nat := [0x01, 0x02, 0x10, 0x11, 0x12, 0x13, 0x14, 0x15, 0x20]

/-- The fabric tunnel. -/
def isTunnel (p : Path) : Bool :=
  match p with
  | .tunnel _ => true
  | _ => false

/-- The Ream meter's own node. -/
def isMeter (p : Path) : Bool :=
  match p with
  | .meterNode _ => true
  | _ => false

/-- The way a request comes, whatever the request. -/
def wayOf (p : Path) : Path :=
  match p with
  | .tunnel _ =>
    .tunnel { msg := { qp := 0, version := 0, exch := 0, cls := 0, gen := 0, job := 0, src := 0, dst := 0, part := 0, round := 0,
                       length := 0, seq := 0, value := 0, rsv := 0, crc := 0, payload := [] }, cls := 2, ip := 0 }
  | .can _ => .can .expedited
  | .mailbox _ => .mailbox []
  | .meterNode _ => .meterNode .expedited

/-- A request within what the path serves: a USDO form of Table 15.3, an operation of Table 15.6, on the tunnel DICT_READ and
DICT_WRITE only (R379). -/
def served (p : Path) : Bool :=
  match p with
  | .can u => u = .expedited || u = .segmented
  | .meterNode u => u = .expedited || u = .segmented
  | .mailbox req => mbOps.contains (fieldAt req 0 1)
  | .tunnel r => fieldAt r.msg.payload 0 1 = 1 || fieldAt r.msg.payload 0 1 = 2

/-- What pairs a tunnel request with its answer: sender, generation and number. -/
def requestId (r : TunnelReq) : BitVec 14 × BitVec 32 × BitVec 64 := (r.msg.from, r.msg.gen, r.msg.seq)

/-- Keep the answer to a tunnel request, with those to the last 64 of its sender (Table 13.2). -/
def State.keepAnswer (s : State) (r : TunnelReq) (st : BitVec 16) (data : Bytes) : State :=
  let mine := s.fab.kept.filter (fun k => k.1.1 = r.msg.from)
  let rest := s.fab.kept.filter (fun k => k.1.1 ≠ r.msg.from)
  { s with fab := { s.fab with kept := rest ++ mine.drop (mine.length - 63) ++ [(requestId r, st, data)] } }

/-- Send the answer to a tunnel request: TYPE 0x51 with the SEQ of the request and the MB_RESP layout (R379). -/
def State.tunnelAnswer (s : State) (r : TunnelReq) (data : Bytes) : State := s.sendMsg 0x51 (s.answerMsg 0x51 r.msg 0 data)

/-- The node ID of the Ream meter (R396, R411). -/
def State.meterId (s : State) : BitVec 7 := s.straps.canNode ^^^ 0x40

/-- A CAN frame of the meter's node, which its own supply feeds. -/
def State.meterCan (s : State) (base : Nat) (data : Bytes) : State :=
  if s.meter.fitted && s.meter.supplied && s.meterId ≠ 0 then s.emit (.can (BitVec.ofNat 16 (base + s.meterId.toNat)) data) else s

/-- Answer an access on a path: the mailbox keeps status and data in its registers, a CAN node answers on CAN-ID 0x580 + node ID
and reports a refusal by its abort code, and the tunnel carries the MB_RESP layout. -/
def State.answer (s : State) (path : Path) (read : Bool) (st : BitVec 16) (data : Bytes) : State :=
  let body := if st = 0 then data else leBytes 4 (usdoAbort read st)
  match path with
  | .mailbox req =>
    { s with host := { s.host with mbReq := req, mbStatus := st.setWidth 32, mbResp := mbResponse st data },
             sent := s.sent ++ [.answer (.mailbox req) st data] }
  | .tunnel r => (s.tunnelAnswer r (mbResponse st data)).keepAnswer r st (mbResponse st data)
  | .can _ => s.emit (.usdo (s.canId 0x580) st body)
  | .meterNode _ => s.emit (.usdo (BitVec.ofNat 16 (0x580 + s.meterId.toNat)) st body)

def State.orchAddr (s : State) : Nat := s.furn 0x1F8201 0

/-- A tunnel request comes from ORCH_ADDR on a class C queue pair, with PART and VALUE zero (R379). -/
def State.fromOrch (s : State) (r : TunnelReq) : Bool :=
  s.orchAddr ≠ 0 && r.cls = 2 && r.ip.toNat = s.orchAddr && r.msg.part = 0 && r.msg.value = 0

/-- A path is served: the CAN node outside listen-only operation and not stopped, the mailbox while the host port is out of
reset and BUSY is clear (R376), the tunnel in service for requests of ORCH_ADDR, and the meter's own node while the meter has its
supply, a node ID (R417) and is not stopped. -/
def State.pathOpen (s : State) (path : Path) : Bool :=
  match path with
  | .can _ => s.rst.boot ≠ .inReset && s.straps.canNode ≠ 0 && s.dict.nmt ≠ 0x04
  | .mailbox _ => s.rst.boot ≠ .inReset && !s.rst.hostReset && !s.host.mbStatus.getLsbD 31
  | .tunnel r => s.rst.boot = .ready && s.fromOrch r
  | .meterNode _ => s.meter.fitted && s.meter.supplied && s.meterId ≠ 0 && s.meter.nmt ≠ 0x04

/-- The answer kept to a request number of the tunnel. -/
def State.keptAnswer (s : State) (path : Path) : Option (BitVec 16 × Bytes) :=
  match path with
  | .tunnel r => (s.fab.kept.find? (fun k => k.1 = requestId r)).map (·.2)
  | _ => none

/-- Serve an access on an open path; one outside what the path serves is CMD_UNSUPPORTED (R375, R388). -/
def State.serve (s : State) (path : Path) (f : State → State) : State :=
  if served path then f s else s.answer path false 0x0C0B []

/-- An access on a path. A tunnel request is a fabric message and meets its checks (R325, R337); one from elsewhere is counted (R379),
and one whose number has been answered gets the kept answer and is not applied again (Table 13.2). -/
def State.onPath (s : State) (path : Path) (f : State → State) : State :=
  match path with
  | .tunnel r => s.takeMsg 0x50 r.msg (fun s =>
    if !s.fromOrch r then s.protocolError
    else match s.keptAnswer path with
      | some a => s.tunnelAnswer r a.2
      | none => s.serve path f)
  | _ => if s.pathOpen path then s.serve path f else s

/-- An access on the module's own paths; the meter's node holds nothing of it. -/
def State.onModulePath (s : State) (path : Path) (f : State → State) : State :=
  s.onPath path (fun s => if isMeter path then s.answer path false 0x0C01 [] else f s)

/-! ### The host command ring (Table 15.7) -/

/-- The module takes the command at CMD_HEAD. -/
def State.cmdTaken (s : State) : State :=
  { s with host := { s.host with cmdTail := s.host.cmdTail + 1, cmdHead := s.host.cmdHead + 1 } }

/-- The host has written a command, and the ring head does not advance past one that the module cannot take yet (R289). -/
def State.ringWait (s : State) (c : Instr) : State :=
  { s with host := { s.host with cmdTail := s.host.cmdTail + 1, waiting := s.host.waiting ++ [c] } }

/-- A command the host has written to the ring: taken in service in its turn, refused in recovery mode (CMD_UNSUPPORTED), and left
in the ring while the module is not up; a host port in reset takes none. -/
def State.takeCmd (s : State) (c : Instr) (tag : BitVec 32) (f : State → State) : State :=
  if s.rst.hostReset then s
  else match s.rst.boot with
    | .ready => if s.host.waiting = [] then f s.cmdTaken else s.ringWait c
    | .recovery => s.cmdTaken.complete tag 0x0C0B true 0 0
    | _ => s.ringWait c

end Sys2Proof.Machine
end

