-- ==== Sys2Proof/Machine/Egress.lean ====
section
/-! DEFINITION. Egress (R221, R222, R282, R291, R335, R398): attaching rings, releasing items in order, writing batches
into ring slots, mirror records for the twin, and the consumer's index. -/

namespace Sys2Proof.Machine

open Sys2Proof

/-! ### Mirror records (Table 13.7) -/

def Mirror.bytes (m : Mirror) : Bytes :=
  record 64 [(0, 1, m.kind.toNat), (2, 2, m.ring.toNat), (4, 4, m.flow.toNat), (8, 8, m.mseq.toNat),
    (0x10, 8, m.w0.toNat), (0x18, 8, m.w1.toNat), (0x20, 4, m.slots.toNat), (0x24, 4, m.slotBytes.toNat),
    (0x28, 4, m.rkey.toNat), (0x2C, 4, m.standby.toNat)]

/-- Send one mirror record with the next MSEQ. -/
def State.sendMirror (s : State) (m : Mirror) : State :=
  if s.mirrored then
    let n := s.twin.mseqTx + 1
    ({ s with twin := { s.twin with mseqTx := n } }).sendFrame 4 ({ m with mseq := n }).bytes
  else s

def State.ring? (s : State) (n : Nat) : Option Ring := s.hb.rings.find? (fun r => r.number.toNat = n)

/-- The same ring: after a takeover two rings may carry one number, the survivor's own and the one taken over (R221). -/
def Ring.same (a b : Ring) : Bool := a.number = b.number && a.flow = b.flow

def State.setRing (s : State) (r : Ring) : State :=
  { s with hb := { s.hb with rings := s.hb.rings.map (fun x => if x.same r then r else x) } }

def State.dropRing (s : State) (r : Ring) : State :=
  { s with hb := { s.hb with rings := s.hb.rings.filter (fun x => !x.same r) } }

/-- The ring a flow is attached to. -/
def State.flowRing? (s : State) (f : FlowRun) : Option Ring :=
  f.ring.bind (fun n => s.hb.rings.find? (fun r => r.number = n && r.flow = f.decl.flow))

/-- The ring whose index the doorbell page holds under a number: the host-port ring, which is never one taken over. -/
def State.hostRing? (s : State) (n : Nat) : Option Ring :=
  match s.hb.rings.find? (fun r => r.number.toNat = n && r.rkey = 0) with
  | some r => some r
  | none => s.ring? n

/-- The ring an EGRESS_INDEX message means: the one whose consumer sent it. -/
def State.fabricRing? (s : State) (qp : BitVec 16) (n : Nat) : Option Ring :=
  match (s.qp? qp).bind (fun q => s.hb.rings.find? (fun r => r.number.toNat = n && r.rkey ≠ 0 && r.consQpn = q.remote)) with
  | some r => some r
  | none => s.ring? n

/-- The RING record of a ring. -/
def State.mirrorRing (s : State) (r : Ring) : State :=
  s.sendMirror { kind := 1, ring := r.number.setWidth 16, flow := r.flow.setWidth 32, mseq := 0, w0 := r.base, w1 := r.comp,
                 slots := BitVec.ofNat 32 r.slots, slotBytes := BitVec.ofNat 32 r.slotBytes, rkey := r.rkey,
                 standby := r.standby }

/-- The RELEASE record of a ring's flow: the last batch handed to egress and the consumer index (R335). -/
def State.mirrorRelease (s : State) (r : Ring) : State :=
  if s.mirrored && r.written ≠ 0 then
    let n := s.twin.mseqTx + 1
    let m : Mirror :=
      { kind := 2, ring := 0, flow := r.flow.setWidth 32, mseq := 0, w0 := BitVec.ofNat 64 (r.written - 1),
        w1 := BitVec.ofNat 64 r.finished, slots := 0, slotBytes := 0, rkey := 0, standby := 0 }
    let s := s.sendMirror m
    { s with twin := { s.twin with mseqLog := s.twin.mseqLog ++ [(n, r.flow, r.finished)] } }
  else s

/-- R335: the twin holds a record that lets batch b be written; records go out, and gate, in RESYNC too. -/
def State.mirrorCovers (s : State) (r : Ring) (b : Nat) : Bool :=
  !s.mirrored || b < r.slots ||
    s.twin.mseqLog.any (fun e => e.1.toNat ≤ s.twin.mseqAcked.toNat && e.2.1 = r.flow && b < e.2.2 + r.slots)

/-! ### Attaching a ring (R221, R290) -/

/-- The lowest free ring number. -/
def State.freeRing (s : State) : Option Nat := firstFrom (fun n => (s.ring? n).isNone) 4096 0

/-- The lowest free queue pair number, from 1; number 0 is the last of the 65,536. -/
def State.freeQp (s : State) : Option Nat :=
  let free : Nat → Bool := fun n => s.fab.qps.all (fun (q : Qp) => q.number.toNat ≠ n)
  match firstFrom free 65535 1 with
  | some n => some n
  | none => if free 0 then some 0 else none

/-- A new queue pair at line rate on the port of R322. -/
def State.addQp (s : State) (peer : BitVec 14) (cls : BitVec 2) (remote : BitVec 32) : State :=
  match s.freeQp with
  | none => s
  | some n =>
    let q : Qp := { number := BitVec.ofNat 16 n, peer := peer, remote := remote, cls := cls,
                    port := s.portFor peer cls, ip := 0, rateNum := lineRate, rateDen := 1, retries := 0, rnr := 0,
                    error := false, unacked := [] }
    { s with fab := { s.fab with qps := s.fab.qps ++ [q] } }

/-- The queue pairs to a peer, one for each class (R322). -/
def State.connectPeer (s : State) (p : BitVec 14) : State :=
  [0, 1, 2].foldl (fun s c => s.addQp p c 0) s

/-- Queue pairs to those peers that have none (R322). -/
def State.connectPeers (s : State) (ps : List (BitVec 14)) : State :=
  (ps.filter (fun p => p ≠ s.self && s.fab.qps.all (fun (q : Qp) => q.peer ≠ p))).foldl State.connectPeer s

/-- The consumer of a fabric ring is connected by a class B queue pair of its own (DESIGN CHOICE, log entry 50: the spec
gives no command that connects one). -/
def State.connectConsumer (s : State) (rkey consQpn : BitVec 32) : State :=
  if rkey = 0 || s.fab.qps.any (fun (q : Qp) => q.remote = consQpn) then s else s.addQp s.self 1 consQpn

/-- The automatic choice of REEL_QP at a fabric attach (R290). -/
def State.chooseReelQp (s : State) (rkey consQpn : BitVec 32) : State :=
  if rkey = 0 || s.hb.reelQp ≠ 0 then s
  else match s.fab.qps.find? (fun q => q.remote = consQpn) with
    | some q => { s with hb := { s.hb with reelQp := q.number.setWidth 32 } }
    | none => s

/-- The flow a ring may be attached to: a loaded BATCH flow without one. -/
def State.ringFlow (s : State) (flow : BitVec 32) : Option (Job × FlowRun) :=
  if 2 ^ 20 ≤ flow.toNat then none
  else match s.flow? (flow.setWidth 20) with
    | some (j, f) => if f.decl.batch && f.ring.isNone && !f.stopped && j.stopped.isNone then some (j, f) else none
    | none => none

def ringSlotsBad (a : RingAttach) (outMax : Nat) : Bool :=
  a.slotBytes.toNat < outMax || a.slotBytes.toNat % 4096 ≠ 0 || a.slots.toNat < 2 || 65536 < a.slots.toNat

/-- The code an attach completes with, its ring number and the job's identifier, and the state with the ring. -/
def State.attachTo (s : State) (a : RingAttach) : BitVec 16 × Nat × BitVec 64 × State :=
  match s.ringFlow a.flow, s.freeRing with
  | some (j, f), n =>
    if ringSlotsBad a f.decl.outMax then (0x0440, 0, j.job, s)
    else match n with
      | none => (0x0441, 0, j.job, s)
      | some n =>
        let r : Ring :=
          { number := BitVec.ofNat 12 n, flow := f.decl.flow, base := a.base, comp := a.comp, slots := a.slots.toNat,
            slotBytes := a.slotBytes.toNat, rkey := a.rkey, consQpn := a.consQpn, standby := a.standby, finished := 0,
            written := 0 }
        let s := s.setFlow { f with ring := some r.number }
        let s := { s with hb := { s.hb with rings := s.hb.rings ++ [r] } }
        (0, n, j.job, ((s.connectConsumer a.rkey a.consQpn).chooseReelQp a.rkey a.consQpn).mirrorRing r)
  | none, _ => (0x0441, 0, 0, s)

/-- ATTACH_RING (R221). -/
def execAttachRing (tag : BitVec 32) (a : RingAttach) (s : State) : Host.Outcome State Fault Refusal :=
  .next (s.takeCmd (.attachRing tag a) tag (fun s =>
    let r := s.attachTo a
    r.2.2.2.complete tag r.1 true r.2.2.1 (BitVec.ofNat 16 r.2.1)))

/-! ### Release in sequence order (R282) -/

/-- Release accepted items from the lowest one on. -/
def State.releaseFrom (s : State) (j : Job) (f : FlowRun) : Nat → State
  | 0 => s.setFlow f
  | fuel + 1 =>
    let q := s.skipOthers j f f.released
    match s.item? (keyOf f.decl.flow q) with
    | some it =>
      if it.phase = .accepted then
        State.releaseFrom (s.setItem { it with phase := .released }) j { f with released := q + 1 } fuel
      else s.setFlow { f with released := q }
    | none => s.setFlow { f with released := q }

/-- ITEM_RELEASE (R282); an item created again after its release is released when it is accepted. -/
def execItemRelease (flow : BitVec 20) (s : State) : Host.Outcome State Fault Refusal :=
  match s.flow? flow with
  | none => .next s
  | some (j, f) =>
    if j.stopped.isSome || f.decl.isA then .next s
    else
      let again : Item → Bool := fun it =>
        it.key.flow = flow && it.phase = .accepted && it.key.seq.toNat < f.released
      let items := s.hb.items.map (fun it => if again it then { it with phase := Phase.released } else it)
      let s := { s with hb := { s.hb with items := items } }
      .next (((s.releaseFrom j f (s.hb.items.length + 1)).sweep j.job).checkJobEnd j.job)

/-! ### Writing batches (R221, R222, R282, R398) -/

/-- Bytes of a batch: TOTAL of a sealed batch, otherwise the whole reservation (DESIGN CHOICE, log entry 45). -/
def batchBytes (out : Bytes) : Nat :=
  let n := fieldAt out 0x44 4
  if fieldAt out 0 4 = 0x31425644 && 0x100 ≤ n && n ≤ out.length then n else out.length

/-- The completion record of Table 8.7. -/
def egressRecord (flow : BitVec 20) (slots b bytes crc : Nat) : Bytes :=
  record 32 [(0, 4, flow.toNat), (4, 4, b % slots), (8, 8, b), (0x10, 4, bytes), (0x14, 4, crc),
    (0x1A, 1, (b / slots + 1) % 2)]

/-- The module has not gone idle in a detach (R347). -/
def State.working (s : State) : Bool := s.twin.state ≠ .detaching

/-- The batch the flow owes its consumer next, when everything lets it go (R282, R221, R335, R398). -/
def State.egressReady (s : State) (flow : BitVec 20) : Option (Job × FlowRun × Ring × Item) :=
  match s.flow? flow with
  | none => none
  | some (j, f) =>
    let b := s.skipOthers j f f.egressed
    match s.item? (keyOf f.decl.flow b), s.flowRing? f with
    | some it, some r =>
      if s.working && f.decl.batch && !f.stopped && j.stopped.isNone && it.phase = .released &&
          releaseReel f.decl b ≤ s.hb.reel.toNat && b < r.finished + r.slots && s.mirrorCovers r b &&
          s.meter.queue.length < 4096 && !s.leaseStopped 1 (flow.setWidth 32) && !(r.rkey = 0 && s.rst.hostReset) &&
          !s.fab.stopped
      then some (j, f, r, it) else none
    | _, _ => none

/-- Put the flow's RELEASE entry at its next batch (R293). -/
def State.armRelease (s : State) (f : FlowRec) (b : Nat) : State :=
  { s with hb := { s.hb with delays := s.hb.delays.map (fun d =>
      if d.kind = 3 && d.object = f.flow.toNat then { d with value := releaseReel f b } else d) } }

/-- Write batch b: its bytes into the slot, then the completion record, the release report and the mirror. The flow's last batch ends
it, and its ring number is free again (R221; DEDUCED, log entry 137). -/
def State.egressBatch (s : State) (j : Job) (f : FlowRun) (r : Ring) (it : Item) : State :=
  let b := it.key.seq.toNat
  let out := s.memRead it.out it.outBytes
  if s.mem.poisoned it.out it.outBytes then (s.notePoison poisonStatus).stopJob j.job 0x0906
  else
    let n := batchBytes out
    let data := out.take n
    let s := s.emit (.batch r.number (b % r.slots) b data)
    let s := (s.emit (.egress r.number (egressRecord f.decl.flow r.slots b n (fieldAt out 0xFC 4)))).bump 0x442004 n
    let rep : Report := { number := s.meter.nextReport, job := j.job, flow := f.decl.flow, batch := b,
                          rows := fieldAt out 0x14 4, rewrite := b < f.rewrite }
    let s := { s with meter := { s.meter with queue := s.meter.queue ++ [rep], nextReport := rep.number + 1 },
                      sent := s.sent ++ [Out.report rep] }
    let r := { r with written := if r.written < b + 1 then b + 1 else r.written }
    let last := decide (f.decl.items ≤ s.skipOthers j f (b + 1))
    let f := { f with egressed := b + 1, ring := if last then none else f.ring }
    let s := ((s.setFlow f).setRing r).mirrorRelease r
    let s := if last then s.dropRing r else s
    ((s.armRelease f.decl (b + 1)).sweep j.job).checkJobEnd j.job

def State.egressNext (s : State) (flow : BitVec 20) : State :=
  match s.egressReady flow with
  | some (j, f, r, it) => s.egressBatch j f r it
  | none => s

/-- BATCH_EGRESS (R282): the flow's next batch, when it may go. -/
def execBatchEgress (flow : BitVec 20) (s : State) : Host.Outcome State Fault Refusal := .next (s.egressNext flow)

/-- A head batch re-examined at its release reel: all that may go, go. -/
def State.egressAll (s : State) (flow : BitVec 20) : Nat → State
  | 0 => s
  | fuel + 1 =>
    match s.egressReady flow with
    | some (j, f, r, it) => State.egressAll (s.egressBatch j f r it) flow fuel
    | none => s

/-- A flow stops with a code and its ring is detached; a job none of whose BATCH flows goes on stops with it (log entry 48). -/
def State.stopFlow (s : State) (flow : BitVec 20) (code : BitVec 16) : State :=
  match s.flow? flow with
  | none => s
  | some (j, f) =>
    let s := (s.setFlow { f with stopped := true, lost := some code, ring := none }).logEvent code flow.toNat
    let s := { s with hb := { s.hb with rings := s.hb.rings.filter (fun (r : Ring) => r.flow ≠ flow) } }
    if f.decl.batch && j.flows.all (fun g => !g.decl.batch || g.stopped || g.decl.flow = flow) then s.stopJob j.job code
    else s

/-! ### The consumer's index (R221, R291) -/

/-- A consumer index: it neither falls nor passes the batches written (HB_RING_INVALID is reported). -/
def State.takeIndex (s : State) (ring : Option Ring) (n count : Nat) : State :=
  match ring with
  | none => s.logEvent 0x0815 n
  | some r =>
    if count < r.finished || r.written < count then s.logEvent 0x0815 n
    else if count = r.finished then s
    else
      let r := { r with finished := count }
      (s.setRing r).mirrorRelease r

/-- Fields of a Headbox message (R291): EXCH, ROUND, LENGTH and VALUE are zero, and of the reserved bytes only the first
`n` hold a value. -/
def hbMessage (t : BitVec 8) (m : Msg) (n : Nat) : Bool :=
  m.wellFormed t && m.exch = 0 && m.round = 0 && m.length = 0 && m.value = 0 && m.rsv.toNat < 2 ^ (8 * n)

/-- Receive a Headbox message (R189, R325, R337). -/
def State.takeHbMsg (s : State) (t : BitVec 8) (m : Msg) (n : Nat) (f : State → State) : State :=
  if !s.up then s
  else s.arrives t m (fun s =>
    if !hbMessage t m n || m.to ≠ s.self then s.protocolError
    else if m.gen.toNat < (s.genOf m.from).toNat then s.refuseStale m
    else f s)

/-- EGRESS_INDEX (R291). -/
def execEgressIndex (i : IndexWrite) (s : State) : Host.Outcome State Fault Refusal :=
  match i with
  | .doorbell ring count => .next (if s.rst.hostReset || !s.up then s else s.takeIndex (s.hostRing? ring.toNat) ring.toNat count.toNat)
  | .message m => .next (s.takeHbMsg 0x21 m 8 (fun s =>
    s.takeIndex (s.fabricRing? m.qp m.part.toNat) m.part.toNat (m.rsv.setWidth 64).toNat))

end Sys2Proof.Machine
end

