-- ==== Sys2Proof/Machine/Twin.lean ====
section
/-! DEFINITION. The twin pair (R328 to R346): leases, replica log, resync, fencing and takeover. -/

namespace Sys2Proof.Machine

open Sys2Proof

/-! ### Leases (Table 13.8, R341, R342) -/

def State.leaseReels (s : State) : Nat := s.furn 0x4C000D 256
def State.leaseGuard (s : State) : Nat := s.furn 0x4C000E 16

/-- The expiry a grant or a renewal sets. -/
def State.newExpiry (s : State) : BitVec 48 :=
  let v := s.hb.reel.toNat + s.leaseReels
  BitVec.ofNat 48 (if v < 2 ^ 48 then v else 2 ^ 48 - 1)

/-- A lease record: OP 1 GRANT, 2 RENEW, 3 RELEASE, 4 REVOKE. -/
def Lease.bytes (l : Lease) (op : Nat) : Bytes :=
  record 32 [(0, 1, l.kind.toNat), (1, 1, op), (4, 4, l.object.toNat), (8, 8, l.number.toNat),
    (0x10, 4, l.holderGen.toNat), (0x18, 8, l.expiry.toNat)]

def State.sendLease (s : State) (l : Lease) (op : Nat) : State := s.sendFrame 7 (l.bytes op)

def State.lease? (s : State) (mine : Bool) (kind : BitVec 8) (object : BitVec 32) : Option Lease :=
  s.twin.leases.find? (fun l => l.mine = mine && l.kind = kind && l.object = object)

def State.dropLease (s : State) (mine : Bool) (kind : BitVec 8) (object : BitVec 32) : State :=
  { s with twin := { s.twin with
      leases := s.twin.leases.filter (fun l => !(l.mine = mine && l.kind = kind && l.object = object)) } }

def State.putLease (s : State) (l : Lease) : State :=
  let s := s.dropLease l.mine l.kind l.object
  { s with twin := { s.twin with leases := s.twin.leases ++ [l] } }

/-- The expiry entry of a lease in the root delay list. -/
def State.clearExpiry (s : State) (l : Lease) : State :=
  { s with hb := { s.hb with delays := s.hb.delays.filter (fun d => !(d.kind = 1 && d.object = l.number.toNat)) } }

def State.armExpiry (s : State) (l : Lease) : Option State :=
  (s.clearExpiry l).addDelay { value := l.expiry.toNat, kind := 1, object := l.number.toNat, list := 0 }

/-- As the authority, grant the twin a lease it does not hold; a full delay list refuses it (HB_DELAY_FULL). -/
def State.grantLease (s : State) (kind : BitVec 8) (object : BitVec 32) : State :=
  if (s.lease? false kind object).isSome then s
  else
    let l : Lease := { kind := kind, object := object, number := s.twin.leaseNext, holderGen := s.genOf s.twinId,
                       expiry := s.newExpiry, mine := false, stopped := false }
    match s.armExpiry l with
    | none => s.logEvent 0x0814 l.object.toNat
    | some s =>
      let s := s.putLease l
      ({ s with twin := { s.twin with leaseNext := l.number + 1 } }).sendLease l 1

/-! ### Takeover of one resource (R341, R343, R344) -/

/-- A table with the rows of a shard as the replica holds them. -/
def State.fromReplica (s : State) (t : Table) (shard : Nat) : Table :=
  (s.twin.replica.filter (fun r => r.1 = t.id && t.shardOf r.2.1 = shard)).foldl (fun t r => t.setRow r.2.1 r.2.2) t

/-- Serve a shard of the twin from the replica, in tier B (R343, step 3). -/
def State.takeShard (s : State) (t : BitVec 16) (shard : Nat) : State :=
  match s.table? t with
  | none => s
  | some u =>
    let u := { s.fromReplica u shard with homes := Assoc.set s.self u.homes shard s.self }
    let place := s.rst.shardPlace.filter (fun p => !(p.1 = t && p.2.1.toNat = shard))
    let s := { s.setTable u with rst := { s.rst with shardPlace := place ++ [(t, BitVec.ofNat 16 shard, 4)] } }
    s.forgetRows (fun t' r => t' = t && u.shardOf r = shard)

/-- The mirrored ring of a flow, and the BATCH and CONS_INDEX of its latest RELEASE record. -/
def State.mirrorOf (s : State) (flow : BitVec 20) : Option (Mirror × Nat × Nat) :=
  match s.twin.mirrors.find? (fun m => m.kind = 1 && m.flow = flow.setWidth 32) with
  | none => none
  | some r =>
    match s.twin.mirrors.find? (fun m => m.kind = 2 && m.flow = flow.setWidth 32) with
    | none => some (r, 0, 0)
    | some m => some (r, m.w0.toNat + 1, m.w1.toNat)

/-- Carry on a flow of the twin from the mirror (R344): its batches from CONS_INDEX on are computed and written again. A
host-port ring, or one without a standby queue pair, stops the flow (TWIN_EGRESS_LOST). -/
def State.takeFlow (s : State) (flow : BitVec 20) : State :=
  match s.flow? flow, s.mirrorOf flow with
  | some (_, f), some (m, written, cons) =>
    if m.rkey = 0 || m.standby = 0 then s.stopFlow flow 0x0A0A
    else
      let n : BitVec 12 := m.ring.setWidth 12
      let r : Ring := { number := n, flow := flow, base := m.w0, comp := m.w1, slots := m.slots.toNat,
                        slotBytes := m.slotBytes.toNat, rkey := m.rkey, consQpn := m.standby, standby := 0,
                        finished := cons, written := written }
      let f := { f with next := cons, ahead := [], released := cons, egressed := cons, ring := some n,
                        rewrite := written, stopped := false, lost := none }
      let s := { s with hb := { s.hb with rings := s.hb.rings.filter (fun (x : Ring) => x.flow ≠ flow) ++ [r] } }
      (s.setFlow f).armRelease f.decl cons
  | _, _ => s

/-- The authority ends a lease: the resource passes to it (R341). -/
def State.endLease (s : State) (l : Lease) : State :=
  let s := (s.dropLease false l.kind l.object).clearExpiry l
  if l.kind = 1 then s.takeFlow (l.object.setWidth 20)
  else if l.kind = 2 then s.takeShard (l.object.extractLsb' 16 16) (l.object.extractLsb' 0 16).toNat
  else s

/-- LEASE_EXPIRY (R341): the authority ends the lease when the reel has reached EXPIRY. -/
def execLeaseExpiry (kind : BitVec 8) (object : BitVec 32) (s : State) : Host.Outcome State Fault Refusal :=
  match s.lease? false kind object with
  | some l => if l.expiry.toNat ≤ s.hb.reel.toNat then .next (s.endLease l) else .next s
  | none => .next s

/-- LEASE_RENEW (R341): the holder asks for a renewal once the reel has passed EXPIRY − LEASE_REELS ÷ 2. -/
def execLeaseRenew (kind : BitVec 8) (object : BitVec 32) (s : State) : Host.Outcome State Fault Refusal :=
  match s.lease? true kind object with
  | some l => if l.expiry.toNat < s.hb.reel.toNat + s.leaseReels / 2 then .next (s.sendLease l 2) else .next s
  | none => .next s

/-- LEASE_GUARD (R341): without a renewal the holder stops acting at EXPIRY − LEASE_GUARD. -/
def execLeaseGuard (kind : BitVec 8) (object : BitVec 32) (s : State) : Host.Outcome State Fault Refusal :=
  match s.lease? true kind object with
  | some l =>
    if l.expiry.toNat ≤ s.hb.reel.toNat + s.leaseGuard then .next (s.putLease { l with stopped := true }) else .next s
  | none => .next s

/-- A lease record as read. -/
def leaseOf (b : Bytes) : Nat × Lease :=
  (fieldAt b 1 1,
   { kind := BitVec.ofNat 8 (fieldAt b 0 1), object := BitVec.ofNat 32 (fieldAt b 4 4),
     number := BitVec.ofNat 64 (fieldAt b 8 8), holderGen := BitVec.ofNat 32 (fieldAt b 0x10 4),
     expiry := BitVec.ofNat 48 (fieldAt b 0x18 8), mine := false, stopped := false })

/-- The twin's renewal or release of a lease it holds; one with another number is refused. -/
def State.takeHeld (s : State) (op : Nat) (l a : Lease) : State :=
  if a.number ≠ l.number then s.logEvent 0x0A09 l.object.toNat
  else if op = 2 then
    let a := { a with expiry := s.newExpiry }
    match s.armExpiry a with
    | some s => (s.putLease a).sendLease a 2
    | none => s.logEvent 0x0814 l.object.toNat
  else if op = 3 then (s.dropLease false a.kind a.object).clearExpiry a
  else s

/-- Receive one lease record: a grant or revocation by the authority, a renewal either way, or a holder's release; one with
another lease number than the current one is refused (TWIN_LEASE_STALE, R342). -/
def State.takeLease (s : State) (b : Bytes) : State :=
  let (op, l) := leaseOf b
  if op = 1 then s.putLease { l with mine := true }
  else match s.lease? true l.kind l.object, s.lease? false l.kind l.object with
    | some h, a =>
      if h.number = l.number then
        if op = 2 then s.putLease { h with expiry := l.expiry, stopped := false }
        else if op = 4 then s.putLease { h with stopped := true }
        else s
      else match a with
        | some a => s.takeHeld op l a
        | none => s.logEvent 0x0A09 l.object.toNat
    | none, some a => s.takeHeld op l a
    | none, none => s.logEvent 0x0A09 l.object.toNat

/-! ### The replica log (R333, R334) -/

/-- Bytes of DATA of a record: rows at the table's stored size, or all that is left where the table is not known. -/
def State.logDataLen (s : State) (table : BitVec 16) (kind count left : Nat) : Nat :=
  if kind = 1 then
    match s.table? table with
    | some t => count * (64 + t.stored)
    | none => left
  else if kind = 2 then 64
  else if kind = 4 then 96 * count
  else 0

/-- The records of a LOG or RESYNC payload; padding zeros end it. -/
def State.logRecords (s : State) : Nat → Bytes → List LogRec
  | 0, _ => []
  | fuel + 1, b =>
    if b.length < 32 || fieldAt b 0 8 = 0 then []
    else
      let table := BitVec.ofNat 16 (fieldAt b 8 2)
      let n := s.logDataLen table (fieldAt b 0xA 1) (fieldAt b 0xC 4) (b.length - 32)
      { lsn := BitVec.ofNat 64 (fieldAt b 0 8), table := table, kind := BitVec.ofNat 8 (fieldAt b 0xA 1),
        count := BitVec.ofNat 32 (fieldAt b 0xC 4), epoch := BitVec.ofNat 32 (fieldAt b 0x10 4),
        data := (b.drop 32).take n } :: State.logRecords s fuel (b.drop (32 + n))

/-- Put a row into the replica. -/
def State.replicaRow (s : State) (t : BitVec 16) (r : Nat) (b : Bytes) : State :=
  let rest := s.twin.replica.filter (fun x => !(x.1 = t && x.2.1 = r))
  { s with twin := { s.twin with replica := rest ++ [(t, r, b)] } }

/-- The rows of a ROWS record: number and stored row. -/
def LogRec.rows (r : LogRec) : List (Nat × Bytes) :=
  let n := r.count.toNat
  let size := if n = 0 then 0 else r.data.length / n
  (List.range n).map (fun i =>
    let b := (r.data.drop (size * i)).take size
    (fieldAt b 0 8, b.drop 64))

/-- A row that the twin sends for a shard homed here by this module's own tables was served by the twin meanwhile: the twin's content
is authoritative (R370), and the table stands at the close the record names. What this module itself has taken over stays. -/
def State.ownRow (s : State) (t : Table) (epoch r : Nat) (b : Bytes) : State :=
  if s.shardTaken t (t.shardOf r) then s
  else
    let u := t.setRow r b
    let v := (epoch + 1) % 2 ^ 32
    (s.setTable { u with bad := Assoc.erase u.bad r, version := if u.version < v then v else u.version }).forgetRows
      (fun t' r' => t' = t.id && r' = r)

/-- Apply one record to the replica (Table 13.6). -/
def State.applyLog (s : State) (r : LogRec) : State :=
  let s := { s with twin := { s.twin with lsnApplied := r.lsn } }
  if r.kind = 1 then
    r.rows.foldl (fun s x =>
      match s.table? r.table with
      | some t =>
        if !t.replicated && (t.homeOf x.1 s.self).isNone then s.ownRow t r.epoch.toNat x.1 (x.2.take t.rowBytes)
        else (s.replicaRow r.table x.1 (x.2.take t.rowBytes)).grantLease 2
          (BitVec.ofNat 32 (r.table.toNat * 65536 + t.shardOf x.1))
      | none => s.replicaRow r.table x.1 x.2) s
  else if r.kind = 2 then
    if (s.table? r.table).isSome then s
    else
      let t := tableOf r.data none
      let shards := if t.shardRows = 0 then 0 else ceilDiv t.nrows t.shardRows
      let homes := (List.range shards).foldl (fun h d => Assoc.set s.self h d s.twinId) []
      { s with felt := { s.felt with tables := s.felt.tables ++ [{ t with homes := homes }] } }
  else if r.kind = 3 then
    { s with twin := { s.twin with replica := s.twin.replica.filter (fun x => x.1 ≠ r.table) },
             felt := { s.felt with tables := s.felt.tables.filter (fun t => !(t.id = r.table && t.job = none)) } }
  else if r.kind = 4 then
    let rs := (List.range r.count.toNat).map (wmRecordAt r.data)
    let sets := s.wm.sets.map (fun x =>
      if x.id = r.table then { x with entries := rs.foldl applyRecord x.entries } else x)
    ({ s with wm := { s.wm with sets := sets } } : State).grantLease 3 (r.table.setWidth 32)
  else s

/-- Apply every held record in LSN order. -/
def State.applyHeld (s : State) : State :=
  s.twin.logHeld.foldl State.applyLog { s with twin := { s.twin with logHeld := [] } }

/-- LOG_ACK: the highest LSN held and applied. -/
def State.ackLog (s : State) : State :=
  s.sendFrame 3 (leBytes 8 s.twin.lsnHeld.toNat ++ leBytes 8 s.twin.lsnApplied.toNat)

/-- Hold the records that follow the ones held, and acknowledge them. -/
def State.holdLog (s : State) (payload : Bytes) : State :=
  let s := (s.logRecords (payload.length / 32 + 1) payload).foldl (fun s r =>
    if r.lsn = s.twin.lsnHeld + 1 then
      { s with twin := { s.twin with lsnHeld := r.lsn, logHeld := s.twin.logHeld ++ [r] } }
    else s) s
  s.ackLog

/-- LOG_APPLY (R333). -/
def execLogApply (s : State) : Host.Outcome State Fault Refusal :=
  if s.twin.logHeld.isEmpty then .next s else .next s.applyHeld.ackLog

/-- Closes that waited for the twin's log complete, and a job that had ended but for them is unloaded. -/
def State.endWaits (s : State) (done : List CloseWait) : State :=
  if done.isEmpty then s else (done.foldl State.closeWaited s).unloadEnded

/-- The twin holds records up to `held` and has applied those up to `applied`: waiting closes complete (R333). -/
def State.logHeldAt (s : State) (held applied : BitVec 64) : State :=
  let s := { s with twin := { s.twin with
    lsnAcked := if s.twin.lsnAcked.toNat < held.toNat then held else s.twin.lsnAcked,
    logOut := s.twin.logOut.filter (fun r => applied.toNat < r.1.toNat) } }
  s.endWaits (s.felt.waiting.filter (fun w => w.lsn ≤ s.twin.lsnAcked.toNat))

/-! ### Resync (Table 13.10, R334) -/

/-- Rows of a table that a resync gives the twin and whose read does not fail (R23), with content of their own; rows never written
are zeros on both sides. -/
def State.resyncRows (s : State) (t : Table) : List (Nat × Bytes) :=
  t.rows.filter (fun r => s.resynced t r.1 && !s.rowBad t r.1)

/-- A table registered outside any job, whose shards have a replica, is named to the twin before its rows (R370, Table 13.6;
log entry 174). -/
def Table.named (t : Table) : Bool := t.job.isNone && !t.replicated && t.kind ≠ 3

/-- Send a table's rows to the twin in RESYNC records, under its latest close, 0xFFFFFFFF for none. A row of a job's table that cannot
be read stops the job (R23). -/
def State.resyncTable (s : State) (t : Table) : State :=
  let s := if t.rows.any (fun r => s.resynced t r.1 && s.rowBad t r.1) then
      (match t.job with
       | some j => (s.notePoison poisonStatus).stopJob j 0x0530
       | none => s.notePoison poisonStatus)
    else s
  let s := if t.named then s.sendLog 9 t.id 2 1 0 t.record else s
  s.sendRows 9 t (2 ^ 32 + t.version - 1) (s.resyncRows t)

/-- Start the resync of a new generation pair: log, mirror and leases anew, RESYNC records of the shards, and the mirror
of every ring. Closes that waited for a replica now to be written anew complete (log entry 118). -/
def State.startResync (s : State) : State :=
  let s := s.endWaits s.felt.waiting
  let s := { s with twin := { s.twin with
    state := .resync, lsnTx := 0, lsnAcked := 0, lsnHeld := 0, lsnApplied := 0, logHeld := [], logOut := [],
    replica := [], mirrors := [], mseqTx := 0, mseqAcked := 0, mseqLog := [], leases := [] } }
  let s := { s with hb := { s.hb with delays := s.hb.delays.filter (fun (d : DelayEntry) => d.kind ≠ 1) } }
  let s := s.felt.tables.foldl State.resyncTable s
  s.hb.rings.foldl (fun s r => (s.mirrorRing r).mirrorRelease r) s

/-- The pair is whole once the twin has applied every record sent and is in RESYNC or PAIRED itself (log entry 46). -/
def State.pairUp (s : State) (applied : BitVec 64) : State :=
  if s.twin.state = .resync && (s.twin.peerState = .resync || s.twin.peerState = .paired) &&
      s.twin.lsnTx.toNat ≤ applied.toNat
  then { s with twin := { s.twin with state := .paired } } else s

/-! ### Takeover (R343 to R346) -/

/-- Jobs that run on a module too. -/
def State.jobsWith (s : State) (m : BitVec 14) : List Job := s.hb.jobs.filter (fun j => j.modules.contains m)

/-- The lowest round of an exchange that a batch not yet finished still needs. -/
def State.neededRound (s : State) (j : Job) (e : ExchRec) : Nat :=
  let rs := j.flows.filterMap (fun g =>
    let feeds : Bool := decide (g.decl.trigger = (4 : BitVec 8)) && decide ((j.collectExch g.decl).map ExchRec.exch = some e.exch)
    if g.decl.batch && feeds then
      match s.flow? g.decl.flow with
      | some (_, f) => some (f.egressed * f.decl.span / e.roundRows)
      | none => none
    else none)
  (lowest rs).getD 0

/-- Rows of a fenced holder for rounds it had not ended are discarded (R345), and no longer counted. -/
def Exch.dropUnended (x : Exch) (v : BitVec 14) : Exch :=
  let keep : RxRows → Bool := fun t => t.src ≠ v || x.ended.any (fun g => g.1 = v && g.2.1 = t.round)
  let gone := (x.staged ++ x.slots).filter (fun t => !keep t)
  { x with staged := x.staged.filter keep, slots := x.slots.filter keep, got := x.got.filter (fun g => g.1 ≠ v),
           rowsIn := gone.foldl (fun m t => Assoc.set 0 m t.part (Assoc.get 0 m t.part - t.rows)) x.rowsIn }

/-- The partitions of an exchange that a module homes. -/
def State.partsAt (s : State) (j : Job) (e : ExchRec) (v : BitVec 14) : List Nat :=
  match s.exch? j.job e.exch.toNat with
  | none => []
  | some x => (List.range e.parts).filter (fun p => Assoc.get s.self x.homes p = v)

/-- Home a fenced module's partitions of an exchange here: every round still needed is to come again, and HOLDER_STATE
goes to every holder; this module, as a holder itself, sends what it retains and creates the SOURCE items of what it no longer
retains again (R343, step 4; R345). -/
def State.takePartitions (s : State) (j : Job) (e : ExchRec) (v : BitVec 14) : State :=
  match s.exch? j.job e.exch.toNat with
  | none => s
  | some x =>
    let ps := s.partsAt j e v
    let lo := s.neededRound j e
    let x := x.dropUnended v
    let x := ps.foldl (fun x p =>
      { (x.rehome s.self s.self p).awaitAgain p lo with base := Assoc.set 0 x.base p lo }) x
    let s := s.setExch x
    let s := ps.foldl (fun s p => s.holderResends j e p lo s.self) s
    let others := j.modules.filter (fun m => m ≠ s.self && m ≠ v)
    ps.foldl (fun s p => others.foldl (fun s m =>
      s.sendMsg 0x43 (s.newMsg 0x43 m (j.exchClass e) 0 j.job (BitVec.ofNat 32 p) 0 0 (BitVec.ofNat 32 lo) [])) s) s

/-- The rounds of a fenced module's items still to be sent: those it had not ended to this module, and those its own
partitions need. -/
def State.lostRounds (s : State) (j : Job) (e : ExchRec) (v : BitVec 14) : List Nat :=
  match s.exch? j.job e.exch.toNat with
  | none => []
  | some x => ((List.range (j.rounds e)).filter (fun r =>
      s.neededRound j e ≤ r || !x.ended.any (fun g => g.1 = v && g.2.1 = r)))

/-- A fenced module was a holder of a round: of its inputs, or by the partitions it homed. -/
def State.victimHolds (s : State) (j : Job) (e : ExchRec) (v : BitVec 14) (r : Nat) : Bool :=
  (j.senders e).any (fun f => (j.roundItems e f.decl r).any (fun q =>
    if f.decl.trigger = 3 then s.assigned j f.decl q v else Config.assigned j.job f.decl.flow q v))

/-- A round of a fenced holder goes whole, with its END, to every home this module has ended the round to (R345). -/
def State.owesAgain (s : State) (j : Job) (e : ExchRec) (v : BitVec 14) (r : Nat) : State :=
  match s.exch? j.job e.exch.toNat with
  | none => s
  | some x =>
    let homes := (x.dests j e s.self).filter (fun m => m ≠ v && r < Assoc.get 0 x.txRound m.toNat)
    s.setExch { x with redo := (x.redo ++ homes.map (fun m => (m, none, r))).eraseDups,
                       ended := x.ended.filter (fun g => !(g.1 = s.self && g.2.1 = r)) }

/-- Items of a job's inputs cannot be read from this module's tier C (R330). -/
def State.inputAbsent (s : State) (j : Job) : Bool :=
  j.inputs.any (fun i => i.chunks.any (fun c => (s.tierCRead c.nsid c.lba (ceilDiv (c.off + c.bytes) 4096)).isNone))

/-- The victim's source items of a round, and the ROUND items of its partitions, are to be created here (R345). -/
def State.takeRound (s : State) (j : Job) (e : ExchRec) (v : BitVec 14) (ps : List Nat) (r : Nat) : State :=
  let s := (j.senders e).foldl (fun s f =>
    if f.decl.trigger = 3 then s
    else s.recreate f.decl.flow ((j.roundItems e f.decl r).filter (fun q => Config.assigned j.job f.decl.flow q v))) s
  if s.neededRound j e ≤ r then
    (j.roundFlows e).foldl (fun s f => s.recreate f.decl.flow (ps.map (fun p => r * e.parts + p))) s
  else s

/-- Take over an exchange: its partitions, then the rounds still to come, `held` being those the fenced module held. -/
def State.takeExch (s : State) (j : Job) (v : BitVec 14) (h : ExchRec × List Nat) : State :=
  let ps := s.partsAt j h.1 v
  let rounds := s.lostRounds j h.1 v
  rounds.foldl (fun s r =>
    let s := s.takeRound j h.1 v ps r
    if h.2.contains r then s.owesAgain j h.1 v r else s) (s.takePartitions j h.1 v)

/-- Take over a job of the fenced twin, its descriptors created again from the Plaud (R134, R343 to R345). Whether an input file
differs from the one the twin had is free (R330, log entry 131). -/
def State.takeJob (s : State) (j : Job) (v : BitVec 14) : State :=
  let differs := j.inputs ≠ [] && Config.freeBool s.free 2
  let s := s.drawn
  if s.inputAbsent j || differs then s.stopJob j.job 0x0A06
  else
    let held := j.exchanges.map (fun e => (e, (List.range (j.rounds e)).filter (s.victimHolds j e v)))
    let s := s.makeDescs j
    let s := j.flows.foldl (fun s f => if f.decl.batch then s.takeFlow f.decl.flow else s) s
    held.foldl (fun s h => s.takeExch j v h) s

/-- The takeover after a committed fence; without a whole pair every job with state on the victim stops
(R346). Closes that waited for the victim's log complete (log entry 118). -/
def State.takeover (s : State) (v : BitVec 14) : State :=
  let jobs := s.jobsWith v
  if v ≠ s.twinId || s.twin.state ≠ .paired then jobs.foldl (fun s j => s.stopJob j.job 0x0A0B) s
  else
    let held := s.twin.leases.filter (fun l => !l.mine)
    let s := held.foldl (fun s l => ((s.sendLease l 4).dropLease false l.kind l.object).clearExpiry l) s
    let s := s.applyHeld
    let s := { s with twin := { s.twin with state := .takeover, couchUp := false,
                                            couchDown := false, suspect := false, probe := none, hold := false },
                      fab := { s.fab with fenceSeen := (v :: s.fab.fenceSeen).eraseDups } }
    let s := s.endWaits s.felt.waiting
    let shards := s.felt.tables.flatMap (fun t =>
      (t.homes.filter (fun h => h.2 = v)).map (fun h => (t.id, h.1)))
    let s := shards.foldl (fun s d => s.takeShard d.1 d.2) s
    ((jobs.filter (fun j => j.stopped.isNone)).foldl (fun s j => s.takeJob j v) s).bump 0x4C0011 1

/-! ### Fencing (R339) -/

/-- Peers of the jobs a module runs. -/
def State.fencePeers (s : State) (v : BitVec 14) : List (BitVec 14) :=
  ((s.jobsWith v).flatMap (·.modules)).eraseDups.filter (fun m => m ≠ s.self && m ≠ v)

def State.setFence (s : State) (f : Fence) : State :=
  { s with twin := { s.twin with fences := s.twin.fences.map (fun x => if x.id = f.id then f else x) } }

/-- A fence every peer has acknowledged is committed. -/
def State.commitFence (s : State) (f : Fence) : State :=
  if f.awaiting.isEmpty && !f.committed then (s.setFence { f with committed := true }).takeover f.victim
  else s.setFence f

/-- FENCE_NOTICE to a peer. -/
def State.sendNotice (s : State) (f : Fence) (peer : BitVec 14) : State :=
  s.sendMsg 0x40 (s.newMsg 0x40 peer 2 0 0 (f.victim.setWidth 32) 0 f.id f.gen [])

/-- FENCE_NOTICE goes to a silent peer again, on every active port (R339). -/
def State.noticeAgain (s : State) (f : Fence) (peer : BitVec 14) : State :=
  if s.fab.stopped || f.again.contains peer then s
  else
    let m := s.newMsg 0x40 peer 2 0 0 (f.victim.setWidth 32) 0 f.id f.gen []
    let s := (activePorts s.fab.ports).foldl (fun s p => s.emit (.fabricOn p 0x40 m)) s
    s.setFence { f with again := f.again ++ [peer] }

/-- Every silent peer of a fence under way is noticed again. -/
def State.noticesAgain (s : State) : State :=
  (s.twin.fences.filter (fun f => !f.committed)).foldl (fun s f =>
    f.awaiting.foldl (fun s p => match s.twin.fences.find? (fun g => g.id = f.id) with
      | some g => s.noticeAgain g p
      | none => s) s) s

/-- FENCE_NOTICE to the orchestrator. -/
def State.noticeOrch (s : State) (f : Fence) : State :=
  if s.fab.stopped then s else s.emit (.orchNotice f.victim f.gen f.id)

/-- Fence the twin: its entry rises, a FENCE frame goes on the link, and FENCE_NOTICE to every peer of its jobs and to the
orchestrator. -/
def State.startFence (s : State) : State :=
  let v := s.twinId
  if s.twin.fences.any (fun f => f.victim = v && !f.committed) then s
  else
    let g := s.genOf v + 1
    let f : Fence := { victim := v, gen := g, id := s.twin.fenceNext, awaiting := s.fencePeers v, acked := [],
                       lost := [], again := [], committed := false }
    let s := (s.raiseGen v g).sendFrame 6 (leBytes 4 g.toNat ++ zeros 4)
    let s := { s with twin := { s.twin with fences := s.twin.fences ++ [f], fenceNext := f.id + 1, suspect := false,
                                            probe := none, hold := false } }
    ((f.awaiting.foldl (fun s p => s.sendNotice f p) s).noticeOrch f).commitFence f

/-! ### REMAP (R134, R196, R322, R343) -/

/-- New homes of shards (R231): the row's lookups change with it. A shard that comes here from the twin has the rows of the replica,
and one taken over that goes is no longer held in tier B (log entry 174). -/
def State.remapShard (s : State) (u : BitVec 16 × BitVec 16 × BitVec 14) : State :=
  match s.table? u.1 with
  | none => s
  | some t =>
    let d := u.2.1.toNat
    let back := u.2.2 = s.self && Assoc.get s.self t.homes d = s.twinId
    let t' := if back then s.fromReplica t d else t
    let s := s.setTable { t' with homes := Assoc.set s.self t.homes d u.2.2 }
    let s := { s with
      rst := { s.rst with shardPlace := if u.2.2 = s.self then s.rst.shardPlace
        else s.rst.shardPlace.filter (fun p => !(p.1 = u.1 && p.2.1.toNat = d && p.2.2 = 4)) },
      twin := { s.twin with replica := if back then
        s.twin.replica.filter (fun r => !(r.1 = u.1 && t.shardOf r.2.1 = d)) else s.twin.replica } }
    s.forgetRows (fun t' r => t' = u.1 && t.shardOf r = d)

/-- REMAP: modules that get work again act for themselves from now on; queue pairs are opened to those new to the job, and where
flows, partitions or shards come here the job's descriptors are created again from its Plaud. -/
def execRemap (u : RemapUpdate) (s : State) : Host.Outcome State Fault Refusal :=
  match s.job? u.job with
  | none => .next s
  | some j =>
    let homes := u.parts.map (·.2.2) ++ u.shards.map (·.2.2) ++ u.flows.map (·.2)
    let mods := (j.modules ++ homes).eraseDups
    let j := { j with modules := mods }
    let s := (s.setJob j).connectPeers mods
    let s := { s with fab := { s.fab with
      fenceSeen := s.fab.fenceSeen.filter (fun m => !homes.contains m),
      peers := (s.fab.peers ++ mods.filter (fun m => m ≠ s.self)).eraseDups } }
    let s := u.parts.foldl (fun s p => s.remapPart u.job p) s
    let s := u.shards.foldl State.remapShard s
    let s := u.flows.foldl State.remapFlow s
    .next (if homes.contains s.self then s.makeDescs j else s)

end Sys2Proof.Machine
end

