-- ==== Sys2Proof/Machine/Headbox.lean ====
section
/-! DEFINITION. The Headbox (11, R326): job commands, class A requests, ingress, creating and dispatching items, cores
that become idle, the class A windows, and the reel clock with its delay lists. -/

namespace Sys2Proof.Machine

open Sys2Proof

/-! ### Job commands (R272, R378) -/

/-- Check and load a Plaud: the first completion with its code, final when it is rejected; then the job starts. -/
def State.submit (s : State) (tag : BitVec 32) (image : Bytes) : State :=
  match s.loadPlaud tag false image with
  | .error c => s.complete tag c true (plaudJob image) 0
  | .ok s => (s.complete tag 0 false (plaudJob image) 0).startJob (plaudJob image) image

/-- SUBMIT_PLAUD (R272, R378). -/
def execSubmitPlaud (tag : BitVec 32) (image : Bytes) (s : State) : Host.Outcome State Fault Refusal :=
  .next (s.takeCmd (.submitPlaud tag image) tag (fun s => s.submit tag image))

/-- ABORT_JOB (R378): the job stops with CMD_ABORTED; the command completes with success. -/
def execAbortJob (tag : BitVec 32) (job : BitVec 64) (s : State) : Host.Outcome State Fault Refusal :=
  .next (s.takeCmd (.abortJob tag job) tag (fun s => (s.stopJob job 0x0C0C).complete tag 0 true job 0))

/-! ### Class A requests (R326, R317, R318) -/

/-- Condition 1 of Table 12.5 for a payload of Table 13.3. -/
def State.classAWide (s : State) (payload : Bytes) : Bool :=
  let elems := match s.table? (BitVec.ofNat 16 (fieldAt payload 0 2)) with | some t => t.elems | none => 0
  64 < fieldAt payload 4 4 || 512 < elems * etypeBytes (fieldAt payload 2 1)

/-- The flow of a class A request. -/
def State.classAFlow (s : State) (flow : BitVec 32) : Option (Job × FlowRun) :=
  if 2 ^ 20 ≤ flow.toNat then none
  else match s.flow? (flow.setWidth 20) with
    | some (j, f) => if f.decl.isA && j.stopped.isNone && !j.finalSent then some (j, f) else none
    | none => none

/-- The class A reservation of the flow is exhausted: its share of WINDOW items is held (R315). -/
def State.classAFull (s : State) (f : FlowRun) : Bool :=
  f.decl.window ≤ (s.hb.items.filter (fun it => it.key.flow = f.decl.flow)).length

/-- Count a request that is received in the window which runs (R317). -/
def State.countRequest (s : State) : State := { s with hb := { s.hb with winRequests := s.hb.winRequests + 1 } }

/-- Create the item of a request, its payload in a record of its own; none while it is held back, for want of room or in a detach.
`h` is the receive buffer it has waited in, if any: such a request has been counted, and belongs to the window it came in (R318). -/
def State.classAItem (s : State) (j : Job) (f : FlowRun) (payload : Bytes) (reply : Reply) (h : Option HeldReq) : Option State :=
  if s.classAFull f || !s.working then none
  else match s.newAlloc j.job false false (roundUpTo (payload.length + 1) 64) with
    | none => none
    | some (num, base, s) =>
      let s := s.memWrite base payload
      let input : Input := { addr := base, bytes := payload.length, alloc := num }
      let q := f.next
      match s.createItem j f q [input] none reply with
      | none => none
      | some s =>
        let key := keyOf f.decl.flow q
        let s := if h.isNone then s.countRequest else s
        let s := if (h.map (·.fresh)).getD true then { s with hb := { s.hb with winItems := s.hb.winItems ++ [key] } } else s
        match s.item? key with
        | some it => some (s.setItem { it with degraded := (h.map (·.failed)).getD s.hb.winPrevFailed || s.classAWide payload })
        | none => some s

/-- Run a request as one item of its flow; a flow that is not loaded or not of class A is answered at once. -/
def State.classARequest (s : State) (flow : BitVec 32) (payload : Bytes) (reply : Reply) (h : Option HeldReq) : Option State :=
  match s.classAFlow flow with
  | none =>
    let s := if h.isNone then s.countRequest else s
    some (s.answerClassA reply 0 0x0816 [])
  | some (j, f) => s.classAItem j f payload reply h

/-- CLASSA (R326): the command stays in the ring while the request is held back, and with it every command behind it
(R289). -/
def execClassa (tag : BitVec 32) (flow : BitVec 32) (payload : Bytes) (room : BitVec 64) (s : State) :
    Host.Outcome State Fault Refusal :=
  let c : Instr := .classa tag flow payload room
  .next (s.takeCmd c tag (fun t => (t.classARequest flow payload (.host tag room.toNat) none).getD (s.ringWait c)))

/-- Class A lines that a window may read at a level (condition 4 of Table 12.5). -/
def windowLines (level : Nat) : Nat := 8800 * level

/-- The level a window counts from: the floor while a die is stretched (R393). -/
def State.levelNow (s : State) : Nat := if s.pow.stretched = 0 then s.pow.level else 8

/-- CLASSA_WINDOW (R317, R318): conditions 3 and 4 are judged over the window; its requests, those still held among them, and those of
the next window are marked where it failed; requests whose runs have been accepted are answered. -/
def execClassaWindow (s : State) : Host.Outcome State Fault Refusal :=
  let failed := decide (50 < s.hb.winRequests) || decide (windowLines s.hb.winLevel < s.hb.winLines)
  let keys := s.hb.winItems
  let mark : Item → Item := fun it => if keys.contains it.key && failed then { it with degraded := true } else it
  let judge : HeldReq → HeldReq := fun h => { h with failed := h.failed || (h.fresh && failed), fresh := false }
  let s := { s with fab := { s.fab with heldA := s.fab.heldA.map judge }, hb := { s.hb with
    items := s.hb.items.map mark, winRequests := 0, winLines := 0, winPrevFailed := failed, winLevel := s.levelNow,
    winItems := [] } }
  .next (keys.foldl (fun s k =>
    match s.item? k with
    | some it => if it.phase = .accepted then s.serveClassA it else s
    | none => s) s)

/-! ### Ingress (R274, R287) -/

/-- Work of a job goes on: it has not stopped or ended. -/
def Job.live (j : Job) : Bool := j.stopped.isNone && !j.finalSent

/-- An item may be made: the job is live, the flow is this module's and the item lies in its window, is this module's to
run and has not been made. -/
def State.mayCreate (s : State) (j : Job) (f : FlowRun) (q : Nat) : Bool :=
  j.live && s.working && !f.stopped && !f.decl.isA && q < f.decl.items && !f.created q && s.assigned j f.decl q s.self &&
    q < s.flowBase j f + f.decl.window

/-- Put a chunk before the first one of no lower ordinal. -/
def placeChunk (c : Chunk) : List Chunk → List Chunk
  | [] => [c]
  | d :: ds => if c.first ≤ d.first then c :: d :: ds else d :: placeChunk c ds

/-- Column chunks a SOURCE item needs, in COLS bit order and then in ordinal order (R278). -/
def InputRec.chunksOf (i : InputRec) (lo hi : Nat) : List Chunk :=
  let mine := i.chunks.filter (fun c => c.first < hi && lo < c.first + c.rows)
  (List.range 64).flatMap (fun c => (mine.filter (fun k => k.col = c)).foldr placeChunk [])

/-- The chunks fit the item's part of the staging share, SPAN × BYTES_PER_ORDINAL (R287). -/
def FlowRun.stageFits (f : FlowRun) (cs : List Chunk) : Bool :=
  cs.foldl (fun a c => a + c.bytes) 0 ≤ f.decl.span * f.bpo

/-- A chunk's bytes from tier C; none when a block cannot be read. -/
def State.chunkBytes (s : State) (c : Chunk) : Option Bytes :=
  let first := c.off / 4096
  let n := ceilDiv (c.off % 4096 + c.bytes) 4096
  (s.tierCRead c.nsid (c.lba + BitVec.ofNat 64 first) n).map (fun b => (b.drop (c.off % 4096)).take c.bytes)

/-- Stage chunks into records of the job: none when a block cannot be read, no records when there is no room. -/
def State.stage (s : State) (job : BitVec 64) : List Chunk → List Input → Option (Option (State × List Input))
  | [], acc => some (some (s, acc))
  | c :: cs, acc =>
    match s.chunkBytes c with
    | none => none
    | some b =>
      match s.newAlloc job false false (roundUpTo (b.length + 1) 64) with
      | none => some none
      | some (num, base, s) =>
        State.stage (s.memWrite base b) job cs (acc ++ [{ addr := base, bytes := b.length, alloc := num }])

/-- INGRESS_READ (R274, R287, R289): the chunks of a SOURCE item go into its flow's reserved staging. A read that fails for
good stops the job with MEM_TIERC_KEY (R23). -/
def execIngressRead (flow : BitVec 20) (seq : BitVec 40) (s : State) : Host.Outcome State Fault Refusal :=
  match s.flow? flow with
  | none => .next s
  | some (j, f) =>
    let q := seq.toNat
    if f.decl.trigger = 1 && s.mayCreate j f q && f.staged.all (fun x => x.1 ≠ q) && f.staged.length < f.stageMax then
      match j.input? f.decl.producer with
      | none => .next s
      | some i =>
        let hi := if (q + 1) * f.decl.span < i.rows then (q + 1) * f.decl.span else i.rows
        let cs := i.chunksOf (q * f.decl.span) hi
        if !f.stageFits cs then .next s
        else match s.stage j.job cs [] with
        | none => .next (s.stopJob j.job 0x0905)
        | some none => .next s
        | some (some (t, ins)) => .next (t.setFlow { f with staged := f.staged ++ [(q, ins)] })
    else .next s

/-! ### Creating items (R275, R278) -/

/-- The output of a producer item that another module has run, in a record of its own: how it comes here is open, so that it is free
whether it has come by now, and its bytes are those that item wrote (log entry 170). -/
def State.farOutput (s : State) (jid : BitVec 64) (flow : BitVec 20) (k : Nat) : Option (State × Input) :=
  if !Config.freeBool s.free k then none
  else
    let b := Config.farOutput jid flow k
    (s.newAlloc jid false false (roundUpTo b.length 64)).map (fun a =>
      (a.2.2.memWrite a.2.1 b, { addr := a.2.1, bytes := b.length, alloc := a.1 }))

/-- The outputs of producer items, when every one of them has been accepted (Table 11.6): of those `here`, and of those other modules
have run. -/
def State.outputsOf (s : State) (jid : BitVec 64) (flow : BitVec 20) (here : Nat → Bool) : List Nat → Option (State × List Input)
  | [] => some (s, [])
  | k :: ks =>
    let one := if here k then
        match s.item? (keyOf flow k) with
        | some it => if it.phase.done then some (s, { addr := it.out, bytes := it.outBytes, alloc := it.outAlloc }) else none
        | none => none
      else s.farOutput jid flow k
    match one with
    | none => none
    | some (t, i) => (State.outputsOf t jid flow here ks).map (fun r => (r.1, i :: r.2))

/-- The staging Vat of a partition (DESIGN CHOICE, log entry 47). -/
def partVat (p : Nat) : CoreId := { vat := BitVec.ofNat 6 p, core := 0 }

/-- The rows of join n's right side on this module, by partition: those the exchange RIGHT names has brought, or those of the join
record it names (R178). -/
def State.buildRows (s : State) (j : Job) (n : Nat) (js : JoinRec) : Assoc Nat :=
  if js.rkind = 2 then (j.joined.filter (fun e => e.1 / 2 ^ 32 = n)).map (fun e => (e.1 % 2 ^ 32, e.2))
  else match (j.rightExch js).bind (fun e => s.exch? j.job e.exch.toNat) with
    | none => []
    | some x => x.rowsIn

/-- Bytes of a hash join's builds on this module: directories and row stores of the partitions with rows (R178). -/
def State.buildBytes (s : State) (j : Job) (n : Nat) (js : JoinRec) : Nat :=
  (s.buildRows j n js).foldl (fun a r => a + r.2 * js.rowBytes + 64 * 2 ^ js.bucketLog2) 0

/-- Bytes of the hash-join builds on this module whose join record is such. -/
def State.buildSum (s : State) (which : JoinRec → Bool) : Nat :=
  s.hb.jobs.foldl (fun a j =>
    (j.joins.zipIdx.filter (fun p => p.1.kind = 1 && which p.1)).foldl (fun a p => a + s.buildBytes j p.2 p.1) a) 0

/-- The tier a join's builds go to: 1 tier A, 2 tier B; automatic is tier A while the sum of all builds stays within
JOIN_TIERA_BYTES. -/
def State.buildTier (s : State) (js : JoinRec) : Nat :=
  let tier := js.flags.toNat % 4
  if tier ≠ 0 then tier else if s.buildSum (fun _ => true) ≤ s.furn 0x440001 256000000000 then 1 else 2

/-- The tier A bytes that no allocation record or table holds. -/
def State.tierAFree (s : State) : Nat :=
  s.tierATop - (itemStoreEnd + s.dieShift + s.allocBytes false + s.rowBytesIn false)

/-- The build of a partition goes beyond what R178 allows: positions of the row store, or space of its tier. -/
def State.buildFull (s : State) (j : Job) (e : ExchRec) (p : Nat) : Bool :=
  (j.joins.zipIdx.filter (fun n => n.1.kind = 1 && (j.rightExch n.1).map ExchRec.exch = some e.exch)).any (fun n =>
    let js := n.1
    let need := s.buildSum (fun k => s.buildTier k = s.buildTier js)
    0xFFFFFFFF < Assoc.get 0 (s.buildRows j n.2 js) p ||
      (if s.buildTier js = 1 then s.tierAFree < need else s.tierBBytes = 0 || s.tierBFree < need))

/-- What an item of each trigger is made from (Table 11.6): none until its condition holds. The state is the one with the
staged rows of a ROUND item in a record of their own. -/
def State.trigger (s : State) (j : Job) (f : FlowRun) (q : Nat) : Option (State × List Input × Option CoreId) :=
  let d := f.decl
  if d.trigger = 1 then (f.staged.find? (fun x => x.1 = q)).map (fun x => (s, x.2, none))
  else if d.trigger = 3 then
    match j.exch? d.producer, s.exch? j.job d.producer with
    | some e, some x =>
      let r := q / e.parts
      let p := q % e.parts
      if s.roundComplete j e x p r && x.slots.all (fun t => !(t.part = p && t.round = r)) then
        let rows := (x.staged.filter (fun t => t.part = p && t.round = r)).flatMap (·.bytes)
        if rows = [] then some (s, [], some (partVat p))
        else (s.newAlloc j.job false false (roundUpTo rows.length 64)).map (fun a =>
          (a.2.2.memWrite a.2.1 rows, [{ addr := a.2.1, bytes := rows.length, alloc := a.1 }], some (partVat p)))
      else none
    | _, _ => none
  else match j.flow? d.producer with
    | none => none
    | some p =>
      (s.outputsOf j.job p.decl.flow (fun k => s.assigned j p.decl k s.self) (j.producerItems d q)).map (fun r => (r.1, r.2, none))

/-- The build that a ROUND item adds rows to is full. -/
def State.roundFull (s : State) (j : Job) (f : FlowRec) (q : Nat) : Bool :=
  match j.exch? f.producer with
  | some e => f.trigger = 3 && s.buildFull j e (q % e.parts)
  | none => false

/-- Some producer item of an item is another module's to run. -/
def State.someFar (s : State) (j : Job) (f : FlowRun) (q : Nat) : Bool :=
  (f.decl.trigger = 2 || f.decl.trigger = 4) && (match j.flow? f.decl.producer with
    | some p => (j.producerItems f.decl q).any (fun k => !s.assigned j p.decl k s.self)
    | none => false)

/-- ITEM_CREATE (R275, R281). -/
def execItemCreate (flow : BitVec 20) (seq : BitVec 40) (s : State) : Host.Outcome State Fault Refusal :=
  match s.flow? flow with
  | none => .next s
  | some (j, f0) =>
    let f := { f0 with next := s.skipOthers j f0 f0.next }
    if !s.mayCreate j f seq.toNat then .next s
    else match s.trigger j f seq.toNat with
      | none => .next (if s.someFar j f seq.toNat then s.drawn else s)
      | some (t, ins, aff) =>
        if s.roundFull j f.decl seq.toNat then .next (s.stopJob j.job 0x0402)
        else match t.createItem j f seq.toNat ins aff .none with
          | some t => .next t
          | none => .next s

/-! ### Dispatch (R282, R177, R187, R242, R286) -/

/-- The producer items an item consumes have been released, which makes their outputs its inputs (R282). -/
def State.inputsReleased (s : State) (j : Job) (f : FlowRun) (q : Nat) : Bool :=
  if f.decl.trigger = 2 || f.decl.trigger = 4 then
    match j.flow? f.decl.producer with
    | none => false
    | some p => (j.producerItems f.decl q).all (fun k => !s.assigned j p.decl k s.self || k < p.released)
  else true

/-- No item of epoch u + 1 before the close of epoch u, but for items stamped LIVE (R242, R244). -/
def State.epochOpen (s : State) (it : Item) : Bool :=
  s.gradeIn (s.stampedOverlay it.grade it.gradeRev) 0x380004 0 = 1 ||
    s.felt.tables.all (fun t => !t.updatable || t.flow ≠ it.key.flow || t.epochItems = 0 ||
      it.key.seq.toNat / t.epochItems ≤ t.version)

/-- The source behind the left side of a join: its kind and number. -/
def leftSource (js : List JoinRec) : Nat → JoinRec → Nat × Nat
  | 0, j => sideOf j true
  | fuel + 1, j =>
    if j.lkind = 2 then (match js[j.left.toNat]? with | some k => leftSource js fuel k | none => (2, j.left.toNat))
    else sideOf j true

/-- The partition of a join's build that an item of a flow probes, if it does. -/
def Job.probes (j : Job) (js : JoinRec) (f : FlowRec) (q : Nat) : Option Nat :=
  let l := leftSource j.joins j.joins.length js
  if l.1 = 1 && decide (f.trigger = 3) && f.producer = l.2 then
    match j.exch? l.2 with
    | some e => some (q % e.parts)
    | none => none
  else if l.1 = 0 && decide (f.stage = 2) && decide (Job.rootTable j (j.flows.length + 1) f = some l.2) then some 0
  else none

/-- R177: every round of the right side's exchange has been consumed for the partition an item probes. -/
def State.buildsDone (s : State) (j : Job) (f : FlowRec) (q : Nat) : Bool :=
  (j.joins.filter (fun js => js.kind = 1 || js.kind = 3)).all (fun js =>
    match j.probes js f q, j.rightExch js with
    | some p, some e =>
      match s.exch? j.job e.exch.toNat with
      | some x => j.rounds e ≤ Assoc.get 0 x.base (if e.npart = 0 then 0 else p)
      | none => true
    | _, _ => true)

/-- R187: a source item's ordinals lie fewer than ROUNDS_AHEAD rounds beyond the lowest round not ended everywhere. -/
def State.sourceNear (s : State) (j : Job) (f : FlowRec) (q : Nat) : Bool :=
  f.trigger ≠ 1 || (j.exchanges.filter (fun e => e.table.toNat = f.producer)).all (fun e =>
    match s.exch? j.job e.exch.toNat with
    | none => true
    | some x =>
      match lowest ((x.dests j e s.self).map (fun m => Assoc.get 0 x.txRound m.toNat)) with
      | some lo => q * f.span / e.roundRows < lo + e.roundsAhead
      | none => true)

/-- The item may be dispatched. -/
def State.mayDispatch (s : State) (it : Item) : Bool :=
  match s.flow? it.key.flow with
  | none => false
  | some (j, f) =>
    let q := it.key.seq.toNat
    j.live && s.working && it.phase = .created && (s.up || (s.rst.boot = .recovery && j.test)) &&
      (f.decl.isA || (s.inputsReleased j f q && s.epochOpen it && s.buildsDone j f.decl q && s.sourceNear j f.decl q))

/-- ITEM_DISPATCH (R286). -/
def execItemDispatch (flow : BitVec 20) (seq : BitVec 40) (s : State) : Host.Outcome State Fault Refusal :=
  match s.item? { flow := flow, seq := seq } with
  | some it => if s.mayDispatch it then .next (s.place it) else .next s
  | none => .next s

/-- Queued items of a Vat and class that suit a core, oldest first. -/
def State.queuedFor (s : State) (v : BitVec 6) (cls : Option (BitVec 2)) (c : CoreId) : List Item :=
  (s.hb.queued.filter (fun q => q.1 = v)).filterMap (fun q =>
    match s.item? q.2 with
    | some it => if s.suits it c && (match cls with | some k => decide (it.cls = k) | none => true) then some it else none
    | none => none)

/-- Cores of a Vat that run class C. -/
def State.classCCores (s : State) (v : BitVec 6) : Nat :=
  ((coresOf v).filter (fun c => (s.core c).active && (s.core c).itemClass = 2)).length

/-- The next item for a core (R286). -/
def State.nextFor (s : State) (c : CoreId) : Option Item :=
  let v := c.vat
  let a := s.queuedFor v (some 0) c
  let k := s.queuedFor v (some 2) c
  let first := if s.classCCores v < s.furn 0x300008 1 then k else []
  let own := a ++ first ++ s.queuedFor v (some 1) c ++ k
  match own with
  | it :: _ => some it
  | [] =>
    if s.hb.queued.any (fun q => q.1 = v) then none
    else
      let die := s.hb.queued.filter (fun q => vatDie q.1 = vatDie v)
      (die.filterMap (fun q => s.item? q.2)).find? (fun it => s.suits it c)

/-- The slice refills a core's local slot by the same choice (R285). -/
def State.refill (s : State) (c : CoreId) : State :=
  if s.slotHeld c then s
  else match s.nextFor c with
    | some it => s.intoSlot it c
    | none => s

/-- An item in the local slot of a core that takes none any more goes back to the Vat's queue (R61, R387). -/
def State.emptySlot (s : State) (it : Item) (c : CoreId) : State :=
  { s with hb := { s.hb with slots := s.hb.slots.filter (fun x => x.1 ≠ c), queued := (c.vat, it.key) :: s.hb.queued } }

/-- CORE_IDLE (R285, R286): in PULL the core takes the item of its local slot, which the slice refills. -/
def execCoreIdle (c : CoreId) (s : State) : Host.Outcome State Fault Refusal :=
  if !s.idle c || !s.working then .next s
  else if s.hb.pull then
    let s := s.refill c
    match (s.hb.slots.find? (fun x => x.1 = c)).bind (fun x => s.item? x.2) with
    | some it => if s.suits it c then .next ((s.startOn it c none).refill c) else .next (s.emptySlot it c)
    | none => .next s
  else match s.nextFor c with
    | some it => .next (s.startOn it c none)
    | none => .next s

/-- STEAL_US (R286): an item that has waited STEAL_US ticks goes to an idle core of any Vat whose queues are empty. -/
def execStealUs (flow : BitVec 20) (seq : BitVec 40) (c : CoreId) (s : State) : Host.Outcome State Fault Refusal :=
  match s.item? { flow := flow, seq := seq } with
  | some it =>
    if s.working && s.hb.queued.any (fun q => q.2 = it.key) && s.mayTake it c && !s.hb.queued.any (fun q => q.1 = c.vat) then
      .next (s.give it c)
    else .next s
  | none => .next s

/-! ### The reel clock (R18, R19, R290 to R295) -/

/-- The order in which entries fire: value, kind, object. -/
def DelayEntry.before (a b : DelayEntry) : Bool :=
  a.value < b.value || (a.value = b.value && (a.kind < b.kind || (a.kind = b.kind && a.object ≤ b.object)))

/-- Put an entry in its place. -/
def placeDelay (d : DelayEntry) : List DelayEntry → List DelayEntry
  | [] => [d]
  | e :: es => if d.before e then d :: e :: es else e :: placeDelay d es

def sortDelays : List DelayEntry → List DelayEntry
  | [] => []
  | d :: ds => placeDelay d (sortDelays ds)

/-- A scheduled switch comes into force (Table 11.12). -/
def State.fireSwitch (s : State) (d : DelayEntry) : State :=
  match s.dict.schedule.find? (fun x => x.1.toNat = d.value) with
  | some x =>
    { s with dict := { s.dict with active := x.2, past := s.dict.past ++ [x],
                                   schedule := s.dict.schedule.filter (fun y => y.1 ≠ x.1) } }
  | none => s

/-- Fire one entry; a RELEASE entry stays, for the flow's next batch. -/
def State.fire (s : State) (d : DelayEntry) : State :=
  let gone := { s with hb := { s.hb with delays := s.hb.delays.erase d } }
  if d.kind = 0 then gone.fireSwitch d
  else if d.kind = 1 then
    match s.twin.leases.find? (fun l => !l.mine && l.number.toNat = d.object) with
    | some l => gone.endLease l
    | none => gone
  else if d.kind = 3 then s.egressAll (BitVec.ofNat 20 d.object) (s.hb.items.length + 1)
  else gone

def State.setReel (s : State) (v : Nat) : State := { s with hb := { s.hb with reel := BitVec.ofNat 48 v } }

/-- The reel count stands at a value with entries due there: they fire in order of kind and object. -/
def State.fireAt (s : State) (v : Nat) : State :=
  (sortDelays (s.hb.delays.filter (fun d => d.value = v))).foldl State.fire (s.setReel v)

/-- The reel count moves to a value: what lies in between fires value by value, an entry that is put at a later value on the way
included (R292). The fuel is the number of steps, which no value passes twice. -/
def State.reelFrom (s : State) (b : Nat) : Nat → State
  | 0 => s.setReel b
  | fuel + 1 =>
    match lowest ((s.hb.delays.map (·.value)).filter (fun v => s.hb.reel.toNat < v && v ≤ b)) with
    | some v => State.reelFrom ((s.fireAt v).setReel v) b fuel
    | none => s.setReel b

def State.reelTo (s : State) (b : Nat) : State := s.reelFrom b (b - s.hb.reel.toNat)

/-- An advance from a source that is not selected, or not accepted (R18, R290). -/
def State.reelIgnored (s : State) : State := s.bump 0x300006 1

/-- REEL_SOURCE: 0 fabric, 1 host, 2 REEL_IN. -/
def State.reelSource (s : State) : Nat := s.furn 0x300003 0

/-- An absolute value from the selected source (R18, R19): the status, and the state. -/
def State.reelSet (s : State) (v : Nat) : BitVec 16 × State :=
  if s.hb.reel.toNat = 2 ^ 48 - 1 then (0x0812, s.logEvent 0x0812 v)
  else (0, if s.hb.reel.toNat < v then s.reelTo v else s)

/-- A REEL_ADVANCE message (R290). -/
def State.reelMessage (s : State) (m : Msg) : State :=
  if s.reelSource = 0 && s.hb.reelQp ≠ 0 && m.qp.setWidth 32 = s.hb.reelQp then (s.reelSet m.rsv.toNat).2
  else s.reelIgnored

/-- The Headbox root takes reel advances: in service; in recovery mode the reel count stays 0 (Table 14.6, log entry 89). -/
def State.rootUp (s : State) : Bool := s.up

/-- The root counts REEL_IN edges: in service, and in a start from its step 9 on, which no row stands for, so that it is free
whether it has come (R415, log entry 169). -/
def State.edgesCount (s : State) : Bool := s.up || (s.rst.boot = .starting && Config.freeBool s.free 3)

/-- A write of REEL_WRITE. -/
def State.reelWrite (s : State) (v : Nat) : BitVec 16 × State :=
  if !s.rootUp then (0x0C0B, s)
  else if s.reelSource = 1 then s.reelSet (v % 2 ^ 48)
  else (0, s.reelIgnored)

/-- REEL_ADVANCE (R18, R290): by the doorbell page, REEL_WRITE or a message. -/
def execReelAdvance (r : ReelWrite) (s : State) : Host.Outcome State Fault Refusal :=
  match r with
  | .doorbell v =>
    if !s.rootUp || s.rst.hostReset then .next s
    else if s.reelSource = 1 then .next (s.reelSet (v.toNat % 2 ^ 48)).2
    else .next s.reelIgnored
  | .dictionary path v =>
    .next (s.onModulePath path (fun s =>
      let r := s.reelWrite v.toNat
      r.2.answer path false r.1 []))
  | .message m => .next (s.takeHbMsg 0x20 m 6 (fun s => s.reelMessage m))

/-- REEL_IN_PULSE (R415): a high level of `highNs` whose rising edge comes `gapNs` after the edge counted before it; `gapNs`
counts only once an edge has been counted. A level of 50 to 100 ns may or may not count. -/
def execReelInPulse (highNs : Nat) (gapNs : Nat) (s : State) : Host.Outcome State Fault Refusal :=
  let counted := decide (100 ≤ highNs) || (decide (50 ≤ highNs) && Config.freeBool s.free 0)
  let t := s.drawn
  if !s.edgesCount || !counted then .next t
  else if s.hb.lastReelEdge && gapNs < 1000 then .next t.reelIgnored
  else
    let t := { t with hb := { t.hb with lastReelEdge := true } }
    if s.reelSource = 2 then .next (t.reelSet (t.hb.reel.toNat + 1)).2 else .next t.reelIgnored

end Sys2Proof.Machine
end

