-- ==== Sys2Proof/Machine/Reset.lean ====
section
/-! DEFINITION. Reset sources and windows (R349 to R357), what each reach clears (Table 14.2), starts, recovery mode and
READY (R361 to R367), and the Vat, core and port resets (R358, R359). -/

namespace Sys2Proof.Machine

open Sys2Proof

/-! ### Sources (Tables 14.1, 14.9) -/

/-- The reach of a source: 0 power-on, 1 cold, 2 warm, 3 host interface. -/
def srcReach : ResetSource → Nat
  | .pwrGood => 0
  | .modRst => 1
  | .resetCold => 1
  | .selfTest => 1
  | .readyTimeout => 1
  | .zeroise => 1
  | .warmRst => 2
  | .watchdog => 2
  | .twinFence => 2
  | .hostPerst => 3

/-- The bit of a source in RESET_CAUSE; a zeroise and HOST_PERST_N have none. -/
def srcBit : ResetSource → Nat
  | .pwrGood => 1
  | .modRst => 2
  | .resetCold => 4
  | .warmRst => 8
  | .watchdog => 16
  | .twinFence => 32
  | .selfTest => 64
  | .readyTimeout => 128
  | .zeroise => 0
  | .hostPerst => 0

/-- RESET_CAUSE of a reach and the sources taken in its window. -/
def causeOf (reach : Nat) (taken : List ResetSource) (extra : Nat) : BitVec 32 :=
  BitVec.ofNat 32 (reach * 2 ^ 28 + (taken.map srcBit).eraseDups.foldl (· + ·) 0 + extra)

/-! ### What each reach clears (Table 14.2) -/

/-- HEARTBEAT with a STATE number. -/
def State.heartbeatOf (s : State) (st : Nat) : State :=
  let held := match lowest (s.twin.mirrors.map (fun m => 2 ^ 64 - m.mseq.toNat)) with
    | some n => 2 ^ 64 - n
    | none => 0
  s.sendFrame 1 (leBytes 1 st ++ zeros 7 ++ leBytes 8 s.hb.reel.toNat ++ leBytes 8 s.twin.lsnApplied.toNat ++
    leBytes 8 held)

/-- The jobs that a warm or wider reset ends, to be reported after READY (R356). -/
def State.endJobs (s : State) : State :=
  let ended := (s.hb.jobs.filter (fun j => !j.test && !j.finalSent)).map (fun j => (j.job, j.tag))
  { s with rst := { s.rst with endedJobs := s.rst.endedJobs ++ ended } }

/-- Furnish and grades at a warm or wider reset: a pending furnish replaces the one in force, live edits and the schedule
go, and the start grade is in force (R382, R383, R385). A write in progress through the fabric tunnel ends. -/
def State.applyFurnish (s : State) : State :=
  let g : BitVec 3 := s.straps.grade.setWidth 3
  { s with dict := { s.dict with
      furnish := s.dict.pending.getD s.dict.furnish, pending := none, live := [], active := g, start := g, past := [],
      schedule := [], kept := [], transfers := s.dict.transfers.filter (fun t => !isTunnel t.path), swap := none } }

/-- A migration ends as R248 states, and what belongs to jobs goes; tables outside any job stay. -/
def State.warmFelt (s : State) : State :=
  let s := s.settleMigrations
  let outside : BitVec 16 → Bool := fun t => s.felt.tables.any (fun u => u.id = t && u.job = none)
  let s := { s with rst := { s.rst with shardPlace := s.rst.shardPlace.filter (fun p => outside p.1) } }
  { s with felt := { Felt.reset with
      tables := (s.felt.tables.filter (fun t => t.job = none)).map (fun t => { t with commits := [] }),
      migEpoch := s.felt.migEpoch, redirects := s.felt.redirects } }

/-- Banks and engines retired stay out until power-on (DESIGN CHOICE, log entry 49); every set goes. -/
def State.clearSets (s : State) : State :=
  { s with wm := { banks := s.wm.banks.map (fun v => v.map (fun b => if b = .retired then .retired else .free)), sets := [] } }

/-- Warm reach: dispatch stops, cores halt, caches are discarded, the Headbox and the fabric start anew; tier A, tier B and
the host port are kept. -/
def State.clearWarm (s : State) : State :=
  let s := ((s.endJobs.warmFelt).clearSets).applyFurnish
  let st := s.modVal 0x50000D 0
  { s with
    rst := { s.rst with rebalDue := st = 1 || st = 2 },
    cores := [], units := [], ports := [], slurry := [], hb := { Headbox.reset with reelQp := s.hb.reelQp },
    mem := { s.mem with l2 := [] },
    fab := { Fabric.reset with ports := ~~~s.fab.retired, retired := s.fab.retired }, pow := { s.pow with calVat := none },
    twin := { Twin.reset with replica := s.twin.replica, retiredLanes := s.twin.retiredLanes,
                              lanes := ~~~s.twin.retiredLanes, strapBad := s.twin.strapBad },
    sec := { s.sec with markEra := s.sec.markEra + 1 } }

/-- A running rebalance is aborted (R370), and else REBAL_STATE takes its default (R350): the journal is lost, and the tables to be
registered again are gone. Moves to the twin that were committed stand. -/
def State.abortRebalance (s : State) : State :=
  let st := s.modVal 0x50000D 0
  let s := if st = 1 || st = 2 then (s.logEvent 0x0B08 0).setModVal 0x50000D 0 3 else s.setModVal 0x50000D 0 0
  { (s.setModVal 0x50000C 0 0) with rst := { s.rst with shardPlace := s.rst.shardPlace.filter (fun p => p.2.2 = 3), journalSeq := 0, rebalDue := false },
                                    felt := { Felt.reset with migEpoch := s.felt.migEpoch } }

/-- Cold reach: besides, tier A and what lies in tier B are lost, session keys are new, and the host port and the
dictionary values outside the furnish start anew. -/
def State.clearCold (s : State) : State :=
  let s := s.clearWarm.abortRebalance
  let fw : Nat × Nat → Bool := fun e => 0x341000 < e.1 && e.1 ≤ 0x341040
  let s := (s.setModVal 0x100100 0 0).setModVal 0x54000E 0 0
  let s := { s with dict := { s.dict with values := s.dict.values.filter (fun e => !fw e) } }
  { s with
    mem := { s.mem with bytes := [], ecc := [], rowErrors := [], tierB := Vector.replicate 4 0, tierBUp := false, tierBDown := 0 },
    host := HostPort.reset, twin := { s.twin with replica := [] }, hb := Headbox.reset,
    pow := { s.pow with level := if s.straps.safeClk then 8 else 16, stretched := 0, lastCond := false,
                          recent := Vector.replicate 4 [], disturbed := false, calVat := none },
    dict := { s.dict with nmt := 0x7F, fwStaged := none,
                          transfers := s.dict.transfers.filter (fun t => isMeter t.path) },
    sec := { s.sec with ideKeys := s.sec.ideKeys.map (· + 1), debugOpen := false, debugScope := 0,
                        state := if s.sec.state = 2 then 1 else s.sec.state } }

/-- STRAP_TWINB differs from bit 0 of STRAP_MODID (R328). -/
def State.strapMismatch (s : State) : Bool := s.straps.twinb ≠ s.straps.modid.getLsbD 0

/-- The value at least two of three samples agree on, bit by bit. -/
def majority {n : Nat} (a b c : BitVec n) : BitVec n := (a &&& b) ||| (b &&& c) ||| (a &&& c)

def majorityB (a b c : Bool) : Bool := (a && b) || (b && c) || (a && c)

/-- The straps as latched from three samples of their pins (R416). -/
def latchStraps (p : Vector Straps 3) : Straps :=
  let a := p[0]
  let b := p[1]
  let c := p[2]
  { modid := majority a.modid b.modid c.modid, twinb := majorityB a.twinb b.twinb c.twinb,
    boot := majority a.boot b.boot c.boot, canNode := majority a.canNode b.canNode c.canNode,
    maxFail := majority a.maxFail b.maxFail c.maxFail, tierbEn := majorityB a.tierbEn b.tierbEn c.tierbEn,
    grade := majority a.grade b.grade c.grade, safeClk := majorityB a.safeClk b.safeClk c.safeClk }

/-- Power-on reach: besides, counters are cleared, ports, lanes, cores, engines and banks are back in service, and the
straps are read again (R328 is checked then). -/
def State.clearPower (s : State) : State :=
  let s := { s with straps := latchStraps s.pins }.clearCold
  { s with
    dict := { s.dict with values := (s.dict.values.filter (fun e => e.1 = 0x50000D)), coresOut := [], spareMap := [] },
    fab := Fabric.reset,
    twin := { Twin.reset with strapBad := s.strapMismatch },
    pulpers := Vector.replicate 4 Pulper.reset, wm := Watermark.reset,
    pow := { s.pow with stretches := Vector.replicate 4 0, calNext := Vector.replicate 4 0 } }

/-- Egress rings on the host port are detached, class A requests of the host in flight fail, an item of one that is on a core ending
there first (R117), and the mailbox forgets a write in progress (R357). -/
def State.clearHost (s : State) : State :=
  let rings := s.hb.rings.filter (fun r => r.rkey = 0)
  let s := rings.foldl (fun s r => s.stopFlow r.flow 0x0B06) s
  let mine := s.hb.items.filter (fun it => match it.reply with | .host _ _ => true | _ => false)
  let s := mine.foldl (fun s it =>
    if it.onCore then
      ((s.classAStatus it).2.answerClassA it.reply it.job 0x0B06 []).setItem { it with reply := .none }
    else s.failClassA it 0x0B06) s
  { s with host := HostPort.reset,
           dict := { s.dict with transfers := s.dict.transfers.filter (fun t => t.path ≠ wayOf (.mailbox [])) } }

/-! ### Windows (R351 to R355) -/

/-- A start that a reset ends before READY counts as failed (R364). -/
def State.countFailed (s : State) : State :=
  if s.rst.boot = .starting && !s.rst.counted then { s with rst := { s.rst with failCount := s.rst.failCount + 1, counted := true } }
  else s

/-- Put the module into reset at a reach, when it is wider than the one already reached. -/
def State.enter (s : State) (reach : Nat) (from' : Nat) : State :=
  if from' ≤ reach then s
  else if reach = 3 then
    { s.clearHost with rst := { s.clearHost.rst with hostReset := true } }
  else
    let s := s.countFailed
    let s := if from' = 3 || from' = 4 then (if s.twin.state = .paired && s.twin.couchUp then s.heartbeatOf 0 else s) else s
    let s := if reach = 2 then s.clearWarm else if reach = 1 then s.clearCold else s.clearPower
    { s with rst := { s.rst with boot := .inReset, hostReset := s.rst.hostReset || reach ≤ 1 } }

/-- Take a source (R352): it opens a window, widens it, or is absorbed; RESET_CAUSE records it. -/
def State.takeSource (s : State) (src : ResetSource) : State :=
  let w := s.rst.window.getD { reach := 4, taken := [], low := [] }
  let reach := srcReach src
  let s := s.enter reach w.reach
  let w : Window :=
    { reach := if reach < w.reach then reach else w.reach, taken := (src :: w.taken).eraseDups,
      low := (src :: w.low).eraseDups }
  let s := if src = .pwrGood then { s with pow := { s.pow with pwrGood := false } } else s
  { s with rst := { s.rst with window := some w, cause := causeOf w.reach w.taken (s.rst.cause.toNat / 256 % 2 *
      (if s.rst.window.isSome then 256 else 0)) } }

/-- A level of a reset input passes the filter (R351): under 1.0 µs it does not, from 1.2 µs on it does, between the two
either. -/
def State.filtered (s : State) (heldNs : Nat) : Bool :=
  decide (1200 ≤ heldNs) || (decide (1000 ≤ heldNs) && Config.freeBool s.free 0)

/-- A low level of a reset input. -/
def State.takeInput (s : State) (src : ResetSource) (heldNs : Nat) : State :=
  if s.filtered heldNs then s.drawn.takeSource src else s.drawn

/-- The reset inputs, whose release is filtered too; the reset controller releases the other sources itself. -/
def isInput (src : ResetSource) : Bool := src = .pwrGood || src = .modRst || src = .warmRst || src = .hostPerst

/-- FAILSTART_MAX (Table 14.5). -/
def State.failMax (s : State) : Nat :=
  match s.straps.maxFail.toNat with
  | 0 => 2
  | 1 => 3
  | 2 => 5
  | _ => 8

/-- Step 3 of a start (R364, R365, R405): recovery mode, reported through CAN FD and the mailbox with tier B held in reset (R366),
or the start is counted. -/
def State.startUp (s : State) : State :=
  let s := { s with sec := { s.sec with nonceCount := s.sec.nonceCount + 1 } }
  let keys := s.sec.state ≠ 0
  if keys || s.straps.boot = 3 || s.straps.boot = 2 || s.failMax ≤ s.rst.failCount.toNat then
    let s := if s.sec.state = 1 then s.logEvent 0x0D21 0 else s
    let s := { s with
      rst := { s.rst with boot := .recovery, recoveryVat := Config.lowestGoodVat s.free },
      mem := { s.mem with tierB := Vector.replicate 4 0, tierBUp := false },
      host := { s.host with mbStatus := 0x0B03 } }
    s.drawn.faultCode 0x0B03 0
  else { s with rst := { s.rst with boot := .starting, failCount := s.rst.failCount + 1, counted := true } }

/-- The module leaves reset: the resets are counted, and a warm or wider one starts the module. -/
def State.leaveReset (s : State) (w : Window) : State :=
  let s := { s with rst := { s.rst with window := none, hostReset := false, scrub := false } }
  if w.reach = 3 then s
  else
    let s := if w.reach = 2 then s.bump 0x50000E 1 else if w.reach = 1 then s.bump 0x50000F 1 else s
    s.startUp

/-- RESET_RELEASE (R351, R353): once every source is released the window closes; the high level of a reset input is filtered as
its low level is. -/
def execResetRelease (r : SourceRelease) (s : State) : Host.Outcome State Fault Refusal :=
  match s.rst.window with
  | none => .next s
  | some w =>
    let passed := !isInput r.src || s.filtered r.heldNs
    let s := if isInput r.src then s.drawn else s
    if !passed then .next s
    else
    let low := w.low.filter (fun x => x ≠ r.src)
    let s := if r.src = .pwrGood then { s with pow := { s.pow with pwrGood := true, sense := true } } else s
    if w.low.contains r.src && low.isEmpty then .next (s.leaveReset w)
    else .next { s with rst := { s.rst with window := some { w with low := low } } }

/-- PWR_GOOD (R349). -/
def execPwrGood (heldNs : Nat) (s : State) : Host.Outcome State Fault Refusal := .next (s.takeInput .pwrGood heldNs)

/-- MOD_RST_N (R349). -/
def execModRstN (heldNs : Nat) (s : State) : Host.Outcome State Fault Refusal := .next (s.takeInput .modRst heldNs)

/-- WARM_RST_N (R354). -/
def execWarmRstN (heldNs : Nat) (s : State) : Host.Outcome State Fault Refusal := .next (s.takeInput .warmRst heldNs)

/-- HOST_PERST_N (R357). -/
def execHostPerstN (heldNs : Nat) (s : State) : Host.Outcome State Fault Refusal := .next (s.takeInput .hostPerst heldNs)

/-- WARM_ESCALATION (R354): the write-back of L3 has not completed in 10 ms, and the reset widens to cold. -/
def execWarmEscalation (s : State) : Host.Outcome State Fault Refusal :=
  match s.rst.window with
  | none => .next s
  | some w =>
    if w.reach = 2 then
      let t := (s.enter 1 2).logEvent 0x0B04 0
      .next { t with rst := { t.rst with window := some { w with reach := 1 }, cause := causeOf 1 w.taken 256 } }
    else .next s

/-- SELFTEST_FAILURE (R361): during a start the MC logs the cause and raises the source. -/
def execSelftestFailure (cause : BitVec 8) (s : State) : Host.Outcome State Fault Refusal :=
  if s.rst.boot = .starting then .next ((s.faultCode 0x0B01 cause.toNat).takeSource .selfTest) else .next s

/-- READY_TIMEOUT (R362): the timer does not run in recovery mode. -/
def execReadyTimeout (s : State) : Host.Outcome State Fault Refusal :=
  if s.rst.boot = .starting then .next ((s.faultCode 0x0B02 0).takeSource .readyTimeout) else .next s

/-- WATCHDOG (R363). -/
def execWatchdog (s : State) : Host.Outcome State Fault Refusal :=
  if s.up then .next (s.takeSource .watchdog) else .next s

/-- REFCLK_FAIL (R414): in service the MC raises the self-test failure source, and REFCLK stays out of range. -/
def execRefclkFail (s : State) : Host.Outcome State Fault Refusal :=
  if s.up then
    let s := { s with rst := { s.rst with refclkOut := true } }
    .next ((s.faultCode 0x0B01 0).takeSource .selfTest)
  else .next s

/-! ### READY (Table 14.4, step 12) -/

/-- The ATTACH frame of this module (Table 13.5). -/
def State.sendAttach (s : State) : State :=
  s.sendFrame 0x0A (leBytes 2 s.self.toNat ++ leBytes 1 (if s.straps.twinb then 1 else 0) ++ [0] ++
    leBytes 4 Config.rowsem.toNat ++ leBytes 4 s.fab.gen.toNat)

/-- Job reports owed since a reset (R356), and release reports still queued (R398). -/
def State.reportEnded (s : State) : State :=
  let s := s.rst.endedJobs.foldl (fun s j => s.complete j.2 0x0B05 true j.1 0) s
  let s := { s with rst := { s.rst with endedJobs := [] } }
  s.meter.queue.foldl (fun s r => s.emit (Out.report r)) s

/-- Usable bytes of a tier B device (R299): its capacity down to a multiple of 256 MB, when the port is not left out. -/
def usableBytes (d : Config.TierBDevice) : Nat := if d.inSubset && d.ide then d.bytes / 256000000 * 256000000 else 0

/-- Step 10 of a start, tier B (R302 to R304): after a cold or power-on reset the ports find their devices, and a port whose device
falls outside the subset, or on which IDE cannot be established, is left out and reported. -/
def State.trainTierB (s : State) : State :=
  if !s.straps.tierbEn || s.mem.tierBUp then s
  else
    let dev := fun p => Config.tierBDevice s.free p
    let there := (List.range 4).filter (fun p => (dev p).bytes ≠ 0)
    let bad := there.filter (fun p => !(dev p).inSubset)
    let open' := there.filter (fun p => (dev p).inSubset && !(dev p).ide)
    let reports := bad.map (fun p => ((0x0901 : BitVec 16), p)) ++ open'.map (fun p => ((0x0902 : BitVec 16), p))
    { s with
      mem := { s.mem with tierB := Vector.ofFn (fun p => usableBytes (dev p.val)), tierBUp := true },
      free := s.free + 1,
      dict := { s.dict with eventLog := s.dict.eventLog ++ reports } }

/-- Step 10 of a start, tier C (R305): namespaces of another LBA format are not used, and reported. -/
def State.findTierC (s : State) : State :=
  let odd := Config.tierCUnused s.free
  { s with
    mem := { s.mem with tierCUnused := odd }, free := s.free + 1,
    dict := { s.dict with eventLog := s.dict.eventLog ++ odd.map (fun n => ((0x0904 : BitVec 16), n.toNat)) } }

/-- Cores in service after substitution (R361). -/
def State.coresLeft (s : State) : Nat := 1024 - s.dict.coresOut.length

/-- REFCLK, once out of its range, has not returned by this start: a free value. -/
def State.refclkStillOut (s : State) : Bool := s.rst.refclkOut && Config.freeBool s.free 2

/-- READY (R364, R285): tier B and tier C are found, the counter is cleared, dispatch is PUSH, TWIN_STATE is BOOT and the Couch link
is trained. With fewer than 960 cores in service, or while REFCLK has not returned (R414, log entry 154), the start fails its
self-test (R361). -/
def execReady (s : State) : Host.Outcome State Fault Refusal :=
  if s.rst.boot ≠ .starting then .next s
  else if s.refclkStillOut then .next ((s.drawn.faultCode 0x0B01 0).takeSource .selfTest)
  else if s.coresLeft < 960 then .next ((s.faultCode 0x0B01 s.coresLeft).takeSource .selfTest)
  else
    let s := s.trainTierB.findTierC
    let level := if s.straps.safeClk then 8 else s.pow.level
    let low := if s.pow.stretched = 0 then level else 8
    let s := { s with rst := { s.rst with boot := .ready, failCount := 0, counted := true, refclkOut := false },
                      hb := { s.hb with pull := false, winLevel := low }, pow := { s.pow with level := level } }
    let s := if s.strapMismatch then
        { s.logEvent 0x0A03 0 with twin := { s.twin with strapBad := true, state := .unpaired } }
      else if s.straps.boot = 1 then { s with twin := { s.twin with state := .unpaired } }
      else { s with twin := { s.twin with couchUp := true } }.sendAttach
    .next s.reportEnded

end Sys2Proof.Machine
end

