-- ==== Sys2Proof/Machine/Fabric.lean ====
section
/-! DEFINITION. Fabric messages outside the Slurry exchange and the Headbox (R321 to R327, R337 to R339): queue pairs,
class A requests and remote gathers of peers, fencing by messages, and generations. -/

namespace Sys2Proof.Machine

open Sys2Proof

/-! ### Queue pairs (R321 to R324) -/

/-- 1 Gb/s, the floor of a send rate. -/
def floorRate : Nat := 1000000000

/-- The rate after a CNP: times 1 − 1/d, not below the floor. -/
def Qp.slower (q : Qp) (d : Nat) : Qp :=
  let num := q.rateNum * (d - 1)
  let den := q.rateDen * d
  if num < floorRate * den then { q with rateNum := floorRate, rateDen := 1 } else { q with rateNum := num, rateDen := den }

/-- The rate after a quiet interval: 5 % of line rate more, not above line rate. -/
def Qp.faster (q : Qp) : Qp :=
  let num := q.rateNum + lineRate / 20 * q.rateDen
  if lineRate * q.rateDen < num then { q with rateNum := lineRate, rateDen := 1 } else { q with rateNum := num }

/-- Change a queue pair, if there is one of that number. -/
def State.onQp (s : State) (n : BitVec 16) (f : Qp → State) : State :=
  match s.qp? n with
  | some q => f q
  | none => s

/-- CNP_RECEIVE (R324). -/
def execCnpReceive (qp : BitVec 16) (s : State) : Host.Outcome State Fault Refusal :=
  .next (s.onQp qp (fun q => s.setQp (q.slower (s.furn 0x4C0002 16))))

/-- RATE_RECOVER (R324). -/
def execRateRecover (qp : BitVec 16) (s : State) : Host.Outcome State Fault Refusal :=
  .next (s.onQp qp (fun q => s.setQp q.faster))

/-- Send the unacknowledged messages of a queue pair again, in order. -/
def State.resendQp (s : State) (q : Qp) : State :=
  if s.fab.stopped then s else q.unacked.foldl (fun s m => s.emit (.fabric m.1 m.2)) s

/-- QP_RECONNECT (R323): a queue pair in the error state is connected again and resends what was not acknowledged. -/
def execQpReconnect (qp : BitVec 16) (s : State) : Host.Outcome State Fault Refusal :=
  .next (s.onQp qp (fun q =>
    if q.error then
      let q := { q with error := false, retries := 0 }
      (s.setQp q).resendQp q
    else s))

/-- LOCAL_ACK_TIMEOUT (R321): a free number of the oldest messages, but not all, has been acknowledged by then; the rest
goes again, and after 7 retries without an acknowledgement the queue pair is in the error state (log entry 51). -/
def execLocalAckTimeout (qp : BitVec 16) (s : State) : Host.Outcome State Fault Refusal :=
  .next (s.onQp qp (fun q =>
    if q.unacked.isEmpty || q.error then s
    else
      let got := (Config.freeWord s.free 0).toNat % q.unacked.length
      let tries := if got = 0 then q.retries else 0
      let q := { q with unacked := q.unacked.drop got }
      let s := s.drawn
      if 7 ≤ tries then s.setQp { q with error := true, retries := 7 }
      else (s.setQp { q with retries := tries + 1 }).resendQp q))

/-- A CLASSA_RESP of a request that met every condition but that its destination has no receive buffer posted: it is one of a degraded
request, counted (R318, condition 8 of Table 12.5); any other message stays as it is. -/
def degradeResp (m : BitVec 8 × Msg) : Option (BitVec 8 × Msg) :=
  if m.1 = 0x31 && fieldAt m.2.payload 0 2 = 0 then
    some (m.1, Msg.withCrc m.1 { m.2 with payload := putAt m.2.payload 0 (leBytes 2 0x0920) })
  else none

/-- RNR_NAK (R323): the send is tried again, without limit. -/
def execRnrNak (qp : BitVec 16) (s : State) : Host.Outcome State Fault Refusal :=
  .next (s.onQp qp (fun q =>
    match q.unacked with
    | [] => s.setQp { q with rnr := q.rnr + 1 }
    | m :: ms =>
      let m' := degradeResp m
      let s := if m'.isSome then s.bump 0x481006 1 else s
      (s.setQp { q with rnr := q.rnr + 1, unacked := m'.getD m :: ms }).resendQp { q with unacked := [m'.getD m] }))

/-- A port leaves service: its queue pairs move to the port the formula gives over the remaining ones (R322). -/
def State.portOut (s : State) (port : BitVec 3) : State :=
  let ports := s.fab.ports &&& ~~~(BitVec.ofNat 8 (2 ^ port.toNat))
  let move : Qp → Qp := fun q => if q.port = port then { q with port := portOver ports q.peer q.cls } else q
  { s with fab := { s.fab with ports := ports, qps := s.fab.qps.map move } }

/-- A port is retired: it stays out of service until power-on (R322, R387). -/
def State.portRetired (s : State) (port : BitVec 3) : State :=
  let t := s.portOut port
  { t with fab := { t.fab with retired := t.fab.retired ||| BitVec.ofNat 8 (2 ^ port.toNat) } }

/-- PORT_FAIL (R322): a port that its error rates take out is retired as one that PORT_RETIRE names (R387, log entry 49). -/
def execPortFail (port : BitVec 3) (s : State) : Host.Outcome State Fault Refusal := .next (s.portRetired port)

/-! ### Class A requests and remote gathers of peers (R326, R327) -/

/-- The class A receive buffers of a queue pair are all taken by requests held back (R323, CLASSA_RX_BUFFERS). -/
def State.buffersFull (s : State) (qp : BitVec 16) : Bool :=
  decide (s.furn 0x4C0004 64 ≤ (s.fab.heldA.filter (fun h => h.msg.qp = qp)).length)

/-- A class A request of a peer runs as an item, or waits in its receive buffer behind those held back before it (R289); it counts in
the window it is received in (R317). -/
def State.takeClassA (s : State) (m : Msg) : State :=
  let h : HeldReq := { msg := m, failed := s.hb.winPrevFailed, fresh := true }
  let held : State := { s.countRequest with fab := { s.fab with heldA := s.fab.heldA ++ [h] } }
  if s.fab.heldA = [] then (s.classARequest m.part m.payload (.peer m) none).getD held else held

/-- CLASSA_REQ (R323, R326): one item of the flow in PART; with no receive buffer posted the queue pair answers with an RNR NAK
and takes nothing. -/
def execClassaReq (m : Msg) (s : State) : Host.Outcome State Fault Refusal :=
  .next (s.takeMsg 0x30 m (fun s => if s.buffersFull m.qp then s.emit (.rnrNak m.qp) else s.takeClassA m))

/-- Keep the first answer to a request. -/
def State.keepResponse (s : State) (m : Msg) : State :=
  if (s.response? m.seq).isSome then s
  else { s with fab := { s.fab with responses := s.fab.responses ++ [(m.seq, m.payload)] } }

/-- CLASSA_RESP (R326): the requester keeps the first. -/
def execClassaResp (m : Msg) (s : State) : Host.Outcome State Fault Refusal :=
  .next (s.takeMsg 0x31 m (fun s => s.keepResponse m))

/-- GATHER_REQ (R327). -/
def execGatherReq (m : Msg) (s : State) : Host.Outcome State Fault Refusal :=
  .next (s.takeMsg 0x32 m (fun s => s.takeGather m))

/-- GATHER_RESP (R233, R327): the answer to a request some command waits for; the requester keeps the first. -/
def execGatherResp (m : Msg) (s : State) : Host.Outcome State Fault Refusal :=
  .next (s.takeMsg 0x33 m (fun s =>
    if s.units.any (fun u => u.asked.any (fun a => a.1 = m.seq)) then s.keepResponse m else s))

/-! ### Fencing (R337, R339) -/

/-- Rows of rounds the victim held and had not ended are discarded, and its survivor is to send those rounds and end them, even one
it has ended for itself (R345). -/
def State.dropHolder (s : State) (v heir : BitVec 14) : State :=
  let lost : Exch → Nat → Bool := fun x r =>
    !x.ended.any (fun g => g.1 = v && g.2.1 = r) &&
      (match s.job? x.job with
       | some j => (match j.exch? x.exch.toNat with | some e => (s.holders j e r).contains v | none => false)
       | none => false)
  { s with slurry := s.slurry.map (fun (x : Exch) =>
      { x.dropUnended v with ended := x.ended.filter (fun g => !(g.1 = heir && lost x g.2.1)) }) }

/-- Every partition and shard homed on the victim is the survivor's from now on (R343). -/
def State.routeTo (s : State) (v home : BitVec 14) : State :=
  let parts := s.slurry.flatMap (fun x => (x.homes.filter (fun h => h.2 = v)).map (fun h => (x.job, x.exch, h.1)))
  let s := parts.foldl (fun s p => s.remapPart p.1 (p.2.1, BitVec.ofNat 32 p.2.2, home)) s
  let shards := s.felt.tables.flatMap (fun (t : Table) => (t.homes.filter (fun h => h.2 = v)).map (fun h => (t.id, h.1)))
  shards.foldl (fun s d => s.remapShard (d.1, BitVec.ofNat 16 d.2, home)) s

/-- An accepted FENCE_NOTICE: the entry rises, the victim's work is the sender's, and FENCE_ACK answers. -/
def State.takeNotice (s : State) (m : Msg) : State :=
  let v : BitVec 14 := m.part.setWidth 14
  let known := s.fab.fenceSeen.contains v
  let s := if known then s else s.dropHolder v m.from
  let s := s.raiseGen v m.value
  let s := { s with fab := { s.fab with fenceSeen := (v :: s.fab.fenceSeen).eraseDups } }
  let s := if known then s else s.routeTo v m.from
  s.sendMsg 0x41 (s.answerMsg 0x41 m (s.genOf v) [])

/-- FENCE_NOTICE (R339): a sender whose fence has been accepted is below its entry, and FENCED answers it. -/
def execFenceNotice (m : Msg) (s : State) : Host.Outcome State Fault Refusal :=
  .next (s.takeMsg 0x40 m (fun s => if 2 ^ 14 ≤ m.part.toNat then s.protocolError else s.takeNotice m))

/-- A peer acknowledges a fence; the last one commits it. -/
def State.takeFenceAck (s : State) (m : Msg) : State :=
  match s.twin.fences.find? (fun f => f.id = m.seq && f.victim.toNat = m.part.toNat) with
  | some f =>
    if f.awaiting.contains m.from then
      s.commitFence { f with awaiting := f.awaiting.filter (· ≠ m.from), acked := f.acked ++ [m.from] }
    else s
  | none => s

/-- FENCE_ACK (R339). -/
def execFenceAck (m : Msg) (s : State) : Host.Outcome State Fault Refusal :=
  .next (s.takeMsg 0x41 m (fun s => s.takeFenceAck m))

/-- This module is fenced: it stops all sending at once and takes a warm reset under the twin-fence source (R337). -/
def State.beFenced (s : State) : State :=
  let s := s.faultCode 0x0A07 0
  ({ s with fab := { s.fab with stopped := true } }).takeSource .twinFence

/-- Jobs in which peers hold accepted fences of both twins: this module's fence was accepted by one peer, and another
answers FENCED (R339). -/
def State.conflictJobs (s : State) (peer : BitVec 14) : List Job :=
  s.hb.jobs.filter (fun j => j.modules.contains peer && s.twin.fences.any (fun f =>
    f.victim = s.twinId && !f.committed && f.acked.any (fun a => j.modules.contains a)))

/-- FENCED (R337, R339): a message that names another module is a protocol error. -/
def execFenced (m : Msg) (s : State) : Host.Outcome State Fault Refusal :=
  .next (s.takeMsg 0x42 m (fun s =>
    if m.part ≠ s.self.setWidth 32 then s.protocolError
    else ((s.conflictJobs m.from).foldl (fun s j => s.stopJob j.job 0x0A08) s).beFenced))

/-- FENCE_ACK_US (R339): a peer still silent after the notice has gone again on every active port is treated as lost: the jobs it runs
with the victim stop, and the fence is committed without it. -/
def execFenceAckUs (peer : BitVec 14) (s : State) : Host.Outcome State Fault Refusal :=
  match s.twin.fences.find? (fun f => !f.committed && f.awaiting.contains peer) with
  | none => .next s
  | some f =>
    let s := s.noticeAgain f peer
    let again := (f.again ++ [peer]).eraseDups
    let s := (s.jobsWith f.victim).foldl (fun s j =>
      if j.modules.contains peer then s.stopJob j.job 0x0A0D else s) s
    .next (s.commitFence { f with awaiting := f.awaiting.filter (· ≠ peer), lost := f.lost ++ [peer], again := again })

/-! ### Generations (R337, R340, Table 13.10) -/

/-- A peer's new generation; the twin's starts the resync of a pair that has its own generation and whose ATTACH frame
agrees. -/
def State.takeAnnounce (s : State) (m : Msg) : State :=
  let fresh := decide ((s.genOf m.from).toNat < m.value.toNat)
  let s := s.raiseGen m.from m.value
  if fresh && m.from = s.twinId && s.fab.gen ≠ 0 && s.twin.peerOk && s.twin.couchUp then s.startResync else s

/-- GEN_ANNOUNCE (R337): PART names the sender. -/
def execGenAnnounce (m : Msg) (s : State) : Host.Outcome State Fault Refusal :=
  .next (s.takeMsg 0x46 m (fun s => if m.part ≠ m.from.setWidth 32 then s.protocolError else s.takeAnnounce m))

end Sys2Proof.Machine
end

