-- ==== Sys2Proof/Machine/Couch.lean ====
section
/-! DEFINITION. The Couch link and the pair (R328, R331 to R338, R347, R355, Table 13.10): frames, lanes, suspicion and
probes, attach and detach. -/

namespace Sys2Proof.Machine

open Sys2Proof

/-! ### Receiving frames (Table 13.4) -/

/-- A frame below the twin's entry (R337); a module without a generation sends ATTACH, HEARTBEAT and LANE with GEN 0
(DEDUCED, log entry 52). -/
def State.frameStale (s : State) (t : BitVec 8) (f : Frame) : Bool :=
  f.gen.toNat < (s.genOf s.twinId).toNat && !(f.gen = 0 && (t = 1 || t = 8 || t = 0x0A))

/-- Act on a frame that is not stale; a stale one is counted and answered with FENCED. -/
def State.freshFrame (s : State) (t : BitVec 8) (f : Frame) (act : State → State) : State :=
  if s.frameStale t f then ((s.bump 0x4C000F 1).logEvent 0x0A02 s.twinId.toNat).sendFenced s.twinId 2 else act s

/-- Suspicion of the twin ends with any good frame (R332). -/
def Twin.trusted (t : Twin) : Twin := { t with suspect := false, probe := none, hold := false }

/-- Receive a frame: in order and once over the link (R331), or over the fabric in COUCH_DOWN. -/
def State.takeFrame (s : State) (t : BitVec 8) (f : Frame) (act : State → State) : State :=
  if !s.up || !f.wellFormed t then s
  else if s.twin.couchUp then
    let s := { s with twin := s.twin.trusted }
    if f.fseq ≠ s.twin.fseqRx + 1 then s
    else
      let left := s.twin.unacked.filter (fun u => f.ack.toNat < u.2.fseq.toNat)
      ({ s with twin := { s.twin with fseqRx := f.fseq, unacked := left } }).freshFrame t f act
  else if s.twin.couchDown && overFabric t then s.freshFrame t f act
  else s

/-- The states of a HEARTBEAT (Table 13.5). -/
def twinStateNumber : TwinState → Nat
  | .boot => 0
  | .unpaired => 1
  | .resync => 2
  | .paired => 3
  | .takeover => 4
  | .detaching => 5

def twinStateOf (n : Nat) : Option TwinState :=
  if n = 0 then some .boot
  else if n = 1 then some .unpaired
  else if n = 2 then some .resync
  else if n = 3 then some .paired
  else if n = 4 then some .takeover
  else if n = 5 then some .detaching
  else none

/-- The twin holds mirror records up to a number that has been sent. -/
def State.mirrorHeldAt (s : State) (n : BitVec 64) : State :=
  if s.twin.mseqAcked.toNat < n.toNat && n.toNat ≤ s.twin.mseqTx.toNat then
    { s with twin := { s.twin with mseqAcked := n } }
  else s

/-- The twin holds and has applied log records up to numbers that have been sent; the pair may be whole then. -/
def State.logSeenAt (s : State) (held applied : BitVec 64) : State :=
  if held.toNat ≤ s.twin.lsnTx.toNat && applied.toNat ≤ s.twin.lsnTx.toNat then (s.logHeldAt held applied).pairUp applied
  else s

/-- A HEARTBEAT's content: STATE BOOT from a paired twin causes a fence at once (R355). -/
def State.takeHeartbeat (s : State) (f : Frame) : State :=
  let p := f.payload
  let s := match twinStateOf (fieldAt p 0 1) with
    | some st => { s with twin := { s.twin with peerState := st } }
    | none => s
  if s.twin.state = .paired && s.twin.peerState = .boot then s.startFence
  else
    let applied := BitVec.ofNat 64 (fieldAt p 0x10 8)
    (s.mirrorHeldAt (BitVec.ofNat 64 (fieldAt p 0x18 8))).logSeenAt applied applied

/-- HEARTBEAT (R332, R355). -/
def execHeartbeat (f : Frame) (s : State) : Host.Outcome State Fault Refusal :=
  .next (s.takeFrame 1 f (fun s => s.takeHeartbeat f))

/-- LOG (R333): the records go into the log area, and LOG_ACK answers. -/
def execLog (f : Frame) (s : State) : Host.Outcome State Fault Refusal :=
  .next (s.takeFrame 2 f (fun s => s.holdLog f.payload))

/-- LOG_ACK (R333). -/
def execLogAck (f : Frame) (s : State) : Host.Outcome State Fault Refusal :=
  .next (s.takeFrame 3 f (fun s =>
    s.logSeenAt (BitVec.ofNat 64 (fieldAt f.payload 0 8)) (BitVec.ofNat 64 (fieldAt f.payload 8 8))))

/-- RESYNC (R334): records carrying whole shards, in the same log. -/
def execResync (f : Frame) (s : State) : Host.Outcome State Fault Refusal :=
  .next (s.takeFrame 9 f (fun s => s.holdLog f.payload))

/-! ### Mirror and leases -/

/-- A mirror record as read (Table 13.7). -/
def mirrorOfBytes (b : Bytes) : Mirror :=
  { kind := BitVec.ofNat 8 (fieldAt b 0 1), ring := BitVec.ofNat 16 (fieldAt b 2 2), flow := BitVec.ofNat 32 (fieldAt b 4 4),
    mseq := BitVec.ofNat 64 (fieldAt b 8 8), w0 := BitVec.ofNat 64 (fieldAt b 0x10 8), w1 := BitVec.ofNat 64 (fieldAt b 0x18 8),
    slots := BitVec.ofNat 32 (fieldAt b 0x20 4), slotBytes := BitVec.ofNat 32 (fieldAt b 0x24 4),
    rkey := BitVec.ofNat 32 (fieldAt b 0x28 4), standby := BitVec.ofNat 32 (fieldAt b 0x2C 4) }

/-- The highest MSEQ held. -/
def State.mseqHeld (s : State) : Nat := s.twin.mirrors.foldl (fun a m => if a < m.mseq.toNat then m.mseq.toNat else a) 0

/-- Keep a mirror record, the latest of each kind and flow; a RING record makes this module the authority of the flow's
release, and it grants the lease (log entry 53). -/
def State.takeMirror (s : State) (m : Mirror) : State :=
  if m.mseq.toNat ≤ s.mseqHeld || !(m.kind = 1 || m.kind = 2) then s
  else
    let rest := s.twin.mirrors.filter (fun x => !(x.kind = m.kind && x.flow = m.flow))
    let s := { s with twin := { s.twin with mirrors := rest ++ [m] } }
    if m.kind = 1 then s.grantLease 1 m.flow else s

/-- The fixed-size records of a payload. -/
def recordsOf (size : Nat) (b : Bytes) : List Bytes := (List.range (b.length / size)).map (fun i => (b.drop (size * i)).take size)

/-- MIRROR (R335): the records are held, and MIRROR_ACK answers. -/
def execMirror (f : Frame) (s : State) : Host.Outcome State Fault Refusal :=
  .next (s.takeFrame 4 f (fun s =>
    let s := (recordsOf 64 f.payload).foldl (fun s b => s.takeMirror (mirrorOfBytes b)) s
    s.sendFrame 5 (leBytes 8 s.mseqHeld ++ zeros 24)))

/-- MIRROR_ACK (R335). -/
def execMirrorAck (f : Frame) (s : State) : Host.Outcome State Fault Refusal :=
  .next (s.takeFrame 5 f (fun s => s.mirrorHeldAt (BitVec.ofNat 64 (fieldAt f.payload 0 8))))

/-- LEASE (R341, R342); records of no kind are padding. -/
def execLease (f : Frame) (s : State) : Host.Outcome State Fault Refusal :=
  .next (s.takeFrame 7 f (fun s =>
    (recordsOf 32 f.payload).foldl (fun s b => if fieldAt b 0 1 = 0 then s else s.takeLease b) s))

/-- FENCE frame (R337): the receiver stops all sending and takes a warm reset. -/
def execFenceFrame (f : Frame) (s : State) : Host.Outcome State Fault Refusal :=
  .next (s.takeFrame 6 f State.beFenced)

/-! ### Lanes (R331) -/

def couchLanes (lanes : BitVec 16) : Nat := ((List.range 16).filter (lanes.getLsbD ·)).length

/-- Stripe over the lanes given; below 8 lanes the link goes down. -/
def State.setLanes (s : State) (lanes : BitVec 16) : State :=
  { s with twin := { s.twin with lanes := lanes, couchUp := s.twin.couchUp && decide (8 ≤ couchLanes lanes) } }

def State.sendLane (s : State) (lanes : BitVec 16) : State := s.sendFrame 8 (leBytes 2 lanes.toNat ++ zeros 30)

/-- LANE (R331): this end stripes over the same lanes, and answers with its own LANE frame when that is a change. -/
def execLane (f : Frame) (s : State) : Host.Outcome State Fault Refusal :=
  .next (s.takeFrame 8 f (fun s =>
    let lanes := BitVec.ofNat 16 (fieldAt f.payload 0 2) &&& ~~~s.twin.retiredLanes
    if lanes = s.twin.lanes then s else (s.sendLane lanes).setLanes lanes))

/-- A lane is out of service until power-on. -/
def State.laneOut (s : State) (lane : BitVec 4) : State :=
  let bit := BitVec.ofNat 16 (2 ^ lane.toNat)
  let lanes := s.twin.lanes &&& ~~~bit
  let s := { s with twin := { s.twin with retiredLanes := s.twin.retiredLanes ||| bit } }
  (s.sendLane lanes).setLanes lanes

/-- LANE_RETIRE (R331). -/
def execLaneRetire (lane : BitVec 4) (s : State) : Host.Outcome State Fault Refusal := .next (s.laneOut lane)

/-- FLIT_REFUSED (R331): the sender replays from the first unacknowledged flit on. -/
def execFlitRefused (_seq : BitVec 64) (s : State) : Host.Outcome State Fault Refusal :=
  if s.twin.couchUp && !s.fab.stopped then .next (s.twin.unacked.foldl (fun s u => s.emit (.couch u.1 u.2)) s) else .next s

/-! ### Suspicion, probe and hold (R332, R338) -/

/-- The module has a twin to watch. -/
def State.watchesTwin (s : State) : Bool := s.up && (s.twin.state = .paired || s.twin.state = .resync) && !s.twin.couchDown

/-- Send COUCH_PROBE on every active port. -/
def State.sendProbe (s : State) (id : BitVec 64) : State :=
  if s.fab.stopped then s
  else
    let m := s.newMsg 0x44 s.twinId 2 0 0 (s.twinId.setWidth 32) 0 id 0 []
    (activePorts s.fab.ports).foldl (fun s p => s.emit (.fabricOn p 0x44 m)) s

/-- TWIN_SUSPECT (R332, R338). -/
def execTwinSuspect (s : State) : Host.Outcome State Fault Refusal :=
  if s.watchesTwin && !s.twin.suspect then
    let id := s.twin.probeNext
    let s := { s with twin := { s.twin with suspect := true, probe := some id, probeNext := id + 1 } }
    .next (s.sendProbe id)
  else .next s

/-- COUCH_PROBE (R338): the twin answers every time. -/
def execCouchProbe (m : Msg) (s : State) : Host.Outcome State Fault Refusal :=
  .next (s.takeMsg 0x44 m (fun s =>
    if m.from ≠ s.twinId then s.protocolError
    else s.sendMsg 0x45 (Msg.withCrc 0x45 { s.answerMsg 0x45 m 0 [] with part := s.twinId.setWidth 32 })))

/-- The pair enters COUCH_DOWN: frames that were on the link go over the fabric. -/
def State.couchFails (s : State) : State :=
  let left := s.twin.unacked.filter (fun u => overFabric u.1)
  let s := { s with twin := { s.twin.trusted with couchUp := false, couchDown := true, unacked := [] } }
  left.foldl (fun s u => s.sendFrame u.1 u.2.payload) (s.logEvent 0x0A0C 0)

/-- COUCH_PROBE_ACK (R338). -/
def execCouchProbeAck (m : Msg) (s : State) : Host.Outcome State Fault Refusal :=
  .next (s.takeMsg 0x45 m (fun s =>
    if m.from ≠ s.twinId then s.protocolError
    else if s.twin.suspect && s.twin.probe = some m.seq then s.couchFails
    else s))

/-- COUCH_PROBE_US (R338): role A fences at once, role B holds first; an answer that comes later is no answer within the time. -/
def execCouchProbeUs (s : State) : Host.Outcome State Fault Refusal :=
  if s.up && s.twin.suspect && s.twin.probe.isSome then
    if s.straps.twinb then .next { s with twin := { s.twin with hold := true, probe := none } } else .next s.startFence
  else .next s

/-- COUCH_HOLD_B_US (R338). -/
def execCouchHoldBUs (s : State) : Host.Outcome State Fault Refusal :=
  if s.up && s.twin.suspect && s.twin.hold then .next s.startFence else .next s

/-- COUCH_HB_US (R332). -/
def execCouchHbUs (s : State) : Host.Outcome State Fault Refusal :=
  if s.up then .next (s.heartbeatOf (twinStateNumber s.twin.state)) else .next s

/-! ### Attach and detach (Table 13.10, R347) -/

/-- The ATTACH frame's content: the module, its role and ROWSEM must agree (R328, Table 13.10 step 2). -/
def State.takeAttach (s : State) (f : Frame) : State :=
  let p := f.payload
  let other : BitVec 14 := BitVec.ofNat 14 (fieldAt p 0 2)
  if fieldAt p 0 2 ≠ s.twinId.toNat || (fieldAt p 2 1 = 1) ≠ (other.getLsbD 0 = true) then
    { s.logEvent 0x0A03 0 with twin := { s.twin with state := .unpaired, peerOk := false } }
  else if fieldAt p 4 4 ≠ Config.rowsem.toNat then
    { s.logEvent 0x0A04 0 with twin := { s.twin with state := .unpaired, peerOk := false } }
  else { s with twin := { s.twin with peerOk := true } }

/-- The link has been trained: frame numbers start at 1 on both sides. -/
def State.trainLink (s : State) : State :=
  { s with twin := { s.twin.trusted with couchUp := true, couchDown := false, fseqTx := 0, fseqRx := 0, unacked := [] } }.sendAttach

/-- ATTACH (R328, Table 13.10): the first frame after training. The bench strap and a broken strap rule keep the module
unpaired without a link. -/
def execAttach (f : Frame) (s : State) : Host.Outcome State Fault Refusal :=
  if !s.up || s.straps.boot = 1 || s.twin.strapBad || couchLanes s.twin.lanes < 8 || !f.wellFormed 0x0A then .next s
  else
    let s := if f.fseq = 1 && (!s.twin.couchUp || s.twin.fseqRx ≠ 0) then s.trainLink else s
    .next (s.takeFrame 0x0A f (fun s => s.takeAttach f))

/-- GEN_ANNOUNCE to every peer. -/
def State.announce (s : State) (g : BitVec 32) : State :=
  s.fab.peers.foldl (fun s p => s.sendMsg 0x46 (s.newMsg 0x46 p 2 0 0 (s.self.setWidth 32) 0 0 g [])) s

/-- SEQ counts from 1 in a new generation (Table 7.6). -/
def Exch.freshSeq (x : Exch) : Exch :=
  { x with txSeq := [], retained := x.retained.map (fun t => (t.1, { t.2 with seq := 0 })) }

/-- A grant taken: generation, peers, queue pairs and announcements; a module whose twin has agreed starts the resync. -/
def State.takeGrant (s : State) (gen : BitVec 32) (peers : List (BitVec 14)) : State :=
  let ps := (peers ++ [s.twinId]).eraseDups.filter (fun p => p ≠ s.self)
  let s := { s with fab := { s.fab with gen := gen, peers := ps, stopped := false } }
  let s := { s with slurry := s.slurry.map Exch.freshSeq }
  let s := (s.connectPeers ps).announce gen
  if s.twin.strapBad || !s.twin.peerOk || !s.twin.couchUp then { s with twin := { s.twin with state := .unpaired } }
  else s.startResync

/-- ATTACH_GRANT (R337, Table 15.9): tunnel only; the generation is above the one held. With the bench strap no fabric attach
takes place (Table 15.10). -/
def execAttachGrant (path : Path) (gen : BitVec 32) (peers : List (BitVec 14)) (s : State) :
    Host.Outcome State Fault Refusal :=
  .next (s.onModulePath path (fun s =>
    if !isTunnel path || s.straps.boot = 1 then s.answer path false 0x0C03 []
    else if gen.toNat ≤ s.fab.gen.toNat then s.answer path false 0x0C05 []
    else
      let rest := s.dict.transfers.filter (fun t => t.path ≠ wayOf path)
      ({ s with dict := { s.dict with transfers := rest } }.takeGrant gen peers).answer path false 0 []))

/-- DETACH (R347). -/
def execDetach (s : State) : Host.Outcome State Fault Refusal :=
  if !s.up || s.twin.state = .detaching then .next s
  else
    let mine := s.twin.leases.filter (·.mine)
    let s := mine.foldl (fun s l => (s.sendLease l 3).dropLease true l.kind l.object) s
    let s := s.announce (s.fab.gen + 1)
    .next { s with twin := { s.twin with state := .detaching } }

end Sys2Proof.Machine
end

