-- ==== Sys2Proof/Machine/MemoryEvents.lean ====
section
/-! DEFINITION. Events of the memory tiers (R300, R301, R303, R304): patrol scrub, row sparing, tier B keys and a tier B
port that goes down. -/

namespace Sys2Proof.Machine

open Sys2Proof

/-- PATROL_SCRUB (R300): one period's pass over tier A. Corrected lines are written back; the corrected errors of each
DRAM row are those of this period (R301). -/
def execPatrolScrub (s : State) : Host.Outcome State Fault Refusal :=
  let fixed := s.mem.ecc.filter (fun e => e.2 = 1)
  let rows : Assoc Nat := fixed.foldl (fun r e =>
    let d := rowOfLine e.1
    Assoc.set 0 r d (Assoc.get 0 r d + 1)) []
  .next (({ s with mem := { s.mem with ecc := s.mem.ecc.filter (fun e => e.2 ≠ 1), rowErrors := rows } }).bump
    0x48000E fixed.length)

/-- ROW_SPARE (R301): a row that has reached SPARE_THRESHOLD corrected errors is mapped to a spare of its bank, its lines
keeping their values; with no spare left that is only reported (MEM_SPARE_EXHAUSTED). -/
def execRowSpare (row : Nat) (s : State) : Host.Outcome State Fault Refusal :=
  if Assoc.get 0 s.mem.rowErrors row < s.furn 0x480007 8 then .next s
  else
    let bank := bankOfRow row
    let used := Assoc.get 0 s.mem.sparesUsed bank
    if used < Config.spareRows bank then
      .next (({ s with mem := { s.mem with
        sparesUsed := Assoc.set 0 s.mem.sparesUsed bank (used + 1), rowErrors := Assoc.set 0 s.mem.rowErrors row 0,
        ecc := s.mem.ecc.filter (fun e => !(e.2 = 1 && rowOfLine e.1 = row)) } }).bump 0x480010 1)
    else .next (s.logEvent 0x0910 row)

/-- IDE_REKEY (R303): the keys of a populated port are refreshed. -/
def execIdeRekey (port : BitVec 2) (s : State) : Host.Outcome State Fault Refusal :=
  if s.straps.tierbEn && (s.mem.tierB[port.toNat]) ≠ 0 then
    let keys := s.sec.ideKeys.set port.toNat (s.sec.ideKeys[port.toNat] + 1)
    .next { s with sec := { s.sec with ideKeys := keys } }
  else .next s

/-- A job has an allocation on a port, or a table or a table's shard in tier B (log entry 54). -/
def State.jobOnPort (s : State) (jid : BitVec 64) (port : Nat) : Bool :=
  s.hb.allocs.any (fun e => e.2.live && e.2.tierB && e.2.job = jid && s.mem.onPort e.2.base e.2.extent port) ||
    s.felt.tables.any (fun t => t.job = some jid &&
      (t.tierB || s.rst.shardPlace.any (fun p => p.1 = t.id && inTierB p.2.2)))

/-- TIERB_PORT_DOWN (R304): the jobs with allocations on the port stop (MEM_TIERB_LOST). -/
def execTierbPortDown (port : BitVec 2) (s : State) : Host.Outcome State Fault Refusal :=
  if s.straps.tierbEn && s.up && (s.mem.tierB[port.toNat]) ≠ 0 then
    let t := { s with mem := { s.mem with tierBDown := s.mem.tierBDown ||| BitVec.ofNat 4 (2 ^ port.toNat) } }
    .next ((t.hb.jobs.filter (fun j => t.jobOnPort j.job port.toNat)).foldl (fun s j => s.stopJob j.job 0x0903) t)
  else .next s

end Sys2Proof.Machine
end

