-- ==== Sys2Proof/Machine/Entries.lean ====
section
/-! DEFINITION. The object dictionary's entries (15, and the entry tables of chapters 6 to 17): type, access, source, default
and range of each, the checks of a write (R373, R374), and the values entries read as. A key is index × 256 + sub-index. -/

namespace Sys2Proof.Machine

open Sys2Proof

/-! ### Entries -/

/-- Data types (Table 15.1); integers by their bytes. -/
inductive EType where
  | bool
  | uint (n : Nat)
  | int (n : Nat)
  | visible
  | octet
  | domain
deriving DecidableEq, Repr

/-- Access rights (Table 15.2). -/
inductive Access where
  | ro
  | rw
  | wo
  | rws
deriving DecidableEq, Repr

/-- Sources (Table 15.2). -/
inductive Source where
  | module
  | strap
  | furnish
  | grade
deriving DecidableEq, Repr

/-- An entry; `lo` and `hi` bound the value of an unsigned entry. -/
structure DictEntry where
  key    : Nat
  type   : EType
  access : Access
  source : Source
  dflt   : Nat
  lo     : Nat
  hi     : Nat
deriving DecidableEq, Repr

/-- Table 15.9: identity and communication. -/
def entriesOf0 : List DictEntry :=
  [⟨0x100000, .uint 4, .ro, .module, 0, 0, 4294967295⟩, ⟨0x100100, .uint 1, .ro, .module, 0, 0, 255⟩,
   ⟨0x100800, .visible, .ro, .module, 0, 0, 0⟩, ⟨0x100A00, .visible, .ro, .module, 0, 0, 0⟩,
   ⟨0x101700, .uint 2, .rw, .furnish, 1000, 0, 65535⟩, ⟨0x101801, .uint 4, .ro, .module, 0, 0, 4294967295⟩,
   ⟨0x101802, .uint 4, .ro, .module, 0, 0, 4294967295⟩, ⟨0x101803, .uint 4, .ro, .module, 0, 0, 4294967295⟩,
   ⟨0x101804, .uint 4, .ro, .module, 0, 0, 4294967295⟩, ⟨0x1F8001, .uint 4, .ro, .module, 0, 0, 4294967295⟩,
   ⟨0x1F8101, .uint 1, .rw, .furnish, 0, 0, 255⟩, ⟨0x1F8102, .uint 1, .ro, .strap, 0, 0, 255⟩,
   ⟨0x1F8201, .octet, .rw, .furnish, 0, 0, 0⟩]

/-- Tables 15.10, 15.17: straps, furnish, grades. -/
def entriesOf1 : List DictEntry :=
  [⟨0x200001, .uint 2, .ro, .strap, 0, 0, 65535⟩, ⟨0x200002, .bool, .ro, .strap, 0, 0, 1⟩,
   ⟨0x200003, .uint 1, .ro, .strap, 0, 0, 255⟩, ⟨0x200004, .uint 1, .ro, .strap, 0, 0, 255⟩,
   ⟨0x200005, .uint 1, .ro, .strap, 0, 0, 255⟩, ⟨0x200006, .bool, .ro, .strap, 0, 0, 1⟩,
   ⟨0x200007, .uint 1, .ro, .strap, 0, 0, 255⟩, ⟨0x200008, .bool, .ro, .strap, 0, 0, 1⟩,
   ⟨0x201001, .domain, .wo, .module, 0, 0, 0⟩, ⟨0x201002, .uint 4, .ro, .module, 0, 0, 4294967295⟩,
   ⟨0x201003, .uint 4, .ro, .module, 0, 0, 4294967295⟩, ⟨0x201004, .uint 2, .ro, .module, 0, 0, 65535⟩,
   ⟨0x201005, .bool, .ro, .module, 0, 0, 1⟩, ⟨0x210001, .uint 1, .ro, .module, 0, 0, 255⟩,
   ⟨0x210002, .uint 2, .ro, .module, 0, 0, 65535⟩, ⟨0x210003, .uint 8, .wo, .module, 0, 0, 18446744073709551615⟩,
   ⟨0x210004, .uint 8, .wo, .module, 0, 0, 18446744073709551615⟩, ⟨0x210005, .uint 1, .ro, .module, 0, 0, 255⟩,
   ⟨0x210006, .uint 8, .ro, .module, 0, 0, 18446744073709551615⟩]

/-- Table 11.16: Headbox. -/
def entriesOf2 : List DictEntry :=
  [⟨0x300001, .uint 1, .ro, .module, 0, 0, 255⟩, ⟨0x300002, .uint 4, .rw, .furnish, 4096, 1, 65536⟩,
   ⟨0x300003, .uint 1, .rw, .furnish, 0, 0, 2⟩, ⟨0x300004, .uint 8, .ro, .module, 0, 0, 18446744073709551615⟩,
   ⟨0x300005, .uint 8, .wo, .module, 0, 0, 18446744073709551615⟩,
   ⟨0x300006, .uint 8, .ro, .module, 0, 0, 18446744073709551615⟩, ⟨0x300007, .uint 1, .rw, .furnish, 3, 1, 15⟩,
   ⟨0x300008, .uint 1, .rw, .furnish, 1, 0, 4⟩, ⟨0x300009, .uint 4, .rw, .furnish, 200, 0, 4294967295⟩,
   ⟨0x30000A, .uint 8, .ro, .module, 0, 0, 18446744073709551615⟩, ⟨0x30000B, .uint 4, .rw, .module, 0, 0, 4294967295⟩,
   ⟨0x30000C, .uint 8, .ro, .module, 0, 0, 18446744073709551615⟩,
   ⟨0x30000D, .uint 8, .ro, .module, 0, 0, 18446744073709551615⟩,
   ⟨0x30000E, .uint 8, .ro, .module, 0, 0, 18446744073709551615⟩,
   ⟨0x30000F, .uint 8, .ro, .module, 0, 0, 18446744073709551615⟩,
   ⟨0x301001, .uint 8, .rw, .furnish, 160000000000, 0, 18446744073709551615⟩,
   ⟨0x301002, .uint 8, .rw, .furnish, 200000000000, 0, 18446744073709551615⟩,
   ⟨0x301003, .uint 8, .rw, .furnish, 160000000000, 0, 18446744073709551615⟩,
   ⟨0x301004, .uint 8, .rw, .furnish, 64000000000, 0, 18446744073709551615⟩,
   ⟨0x301005, .uint 8, .rw, .furnish, 2000000000, 0, 18446744073709551615⟩,
   ⟨0x301006, .uint 4, .rw, .furnish, 16777216, 0, 4294967295⟩,
   ⟨0x301007, .uint 4, .rw, .furnish, 65536, 0, 4294967295⟩]

/-- Table 15.9, Table 15.19: Deckle cores. -/
def entriesOf3 : List DictEntry :=
  [⟨0x340001, .uint 2, .rw, .furnish, 32, 0, 1024⟩, ⟨0x340002, .uint 8, .ro, .module, 0, 0, 18446744073709551615⟩,
   ⟨0x340003, .uint 1, .rw, .grade, 0, 0, 1⟩, ⟨0x340004, .uint 2, .ro, .module, 0, 0, 65535⟩,
   ⟨0x340005, .uint 1, .ro, .module, 0, 0, 255⟩, ⟨0x340006, .uint 2, .wo, .module, 0, 0, 1023⟩,
   ⟨0x340007, .domain, .wo, .module, 0, 0, 0⟩, ⟨0x340008, .uint 4, .ro, .module, 0, 0, 4294967295⟩,
   ⟨0x340009, .uint 1, .wo, .module, 0, 0, 63⟩, ⟨0x34000A, .uint 4, .rw, .furnish, 5000, 100, 60000⟩]

/-- Table 9.9: Felt. -/
def entriesOf4 : List DictEntry :=
  [⟨0x380001, .uint 8, .rw, .furnish, 400000000000, 0, 1200000000000⟩,
   ⟨0x380002, .uint 8, .rw, .furnish, 4000000000, 0, 18446744073709551615⟩,
   ⟨0x380003, .uint 8, .rw, .furnish, 16000000000, 0, 18446744073709551615⟩,
   ⟨0x380004, .uint 1, .rw, .grade, 0, 0, 1⟩, ⟨0x380005, .uint 2, .rw, .furnish, 512, 0, 2048⟩,
   ⟨0x380006, .uint 1, .rw, .grade, 1, 0, 1⟩, ⟨0x380007, .uint 4, .rw, .furnish, 4096, 0, 4294967295⟩,
   ⟨0x380008, .uint 4, .rw, .furnish, 65536, 0, 4294967295⟩, ⟨0x380009, .uint 4, .rw, .furnish, 1000, 0, 4294967295⟩,
   ⟨0x38000A, .uint 8, .ro, .module, 0, 0, 18446744073709551615⟩,
   ⟨0x38000B, .uint 8, .ro, .module, 0, 0, 18446744073709551615⟩,
   ⟨0x38000C, .uint 8, .ro, .module, 0, 0, 18446744073709551615⟩,
   ⟨0x38000D, .uint 8, .ro, .module, 0, 0, 18446744073709551615⟩,
   ⟨0x38000E, .uint 8, .ro, .module, 0, 0, 18446744073709551615⟩]

/-- Table 10.13: Watermark. -/
def entriesOf5 : List DictEntry :=
  [⟨0x3C0001, .uint 1, .rw, .furnish, 2, 0, 8⟩, ⟨0x3C0002, .uint 8, .ro, .module, 0, 0, 18446744073709551615⟩,
   ⟨0x3C0003, .uint 8, .ro, .module, 0, 0, 18446744073709551615⟩,
   ⟨0x3C0004, .uint 8, .ro, .module, 0, 0, 18446744073709551615⟩, ⟨0x3C0005, .uint 1, .ro, .module, 0, 0, 255⟩,
   ⟨0x3C0006, .uint 1, .ro, .module, 0, 0, 255⟩]

/-- Table 6.14: Pulper. -/
def entriesOf6 : List DictEntry :=
  [⟨0x400001, .uint 1, .rw, .furnish, 16, 0, 255⟩, ⟨0x400002, .uint 4, .rw, .furnish, 65536, 0, 4294967295⟩,
   ⟨0x400003, .uint 1, .rw, .grade, 0, 0, 1⟩, ⟨0x400004, .uint 1, .rw, .grade, 0, 0, 1⟩,
   ⟨0x400005, .uint 4, .rw, .grade, 50000, 0, 4294967295⟩, ⟨0x400006, .uint 1, .rw, .grade, 0, 0, 1⟩,
   ⟨0x400007, .uint 4, .rw, .furnish, 0, 0, 4294967295⟩,
   ⟨0x400010, .uint 8, .ro, .module, 0, 0, 18446744073709551615⟩,
   ⟨0x400011, .uint 8, .ro, .module, 0, 0, 18446744073709551615⟩, ⟨0x400012, .uint 2, .ro, .module, 0, 0, 65535⟩]

/-- Tables 7.10, 8.11: joins, Slurry, Calender. -/
def entriesOf7 : List DictEntry :=
  [⟨0x440001, .uint 8, .rw, .furnish, 256000000000, 0, 18446744073709551615⟩,
   ⟨0x440002, .uint 8, .rw, .furnish, 16000000000, 0, 18446744073709551615⟩,
   ⟨0x440003, .uint 4, .rw, .furnish, 65536, 0, 4294967295⟩, ⟨0x440004, .uint 1, .rw, .grade, 1, 0, 1⟩,
   ⟨0x440005, .uint 8, .ro, .module, 0, 0, 18446744073709551615⟩,
   ⟨0x440006, .uint 8, .ro, .module, 0, 0, 18446744073709551615⟩,
   ⟨0x441001, .uint 8, .rw, .furnish, 64000000000, 0, 18446744073709551615⟩,
   ⟨0x441002, .uint 8, .ro, .module, 0, 0, 18446744073709551615⟩,
   ⟨0x441003, .uint 8, .ro, .module, 0, 0, 18446744073709551615⟩,
   ⟨0x441004, .uint 8, .ro, .module, 0, 0, 18446744073709551615⟩,
   ⟨0x441005, .uint 8, .ro, .module, 0, 0, 18446744073709551615⟩,
   ⟨0x441006, .uint 8, .ro, .module, 0, 0, 18446744073709551615⟩, ⟨0x442001, .uint 4, .rw, .furnish, 1024, 0, 65536⟩,
   ⟨0x442002, .uint 8, .ro, .module, 0, 0, 18446744073709551615⟩,
   ⟨0x442003, .uint 8, .ro, .module, 0, 0, 18446744073709551615⟩,
   ⟨0x442004, .uint 8, .ro, .module, 0, 0, 18446744073709551615⟩]

/-- Table 12.9: memory tiers and classes. -/
def entriesOf8 : List DictEntry :=
  [⟨0x480001, .uint 8, .ro, .module, 0, 0, 18446744073709551615⟩, ⟨0x480002, .uint 1, .ro, .module, 0, 0, 255⟩,
   ⟨0x480003, .uint 8, .ro, .module, 0, 0, 18446744073709551615⟩, ⟨0x480004, .bool, .ro, .strap, 0, 0, 1⟩,
   ⟨0x480005, .uint 8, .ro, .module, 0, 0, 18446744073709551615⟩, ⟨0x480006, .uint 1, .rw, .furnish, 24, 1, 168⟩,
   ⟨0x480007, .uint 2, .rw, .furnish, 8, 1, 1024⟩, ⟨0x480008, .uint 2, .rw, .furnish, 128, 64, 1024⟩,
   ⟨0x480009, .uint 2, .rw, .furnish, 64, 64, 1024⟩, ⟨0x48000A, .uint 2, .rw, .furnish, 512, 64, 1024⟩,
   ⟨0x48000B, .uint 1, .rw, .furnish, 4, 1, 8⟩, ⟨0x48000C, .bool, .rw, .grade, 1, 0, 1⟩,
   ⟨0x48000D, .bool, .rw, .grade, 1, 0, 1⟩, ⟨0x48000E, .uint 8, .ro, .module, 0, 0, 18446744073709551615⟩,
   ⟨0x48000F, .uint 8, .ro, .module, 0, 0, 18446744073709551615⟩, ⟨0x480010, .uint 4, .ro, .module, 0, 0, 4294967295⟩,
   ⟨0x481001, .uint 1, .rw, .furnish, 25, 0, 50⟩, ⟨0x481002, .uint 1, .rw, .furnish, 5, 0, 25⟩,
   ⟨0x481003, .uint 1, .rw, .furnish, 16, 0, 64⟩, ⟨0x481004, .uint 1, .rw, .furnish, 5, 0, 25⟩,
   ⟨0x481005, .uint 2, .rw, .furnish, 128, 0, 1024⟩, ⟨0x481006, .uint 8, .ro, .module, 0, 0, 18446744073709551615⟩,
   ⟨0x481007, .uint 8, .ro, .module, 0, 0, 18446744073709551615⟩, ⟨0x481008, .uint 4, .ro, .module, 0, 0, 4294967295⟩]

/-- Table 13.12, Table 15.9: fabric and Couch link. -/
def entriesOf9 : List DictEntry :=
  [⟨0x4C0001, .uint 1, .ro, .module, 0, 0, 255⟩, ⟨0x4C0002, .uint 1, .rw, .furnish, 16, 2, 64⟩,
   ⟨0x4C0003, .uint 2, .rw, .furnish, 50, 10, 1000⟩, ⟨0x4C0004, .uint 2, .rw, .furnish, 64, 16, 256⟩,
   ⟨0x4C0005, .uint 4, .ro, .module, 0, 0, 4294967295⟩, ⟨0x4C0006, .uint 1, .ro, .module, 0, 0, 255⟩,
   ⟨0x4C0007, .uint 2, .rw, .furnish, 100, 50, 500⟩, ⟨0x4C0008, .uint 1, .rw, .furnish, 15, 4, 38⟩,
   ⟨0x4C0009, .uint 2, .rw, .furnish, 200, 50, 1000⟩, ⟨0x4C000A, .uint 2, .rw, .furnish, 500, 100, 5000⟩,
   ⟨0x4C000B, .uint 1, .ro, .module, 0, 0, 255⟩,
   ⟨0x4C000C, .uint 8, .rw, .furnish, 4000000000, 0, 18446744073709551615⟩,
   ⟨0x4C000D, .uint 4, .rw, .furnish, 256, 16, 65536⟩, ⟨0x4C000E, .uint 4, .rw, .furnish, 16, 0, 4294967295⟩,
   ⟨0x4C000F, .uint 8, .ro, .module, 0, 0, 18446744073709551615⟩,
   ⟨0x4C0010, .uint 8, .ro, .module, 0, 0, 18446744073709551615⟩,
   ⟨0x4C0011, .uint 8, .ro, .module, 0, 0, 18446744073709551615⟩,
   ⟨0x4C0012, .uint 4, .rw, .furnish, 10000, 1000, 1000000⟩, ⟨0x4C2001, .domain, .wo, .module, 0, 0, 0⟩,
   ⟨0x4C2002, .uint 1, .wo, .module, 0, 0, 255⟩]

/-- Table 14.9: reset. -/
def entriesOf10 : List DictEntry :=
  [⟨0x500001, .uint 4, .ro, .module, 0, 0, 4294967295⟩, ⟨0x500002, .uint 4, .wo, .module, 0, 0, 4294967295⟩,
   ⟨0x500003, .uint 1, .wo, .module, 0, 0, 63⟩, ⟨0x500004, .uint 2, .wo, .module, 0, 0, 65535⟩,
   ⟨0x500005, .uint 1, .wo, .module, 0, 0, 255⟩, ⟨0x500006, .uint 1, .ro, .module, 0, 0, 255⟩,
   ⟨0x500007, .uint 1, .ro, .strap, 0, 0, 255⟩, ⟨0x500008, .uint 1, .wo, .module, 0, 0, 255⟩,
   ⟨0x500009, .bool, .ro, .module, 0, 0, 1⟩, ⟨0x50000A, .uint 2, .rw, .furnish, 1000, 100, 10000⟩,
   ⟨0x50000B, .uint 4, .ro, .module, 0, 0, 4294967295⟩, ⟨0x50000C, .uint 8, .rw, .module, 0, 0, 18446744073709551615⟩,
   ⟨0x50000D, .uint 1, .ro, .module, 0, 0, 255⟩, ⟨0x50000E, .uint 4, .ro, .module, 0, 0, 4294967295⟩,
   ⟨0x50000F, .uint 4, .ro, .module, 0, 0, 4294967295⟩]

/-- Tables 16.9, 17.9: power, coolant, security. -/
def entriesOf11 : List DictEntry :=
  [⟨0x540001, .uint 1, .ro, .module, 0, 0, 255⟩, ⟨0x540002, .uint 1, .rw, .furnish, 4, 1, 16⟩,
   ⟨0x540003, .uint 1, .rw, .furnish, 10, 5, 30⟩, ⟨0x540004, .uint 4, .rw, .furnish, 50000, 1000, 1000000⟩,
   ⟨0x540005, .uint 2, .rw, .furnish, 2600, 1200, 2600⟩, ⟨0x540006, .uint 1, .rw, .furnish, 100, 70, 100⟩,
   ⟨0x540007, .bool, .rw, .furnish, 1, 0, 1⟩, ⟨0x540008, .uint 2, .rw, .furnish, 168, 1, 8760⟩,
   ⟨0x540009, .uint 1, .rw, .furnish, 20, 10, 60⟩, ⟨0x54000A, .uint 1, .rw, .furnish, 50, 10, 60⟩,
   ⟨0x54000B, .uint 4, .ro, .module, 0, 0, 4294967295⟩, ⟨0x54000C, .uint 2, .ro, .module, 0, 0, 65535⟩,
   ⟨0x54000D, .uint 8, .ro, .module, 0, 0, 18446744073709551615⟩, ⟨0x54000E, .bool, .ro, .module, 0, 0, 1⟩,
   ⟨0x542001, .int 2, .ro, .module, 0, 0, 65535⟩, ⟨0x542002, .int 2, .ro, .module, 0, 0, 65535⟩,
   ⟨0x580001, .uint 1, .ro, .module, 0, 0, 255⟩, ⟨0x580002, .uint 4, .wo, .module, 0, 0, 4294967295⟩,
   ⟨0x580003, .octet, .ro, .module, 0, 0, 0⟩, ⟨0x580004, .domain, .wo, .module, 0, 0, 0⟩,
   ⟨0x580005, .domain, .wo, .module, 0, 0, 0⟩, ⟨0x580006, .uint 4, .ro, .module, 0, 0, 4294967295⟩,
   ⟨0x580007, .uint 1, .ro, .module, 0, 0, 255⟩]

/-- Table 16.9: Ream meter. -/
def entriesOf12 : List DictEntry :=
  [⟨0x600001, .uint 4, .ro, .module, 0, 0, 4294967295⟩, ⟨0x600002, .uint 8, .ro, .module, 0, 0, 18446744073709551615⟩,
   ⟨0x600003, .uint 2, .ro, .module, 0, 0, 65535⟩, ⟨0x600004, .uint 4, .ro, .module, 0, 0, 4294967295⟩,
   ⟨0x600005, .bool, .ro, .module, 0, 0, 1⟩, ⟨0x600006, .uint 4, .ro, .module, 0, 0, 4294967295⟩,
   ⟨0x600007, .uint 4, .ro, .module, 0, 0, 4294967295⟩, ⟨0x600008, .uint 4, .ro, .module, 0, 0, 4294967295⟩,
   ⟨0x600009, .int 4, .rws, .module, 0, 0, 4294967295⟩, ⟨0x60000A, .int 4, .rws, .module, 0, 0, 4294967295⟩,
   ⟨0x60000B, .domain, .rws, .module, 0, 0, 0⟩, ⟨0x601001, .domain, .ro, .module, 0, 0, 0⟩,
   ⟨0x602001, .domain, .ro, .module, 0, 0, 0⟩, ⟨0x610001, .domain, .ro, .module, 0, 0, 0⟩]

/-- Consecutive entries of one form. -/
def entryRun (first n : Nat) (e : DictEntry) : List DictEntry := (List.range n).map (fun i => { e with key := first + i })

/-- FW_REV, SPARE_MAP and VAT_CORES_ACTIVE of each Vat, slots, digests, thresholds of each die, and the eight grades. -/
def entriesRuns : List DictEntry :=
  entryRun 0x341001 64 ⟨0, .uint 4, .ro, .module, 0, 0, 0⟩ ++ entryRun 0x342001 64 ⟨0, .uint 1, .ro, .module, 0, 0, 0⟩ ++
    entryRun 0x343001 64 ⟨0, .uint 1, .ro, .module, 0, 0, 0⟩ ++
    entryRun 0x3C1001 16 ⟨0, .uint 8, .rw, .grade, 0, 0, 18446744073709551615⟩ ++
    entryRun 0x3C2001 255 ⟨0, .uint 8, .ro, .module, 0, 0, 0⟩ ++ entryRun 0x541001 4 ⟨0, .uint 1, .rw, .furnish, 30, 0, 255⟩ ++
    (List.range 8).flatMap (fun n =>
      [⟨0x211001 + 256 * n, .domain, .rw, .module, 0, 0, 0⟩, ⟨0x211002 + 256 * n, .uint 2, .ro, .module, 0, 0, 0⟩,
       ⟨0x211003 + 256 * n, .bool, .ro, .module, 0, 0, 0⟩])

def entries : List DictEntry :=
  entriesOf0 ++ entriesOf1 ++ entriesOf2 ++ entriesOf3 ++ entriesOf4 ++ entriesOf5 ++ entriesOf6 ++
    entriesOf7 ++ entriesOf8 ++ entriesOf9 ++ entriesOf10 ++ entriesOf11 ++ entriesOf12 ++ entriesRuns

/-- Sub-indices in use of an index. -/
def subsOf (index : Nat) : List Nat := (entries.filter (fun e => e.key / 256 = index)).map (fun e => e.key % 256)

/-- The entry of a key, or the code of the first existence check that fails; sub-index 0 of an index with further
sub-indices holds the highest one. -/
def dictEntryAt (key : Nat) : Except (BitVec 16) DictEntry :=
  match entries.find? (fun e => e.key = key) with
  | some e => .ok e
  | none =>
    match subsOf (key / 256) with
    | [] => .error 0x0C01
    | subs => if key % 256 = 0 then .ok ⟨key, .uint 1, .ro, .module, subs.foldl max 0, 0, 0⟩ else .error 0x0C02

/-- Bytes of a value of a type of fixed length. -/
def EType.bytes : EType → Nat
  | .bool => 1
  | .uint n => n
  | .int n => n
  | .visible => 64
  | .octet => 16
  | .domain => 0

/-- A value lies in an entry's range; `get` reads the entries that bound it (R320, R332, Table 13.12, R395,
R408). -/
def DictEntry.accepts (e : DictEntry) (get : Nat → Nat → Nat) (v : Nat) : Bool :=
  decide (e.lo ≤ v) && decide (v ≤ e.hi) &&
    (if e.key = 0x340001 then v = 0 || 16 ≤ v
     else if e.key = 0x1F8101 then v / 16 ≤ 1 && v % 16 ≤ 2
     else if e.key = 0x4C0007 then v * get 0x4C0008 15 ≤ 1900
     else if e.key = 0x4C0008 then v * get 0x4C0007 100 ≤ 1900
     else if e.key = 0x4C000E then 2 * v < get 0x4C000D 256
     else if e.key = 0x480008 then get 0x480009 64 ≤ v && v ≤ get 0x48000A 512
     else if e.key = 0x480009 then v ≤ get 0x480008 128
     else if e.key = 0x48000A then get 0x480008 128 ≤ v
     else if e.key = 0x540009 then v ≤ get 0x54000A 50 && (List.range 4).all (fun d => v ≤ get (0x541001 + d) 30)
     else if e.key = 0x54000A then get 0x540009 20 ≤ v && (List.range 4).all (fun d => get (0x541001 + d) 30 ≤ v)
     else if 0x541001 ≤ e.key && e.key ≤ 0x541004 then get 0x540009 20 ≤ v && v ≤ get 0x54000A 50
     else true)

/-- Furnish entries locked while a job is loaded (Table 15.13). -/
def lockedKey (key : Nat) : Bool :=
  [0x300002, 0x300007, 0x380001, 0x380002, 0x380003, 0x400001, 0x400002, 0x400007, 0x440001, 0x440002, 0x440003,
   0x441001, 0x442001, 0x4C000C].contains key || (0x301001 ≤ key && key ≤ 0x301007)

/-- Change the live value of a Furnish entry (R383): one equal to the furnish's is no edit. -/
def State.setLive (s : State) (key d v : Nat) : State :=
  { s with dict := { s.dict with live := Assoc.set (Assoc.get d s.dict.furnish.entries key) s.dict.live key v } }

/-! ### Values the module sets (source Module and Strap) -/

/-- A GRADE_SCHEDULE value: grade in [55:48], reel in [47:0]. -/
def switchValue (x : BitVec 48 × BitVec 3) : Nat := x.2.toNat * 2 ^ 48 + x.1.toNat

/-- The earliest pending switch, or 0. -/
def State.nextSwitch (s : State) : Nat :=
  match lowest (s.dict.schedule.map (fun x => x.1.toNat)) with
  | some r => match s.dict.schedule.find? (fun x => x.1.toNat = r) with
    | some x => switchValue x
    | none => 0
  | none => 0

def countCores (s : State) (v : Nat) : Nat := 16 - (s.dict.coresOut.filter (fun c => c.vat.toNat = v)).length

def countBanks (s : State) (b : Bank) : Nat := ((s.wm.banks.toList.flatMap (·.toList)).filter (· = b)).length

def boolNat (b : Bool) : Nat := if b then 1 else 0

/-- Values of identity, straps, furnish and grades. -/
def State.valueOfIdentity (s : State) (key : Nat) : Nat :=
  if key = 0x101801 then 0x0A3E
  else if key = 0x101802 then 0x0CD0
  else if key = 0x101803 then Config.moduleRevision.toNat
  else if key = 0x101804 then Config.moduleSerial.toNat
  else if key = 0x1F8001 then Config.rowsem.toNat
  else if key = 0x1F8102 || key = 0x200004 then s.straps.canNode.toNat
  else if key = 0x200001 then s.straps.modid.toNat
  else if key = 0x200002 then boolNat s.straps.twinb
  else if key = 0x200003 then s.straps.boot.toNat
  else if key = 0x200005 then s.straps.maxFail.toNat
  else if key = 0x200006 || key = 0x480004 then boolNat s.straps.tierbEn
  else if key = 0x200007 then s.straps.grade.toNat
  else if key = 0x200008 then boolNat s.straps.safeClk
  else if key = 0x201002 then s.dict.furnish.rev.toNat
  else if key = 0x201003 then (match s.dict.pending with | some f => f.rev.toNat | none => 0)
  else if key = 0x201004 then s.dict.live.length
  else if key = 0x201005 then boolNat (s.breaksRepro [])
  else if key = 0x210001 then s.dict.active.toNat
  else if key = 0x210002 then (s.dict.grades[s.dict.active.toNat]).rev.toNat
  else if key = 0x210005 then s.dict.schedule.length
  else if key = 0x210006 then s.nextSwitch
  else
    let n : BitVec 3 := BitVec.ofNat 3 ((key - 0x211000) / 256)
    let g := s.dict.grades[n.toNat]
    if key % 256 = 2 then g.rev.toNat else boolNat (s.breaksRepro g.entries)

/-- Values of the Headbox, the cores, the units and the memory tiers. -/
def State.valueOfWork (s : State) (key : Nat) : Nat :=
  if key = 0x300001 then boolNat s.hb.pull
  else if key = 0x300004 then s.hb.reel.toNat
  else if key = 0x30000A then s.hb.stampHorizon
  else if key = 0x30000B then s.hb.reelQp.toNat
  else if key = 0x340002 then contextBase
  else if key = 0x340004 then 1024 - s.dict.coresOut.length
  else if key = 0x340005 then 64 - s.dict.spareMap.length
  else if key = 0x340008 then (match s.dict.fwStaged with | some b => (Config.fwRev b).toNat | none => 0)
  else if 0x341000 < key && key ≤ 0x341040 then s.modVal key Config.fwRelease.toNat
  else if 0x342000 < key && key ≤ 0x342040 then (Assoc.get 0xFF s.dict.spareMap (key - 0x342001)).toNat
  else if 0x343000 < key && key ≤ 0x343040 then countCores s (key - 0x343001)
  else if key = 0x3C0005 then countBanks s .free
  else if key = 0x3C0006 then countBanks s .retired
  else if 0x3C2000 < key && key ≤ 0x3C20FF then
    match s.wmSet? (BitVec.ofNat 16 (key - 0x3C2000)) with
    | some x => x.digest.toNat
    | none => 0
  else if key = 0x480001 then 2560000000000
  else if key = 0x480004 then boolNat s.straps.tierbEn
  else if key = 0x480002 then
    if s.straps.tierbEn then (s.mem.portsIn.map (fun p => 2 ^ p.1)).foldl (· + ·) 0 else 0
  else if key = 0x480003 then s.tierBBytes
  else if key = 0x480005 then (if s.up then Config.tierCBytes.toNat else 0)
  else s.modVal key 0

/-- Values of the fabric, resets, power, security and the meter. -/
def State.valueOfModule (s : State) (key : Nat) : Nat :=
  if key = 0x4C0001 then s.fab.ports.toNat
  else if key = 0x4C0005 then s.fab.gen.toNat
  else if key = 0x4C0006 then twinStateNumber s.twin.state
  else if key = 0x4C000B then couchLanes s.twin.lanes
  else if key = 0x500001 then s.rst.cause.toNat
  else if key = 0x500006 then s.rst.failCount.toNat
  else if key = 0x500007 then s.failMax
  else if key = 0x500009 then boolNat (s.rst.boot = .recovery)
  else if key = 0x50000B then (Config.bootMs (s.modVal 0x50000E 0 + s.modVal 0x50000F 0)).toNat
  else if key = 0x540001 then s.pow.level
  else if key = 0x580001 then s.sec.state.toNat
  else if key = 0x580006 then s.sec.zeroised
  else if key = 0x580007 then s.sec.tamper.toNat
  else if key = 0x600001 then Config.meterSerial.toNat
  else if key = 0x600002 then s.meter.energy
  else if key = 0x600003 then s.meter.powerW
  else if key = 0x600004 then s.meter.sealBreaks.toNat
  else if key = 0x600005 then boolNat s.meter.sealClosed
  else if key = 0x600006 then s.meter.logCount.toNat
  else if key = 0x600007 then s.meter.fwVersion.toNat
  else if key = 0x600008 then s.meter.fwCrc.toNat
  else if key = 0x600009 then s.meter.gain.toNat
  else if key = 0x60000A then s.meter.offset.toNat
  else s.modVal key 0

/-- Measured quantities: input voltage and power, and coolant temperatures. A read gives a free value. -/
def measured (key : Nat) : Bool := [0x54000B, 0x54000C, 0x542001, 0x542002].contains key

def State.entryValue (s : State) (e : DictEntry) : Nat :=
  match e.source with
  | .furnish => s.furn e.key e.dflt
  | .grade => s.gradeVal e.key e.dflt
  | _ =>
    if e.key % 256 = 0 && e.dflt ≠ 0 then e.dflt
    else if measured e.key then (Config.freeWord s.free e.key).toNat
    else if e.key < 0x300000 then (if e.key = 0x100000 then 0 else if e.key = 0x100100 then s.modVal 0x100100 0 else s.valueOfIdentity e.key)
    else if e.key < 0x4C0000 then s.valueOfWork e.key
    else s.valueOfModule e.key

end Sys2Proof.Machine
end

