-- ==== Sys2Proof/Machine/Grades.lean ====
section
/-! DEFINITION. The furnish (R382, R383), grades (R384, R386) and the grade schedule (R385). -/

namespace Sys2Proof.Machine

open Sys2Proof

/-! ### How a write ends -/

/-- The status of a write, the state it leaves, and the reset source it raises once it has been answered. -/
structure Wrote where
  status : BitVec 16
  state  : State
  source : Option ResetSource
  /-- The write opens the debug access port to this SCOPE once the reset it raises has begun (R407). -/
  debug  : Option (BitVec 2)

def State.wrote (s : State) : Wrote := { status := 0, state := s, source := none, debug := none }
def State.refuse (s : State) (st : BitVec 16) : Wrote := { status := st, state := s, source := none, debug := none }
/-- A write that raises a reset source. -/
def State.raises (s : State) (src : ResetSource) : Wrote := { status := 0, state := s, source := some src, debug := none }

/-- Answer a write on its path. -/
def Wrote.finish (w : Wrote) (path : Path) : State :=
  let t := w.state.answer path false w.status []
  let t := match w.source with
    | some src => t.takeSource src
    | none => t
  match w.debug with
  | some scope => { t with sec := { t.sec with state := 2, debugOpen := true, debugScope := scope } }
  | none => t

/-- A write of an entry of the module on a path. -/
def State.dictAction (s : State) (path : Path) (f : State → Wrote) : State :=
  s.onModulePath path (fun s => (f s).finish path)

/-- Another path writes the same DOMAIN. -/
def State.writtenElsewhere (s : State) (path : Path) (key : Nat) : Bool :=
  s.dict.transfers.any (fun t => t.key = key && t.path ≠ wayOf path)

/-- The path's transfers without one in progress. -/
def State.dropTransfer (s : State) (path : Path) : State :=
  { s with dict := { s.dict with transfers := s.dict.transfers.filter (fun t => t.path ≠ wayOf path) } }

/-- A write of another entry has interrupted the path's transfer (R377). -/
def State.interrupted (s : State) (path : Path) (key : Nat) : State :=
  { s with dict := { s.dict with transfers := s.dict.transfers.filter (fun t => t.path ≠ wayOf path || t.key = key) } }

/-- A DOMAIN written whole: refused while another path writes it, and the path's own transfer is over (R377). -/
def State.wholeWrite (s : State) (path : Path) (key : Nat) (f : State → Wrote) : State :=
  s.dictAction path (fun s =>
    if s.writtenElsewhere path key then (s.interrupted path key).refuse 0x0C0A else f (s.dropTransfer path))

/-! ### Entry records (Table 15.12) -/

/-- Index and sub-index as a key, and value. -/
def recordAt (b : Bytes) (i : Nat) : Nat × Nat :=
  let r := b.drop (0x40 + 16 * i)
  (fieldAt r 0 2 * 256 + fieldAt r 2 1, fieldAt r 8 8)

def imageRecords (b : Bytes) (n : Nat) : List (Nat × Nat) := (List.range n).map (recordAt b)

/-- Strictly increasing Index:Sub order. -/
def rising : List (Nat × Nat) → Bool
  | a :: b :: m => decide (a.1 < b.1) && rising (b :: m)
  | _ => true

/-- Each record names an RW entry of one of the sources, of at most 8 bytes. -/
def recordsNamed (srcs : List Source) (es : List (Nat × Nat)) : Bool :=
  es.all (fun r => match dictEntryAt r.1 with
    | .ok e => e.access = .rw && srcs.contains e.source && e.type.bytes ≤ 8
    | .error _ => false)

/-- Each record's value is one its entry accepts. -/
def recordsInRange (get : Nat → Nat → Nat) (es : List (Nat × Nat)) : Bool :=
  es.all (fun r => match dictEntryAt r.1 with
    | .ok e => e.accepts get r.2
    | .error _ => false)

/-- Each record names an RW entry of one of the sources, with a value it accepts. -/
def recordsGood (srcs : List Source) (get : Nat → Nat → Nat) (es : List (Nat × Nat)) : Bool :=
  recordsNamed srcs es && recordsInRange get es

/-! ### The furnish (Table 15.11, R382) -/

def furnishFormatBad (b : Bytes) : Bool :=
  let n := fieldAt b 0xC 4
  fieldAt b 0 4 ≠ 0x31465644 || fieldAt b 4 2 ≠ 1 || fieldAt b 8 4 = 0 || n = 0 || 4086 < n ||
    fieldAt b 0x10 4 ≠ 0x40 + 16 * n + 96 || b.length ≠ 0x40 + 16 * n + 96

/-- The signature verifies with the owner key KEY_ID, while the SC holds its owner keys. -/
def State.furnishSigned (s : State) (b : Bytes) : Bool :=
  let key := BitVec.ofNat 32 (fieldAt b 0x14 4)
  s.sec.ownerKeys && Config.ownerVerify s.sec.ownerImage key (b.take (b.length - 96)) (b.drop (b.length - 96))

/-- A write of FURNISH_IMAGE, checked in R382's order. -/
def State.writeFurnish (s : State) (b : Bytes) : Wrote :=
  let es := imageRecords b (fieldAt b 0xC 4)
  let rev := fieldAt b 8 4
  let now := s.dict.furnish
  if furnishFormatBad b then s.refuse 0x0C10
  else if !s.furnishSigned b then s.refuse 0x0C11
  else if rev < now.rev.toNat || (rev = now.rev.toNat && now.image ≠ b) then s.refuse 0x0C12
  else if !rising es || !recordsGood [.furnish, .grade] (fun k d => Assoc.get d es k) es then s.refuse 0x0C10
  else
    let f : Furnish := { rev := BitVec.ofNat 32 rev, entries := es, image := b }
    ({ s with dict := { s.dict with pending := some f } }).wrote

/-- FURNISH_IMAGE (R382). -/
def execFurnishImage (path : Path) (image : Bytes) (s : State) : Host.Outcome State Fault Refusal :=
  .next (s.wholeWrite path 0x201001 (fun s => s.writeFurnish image))

/-! ### Grades (Table 15.14, R384) -/

/-- The CRC of a grade image, its own four bytes taken as zero. -/
def gradeCrc (b : Bytes) : BitVec 32 := crc32c 0 (putAt b 0x20 (zeros 4))

def gradeFormatBad (n : Nat) (b : Bytes) : Bool :=
  let k := fieldAt b 8 2
  fieldAt b 0 4 ≠ 0x31475644 || fieldAt b 4 2 ≠ 1 || fieldAt b 6 1 ≠ n || 252 < k || b.length ≠ 0x40 + 16 * k ||
    (gradeCrc b).toNat ≠ fieldAt b 0x20 4 || !rising (imageRecords b k) ||
    !recordsNamed [.grade] (imageRecords b k)

/-- The image of a grade as it is stored. -/
def Grade.image (g : Grade) (n : Nat) : Bytes :=
  let head := record 64 [(0, 4, 0x31475644), (4, 2, 1), (6, 1, n), (8, 2, g.entries.length), (0x10, 16, g.name.toNat)]
  let es := g.entries.flatMap (fun e => record 16 [(0, 2, e.1 / 256), (2, 1, e.1 % 256), (8, 8, e.2)])
  let b := head ++ es
  putAt b 0x20 (leBytes 4 (gradeCrc b).toNat)

/-- The revision after a write: one above the previous one, from 1, with 0xFFFF followed by 1. -/
def Grade.nextRev (g : Grade) : BitVec 16 := if !g.written || g.rev = 0xFFFF then 1 else g.rev + 1

/-- An item that has not completed DONE carries a revision of a grade. -/
def State.carried (s : State) (n : BitVec 3) (rev : BitVec 16) : Bool :=
  s.hb.items.any (fun it => it.grade = n.setWidth 8 && it.gradeRev = rev &&
    (it.phase = .created || it.phase = .queued || it.phase = .running || it.phase = .preempted))

/-- Store a grade (R384): refused while a job is loaded and the grade is in force or named by a pending switch, and while
the new revision is still carried. The overlay it replaces is kept for the items stamped with it (R280). -/
def State.storeGrade (s : State) (n : BitVec 3) (name : BitVec 128) (es : Assoc Nat) : Wrote :=
  let g := s.dict.grades[n.toNat]
  let rev := g.nextRev
  if !s.hb.jobs.isEmpty && (s.dict.active = n || s.dict.schedule.any (fun x => x.2 = n)) then s.refuse 0x0C08
  else if s.carried n rev then s.refuse 0x0C0A
  else
    let stamped := s.hb.items.any (fun it => it.grade = n.setWidth 8 && it.gradeRev = g.rev)
    let rest := s.dict.kept.filter (fun k => !(k.1 = n && k.2.1 = rev))
    let kept := if stamped then rest ++ [(n, g.rev, g.entries)] else rest
    let g' : Grade := { name := name, written := true, rev := rev, entries := es }
    ({ s with dict := { s.dict with grades := s.dict.grades.set n.toNat g', kept := kept } }).wrote

/-- A write of GRADE_IMAGE of grade n: its format (GRADE_FORMAT), then the values of its entries (DICT_VALUE). -/
def State.writeGrade (s : State) (n : BitVec 3) (b : Bytes) : Wrote :=
  if gradeFormatBad n.toNat b then s.refuse 0x0C13
  else if !recordsInRange (fun _ d => d) (imageRecords b (fieldAt b 8 2)) then s.refuse 0x0C05
  else s.storeGrade n (BitVec.ofNat 128 (fieldAt b 0x10 16)) (imageRecords b (fieldAt b 8 2))

/-- GRADE_IMAGE (R384). -/
def execGradeImage (path : Path) (grade : BitVec 3) (image : Bytes) (s : State) : Host.Outcome State Fault Refusal :=
  .next (s.wholeWrite path (0x211001 + 256 * grade.toNat) (fun s => s.writeGrade grade image))

/-- A write of an RW entry of source Grade: a write of the grade in force with that entry added or replaced (R384). -/
def State.writeGradeEntry (s : State) (key v : Nat) : Wrote :=
  let g := s.dict.grades[s.dict.active.toNat]
  s.storeGrade s.dict.active g.name (Assoc.place (Assoc.erase g.entries key) key v)

/-! ### The schedule (R385) -/

/-- The reel is not above both the reel count and STAMP_HORIZON (HB_SWITCH_LATE). -/
def State.switchLate (s : State) (reel : Nat) : Bool := decide (reel ≤ s.hb.reel.toNat) || decide (reel ≤ s.hb.stampHorizon)

def scheduleReel (v : Nat) : Nat := v % 2 ^ 48
def scheduleGrade (v : Nat) : Nat := v / 2 ^ 48 % 256

/-- A write of GRADE_SCHEDULE: a request for a reel that has a pending switch replaces it. -/
def State.writeSchedule (s : State) (v : Nat) : Wrote :=
  let r := scheduleReel v
  let x : BitVec 48 × BitVec 3 := (BitVec.ofNat 48 r, BitVec.ofNat 3 (scheduleGrade v))
  if 7 < scheduleGrade v then s.refuse 0x0C05
  else if s.switchLate r then s.refuse 0x0813
  else if s.dict.schedule.any (fun y => y.1 = x.1) then
    let rest := s.dict.schedule.filter (fun y => y.1 ≠ x.1)
    ({ s with dict := { s.dict with schedule := rest ++ [x] } }).wrote
  else if 16 ≤ s.dict.schedule.length then s.refuse 0x0C09
  else match s.addDelay { value := r, kind := 0, object := scheduleGrade v, list := 0 } with
    | none => s.refuse 0x0814
    | some t => ({ t with dict := { t.dict with schedule := t.dict.schedule ++ [x] } }).wrote

/-- GRADE_SCHEDULE (R385). -/
def execGradeSchedule (path : Path) (value : BitVec 64) (s : State) : Host.Outcome State Fault Refusal :=
  .next (s.dictAction path (fun s => s.writeSchedule value.toNat))

/-- A write of GRADE_CANCEL; a reel without a pending switch changes nothing. -/
def State.writeCancel (s : State) (v : Nat) : Wrote :=
  let r := scheduleReel v
  if s.switchLate r then s.refuse 0x0813
  else
    ({ s with dict := { s.dict with schedule := s.dict.schedule.filter (fun y => y.1.toNat ≠ r) },
              hb := { s.hb with delays := s.hb.delays.filter (fun d => !(d.kind = 0 && d.value = r)) } }).wrote

/-- GRADE_CANCEL (R385). -/
def execGradeCancel (path : Path) (value : BitVec 64) (s : State) : Host.Outcome State Fault Refusal :=
  .next (s.dictAction path (fun s => s.writeCancel value.toNat))

end Sys2Proof.Machine
end

