-- ==== Sys2Proof/Machine/Service.lean ====
section
/-! DEFINITION. Changes in service and the small resets: firmware swap (R387), core and port retirement (R9, R10, R322), cold reset by
write (R371), Vat, core and port resets (R358, R359), and the failed-start counter (R364). -/

namespace Sys2Proof.Machine

open Sys2Proof

/-! ### Abandoned items (R24, R358, R359) -/

/-- A core fails or is reset under an item: the item runs again elsewhere, uncounted; an item of a stopped job ends. -/
def State.abandon (s : State) (avoidCore : Option CoreId) (avoidVat : Option (BitVec 6)) (key : ItemKey) : State :=
  match s.item? key with
  | none => s
  | some it =>
    let stop := match s.job? it.job with
      | some j => j.stopped
      | none => some 0x0C0C
    match stop with
    | some code => ((if it.cls = 0 then s.failClassA it code else (s.dropRun it.key).removeItem it.key)).unload it.job
    | none => s.rerun { it with avoidVat := avoidVat } false (match avoidCore with | some c => some c | none => it.avoidCore) it.avoidDie

/-- The items a core holds: the one it runs and the one that one pre-empted. -/
def Core.held (k : Core) : List ItemKey := k.item.toList ++ k.preempted.toList

/-- A core is cleared, its unit commands gone but for a Watermark UPDATE, which runs to completion (R268), and its local slot
and fault mark too; its items are abandoned. -/
def State.clearCore (s : State) (c : CoreId) (avoidCore : Option CoreId) (avoidVat : Option (BitVec 6)) : State :=
  let held := (s.core c).held
  let s := s.setCore c Core.reset
  let slot := s.hb.slots.filter (fun x => x.1 = c)
  let s := { s with units := s.units.filter (fun u => u.core ≠ c || (u.unit = 3 && u.field 0 1 = 3)),
                    hb := { s.hb with firmwareFault := s.hb.firmwareFault.filter (· ≠ c),
                                      slots := s.hb.slots.filter (fun x => x.1 ≠ c) } }
  let s := slot.foldl (fun s x => match s.item? x.2 with
    | some it => s.setItem { it with phase := .created }
    | none => s) s
  held.foldl (State.abandon · avoidCore avoidVat ·) s

/-! ### Core retirement and core reset -/

/-- Retire a core (R9, R10): a free spare takes its logical number, with the counters a program can read, which go on as
if nothing had happened; else dispatch to the core stops. -/
def State.retireCore (s : State) (c : CoreId) : State :=
  if s.dict.coresOut.contains c then s
  else
    let k := s.core c
    let s := s.clearCore c (some c) none
    if Assoc.get 0xFF s.dict.spareMap c.vat.toNat = 0xFF then
      let s := s.setCore c { Core.reset with cycle := k.cycle, retired := k.retired }
      { s with dict := { s.dict with spareMap := Assoc.set 0xFF s.dict.spareMap c.vat.toNat (c.core.setWidth 8) } }
    else { s with dict := { s.dict with coresOut := s.dict.coresOut ++ [c] } }

/-- A write of CORE_RETIRE. -/
def State.writeCoreRetire (s : State) (v : Nat) : Wrote :=
  if 1024 ≤ v then s.refuse 0x0C05 else (s.retireCore (coreOf v)).wrote

/-- CORE_RETIRE (R9, R10, R387): a write, or the core's own checkers (no path). -/
def execCoreRetire (path : Option Path) (value : BitVec 16) (s : State) : Host.Outcome State Fault Refusal :=
  match path with
  | some p => .next (s.dictAction p (fun s => s.writeCoreRetire value.toNat))
  | none => if value.toNat < 1024 then .next (s.retireCore (coreOf value.toNat)) else .next s

/-- RESET_CAUSE of a reach without a bit of its own. -/
def State.noteReach (s : State) (reach : Nat) : State := { s with rst := { s.rst with cause := causeOf reach [] 0 } }

/-- A narrower reset while a window is open is absorbed (R352). -/
def State.narrow (s : State) (reach : Nat) (f : State → State) : Wrote :=
  if s.rst.window.isSome then s.wrote else ((f s).noteReach reach).wrote

/-- A write of CORE_RESET (R359), whose bits [15:10] are reserved (R4): the core's L1 is written back, which the Vat's coherent copies show as they stand. -/
def State.writeCoreReset (s : State) (v : Nat) : Wrote :=
  let c := coreOf (v % 1024)
  s.narrow 5 (fun s => s.clearCore c (some c) none)

/-- CORE_RESET (R359, R371). -/
def execCoreReset (path : Path) (value : BitVec 16) (s : State) : Host.Outcome State Fault Refusal :=
  .next (s.dictAction path (fun s => s.writeCoreReset value.toNat))

/-! ### Vat reset (R358) -/

/-- Reset a Vat: dirty lines go back, items on it run again elsewhere, its queue is placed anew, and its cores, windows, Felt
engine and unit commands are cleared. -/
def State.resetVat (s : State) (v : BitVec 6) : State :=
  let s := s.invalVat v
  let s := (coresOf v).foldl (fun s c => s.clearCore c (some c) (some v)) s
  let mine := s.hb.queued.filter (fun q => q.1 = v)
  let s := mine.foldl (fun s q => match s.item? q.2 with
    | some it => s.setItem { it with phase := .created }
    | none => s) s
  { s with
    hb := { s.hb with queued := s.hb.queued.filter (fun q => q.1 ≠ v) },
    ports := s.ports.filter (fun e => e.1 / 32 ≠ v.toNat),
    felt := { s.felt with windows := s.felt.windows.filter (fun e => e.1 ≠ v.toNat) } }

def State.writeVatReset (s : State) (v : Nat) : Wrote :=
  if 64 ≤ v then s.refuse 0x0C05 else s.narrow 4 (fun s => s.resetVat (BitVec.ofNat 6 v))

/-- VAT_RESET (R358, R371). -/
def execVatReset (path : Path) (value : BitVec 8) (s : State) : Host.Outcome State Fault Refusal :=
  .next (s.dictAction path (fun s => s.writeVatReset value.toNat))

/-! ### Firmware swap (R387) -/

/-- A write of FW_IMAGE: the SC checks the signature and that the row-semantics revision equals ROWSEM. -/
def State.writeFwImage (s : State) (b : Bytes) : Wrote :=
  let m := Config.fwSigned b
  if !Config.verify Config.vanorKey m.1 m.2 then s.refuse 0x0C20
  else if Config.fwRowsem b ≠ Config.rowsem then s.refuse 0x0C21
  else ({ s with dict := { s.dict with fwStaged := some b } }).wrote

/-- FW_IMAGE (R387). -/
def execFwImage (path : Path) (image : Bytes) (s : State) : Host.Outcome State Fault Refusal :=
  .next (s.wholeWrite path 0x340007 (fun s => s.writeFwImage image))

/-- A write of FW_SWAP_VAT: dispatch to the Vat stops. With no image staged there is nothing to swap (DICT_VALUE: DESIGN CHOICE, log entry 97). -/
def State.writeSwapVat (s : State) (v : Nat) : Wrote :=
  if 64 ≤ v then s.refuse 0x0C05
  else if s.dict.swap.isSome then s.refuse 0x0C0A
  else match s.dict.fwStaged with
    | none => s.refuse 0x0C05
    | some b =>
      let vat := BitVec.ofNat 6 v
      ({ s with dict := { s.dict with swap := some (vat, b, false) },
                hb := { s.hb with dispatchOff := s.hb.dispatchOff ++ [vat] } }).wrote

/-- FW_SWAP_VAT (R387). -/
def execFwSwapVat (path : Path) (value : BitVec 8) (s : State) : Host.Outcome State Fault Refusal :=
  .next (s.dictAction path (fun s => s.writeSwapVat value.toNat))

/-- Some core of a Vat still runs. -/
def State.vatBusy (s : State) (v : BitVec 6) : Bool := (coresOf v).any (fun c => (s.core c).active)

/-- FW_DRAIN_MS (R387): on a drain timeout the Vat is reset first. -/
def execFwDrainMs (s : State) : Host.Outcome State Fault Refusal :=
  match s.dict.swap with
  | none => .next s
  | some (v, b, _) =>
    if s.vatBusy v then
      let s := (s.resetVat v).noteReach 4
      .next { s with dict := { s.dict with swap := some (v, b, true) } }
    else .next s

/-- FW_SWAP_LOAD (R387): the drained Vat takes the image when its self-test passes, else keeps the old one and FW_SWAP_FAILED is
reported; either way it is admitted again. -/
def execFwSwapLoad (selfTestOk : Bool) (s : State) : Host.Outcome State Fault Refusal :=
  match s.dict.swap with
  | none => .next s
  | some (v, b, _) =>
    if s.vatBusy v then .next s
    else
      let s := if selfTestOk then s.setModVal (0x341001 + v.toNat) Config.fwRelease.toNat (Config.fwRev b).toNat
        else s.logEvent 0x0C22 v.toNat
      .next { s with dict := { s.dict with swap := none },
                     hb := { s.hb with dispatchOff := s.hb.dispatchOff.filter (· ≠ v) } }

/-! ### Ports and lanes (R322, R331, R359) -/

/-- A write of PORT_RETIRE: Ethernet ports and Couch lanes only. -/
def State.writePortRetire (s : State) (v : Nat) : Wrote :=
  if v < 8 then (s.portRetired (BitVec.ofNat 3 v)).wrote
  else if 0x10 ≤ v && v < 0x20 then (s.laneOut (BitVec.ofNat 4 (v - 0x10))).wrote
  else s.refuse 0x0C05

/-- PORT_RETIRE (R322, R331, R387). -/
def execPortRetire (path : Path) (value : BitVec 8) (s : State) : Host.Outcome State Fault Refusal :=
  .next (s.dictAction path (fun s => s.writePortRetire value.toNat))

/-- An Ethernet port is retrained: its queue pairs move, and it is back unless it is retired. -/
def State.retrainPort (s : State) (p : Nat) : State :=
  let t := s.portOut (BitVec.ofNat 3 p)
  if t.fab.retired.getLsbD p then t else { t with fab := { t.fab with ports := t.fab.ports ||| BitVec.ofNat 8 (2 ^ p) } }

/-- A Couch lane is retrained: both ends stripe without it, which takes a link of 8 lanes down (R331), and over it again. A lane
that is out of service, here or at the twin, stays out. -/
def State.retrainLane (s : State) (n : Nat) : State :=
  let bit := BitVec.ofNat 16 (2 ^ n)
  let off := s.twin.lanes &&& ~~~bit
  if s.twin.lanes = off then s
  else
    let s := (s.sendLane off).setLanes off
    (s.sendLane (off ||| bit)).setLanes (off ||| bit)

/-- An allocation or a table lies on a tier B port. -/
def State.portBusy (s : State) (p : Nat) : Bool :=
  s.hb.allocs.any (fun e => e.2.live && e.2.tierB && s.mem.onPort e.2.base e.2.extent p) ||
    s.felt.tables.any (fun t => t.tierB && t.kind ≠ 3) || s.rst.shardPlace.any (fun x => inTierB x.2.2)

/-- A write of PORT_RESET. NVMe commands are retried, which changes nothing the module shows. -/
def State.writePortReset (s : State) (v : Nat) : Wrote :=
  if v < 8 then s.narrow 5 (fun s => s.retrainPort v)
  else if 0x10 ≤ v && v < 0x20 then s.narrow 5 (fun s => s.retrainLane (v - 0x10))
  else if 0x20 ≤ v && v < 0x24 then
    if s.portBusy (v - 0x20) then s.refuse 0x0B07
    else
      let down := s.mem.tierBDown &&& ~~~(BitVec.ofNat 4 (2 ^ (v - 0x20)))
      s.narrow 5 (fun s => { s with mem := { s.mem with tierBDown := down } })
  else if 0x30 ≤ v && v < 0x38 then s.narrow 5 id
  else s.refuse 0x0C05

/-- PORT_RESET (R359, R371). -/
def execPortReset (path : Path) (value : BitVec 8) (s : State) : Host.Outcome State Fault Refusal :=
  .next (s.dictAction path (fun s => s.writePortReset value.toNat))

/-! ### Cold reset by write, and the failed-start counter -/

def State.writeResetCold (s : State) (v : Nat) : Wrote := if v = 0x444C4F43 then s.raises .resetCold else s.refuse 0x0C05

/-- RESET_COLD (R371). -/
def execResetCold (path : Path) (value : BitVec 32) (s : State) : Host.Outcome State Fault Refusal :=
  .next (s.dictAction path (fun s => s.writeResetCold value.toNat))

def State.writeFailClear (s : State) (v : Nat) : Wrote :=
  if v = 1 then ({ s with rst := { s.rst with failCount := 0 } }).wrote else s.refuse 0x0C05

/-- FAILSTART_CLEAR (R364). -/
def execFailstartClear (path : Path) (value : BitVec 8) (s : State) : Host.Outcome State Fault Refusal :=
  .next (s.dictAction path (fun s => s.writeFailClear value.toNat))

end Sys2Proof.Machine
end

