-- ==== Sys2Proof/Machine/Security.lean ====
section
/-! DEFINITION. Physical security (R402 to R407): zeroise, tamper events, the debug unlock and provisioning. -/

namespace Sys2Proof.Machine

open Sys2Proof

/-! ### Zeroise (R403, R404) -/

/-- The SC erases its key store and every working copy, and the state and the count say so; a cause that arrives during a zeroise
joins it. -/
def State.eraseKeys (s : State) : State :=
  let joined := match s.rst.window with
    | some w => w.low.contains .zeroise
    | none => false
  if joined then s
  else
    { s with
      sec := { s.sec with state := 1, zeroised := s.sec.zeroised + 1, ownerKeys := false, ownerImage := none, deviceKey := 0, nsKeys := false,
                          ideKeys := s.sec.ideKeys.map (· + 1), markEra := s.sec.markEra + 1 },
      rst := { s.rst with scrub := true } }

/-- A write of ZEROISE. -/
def State.writeZeroise (s : State) (v : Nat) : Wrote :=
  if v = 0x4F52455A then s.eraseKeys.raises .zeroise else s.refuse 0x0C05

/-- ZEROISE (R403, R408). -/
def execZeroise (path : Path) (value : BitVec 32) (s : State) : Host.Outcome State Fault Refusal :=
  .next (s.dictAction path (fun s => s.writeZeroise value.toNat))

/-- TAMPER_EVENT (R406): detection is powered without input, so it holds in every state of the module. -/
def execTamperEvent (cause : BitVec 4) (s : State) : Host.Outcome State Fault Refusal :=
  if cause = 0 then .next s
  else
    let s := { s with sec := { s.sec with tamper := cause.setWidth 8 } }
    .next ((s.logEvent 0x0D20 cause.toNat).eraseKeys.takeSource .zeroise)

/-! ### Debug unlock (R407, Table 16.7) -/

/-- The nonce DEBUG_NONCE reads. -/
def State.nonceNow (s : State) : BitVec 128 := Config.nonce s.sec.nonceCount

def State.tokenGood (s : State) (b : Bytes) : Bool :=
  b.length = 160 && fieldAt b 0 4 = 0x31445644 && fieldAt b 4 2 = 1 && fieldAt b 8 4 = Config.moduleSerial.toNat &&
    fieldAt b 0x10 16 = s.nonceNow.toNat && Config.verify Config.vanorKey (b.take 64) (b.drop 64)

/-- SCOPE of a token: bits [1:0]. -/
def tokenScope (b : Bytes) : BitVec 2 := BitVec.ofNat 2 (fieldAt b 6 2)

/-- A write of DEBUG_TOKEN: a good token zeroises the module, which then starts in recovery mode with the port open; any other is
refused and changes nothing but the nonce. -/
def State.writeToken (s : State) (b : Bytes) : Wrote :=
  if s.tokenGood b then { status := 0, state := s.eraseKeys, source := some .zeroise, debug := some (tokenScope b) }
  else ({ s with sec := { s.sec with nonceCount := s.sec.nonceCount + 1 } }).refuse 0x0D22

/-- DEBUG_TOKEN (R407). -/
def execDebugToken (path : Path) (image : Bytes) (s : State) : Host.Outcome State Fault Refusal :=
  .next (s.wholeWrite path 0x580004 (fun s => s.writeToken image))

/-! ### Provisioning (R405) -/

/-- A write of PROVISION: owner keys come in, and the SC generates a new device identity and new namespace keys. -/
def State.writeProvision (s : State) (b : Bytes) : Wrote :=
  let m := Config.provSigned b
  if s.sec.state = 2 || !Config.verify Config.vanorKey m.1 m.2 || Config.provSerial b ≠ Config.moduleSerial then
    s.refuse 0x0D23
  else
    let n := s.sec.nsKeyGen + 1
    ({ s with sec := { s.sec with state := 0, ownerKeys := true, ownerImage := some b, deviceKey := n, nsKeys := true,
                                  nsKeyGen := n } }).wrote

/-- PROVISION (R405). -/
def execProvision (path : Path) (image : Bytes) (s : State) : Host.Outcome State Fault Refusal :=
  .next (s.wholeWrite path 0x580005 (fun s => s.writeProvision image))

end Sys2Proof.Machine
end

