-- ==== Sys2Proof/Machine/Power.lean ====
section
/-! DEFINITION. Input limits (R389, R409) and the droop governor (R390 to R395). Stretches and levels change timing only (R393). -/

namespace Sys2Proof.Machine

open Sys2Proof

/-- The rails are up: the governor runs. -/
def State.powered (s : State) : Bool := s.rst.boot ≠ .inReset

/-- PWR_SENSE_OPEN (R409): the converter drives PWR_GOOD low, a power-on reset. -/
def execPwrSenseOpen (s : State) : Host.Outcome State Fault Refusal :=
  .next ({ s with pow := { s.pow with sense := false } }.takeSource .pwrGood)

/-- PWR_INPUT_RANGE (R389): an excursion to `mv` for `ms` milliseconds within a second is reported when tolerated; a wider or
longer one drives PWR_GOOD low. -/
def execPwrInputRange (mv : Nat) (ms : Nat) (s : State) : Host.Outcome State Fault Refusal :=
  if 300000 ≤ mv && mv ≤ 420000 then .next s
  else if 285000 ≤ mv && mv ≤ 440000 && ms ≤ 10 then .next (s.logEvent 0x0D01 mv)
  else .next (s.takeSource .pwrGood)

/-- Ticks of a die's stretches within the last 100 µs, since they last lowered L. -/
def State.recentStretches (s : State) (die : BitVec 2) : List (BitVec 64) :=
  (s.pow.recent[die.toNat]).filter (fun t => (s.tick - t).toNat ≤ 100)

/-- DROOP_STRETCH (R390): the die's core clock goes to the floor clock. -/
def execDroopStretch (die : BitVec 2) (s : State) : Host.Outcome State Fault Refusal :=
  if !s.powered || s.pow.stretched.getLsbD die.toNat then .next s
  else
    let n := s.pow.stretches[die.toNat]
    let low := if s.hb.winLevel < 8 then s.hb.winLevel else 8
    let s := { s with pow := { s.pow with stretched := s.pow.stretched ||| BitVec.ofNat 4 (2 ^ die.toNat),
                                          stretches := s.pow.stretches.set die.toNat (n + 1),
                                          recent := s.pow.recent.set die.toNat (s.recentStretches die ++ [s.tick]) },
                      hb := { s.hb with winLevel := low } }
    .next (s.bump 0x54000D 1)

/-- STRETCH_END (R390): the die's clock switches back. -/
def execStretchEnd (die : BitVec 2) (s : State) : Host.Outcome State Fault Refusal :=
  .next { s with pow := { s.pow with stretched := s.pow.stretched &&& ~~~(BitVec.ofNat 4 (2 ^ die.toNat)) } }

/-- A condition of R391 as its values show it: DROOP_STEP_EVENTS stretches of the die within 100 µs, a single stretch that lasts, or
a value beyond its limit. -/
def State.condHolds (s : State) (c : DroopCond) : Bool :=
  match c with
  | .stepEvents die => decide (s.furn 0x540002 4 ≤ (s.recentStretches die).length)
  | .longStretch die => s.pow.stretched.getLsbD die.toNat
  | .powerCap watts => decide (s.furn 0x540005 2600 < watts)
  | .inputLow mv => decide (mv < 300000)
  | .junction _ celsius => decide (s.furn 0x540006 100 < celsius)

/-- The values of R391's conditions as the governor last read them. -/
def Power.noted (p : Power) (c : DroopCond) : Power :=
  match c with
  | .powerCap watts => { p with watts := watts }
  | .junction die celsius => { p with celsius := p.celsius.set die.toNat celsius }
  | _ => p

/-- The latest power is not below 95 % of POWER_CAP_W, or a junction not 5 °C below THERMAL_LIMIT_C (R392). -/
def State.hot (s : State) : Bool :=
  decide (95 * s.furn 0x540005 2600 ≤ 100 * s.pow.watts) || s.pow.celsius.any (fun t => decide (s.furn 0x540006 100 < t + 5))

/-- The governor reads the value that a condition names. -/
def State.noteValue (s : State) (c : DroopCond) : State :=
  let s := { s with pow := s.pow.noted c }
  { s with pow := { s.pow with disturbed := s.pow.disturbed || s.hot } }

/-- The stretches that have lowered L count for no further step. -/
def Power.counted (p : Power) (c : DroopCond) : Power :=
  match c with
  | .stepEvents die => { p with recent := p.recent.set die.toNat [] }
  | _ => p

/-- DROOP_STEP_DOWN (R391): the governor reads the condition's value, and lowers the level by one when it holds, never below 8. -/
def execDroopStepDown (cond : DroopCond) (s : State) : Host.Outcome State Fault Refusal :=
  if !s.powered then .next s
  else
    let t := s.noteValue cond
    if !s.condHolds cond then .next t
    else
      let l := if s.pow.level ≤ 8 then 8 else s.pow.level - 1
      let low := if s.hb.winLevel < l then s.hb.winLevel else l
      .next { t with pow := { t.pow.counted cond with level := l, lastCond := true }, hb := { s.hb with winLevel := low } }

/-- DROOP_HOLD_US (R392): a hold interval ends. When no condition of R391 has occurred in it and power and junctions have kept their
distance, the level rises by one, never above 16, nor above 8 with STRAP_SAFECLK (R391). A new interval begins. -/
def execDroopHoldUs (s : State) : Host.Outcome State Fault Refusal :=
  if !s.powered then .next s
  else
    let top := if s.straps.safeClk then 8 else 16
    let up := if top ≤ s.pow.level then top else s.pow.level + 1
    let l := if s.pow.lastCond || s.pow.disturbed then s.pow.level else up
    .next { s with pow := { s.pow with level := l, lastCond := false, disturbed := s.hot } }

/-- PWR_DROOP_FLOOR (R394): L has been 8 for 10 ms with a condition still present. -/
def execPwrDroopFloor (s : State) : Host.Outcome State Fault Refusal :=
  if s.powered && s.pow.level = 8 && s.pow.lastCond then .next ((s.setModVal 0x54000E 0 1).logEvent 0x0D02 8) else .next s

/-- PWR_THERMAL_TRIP (R394): reported, and PWR_GOOD goes low. -/
def execPwrThermalTrip (s : State) : Host.Outcome State Fault Refusal :=
  .next ((s.faultCode 0x0D03 0).takeSource .pwrGood)

/-! ### Thresholds (R395) -/

def State.vthMin (s : State) : Nat := s.furn 0x540009 20
def State.vthMax (s : State) : Nat := s.furn 0x54000A 50

/-- A threshold within DROOP_VTH_MIN_MV to DROOP_VTH_MAX_MV. -/
def State.vthClamp (s : State) (v : Nat) : Nat :=
  if v < s.vthMin then s.vthMin else if s.vthMax < v then s.vthMax else v

/-- The Vat of a die whose turn it is to be calibrated. -/
def State.calTurn (s : State) (die : BitVec 2) : BitVec 6 := die ++ s.pow.calNext[die.toNat]

/-- DROOP_CALIBRATE (R395): the die's next Vat takes no dispatch and lets its items complete; once it runs none, the die's threshold
becomes the lowest value that raised no warning, plus 10 mV, and the Vat is admitted again. A Vat in a firmware swap waits, and one
Vat of the module is calibrated at a time. -/
def execDroopCalibrate (die : BitVec 2) (lowest : BitVec 8) (s : State) : Host.Outcome State Fault Refusal :=
  let v := s.calTurn die
  let other := match s.pow.calVat with
    | some w => w ≠ v
    | none => s.hb.dispatchOff.contains v
  if !s.up || s.furn 0x540007 1 = 0 || other then .next s
  else if s.vatBusy v then .next { s with pow := { s.pow with calVat := some v } }
  else
    let next := s.pow.calNext.set die.toNat (s.pow.calNext[die.toNat] + 1)
    .next ({ s with pow := { s.pow with calVat := none, calNext := next } }.setLive (0x541001 + die.toNat) 30
      (s.vthClamp (lowest.toNat + 10)))

/-- MARGIN_WARNING (R395): the die's threshold rises by 5 mV at once. -/
def execMarginWarning (die : BitVec 2) (s : State) : Host.Outcome State Fault Refusal :=
  if s.powered then .next (s.setLive (0x541001 + die.toNat) 30 (s.vthClamp (s.furn (0x541001 + die.toNat) 30 + 5)))
  else .next s

end Sys2Proof.Machine
end

