-- ==== Sys2Proof/Machine/Meter.lean ====
section
/-! DEFINITION. The Ream meter (R396 to R401): release reports, energy, the lid, the event log, signed readings, calibration and
its firmware. No reset reaches it (R360). -/

namespace Sys2Proof.Machine

open Sys2Proof

def State.setMeter (s : State) (m : Meter) : State := { s with meter := m }

/-- The meter runs. -/
def Meter.live (m : Meter) : Bool := m.fitted && m.supplied

/-- Add a log entry (R400): at 1,024 the oldest is overwritten; entries count from SEQ 1 (log entry 102). -/
def Meter.note (m : Meter) (code : BitVec 16) (data : BitVec 32) : Meter :=
  let e : MeterEvent := { seq := m.logCount + 1, seconds := BitVec.ofNat 32 m.seconds, code := code, data := data }
  let log := m.log ++ [e]
  { m with log := log.drop (log.length - 1024), logCount := m.logCount + 1 }

/-! ### Release reports (R398) -/

/-- The tenant of a job. -/
def tenantOf (job : BitVec 64) : Nat := job.toNat / 2 ^ 52

/-- Count a report's rows for its tenant. -/
def Meter.count (m : Meter) (r : Report) : Meter :=
  let t := Assoc.get (0, 0) m.tenants (tenantOf r.job)
  let t' := if r.rewrite then (t.1, t.2 + r.rows) else (t.1 + r.rows, t.2)
  { m with tenants := Assoc.set (0, 0) m.tenants (tenantOf r.job) t', counted := r.number }

/-- RELEASE_REPORT (R398): the first report of the queue reaches the meter. A report already counted is acknowledged and ignored. -/
def execReleaseReport (crcOk : Bool) (s : State) : Host.Outcome State Fault Refusal :=
  let m := s.meter
  match m.queue with
  | [] => .next s
  | r :: _ =>
    if !m.live then .next s
    else if !crcOk then .next ((s.setMeter (m.note 7 (r.number.setWidth 32))).emit (.reportResend r.number))
    else if r.number.toNat ≤ m.counted.toNat then .next (s.emit (.reportAck r.number))
    else .next ((s.setMeter (m.count r)).emit (.reportAck r.number))

/-- REPORT_ACK (R398): the MC removes the acknowledged report; the meter acknowledges only what it has counted. -/
def execReportAck (number : BitVec 64) (s : State) : Host.Outcome State Fault Refusal :=
  if number.toNat ≤ s.meter.counted.toNat then
    .next (s.setMeter { s.meter with queue := s.meter.queue.filter (fun r => r.number ≠ number) })
  else .next s

/-- REPORT_RESEND (R398): the MC sends the report again. -/
def execReportResend (number : BitVec 64) (s : State) : Host.Outcome State Fault Refusal :=
  match s.meter.queue.find? (fun r => r.number = number) with
  | some r => .next (s.emit (.report r))
  | none => .next s

/-! ### Energy and supply (R397) -/

/-- ENERGY_STORE (R397): ENERGY_J has risen by `joules` over `seconds` of supplied time and is stored. -/
def execEnergyStore (joules : Nat) (seconds : Nat) (s : State) : Host.Outcome State Fault Refusal :=
  let m := s.meter
  if !m.live then .next s
  else
    let e := m.energy + joules
    let w := if seconds = 0 then m.powerW else joules / seconds
    .next (s.setMeter { m with energy := e, stored := e, seconds := m.seconds + seconds, powerW := w })

/-- METER_SUPPLY_LOST (R397, R400). -/
def execMeterSupplyLost (s : State) : Host.Outcome State Fault Refusal :=
  let m := s.meter
  if !m.live then .next s
  else .next (s.setMeter ({ m with stored := m.energy, supplied := false }.note 5 (BitVec.ofNat 32 m.energy)))

/-- METER_SUPPLY_RESTORED (R400): the meter's node starts in the pre-operational state and says so by its boot-up frame (Table 15.3;
PRESUMED, log entry 172). -/
def execMeterSupplyRestored (s : State) : Host.Outcome State Fault Refusal :=
  let m := s.meter
  if !m.fitted || m.supplied then .next s
  else .next ((s.setMeter ({ m with energy := m.stored, supplied := true, nmt := 0x7F }.note 6 (BitVec.ofNat 32 m.stored))).meterCan 0x700 [0])

/-! ### Lid and switch (R399) -/

/-- LID_OPENED (R399): SEAL_BREAKS never decreases. -/
def execLidOpened (s : State) : Host.Outcome State Fault Refusal :=
  let m := s.meter
  let n := if m.sealBreaks = 0xFFFFFFFF then m.sealBreaks else m.sealBreaks + 1
  if !m.fitted then .next s else .next (s.setMeter ({ m with sealBreaks := n, sealClosed := false }.note 1 n))

/-- LID_CLOSED (R400). -/
def execLidClosed (s : State) : Host.Outcome State Fault Refusal :=
  let m := s.meter
  if !m.fitted then .next s else .next (s.setMeter ({ m with sealClosed := true }.note 2 0))

/-- ADJUSTMENT_SWITCH (R399). -/
def execAdjustmentSwitch (closed : Bool) (s : State) : Host.Outcome State Fault Refusal :=
  .next (s.setMeter { s.meter with adjClosed := closed })

/-! ### Readings and the meter's domains (R401, Table 16.9) -/

/-- TENANT_TABLE: 4,096 pairs in tenant order. -/
def Meter.tenantTable (m : Meter) : Bytes :=
  (List.range 4096).flatMap (fun t => let c := Assoc.get (0, 0) m.tenants t; leBytes 8 c.1 ++ leBytes 8 c.2)

/-- LOG: 1,024 entries of 16 bytes, oldest first; entries never written are zeros. -/
def Meter.logTable (m : Meter) : Bytes :=
  (m.log.flatMap (fun e => leBytes 4 e.seq.toNat ++ leBytes 4 e.seconds.toNat ++ leBytes 2 e.code.toNat ++ zeros 2 ++
    leBytes 4 e.data.toNat)) ++ zeros (16 * (1024 - m.log.length))

/-- A string cut or padded to a length. -/
def fit (n : Nat) (b : Bytes) : Bytes := b.take n ++ zeros (n - b.length)

/-- The record of Table 16.5 without its signature. -/
def Meter.readingHead (m : Meter) : Bytes :=
  record 48 [(0, 4, 0x31525644), (4, 2, 1), (6, 2, if m.sealClosed then 1 else 0), (8, 4, Config.meterSerial.toNat),
    (0xC, 4, m.sealBreaks.toNat), (0x10, 8, m.rseq.toNat), (0x18, 8, m.seconds), (0x20, 8, m.energy),
    (0x28, 4, Config.moduleSerial.toNat), (0x2C, 4, m.logCount.toNat)] ++ fit 48 (Config.sha384 m.tenantTable)

def Meter.reading (m : Meter) : Bytes := m.readingHead ++ fit 96 (Config.meterSign m.readingHead)

/-- Read READING: RSEQ is one above the record before; a meter without its supply has nothing to sign with. -/
def State.readReading (s : State) (path : Path) : State :=
  if !s.meter.live then s.answer path true 0x0C01 []
  else
    let m := { s.meter with rseq := s.meter.rseq + 1 }
    (s.setMeter m).answer path true 0 m.reading

/-- READING (R401). -/
def execReading (path : Path) (s : State) : Host.Outcome State Fault Refusal :=
  .next (s.onPath path (fun s => s.readReading path))

/-! ### RWS writes (R374, R399) -/

/-- An image against the meter's own key authority. -/
def State.writeMeterFw (s : State) (path : Path) (b : Bytes) : Wrote :=
  let g := Config.fwSigned b
  if !isMeter path then s.refuse 0x0C06
  else if !s.meter.adjClosed then s.refuse 0x0D10
  else if !Config.verify Config.meterKey g.1 g.2 then s.refuse 0x0D11
  else
    let v := Config.meterFwVersion b
    let m := { s.meter with fwVersion := v, fwCrc := crc32c 0 b, fwHeader := fit 64 (b.take 64) }
    (s.setMeter ((m.note 3 0x6000000B).note 4 v)).wrote

/-- A value lies in ± a bound. -/
def within (v : BitVec 32) (n : Int) : Bool := decide (-n ≤ v.toInt) && decide (v.toInt ≤ n)

/-- A write of an entry of index 0x6000 with a four-byte value. -/
def State.writeMeter (s : State) (path : Path) (sub : Nat) (v : BitVec 32) : Wrote :=
  if sub = 0xB then s.writeMeterFw path (leBytes 4 v.toNat)
  else if 0xB < sub then s.refuse 0x0C02
  else if sub ≠ 9 && sub ≠ 0xA then s.refuse 0x0C03
  else if !isMeter path then s.refuse 0x0C06
  else if !s.meter.adjClosed then s.refuse 0x0D10
  else if !within v (if sub = 9 then 20000 else 650) then s.refuse 0x0C05
  else
    let m := if sub = 9 then { s.meter with gain := v } else { s.meter with offset := v }
    (s.setMeter (m.note 3 (BitVec.ofNat 32 (0x60000000 + sub)))).wrote

/-- An access to the meter's range, on its own node or refused elsewhere. -/
def State.meterAction (s : State) (path : Path) (f : State → Wrote) : State := s.onPath path (fun s => (f s).finish path)

/-- METER_RWS_WRITE (R374, R399). -/
def execMeterRwsWrite (path : Path) (sub : BitVec 8) (value : BitVec 32) (s : State) : Host.Outcome State Fault Refusal :=
  .next (s.meterAction path (fun s => s.writeMeter path sub.toNat value))

/-- METER_FW_IMAGE (R399). -/
def execMeterFwImage (path : Path) (image : Bytes) (s : State) : Host.Outcome State Fault Refusal :=
  .next (s.meterAction path (fun s =>
    if !isMeter path then s.refuse 0x0C06
    else if s.writtenElsewhere path 0x60000B then (s.interrupted path 0x60000B).refuse 0x0C0A
    else (s.dropTransfer path).writeMeterFw path image))

end Sys2Proof.Machine
end

