-- ==== Sys2Proof/Machine/Rebalance.lean ====
section
/-! DEFINITION. The journalled table rebalance (R368 to R370, Table 14.7). -/

namespace Sys2Proof.Machine

open Sys2Proof

/-! ### The journal -/

/-- A journal record of a shard's move. -/
structure JournalRec where
  table : BitVec 16
  shard : BitVec 16
  step  : Nat
  dest  : Nat
  epoch : Nat
  addr  : Nat
deriving DecidableEq, Repr

/-- REBAL_JOURNAL: the base of the journal, 0 for none. -/
def State.journalBase (s : State) : Nat := s.modVal 0x50000C 0

/-- The place of record JSEQ in the 64 MiB area. -/
def State.journalPlace (s : State) (jseq : Nat) : Nat := s.journalBase + 64 * ((jseq - 1) % 1048576)

/-- The 64 bytes of a record (Table 14.7). -/
def JournalRec.bytes (r : JournalRec) (jseq : Nat) : Bytes :=
  let b := record 64 [(0, 8, jseq), (8, 2, r.table.toNat), (0xA, 2, r.shard.toNat), (0xC, 1, r.step), (0xD, 1, r.dest),
    (0x10, 4, r.epoch), (0x18, 8, r.addr)]
  putAt b 0x3C (leBytes 4 (crc32c 0 (b.take 60)).toNat)

def journalRecOf (b : Bytes) : JournalRec :=
  { table := BitVec.ofNat 16 (fieldAt b 8 2), shard := BitVec.ofNat 16 (fieldAt b 0xA 2), step := fieldAt b 0xC 1,
    dest := fieldAt b 0xD 1, epoch := fieldAt b 0x10 4, addr := fieldAt b 0x18 8 }

/-- Record JSEQ as it stands in tier A; one whose CRC fails is ignored. -/
def State.journalRead (s : State) (jseq : Nat) : Option JournalRec :=
  let b := s.memRead (s.journalPlace jseq) 64
  if fieldAt b 0x3C 4 = (crc32c 0 (b.take 60)).toNat && fieldAt b 0 8 = jseq then some (journalRecOf b) else none

/-- The valid records, oldest first. -/
def State.journal (s : State) : List JournalRec :=
  (List.range s.rst.journalSeq).filterMap (fun i => s.journalRead (i + 1))

/-- The latest valid record of a shard. -/
def latestOf (rs : List JournalRec) (t shard : BitVec 16) : Option JournalRec :=
  rs.reverse.find? (fun r => r.table = t && r.shard = shard)

/-- The record of a shard that decides how its move goes on: of those since its last PLAN, the latest with the highest step (R369). -/
def decidingOf (rs : List JournalRec) (t shard : BitVec 16) : Option JournalRec :=
  let mine := rs.filter (fun r => r.table = t && r.shard = shard)
  mine.foldl (fun b r => match b with
    | none => some r
    | some x => if r.step = 1 || x.step ≤ r.step then some r else some x) none

/-- Firmware writes a step's record, with FLUSH and SYNC: it stands at the memory side. -/
def State.journalWrite (s : State) (r : JournalRec) : State :=
  let n := s.rst.journalSeq + 1
  let s := s.memWrite (s.journalPlace n) (r.bytes n)
  { s with rst := { s.rst with journalSeq := n } }

/-! ### Steps -/

/-- A step may follow a shard's latest one. -/
def stepFollows (last : Option JournalRec) (step : Nat) : Bool :=
  match last with
  | none => step = 1
  | some r =>
    if step = 1 then r.step = 5
    else if step = 2 then r.step = 1 || r.step = 2 || r.step = 3
    else if step = 3 then r.step = 2
    else if step = 4 then r.step = 3
    else step = 5 && (r.step = 4 || r.step = 5)

/-- Every shard's move has been released. -/
def allReleased (rs : List JournalRec) : Bool :=
  rs.all (fun r => match latestOf rs r.table r.shard with
    | some x => x.step = 5
    | none => true)

/-- SWITCH moves the shard's home: to the twin, or to this module's tier A or tier B. -/
def State.switchShard (s : State) (r : JournalRec) : State :=
  match s.table? r.table with
  | none => s
  | some t =>
    let home := if r.dest = 3 then s.twinId else s.self
    let place := s.rst.shardPlace.filter (fun p => !(p.1 = r.table && p.2.1 = r.shard))
    let s := s.setTable { t with homes := Assoc.set s.self t.homes r.shard.toNat home }
    { s with rst := { s.rst with shardPlace := place ++ [(r.table, r.shard, BitVec.ofNat 8 r.dest)] } }

/-- The record is written, and then the step takes effect. -/
def State.journalStep (s : State) (r : JournalRec) : State :=
  let s := s.journalWrite r
  if r.step = 1 then s.setModVal 0x50000D 0 1
  else if r.step = 4 then s.switchShard r
  else if r.step = 5 && allReleased s.journal then s.setModVal 0x50000D 0 0
  else s

def RebalStep.toRec (r : RebalStep) : JournalRec :=
  { table := r.table, shard := r.shard, step := r.step.toNat, dest := r.dest.toNat, epoch := r.epoch.toNat,
    addr := r.destAddr.toNat }

/-- REBALANCE_STEP (R368): a step of a registered table's shard, in order; SWITCH to the twin only once the orchestrator has
acknowledged the new home. -/
def execRebalanceStep (r : RebalStep) (s : State) : Host.Outcome State Fault Refusal :=
  let known := match s.table? r.table with
    | some t => !t.replicated && t.kind ≠ 3 && decide (r.shard.toNat < ceilDiv t.nrows t.shardRows)
    | none => false
  let dest := r.dest.toNat
  if !s.up || s.rst.rebalDue || s.journalBase = 0 || !known || dest = 0 || 3 < dest then .next s
  else if r.step.toNat = 4 && dest = 3 && !r.orchAck then .next s
  else if !stepFollows (latestOf s.journal r.table r.shard) r.step.toNat then .next s
  else .next (s.journalStep (RebalStep.toRec r))

/-! ### Resume after a warm reset (R369) -/

/-- What a shard's highest valid step calls for. -/
def State.resumeShard (s : State) (r : JournalRec) : State :=
  match s.table? r.table with
  | none => s
  | some t =>
    if 4 ≤ r.step then s.journalStep { r with step := 5 }
    else if r.step = 3 && r.epoch = t.version - 1 then
      if r.dest = 3 then s else s.journalStep { r with step := 4 }
    else s.journalStep { r with step := 2 }

/-- REBALANCE_RESUME (R369): after a warm reset, once the twin is PAIRED, or READY unpaired. -/
def execRebalanceResume (s : State) : Host.Outcome State Fault Refusal :=
  let twin := s.twin.state = .paired || s.twin.state = .unpaired
  if !s.up || !twin || !s.rst.rebalDue then .next s
  else
    let rs := s.journal
    let last := rs.filterMap (fun r => decidingOf rs r.table r.shard)
    let s := (s.setModVal 0x50000D 0 2).logEvent 0x0B09 0
    let s := { s with rst := { s.rst with rebalDue := false } }
    .next (last.eraseDups.foldl State.resumeShard s)

end Sys2Proof.Machine
end

