-- ==== Sys2Proof/Machine/Dictionary.lean ====
section
/-! DEFINITION. Dictionary reads and writes (R372 to R377), the mailbox operations of Table 15.6, and the CANopen node's own
services (R375). -/

namespace Sys2Proof.Machine

open Sys2Proof

/-! ### Reads (R372, R374) -/

/-- ASCII bytes of a string. -/
def ascii (s : String) : Bytes := s.toList.map (fun c => BitVec.ofNat 8 c.toNat)

/-- Most bytes of one piece on the mailbox and the tunnel (Table 15.5); a USDO transfer on CAN takes the whole value. -/
def pieceMax (path : Path) : Nat :=
  match path with
  | .mailbox _ => 4080
  | .tunnel _ => 4080
  | _ => 16777216

/-- A string or DOMAIN as it reads. -/
def State.longValue (s : State) (key : Nat) : Bytes :=
  if key = 0x100800 then ascii "DVM-3280"
  else if key = 0x100A00 then Config.softwareVersion
  else if key = 0x1F8201 then leBytes 16 s.orchAddr
  else if key = 0x580003 then leBytes 16 s.nonceNow.toNat
  else if key = 0x60000B then s.meter.fwHeader
  else if key = 0x602001 then s.meter.logTable
  else if key = 0x610001 then s.meter.tenantTable
  else
    let n : BitVec 3 := BitVec.ofNat 3 ((key - 0x211000) / 256)
    (s.dict.grades[n.toNat]).image n.toNat

/-- An entry as it reads, in bytes. -/
def State.valueBytes (s : State) (e : DictEntry) : Bytes :=
  match e.type with
  | .bool => leBytes 1 (s.entryValue e)
  | .uint n => leBytes n (s.entryValue e)
  | .int n => leBytes n (s.entryValue e)
  | _ => s.longValue e.key

/-- The meter's node holds the meter's range only. -/
def offMeter (path : Path) (key : Nat) : Bool := isMeter path && !(0x600000 ≤ key && key < 0x640000)

/-- Read an entry: existence, then access; a DOMAIN comes in pieces from OFFSET. -/
def State.readEntry (s : State) (path : Path) (key offset : Nat) : State :=
  if offMeter path key then s.answer path true 0x0C01 []
  else match dictEntryAt key with
    | .error c => s.answer path true c []
    | .ok e =>
      if e.access = .wo then s.answer path true 0x0C03 []
      else if key = 0x601001 then s.readReading path
      else if e.type = .domain then s.answer path true 0 (((s.valueBytes e).drop offset).take (pieceMax path))
      else (s.answer path true 0 (s.valueBytes e)).drawn

def keyAt (index : BitVec 16) (sub : BitVec 8) : Nat := index.toNat * 256 + sub.toNat

/-- DICT_READ (R372). -/
def execDictRead (path : Path) (index : BitVec 16) (sub : BitVec 8) (offset : BitVec 32) (s : State) :
    Host.Outcome State Fault Refusal :=
  .next (s.onPath path (fun s => s.readEntry path (keyAt index sub) offset.toNat))

/-! ### Writes of values (R373, R383) -/

/-- A write of REEL_QP: 0, or a connected queue pair (R290): one in the error state is not (R323). -/
def State.writeReelQp (s : State) (v : Nat) : Wrote :=
  if v = 0 || s.fab.qps.any (fun (q : Qp) => q.number.toNat = v && !q.error) then
    ({ s with hb := { s.hb with reelQp := BitVec.ofNat 32 v } }).wrote
  else s.refuse 0x0C05

/-- REEL_QP (R290). -/
def execReelQp (path : Path) (value : BitVec 32) (s : State) : Host.Outcome State Fault Refusal :=
  .next (s.dictAction path (fun s => s.writeReelQp value.toNat))

def State.writeReel (s : State) (v : Nat) : Wrote :=
  let r := s.reelWrite v
  { status := r.1, state := r.2, source := none, debug := none }

/-- Entries of source Module with an effect of their own. -/
def State.writeSpecial (s : State) (key v : Nat) : Option Wrote :=
  if key = 0x210003 then some (s.writeSchedule v)
  else if key = 0x210004 then some (s.writeCancel v)
  else if key = 0x300005 then some (s.writeReel v)
  else if key = 0x30000B then some (s.writeReelQp v)
  else if key = 0x340006 then some (s.writeCoreRetire v)
  else if key = 0x340009 then some (s.writeSwapVat v)
  else if key = 0x4C2002 then some (s.writePortRetire v)
  else if key = 0x500002 then some (s.writeResetCold v)
  else if key = 0x500003 then some (s.writeVatReset v)
  else if key = 0x500004 then some (s.writeCoreReset v)
  else if key = 0x500005 then some (s.writePortReset v)
  else if key = 0x500008 then some (s.writeFailClear v)
  else if key = 0x50000C then
    some (({ s with rst := { s.rst with journalSeq := 0 } } : State).setModVal key 0 v).wrote
  else if key = 0x580002 then some (s.writeZeroise v)
  else none

/-- A write of a value of fixed length: type and length, range, and then the lock while a job is loaded. -/
def State.writeValue (s : State) (path : Path) (e : DictEntry) (data : Bytes) : Wrote :=
  let v := leVal data
  if data.length ≠ e.type.bytes then s.refuse 0x0C04
  else if e.access = .rws then s.writeMeter path (e.key % 256) (BitVec.ofNat 32 v)
  else match s.writeSpecial e.key v with
    | some w => w
    | none =>
      if e.type ≠ .octet && !e.accepts s.furn v then s.refuse 0x0C05
      else match e.source with
        | .furnish =>
          if !s.hb.jobs.isEmpty && lockedKey e.key then s.refuse 0x0C07
          else (s.setLive e.key e.dflt v).wrote
        | .grade => s.writeGradeEntry e.key v
        | _ => (s.setModVal e.key e.dflt v).wrote

/-! ### Writes of DOMAINs (R377) -/

/-- The generation and the peers of a grant written as bytes: two bytes for a module. -/
def grantOf (b : Bytes) : BitVec 32 × List (BitVec 14) :=
  (BitVec.ofNat 32 (fieldAt b 0 4), (List.range ((b.length - 4) / 2)).map (fun i => BitVec.ofNat 14 (fieldAt b (4 + 2 * i) 2)))

/-- The grant, with its checks. -/
def State.writeGrant (s : State) (b : Bytes) : Wrote :=
  let g := grantOf b
  if b.length < 4 then s.refuse 0x0C04
  else if s.straps.boot = 1 then s.refuse 0x0C03
  else if g.1.toNat ≤ s.fab.gen.toNat then s.refuse 0x0C05
  else (s.takeGrant g.1 g.2).wrote

/-- A whole DOMAIN is applied. -/
def State.writeDomain (s : State) (path : Path) (key : Nat) (b : Bytes) : Wrote :=
  if key = 0x201001 then s.writeFurnish b
  else if key = 0x340007 then s.writeFwImage b
  else if key = 0x4C2001 then s.writeGrant b
  else if key = 0x580004 then s.writeToken b
  else if key = 0x580005 then s.writeProvision b
  else if key = 0x60000B then s.writeMeterFw path b
  else s.writeGrade (BitVec.ofNat 3 ((key - 0x211000) / 256)) b

/-- Bytes received so far of a DOMAIN write on a path. -/
def State.received (s : State) (path : Path) (key : Nat) : Bytes :=
  match s.dict.transfers.find? (fun t => t.path = wayOf path && t.key = key) with
  | some t => t.got
  | none => []

/-- A piece of a DOMAIN write: a piece for another entry ends the path's earlier transfer, even one that is refused because another
path writes that entry; a piece out of place ends its own transfer, and the LAST one applies the whole. -/
def State.writePiece (s : State) (path : Path) (key offset : Nat) (last : Bool) (data : Bytes) : Wrote :=
  if s.writtenElsewhere path key then (s.interrupted path key).refuse 0x0C0A
  else
    let got := s.received path key
    let all := got ++ data
    let s := s.dropTransfer path
    if offset ≠ got.length || pieceMax path < data.length || 16777216 < all.length || (last && all.isEmpty) then s.refuse 0x0C04
    else if last then s.writeDomain path key all
    else
      let more : Transfer := { path := wayOf path, key := key, got := all }
      ({ s with dict := { s.dict with transfers := s.dict.transfers ++ [more] } }).wrote

/-- Access of a write: RWS on the meter's own node only, and an attach grant through the tunnel only. -/
def writeAccess (path : Path) (e : DictEntry) : Option (BitVec 16) :=
  if e.access = .ro then some 0x0C03
  else if e.access = .rws && !isMeter path then some 0x0C06
  else if e.key = 0x4C2001 && !isTunnel path then some 0x0C03
  else none

/-- A write, checked in the order of R373. -/
def State.writeEntry (s : State) (path : Path) (key offset : Nat) (last : Bool) (data : Bytes) : Wrote :=
  if offMeter path key then s.refuse 0x0C01
  else match dictEntryAt key with
    | .error c => s.refuse c
    | .ok e =>
      match writeAccess path e with
      | some c => s.refuse c
      | none =>
        if e.type = .domain then s.writePiece path key offset last data
        else s.writeValue path e data

/-- DICT_WRITE (R372 to R377). -/
def execDictWrite (path : Path) (index : BitVec 16) (sub : BitVec 8) (offset : BitVec 32) (last : Bool) (data : Bytes) (s : State) :
    Host.Outcome State Fault Refusal :=
  .next (s.onPath path (fun s => (s.writeEntry path (keyAt index sub) offset.toNat last data).finish path))

/-! ### Mailbox operations (Table 15.6) -/

/-- MB_REQ of an operation of Table 15.6 other than the dictionary's, by its parameters. -/
def opRequest (op : Nat) (params : Bytes) : Bytes := mbRequest op 0 0 0 0 params

/-- Where the host keeps what a request names by its host address: a free value (log entry 171). -/
def hostAddr (b : Bytes) : Bytes := leBytes 8 (Config.hostAddress b).toNat

def registerRequest (rec : Bytes) (rows : Option Bytes) : Bytes :=
  opRequest 0x10 (rec ++ (match rows with | some b => hostAddr b | none => zeros 8))

def dropRequest (table : BitVec 16) : Bytes := opRequest 0x11 (leBytes 2 table.toNat)

def wmLoadRequest (set : BitVec 16) (copies : BitVec 8) (image : Bytes) : Bytes :=
  opRequest 0x12 (leBytes 2 set.toNat ++ [copies] ++ zeros 5 ++ hostAddr image ++ leBytes 4 image.length)

def wmUnloadRequest (set : BitVec 16) : Bytes := opRequest 0x13 (leBytes 2 set.toNat)

/-- TIERC_READ names by its host address the place that takes the blocks, TIERC_WRITE the blocks. -/
def blocksRequest (op : Nat) (nsid : BitVec 32) (lba : BitVec 64) (blocks : BitVec 32) (data : Bytes) : Bytes :=
  opRequest op (leBytes 4 nsid.toNat ++ zeros 4 ++ leBytes 8 lba.toNat ++ leBytes 4 blocks.toNat ++ zeros 4 ++ hostAddr data)

def testRequest (image : Bytes) : Bytes := opRequest 0x20 (hostAddr image ++ leBytes 4 image.length)

/-- A mailbox operation in service; in recovery mode and before READY it is unsupported. -/
def State.mailboxOp (s : State) (req : Bytes) (f : State → Wrote) : State :=
  s.dictAction (.mailbox req) (fun s => if s.up then f s else s.refuse 0x0C0B)

/-- The rows of a table from packed initial rows. -/
def Table.filled (t : Table) (b : Bytes) : Table :=
  if t.rowBytes = 0 then t
  else
    let n := min t.nrows (ceilDiv b.length t.rowBytes)
    (List.range n).foldl (fun t r => t.setRow r (fit t.rowBytes ((b.drop (t.rowBytes * r)).take t.rowBytes))) t

/-- Send a table registered outside any job to the twin's replica: its record, and its rows. -/
def State.logTable (s : State) (t : Table) (rec : Bytes) : State :=
  if !s.mirrored || t.replicated || t.kind = 3 then s
  else (s.sendLog 2 t.id 2 1 0 rec).sendRows 2 t 0 (s.resyncRows t)

/-- TABLE_REGISTER (R227, R230 to R232). -/
def State.register (s : State) (rec : Bytes) (rows : Option Bytes) : Wrote :=
  let outside := s.felt.tables.filter (fun t => t.job = none)
  let t := tableOf rec none
  if rec.length ≠ 64 then s.refuse 0x0C04
  else if tableRecordBad (s.felt.tables.map (·.id)) outside rec then s.refuse 0x0520
  else if t.kind = 3 && rows.isSome then s.refuse 0x0C05
  else match s.placeTable (t.filled (rows.getD [])) with
    | none => s.refuse 0x0521
    | some s' => match s'.table? t.id with
      | some u => (s'.logTable u rec).wrote
      | none => s'.wrote

def execTableRegister (rec : Bytes) (rows : Option Bytes) (s : State) : Host.Outcome State Fault Refusal :=
  .next (s.mailboxOp (registerRequest rec rows) (fun s => s.register rec rows))

/-- An item or a request reads a table: a GATHER in a Felt engine, a held request of a peer, or a class A item. -/
def State.tableRead (s : State) (id : BitVec 16) : Bool :=
  s.units.any (fun u => u.unit = 0 && feltTable u = id) ||
    s.fab.heldGathers.any (fun m => BitVec.ofNat 16 (fieldAt m.1.payload 0 2) = id) ||
    s.hb.items.any (fun it => it.cls = 0 && !it.phase.done && it.inputs.any (fun i => leVal (s.memRead i.addr 2) = id.toNat))

/-- TABLE_DROP (Table 15.6): what was kept for the table goes with it. -/
def State.dropTable (s : State) (id : BitVec 16) : Wrote :=
  match s.table? id with
  | none => s.refuse 0x0504
  | some t =>
    let part := s.felt.tables.any (fun u => u.kind = 3 && (u.part1 = id || u.part2 = id))
    if t.job.isSome || part || s.tableRead id then s.refuse 0x0C0A
    else
      let s := s.forgetRows (fun u _ => u = id)
      let s := { s with
        felt := { s.felt with tables := s.felt.tables.filter (fun u => u.id ≠ id),
                              combines := s.felt.combines.filter (fun c => c.table ≠ id),
                              pending := s.felt.pending.filter (fun c => c.entry.table ≠ id),
                              waiting := s.felt.waiting.filter (fun w => w.table ≠ id),
                              redirects := s.felt.redirects.filter (fun r => r.table ≠ id) },
        rst := { s.rst with shardPlace := s.rst.shardPlace.filter (fun p => p.1 ≠ id) } }
      let s := if s.mirrored && !t.replicated && t.kind ≠ 3 then s.sendLog 2 id 3 0 0 [] else s
      s.wrote

def execTableDrop (table : BitVec 16) (s : State) : Host.Outcome State Fault Refusal :=
  .next (s.mailboxOp (dropRequest table) (fun s => s.dropTable table))

/-- WM_LOAD (R263): LOAD run by firmware. -/
def State.loadSet (s : State) (set : BitVec 16) (copies : Nat) (image : Bytes) : Wrote :=
  if set = 0 || 0xFF < set.toNat || copies = 0 || 4 < copies then s.refuse 0x0601
  else match s.wmLoadImage set copies image with
    | .error c => s.refuse c
    | .ok s => s.wrote

def execWmLoad (set : BitVec 16) (copies : BitVec 8) (image : Bytes) (s : State) : Host.Outcome State Fault Refusal :=
  .next (s.mailboxOp (wmLoadRequest set copies image) (fun s => s.loadSet set copies.toNat image))

/-- WM_UNLOAD (R264). -/
def execWmUnload (set : BitVec 16) (s : State) : Host.Outcome State Fault Refusal :=
  .next (s.mailboxOp (wmUnloadRequest set) (fun s =>
    if set = 0 || 0xFF < set.toNat then s.refuse 0x0601
    else match s.wmUnloadSet set with
      | .error c => s.refuse c
      | .ok s => s.wrote))

/-- A block as TIERC_READ finds it: absent keys and blocks of older keys cannot be read (R306, R405); a block the module has never
written holds free bytes. -/
def State.blockAt (s : State) (nsid : BitVec 32) (lba : BitVec 64) (i : Nat) : Option Bytes :=
  match s.mem.tierC.find? (fun b => b.1 = nsid && b.2.1 = lba) with
  | some _ => s.tierCBlock nsid lba
  | none => if s.sec.nsKeys then some ((List.range 4096).map (fun k => Config.freeByte s.free (4096 * i + k))) else none

/-- Blocks `i` on, `n` of them. -/
def State.blocksAt (s : State) (nsid : BitVec 32) (lba : BitVec 64) : Nat → Nat → Option Bytes
  | _, 0 => some []
  | i, n + 1 =>
    match s.blockAt nsid (lba + BitVec.ofNat 64 i) i, State.blocksAt s nsid lba (i + 1) n with
    | some a, some b => some (a ++ b)
    | _, _ => none

/-- TIERC_READ (R306): the blocks go to the host. -/
def execTiercRead (nsid : BitVec 32) (lba : BitVec 64) (blocks : BitVec 32) (s : State) : Host.Outcome State Fault Refusal :=
  .next (s.mailboxOp (blocksRequest 0x14 nsid lba blocks []) (fun s =>
    if blocks = 0 || 256 < blocks.toNat then s.refuse 0x0C05
    else if s.mem.tierCUnused.contains nsid then s.refuse 0x0904
    else match s.blocksAt nsid lba 0 blocks.toNat with
      | none => s.refuse 0x0905
      | some b => (s.drawn.emit (.hostWrite 0 b)).wrote))

/-- Put a block in its place by namespace and LBA. -/
def placeBlock (x : BitVec 32 × BitVec 64 × Block) : List (BitVec 32 × BitVec 64 × Block) → List (BitVec 32 × BitVec 64 × Block)
  | [] => [x]
  | y :: ys =>
    if x.1 < y.1 || (x.1 = y.1 && x.2.1 < y.2.1) then x :: y :: ys
    else if x.1 = y.1 && x.2.1 = y.2.1 then x :: ys
    else y :: placeBlock x ys

/-- Write blocks from an LBA on, each enciphered under the namespace's key pair with its number as tweak (R306). -/
def State.writeBlocks (s : State) (nsid : BitVec 32) (lba : BitVec 64) (data : Bytes) (n : Nat) : State :=
  let put := fun (m : List (BitVec 32 × BitVec 64 × Block)) (i : Nat) =>
    let n := lba + BitVec.ofNat 64 i
    placeBlock (nsid, n, Block.seal (s.nsKey nsid) n (fit 4096 ((data.drop (4096 * i)).take 4096))) m
  { s with mem := { s.mem with tierC := (List.range n).foldl put s.mem.tierC } }

/-- TIERC_WRITE (R306). -/
def execTiercWrite (nsid : BitVec 32) (lba : BitVec 64) (blocks : BitVec 32) (data : Bytes) (s : State) :
    Host.Outcome State Fault Refusal :=
  .next (s.mailboxOp (blocksRequest 0x15 nsid lba blocks data) (fun s =>
    if blocks = 0 || 256 < blocks.toNat then s.refuse 0x0C05
    else if s.mem.tierCUnused.contains nsid then s.refuse 0x0904
    else if !s.sec.nsKeys then s.refuse 0x0905
    else (s.writeBlocks nsid lba data blocks.toNat).wrote))

/-- TEST_ITEM (R366): in recovery mode, one test job at a time. -/
def State.testJob (s : State) (image : Bytes) : Wrote :=
  if s.rst.boot ≠ .recovery then s.refuse 0x0C0B
  else if !s.hb.jobs.isEmpty then s.refuse 0x0C0A
  else match s.loadPlaud 0 true image with
    | .error c => s.refuse c
    | .ok s => (s.startJob (plaudJob image) image).wrote

def execTestItem (image : Bytes) (s : State) : Host.Outcome State Fault Refusal :=
  .next (s.dictAction (.mailbox (testRequest image)) (fun s => s.testJob image))

/-! ### The CANopen node (R375, Table 15.3) -/

/-- The NMT state after a command: start, stop, pre-operational, and the two resets of the node's communication state (0x81, 0x82). -/
def nmtAfter (cmd now : BitVec 8) : BitVec 8 :=
  if cmd = 0x01 then 0x05
  else if cmd = 0x02 then 0x04
  else if cmd = 0x80 || cmd = 0x81 || cmd = 0x82 then 0x7F
  else now

def nmtResets (cmd : BitVec 8) : Bool := cmd = 0x81 || cmd = 0x82

/-- An NMT command to the meter's node (R396), which is its own part of the module and runs in a reset too. -/
def State.meterNmt (s : State) (cmd : BitVec 8) : State :=
  if !s.meter.live then s
  else
    let t := s.setMeter { s.meter with nmt := nmtAfter cmd s.meter.nmt }
    if nmtResets cmd then (t.dropTransfer (.meterNode .expedited)).meterCan 0x700 [0] else t

/-- NMT_COMMAND: to this node, to the meter's, or to all. The two resets end the node's transfers and send a boot-up frame; none of
them resets the module. -/
def execNmtCommand (cmd : BitVec 8) (node : BitVec 8) (s : State) : Host.Outcome State Fault Refusal :=
  let s := if node = 0 || node = s.meterId.setWidth 8 then s.meterNmt cmd else s
  let mine := node = 0 || node = s.straps.canNode.setWidth 8
  if s.rst.boot = .inReset || s.straps.canNode = 0 || !mine then .next s
  else
    let t : State := { s with dict := { s.dict with nmt := nmtAfter cmd s.dict.nmt } }
    .next (if nmtResets cmd then (t.dropTransfer (.can .expedited)).sendCan 0x700 [0] else t)

/-- CAN_HEARTBEAT: the producer heartbeats of the two nodes carry their NMT states; a period of 0 turns them off (log entry 172). -/
def execCanHeartbeat (s : State) : Host.Outcome State Fault Refusal :=
  if s.furn 0x101700 1000 = 0 then .next s
  else
    let t := if s.rst.boot = .inReset then s else s.sendCan 0x700 [s.dict.nmt]
    .next (t.meterCan 0x700 [s.meter.nmt])

end Sys2Proof.Machine
end

