-- ==== Sys2Proof/Machine/Merge.lean ====
section
/-! DEFINITION. The exact-sum merge unit (R80 to R85). -/

namespace Sys2Proof.Machine

open Sys2Proof

/-- FIELD conditions of Table 3.5; a MERGE with SRC2 or NCOUNT other than 0 is turned away too (DESIGN CHOICE, log
entry 156). -/
def mergeField (u : UnitCmd) : Bool :=
  let flags := u.field 1 1
  let count := u.field 2 2
  8 ≤ flags || u.field 4 4 ≠ 0 || !allZero (u.block.drop 0x28) ||
    (if u.field 0 1 = 1 then
      count = 0 || 4096 < count || flags / 2 % 2 = 1 || u.field 0x10 8 ≠ 0 || u.field 0x18 8 ≠ 0
     else count ≠ 0 || flags / 4 % 2 = 1 || flags % 2 = 1)

/-- Lanes of an image as integers. -/
def State.image (s : State) (vat : BitVec 6) (a : Nat) : List Int :=
  (lanesOfBytes (s.sideBytes vat a 1152)).toList.map laneInt

def sumLanes : List Int → List Int → List Int
  | a :: as, b :: bs => (a + b) :: sumLanes as bs
  | _, _ => []

/-- FOLD: lanes 1 to 15 go into lane 0 and become zero. -/
def foldLanes (ls : List Int) : List Int := ls.foldl (· + ·) 0 :: List.replicate 15 0

def imageBytes (ls : List Int) : Bytes := ls.flatMap (fun v => leBytes 72 (laneOfInt v).toNat)

/-- MERGE (R81): the sum of the sources, and of DST under ACCUMULATE; then FOLD. -/
def mergePlan (s : State) (u : UnitCmd) : UnitPlan :=
  let vat := u.core.vat
  let flags := u.field 1 1
  let count := u.field 2 2
  let src := u.field 8 8
  let dst := u.field 0x20 8
  if mergeField u then .reject 0x0180
  else if dst % 64 ≠ 0 then .reject 0x0181
  else if !s.plainRange src (8 * count) then .reject 0x0182
  else
    let list := s.sideBytes vat src (8 * count)
    let imgs := (List.range count).map (fun i => fieldAt list (8 * i) 8)
    let bad := fun code => UnitPlan.rejectRead code [(src, 8 * count)] (if s.plainRange dst 1152 then [(dst, 1152)] else [])
    if imgs.any (· % 64 ≠ 0) then bad 0x0181
    else if !s.plainAll ((dst, 1152) :: imgs.map (·, 1152)) then bad 0x0182
    else
      let all := if flags % 2 = 1 then imgs ++ [dst] else imgs
      let sum := all.foldl (fun acc a => sumLanes acc (s.image vat a)) (List.replicate 16 0)
      let out := if flags / 4 % 2 = 1 then foldLanes sum else sum
      let reads := (src, 8 * count) :: all.map (·, 1152)
      if sum.all laneFits && out.all laneFits then
        { status := 0, reads := reads, writes := [(dst, imageBytes out)] }
      else .rejectRead 0x0183 reads [(dst, 1152)]

/-- Mean, variance and deviation of a lane (R83), or the NaNs of R84; the count is copied. -/
def statsLane (sum sq : Int) (n d : Nat) : Bytes :=
  let f64 := fmtOf 0xD
  let f32 := fmtOf 0xC
  let q := (n : Int) * sq * (2 ^ 298 : Nat) - sum * sum
  let vd := n * d * 2 ^ 596
  if n = 0 || d = 0 then
    leBytes 8 f64.nan ++ leBytes 8 f64.nan ++ leBytes 4 f32.nan ++ leBytes 4 f32.nan ++ leBytes 8 n
  else
    leBytes 8 (f64.round 0 (sum < 0) sum.natAbs (n * 2 ^ 298)).bits ++
      leBytes 8 (f64.round 0 false q.natAbs vd).bits ++
      leBytes 4 (f32.round 0 (sum < 0) sum.natAbs (n * 2 ^ 298)).bits ++
      leBytes 4 (f32.roundSqrt q.natAbs vd).bits ++ leBytes 8 n

/-- A lane that cannot come from one set of values and their squares (R83). -/
def statsNegative (sum sq : Int) (n : Nat) : Bool :=
  1 ≤ n && (sq < 0 || (n : Int) * sq * (2 ^ 298 : Nat) - sum * sum < 0)

/-- STATS (R83, R84). -/
def statsPlan (s : State) (u : UnitCmd) : UnitPlan :=
  let vat := u.core.vat
  let flags := u.field 1 1
  let src := u.field 8 8
  let src2 := u.field 0x10 8
  let cnt := u.field 0x18 8
  let dst := u.field 0x20 8
  if mergeField u then .reject 0x0180
  else if src % 64 ≠ 0 || src2 % 64 ≠ 0 || dst % 64 ≠ 0 || cnt % 8 ≠ 0 then .reject 0x0181
  else if !s.plainAll [(src, 1152), (src2, 1152), (cnt, 128), (dst, 512)] then .reject 0x0182
  else
    let ns := (List.range 16).map (fun i => fieldAt (s.sideBytes vat cnt 128) (8 * i) 8)
    let lanes := ((s.image vat src).zip (s.image vat src2)).zip ns
    let reads := [(src, 1152), (src2, 1152), (cnt, 128)]
    let sample := flags / 2 % 2 = 1
    let div := fun n => if sample then n - 1 else n
    if lanes.any (fun l => statsNegative l.1.1 l.1.2 l.2) then .rejectRead 0x0185 reads [(dst, 512)]
    else
      { status := if lanes.any (fun l => l.2 = 0 || div l.2 = 0) then 0x0184 else 0, reads := reads,
        writes := [(dst, lanes.flatMap (fun l => statsLane l.1.1 l.1.2 l.2 (div l.2)))] }

/-- MERGE (R81). -/
def execMerge (vat : BitVec 6) (s : State) : Host.Outcome State Fault Refusal :=
  runUnit 5 vat.toNat 1 true mergePlan s

/-- STATS (R83). -/
def execStats (vat : BitVec 6) (s : State) : Host.Outcome State Fault Refusal :=
  runUnit 5 vat.toNat 2 true statsPlan s

end Sys2Proof.Machine
end

