-- ==== Sys2Proof/Machine/Sizing.lean ====
section
/-! DEFINITION. The Sizing unit (R86 to R91). -/

namespace Sys2Proof.Machine

open Sys2Proof

/-- An exact finite value: a quotient with a positive denominator, and the sign a zero carries (log entry 63). -/
structure SizedQuot where
  num   : Int
  den   : Nat
  minus : Bool
deriving DecidableEq, Repr

/-- The sign of a value, −0 negative. -/
def SizedQuot.neg (a : SizedQuot) : Bool := a.num < 0 || (a.num = 0 && a.minus)

def SizedQuot.zero : SizedQuot := { num := 0, den := 1, minus := false }

/-- An exact value of the unit: a NaN, an infinity, or a finite value. -/
inductive Sized where
  | nan
  | inf (neg : Bool)
  | val (v : SizedQuot)
deriving DecidableEq, Repr

/-- A finite value as a quotient. -/
def quotOf (neg : Bool) (m : Nat) (e : Int) : SizedQuot :=
  let n : Int := if e < 0 then m else (m * 2 ^ e.toNat : Nat)
  { num := if neg then -n else n, den := if e < 0 then 2 ^ (-e).toNat else 1, minus := neg }

/-- An input element. -/
def sizedIn (t b : Nat) : Sized :=
  if etypeIsFloat t then
    match (fmtOf t).decode b with
    | .nan _ => .nan
    | .inf n => .inf n
    | .fin n m e => .val (quotOf n m e)
  else .val { num := intVal (etypeSigned t) (etypeBytes t) b, den := 1, minus := false }

/-- A parameter as a quotient, or none when it is not finite. -/
def sizedParam (b : Nat) : Option SizedQuot :=
  match (fmtOf 0xC).decode b with
  | .fin n m e => some (quotOf n m e)
  | _ => none

/-- a − b of quotients; a difference of zero is −0 only for −0 less +0 (log entry 63). -/
def quotSub (a b : SizedQuot) : SizedQuot :=
  { num := a.num * b.den - b.num * a.den, den := a.den * b.den, minus := a.num = 0 && a.minus && !b.neg }

/-- a < b of quotients. -/
def quotLt (a b : SizedQuot) : Bool := a.num * b.den < b.num * a.den

/-- a ÷ b of quotients, b positive. -/
def quotDiv (a b : SizedQuot) : SizedQuot := { num := a.num * b.den, den := a.den * b.num.toNat, minus := a.minus }

structure SizingParams where
  a    : SizedQuot
  b    : SizedQuot
  c    : SizedQuot
  d    : SizedQuot
deriving DecidableEq, Repr

/-- clip(v) = min(max(v, C), D). -/
def clipVal (p : SizingParams) : Sized → Sized
  | .nan => .nan
  | .inf neg => .val (if neg then p.c else p.d)
  | .val v => .val (if quotLt v p.c then p.c else if quotLt p.d v then p.d else v)

/-- ln(1 + v) for v above −1, to 700 fraction bits; zero keeps its sign. -/
def ln1p (v : SizedQuot) : SizedQuot :=
  { num := lnFixed 700 (v.num + v.den).toNat v.den, den := 2 ^ 700, minus := v.minus }

/-- The value with its sign turned. -/
def SizedQuot.flip (a : SizedQuot) : SizedQuot := { a with num := -a.num, minus := !a.minus }

/-- The value before POST_CLIP (Table 3.7); `.nan` for an input handled as a NaN. An infinite input takes the sign of
the quotient (R89). -/
def sizingValue (mode : Nat) (signed : Bool) (p : SizingParams) (x : Sized) : Sized :=
  match x with
  | .nan => .nan
  | .inf neg =>
    if mode = 3 then clipVal p x
    else if mode = 2 then (if !signed && neg then .nan else .inf neg)
    else if mode = 1 then .inf (neg != (quotSub p.b p.a).neg)
    else .inf (neg != p.b.neg)
  | .val v =>
    match mode with
    | 0 => .val (if p.b.num = 0 then SizedQuot.zero else quotDiv (quotSub v p.a) p.b)
    | 1 => let w := quotSub p.b p.a; .val (if w.num = 0 then SizedQuot.zero else quotDiv (quotSub v p.a) w)
    | 2 =>
      if signed then .val (if v.neg then (ln1p v.flip).flip else ln1p v)
      else if v.num + v.den = 0 then .inf true
      else if v.num + v.den < 0 then .nan
      else .val (ln1p v)
    | _ => clipVal p x

/-- Round into OUT_TYPE (R87, Table 3.2), E5M2 results saturated under SAT. -/
def sizedOut (t : Nat) (sat : Bool) (v : Sized) : Nat :=
  let f := fmtOf t
  let r := match v with
    | .nan => f.nan
    | .inf neg => (f.infinity neg).bits
    | .val v => (f.round 0 v.neg v.num.natAbs v.den).bits
  if t = 0x9 && sat && r % f.signBit = f.infMag then r - r % f.signBit + f.maxMag else r

/-- One element: its output and whether it counts as a NaN input. -/
def sizingElem (mode tin tout flags : Nat) (p : SizingParams) (fill : SizedQuot) (b : Nat) : Nat × Bool :=
  let sat := flags / 4 % 2 = 1
  let v := sizingValue mode (flags / 8 % 2 = 1) p (sizedIn tin b)
  if v = .nan then
    (sizedOut tout sat (if flags / 2 % 2 = 1 then .val fill else .nan), true)
  else (sizedOut tout sat (if flags % 2 = 1 && mode ≠ 3 then clipVal p v else v), false)

def sizingField (u : UnitCmd) : Bool :=
  let mode := u.field 0 1
  let flags := u.field 3 1
  let count := u.field 4 4
  !([0, 1, 2, 3, 4, 5, 0xA, 0xB, 0xC].contains (u.field 1 1)) || !([8, 9, 0xA, 0xB, 0xC].contains (u.field 2 1)) ||
    16 ≤ flags || (flags / 8 % 2 = 1 && mode ≠ 2) || count = 0 || 16777216 < count || !allZero (u.block.drop 0x2C)

/-- The parameters, when they meet R90. -/
def sizingParams (u : UnitCmd) : Option (SizingParams × SizedQuot) :=
  let mode := u.field 0 1
  let clips := mode = 3 || u.field 3 1 % 2 = 1
  match sizedParam (u.field 0x18 4), sizedParam (u.field 0x1C 4), sizedParam (u.field 0x28 4) with
  | some a, some b, some fill =>
    if (mode = 0 && b.num < 0) || (mode = 1 && quotLt b a) then none
    else if clips then
      match sizedParam (u.field 0x20 4), sizedParam (u.field 0x24 4) with
      | some c, some d => if quotLt d c then none else some ({ a := a, b := b, c := c, d := d }, fill)
      | _, _ => none
    else some ({ a := a, b := b, c := SizedQuot.zero, d := SizedQuot.zero }, fill)
  | _, _, _ => none

/-- A Sizing command (R86 to R91). -/
def sizingPlan (s : State) (u : UnitCmd) : UnitPlan :=
  let count := u.field 4 4
  let tin := u.field 1 1
  let tout := u.field 2 1
  let wi := etypeBytes tin
  let wo := etypeBytes tout
  let src := u.field 8 8
  let dst := u.field 0x10 8
  if sizingField u then .reject 0x04F0
  else match sizingParams u with
    | none => .reject 0x04F1
    | some (p, fill) =>
      if src % wi ≠ 0 || dst % wo ≠ 0 then .reject 0x04F2
      else if !s.plainAll [(src, wi * count), (dst, wo * count)] then .reject 0x04F3
      else
        let b := s.seen u.core.vat src (wi * count)
        let outs := (List.range count).map (fun i =>
          sizingElem (u.field 0 1) tin tout (u.field 3 1) p fill (fieldAt b (wi * i) wi))
        { status := if outs.any (·.2) then 0x04F4 else 0, reads := [(src, wi * count)],
          writes := [(dst, outs.flatMap (fun o => leBytes wo o.1))] }

/-- ZSCORE (R88). -/
def execZscore (vat : BitVec 6) (s : State) : Host.Outcome State Fault Refusal :=
  runUnit 2 vat.toNat 0 false sizingPlan s

/-- MINMAX (R88). -/
def execMinmax (vat : BitVec 6) (s : State) : Host.Outcome State Fault Refusal :=
  runUnit 2 vat.toNat 1 false sizingPlan s

/-- LOG1P (R88). -/
def execLog1p (vat : BitVec 6) (s : State) : Host.Outcome State Fault Refusal :=
  runUnit 2 vat.toNat 2 false sizingPlan s

/-- CLIP (R88). -/
def execClip (vat : BitVec 6) (s : State) : Host.Outcome State Fault Refusal :=
  runUnit 2 vat.toNat 3 false sizingPlan s

end Sys2Proof.Machine
end

