-- ==== Sys2Proof/Machine/Sort.lean ====
section
/-! DEFINITION. The sort unit (R105 to R111). -/

namespace Sys2Proof.Machine

open Sys2Proof

/-- Bytes of an entry: key and index (R93). -/
def entryBytes (kt : Nat) : Nat := if keyBytes kt = 4 then 8 else 16

def entryAt (kt : Nat) (b : Bytes) (i : Nat) : Entry :=
  let w := entryBytes kt
  { key := fieldAt b (w * i) (keyBytes kt), idx := fieldAt b (w * i + keyBytes kt) 4 }

/-- An entry as written; the reserved bytes of a 16-byte entry are zero (R110). -/
def Entry.bytes (kt : Nat) (e : Entry) : Bytes :=
  leBytes (keyBytes kt) e.key ++ leBytes 4 e.idx ++ zeros (entryBytes kt - keyBytes kt - 4)

/-- The fields of a sort command (Table 4.6). -/
structure SortCmd where
  op     : Nat
  kt     : Nat
  flags  : Nat
  k      : Nat
  nlists : Nat
  count  : Nat
  ibase  : Nat
  src    : Nat
  dst    : Nat
  result : Nat
  src2   : Nat
deriving DecidableEq, Repr

def sortCmd (u : UnitCmd) : SortCmd :=
  { op := u.field 0 1, kt := u.field 1 1, flags := u.field 2 1, k := u.field 4 2, nlists := u.field 6 2,
    count := u.field 8 4, ibase := u.field 0xC 4, src := u.field 0x10 8, dst := u.field 0x18 8,
    result := u.field 0x20 8, src2 := u.field 0x28 8 }

def SortCmd.smallest (c : SortCmd) : Bool := c.flags % 2 = 1
def SortCmd.keysOnly (c : SortCmd) : Bool := c.flags / 2 % 2 = 1

def SortCmd.fieldBad (c : SortCmd) (u : UnitCmd) : Bool :=
  !([4, 5, 0xC, 6, 7, 0xD].contains c.kt) || 4 ≤ c.flags || u.field 3 1 ≠ 0 || !allZero (u.block.drop 0x30) ||
    (c.keysOnly && c.op = 2) || (!c.keysOnly && c.ibase ≠ 0) ||
    (match c.op with
     | 1 => c.k = 0 || 4096 < c.k || c.nlists ≠ 0 || c.count = 0 || c.src2 ≠ 0
     | 2 => c.k = 0 || 4096 < c.k || c.nlists < 2 || 1024 < c.nlists || c.count ≠ 0
     | _ => c.k ≠ 0 || c.nlists ≠ 0 || c.count = 0 || 16777216 < c.count || c.src2 ≠ 0)

/-- Bytes of a source element. -/
def SortCmd.unitBytes (c : SortCmd) : Nat := if c.keysOnly then keyBytes c.kt else entryBytes c.kt

/-- Entries written to DST. -/
def SortCmd.outCount (c : SortCmd) : Nat := if c.op = 3 then c.count else c.k

/-- The source ranges but for the lists of a MERGE. -/
def SortCmd.ranges (c : SortCmd) : List (Nat × Nat) :=
  if c.op = 2 then (c.src, 8 * c.nlists) :: (if c.src2 = 0 then [] else [(c.src2, 16 * c.nlists)])
  else [(c.src, c.unitBytes * c.count)]

def SortCmd.dstRange (c : SortCmd) : Nat × Nat := (c.dst, entryBytes c.kt * c.outCount)

/-- Addresses of the lists of a MERGE. -/
def State.sortLists (s : State) (vat : BitVec 6) (c : SortCmd) : List Nat :=
  if c.op = 2 then
    let b := s.seen vat c.src (8 * c.nlists)
    (List.range c.nlists).map (fun i => fieldAt b (8 * i) 8)
  else []

/-- A MERGE that no condition before its list addresses turns away reads them. -/
def SortCmd.listsRead (c : SortCmd) (u : UnitCmd) : Bool :=
  c.op = 2 && !c.fieldBad u && c.src % 8 = 0 && c.src2 % 8 = 0 && c.dst % entryBytes c.kt = 0 && c.result % 16 = 0

/-- The first condition of Table 4.8 that holds. -/
def State.sortReject (s : State) (u : UnitCmd) (c : SortCmd) : Option (BitVec 16) :=
  let e := entryBytes c.kt
  if c.fieldBad u then some 0x0710
  else if (if c.op = 2 then c.src % 8 ≠ 0 || c.src2 % 8 ≠ 0 else c.src % c.unitBytes ≠ 0) || c.dst % e ≠ 0 ||
      c.result % 16 ≠ 0 then some 0x0711
  else if c.op = 2 && !s.plainRange c.src (8 * c.nlists) then some 0x0712
  else
    let lists := s.sortLists u.core.vat c
    let ranges := c.ranges ++ lists.map (·, e * c.k)
    if lists.any (· % e ≠ 0) then some 0x0711
    else if !s.plainAll (ranges ++ [c.dstRange, (c.result, 16)]) then some 0x0712
    else if ((c.result, 16) :: ranges).any (fun r => overlaps c.dst c.dstRange.2 r.1 r.2) then some 0x0713
    else if c.keysOnly && 0xFFFFFFFF < c.ibase + c.count then some 0x0714
    else none

/-- The source entries in list-number order. -/
def State.sortEntries (s : State) (vat : BitVec 6) (c : SortCmd) : List Entry :=
  if c.op = 2 then
    (s.sortLists vat c).flatMap (fun a =>
      let b := s.seen vat a (entryBytes c.kt * c.k)
      (List.range c.k).map (entryAt c.kt b))
  else
    let b := s.seen vat c.src (c.unitBytes * c.count)
    (List.range c.count).map (fun p =>
      if c.keysOnly then { key := fieldAt b (c.unitBytes * p) c.unitBytes, idx := c.ibase + p } else entryAt c.kt b p)

/-- TIES of the input records that a MERGE adds (R108). -/
def State.mergeTies (s : State) (vat : BitVec 6) (c : SortCmd) (out : List Entry) : Nat :=
  if c.src2 = 0 || out.length < c.k then 0
  else match out.getLast? with
    | none => 0
    | some last =>
      let recs := s.seen vat c.src2 (16 * c.nlists)
      ((s.sortLists vat c).zip (List.range c.nlists)).foldl (fun a x =>
        let kth := entryAt c.kt (s.seen vat (x.1 + entryBytes c.kt * (c.k - 1)) (entryBytes c.kt)) 0
        if fieldAt recs (16 * x.2 + 4) 4 = c.k && keyOrd c.kt kth.key = keyOrd c.kt last.key
        then a + fieldAt recs (16 * x.2 + 8) 4 else a) 0

/-- SORT (R109): every candidate in order, duplicates kept. -/
def sortAll (c : SortCmd) (xs : List Entry) : Selection :=
  let (cs, nans) := admitted c.kt xs
  { entries := rankSort c.kt c.smallest cs, ties := 0, nans := nans, conflict := false }

/-- A sort command (R106 to R111). TIES takes the low 32 bits of a larger sum (DESIGN CHOICE, log entry 159). -/
def sortPlan (s : State) (u : UnitCmd) : UnitPlan :=
  let c := sortCmd u
  let vat := u.core.vat
  match s.sortReject u c with
  | some code =>
    let reads := if c.listsRead u then s.plainOf [(c.src, 8 * c.nlists)] else []
    let spoils := if reads = [] then [] else s.plainOf [c.dstRange, (c.result, 16)]
    if c.result % 16 = 0 && s.plainRange c.result 16 then
      { status := code, reads := reads, writes := [(c.result, leBytes 2 code.toNat)], spoils := spoils }
    else .rejectRead code reads spoils
  | none =>
    let xs := s.sortEntries vat c
    let r := if c.op = 3 then sortAll c xs else select c.kt c.k c.smallest xs
    let ties := if c.op = 2 then r.ties + s.mergeTies vat c r.entries else r.ties
    { status := r.status,
      reads := c.ranges ++ (s.sortLists vat c).map (·, entryBytes c.kt * c.k),
      writes :=
        [(c.dst, (padded c.kt c.outCount c.smallest r.entries).flatMap (Entry.bytes c.kt)),
         (c.result, record 16 [(0, 2, r.status.toNat), (4, 4, r.entries.length), (8, 4, ties), (0xC, 4, r.nans)])] }

/-- TOPK (R107). -/
def execTopk (unit : BitVec 4) (s : State) : Host.Outcome State Fault Refusal :=
  runUnit 4 unit.toNat 1 false sortPlan s

/-- MERGE of the sort unit (R108). -/
def execSortMerge (unit : BitVec 4) (s : State) : Host.Outcome State Fault Refusal :=
  runUnit 4 unit.toNat 2 false sortPlan s

/-- SORT (R109). -/
def execSort (unit : BitVec 4) (s : State) : Host.Outcome State Fault Refusal :=
  runUnit 4 unit.toNat 3 false sortPlan s

/-- DESC_CREATE (R123): a write of CTRL of a creation port window of a Vat. -/
def execDescCreate (vat : BitVec 6) (core : BitVec 5) (ctrl : BitVec 32) (s : State) :
    Host.Outcome State Fault Refusal :=
  if core.toNat < 17 then .next (s.portCtrl vat (portNum vat core.toNat) ctrl) else .next s

end Sys2Proof.Machine
end

