-- ==== Sys2Proof/Machine/Tistra.lean ====
section
/-! DEFINITION. The 123 Tistra rows: each runs one word whose own slot the row gives. -/

namespace Sys2Proof.Machine

open Sys2Proof

/-- NOP (R39). -/
def execNop (c : CoreId) (bits : BitVec 25) (w : Companions) (s : State) : Host.Outcome State Fault Refusal :=
  runWord c 0 (slotNop0 bits) w s

/-- ADD (R39). -/
def execAdd (c : CoreId) (f : SR) (w : Companions) (s : State) : Host.Outcome State Fault Refusal :=
  runWord c 0 (slotAdd f) w s

/-- SUB (R39). -/
def execSub (c : CoreId) (f : SR) (w : Companions) (s : State) : Host.Outcome State Fault Refusal :=
  runWord c 0 (slotSub f) w s

/-- MUL (R39). -/
def execMul (c : CoreId) (f : SR) (w : Companions) (s : State) : Host.Outcome State Fault Refusal :=
  runWord c 0 (slotMul f) w s

/-- MULH (R39). -/
def execMulh (c : CoreId) (f : SR) (w : Companions) (s : State) : Host.Outcome State Fault Refusal :=
  runWord c 0 (slotMulh f) w s

/-- MULHU (R39). -/
def execMulhu (c : CoreId) (f : SR) (w : Companions) (s : State) : Host.Outcome State Fault Refusal :=
  runWord c 0 (slotMulhu f) w s

/-- DIV (R39). -/
def execDiv (c : CoreId) (f : SR) (w : Companions) (s : State) : Host.Outcome State Fault Refusal :=
  runWord c 0 (slotDiv f) w s

/-- DIVU (R39). -/
def execDivu (c : CoreId) (f : SR) (w : Companions) (s : State) : Host.Outcome State Fault Refusal :=
  runWord c 0 (slotDivu f) w s

/-- REM (R39). -/
def execRem (c : CoreId) (f : SR) (w : Companions) (s : State) : Host.Outcome State Fault Refusal :=
  runWord c 0 (slotRem f) w s

/-- AND (R39). -/
def execAnd (c : CoreId) (f : SR) (w : Companions) (s : State) : Host.Outcome State Fault Refusal :=
  runWord c 0 (slotAnd f) w s

/-- OR (R39). -/
def execOr (c : CoreId) (f : SR) (w : Companions) (s : State) : Host.Outcome State Fault Refusal :=
  runWord c 0 (slotOr f) w s

/-- XOR (R39). -/
def execXor (c : CoreId) (f : SR) (w : Companions) (s : State) : Host.Outcome State Fault Refusal :=
  runWord c 0 (slotXor f) w s

/-- SHL (R39). -/
def execShl (c : CoreId) (f : SR) (w : Companions) (s : State) : Host.Outcome State Fault Refusal :=
  runWord c 0 (slotShl f) w s

/-- SHR (R39). -/
def execShr (c : CoreId) (f : SR) (w : Companions) (s : State) : Host.Outcome State Fault Refusal :=
  runWord c 0 (slotShr f) w s

/-- SRA (R39). -/
def execSra (c : CoreId) (f : SR) (w : Companions) (s : State) : Host.Outcome State Fault Refusal :=
  runWord c 0 (slotSra f) w s

/-- SLT (R39). -/
def execSlt (c : CoreId) (f : SR) (w : Companions) (s : State) : Host.Outcome State Fault Refusal :=
  runWord c 0 (slotSlt f) w s

/-- SLTU (R39). -/
def execSltu (c : CoreId) (f : SR) (w : Companions) (s : State) : Host.Outcome State Fault Refusal :=
  runWord c 0 (slotSltu f) w s

/-- CLZ (R39). -/
def execClz (c : CoreId) (f : SR) (w : Companions) (s : State) : Host.Outcome State Fault Refusal :=
  runWord c 0 (slotClz f) w s

/-- POPC (R39). -/
def execPopc (c : CoreId) (f : SR) (w : Companions) (s : State) : Host.Outcome State Fault Refusal :=
  runWord c 0 (slotPopc f) w s

/-- ADDI (R39). -/
def execAddi (c : CoreId) (f : SI) (w : Companions) (s : State) : Host.Outcome State Fault Refusal :=
  runWord c 0 (slotAddi f) w s

/-- ANDI (R39). -/
def execAndi (c : CoreId) (f : SI) (w : Companions) (s : State) : Host.Outcome State Fault Refusal :=
  runWord c 0 (slotAndi f) w s

/-- ORI (R39). -/
def execOri (c : CoreId) (f : SI) (w : Companions) (s : State) : Host.Outcome State Fault Refusal :=
  runWord c 0 (slotOri f) w s

/-- XORI (R39). -/
def execXori (c : CoreId) (f : SI) (w : Companions) (s : State) : Host.Outcome State Fault Refusal :=
  runWord c 0 (slotXori f) w s

/-- SHLI (R39). -/
def execShli (c : CoreId) (f : SI) (w : Companions) (s : State) : Host.Outcome State Fault Refusal :=
  runWord c 0 (slotShli f) w s

/-- SHRI (R39). -/
def execShri (c : CoreId) (f : SI) (w : Companions) (s : State) : Host.Outcome State Fault Refusal :=
  runWord c 0 (slotShri f) w s

/-- SRAI (R39). -/
def execSrai (c : CoreId) (f : SI) (w : Companions) (s : State) : Host.Outcome State Fault Refusal :=
  runWord c 0 (slotSrai f) w s

/-- LSI (R39). -/
def execLsi (c : CoreId) (f : SI) (w : Companions) (s : State) : Host.Outcome State Fault Refusal :=
  runWord c 0 (slotLsi f) w s

/-- SLTI (R39). -/
def execSlti (c : CoreId) (f : SI) (w : Companions) (s : State) : Host.Outcome State Fault Refusal :=
  runWord c 0 (slotSlti f) w s

/-- BEQ (R37). -/
def execBeq (c : CoreId) (f : SB) (w : Companions) (s : State) : Host.Outcome State Fault Refusal :=
  runWord c 0 (slotBeq f) w s

/-- BNE (R37). -/
def execBne (c : CoreId) (f : SB) (w : Companions) (s : State) : Host.Outcome State Fault Refusal :=
  runWord c 0 (slotBne f) w s

/-- BLT (R37). -/
def execBlt (c : CoreId) (f : SB) (w : Companions) (s : State) : Host.Outcome State Fault Refusal :=
  runWord c 0 (slotBlt f) w s

/-- BGE (R37). -/
def execBge (c : CoreId) (f : SB) (w : Companions) (s : State) : Host.Outcome State Fault Refusal :=
  runWord c 0 (slotBge f) w s

/-- BLTU (R37). -/
def execBltu (c : CoreId) (f : SB) (w : Companions) (s : State) : Host.Outcome State Fault Refusal :=
  runWord c 0 (slotBltu f) w s

/-- BGEU (R37). -/
def execBgeu (c : CoreId) (f : SB) (w : Companions) (s : State) : Host.Outcome State Fault Refusal :=
  runWord c 0 (slotBgeu f) w s

/-- BANY (R37). -/
def execBany (c : CoreId) (f : SB) (w : Companions) (s : State) : Host.Outcome State Fault Refusal :=
  runWord c 0 (slotBany f) w s

/-- BNONE (R37). -/
def execBnone (c : CoreId) (f : SB) (w : Companions) (s : State) : Host.Outcome State Fault Refusal :=
  runWord c 0 (slotBnone f) w s

/-- JMP (R37). -/
def execJmp (c : CoreId) (f : SJ) (w : Companions) (s : State) : Host.Outcome State Fault Refusal :=
  runWord c 0 (slotJmp f) w s

/-- CALL (R37). -/
def execCall (c : CoreId) (f : SJ) (w : Companions) (s : State) : Host.Outcome State Fault Refusal :=
  runWord c 0 (slotCall f) w s

/-- JR (R37). -/
def execJr (c : CoreId) (f : SR) (w : Companions) (s : State) : Host.Outcome State Fault Refusal :=
  runWord c 0 (slotJr f) w s

/-- CALLR (R37). -/
def execCallr (c : CoreId) (f : SR) (w : Companions) (s : State) : Host.Outcome State Fault Refusal :=
  runWord c 0 (slotCallr f) w s

/-- CSRR (R42). -/
def execCsrr (c : CoreId) (f : SR) (w : Companions) (s : State) : Host.Outcome State Fault Refusal :=
  runWord c 0 (slotCsrr f) w s

/-- CSRW (R42). -/
def execCsrw (c : CoreId) (f : SR) (w : Companions) (s : State) : Host.Outcome State Fault Refusal :=
  runWord c 0 (slotCsrw f) w s

/-- TRAP (R61). -/
def execTrap (c : CoreId) (f : SR) (w : Companions) (s : State) : Host.Outcome State Fault Refusal :=
  runWord c 0 (slotTrap f) w s

/-- DONE (R50). -/
def execDone (c : CoreId) (f : SR) (w : Companions) (s : State) : Host.Outcome State Fault Refusal :=
  runWord c 0 (slotDone f) w s

/-- ERET (R61). -/
def execEret (c : CoreId) (f : SR) (w : Companions) (s : State) : Host.Outcome State Fault Refusal :=
  runWord c 0 (slotEret f) w s

/-- VNOP (R39). -/
def execVnop (c : CoreId) (slot2 : Bool) (bits : BitVec 26) (w : Companions) (s : State) : Host.Outcome State Fault Refusal :=
  runWord c (if slot2 then 2 else 1) (slotVnop bits) w s

/-- VFMA (R74). -/
def execVfma (c : CoreId) (f : VR) (w : Companions) (s : State) : Host.Outcome State Fault Refusal :=
  runWord c 1 (slotVfma f) w s

/-- VFMS (R74). -/
def execVfms (c : CoreId) (f : VR) (w : Companions) (s : State) : Host.Outcome State Fault Refusal :=
  runWord c 1 (slotVfms f) w s

/-- VFMUL (R74). -/
def execVfmul (c : CoreId) (f : VR) (w : Companions) (s : State) : Host.Outcome State Fault Refusal :=
  runWord c 1 (slotVfmul f) w s

/-- VFADD (R74). -/
def execVfadd (c : CoreId) (f : VR) (w : Companions) (s : State) : Host.Outcome State Fault Refusal :=
  runWord c 1 (slotVfadd f) w s

/-- VFSUB (R74). -/
def execVfsub (c : CoreId) (f : VR) (w : Companions) (s : State) : Host.Outcome State Fault Refusal :=
  runWord c 1 (slotVfsub f) w s

/-- VFMAX (R39). -/
def execVfmax (c : CoreId) (f : VR) (w : Companions) (s : State) : Host.Outcome State Fault Refusal :=
  runWord c 1 (slotVfmax f) w s

/-- VFMIN (R39). -/
def execVfmin (c : CoreId) (f : VR) (w : Companions) (s : State) : Host.Outcome State Fault Refusal :=
  runWord c 1 (slotVfmin f) w s

/-- VIMUL (R39). -/
def execVimul (c : CoreId) (f : VR) (w : Companions) (s : State) : Host.Outcome State Fault Refusal :=
  runWord c 1 (slotVimul f) w s

/-- VIMAC (R39). -/
def execVimac (c : CoreId) (f : VR) (w : Companions) (s : State) : Host.Outcome State Fault Refusal :=
  runWord c 1 (slotVimac f) w s

/-- VDOT4 (R39). -/
def execVdot4 (c : CoreId) (f : VR) (w : Companions) (s : State) : Host.Outcome State Fault Refusal :=
  runWord c 1 (slotVdot4 f) w s

/-- VEACC (R77). -/
def execVeacc (c : CoreId) (f : VR) (w : Companions) (s : State) : Host.Outcome State Fault Refusal :=
  runWord c 1 (slotVeacc f) w s

/-- VESQ (R77). -/
def execVesq (c : CoreId) (f : VR) (w : Companions) (s : State) : Host.Outcome State Fault Refusal :=
  runWord c 1 (slotVesq f) w s

/-- VERD (R79). -/
def execVerd (c : CoreId) (f : VR) (w : Companions) (s : State) : Host.Outcome State Fault Refusal :=
  runWord c 1 (slotVerd f) w s

/-- VECLR (R39). -/
def execVeclr (c : CoreId) (f : VR) (w : Companions) (s : State) : Host.Outcome State Fault Refusal :=
  runWord c 1 (slotVeclr f) w s

/-- VEADD (R78). -/
def execVeadd (c : CoreId) (f : VR) (w : Companions) (s : State) : Host.Outcome State Fault Refusal :=
  runWord c 1 (slotVeadd f) w s

/-- VADD (R39). -/
def execVadd (c : CoreId) (f : VR) (w : Companions) (s : State) : Host.Outcome State Fault Refusal :=
  runWord c 2 (slotVadd f) w s

/-- VSUB (R39). -/
def execVsub (c : CoreId) (f : VR) (w : Companions) (s : State) : Host.Outcome State Fault Refusal :=
  runWord c 2 (slotVsub f) w s

/-- VADDS (R39). -/
def execVadds (c : CoreId) (f : VR) (w : Companions) (s : State) : Host.Outcome State Fault Refusal :=
  runWord c 2 (slotVadds f) w s

/-- VSUBS (R39). -/
def execVsubs (c : CoreId) (f : VR) (w : Companions) (s : State) : Host.Outcome State Fault Refusal :=
  runWord c 2 (slotVsubs f) w s

/-- VAND (R39). -/
def execVand (c : CoreId) (f : VR) (w : Companions) (s : State) : Host.Outcome State Fault Refusal :=
  runWord c 2 (slotVand f) w s

/-- VOR (R39). -/
def execVor (c : CoreId) (f : VR) (w : Companions) (s : State) : Host.Outcome State Fault Refusal :=
  runWord c 2 (slotVor f) w s

/-- VXOR (R39). -/
def execVxor (c : CoreId) (f : VR) (w : Companions) (s : State) : Host.Outcome State Fault Refusal :=
  runWord c 2 (slotVxor f) w s

/-- VSHL (R39). -/
def execVshl (c : CoreId) (f : VR) (w : Companions) (s : State) : Host.Outcome State Fault Refusal :=
  runWord c 2 (slotVshl f) w s

/-- VSHR (R39). -/
def execVshr (c : CoreId) (f : VR) (w : Companions) (s : State) : Host.Outcome State Fault Refusal :=
  runWord c 2 (slotVshr f) w s

/-- VSRA (R39). -/
def execVsra (c : CoreId) (f : VR) (w : Companions) (s : State) : Host.Outcome State Fault Refusal :=
  runWord c 2 (slotVsra f) w s

/-- VMIN (R39). -/
def execVmin (c : CoreId) (f : VR) (w : Companions) (s : State) : Host.Outcome State Fault Refusal :=
  runWord c 2 (slotVmin f) w s

/-- VMAX (R39). -/
def execVmax (c : CoreId) (f : VR) (w : Companions) (s : State) : Host.Outcome State Fault Refusal :=
  runWord c 2 (slotVmax f) w s

/-- VCMP (R39). -/
def execVcmp (c : CoreId) (f : VR) (w : Companions) (s : State) : Host.Outcome State Fault Refusal :=
  runWord c 2 (slotVcmp f) w s

/-- VSEL (R39). -/
def execVsel (c : CoreId) (f : VR) (w : Companions) (s : State) : Host.Outcome State Fault Refusal :=
  runWord c 2 (slotVsel f) w s

/-- VCVT (R40). -/
def execVcvt (c : CoreId) (f : VR) (w : Companions) (s : State) : Host.Outcome State Fault Refusal :=
  runWord c 2 (slotVcvt f) w s

/-- VPERM (R39). -/
def execVperm (c : CoreId) (f : VR) (w : Companions) (s : State) : Host.Outcome State Fault Refusal :=
  runWord c 2 (slotVperm f) w s

/-- VBCAST (R39). -/
def execVbcast (c : CoreId) (f : VR) (w : Companions) (s : State) : Host.Outcome State Fault Refusal :=
  runWord c 2 (slotVbcast f) w s

/-- VMOVX (R39). -/
def execVmovx (c : CoreId) (f : VR) (w : Companions) (s : State) : Host.Outcome State Fault Refusal :=
  runWord c 2 (slotVmovx f) w s

/-- VMOVI (R39). -/
def execVmovi (c : CoreId) (f : VI) (w : Companions) (s : State) : Host.Outcome State Fault Refusal :=
  runWord c 2 (slotVmovi f) w s

/-- VCOMPRESS (R39). -/
def execVcompress (c : CoreId) (f : VR) (w : Companions) (s : State) : Host.Outcome State Fault Refusal :=
  runWord c 2 (slotVcompress f) w s

/-- VEXPAND (R39). -/
def execVexpand (c : CoreId) (f : VR) (w : Companions) (s : State) : Host.Outcome State Fault Refusal :=
  runWord c 2 (slotVexpand f) w s

/-- VSCAN (R39). -/
def execVscan (c : CoreId) (f : VR) (w : Companions) (s : State) : Host.Outcome State Fault Refusal :=
  runWord c 2 (slotVscan f) w s

/-- VTOPK (R96). -/
def execVtopk (c : CoreId) (f : VR) (w : Companions) (s : State) : Host.Outcome State Fault Refusal :=
  runWord c 2 (slotVtopk f) w s

/-- VMERGEK (R97). -/
def execVmergek (c : CoreId) (f : VR) (w : Companions) (s : State) : Host.Outcome State Fault Refusal :=
  runWord c 2 (slotVmergek f) w s

/-- VHASH (R202). -/
def execVhash (c : CoreId) (f : VR) (w : Companions) (s : State) : Host.Outcome State Fault Refusal :=
  runWord c 2 (slotVhash f) w s

/-- PAND (R31). -/
def execPand (c : CoreId) (f : VR) (w : Companions) (s : State) : Host.Outcome State Fault Refusal :=
  runWord c 2 (slotPand f) w s

/-- POR (R31). -/
def execPor (c : CoreId) (f : VR) (w : Companions) (s : State) : Host.Outcome State Fault Refusal :=
  runWord c 2 (slotPor f) w s

/-- PXOR (R31). -/
def execPxor (c : CoreId) (f : VR) (w : Companions) (s : State) : Host.Outcome State Fault Refusal :=
  runWord c 2 (slotPxor f) w s

/-- PNOT (R31). -/
def execPnot (c : CoreId) (f : VR) (w : Companions) (s : State) : Host.Outcome State Fault Refusal :=
  runWord c 2 (slotPnot f) w s

/-- PCNT (R31). -/
def execPcnt (c : CoreId) (f : VR) (w : Companions) (s : State) : Host.Outcome State Fault Refusal :=
  runWord c 2 (slotPcnt f) w s

/-- PLEN (R31). -/
def execPlen (c : CoreId) (f : VR) (w : Companions) (s : State) : Host.Outcome State Fault Refusal :=
  runWord c 2 (slotPlen f) w s

/-- MNOP (R39). -/
def execMnop (c : CoreId) (bits : BitVec 26) (w : Companions) (s : State) : Host.Outcome State Fault Refusal :=
  runWord c 3 (slotMnop bits) w s

/-- LD (R51). -/
def execLd (c : CoreId) (f : MI) (w : Companions) (s : State) : Host.Outcome State Fault Refusal :=
  runWord c 3 (slotLd f) w s

/-- LDS (R51). -/
def execLds (c : CoreId) (f : MI) (w : Companions) (s : State) : Host.Outcome State Fault Refusal :=
  runWord c 3 (slotLds f) w s

/-- ST (R51). -/
def execSt (c : CoreId) (f : MI) (w : Companions) (s : State) : Host.Outcome State Fault Refusal :=
  runWord c 3 (slotSt f) w s

/-- VLD (R39). -/
def execVld (c : CoreId) (f : MV) (w : Companions) (s : State) : Host.Outcome State Fault Refusal :=
  runWord c 3 (slotVld f) w s

/-- VST (R307). -/
def execVst (c : CoreId) (f : MV) (w : Companions) (s : State) : Host.Outcome State Fault Refusal :=
  runWord c 3 (slotVst f) w s

/-- PLD (R39). -/
def execPld (c : CoreId) (f : MV) (w : Companions) (s : State) : Host.Outcome State Fault Refusal :=
  runWord c 3 (slotPld f) w s

/-- PST (R39). -/
def execPst (c : CoreId) (f : MV) (w : Companions) (s : State) : Host.Outcome State Fault Refusal :=
  runWord c 3 (slotPst f) w s

/-- SBIND (R44). -/
def execSbind (c : CoreId) (f : MS) (w : Companions) (s : State) : Host.Outcome State Fault Refusal :=
  runWord c 3 (slotSbind f) w s

/-- SREAD (R45). -/
def execSread (c : CoreId) (f : MS) (w : Companions) (s : State) : Host.Outcome State Fault Refusal :=
  runWord c 3 (slotSread f) w s

/-- SWRITE (R46). -/
def execSwrite (c : CoreId) (f : MS) (w : Companions) (s : State) : Host.Outcome State Fault Refusal :=
  runWord c 3 (slotSwrite f) w s

/-- SSKIP (R425). -/
def execSskip (c : CoreId) (f : MS) (w : Companions) (s : State) : Host.Outcome State Fault Refusal :=
  runWord c 3 (slotSskip f) w s

/-- SPOS (R425). -/
def execSpos (c : CoreId) (f : MS) (w : Companions) (s : State) : Host.Outcome State Fault Refusal :=
  runWord c 3 (slotSpos f) w s

/-- SCLOSE (R47). -/
def execSclose (c : CoreId) (f : MS) (w : Companions) (s : State) : Host.Outcome State Fault Refusal :=
  runWord c 3 (slotSclose f) w s

/-- VGATHER (R39). -/
def execVgather (c : CoreId) (f : MX) (w : Companions) (s : State) : Host.Outcome State Fault Refusal :=
  runWord c 3 (slotVgather f) w s

/-- VSCATTER (R39). -/
def execVscatter (c : CoreId) (f : MX) (w : Companions) (s : State) : Host.Outcome State Fault Refusal :=
  runWord c 3 (slotVscatter f) w s

/-- ELD (R76). -/
def execEld (c : CoreId) (f : MX) (w : Companions) (s : State) : Host.Outcome State Fault Refusal :=
  runWord c 3 (slotEld f) w s

/-- EST (R76). -/
def execEst (c : CoreId) (f : MX) (w : Companions) (s : State) : Host.Outcome State Fault Refusal :=
  runWord c 3 (slotEst f) w s

/-- AMOADD (R41). -/
def execAmoadd (c : CoreId) (f : MX) (w : Companions) (s : State) : Host.Outcome State Fault Refusal :=
  runWord c 3 (slotAmoadd f) w s

/-- AMOMAX (R41). -/
def execAmomax (c : CoreId) (f : MX) (w : Companions) (s : State) : Host.Outcome State Fault Refusal :=
  runWord c 3 (slotAmomax f) w s

/-- AMOSWAP (R41). -/
def execAmoswap (c : CoreId) (f : MX) (w : Companions) (s : State) : Host.Outcome State Fault Refusal :=
  runWord c 3 (slotAmoswap f) w s

/-- AMOCAS (R41). -/
def execAmocas (c : CoreId) (f : MX) (w : Companions) (s : State) : Host.Outcome State Fault Refusal :=
  runWord c 3 (slotAmocas f) w s

/-- AMOFADD (R55). -/
def execAmofadd (c : CoreId) (f : MX) (w : Companions) (s : State) : Host.Outcome State Fault Refusal :=
  runWord c 3 (slotAmofadd f) w s

/-- FLUSH (R53). -/
def execFlush (c : CoreId) (f : MX) (w : Companions) (s : State) : Host.Outcome State Fault Refusal :=
  runWord c 3 (slotFlush f) w s

/-- INVAL (R53). -/
def execInval (c : CoreId) (f : MX) (w : Companions) (s : State) : Host.Outcome State Fault Refusal :=
  runWord c 3 (slotInval f) w s

/-- FENCE (R52). -/
def execFence (c : CoreId) (f : MX) (w : Companions) (s : State) : Host.Outcome State Fault Refusal :=
  runWord c 3 (slotFence f) w s

/-- SYNC (R53). -/
def execSync (c : CoreId) (f : MX) (w : Companions) (s : State) : Host.Outcome State Fault Refusal :=
  runWord c 3 (slotSync f) w s

/-- PREF (R39). -/
def execPref (c : CoreId) (f : MX) (w : Companions) (s : State) : Host.Outcome State Fault Refusal :=
  runWord c 3 (slotPref f) w s

/-- UNIT (R48). -/
def execUnit (c : CoreId) (f : MX) (w : Companions) (s : State) : Host.Outcome State Fault Refusal :=
  runWord c 3 (slotUnit f) w s

/-- TPOLL (R49). -/
def execTpoll (c : CoreId) (f : MX) (w : Companions) (s : State) : Host.Outcome State Fault Refusal :=
  runWord c 3 (slotTpoll f) w s

/-- TWAIT (R49). -/
def execTwait (c : CoreId) (f : MX) (w : Companions) (s : State) : Host.Outcome State Fault Refusal :=
  runWord c 3 (slotTwait f) w s

end Sys2Proof.Machine
end

