-- ==== Sys2Proof/Machine/Dispatch.lean ====
section
/-! DEFINITION. The dispatch: one arm per command, each a direct call of that command's meaning. -/

namespace Sys2Proof.Machine

def exec (i : Instr) (s : State) : Host.Outcome State Fault Refusal :=
  match i with
  | .nop c bits w => Sys2Proof.Machine.execNop c bits w s
  | .add c f w => Sys2Proof.Machine.execAdd c f w s
  | .sub c f w => Sys2Proof.Machine.execSub c f w s
  | .mul c f w => Sys2Proof.Machine.execMul c f w s
  | .mulh c f w => Sys2Proof.Machine.execMulh c f w s
  | .mulhu c f w => Sys2Proof.Machine.execMulhu c f w s
  | .div c f w => Sys2Proof.Machine.execDiv c f w s
  | .divu c f w => Sys2Proof.Machine.execDivu c f w s
  | .rem c f w => Sys2Proof.Machine.execRem c f w s
  | .and c f w => Sys2Proof.Machine.execAnd c f w s
  | .or c f w => Sys2Proof.Machine.execOr c f w s
  | .xor c f w => Sys2Proof.Machine.execXor c f w s
  | .shl c f w => Sys2Proof.Machine.execShl c f w s
  | .shr c f w => Sys2Proof.Machine.execShr c f w s
  | .sra c f w => Sys2Proof.Machine.execSra c f w s
  | .slt c f w => Sys2Proof.Machine.execSlt c f w s
  | .sltu c f w => Sys2Proof.Machine.execSltu c f w s
  | .clz c f w => Sys2Proof.Machine.execClz c f w s
  | .popc c f w => Sys2Proof.Machine.execPopc c f w s
  | .addi c f w => Sys2Proof.Machine.execAddi c f w s
  | .andi c f w => Sys2Proof.Machine.execAndi c f w s
  | .ori c f w => Sys2Proof.Machine.execOri c f w s
  | .xori c f w => Sys2Proof.Machine.execXori c f w s
  | .shli c f w => Sys2Proof.Machine.execShli c f w s
  | .shri c f w => Sys2Proof.Machine.execShri c f w s
  | .srai c f w => Sys2Proof.Machine.execSrai c f w s
  | .lsi c f w => Sys2Proof.Machine.execLsi c f w s
  | .slti c f w => Sys2Proof.Machine.execSlti c f w s
  | .beq c f w => Sys2Proof.Machine.execBeq c f w s
  | .bne c f w => Sys2Proof.Machine.execBne c f w s
  | .blt c f w => Sys2Proof.Machine.execBlt c f w s
  | .bge c f w => Sys2Proof.Machine.execBge c f w s
  | .bltu c f w => Sys2Proof.Machine.execBltu c f w s
  | .bgeu c f w => Sys2Proof.Machine.execBgeu c f w s
  | .bany c f w => Sys2Proof.Machine.execBany c f w s
  | .bnone c f w => Sys2Proof.Machine.execBnone c f w s
  | .jmp c f w => Sys2Proof.Machine.execJmp c f w s
  | .call c f w => Sys2Proof.Machine.execCall c f w s
  | .jr c f w => Sys2Proof.Machine.execJr c f w s
  | .callr c f w => Sys2Proof.Machine.execCallr c f w s
  | .csrr c f w => Sys2Proof.Machine.execCsrr c f w s
  | .csrw c f w => Sys2Proof.Machine.execCsrw c f w s
  | .trap c f w => Sys2Proof.Machine.execTrap c f w s
  | .done c f w => Sys2Proof.Machine.execDone c f w s
  | .eret c f w => Sys2Proof.Machine.execEret c f w s
  | .vnop c slot2 bits w => Sys2Proof.Machine.execVnop c slot2 bits w s
  | .vfma c f w => Sys2Proof.Machine.execVfma c f w s
  | .vfms c f w => Sys2Proof.Machine.execVfms c f w s
  | .vfmul c f w => Sys2Proof.Machine.execVfmul c f w s
  | .vfadd c f w => Sys2Proof.Machine.execVfadd c f w s
  | .vfsub c f w => Sys2Proof.Machine.execVfsub c f w s
  | .vfmax c f w => Sys2Proof.Machine.execVfmax c f w s
  | .vfmin c f w => Sys2Proof.Machine.execVfmin c f w s
  | .vimul c f w => Sys2Proof.Machine.execVimul c f w s
  | .vimac c f w => Sys2Proof.Machine.execVimac c f w s
  | .vdot4 c f w => Sys2Proof.Machine.execVdot4 c f w s
  | .veacc c f w => Sys2Proof.Machine.execVeacc c f w s
  | .vesq c f w => Sys2Proof.Machine.execVesq c f w s
  | .verd c f w => Sys2Proof.Machine.execVerd c f w s
  | .veclr c f w => Sys2Proof.Machine.execVeclr c f w s
  | .veadd c f w => Sys2Proof.Machine.execVeadd c f w s
  | .vadd c f w => Sys2Proof.Machine.execVadd c f w s
  | .vsub c f w => Sys2Proof.Machine.execVsub c f w s
  | .vadds c f w => Sys2Proof.Machine.execVadds c f w s
  | .vsubs c f w => Sys2Proof.Machine.execVsubs c f w s
  | .vand c f w => Sys2Proof.Machine.execVand c f w s
  | .vor c f w => Sys2Proof.Machine.execVor c f w s
  | .vxor c f w => Sys2Proof.Machine.execVxor c f w s
  | .vshl c f w => Sys2Proof.Machine.execVshl c f w s
  | .vshr c f w => Sys2Proof.Machine.execVshr c f w s
  | .vsra c f w => Sys2Proof.Machine.execVsra c f w s
  | .vmin c f w => Sys2Proof.Machine.execVmin c f w s
  | .vmax c f w => Sys2Proof.Machine.execVmax c f w s
  | .vcmp c f w => Sys2Proof.Machine.execVcmp c f w s
  | .vsel c f w => Sys2Proof.Machine.execVsel c f w s
  | .vcvt c f w => Sys2Proof.Machine.execVcvt c f w s
  | .vperm c f w => Sys2Proof.Machine.execVperm c f w s
  | .vbcast c f w => Sys2Proof.Machine.execVbcast c f w s
  | .vmovx c f w => Sys2Proof.Machine.execVmovx c f w s
  | .vmovi c f w => Sys2Proof.Machine.execVmovi c f w s
  | .vcompress c f w => Sys2Proof.Machine.execVcompress c f w s
  | .vexpand c f w => Sys2Proof.Machine.execVexpand c f w s
  | .vscan c f w => Sys2Proof.Machine.execVscan c f w s
  | .vtopk c f w => Sys2Proof.Machine.execVtopk c f w s
  | .vmergek c f w => Sys2Proof.Machine.execVmergek c f w s
  | .vhash c f w => Sys2Proof.Machine.execVhash c f w s
  | .pand c f w => Sys2Proof.Machine.execPand c f w s
  | .por c f w => Sys2Proof.Machine.execPor c f w s
  | .pxor c f w => Sys2Proof.Machine.execPxor c f w s
  | .pnot c f w => Sys2Proof.Machine.execPnot c f w s
  | .pcnt c f w => Sys2Proof.Machine.execPcnt c f w s
  | .plen c f w => Sys2Proof.Machine.execPlen c f w s
  | .mnop c bits w => Sys2Proof.Machine.execMnop c bits w s
  | .ld c f w => Sys2Proof.Machine.execLd c f w s
  | .lds c f w => Sys2Proof.Machine.execLds c f w s
  | .st c f w => Sys2Proof.Machine.execSt c f w s
  | .vld c f w => Sys2Proof.Machine.execVld c f w s
  | .vst c f w => Sys2Proof.Machine.execVst c f w s
  | .pld c f w => Sys2Proof.Machine.execPld c f w s
  | .pst c f w => Sys2Proof.Machine.execPst c f w s
  | .sbind c f w => Sys2Proof.Machine.execSbind c f w s
  | .sread c f w => Sys2Proof.Machine.execSread c f w s
  | .swrite c f w => Sys2Proof.Machine.execSwrite c f w s
  | .sskip c f w => Sys2Proof.Machine.execSskip c f w s
  | .spos c f w => Sys2Proof.Machine.execSpos c f w s
  | .sclose c f w => Sys2Proof.Machine.execSclose c f w s
  | .vgather c f w => Sys2Proof.Machine.execVgather c f w s
  | .vscatter c f w => Sys2Proof.Machine.execVscatter c f w s
  | .eld c f w => Sys2Proof.Machine.execEld c f w s
  | .est c f w => Sys2Proof.Machine.execEst c f w s
  | .amoadd c f w => Sys2Proof.Machine.execAmoadd c f w s
  | .amomax c f w => Sys2Proof.Machine.execAmomax c f w s
  | .amoswap c f w => Sys2Proof.Machine.execAmoswap c f w s
  | .amocas c f w => Sys2Proof.Machine.execAmocas c f w s
  | .amofadd c f w => Sys2Proof.Machine.execAmofadd c f w s
  | .flush c f w => Sys2Proof.Machine.execFlush c f w s
  | .inval c f w => Sys2Proof.Machine.execInval c f w s
  | .fence c f w => Sys2Proof.Machine.execFence c f w s
  | .sync c f w => Sys2Proof.Machine.execSync c f w s
  | .pref c f w => Sys2Proof.Machine.execPref c f w s
  | .unit c f w => Sys2Proof.Machine.execUnit c f w s
  | .tpoll c f w => Sys2Proof.Machine.execTpoll c f w s
  | .twait c f w => Sys2Proof.Machine.execTwait c f w s
  | .preemptRequest c flow seq => Sys2Proof.Machine.execPreemptRequest c flow seq s
  | .runaheadEntry c waited => Sys2Proof.Machine.execRunaheadEntry c waited s
  | .runaheadExit c => Sys2Proof.Machine.execRunaheadExit c s
  | .merge vat => Sys2Proof.Machine.execMerge vat s
  | .stats vat => Sys2Proof.Machine.execStats vat s
  | .zscore vat => Sys2Proof.Machine.execZscore vat s
  | .minmax vat => Sys2Proof.Machine.execMinmax vat s
  | .log1p vat => Sys2Proof.Machine.execLog1p vat s
  | .clip vat => Sys2Proof.Machine.execClip vat s
  | .topk unit => Sys2Proof.Machine.execTopk unit s
  | .sortMerge unit => Sys2Proof.Machine.execSortMerge unit s
  | .sort unit => Sys2Proof.Machine.execSort unit s
  | .descCreate vat core ctrl => Sys2Proof.Machine.execDescCreate vat core ctrl s
  | .samples die => Sys2Proof.Machine.execSamples die s
  | .page die => Sys2Proof.Machine.execPage die s
  | .arrow die => Sys2Proof.Machine.execArrow die s
  | .deadlineExceeded die entry => Sys2Proof.Machine.execDeadlineExceeded die entry s
  | .engineRetire die kind => Sys2Proof.Machine.execEngineRetire die kind s
  | .hashx vat => Sys2Proof.Machine.execHashx vat s
  | .bucket vat => Sys2Proof.Machine.execBucket vat s
  | .qhist vat => Sys2Proof.Machine.execQhist vat s
  | .qpick vat => Sys2Proof.Machine.execQpick vat s
  | .assemble vat => Sys2Proof.Machine.execAssemble vat s
  | .seal vat => Sys2Proof.Machine.execSeal vat s
  | .gather vat => Sys2Proof.Machine.execGather vat s
  | .scatterAdd vat => Sys2Proof.Machine.execScatterAdd vat s
  | .scatterSet vat => Sys2Proof.Machine.execScatterSet vat s
  | .epochClose table => Sys2Proof.Machine.execEpochClose table s
  | .migrationStart table row home => Sys2Proof.Machine.execMigrationStart table row home s
  | .migrationSwitch table row => Sys2Proof.Machine.execMigrationSwitch table row s
  | .migrationRelease table row => Sys2Proof.Machine.execMigrationRelease table row s
  | .migrationAbandon table row => Sys2Proof.Machine.execMigrationAbandon table row s
  | .search die => Sys2Proof.Machine.execSearch die s
  | .load die => Sys2Proof.Machine.execLoad die s
  | .update die => Sys2Proof.Machine.execUpdate die s
  | .unload die => Sys2Proof.Machine.execUnload die s
  | .bankRetire die bank => Sys2Proof.Machine.execBankRetire die bank s
  | .bloomPublish job join others => Sys2Proof.Machine.execBloomPublish job join others s
  | .slurrySend job exch dst => Sys2Proof.Machine.execSlurrySend job exch dst s
  | .data m => Sys2Proof.Machine.execData m s
  | .slurryStageCopy job exch part => Sys2Proof.Machine.execSlurryStageCopy job exch part s
  | .roundEnd m => Sys2Proof.Machine.execRoundEnd m s
  | .credit m => Sys2Proof.Machine.execCredit m s
  | .creditReq m => Sys2Proof.Machine.execCreditReq m s
  | .roundDone m => Sys2Proof.Machine.execRoundDone m s
  | .holderState m => Sys2Proof.Machine.execHolderState m s
  | .submitPlaud tag image => Sys2Proof.Machine.execSubmitPlaud tag image s
  | .abortJob tag job => Sys2Proof.Machine.execAbortJob tag job s
  | .attachRing tag a => Sys2Proof.Machine.execAttachRing tag a s
  | .classa tag flow payload room => Sys2Proof.Machine.execClassa tag flow payload room s
  | .ingressRead flow seq => Sys2Proof.Machine.execIngressRead flow seq s
  | .itemCreate flow seq => Sys2Proof.Machine.execItemCreate flow seq s
  | .itemDispatch flow seq => Sys2Proof.Machine.execItemDispatch flow seq s
  | .coreIdle c => Sys2Proof.Machine.execCoreIdle c s
  | .stealUs flow seq c => Sys2Proof.Machine.execStealUs flow seq c s
  | .itemRelease flow => Sys2Proof.Machine.execItemRelease flow s
  | .batchEgress flow => Sys2Proof.Machine.execBatchEgress flow s
  | .egressIndex x => Sys2Proof.Machine.execEgressIndex x s
  | .reelAdvance r => Sys2Proof.Machine.execReelAdvance r s
  | .reelInPulse highNs gapNs => Sys2Proof.Machine.execReelInPulse highNs gapNs s
  | .leaseExpiry kind object => Sys2Proof.Machine.execLeaseExpiry kind object s
  | .leaseRenew kind object => Sys2Proof.Machine.execLeaseRenew kind object s
  | .leaseGuard kind object => Sys2Proof.Machine.execLeaseGuard kind object s
  | .classaWindow => Sys2Proof.Machine.execClassaWindow s
  | .patrolScrub => Sys2Proof.Machine.execPatrolScrub s
  | .rowSpare row => Sys2Proof.Machine.execRowSpare row s
  | .ideRekey port => Sys2Proof.Machine.execIdeRekey port s
  | .tierbPortDown port => Sys2Proof.Machine.execTierbPortDown port s
  | .cnpReceive qp => Sys2Proof.Machine.execCnpReceive qp s
  | .rateRecover qp => Sys2Proof.Machine.execRateRecover qp s
  | .qpReconnect qp => Sys2Proof.Machine.execQpReconnect qp s
  | .portFail port => Sys2Proof.Machine.execPortFail port s
  | .classaReq m => Sys2Proof.Machine.execClassaReq m s
  | .classaResp m => Sys2Proof.Machine.execClassaResp m s
  | .gatherReq m => Sys2Proof.Machine.execGatherReq m s
  | .gatherResp m => Sys2Proof.Machine.execGatherResp m s
  | .fenceNotice m => Sys2Proof.Machine.execFenceNotice m s
  | .fenceAck m => Sys2Proof.Machine.execFenceAck m s
  | .fenced m => Sys2Proof.Machine.execFenced m s
  | .fenceAckUs peer => Sys2Proof.Machine.execFenceAckUs peer s
  | .genAnnounce m => Sys2Proof.Machine.execGenAnnounce m s
  | .couchProbe m => Sys2Proof.Machine.execCouchProbe m s
  | .couchProbeAck m => Sys2Proof.Machine.execCouchProbeAck m s
  | .couchProbeUs => Sys2Proof.Machine.execCouchProbeUs s
  | .couchHoldBUs => Sys2Proof.Machine.execCouchHoldBUs s
  | .twinSuspect => Sys2Proof.Machine.execTwinSuspect s
  | .couchHbUs => Sys2Proof.Machine.execCouchHbUs s
  | .heartbeat f => Sys2Proof.Machine.execHeartbeat f s
  | .log f => Sys2Proof.Machine.execLog f s
  | .logApply => Sys2Proof.Machine.execLogApply s
  | .logAck f => Sys2Proof.Machine.execLogAck f s
  | .mirror f => Sys2Proof.Machine.execMirror f s
  | .mirrorAck f => Sys2Proof.Machine.execMirrorAck f s
  | .fenceFrame f => Sys2Proof.Machine.execFenceFrame f s
  | .lease f => Sys2Proof.Machine.execLease f s
  | .lane f => Sys2Proof.Machine.execLane f s
  | .laneRetire lane => Sys2Proof.Machine.execLaneRetire lane s
  | .resync f => Sys2Proof.Machine.execResync f s
  | .attach f => Sys2Proof.Machine.execAttach f s
  | .attachGrant path gen peers => Sys2Proof.Machine.execAttachGrant path gen peers s
  | .dictRead path index sub offset => Sys2Proof.Machine.execDictRead path index sub offset s
  | .dictWrite path index sub offset last data => Sys2Proof.Machine.execDictWrite path index sub offset last data s
  | .tableRegister rec rows => Sys2Proof.Machine.execTableRegister rec rows s
  | .tableDrop table => Sys2Proof.Machine.execTableDrop table s
  | .wmLoad set copies image => Sys2Proof.Machine.execWmLoad set copies image s
  | .wmUnload set => Sys2Proof.Machine.execWmUnload set s
  | .tiercRead nsid lba blocks => Sys2Proof.Machine.execTiercRead nsid lba blocks s
  | .tiercWrite nsid lba blocks data => Sys2Proof.Machine.execTiercWrite nsid lba blocks data s
  | .testItem image => Sys2Proof.Machine.execTestItem image s
  | .reelQp path value => Sys2Proof.Machine.execReelQp path value s
  | .furnishImage path image => Sys2Proof.Machine.execFurnishImage path image s
  | .gradeImage path grade image => Sys2Proof.Machine.execGradeImage path grade image s
  | .gradeSchedule path value => Sys2Proof.Machine.execGradeSchedule path value s
  | .gradeCancel path value => Sys2Proof.Machine.execGradeCancel path value s
  | .fwImage path image => Sys2Proof.Machine.execFwImage path image s
  | .fwSwapVat path value => Sys2Proof.Machine.execFwSwapVat path value s
  | .fwSwapLoad selfTestOk => Sys2Proof.Machine.execFwSwapLoad selfTestOk s
  | .fwDrainMs => Sys2Proof.Machine.execFwDrainMs s
  | .coreRetire path value => Sys2Proof.Machine.execCoreRetire path value s
  | .portRetire path value => Sys2Proof.Machine.execPortRetire path value s
  | .resetCold path value => Sys2Proof.Machine.execResetCold path value s
  | .vatReset path value => Sys2Proof.Machine.execVatReset path value s
  | .coreReset path value => Sys2Proof.Machine.execCoreReset path value s
  | .portReset path value => Sys2Proof.Machine.execPortReset path value s
  | .failstartClear path value => Sys2Proof.Machine.execFailstartClear path value s
  | .pwrGood heldNs => Sys2Proof.Machine.execPwrGood heldNs s
  | .pwrSenseOpen => Sys2Proof.Machine.execPwrSenseOpen s
  | .modRstN heldNs => Sys2Proof.Machine.execModRstN heldNs s
  | .warmRstN heldNs => Sys2Proof.Machine.execWarmRstN heldNs s
  | .hostPerstN heldNs => Sys2Proof.Machine.execHostPerstN heldNs s
  | .resetRelease r => Sys2Proof.Machine.execResetRelease r s
  | .warmEscalation => Sys2Proof.Machine.execWarmEscalation s
  | .selftestFailure cause => Sys2Proof.Machine.execSelftestFailure cause s
  | .readyTimeout => Sys2Proof.Machine.execReadyTimeout s
  | .ready => Sys2Proof.Machine.execReady s
  | .watchdog => Sys2Proof.Machine.execWatchdog s
  | .refclkFail => Sys2Proof.Machine.execRefclkFail s
  | .rebalanceStep r => Sys2Proof.Machine.execRebalanceStep r s
  | .rebalanceResume => Sys2Proof.Machine.execRebalanceResume s
  | .nmtCommand cmd node => Sys2Proof.Machine.execNmtCommand cmd node s
  | .canHeartbeat => Sys2Proof.Machine.execCanHeartbeat s
  | .droopStretch die => Sys2Proof.Machine.execDroopStretch die s
  | .stretchEnd die => Sys2Proof.Machine.execStretchEnd die s
  | .droopStepDown cond => Sys2Proof.Machine.execDroopStepDown cond s
  | .droopHoldUs => Sys2Proof.Machine.execDroopHoldUs s
  | .pwrDroopFloor => Sys2Proof.Machine.execPwrDroopFloor s
  | .pwrThermalTrip => Sys2Proof.Machine.execPwrThermalTrip s
  | .pwrInputRange mv ms => Sys2Proof.Machine.execPwrInputRange mv ms s
  | .droopCalibrate die lowest => Sys2Proof.Machine.execDroopCalibrate die lowest s
  | .marginWarning die => Sys2Proof.Machine.execMarginWarning die s
  | .releaseReport crcOk => Sys2Proof.Machine.execReleaseReport crcOk s
  | .reportAck number => Sys2Proof.Machine.execReportAck number s
  | .reportResend number => Sys2Proof.Machine.execReportResend number s
  | .energyStore joules seconds => Sys2Proof.Machine.execEnergyStore joules seconds s
  | .meterSupplyLost => Sys2Proof.Machine.execMeterSupplyLost s
  | .meterSupplyRestored => Sys2Proof.Machine.execMeterSupplyRestored s
  | .lidOpened => Sys2Proof.Machine.execLidOpened s
  | .lidClosed => Sys2Proof.Machine.execLidClosed s
  | .reading path => Sys2Proof.Machine.execReading path s
  | .meterRwsWrite path sub value => Sys2Proof.Machine.execMeterRwsWrite path sub value s
  | .meterFwImage path image => Sys2Proof.Machine.execMeterFwImage path image s
  | .zeroise path value => Sys2Proof.Machine.execZeroise path value s
  | .tamperEvent cause => Sys2Proof.Machine.execTamperEvent cause s
  | .debugToken path image => Sys2Proof.Machine.execDebugToken path image s
  | .provision path image => Sys2Proof.Machine.execProvision path image s
  | .remap u => Sys2Proof.Machine.execRemap u s
  | .detach => Sys2Proof.Machine.execDetach s
  | .slurryResendRequest job exch dst part round => Sys2Proof.Machine.execSlurryResendRequest job exch dst part round s
  | .adjustmentSwitch closed => Sys2Proof.Machine.execAdjustmentSwitch closed s
  | .localAckTimeout qp => Sys2Proof.Machine.execLocalAckTimeout qp s
  | .rnrNak qp => Sys2Proof.Machine.execRnrNak qp s
  | .flitRefused seq => Sys2Proof.Machine.execFlitRefused seq s

end Sys2Proof.Machine
end

