-- ==== Sys2Proof/Machine/Idle.lean ====
section
/-! DEFINITION. What the module does when no command waits: its tick counts, and what was held back for want of room (R289) is
tried again, the host ring's head and the oldest class A request in a receive buffer; migrations and notices go on (log entry 129). -/

namespace Sys2Proof.Machine

open Sys2Proof

/-- The command at the ring's head is tried again, as if written just now; one that is still held back stays at the head. -/
def State.retryRing (s : State) : Host.Outcome State Fault Refusal :=
  match s.host.waiting with
  | [] => .next s
  | c :: rest =>
    match exec c { s with host := { s.host with waiting := [], cmdTail := s.host.cmdTail - 1 } } with
    | .next t => .next { t with host := { t.host with waiting := t.host.waiting ++ rest } }
    | o => o

/-- The oldest class A request in a receive buffer is tried again. -/
def State.retryHeld (s : State) : State :=
  match s.fab.heldA with
  | [] => s
  | h :: rest =>
    let m := h.msg
    match ({ s with fab := { s.fab with heldA := rest } } : State).classARequest m.part m.payload (.peer m) (some h) with
    | some t => t
    | none => s

/-- What time does by itself: migrations in step 1 go on to step 3 (Table 9.6), and silent peers are noticed again (R339). -/
def State.timePasses (s : State) : State := (s.felt.redirects.foldl State.writeThrough s).noticesAgain

/-- One step on an empty queue (log entries 4 and 129). -/
def State.idleStep (s : State) : Host.Outcome State Fault Refusal :=
  ({ s with tick := s.tick + 1 } : State).timePasses.retryHeld.retryRing

end Sys2Proof.Machine
end

