-- ==== Sys2Proof/WellFormed.lean ====
section
/-! DEFINITION. Well-formed commands: the operands are such as the transport that carries the command can hold (lengths of
messages, frames, images and mailbox data; the steps of a rebalance). What a command's own checks turn away is its meaning, not its form. -/

namespace Sys2Proof

/-- The TYPE values in use (Tables 7.6, 11.3 and 13.2); every other one is reserved (R325). -/
def usedTypes : List (BitVec 8) :=
  [0x10, 0x11, 0x12, 0x13, 0x14, 0x20, 0x21, 0x30, 0x31, 0x32, 0x33, 0x40, 0x41, 0x42, 0x43, 0x44, 0x45, 0x46, 0x50, 0x51]

/-- A message's payload is of a length its LENGTH field can name, and its TYPE is the row's or a reserved one. -/
def Msg.carried (t : BitVec 8) (m : Msg) : Bool :=
  decide (m.payload.length < 2 ^ 32) && (m.type = t || !usedTypes.contains m.type)

/-- A frame's payload is at most 1,048,576 bytes (Table 13.4). -/
def Frame.carried (f : Frame) : Bool := decide (f.payload.length ≤ 1048576)

/-- A DOMAIN is 1 to 16,777,216 bytes (Table 15.1). -/
def domainFits (b : Bytes) : Bool := decide (1 ≤ b.length) && decide (b.length ≤ 16777216)

/-- A mailbox or tunnel request carries at most 4,080 bytes of data (Table 15.5). -/
def pieceFits (path : Path) (b : Bytes) : Bool :=
  match path with
  | .mailbox req => decide (b.length ≤ 4080) && decide (req.length ≤ 4096)
  | .tunnel _ => decide (b.length ≤ 4080)
  | .can _ => decide (b.length ≤ 16777216)
  | .meterNode _ => decide (b.length ≤ 16777216)

def Instr.wellFormed (i : Instr) : Bool :=
  match i with
  | .data m => m.carried 0x10
  | .roundEnd m => m.carried 0x11
  | .credit m => m.carried 0x12
  | .creditReq m => m.carried 0x13
  | .roundDone m => m.carried 0x14
  | .holderState m => m.carried 0x43
  | .submitPlaud _ image => decide (0 < image.length) && decide (image.length < 2 ^ 32)
  | .classa _ _ payload _ => decide (payload.length < 2 ^ 32)
  | .egressIndex i => (match i with | .message m => m.carried 0x21 | _ => true)
  | .reelAdvance r => (match r with | .message m => m.carried 0x20 | _ => true)
  | .classaReq m => m.carried 0x30
  | .classaResp m => m.carried 0x31
  | .gatherReq m => m.carried 0x32
  | .gatherResp m => m.carried 0x33
  | .fenceNotice m => m.carried 0x40
  | .fenceAck m => m.carried 0x41
  | .fenced m => m.carried 0x42
  | .genAnnounce m => m.carried 0x46
  | .couchProbe m => m.carried 0x44
  | .couchProbeAck m => m.carried 0x45
  | .heartbeat f => f.carried
  | .log f => f.carried
  | .logAck f => f.carried
  | .mirror f => f.carried
  | .mirrorAck f => f.carried
  | .fenceFrame f => f.carried
  | .lease f => f.carried
  | .lane f => f.carried
  | .resync f => f.carried
  | .attach f => f.carried
  | .dictWrite path _ _ _ _ bs => pieceFits path bs
  | .tableRegister rec _ => decide (rec.length = 64)
  | .wmLoad _ _ image => decide (image.length < 2 ^ 32)
  | .tiercWrite _ _ blocks bs => decide (bs.length = 4096 * blocks.toNat)
  | .testItem image => decide (0 < image.length) && decide (image.length < 2 ^ 32)
  | .furnishImage _ image => domainFits image
  | .gradeImage _ _ image => domainFits image
  | .fwImage _ image => domainFits image
  | .rebalanceStep r => decide (1 ≤ r.step.toNat) && decide (r.step.toNat ≤ 5) && decide (1 ≤ r.dest.toNat) && decide (r.dest.toNat ≤ 3)
  | .meterFwImage _ image => domainFits image
  | .debugToken _ image => domainFits image
  | .provision _ image => domainFits image
  | .nop .. | .add .. | .sub .. | .mul .. | .mulh .. | .mulhu .. | .div .. | .divu .. | .rem .. | .and .. | .or ..
  | .xor .. | .shl .. | .shr .. | .sra .. | .slt .. | .sltu .. | .clz .. | .popc .. | .addi .. | .andi ..
  | .ori .. | .xori .. | .shli .. | .shri .. | .srai .. | .lsi .. | .slti .. | .beq .. | .bne .. | .blt ..
  | .bge .. | .bltu .. | .bgeu .. | .bany .. | .bnone .. | .jmp .. | .call .. | .jr .. | .callr .. | .csrr ..
  | .csrw .. | .trap .. | .done .. | .eret .. | .vnop .. | .vfma .. | .vfms .. | .vfmul .. | .vfadd .. | .vfsub ..
  | .vfmax .. | .vfmin .. | .vimul .. | .vimac .. | .vdot4 .. | .veacc .. | .vesq .. | .verd .. | .veclr ..
  | .veadd .. | .vadd .. | .vsub .. | .vadds .. | .vsubs .. | .vand .. | .vor .. | .vxor .. | .vshl .. | .vshr ..
  | .vsra .. | .vmin .. | .vmax .. | .vcmp .. | .vsel .. | .vcvt .. | .vperm .. | .vbcast .. | .vmovx ..
  | .vmovi .. | .vcompress .. | .vexpand .. | .vscan .. | .vtopk .. | .vmergek .. | .vhash .. | .pand .. | .por ..
  | .pxor .. | .pnot .. | .pcnt .. | .plen .. | .mnop .. | .ld .. | .lds .. | .st .. | .vld .. | .vst .. | .pld ..
  | .pst .. | .sbind .. | .sread .. | .swrite .. | .sskip .. | .spos .. | .sclose .. | .vgather .. | .vscatter ..
  | .eld .. | .est .. | .amoadd .. | .amomax .. | .amoswap .. | .amocas .. | .amofadd .. | .flush .. | .inval ..
  | .fence .. | .sync .. | .pref .. | .unit .. | .tpoll .. | .twait .. | .preemptRequest .. | .runaheadEntry ..
  | .runaheadExit .. | .merge .. | .stats .. | .zscore .. | .minmax .. | .log1p .. | .clip .. | .topk ..
  | .sortMerge .. | .sort .. | .descCreate .. | .samples .. | .page .. | .arrow .. | .deadlineExceeded ..
  | .engineRetire .. | .hashx .. | .bucket .. | .qhist .. | .qpick .. | .assemble .. | .seal .. | .gather ..
  | .scatterAdd .. | .scatterSet .. | .epochClose .. | .migrationStart .. | .migrationSwitch ..
  | .migrationRelease .. | .migrationAbandon .. | .search .. | .load .. | .update .. | .unload .. | .bankRetire ..
  | .bloomPublish .. | .slurrySend .. | .slurryStageCopy .. | .abortJob .. | .attachRing .. | .ingressRead ..
  | .itemCreate .. | .itemDispatch .. | .coreIdle .. | .stealUs .. | .itemRelease .. | .batchEgress ..
  | .reelInPulse .. | .leaseExpiry .. | .leaseRenew .. | .leaseGuard .. | .classaWindow .. | .patrolScrub ..
  | .rowSpare .. | .ideRekey .. | .tierbPortDown .. | .cnpReceive .. | .rateRecover .. | .qpReconnect ..
  | .portFail .. | .fenceAckUs .. | .couchProbeUs .. | .couchHoldBUs .. | .twinSuspect .. | .couchHbUs ..
  | .logApply .. | .laneRetire .. | .attachGrant .. | .dictRead .. | .tableDrop .. | .wmUnload .. | .tiercRead ..
  | .reelQp .. | .gradeSchedule .. | .gradeCancel .. | .fwSwapVat .. | .fwSwapLoad .. | .fwDrainMs ..
  | .coreRetire .. | .portRetire .. | .resetCold .. | .vatReset .. | .coreReset .. | .portReset ..
  | .failstartClear .. | .pwrGood .. | .pwrSenseOpen .. | .modRstN .. | .warmRstN .. | .hostPerstN ..
  | .resetRelease .. | .warmEscalation .. | .selftestFailure .. | .readyTimeout .. | .ready .. | .watchdog ..
  | .refclkFail .. | .rebalanceResume .. | .nmtCommand .. | .canHeartbeat .. | .droopStretch .. | .stretchEnd ..
  | .droopStepDown .. | .droopHoldUs .. | .pwrDroopFloor .. | .pwrThermalTrip .. | .pwrInputRange ..
  | .droopCalibrate .. | .marginWarning .. | .releaseReport .. | .reportAck .. | .reportResend ..
  | .energyStore .. | .meterSupplyLost .. | .meterSupplyRestored .. | .lidOpened .. | .lidClosed .. | .reading ..
  | .meterRwsWrite .. | .zeroise .. | .tamperEvent .. | .remap .. | .detach .. | .slurryResendRequest ..
  | .adjustmentSwitch .. | .localAckTimeout .. | .rnrNak .. | .flitRefused .. => true

end Sys2Proof
end

