-- ==== Sys2Proof/Safety.lean ====
section
/-! DEFINITION. What the claims are stated in: the canonical form of memory, the invariant every step keeps, what it
is for a Tistra word to complete, what a store leaves alone, and the frames of commands that act on one part of the
module. -/

namespace Sys2Proof.Machine

open Sys2Proof

/-- The memory's canonical form: addresses strictly rising, and no byte equal to what an unlisted one reads as. -/
def Memory.wf (m : Memory) : Bool := Assoc.wf 0 m.bytes

/-- What every step keeps: memory in its canonical form, and a DROOP_LEVEL that is one of the levels 8 to 16 (R391). -/
def Inv (s : State) : Prop := s.mem.wf = true ∧ 8 ≤ s.pow.level ∧ s.pow.level ≤ 16

/-! ### Tistra words -/

/-- The other slots of a word whose own slot is number `own`, in increasing slot number. -/
def companionsOf (own : Nat) (w : Companions) : List Meaning :=
  match own with
  | 0 => [slotMeaning1 w.o1, slotMeaning2 w.o2, slotMeaning3 w.o3]
  | 1 => [slotMeaning0 w.o1, slotMeaning2 w.o2, slotMeaning3 w.o3]
  | 2 => [slotMeaning0 w.o1, slotMeaning1 w.o2, slotMeaning3 w.o3]
  | _ => [slotMeaning0 w.o1, slotMeaning1 w.o2, slotMeaning2 w.o3]

/-- A companion slot completes with an effect: its encoding is legal, the core's mode may run it, it raises nothing,
waits for nothing, and does not end the item. -/
structure SlotRuns (s : State) (c : CoreId) (m : Meaning) (e : Effect) : Prop where
  legal : m.legal (s.core c) = true
  mode  : m.privileged = true → (s.core c).firmware = true
  run   : m.run { s := s, c := c, k := s.core c } = .ok e
  goes  : e.done = none

/-- The core commits the words it is given: it runs an item or firmware, its DONE is not waiting for tickets (R49), it is
not in run-ahead (R62), and the word can be fetched (Table 2.10). -/
structure Commits (s : State) (c : CoreId) : Prop where
  active    : (s.core c).active = true
  finishing : (s.core c).finishing = none
  ahead     : (s.core c).runahead = false
  fetch     : fetchFault s (s.core c) = false

/-- Everything about a word but its own slot (number `own`, with destinations `ds`): the core commits words, the other
slots complete with the effects `es`, and no two slots name one destination, X0 apart (R29, R35). -/
structure OthersRun (own : Nat) (ds : List Dest) (c : CoreId) (w : Companions) (s : State) (es : List Effect) : Prop where
  commits : Commits s c
  runs    : List.Forall₂ (SlotRuns s c) (companionsOf own w) es
  dests   : ((((companionsOf own w).flatMap (·.dests)) ++ ds).filter (· ≠ .x 0)).Nodup

/-- What an optional write leaves in register `r`. -/
def writtenTo {α β : Type} [DecidableEq α] (p : Option (α × β)) (r : α) : Option β :=
  match p with
  | some (q, v) => if q = r then some v else none
  | none => none

/-- What the core holds after a word whose slots had the effects `es` (R29, R34, R39): each register a slot writes
holds the value, every other register what it held; the flags raised are OR-ed into FPFLAGS; the core goes on at the
branch target or at the next word. -/
structure Written (k k' : Core) (es : List Effect) : Prop where
  x0      : k'.x[0] = k.x[0]
  x       : ∀ r, r ≠ 0 → k'.getX r = (es.findSome? (fun e => writtenTo e.x r)).getD (k.getX r)
  w       : ∀ r, k'.getW r = (es.findSome? (fun e => writtenTo e.w r)).getD (k.getW r)
  p       : ∀ r, k'.getP r = (es.findSome? (fun e => writtenTo e.p r)).getD (k.getP r)
  e       : ∀ r, k'.getE r = (es.findSome? (fun e => writtenTo e.e r)).getD (k.getE r)
  streams : ∀ n, k'.getS n = (es.findSome? (fun e => writtenTo e.stream n)).getD (k.getS n)
  tickets : ∀ n, k'.getT n = (es.findSome? (fun e => writtenTo e.ticket n)).getD (k.getT n)
  topkst  : k'.topkst = (es.findSome? (·.topkst)).getD k.topkst
  fpctl   : k'.fpctl = ((es.findSome? (fun e => writtenTo e.csr 0x008)).map (·.setWidth 2)).getD k.fpctl
  fpflags : k'.fpflags = ((es.findSome? (fun e => writtenTo e.csr 0x009)).map (·.setWidth 5)).getD k.fpflags |||
              es.foldl (fun a e => a ||| e.flags) 0
  topkK   : k'.topkK = ((es.findSome? (fun e => writtenTo e.csr 0x00A)).map (·.setWidth 7)).getD k.topkK
  epc     : k'.epc = (es.findSome? (fun e => writtenTo e.csr 0x010)).getD k.epc
  evec    : k'.evec = ((es.findSome? (fun e => writtenTo e.csr 0x013)).map (· &&& ~~~15#64)).getD k.evec
  pc      : k'.pc = (es.findSome? (·.target)).getD (k.pc + 16)
  retired : k'.retired = k.retired + 1
  handler : k'.handler = (k.handler && !es.any (·.eret))
  cause   : k'.cause = k.cause ∧ k'.faddr = k.faddr
  item    : k'.active = k.active ∧ k'.firmware = k.firmware ∧ k'.item = k.item ∧ k'.itemPtr = k.itemPtr ∧
              k'.itemClass = k.itemClass ∧ k'.preempted = k.preempted ∧ k'.finishing = k.finishing ∧
              k'.runahead = k.runahead

/-- Two states agree on everything but core `c` (and the model's counter of free values). -/
def SameBesides (c : CoreId) (s t : State) : Prop :=
  t = { s with cores := t.cores, free := t.free } ∧ ∀ d, d ≠ c → t.core d = s.core d

/-- Two states agree on everything but core `c`, memory, the creation ports and the unit queues. -/
def SameOutside (c : CoreId) (s t : State) : Prop :=
  t = { s with cores := t.cores, mem := t.mem, ports := t.ports, units := t.units, free := t.free } ∧
    ∀ d, d ≠ c → t.core d = s.core d

/-- The command runs the word to its end: whatever legal slots stand beside it, the core holds the results of all four,
other cores and the rest of the module are as they were, and without a slot that acts on memory, a port or a unit, those
are too. -/
def Completes (own : Nat) (ds : List Dest) (own' : Effect) (i : Instr) (c : CoreId) (w : Companions) (s : State) : Prop :=
  ∀ es, OthersRun own ds c w s es →
    ∃ t, exec i s = .next t ∧ Written (s.core c) (t.core c) (own' :: es) ∧ SameOutside c s t ∧
      ((∀ e ∈ own' :: es, e.acts = []) → SameBesides c s t)

/-- A slot's operation can be done: its encoding is legal and the core's mode may run it (R32, R36). -/
def SlotMay (s : State) (c : CoreId) (m : Meaning) : Prop :=
  m.legal (s.core c) = true ∧ (m.privileged = true → (s.core c).firmware = true)

/-- The core takes an exception of Table 2.10 at its word, of which no slot has any effect (R59, R61): in firmware mode EPC, CAUSE and
FADDR are written and it goes on at EVEC; inside the handler the Vat reports a firmware fault and dispatch to the core
stops; in item mode the work item ends, and of class B or C its job stops with the code, or it runs again (Table 11.8). What
`none` stands for is a free value. -/
structure Raises (i : Instr) (c : CoreId) (s : State) (slot : Option (BitVec 2)) (code : BitVec 16)
    (trap : Option (BitVec 10)) (faddr : Option (BitVec 64)) : Prop where
  firmware : (s.core c).firmware = true → (s.core c).handler = false → ∃ t, exec i s = .next t ∧
    t.core c = { s.core c with
      epc := (s.core c).pc, cause := (t.core c).cause, faddr := (t.core c).faddr, pc := (s.core c).evec, handler := true,
      cycle := (t.core c).cycle, itemCycles := (t.core c).itemCycles } ∧
    (t.core c).cause.extractLsb' 0 16 = code ∧ (∀ n, slot = some n → (t.core c).cause.extractLsb' 16 2 = n) ∧
    (∀ n, trap = some n → (t.core c).cause.extractLsb' 18 10 = n) ∧ (∀ a, faddr = some a → (t.core c).faddr = a) ∧
    t = { s with cores := t.cores, free := t.free, dict := { s.dict with values := t.dict.values } } ∧
    (code ≠ 0x0107 → t.dict = s.dict) ∧ ∀ d, d ≠ c → t.core d = s.core d
  handler : (s.core c).firmware = true → (s.core c).handler = true → ∃ t, exec i s = .next t ∧
    t.core c = { s.core c with
      active := false, epc := (s.core c).pc, cycle := (t.core c).cycle, itemCycles := (t.core c).itemCycles } ∧
    c ∈ t.hb.firmwareFault ∧ (code, 16 * c.vat.toNat + c.core.toNat) ∈ t.dict.eventLog ∧ t.mem = s.mem ∧
    ∀ d, d ≠ c → t.core d = s.core d
  item : (s.core c).firmware = false → ∀ key, (s.core c).item = some key → (s.core c).preempted = none → ∃ t, exec i s = .next t ∧
    (t.core c).active = false ∧ (t.core c).item = none ∧ (t.core c).epc = (s.core c).pc ∧ (∀ d, d ≠ c → t.core d = s.core d) ∧
    ∀ (it : Item) (j : Job), s.item? key = some it → it.cls ≠ 0 → s.job? it.job = some j → j.stopped = none →
      (code ∉ [0x0107, 0x0110, 0x0111, 0x0387, 0x0620] → (code, j.job.toNat) ∈ t.dict.eventLog ∧ ∀ k, t.job? j.job = some k → k.stopped = some code) ∧
      (code = 0x0107 → it.counted < s.furn 0x300007 3 → t.item? key = some { it with
        degraded := true, attempt := it.attempt + 1, counted := it.counted + 1, phase := .created, core := none })

/-- The word completes and writes one scalar register. -/
def WritesX (own : Nat) (i : Instr) (c : CoreId) (r : BitVec 5) (v : BitVec 64) (w : Companions) (s : State) : Prop :=
  Completes own [.x r] { x := some (r, v) } i c w s

/-- The word completes; its own slot names no register and goes to the target, or on. -/
def GoesTo (i : Instr) (c : CoreId) (target : Option (BitVec 64)) (w : Companions) (s : State) : Prop :=
  Completes 0 [] { target := target } i c w s

/-- The word completes and writes one vector register, raising flags. -/
def WritesW (own : Nat) (i : Instr) (c : CoreId) (r : BitVec 5) (v : BitVec 4096) (flags : BitVec 5) (w : Companions)
    (s : State) : Prop :=
  Completes own [.w r] { w := some (r, v), flags := flags } i c w s

/-- The word completes and writes one predicate register, raising flags. -/
def WritesP (own : Nat) (i : Instr) (c : CoreId) (r : BitVec 3) (v : BitVec 512) (flags : BitVec 5) (w : Companions)
    (s : State) : Prop :=
  Completes own [.p r] { p := some (r, v), flags := flags } i c w s

/-- The word completes and writes one exact accumulator. -/
def WritesE (own : Nat) (i : Instr) (c : CoreId) (r : BitVec 1) (v : Vector (BitVec 576) 16) (w : Companions)
    (s : State) : Prop :=
  Completes own [.e r] { e := some (r, v) } i c w s

/-- Element i of a vector result governed by a predicate (R30, R31): the new element where bit i × w is set, else zero
with zm set and the old element with zm clear. -/
def Lanes (w : Nat) (pg : BitVec 512) (zm : BitVec 1) (old v : BitVec 4096) (g : Nat → Nat) : Prop :=
  ∀ i, i < 512 / w → lane w v i = if pg.getLsbD (i * w) then g i else if zm = 1 then 0 else lane w old i

/-- The word completes and writes W[wd] with governed elements of w bytes, raising the flags of the active ones. -/
def WritesLanes (own : Nat) (i : Instr) (c : CoreId) (f : VR) (w : Nat) (g : Nat → Nat) (fl : Nat → BitVec 5)
    (ws : Companions) (s : State) : Prop :=
  ∃ v, Lanes w ((s.core c).getP f.pg) f.zm ((s.core c).getW f.wd) v g ∧
    WritesW own i c f.wd v ((List.range (512 / w)).foldl (fun a i =>
      if ((s.core c).getP f.pg).getLsbD (i * w) then a ||| fl i else a) 0) ws s

/-- The word completes and writes every bit of a predicate: bit j belongs to element j / w (R30). -/
def WritesBits (own : Nat) (i : Instr) (c : CoreId) (r : BitVec 3) (g : Nat → Bool) (flags : BitVec 5) (ws : Companions)
    (s : State) : Prop :=
  ∃ v : BitVec 512, (∀ j, j < 512 → v.getLsbD j = g j) ∧ WritesP own i c r v flags ws s

/-! ### Values of encodings, and what a comparison asks -/

/-- An encoding of a format stands for a finite value. -/
def FpFmt.Value (m : FpFmt) (b : Nat) (q : ℚ) : Prop :=
  ∃ (neg : Bool) (mag : Nat) (e : Int), m.decode b = .fin neg mag e ∧ q = (if neg then -1 else 1) * mag * (2 : ℚ) ^ e

/-- An encoding of a format stands for a value or an infinity. -/
def FpFmt.Extended (m : FpFmt) (b : Nat) (x : EReal) : Prop :=
  (∃ q : ℚ, m.Value b q ∧ x = ((q : ℝ) : EReal)) ∨ (m.decode b = .inf false ∧ x = ⊤) ∨ (m.decode b = .inf true ∧ x = ⊥)

/-- A value rounded once, whichever quotient of naturals it is written as. -/
def FpFmt.RoundsTo (m : FpFmt) (mode : Nat) (q : ℚ) (r : Rounded) : Prop :=
  ∃ num den : Nat, 0 < den ∧ (num : ℚ) / den = |q| ∧ r = m.round mode (decide (q < 0)) num den

/-- A finite value as a rational. -/
def finRat (neg : Bool) (mag : Nat) (e : Int) : ℚ := (if neg then -1 else 1) * mag * (2 : ℚ) ^ e

/-- The canonical NaN of the format (R73), with invalid raised or no flag. -/
def FpFmt.IsNan (m : FpFmt) (invalid : Bool) (r : Rounded) : Prop := r.bits = m.nan ∧ r.flags = if invalid then flagInvalid else 0

/-- An infinity of the format, with no flag. -/
def FpFmt.IsInf (m : FpFmt) (neg : Bool) (r : Rounded) : Prop := m.decode r.bits = .inf neg ∧ r.flags = 0

/-- A zero, with no flag. -/
def FpFmt.IsZero (m : FpFmt) (neg : Bool) (r : Rounded) : Prop := r.bits = (if neg then m.signBit else 0) ∧ r.flags = 0

/-- The IEEE 754 sum of two values: the exact sum rounded once, an exact zero negative when both values are negative zeros or, of
other values, when the mode is downward. -/
def FpFmt.SumIs (m : FpFmt) (mode : Nat) (x y : FVal) (r : Rounded) : Prop :=
  match x, y with
  | .fin n1 m1 e1, .fin n2 m2 e2 =>
    let q := finRat n1 m1 e1 + finRat n2 m2 e2
    if q = 0 then m.IsZero (if m1 = 0 ∧ m2 = 0 ∧ n1 = n2 then n1 else decide (mode = 3)) r else m.RoundsTo mode q r
  | .inf p, .inf q => if p = q then m.IsInf p r else m.IsNan true r
  | .inf p, .fin _ _ _ => m.IsInf p r
  | .fin _ _ _, .inf p => m.IsInf p r
  | .nan s, y => m.IsNan (s || y.isSnan) r
  | _, .nan s => m.IsNan s r

/-- The IEEE 754 product of two values: the exact product rounded once; infinity times zero is invalid. -/
def FpFmt.ProductIs (m : FpFmt) (mode : Nat) (x y : FVal) (r : Rounded) : Prop :=
  match x, y with
  | .fin n1 m1 e1, .fin n2 m2 e2 =>
    let q := finRat n1 m1 e1 * finRat n2 m2 e2
    if q = 0 then m.IsZero (n1 != n2) r else m.RoundsTo mode q r
  | .inf p, .inf q => m.IsInf (p != q) r
  | .inf p, .fin q k _ => if k = 0 then m.IsNan true r else m.IsInf (p != q) r
  | .fin q k _, .inf p => if k = 0 then m.IsNan true r else m.IsInf (p != q) r
  | .nan s, y => m.IsNan (s || y.isSnan) r
  | _, .nan s => m.IsNan s r

/-- The IEEE 754 fused c + x × y: the exact product joins the sum, which is rounded once. Infinity times zero is invalid; whether it is
beside a quiet NaN in c is open (7.2 of the standard). -/
def FpFmt.FusedIs (m : FpFmt) (mode : Nat) (c x y : FVal) (r : Rounded) : Prop :=
  match x, y with
  | .fin n1 m1 e1, .fin n2 m2 e2 => m.SumIs mode c (.fin (n1 != n2) (m1 * m2) (e1 + e2)) r
  | .inf p, .inf q => m.SumIs mode c (.inf (p != q)) r
  | .inf p, .fin q k _ =>
    if k = 0 then r.bits = m.nan ∧ (r.flags = flagInvalid ∨ (c = .nan false ∧ r.flags = 0)) else m.SumIs mode c (.inf (p != q)) r
  | .fin q k _, .inf p =>
    if k = 0 then r.bits = m.nan ∧ (r.flags = flagInvalid ∨ (c = .nan false ∧ r.flags = 0)) else m.SumIs mode c (.inf (p != q)) r
  | x, y => m.IsNan (x.isSnan || y.isSnan || c.isSnan) r

/-- IEEE 754-2019 maximumNumber (`big`) or minimumNumber of two encodings: one of them, of the greater or lesser value, −0 below +0;
a NaN gives way to a number, a signalling one raising invalid. -/
def FpFmt.ExtremumIs (m : FpFmt) (big : Bool) (x y : Nat) (r : Rounded) : Prop :=
  let a := m.decode x
  let b := m.decode y
  (a.isNan = true → b.isNan = true → m.IsNan (a.isSnan || b.isSnan) r) ∧
    (a.isNan = true → b.isNan = false → r.bits = y ∧ r.flags = if a.isSnan then flagInvalid else 0) ∧
    (a.isNan = false → b.isNan = true → r.bits = x ∧ r.flags = if b.isSnan then flagInvalid else 0) ∧
    (a.isNan = false → b.isNan = false → r.flags = 0 ∧ (r.bits = x ∨ r.bits = y) ∧
      (∀ p q : EReal, m.Extended x p → m.Extended y q → m.Extended r.bits (if big then max p q else min p q)) ∧
      (a.isZero = true → b.isZero = true →
        (m.decode r.bits).isNeg = if big then a.isNeg && b.isNeg else a.isNeg || b.isNeg))

/-- The condition that mod names in VCMP (Table 2.7), of two values in order; 6 is unordered. -/
def CondHolds {α : Type} [LinearOrder α] (mod : Nat) (p q : α) : Prop :=
  match mod with
  | 0 => p = q
  | 1 => p ≠ q
  | 2 => p < q
  | 3 => p ≤ q
  | 4 => q < p
  | 5 => q ≤ p
  | _ => False

/-- An integer that a value rounds to under a mode of FPCTL. -/
def RoundsToInt (mode : Nat) (q : ℚ) (z : Int) : Prop :=
  match mode with
  | 0 => |(z : ℚ) - q| ≤ 1 / 2 ∧ (|(z : ℚ) - q| = 1 / 2 → z % 2 = 0)
  | 1 => z = if q < 0 then ⌈q⌉ else ⌊q⌋
  | 2 => z = ⌈q⌉
  | _ => z = ⌊q⌋

/-! ### Memory as a core sees it -/

/-- Bytes no store reaches read as before: the memory side, the copies of other Vats, and every byte outside `stored` as
the core's Vat sees it (with the same choice of replaced lines). -/
def BytesKept (c : CoreId) (stored : Nat → Prop) (s t : State) : Prop :=
  t.mem.bytes = s.mem.bytes ∧
    t.mem.l2.filter (fun l => l.vat ≠ c.vat) = s.mem.l2.filter (fun l => l.vat ≠ c.vat) ∧
    ∀ a, ¬ stored a → State.seenByte { t with free := s.free } c.vat a = s.seenByte c.vat a

/-- The byte the last of a list of stores leaves at an address. -/
def lastStore (cells : List (Nat × BitVec 8)) (a : Nat) : Option (BitVec 8) :=
  (cells.reverse.find? (fun x => x.1 = a)).map (·.2)

/-- The word of a slot-3 load completes with the effect, and no byte of memory changes. -/
def LoadsInto (ds : List Dest) (own' : Effect) (i : Instr) (c : CoreId) (w : Companions) (s : State) : Prop :=
  ∀ es, OthersRun 3 ds c w s es →
    ∃ t, exec i s = .next t ∧ Written (s.core c) (t.core c) (own' :: es) ∧ SameOutside c s t ∧ t.ports = s.ports ∧
      t.units = s.units ∧ BytesKept c (fun _ => False) s t

/-- The word of a slot-3 store completes: each address of the list holds the last byte stored to it, every other byte
reads as before, and the own slot writes no register but those of `own'`. -/
def StoresCells (cells : List (Nat × BitVec 8)) (own' : Effect) (i : Instr) (c : CoreId) (w : Companions) (s : State) :
    Prop :=
  ∀ es, OthersRun 3 [] c w s es →
    ∃ t, exec i s = .next t ∧ Written (s.core c) (t.core c) (own' :: es) ∧ SameOutside c s t ∧ t.ports = s.ports ∧
      t.units = s.units ∧ BytesKept c (fun a => ∃ b, (a, b) ∈ cells) s t ∧
      ∀ a b, lastStore cells a = some b → t.seenByte c.vat a = b

/-- The value the last of a list of single-bit stores leaves in bit i of an address. -/
def lastBit (bits : List (Nat × Nat × Bool)) (a i : Nat) : Option Bool :=
  (bits.reverse.find? (fun x => x.1 = a && x.2.1 = i)).map (·.2.2)

/-- As `StoresCells` for stores of single bits (R132): a bit the list names holds the last value stored to it, every
other bit of those bytes and every other byte reads as before. -/
def StoresBits (bits : List (Nat × Nat × Bool)) (own' : Effect) (i : Instr) (c : CoreId) (w : Companions) (s : State) :
    Prop :=
  ∀ es, OthersRun 3 [] c w s es →
    ∃ t, exec i s = .next t ∧ Written (s.core c) (t.core c) (own' :: es) ∧ SameOutside c s t ∧ t.ports = s.ports ∧
      t.units = s.units ∧ BytesKept c (fun a => ∃ n v, (a, n, v) ∈ bits) s t ∧
      ∀ a n v, (a, n, v) ∈ bits → ∀ j, j < 8 →
        (t.seenByte c.vat a).getLsbD j = (lastBit bits a j).getD ((s.seenByte c.vat a).getLsbD j)

/-- The word of a slot-3 atomic of n bytes completes (R54): the Vat's copy of the line is written back and dropped, then
the n bytes at the memory side become `new`; rd takes `shown`. -/
def Atomic (f : MX) (n a new : Nat) (shown : BitVec 64) (i : Instr) (c : CoreId) (w : Companions) (s : State) : Prop :=
  ∀ es, OthersRun 3 [.x f.rd] c w s es →
    ∃ t, exec i s = .next t ∧ Written (s.core c) (t.core c) ({ x := some (f.rd, shown) } :: es) ∧ SameOutside c s t ∧
      t.ports = s.ports ∧ t.units = s.units ∧ t.mem.read a n = leBytes n new ∧ l2Find t.mem.l2 c.vat (a / 64) = none ∧
      ∀ b, (b < a ∨ a + n ≤ b) → t.mem.byte b = (s.invalLine c.vat (a / 64)).mem.byte b

/-- What the slots of a word read: the state before the word. -/
def ctxOf (s : State) (c : CoreId) : Ctx := { s := s, c := c, k := s.core c }

/-- An access of n bytes that the checks of Table 2.10 pass: aligned, in tier A or the populated tier B window. -/
def AccessOk (s : State) (a n align : Nat) : Prop := a % align = 0 ∧ s.plainRange a n = true

/-- A core of this mode may store there: the item store is read-only to items (R277). -/
def StoreOk (s : State) (c : CoreId) (a n : Nat) : Prop :=
  (s.core c).firmware = true ∨ overlaps a n itemStoreBase (itemStoreEnd - itemStoreBase) = false

/-! ### Counters, resets and messages -/

/-- A counter rises by n, and no other value of the dictionary's source Module changes. -/
def CountsBy (key n : Nat) (s t : State) : Prop :=
  t.modVal key 0 = s.modVal key 0 + n ∧ ∀ k d, k ≠ key → t.modVal k d = s.modVal k d

/-- PWR_GOOD has gone low (R389): a power-on reset has been taken, and a module that was in no window has lost its cores
and tier A. -/
def PoweredDown (s t : State) : Prop :=
  ∃ w, t.rst.window = some w ∧ w.reach = 0 ∧ .pwrGood ∈ w.taken ∧ .pwrGood ∈ w.low ∧ t.pow.pwrGood = false ∧
    (s.rst.window = none → t.rst.boot = .inReset ∧ t.cores = [] ∧ t.mem.bytes = [] ∧ t.rst.cause = 1)

/-- A source of reach 0 to 2 has been taken in a module with no window open (Tables 14.1, 14.2): the window is open and
RESET_CAUSE set, cores, unit commands, jobs, items and caches are gone, tier A is kept by a warm reset and lost by a wider
one, and the meter goes on. -/
structure Taken (s t : State) (src : ResetSource) (reach : Nat) (cause : BitVec 32) : Prop where
  window : t.rst.window = some { reach := reach, taken := [src], low := [src] }
  cause  : t.rst.cause = cause
  boot   : t.rst.boot = .inReset
  cores  : t.cores = [] ∧ t.units = []
  jobs   : t.hb.jobs = [] ∧ t.hb.items = []
  caches : t.mem.l2 = []
  tierA  : t.mem.bytes = if reach = 2 then s.mem.bytes else []
  meter  : t.meter = s.meter

/-- A message comes as a send of the TYPE of its row, with no congestion mark (R321, R325). -/
def Arrives (type : BitVec 8) (m : Msg) : Prop := m.type = type ∧ m.by' = .send ∧ m.ce = false

/-- A message of a type that this module may take: in service, well formed, addressed to it, reserved fields zero. -/
def Addressed (s : State) (type : BitVec 8) (m : Msg) : Prop :=
  s.rst.boot = .ready ∧ Arrives type m ∧ m.wellFormed type = true ∧ m.exch = 0 ∧ m.round = 0 ∧ m.rsv = 0 ∧ m.to = s.straps.modid

/-- ... whose generation is not below the one recorded for its sender (R337). -/
def TakesMsg (s : State) (type : BitVec 8) (m : Msg) : Prop :=
  Addressed s type m ∧ (s.genOf m.from).toNat ≤ m.gen.toNat

/-- A frame that arrives next on the Couch link, from a twin that is not fenced (R330, R337). -/
def TakesFrame (s : State) (type : BitVec 8) (f : Frame) : Prop :=
  s.rst.boot = .ready ∧ f.wellFormed type = true ∧ s.twin.couchUp = true ∧ f.fseq = s.twin.fseqRx + 1 ∧
    (s.genOf s.twinId).toNat ≤ f.gen.toNat

/-- A Headbox-to-Headbox message (Table 11.3) that this module takes. -/
def Accepts (s : State) (type : BitVec 8) (m : Msg) (n : Nat) : Prop :=
  s.rst.boot = .ready ∧ Arrives type m ∧ hbMessage type m n = true ∧ m.to = s.straps.modid ∧ (s.genOf m.from).toNat ≤ m.gen.toNat

/-! ### The reel clock (R18, R290, R415) -/

/-- A command advances the reel count to b: it comes from the selected source in service, and b lies above the count. `u` is the state
that the count moves in: a pulse takes a free value, and its edge is the last one counted. -/
def MovesReel (s : State) (i : Instr) (b : Nat) (u : State) : Prop :=
  s.rst.boot = .ready ∧ s.hb.reel.toNat < 2 ^ 48 - 1 ∧ s.hb.reel.toNat < b ∧
    ((∃ v : BitVec 64, i = .reelAdvance (.doorbell v) ∧ s.rst.hostReset = false ∧ s.furn 0x300003 0 = 1 ∧
        b = v.toNat % 2 ^ 48 ∧ u = s) ∨
     (∃ m : Msg, i = .reelAdvance (.message m) ∧ Accepts s 0x20 m 6 ∧ s.furn 0x300003 0 = 0 ∧ s.hb.reelQp ≠ 0 ∧
        m.qp.setWidth 32 = s.hb.reelQp ∧ b = m.rsv.toNat ∧ u = s) ∨
     (∃ high gap : Nat, i = .reelInPulse high gap ∧ 100 ≤ high ∧ (1000 ≤ gap ∨ s.hb.lastReelEdge = false) ∧
        s.furn 0x300003 0 = 2 ∧ b = s.hb.reel.toNat + 1 ∧
        u = { s with free := s.free + 1, hb := { s.hb with lastReelEdge := true } }))

/-- The state with the reel count at a value. -/
def reelAt (s : State) (v : Nat) : State := { s with hb := { s.hb with reel := BitVec.ofNat 48 v } }

/-! ### Unit commands (R48, R49, R105, R203) -/

/-- The command that a unit instance runs next: of those waiting there the first of class A, or with none the first; in recovery
mode the matchers, the sort units and the Pulpers stand still (Table 14.6). -/
structure NextCmd (s : State) (unit inst op : Nat) (u : UnitCmd) : Prop where
  runs  : s.rst.boot = .recovery → unit ∉ [3, 4, 6]
  here  : u.unit.toNat = unit ∧ u.inst = inst ∧ fieldAt u.block 0 1 = op
  first : ∃ before after, s.units = before ++ u :: after ∧
    (∀ x ∈ before, x.unit = u.unit → x.inst = u.inst → x.cls ≠ 0 ∧ u.cls = 0) ∧
    (u.cls ≠ 0 → ∀ x ∈ after, x.unit = u.unit → x.inst = u.inst → x.cls ≠ 0)

/-- The core still waits for the command: its ticket is pending, DONE has not executed, and the core holds the item's run
(or firmware) that gave the command. -/
structure Awaits (s : State) (u : UnitCmd) : Prop where
  ticket    : (s.core u.core).getT u.ticket = .pending
  finishing : (s.core u.core).finishing = none
  run       : match u.item with
    | none => (s.core u.core).firmware = true
    | some key => ((s.core u.core).item = some key ∨ (s.core u.core).preempted = some key) ∧
        ∃ it, s.item? key = some it ∧ it.attempt = u.attempt

/-- No line of memory comes back uncorrectable (R300), none is held poisoned in a Vat, and no tier B port is down (R304). -/
def NoErrors (s : State) : Prop :=
  (∀ l, Assoc.get 0 s.mem.ecc l < 2) ∧ (∀ x ∈ s.mem.l2, x.poison = false) ∧ s.mem.tierBDown = 0

/-- The (address, byte) pairs of a list of writes. -/
def cellsOf (ws : List (Nat × Bytes)) : List (Nat × BitVec 8) :=
  ws.flatMap (fun w => w.2.zipIdx.map (fun b => (w.1 + b.2, b.1)))

/-- A line holds a byte of a list of writes. -/
def lineWritten (ws : List (Nat × Bytes)) (n : Nat) : Prop := ∃ c ∈ cellsOf ws, c.1 / 64 = n

/-- Memory after a unit's writes through its Vat's caches: each address holds the last byte written, and every other byte
reads as before. -/
def StoredInVat (c : CoreId) (ws : List (Nat × Bytes)) (s t : State) : Prop :=
  t.mem = { s.mem with l2 := t.mem.l2 } ∧ BytesKept c (fun a => ∃ b, (a, b) ∈ cellsOf ws) s t ∧
    ∀ a b, lastStore (cellsOf ws) a = some b → t.seenByte c.vat a = b

/-- Memory after a unit's writes at the memory side: the Vat's copies of the lines written to are written back and dropped,
each address holds the last byte written, and every other byte and copy is as before. -/
def StoredAtSide (c : CoreId) (ws : List (Nat × Bytes)) (s t : State) : Prop :=
  t.mem = { s.mem with bytes := t.mem.bytes, l2 := t.mem.l2, ecc := t.mem.ecc } ∧
    (∀ e ∈ t.mem.ecc, e ∈ s.mem.ecc) ∧ (∀ e ∈ s.mem.ecc, ¬ lineWritten ws e.1 → e ∈ t.mem.ecc) ∧
    (∀ v n, (v = c.vat ∧ lineWritten ws n → l2Find t.mem.l2 v n = none) ∧
      (¬ (v = c.vat ∧ lineWritten ws n) → l2Find t.mem.l2 v n = l2Find s.mem.l2 v n)) ∧
    (∀ a b, lastStore (cellsOf ws) a = some b → t.mem.byte a = b) ∧
    ∀ a, lastStore (cellsOf ws) a = none →
      (∀ l, lineWritten ws (a / 64) → l2Find s.mem.l2 c.vat (a / 64) = some l → l.dirty = true →
        t.mem.byte a = l.data.extractLsb' (8 * (a % 64)) 8) ∧
      ((∀ l, lineWritten ws (a / 64) → l2Find s.mem.l2 c.vat (a / 64) = some l → l.dirty = false) →
        t.mem.byte a = s.mem.byte a)

/-- A command has left its unit's queue and its ticket holds the status; no other core is touched. -/
structure Reported (s t : State) (u : UnitCmd) (st : BitVec 16) : Prop where
  queue  : t.units = s.units.erase u
  ticket : t.core u.core = (s.core u.core).setT u.ticket (.complete st)
  cores  : ∀ d, d ≠ u.core → t.core d = s.core d

/-- A unit command has run: its writes have been made (`side`: at the memory side), its ticket holds its status, the
counters have risen by `counts`, and nothing else of the module has changed. -/
structure UnitRan (side : Bool) (s t : State) (u : UnitCmd) (st : BitVec 16) (ws : List (Nat × Bytes))
    (counts : Nat → Nat) : Prop where
  reported : Reported s t u st
  memory   : if side then StoredAtSide u.core ws s t else StoredInVat u.core ws s t
  counters : ∀ k, t.modVal k 0 = s.modVal k 0 + counts k
  frame    : t = { s with units := t.units, cores := t.cores, mem := t.mem, free := t.free,
                          dict := { s.dict with values := t.dict.values } }

/-- The row runs the unit's next command with this result. -/
def Runs (side : Bool) (i : Instr) (s : State) (u : UnitCmd) (st : BitVec 16) (ws : List (Nat × Bytes))
    (counts : Nat → Nat) : Prop :=
  ∃ t, exec i s = .next t ∧ UnitRan side s t u st ws counts

/-! ### Slurry messages (R189) -/

/-- A Slurry message that an exchange takes: in service, for this module, its sender not fenced, the job and exchange here,
its fields and CRC good, and its SEQ the next of its stream. -/
structure Receives (s : State) (type : BitVec 8) (m : Msg) (j : Job) (e : ExchRec) (x : Exch) : Prop where
  up     : s.rst.boot = .ready
  comes  : Arrives type m
  here   : m.to = s.straps.modid
  gen    : (s.genOf m.from).toNat ≤ m.gen.toNat
  job    : s.job? m.job = some j
  exch   : j.exch? m.exch.toNat = some e ∧ s.exch? m.job m.exch.toNat = some x
  fields : slurryFields type m = true ∧ m.crc = m.check type
  seq    : m.seq.toNat = Assoc.get 0 x.rxSeq (streamKey m) + 1

/-- Outside one exchange (and the queue pairs, counters and outputs of what it sends) nothing has changed. -/
def OnlyExch (x : Exch) (s t : State) : Prop :=
  t = { s with slurry := t.slurry, sent := t.sent, fab := { s.fab with qps := t.fab.qps },
               dict := { s.dict with values := t.dict.values } } ∧
    t.slurry.filter (fun y => !(y.job = x.job && y.exch = x.exch)) =
      s.slurry.filter (fun y => !(y.job = x.job && y.exch = x.exch))

/-! ### Work items (R282, R286, R423) -/

/-- A work item has started on a core: it stands running there, a class A item with the grade in force, with a descriptor
for each of its reservations that Table 5.3 lets it have (R118, R120) and its 64 bytes in memory; the core runs from its entry with registers, control registers and tickets zero and no stream bound; it has left
its queue and is counted, and other cores go on as before. -/
structure Started (s t : State) (it : Item) (c : CoreId) : Prop where
  item   : ∃ i : Item, t.item? it.key = some i ∧ t.memRead it.ptr 64 = i.bytes ∧
    i = { it with phase := .running, core := some c, grade := i.grade, gradeRev := i.gradeRev,
                  reproducible := i.reproducible, descs := i.descs } ∧
    (if it.cls = 0 then i.grade = s.dict.active.setWidth 8 ∧ i.gradeRev = (s.dict.grades[s.dict.active.toNat]).rev
     else i.grade = it.grade ∧ i.gradeRev = it.gradeRev ∧ i.reproducible = it.reproducible) ∧
    i.descs.length ≤ it.inputs.length + (if it.outBytes = 0 then 0 else 1) ∧ ∀ b ∈ i.descs, t.markGood b it.job = true
  runs   : (t.core c).active = true ∧ (t.core c).firmware = false ∧ (t.core c).item = some it.key ∧
    (t.core c).preempted = none ∧ (t.core c).itemClass = it.cls ∧ (t.core c).pc = BitVec.ofNat 64 it.entry ∧
    (t.core c).itemPtr = BitVec.ofNat 64 it.ptr
  zero   : (∀ r, (t.core c).getX r = 0) ∧ (∀ r, (t.core c).getW r = 0) ∧ (∀ r, (t.core c).getP r = 0) ∧
    (∀ r (i : Fin 16), ((t.core c).getE r)[i] = 0) ∧ (∀ r, (t.core c).getS r = Stream.unbound) ∧
    (∀ r, (t.core c).getT r = .free) ∧ (t.core c).fpctl = 0 ∧ (t.core c).fpflags = 0 ∧ (t.core c).topkK = 0 ∧
    (t.core c).topkst = 0
  others : ∀ d, d ≠ c → t.core d = s.core d
  queue  : t.hb.queued = s.hb.queued.filter (fun q => q.2 ≠ it.key)
  count  : CountsBy 0x30000C 1 s t

/-- Item q of a flow has been made from these inputs, as the last of the items held (R275, R278, R279, Table 11.7): its stamp and the
grade in force there (of class A the one in force), its 64 bytes and its argument block in the item store. -/
structure Made (s t : State) (j : Job) (f : FlowRun) (q : Nat) (ins : List Input) (place : Option CoreId) (it : Item) : Prop where
  items  : t.hb.items = s.hb.items ++ [it]
  names  : it.key = keyOf f.decl.flow q ∧ it.job = j.job ∧ it.cls = f.decl.cls.setWidth 2 ∧ it.last = decide (q + 1 = f.decl.items)
  from_  : it.inputs = ins ∧ it.outBytes = f.decl.outMax ∧ it.affinity = place
  begins : it.entry = j.codeBase + f.decl.entry ∧ it.attempt = 0 ∧ it.phase = .created
  stamp  : it.stampReel = f.decl.dueBase + (q / f.decl.stampDiv * f.decl.stampNum / f.decl.stampDen) * f.decl.dueStep - f.decl.lead ∧
    it.grade = (if f.decl.cls = 0 then s.dict.active else s.gradeAt it.stampReel).setWidth 8 ∧
    t.hb.stampHorizon = max s.hb.stampHorizon it.stampReel
  memory : it.arg = it.ptr + 64 ∧ t.memRead it.ptr 64 = it.bytes ∧ t.memRead it.arg 8 = leBytes 8 (j.argsBase + f.decl.arg)
  flow   : ∃ f', (t.flow? f.decl.flow).map (·.2) = some f' ∧ f'.created q = true

/-- There is room for the output of an item of a flow. -/
def OutRoom (s : State) (j : Job) (f : FlowRun) : Prop :=
  f.decl.outMax = 0 ∨ (s.newAlloc j.job false true f.decl.outMax).isSome = true

/-- A request on a path is served: the path is open, the request is one that the path serves (R375), and on the tunnel it is a message
that the module takes, whose number has no answer yet (Table 13.2). -/
def Serves (s : State) (path : Path) : Prop :=
  s.pathOpen path = true ∧ served path = true ∧
    ∀ r, path = .tunnel r → TakesMsg s 0x50 r.msg ∧ ∀ k ∈ s.fab.kept, k.1 ≠ requestId r

/-- The code an access answers with on a path, nothing else of the module being touched. -/
def Refuses (i : Instr) (s : State) (path : Path) (read : Bool) (st : BitVec 16) : Prop :=
  exec i s = .next (s.answer path read st [])

end Sys2Proof.Machine
end

