-- ==== Sys2Proof/Certificates/Slice0/Obligations.lean ====
section
/-! DEFINITION. The statements for the provers. -/

open Sys2Proof Sys2Proof.Machine

/-- A step with a command at the front of the queue is exec of that command with the queue's rest. On an empty queue,
with nothing held back and no migration or fence under way, only the tick counts (the model's choice, log entries 4 and
129). -/
def Obligations.StepRunsFront : Prop :=
  (∀ (c : Instr) (rest : List Instr) (s : State), step { s with pending := c :: rest } = exec c { s with pending := rest }) ∧
  (∀ s : State, s.pending = [] → s.host.waiting = [] → s.fab.heldA = [] → s.felt.redirects = [] → s.twin.fences = [] →
    step s = .next { s with tick := s.tick + 1 })

/-- The state right after reset meets the invariant: memory lists nothing and DROOP_LEVEL is one of the levels 8 to
16. -/
def Obligations.ResetHasInv : Prop :=
  Inv State.reset

/-- R391 and the canonical form of memory: from every state that meets the invariant, whichever command stands first
in the queue, a step that answers a next state gives one that meets it. -/
def Obligations.StepKeepsInv : Prop :=
  ∀ s t : State, Inv s → step s = .next t → Inv t

/-- Table 2.5, opcodes 0x01 to 0x10 (R39): ADD to SLTU complete and write xd, X0 discarding the write (R29). Table
2.5, opcodes 0x11 and 0x12: CLZ writes the number of zero bits above the highest set bit (64 for zero), POPC the
number of set bits. Table 2.5, opcodes 0x18 to 0x20: the immediate forms; shift amounts are imm15[5:0], whose upper
bits are reserved. -/
def Obligations.ScalarResults : Prop :=
  (∀ (c : CoreId) (f : SR) (w : Companions) (s : State), f.imm10 = 0 →
    let a := (s.core c).getX f.xs1
    let b := (s.core c).getX f.xs2
    let n := b.toNat % 64
    WritesX 0 (.add c f w) c f.xd (a + b) w s ∧
    WritesX 0 (.sub c f w) c f.xd (a - b) w s ∧
    WritesX 0 (.mul c f w) c f.xd (BitVec.ofInt 64 (a.toInt * b.toInt)) w s ∧
    WritesX 0 (.mulh c f w) c f.xd (BitVec.ofInt 64 (a.toInt * b.toInt / 2 ^ 64)) w s ∧
    WritesX 0 (.mulhu c f w) c f.xd (BitVec.ofNat 64 (a.toNat * b.toNat / 2 ^ 64)) w s ∧
    WritesX 0 (.div c f w) c f.xd (if b = 0 then BitVec.ofInt 64 (-1) else BitVec.ofInt 64 (a.toInt.tdiv b.toInt)) w s ∧
    WritesX 0 (.divu c f w) c f.xd (if b = 0 then BitVec.ofInt 64 (-1) else BitVec.ofNat 64 (a.toNat / b.toNat)) w s ∧
    WritesX 0 (.rem c f w) c f.xd (if b = 0 then a else BitVec.ofInt 64 (a.toInt.tmod b.toInt)) w s ∧
    WritesX 0 (.and c f w) c f.xd (a &&& b) w s ∧
    WritesX 0 (.or c f w) c f.xd (a ||| b) w s ∧
    WritesX 0 (.xor c f w) c f.xd (a ^^^ b) w s ∧
    WritesX 0 (.shl c f w) c f.xd (BitVec.ofNat 64 (a.toNat * 2 ^ n)) w s ∧
    WritesX 0 (.shr c f w) c f.xd (BitVec.ofNat 64 (a.toNat / 2 ^ n)) w s ∧
    WritesX 0 (.sra c f w) c f.xd (BitVec.ofInt 64 (a.toInt / 2 ^ n)) w s ∧
    WritesX 0 (.slt c f w) c f.xd (if a.toInt < b.toInt then 1 else 0) w s ∧
    WritesX 0 (.sltu c f w) c f.xd (if a.toNat < b.toNat then 1 else 0) w s) ∧
  (∀ (c : CoreId) (f : SR) (w : Companions) (s : State), f.imm10 = 0 → f.xs2 = 0 →
    let a := (s.core c).getX f.xs1
    (∃ n, n ≤ 64 ∧ a.toNat < 2 ^ (64 - n) ∧ (n < 64 → 2 ^ (63 - n) ≤ a.toNat) ∧
      WritesX 0 (.clz c f w) c f.xd (BitVec.ofNat 64 n) w s) ∧
    WritesX 0 (.popc c f w) c f.xd
      (BitVec.ofNat 64 (Finset.univ.filter (fun i : Fin 64 => a.getLsbD i = true)).card) w s) ∧
  (∀ (c : CoreId) (f : SI) (w : Companions) (s : State),
    let a := (s.core c).getX f.xs1
    let n := f.imm15.toNat
    WritesX 0 (.addi c f w) c f.xd (BitVec.ofInt 64 (a.toInt + f.imm15.toInt)) w s ∧
    WritesX 0 (.andi c f w) c f.xd (a &&& BitVec.ofNat 64 n) w s ∧
    WritesX 0 (.ori c f w) c f.xd (a ||| BitVec.ofNat 64 n) w s ∧
    WritesX 0 (.xori c f w) c f.xd (a ^^^ BitVec.ofNat 64 n) w s ∧
    (n < 64 → WritesX 0 (.shli c f w) c f.xd (BitVec.ofNat 64 (a.toNat * 2 ^ n)) w s) ∧
    (n < 64 → WritesX 0 (.shri c f w) c f.xd (BitVec.ofNat 64 (a.toNat / 2 ^ n)) w s) ∧
    (n < 64 → WritesX 0 (.srai c f w) c f.xd (BitVec.ofInt 64 (a.toInt / 2 ^ n)) w s) ∧
    WritesX 0 (.lsi c f w) c f.xd (BitVec.ofNat 64 (a.toNat * 2 ^ 15 + n)) w s ∧
    WritesX 0 (.slti c f w) c f.xd (if a.toInt < f.imm15.toInt then 1 else 0) w s)

/-- Table 2.5, opcodes 0x28 to 0x2F and 0x30 (R37): a taken branch goes to PC + offset × 16, an untaken one to the
next word; no register changes but PC, RETIRED and CYCLE. Table 2.5, opcodes 0x31 to 0x33: CALL and CALLR link the
address of the next word; JR and CALLR go to the register's value, which must be 16-byte aligned. -/
def Obligations.BranchesAndJumps : Prop :=
  (∀ (c : CoreId) (f : SB) (j : SJ) (w : Companions) (s : State),
    let k := s.core c
    let a := k.getX f.xs1
    let b := k.getX f.xs2
    let p := k.getP (BitVec.ofNat 3 f.xs1.toNat)
    let dest := fun taken : Bool => if taken then some (BitVec.ofInt 64 (k.pc.toNat + 16 * f.off15.toInt)) else none
    GoesTo (.beq c f w) c (dest (a == b)) w s ∧
    GoesTo (.bne c f w) c (dest (a != b)) w s ∧
    GoesTo (.blt c f w) c (dest (decide (a.toInt < b.toInt))) w s ∧
    GoesTo (.bge c f w) c (dest (decide (b.toInt ≤ a.toInt))) w s ∧
    GoesTo (.bltu c f w) c (dest (decide (a.toNat < b.toNat))) w s ∧
    GoesTo (.bgeu c f w) c (dest (decide (b.toNat ≤ a.toNat))) w s ∧
    (f.xs1.toNat < 8 → f.xs2 = 0 → GoesTo (.bany c f w) c (dest (p != 0)) w s) ∧
    (f.xs1.toNat < 8 → f.xs2 = 0 → GoesTo (.bnone c f w) c (dest (p == 0)) w s) ∧
    GoesTo (.jmp c j w) c (some (BitVec.ofInt 64 (k.pc.toNat + 16 * j.off25.toInt))) w s) ∧
  (∀ (c : CoreId) (f : SR) (j : SJ) (w : Companions) (s : State),
    let k := s.core c
    let a := k.getX f.xs1
    Completes 0 [.x 31] { x := some (31, k.pc + 16), target := some (BitVec.ofInt 64 (k.pc.toNat + 16 * j.off25.toInt)) }
      (.call c j w) c w s ∧
    (f.imm10 = 0 → f.xd = 0 → f.xs2 = 0 → a.toNat % 16 = 0 → GoesTo (.jr c f w) c (some a) w s) ∧
    (f.imm10 = 0 → f.xs2 = 0 → a.toNat % 16 = 0 →
      Completes 0 [.x f.xd] { x := some (f.xd, k.pc + 16), target := some a } (.callr c f w) c w s))

/-- Table 2.9 (R42): CSRR reads each control register, those of firmware mode in firmware mode. Table 2.9 (R34, R42):
CSRW writes the writable control registers; FPFLAGS afterwards holds the written bits OR the flags the word raised. -/
def Obligations.ControlRegisters : Prop :=
  (∀ (c : CoreId) (f : SR) (w : Companions) (s : State), f.xs1 = 0 → f.xs2 = 0 →
    let k := s.core c
    (∀ e ∈ [((0x000 : BitVec 10), BitVec.ofNat 64 (16 * c.vat.toNat + c.core.toNat)), (0x001, k.itemPtr),
            (0x002, BitVec.ofNat 64 k.itemClass.toNat), (0x003, if k.firmware then 1 else 0),
            (0x008, BitVec.ofNat 64 k.fpctl.toNat), (0x009, BitVec.ofNat 64 k.fpflags.toNat),
            (0x00A, BitVec.ofNat 64 k.topkK.toNat), (0x00B, k.topkst), (0x020, k.cycle), (0x021, k.retired),
            (0x022, s.tick), (0x023, BitVec.ofNat 64 s.hb.reel.toNat)],
      f.imm10 = e.1 → WritesX 0 (.csrr c f w) c f.xd e.2 w s) ∧
    (k.firmware = true → ∀ e ∈ [((0x010 : BitVec 10), k.epc), (0x011, BitVec.ofNat 64 k.cause.toNat), (0x012, k.faddr),
            (0x013, k.evec)],
      f.imm10 = e.1 → WritesX 0 (.csrr c f w) c f.xd e.2 w s) ∧
    (f.imm10 = 0x030 → ∃ v : BitVec 64, (∀ i : Fin 32, v.getLsbD i = (k.tickets[i] != .free)) ∧ v.toNat < 2 ^ 32 ∧
      WritesX 0 (.csrr c f w) c f.xd v w s)) ∧
  (∀ (c : CoreId) (f : SR) (w : Companions) (s : State), f.xd = 0 → f.xs2 = 0 →
    f.imm10 ∈ [(0x008 : BitVec 10), 0x009, 0x00A] ∨ ((s.core c).firmware = true ∧ f.imm10 ∈ [(0x010 : BitVec 10), 0x013]) →
    Completes 0 [] { csr := some (f.imm10, (s.core c).getX f.xs1) } (.csrw c f w) c w s)

/-- R36, R52, Table 2.8: the empty slots, and FENCE and SYNC, only let the word go on. R61: in firmware mode outside a
handler TRAP saves the word's address in EPC, its code, slot and number in CAUSE, and goes on at EVEC in the handler;
nothing else of the core or the module changes. R59 to R61, Table 2.10: of the causes of a word the first of FETCH_FAULT,
ILLEGAL_WORD and then of slots 0 to 3 is raised, in a slot ILLEGAL_OPCODE before PRIVILEGE before what the operation raises, and
no slot has any effect (a firmware fault inside a handler is reported in the event log: log entry 123). R61: ERET goes to
EPC, of any alignment (log entry 140), and leaves the handler. R49, R50: DONE of an item with no pending ticket takes the
core from the item; a core whose item had pre-empted no other then runs nothing. -/
def Obligations.WordControl : Prop :=
  (∀ (c : CoreId) (f : MX) (w : Companions) (s : State),
    Completes 0 [] {} (.nop c 0 w) c w s ∧
    Completes 1 [] {} (.vnop c false 0 w) c w s ∧
    Completes 2 [] {} (.vnop c true 0 w) c w s ∧
    Completes 3 [] {} (.mnop c 0 w) c w s ∧
    (f.rd = 0 → f.rs1 = 0 → f.rs2 = 0 → f.func = 0 →
      Completes 3 [] {} (.fence c f w) c w s ∧ Completes 3 [] {} (.sync c f w) c w s)) ∧
  (∀ (c : CoreId) (f : SR) (w : Companions) (s : State), Commits s c → (s.core c).firmware = true →
    (s.core c).handler = false → f.xd = 0 → f.xs1 = 0 → f.xs2 = 0 →
    destsClash (wordSlots 0 (slotTrap f) w) = false →
    ∃ t, exec (.trap c f w) s = .next t ∧ SameBesides c s t ∧ (t.core c).epc = (s.core c).pc ∧
      (t.core c).cause = f.imm10 ++ (0 : BitVec 2) ++ (0x010F : BitVec 16) ∧ (t.core c).pc = (s.core c).evec ∧
      (t.core c).handler = true ∧
      t.core c = { s.core c with epc := (t.core c).epc, cause := (t.core c).cause, faddr := (t.core c).faddr,
                                 pc := (t.core c).pc, handler := true, cycle := (t.core c).cycle,
                                 itemCycles := (t.core c).itemCycles }) ∧
  (∀ (c : CoreId) (w : Companions) (s : State), (s.core c).active = true → (s.core c).finishing = none → (s.core c).runahead = false →
    ∀ p ∈ [((0 : Nat), Instr.nop c 0 w, slotNop0 0), (3, .mnop c 0 w, slotMnop 0)],
      let slots := wordSlots p.1 p.2.2 w
      let named := (slots.flatMap (·.dests)).filter (· ≠ .x 0)
      (fetchFault s (s.core c) = true → Raises p.2.1 c s none 0x0104 none none) ∧
      (fetchFault s (s.core c) = false → ¬ named.Nodup → Raises p.2.1 c s none 0x0102 none none) ∧
      (fetchFault s (s.core c) = false → named.Nodup → ∀ (n : Fin 4) (m : Meaning), slots[n.val]? = some m →
        (∀ b ∈ slots.take n.val, SlotMay s c b ∧ ∃ e, b.run (ctxOf s c) = .ok e) →
        let at' := some (BitVec.ofNat 2 n.val)
        (m.legal (s.core c) = false → Raises p.2.1 c s at' 0x0101 none none) ∧
        (m.legal (s.core c) = true → m.privileged = true → (s.core c).firmware = false → Raises p.2.1 c s at' 0x0103 none none) ∧
        (SlotMay s c m → ∀ code trap fa, m.run (ctxOf s c) = .error (.exc code trap fa) → Raises p.2.1 c s at' code trap fa) ∧
        (SlotMay s c m → m.run (ctxOf s c) = .error .wait → exec p.2.1 s = .next s))) ∧
  (∀ (c : CoreId) (f : SR) (w : Companions) (s : State), (s.core c).firmware = true →
    f.imm10 = 0 → f.xd = 0 → f.xs1 = 0 → f.xs2 = 0 →
    Completes 0 [] { target := some (s.core c).epc, eret := true } (.eret c f w) c w s) ∧
  (∀ (c : CoreId) (f : SR) (w : Companions) (s : State) (es : List Effect) (key : ItemKey),
    (s.core c).firmware = false → (s.core c).item = some key → (s.core c).preempted = none →
    f.imm10 = 0 → f.xd = 0 → f.xs2 = 0 → (∀ n, (s.core c).getT n = .free) →
    OthersRun 0 [] c w s es → (∀ e ∈ es, e.ticket = none) →
    ∃ t, exec (.done c f w) s = .next t ∧ (t.core c).active = false ∧ (t.core c).item = none ∧
      (∀ d, d ≠ c → t.core d = s.core d))

/-- Table 2.6, opcodes 0x01 to 0x07 (R72 to R75): each active element is the IEEE 754 result of the operation in the element's format
under FPCTL, and FPFLAGS gains the flags of the active elements: the exact d ± a·b, a·b or a ± b of finite inputs rounded once, an
exact zero of the sign the standard gives it, infinities, and the canonical NaN of Table 3.1; VFMAX and VFMIN give the greater and
the lesser of two numbers. Whether an infinity times zero beside a quiet NaN raises invalid is open (log entry 149). -/
def Obligations.FloatVectors : Prop :=
  [0x8, 0x9, 0xA, 0xB, 0xC, 0xD].map (fun t => (fmtOf t).nan) = [0x7F, 0x7E, 0x7FC0, 0x7E00, 0x7FC00000, 0x7FF8000000000000] ∧
  ∀ (c : CoreId) (f : VR) (w : Companions) (s : State), 8 ≤ f.etype.toNat → f.etype.toNat ≤ 0xD → f.mod = 0 →
    let k := s.core c
    let m := fmtOf f.etype.toNat
    let r := k.fpctl.toNat
    let n := etypeBytes f.etype.toNat
    let x := fun (v : BitVec 5) (i : Nat) => lane n (k.getW v) i
    let d := fun i => m.decode (x f.wd i)
    let a := fun i => m.decode (x f.wa i)
    let b := fun i => m.decode (x f.wb i)
    let gives := fun (i : Instr) (is : Nat → Rounded → Prop) => ∃ g : Nat → Rounded, (∀ j, is j (g j)) ∧
      WritesLanes 1 i c f n (fun j => (g j).bits) (fun j => (g j).flags) w s
    gives (.vfma c f w) (fun i => m.FusedIs r (d i) (a i) (b i)) ∧
    gives (.vfms c f w) (fun i => m.FusedIs r (d i) (a i).neg (b i)) ∧
    gives (.vfmul c f w) (fun i => m.ProductIs r (a i) (b i)) ∧
    gives (.vfadd c f w) (fun i => m.SumIs r (a i) (b i)) ∧
    gives (.vfsub c f w) (fun i => m.SumIs r (a i) (b i).neg) ∧
    gives (.vfmax c f w) (fun i => m.ExtremumIs true (x f.wa i) (x f.wb i)) ∧
    gives (.vfmin c f w) (fun i => m.ExtremumIs false (x f.wa i) (x f.wb i))

/-- R74: a value rounded once into a format is exact unless inexact is raised, keeps its sign, and lies where its rounding mode puts it:
within half a unit of the last place to nearest, an even one at a tie; not above the value in magnitude toward zero; on the side of
the directed modes; and always less than one unit off; unless overflow is raised. -/
def Obligations.RoundedOnce : Prop :=
  ∀ (t mode num den : Nat) (neg : Bool), t ∈ [0x8, 0x9, 0xA, 0xB, 0xC, 0xD] → mode < 4 → 0 < num → 0 < den →
    let f := fmtOf t
    let r := f.round mode neg num den
    let x : ℚ := num / den
    r.flags &&& flagOverflow = 0 →
    ∃ (m : Nat) (e : Int), f.decode r.bits = .fin neg m e ∧
      (r.flags &&& flagInexact = 0 ↔ (m : ℚ) * (2 : ℚ) ^ e = x) ∧
      |(m : ℚ) * (2 : ℚ) ^ e - x| < (2 : ℚ) ^ e ∧
      (mode = 0 → |(m : ℚ) * (2 : ℚ) ^ e - x| ≤ (2 : ℚ) ^ e / 2 ∧ (|(m : ℚ) * (2 : ℚ) ^ e - x| = (2 : ℚ) ^ e / 2 → m % 2 = 0)) ∧
      (mode = 1 → (m : ℚ) * (2 : ℚ) ^ e ≤ x ∧ x < ((m : ℚ) + 1) * (2 : ℚ) ^ e) ∧
      (mode = 2 → if neg then (m : ℚ) * (2 : ℚ) ^ e ≤ x else x ≤ (m : ℚ) * (2 : ℚ) ^ e) ∧
      (mode = 3 → if neg then x ≤ (m : ℚ) * (2 : ℚ) ^ e else (m : ℚ) * (2 : ℚ) ^ e ≤ x)

/-- Tables 2.6 and 2.7, the integer rows: each active element is the result in the element's low bits. Table 2.7, the
rows of any element type: bitwise operations, permutes, broadcast and expansion. Table 2.7: VMOVX reads one element as
a bit pattern, sign-extended for INT types; VMOVI writes sign-extended imm8. -/
def Obligations.IntegerAndLaneVectors : Prop :=
  (∀ (c : CoreId) (f : VR) (w : Companions) (s : State), f.etype.toNat < 8 → f.mod = 0 →
    let k := s.core c
    let n := etypeBytes f.etype.toNat
    let top := 2 ^ (8 * n)
    let v := intVal (etypeSigned f.etype.toNat) n
    let lo := intMin (etypeSigned f.etype.toNat) n
    let hi := intMax (etypeSigned f.etype.toNat) n
    let d := lane n (k.getW f.wd)
    let a := lane n (k.getW f.wa)
    let b := lane n (k.getW f.wb)
    let gives := fun (own : Nat) (i : Instr) (g : Nat → Nat) => WritesLanes own i c f n g (fun _ => 0) w s
    gives 1 (.vimul c f w) (fun i => a i * b i % top) ∧
    gives 1 (.vimac c f w) (fun i => (d i + a i * b i) % top) ∧
    gives 2 (.vadd c f w) (fun i => (a i + b i) % top) ∧
    gives 2 (.vsub c f w) (fun i => (a i + top - b i) % top) ∧
    gives 2 (.vadds c f w) (fun i => wrapInt n (max lo (min hi (v (a i) + v (b i))))) ∧
    gives 2 (.vsubs c f w) (fun i => wrapInt n (max lo (min hi (v (a i) - v (b i))))) ∧
    gives 2 (.vshl c f w) (fun i => a i * 2 ^ (b i % (8 * n)) % top) ∧
    gives 2 (.vshr c f w) (fun i => a i / 2 ^ (b i % (8 * n))) ∧
    gives 2 (.vsra c f w) (fun i => wrapInt n (v (a i) / 2 ^ (b i % (8 * n)))) ∧
    gives 2 (.vmin c f w) (fun i => if v (a i) ≤ v (b i) then a i else b i) ∧
    gives 2 (.vmax c f w) (fun i => if v (a i) ≤ v (b i) then b i else a i) ∧
    (f.wb = 0 → gives 2 (.vscan c f w) (fun i =>
      (((List.range (i + 1)).filter (fun j => (k.getP f.pg).getLsbD (j * n))).map a).sum % top))) ∧
  (∀ (c : CoreId) (f : VR) (w : Companions) (s : State), f.etype.toNat ≤ 0xD → f.mod = 0 →
    let k := s.core c
    let n := etypeBytes f.etype.toNat
    let a := lane n (k.getW f.wa)
    let b := lane n (k.getW f.wb)
    let on := fun i => (k.getP f.pg).getLsbD (i * n)
    let active := (List.range (512 / n)).filter on
    let gives := fun (i : Instr) (g : Nat → Nat) => WritesLanes 2 i c f n g (fun _ => 0) w s
    gives (.vand c f w) (fun i => a i &&& b i) ∧
    gives (.vor c f w) (fun i => a i ||| b i) ∧
    gives (.vxor c f w) (fun i => a i ^^^ b i) ∧
    gives (.vperm c f w) (fun i => a (b i % (512 / n))) ∧
    (f.wb = 0 → gives (.vbcast c f w) (fun _ => (k.getX f.wa).toNat % 2 ^ (8 * n))) ∧
    (f.wb = 0 → gives (.vexpand c f w) (fun i => a ((List.range i).filter on).length)) ∧
    (f.zm = 0 → ∃ v, (∀ i, i < 512 / n → lane n v i = if on i then a i else b i) ∧
      WritesW 2 (.vsel c f w) c f.wd v 0 w s) ∧
    (f.wb = 0 → f.zm = 0 → ∃ v, (∀ i, i < 512 / n → lane n v i = match active[i]? with | some j => a j | none => 0) ∧
      WritesW 2 (.vcompress c f w) c f.wd v 0 w s)) ∧
  (∀ (c : CoreId) (f : VR) (g : VI) (w : Companions) (s : State),
    let k := s.core c
    let n := etypeBytes f.etype.toNat
    let x := lane n (k.getW f.wa) ((k.getX f.wb).toNat % (512 / n))
    let n' := etypeBytes g.etype.toNat
    (f.etype.toNat ≤ 0xD → f.mod = 0 → f.pg = 0 → f.zm = 0 →
      WritesX 2 (.vmovx c f w) c f.wd
        (if f.etype.toNat < 8 ∧ f.etype.toNat % 2 = 0 ∧ 2 ^ (8 * n - 1) ≤ x then BitVec.ofInt 64 (x - 2 ^ (8 * n))
         else BitVec.ofNat 64 x) w s) ∧
    (g.etype.toNat < 8 → g.wa = 0 →
      ∃ v, Lanes n' (k.getP g.pg) g.zm (k.getW g.wd) v (fun _ => wrapInt n' g.imm8.toInt) ∧
        WritesW 2 (.vmovi c g w) c g.wd v 0 w s))

/-- R40: VCVT converts the active elements of wa, at the target width, from the source part mod names when it widens,
and else under the rounding mod names; Table 3.2: integers saturate, a finite value is rounded once, and a NaN gives 0
or the canonical NaN. Table 2.6: VDOT4 adds four products to each 32-bit lane: of integers modulo 2^32, of finite FP8
values exactly and rounded once to nearest (R74; the sign of a zero sum is the model's choice, log entry 148, and not
stated). Table 2.7: VCMP writes the condition mod names for each active element; of a NaN only NE and unordered hold,
and invalid is raised as IEEE 754-2019 has it. R30, R31: the predicate instructions write every element of Pd, all its
bits alike, and PCNT counts elements. Table 2.7: PLEN activates the first X[wa] elements. -/
def Obligations.ConversionsAndPredicates : Prop :=
  (∀ (c : CoreId) (f : VR) (w : Companions) (s : State), f.etype.toNat ≤ 0xD → f.wb.toNat ≤ 0xD →
    let k := s.core c
    let src := f.etype.toNat
    let dst := f.wb.toNat
    let es := 512 / etypeBytes src
    let ed := 512 / etypeBytes dst
    let m := f.mod.toNat
    let a := lane (etypeBytes src) (k.getW f.wa)
    (ed < es → m < es / ed →
      WritesLanes 2 (.vcvt c f w) c f (etypeBytes dst)
        (fun i => (convert src dst k.fpctl.toNat (a (m * ed + i))).bits)
        (fun i => (convert src dst k.fpctl.toNat (a (m * ed + i))).flags) w s) ∧
    (es ≤ ed → m < 5 →
      let r := if m = 0 then k.fpctl.toNat else m - 1
      WritesLanes 2 (.vcvt c f w) c f (etypeBytes dst)
        (fun i => if i < es then (convert src dst r (a i)).bits else 0)
        (fun i => if i < es then (convert src dst r (a i)).flags else 0) w s)) ∧
  (∀ src dst mode b : Nat, src ≤ 0xD → dst ≤ 0xD → mode < 4 → b < 2 ^ (8 * etypeBytes src) →
    let r := convert src dst mode b
    let n := etypeBytes dst
    let signed := etypeSigned dst
    let v := intVal (etypeSigned src) (etypeBytes src) b
    let clamp := fun z : Int => max (intMin signed n) (min (intMax signed n) z)
    (src < 8 → dst < 8 → r = { bits := wrapInt n (clamp v), flags := 0 }) ∧
    (src < 8 → 8 ≤ dst → (fmtOf dst).RoundsTo mode v r) ∧
    (∀ q : ℚ, 8 ≤ src → (fmtOf src).Value b q →
      (8 ≤ dst → src ≠ dst → q ≠ 0 → (fmtOf dst).RoundsTo mode q r) ∧ (src = dst → r = { bits := b, flags := 0 }) ∧
      (dst < 8 → ∃ z : Int, RoundsToInt mode q z ∧ r.bits = wrapInt n (clamp z) ∧
        (clamp z = z → r.flags = if (z : ℚ) = q then 0 else flagInexact))) ∧
    (8 ≤ src → ((fmtOf src).decode b).isNan = true → r.bits = if dst < 8 then 0 else (fmtOf dst).nan)) ∧
  (∀ (c : CoreId) (f : VR) (w : Companions) (s : State), f.etype.toNat ∈ [0x0, 0x1, 0x8, 0x9] → f.mod = 0 →
    let k := s.core c
    let t := f.etype.toNat
    let v := intVal (etypeSigned t) 1
    let a := fun j i => lane 1 (k.getW f.wa) (4 * j + i)
    let b := fun j i => lane 1 (k.getW f.wb) (4 * j + i)
    let four := fun x : Nat → Nat => [x 0, x 1, x 2, x 3]
    let r := fun j => dotLane t (lane 4 (k.getW f.wd) j) (four (a j)) (four (b j))
    WritesLanes 1 (.vdot4 c f w) c f 4 (fun j => (r j).bits) (fun j => (r j).flags) w s ∧
    (t < 8 → ∀ j, (r j).flags = 0 ∧
      ((r j).bits : Int) = ((lane 4 (k.getW f.wd) j : Int) + v (a j 0) * v (b j 0) + v (a j 1) * v (b j 1) +
        v (a j 2) * v (b j 2) + v (a j 3) * v (b j 3)) % 2 ^ 32) ∧
    (8 ≤ t → ∀ (j : Nat) (d : ℚ) (x y : Nat → ℚ), (fmtOf 0xC).Value (lane 4 (k.getW f.wd) j) d →
      (∀ i, i < 4 → (fmtOf t).Value (a j i) (x i) ∧ (fmtOf t).Value (b j i) (y i)) →
      let sum := d + x 0 * y 0 + x 1 * y 1 + x 2 * y 2 + x 3 * y 3
      sum ≠ 0 → (fmtOf 0xC).RoundsTo 0 sum (r j))) ∧
  (∀ (c : CoreId) (f : VR) (w : Companions) (s : State), f.etype.toNat ≤ 0xD → f.mod ≠ 7 → f.wd.toNat < 8 →
    let k := s.core c
    let n := etypeBytes f.etype.toNat
    let r := BitVec.ofNat 3 f.wd.toNat
    let on := fun i => (k.getP f.pg).getLsbD (i * n)
    let x := fun i => compareElem f.etype.toNat f.mod.toNat (lane n (k.getW f.wa) i) (lane n (k.getW f.wb) i)
    WritesBits 2 (.vcmp c f w) c r
      (fun j => if on (j / n) then (x (j / n)).1 else if f.zm = 1 then false else (k.getP r).getLsbD j)
      ((List.range (512 / n)).foldl (fun a i => if on i then a ||| (x i).2 else a) 0) w s) ∧
  (∀ t mod a b : Nat, t ≤ 0xD → mod < 7 →
    let r := compareElem t mod a b
    let m := fmtOf t
    let x := m.decode a
    let y := m.decode b
    let v := intVal (etypeSigned t) (etypeBytes t)
    (t < 8 → (r.1 = true ↔ CondHolds mod (v a) (v b)) ∧ r.2 = 0) ∧
    (8 ≤ t → ∀ p q : EReal, m.Extended a p → m.Extended b q → (r.1 = true ↔ CondHolds mod p q) ∧ r.2 = 0) ∧
    (8 ≤ t → x.isNan = true ∨ y.isNan = true → (r.1 = true ↔ mod = 1 ∨ mod = 6) ∧
      r.2 = if x.isSnan = true ∨ y.isSnan = true ∨ (2 ≤ mod ∧ mod ≤ 5) then flagInvalid else 0)) ∧
  (∀ (c : CoreId) (f : VR) (w : Companions) (s : State), f.etype.toNat ≤ 0xD → f.mod = 0 → f.pg = 0 → f.zm = 0 →
    f.wa.toNat < 8 →
    let k := s.core c
    let n := etypeBytes f.etype.toNat
    let r := BitVec.ofNat 3 f.wd.toNat
    let a := fun i => (k.getP (BitVec.ofNat 3 f.wa.toNat)).getLsbD (i * n)
    let b := fun i => (k.getP (BitVec.ofNat 3 f.wb.toNat)).getLsbD (i * n)
    (f.wd.toNat < 8 → f.wb.toNat < 8 → WritesBits 2 (.pand c f w) c r (fun j => a (j / n) && b (j / n)) 0 w s) ∧
    (f.wd.toNat < 8 → f.wb.toNat < 8 → WritesBits 2 (.por c f w) c r (fun j => a (j / n) || b (j / n)) 0 w s) ∧
    (f.wd.toNat < 8 → f.wb.toNat < 8 → WritesBits 2 (.pxor c f w) c r (fun j => a (j / n) != b (j / n)) 0 w s) ∧
    (f.wd.toNat < 8 → f.wb = 0 → WritesBits 2 (.pnot c f w) c r (fun j => !a (j / n)) 0 w s) ∧
    (f.wb = 0 → WritesX 2 (.pcnt c f w) c f.wd
      (BitVec.ofNat 64 ((List.range (512 / n)).filter a).length) w s)) ∧
  (∀ (c : CoreId) (f : VR) (w : Companions) (s : State), f.etype.toNat ≤ 0xD → f.mod = 0 → f.pg = 0 → f.zm = 0 →
    f.wd.toNat < 8 → f.wb = 0 →
    WritesBits 2 (.plen c f w) c (BitVec.ofNat 3 f.wd.toNat)
      (fun j => decide (j / etypeBytes f.etype.toNat < ((s.core c).getX f.wa).toNat)) 0 w s)

/-- R76 to R79: VEACC and VESQ add the active elements, or their squares, exactly to lane i modulo 16; VEADD adds two
accumulators; VECLR clears one; all unless an input has no exact value or a lane would leave its range. R79: VERD
rounds lanes 0 to 15 once to nearest-even into FP32 or FP64 and writes 0 to the active elements above. The four that write
an accumulator take zm either way (the model's choice, log entry 142). -/
def Obligations.ExactAccumulation : Prop :=
  (∀ (c : CoreId) (f : VR) (w : Companions) (s : State), f.wd.toNat < 2 → f.mod = 0 → f.wb = 0 →
    let k := s.core c
    let t := f.etype.toNat
    let n := etypeBytes t
    let acc := fun r : BitVec 5 => k.getE (BitVec.ofNat 1 r.toNat)
    let d := BitVec.ofNat 1 f.wd.toNat
    let holds := fun (v : Vector (BitVec 576) 16) (g : Nat → Int) => ∀ j : Fin 16, (v[j]).toInt = g j
    let fits := fun g : Nat → Int => ∀ j, j < 16 → laneFits (g j) = true
    let active := (List.range (512 / n)).filter (fun i => (k.getP f.pg).getLsbD (i * n))
    let sums := fun (x : Nat → Int) (j : Nat) => ((acc f.wd)[j]?.getD 0).toInt + ((active.filter (· % 16 = j)).map x).sum
    (∀ x : Nat → Int, (t < 8 ∨ t = 0xA ∨ t = 0xC) → (∀ i ∈ active, exactInput t (lane n (k.getW f.wa) i) = some (x i)) →
      fits (sums x) → ∃ v, holds v (sums x) ∧ WritesE 1 (.veacc c f w) c d v w s) ∧
    (∀ x : Nat → Int, (t < 8 ∨ t = 0xA ∨ t = 0xC) → (∀ i ∈ active, exactSquare t (lane n (k.getW f.wa) i) = some (x i)) →
      fits (sums x) → ∃ v, holds v (sums x) ∧ WritesE 1 (.vesq c f w) c d v w s) ∧
    (t = 0 → f.pg = 0 → f.wa.toNat < 2 →
      let both := fun j => ((acc f.wd)[j]?.getD 0).toInt + ((acc f.wa)[j]?.getD 0).toInt
      fits both → ∃ v, holds v both ∧ WritesE 1 (.veadd c f w) c d v w s) ∧
    (t = 0 → f.pg = 0 → f.wa = 0 → WritesE 1 (.veclr c f w) c d (Vector.replicate 16 0) w s)) ∧
  (∀ (c : CoreId) (f : VR) (w : Companions) (s : State), f.etype = 0xC ∨ f.etype = 0xD → f.mod = 0 → f.wb = 0 →
    f.wa.toNat < 2 →
    let k := s.core c
    let n := etypeBytes f.etype.toNat
    let x : Nat → Int := fun j => laneInt ((k.getE (BitVec.ofNat 1 f.wa.toNat))[j]?.getD 0)
    let r : Nat → Rounded := fun j => (fmtOf f.etype.toNat).round 0 (decide (x j < 0)) (x j).natAbs (2 ^ 298)
    WritesLanes 1 (.verd c f w) c f n (fun j => if j < 16 then (r j).bits else 0) (fun j => if j < 16 then (r j).flags else 0)
      w s)

/-- R92 to R104: a selection keeps the best k: its entries stand in rank order, come from the candidates, number at
most k, and no candidate left out (of an index not selected) ranks before the last one. Table 2.7, Table 2.9: VTOPK
selects among the pairs of wd and the active new pairs, VMERGEK among two lists; the result list is padded to 64
pairs, and TOPKST takes the status, tie count and valid count. Table 8.1 (R202): VHASH writes the CRC-32C, xxHash64 or
Deckle hash of each active element under the seed element; a 32-bit element keeps the high half of a 64-bit hash. -/
def Obligations.SelectionAndHashes : Prop :=
  (∀ (kt k : Nat) (smallest : Bool) (xs : List Entry), kt ∈ [0x4, 0x5, 0x6, 0x7, 0xC, 0xD] →
    let r := select kt k smallest xs
    r.entries.length ≤ k ∧
    (∀ a ∈ r.entries, a ∈ xs ∧ a.idx ≠ padIndex ∧ keyNan kt a.key = false) ∧
    r.entries.Pairwise (fun a b => ranksBefore kt smallest a b = true ∧ a.idx ≠ b.idx) ∧
    (∀ x ∈ xs, x.idx ≠ padIndex → keyNan kt x.key = false → (∀ a ∈ r.entries, a.idx ≠ x.idx) →
      r.entries.length = k ∧ (r.conflict = false → ∀ a ∈ r.entries, ranksBefore kt smallest a x = true))) ∧
  (∀ (c : CoreId) (f : VR) (w : Companions) (s : State), f.etype.toNat ∈ [0x4, 0x5, 0xC] → f.mod.toNat < 2 → f.zm = 0 →
    let k := s.core c
    let t := f.etype.toNat
    let small := decide (f.mod.toNat = 1)
    let pairs := fun v : BitVec 4096 => (List.range 64).map (fun i =>
      ({ key := lane 4 v (2 * i), idx := lane 4 v (2 * i + 1) } : Entry))
    let new := ((List.range 128).filter (fun i => (k.getP f.pg).getLsbD (i * 4))).map (fun i =>
      ({ key := lane 4 (k.getW f.wa) i, idx := lane 4 (k.getW f.wb) i } : Entry))
    1 ≤ k.topkK.toNat → k.topkK.toNat ≤ 64 →
    let gives := fun (i : Instr) (r : Selection) => ∃ v, pairs v = padded t 64 small r.entries ∧
      Completes 2 [.w f.wd] { w := some (f.wd, v), topkst := some (BitVec.ofNat 64
        (r.status.toNat * 2 ^ 48 + r.ties % 2 ^ 24 * 2 ^ 24 + r.entries.length)) } i c w s
    gives (.vtopk c f w) (select t k.topkK.toNat small (pairs (k.getW f.wd) ++ new)) ∧
    (f.pg = 0 → gives (.vmergek c f w) (select t k.topkK.toNat small (pairs (k.getW f.wa) ++ pairs (k.getW f.wb))))) ∧
  (∀ (c : CoreId) (f : VR) (w : Companions) (s : State), f.etype.toNat ∈ [0x4, 0x5, 0x6, 0x7] →
    let k := s.core c
    let n := etypeBytes f.etype.toNat
    let m := fun i => leBytes n (lane n (k.getW f.wa) i)
    let seed := fun i => BitVec.ofNat 64 (lane n (k.getW f.wb) i)
    let keep := fun h : BitVec 64 => if n = 4 then h.toNat / 2 ^ 32 else h.toNat
    (f.mod = 0 → WritesLanes 2 (.vhash c f w) c f n
      (fun i => (crc32c (BitVec.ofNat 32 (lane n (k.getW f.wb) i)) (m i)).toNat) (fun _ => 0) w s) ∧
    (f.mod = 1 → WritesLanes 2 (.vhash c f w) c f n (fun i => keep (xxHash64 (seed i) (m i))) (fun _ => 0) w s) ∧
    (f.mod = 2 → WritesLanes 2 (.vhash c f w) c f n (fun i => keep (deckle64 (seed i) (m i))) (fun _ => 0) w s))

/-- Table 2.8, LD and LDS (R51): a load of 1, 2, 4 or 8 bytes delivers the bytes the core sees at base + offset ×
size, zero-extended by LD and sign-extended by LDS; no byte of memory changes. Table 2.8, VLD and PLD: VLD writes the
bytes whose predicate bit is set and leaves the others; PLD writes all 512 bits. Table 2.8, ELD: an accumulator takes
16 lanes of 72 bytes. Table 2.8, VGATHER: each active element with an index takes the bytes at rs1 + INT32 index ×
scale; elements without one (128 and up of 1- and 2-byte types) and inactive ones are unchanged. -/
def Obligations.Loads : Prop :=
  (∀ (c : CoreId) (f : MI) (w : Companions) (s : State),
    let n : Nat := 2 ^ f.sz.toNat
    let a := (BitVec.ofInt 64 (((s.core c).getX f.xb).toNat + f.off14.toInt * n)).toNat
    let v := leVal (s.seen c.vat a n)
    AccessOk s a n n → (ctxOf s c).poisoned a n = false →
    LoadsInto [.x f.xd] { x := some (f.xd, BitVec.ofNat 64 v) } (.ld c f w) c w s ∧
    LoadsInto [.x f.xd] { x := some (f.xd, if 2 ^ (8 * n - 1) ≤ v then BitVec.ofInt 64 (v - 2 ^ (8 * n)) else BitVec.ofNat 64 v) }
      (.lds c f w) c w s) ∧
  (∀ (c : CoreId) (f : MV) (w : Companions) (s : State),
    let k := s.core c
    let a := (BitVec.ofInt 64 ((k.getX f.xb).toNat + f.off13.toInt * 64)).toNat
    (AccessOk s a 512 64 → (ctxOf s c).poisoned a 512 = false →
      ∃ v, (∀ i, i < 512 → lane 1 v i = if (k.getP f.pg).getLsbD i then (s.seenByte c.vat (a + i)).toNat
          else lane 1 (k.getW f.wd) i) ∧
        LoadsInto [.w f.wd] { w := some (f.wd, v) } (.vld c f w) c w s) ∧
    (AccessOk s a 64 64 → (ctxOf s c).poisoned a 64 = false → f.pg = 0 → f.wd.toNat < 8 →
      ∃ v : BitVec 512, (∀ j, j < 512 → v.getLsbD j = (s.seenByte c.vat (a + j / 8)).getLsbD (j % 8)) ∧
        LoadsInto [.p (BitVec.ofNat 3 f.wd.toNat)] { p := some (BitVec.ofNat 3 f.wd.toNat, v) } (.pld c f w) c w s)) ∧
  (∀ (c : CoreId) (f : MX) (w : Companions) (s : State), f.rs2 = 0 → f.func = 0 → f.rd.toNat < 2 →
    let a := ((s.core c).getX f.rs1).toNat
    AccessOk s a 1152 64 → (ctxOf s c).poisoned a 1152 = false →
    ∃ v : Vector (BitVec 576) 16, (∀ j : Fin 16, (v[j]).toNat = leVal (s.seen c.vat (a + 72 * j) 72)) ∧
      LoadsInto [.e (BitVec.ofNat 1 f.rd.toNat)] { e := some (BitVec.ofNat 1 f.rd.toNat, v) } (.eld c f w) c w s) ∧
  (∀ (c : CoreId) (f : MX) (w : Companions) (s : State), f.func.toNat / 128 ≤ 0xD → f.func.toNat % 4 = 0 →
    let k := s.core c
    let n : Nat := etypeBytes (f.func.toNat / 128)
    let pg := BitVec.ofNat 3 (f.func.toNat / 4)
    let scale := [1, n, 64, 512][f.func.toNat / 32 % 4]?.getD 0
    let on := fun i => i < 128 && (k.getP pg).getLsbD (i * n)
    let a : Nat → Nat := fun i => (BitVec.ofInt 64 ((k.getX f.rs1).toNat + (BitVec.ofNat 32 (lane 4 (k.getW f.rs2) i)).toInt * scale)).toNat
    (∀ i, i < 512 / n → on i = true → AccessOk s (a i) n n ∧ (ctxOf s c).poisoned (a i) n = false) →
    ∃ v, (∀ i, i < 512 / n → lane n v i = if on i then leVal (s.seen c.vat (a i) n) else lane n (k.getW f.rd) i) ∧
      LoadsInto [.w f.rd] { w := some (f.rd, v) } (.vgather c f w) c w s)

/-- Table 2.8, ST, VST, PST and EST: the stored bytes are the register's at the computed address, VST's those whose
predicate bit is set; every other byte reads as before and no register changes. Table 2.8, VSCATTER: the active
elements with an index are stored in element order, so the highest wins. -/
def Obligations.Stores : Prop :=
  (∀ (c : CoreId) (f : MI) (g : MV) (h : MX) (w : Companions) (s : State),
    let k := s.core c
    let n : Nat := 2 ^ f.sz.toNat
    let a := (BitVec.ofInt 64 ((k.getX f.xb).toNat + f.off14.toInt * n)).toNat
    let b := (BitVec.ofInt 64 ((k.getX g.xb).toNat + g.off13.toInt * 64)).toNat
    let e := (k.getX h.rs1).toNat
    let bytes := fun (m v at' : Nat) => (List.range m).map (fun i => (at' + i, BitVec.ofNat 8 (v / 2 ^ (8 * i))))
    (AccessOk s a n n → StoreOk s c a n → StoresCells (bytes n (k.getX f.xd).toNat a) {} (.st c f w) c w s) ∧
    (AccessOk s b 512 64 → StoreOk s c b 512 →
      StoresCells ((bytes 512 (k.getW g.wd).toNat b).filter (fun x => (k.getP g.pg).getLsbD (x.1 - b))) {} (.vst c g w) c w s) ∧
    (AccessOk s b 64 64 → StoreOk s c b 64 → g.pg = 0 → g.wd.toNat < 8 →
      StoresCells (bytes 64 (k.getP (BitVec.ofNat 3 g.wd.toNat)).toNat b) {} (.pst c g w) c w s) ∧
    (AccessOk s e 1152 64 → StoreOk s c e 1152 → h.rs2 = 0 → h.func = 0 → h.rd.toNat < 2 →
      StoresCells ((List.range 16).flatMap (fun j =>
        bytes 72 ((k.getE (BitVec.ofNat 1 h.rd.toNat))[j]?.getD 0).toNat (e + 72 * j))) {} (.est c h w) c w s)) ∧
  (∀ (c : CoreId) (f : MX) (w : Companions) (s : State), f.func.toNat / 128 ≤ 0xD → f.func.toNat % 4 = 0 →
    let k := s.core c
    let n : Nat := etypeBytes (f.func.toNat / 128)
    let pg := BitVec.ofNat 3 (f.func.toNat / 4)
    let scale := [1, n, 64, 512][f.func.toNat / 32 % 4]?.getD 0
    let on := (List.range (512 / n)).filter (fun i => decide (i < 128) && (k.getP pg).getLsbD (i * n))
    let a : Nat → Nat := fun i => (BitVec.ofInt 64 ((k.getX f.rs1).toNat + (BitVec.ofNat 32 (lane 4 (k.getW f.rs2) i)).toInt * scale)).toNat
    (∀ i ∈ on, AccessOk s (a i) n n ∧ StoreOk s c (a i) n) →
    StoresCells (on.flatMap (fun i => cellsAt (a i) (leBytes n (lane n (k.getW f.rd) i)))) {} (.vscatter c f w) c w s)

/-- R44: SBIND binds the register to a marked descriptor: position 0, the record's base and extent, the direction
asked for. R45, R46, R425: SREAD of a bound read stream writes W and P and moves the stream; SSKIP moves the position,
clamped to the end; SPOS reads it; SCLOSE unbinds. R45, R115: SREAD of a byte-type stream that lies in memory delivers
whole elements in descriptor order, as many as are left up to 512 bytes, the predicate set for their bytes, zeros
beyond, and the position moved past them (the bytes are those the core sees while no other core's store is noted, R124).
R46, R127: SWRITE of such a write stream that has room stores the active elements in lane order and moves the position
past them; R126, R132: so do gather and bit-plane streams, with the cells or bits that their descriptor gives. -/
def Obligations.Streams : Prop :=
  (∀ (c : CoreId) (f : MS) (w : Companions) (s : State), f.imm14.toNat < 2 → f.pg = 0 →
    let a := (s.core c).getX f.reg
    let img := bytesToLine (s.seen c.vat a.toNat 64)
    let d := descOf img
    let write := decide (f.imm14.toNat = 1)
    AccessOk s a.toNat 64 64 → (ctxOf s c).poisoned a.toNat 64 = false →
    s.markGood img ((ctxOf s c).job img) = true → (write = true → d.writable = true) →
    LoadsInto [] { stream := some (f.sn,
      { desc := a, pos := 0, allocBase := BitVec.ofNat 64 (s.alloc d.alloc).base,
        allocExtent := BitVec.ofNat 64 (s.alloc d.alloc).extent, bound := true, write := write, plane := 0, image := img,
        index := [], since := s.free }) } (.sbind c f w) c w s) ∧
  (∀ (c : CoreId) (f : MS) (w : Companions) (s : State), f.imm14 = 0 → ((s.core c).getS f.sn).bound = true →
    let st := (s.core c).getS f.sn
    let d := (ctxOf s c).streamRead st
    let total := ((ctxOf s c).view st).count
    (st.write = false → d.stop = none →
      LoadsInto [.w f.reg, .p f.pg] { w := some (f.reg, d.data), p := some (f.pg, d.mask), stream := some (f.sn, d.stream) }
        (.sread c f w) c w s) ∧
    (st.write = false → f.pg = 0 →
      LoadsInto [] { stream := some (f.sn, { st with
        pos := BitVec.ofNat 64 (min total (st.pos.toNat + ((s.core c).getX f.reg).toNat)), plane := 0 }) } (.sskip c f w) c w s) ∧
    (f.pg = 0 → LoadsInto [.x f.reg] { x := some (f.reg, st.pos) } (.spos c f w) c w s) ∧
    (f.pg = 0 → f.reg = 0 → LoadsInto [] { stream := some (f.sn, Stream.unbound) } (.sclose c f w) c w s)) ∧
  (∀ (c : CoreId) (f : MS) (w : Companions) (s : State), f.imm14 = 0 →
    let k := s.core c
    let st := k.getS f.sn
    let d := descOf st.image
    let n : Nat := d.esize
    let shape := (List.range d.ndim).map d.size
    let count := shape.foldl (· * ·) 1
    let addr := fun i => ((d.addr : Int) + ((coordsOf (st.pos.toNat + i) shape).zipIdx.map (fun x => x.1 * d.stride x.2)).sum).toNat
    st.bound = true → d.bytes = true → d.gather = false →
    (let m := min (512 / n) (count - st.pos.toNat)
     st.write = false → (∀ i, i < m → AccessOk s (addr i) n 1 ∧ (ctxOf s c).poisoned (addr i) n = false) →
     (∀ x ∈ s.mem.stores, x.core = c) →
     ∃ (v : BitVec 4096) (mask : BitVec 512), (∀ j, j < 512 → mask.getLsbD j = decide (j < m * n)) ∧
       (∀ i, i < 512 / n → lane n v i = if i < m then leVal (s.seen c.vat (addr i) n) else 0) ∧
       LoadsInto [.w f.reg, .p f.pg] { w := some (f.reg, v), p := some (f.pg, mask),
                                       stream := some (f.sn, { st with pos := st.pos + BitVec.ofNat 64 m }) } (.sread c f w) c w s) ∧
    (let els := ((List.range (512 / n)).filter (fun i => (k.getP f.pg).getLsbD (i * n))).map (lane n (k.getW f.reg))
     st.write = true → d.planar = false → st.pos.toNat + els.length ≤ count →
     (∀ i, i < els.length → AccessOk s (addr i) n 1 ∧ StoreOk s c (addr i) n) →
     StoresCells (els.zipIdx.flatMap (fun x => cellsAt (addr x.2) (leBytes n x.1)))
       { stream := some (f.sn, { st with pos := st.pos + BitVec.ofNat 64 els.length }) } (.swrite c f w) c w s)) ∧
  (∀ (c : CoreId) (f : MS) (w : Companions) (s : State), f.imm14 = 0 → ((s.core c).getS f.sn).bound = true →
    ((s.core c).getS f.sn).write = true →
    let k := s.core c
    let st := k.getS f.sn
    let n : Nat := (descOf st.image).esize
    let els := ((List.range (512 / n)).filter (fun i => (k.getP f.pg).getLsbD (i * n))).map (lane n (k.getW f.reg))
    (∀ cells st' ls, (ctxOf s c).streamWrite st els = .ok (.cells cells, st', ls) →
      st'.pos = st.pos + BitVec.ofNat 64 els.length ∧ StoresCells cells { stream := some (f.sn, st') } (.swrite c f w) c w s) ∧
    (∀ bits st' ls, (ctxOf s c).streamWrite st els = .ok (.bits bits, st', ls) →
      st'.pos = st.pos + BitVec.ofNat 64 els.length ∧ StoresBits bits { stream := some (f.sn, st') } (.swrite c f w) c w s))

/-- R41, R54: AMOADD, AMOMAX, AMOSWAP and AMOCAS of 4 or 8 bytes replace the value at the memory side and deliver the
old one, zero-extended or, for AMOMAX, sign-extended. R41, R55: AMOFADD under UNORDERED_OK adds in FP32 or FP64 to
nearest-even and changes no flag. -/
def Obligations.AtomicOperations : Prop :=
  (∀ (c : CoreId) (f : MX) (w : Companions) (s : State), f.func = 2 ∨ f.func = 3 →
    let k := s.core c
    let n : Nat := if f.func = 2 then 4 else 8
    let a := (k.getX f.rs1).toNat
    let old := leVal ((s.invalLine c.vat (a / 64)).seen c.vat a n)
    let v := (k.getX f.rs2).toNat % 2 ^ (8 * n)
    let signed := fun x : Nat => if 2 ^ (8 * n - 1) ≤ x then (x : Int) - 2 ^ (8 * n) else x
    AccessOk s a n n → StoreOk s c a n → (ctxOf s c).poisoned a n = false →
    Atomic f n a ((old + v) % 2 ^ (8 * n)) (BitVec.ofNat 64 old) (.amoadd c f w) c w s ∧
    Atomic f n a (if signed v ≤ signed old then old else v) (BitVec.ofInt 64 (signed old)) (.amomax c f w) c w s ∧
    Atomic f n a v (BitVec.ofNat 64 old) (.amoswap c f w) c w s ∧
    Atomic f n a (if old = (k.getX f.rd).toNat % 2 ^ (8 * n) then v else old) (BitVec.ofNat 64 old) (.amocas c f w) c w s) ∧
  (∀ (c : CoreId) (f : MX) (w : Companions) (s : State), f.func.toNat < 2 → (ctxOf s c).unorderedOk = true →
    let k := s.core c
    let n : Nat := if f.func = 1 then 8 else 4
    let m := fmtOf (if f.func = 1 then 0xD else 0xC)
    let a := (k.getX f.rs1).toNat
    let old := leVal ((s.invalLine c.vat (a / 64)).seen c.vat a n)
    let v := (k.getX f.rs2).toNat % 2 ^ (8 * n)
    AccessOk s a n n → StoreOk s c a n → (ctxOf s c).poisoned a n = false →
    Atomic f n a (m.addVal 0 (m.decode old) (m.decode v)).bits (BitVec.ofNat 64 old) (.amofadd c f w) c w s)

/-- Table 2.8: FLUSH writes the Vat's dirty lines that overlap the range back and keeps the copies; INVAL drops the
copies too; PREF changes no byte. R48, R49: UNIT takes the lowest free ticket of the item's class and hands the block
to the unit; TPOLL and TWAIT report a completed ticket's status and free it; a TPOLL of a pending ticket gives all
ones and frees nothing. FLUSH takes func[0] = 1 as well (the model's choice, log entry 141), FLUSH and INVAL raise no fault
at any address (log entry 139), and an empty range overlaps no line (log entry 61). -/
def Obligations.CachesAndTickets : Prop :=
  (∀ (c : CoreId) (f : MX) (w : Companions) (s : State), f.rd = 0 → f.func.toNat < 2 →
    let a := ((s.core c).getX f.rs1).toNat
    let n : Nat := ((s.core c).getX f.rs2).toNat
    let inRange := fun l : Nat => 0 < n ∧ a < 64 * (l + 1) ∧ 64 * l < a + n
    let writesBack := fun t : State =>
      (∀ l x, inRange l → l2Find s.mem.l2 c.vat l = some x → x.dirty = true → t.mem.line l = x.data) ∧
      (∀ b, (∀ x, inRange (b / 64) → l2Find s.mem.l2 c.vat (b / 64) = some x → x.dirty = false) →
        t.mem.byte b = s.mem.byte b)
    (∀ es, OthersRun 3 [] c w s es → ∃ t, exec (.flush c f w) s = .next t ∧
      Written (s.core c) (t.core c) ({} :: es) ∧ SameOutside c s t ∧ writesBack t ∧
      (∀ l x, l2Find s.mem.l2 c.vat l = some x →
        l2Find t.mem.l2 c.vat l = some (if 0 < n ∧ a < 64 * (l + 1) ∧ 64 * l < a + n then { x with dirty := false } else x))) ∧
    (∀ es, OthersRun 3 [] c w s es → ∃ t, exec (.inval c f w) s = .next t ∧
      Written (s.core c) (t.core c) ({} :: es) ∧ SameOutside c s t ∧ writesBack t ∧
      (∀ l, l2Find t.mem.l2 c.vat l = if 0 < n ∧ a < 64 * (l + 1) ∧ 64 * l < a + n then none else l2Find s.mem.l2 c.vat l)) ∧
    (f.rs2 = 0 → LoadsInto [] {} (.pref c f w) c w s)) ∧
  (∀ (c : CoreId) (f : MX) (w : Companions) (s : State), f.rs2 = 0 →
    let k := s.core c
    let a := (k.getX f.rs1).toNat
    let lo := if k.cls = 0 then 24 else 0
    let hi := if k.cls = 0 then 31 else 23
    let mine := fun n : BitVec 5 => lo ≤ n.toNat ∧ n.toNat ≤ hi
    (∀ n, f.func.toNat ≤ 6 → AccessOk s a 64 1 → (ctxOf s c).poisoned a 64 = false → mine n → k.getT n = .free →
      (∀ m, mine m → k.getT m = .free → n.toNat ≤ m.toNat) →
      ∀ es, OthersRun 3 [.x f.rd] c w s es → ∃ t u, exec (.unit c f w) s = .next t ∧
        Written (s.core c) (t.core c) ({ x := some (f.rd, BitVec.ofNat 64 n.toNat), ticket := some (n, .pending) } :: es) ∧
        SameOutside c s t ∧ t.ports = s.ports ∧ BytesKept c (fun _ => False) s t ∧ t.units = s.units ++ [u] ∧
        u.unit = BitVec.ofNat 4 f.func.toNat ∧ u.core = c ∧ u.ticket = n ∧ u.block = s.seen c.vat a 64 ∧ u.item = k.item) ∧
    (∀ n st, f.func = 0 → k.getX f.rs1 = BitVec.ofNat 64 n → n < 32 → mine (BitVec.ofNat 5 n) →
      k.getT (BitVec.ofNat 5 n) = .complete st → st ≠ 0x0107 →
      LoadsInto [.x f.rd] { x := some (f.rd, BitVec.ofNat 64 st.toNat), ticket := some (BitVec.ofNat 5 n, .free) }
          (.tpoll c f w) c w s ∧
        LoadsInto [.x f.rd] { x := some (f.rd, BitVec.ofNat 64 st.toNat), ticket := some (BitVec.ofNat 5 n, .free) }
          (.twait c f w) c w s) ∧
    (∀ n, f.func = 0 → k.getX f.rs1 = BitVec.ofNat 64 n → n < 32 → mine (BitVec.ofNat 5 n) →
      k.getT (BitVec.ofNat 5 n) = .pending →
      LoadsInto [.x f.rd] { x := some (f.rd, BitVec.ofInt 64 (-1)) } (.tpoll c f w) c w s))

/-- R64 to R70: a class A item may take a core from a class B item, whose context area then holds the header and the registers of
Tables 2.13 and 2.14 in the Vat's caches; DONE of the class A item gives the core back with the registers, streams and tickets that
stand there, at the word of EPC, and clears VALID; run-ahead begins above RUNAHEAD_CYCLES and leaves no trace. R118 to R123: a creation port
checks a descriptor in the order of Table 5.3, writes it marked to DST, and SBIND takes it. -/
def Obligations.CoreSharingAndCreation : Prop :=
  (∀ (s : State) (c : CoreId) (it b : Item) (key : ItemKey), s.item? it.key = some it → it.cls = 0 →
    (it.phase = .created ∨ it.phase = .queued) → s.item? key = some b → b.key = key → it.key ≠ key → (s.core c).active = true →
    (s.core c).firmware = false → (s.core c).itemClass = 1 → (s.core c).finishing = none → (s.core c).preempted = none →
    (s.core c).item = some key → s.hb.pull = false → it.avoidCore ≠ some c → it.avoidDie ≠ some (vatDie c.vat) →
    it.avoidVat ≠ some c.vat →
    (s.cores.filter (fun e => e.2.preempted.isSome)).length < s.furn 0x481005 128 →
    ∃ t, exec (.preemptRequest c it.key.flow it.key.seq) s = .next t ∧ (t.core c).preempted = some key ∧
      (t.core c).item = some it.key ∧ (t.core c).active = true ∧ (t.core c).runahead = false ∧
      (t.core c).pc = BitVec.ofNat 64 it.entry ∧ (t.core c).itemPtr = BitVec.ofNat 64 it.ptr ∧
      (∀ r, (t.core c).getX r = 0) ∧
      (∀ n, (t.core c).getT n = if 24 ≤ n.toNat then .free else (s.core c).getT n) ∧ (∀ d, d ≠ c → t.core d = s.core d) ∧
      t.item? key = some { b with phase := .preempted } ∧
      (∃ i, t.item? it.key = some i ∧ i.phase = .running ∧ i.core = some c) ∧ t.modVal 0x30000D 0 = s.modVal 0x30000D 0 + 1 ∧
      (t.core c).kept = (s.core c).st ∧
      (let a := contextArea c
       (∀ r ∈ (it.ptr, 256 * itemSlots it.inputs.length) :: s.argBlock it :: it.inputs.map (fun i => (i.addr, i.bytes)),
         r.1 + r.2 ≤ a ∨ a + 0x5100 ≤ r.1) →
       let h := t.seen c.vat a 64
       t.seen c.vat (a + 0x40) 20672 = (s.core c).context ∧ fieldAt h 0 2 = 1 ∧ fieldAt h 2 2 = 1 ∧
       fieldAt h 4 4 = key.flow.toNat ∧ fieldAt h 8 8 = key.seq.toNat ∧ fieldAt h 0x10 8 = (s.core c).pc.toNat ∧
       fieldAt h 0x18 8 = b.ptr % 2 ^ 64 ∧ fieldAt h 0x20 4 = (s.core c).itemCycles.toNat ∧
       fieldAt h 0x38 4 = (crc32c 0 (s.core c).context).toNat ∧
       ∀ i, i < 324 → ∃ x, l2Find t.mem.l2 c.vat (a / 64 + i) = some x ∧ x.dirty = true)) ∧
  (∀ (u : State) (c : CoreId) (f : SR) (w : Companions) (es : List Effect) (k : Core) (i b : Item) (j : Job),
    let a := contextArea c
    let h := u.seen c.vat a 64
    (u.core c).firmware = false → (u.core c).itemClass = 0 → (u.core c).item = some i.key → (u.core c).preempted = some b.key →
    u.item? i.key = some i → u.item? b.key = some b → i.key ≠ b.key → b.phase = .preempted → i.cls = 0 → i.reply ≠ .none →
    u.job? i.job = some j → j.stopped = none → i.key ∈ u.hb.winItems → (i.out + i.outBytes ≤ a ∨ a + 0x5100 ≤ i.out) →
    (u.core c).kept = k.st → u.seen c.vat (a + 0x40) 20672 = k.context → fieldAt h 2 2 = 1 →
    fieldAt h 0x38 4 = (crc32c 0 k.context).toNat →
    (∀ i, i < 324 → ∃ x, l2Find u.mem.l2 c.vat (a / 64 + i) = some x ∧ x.dirty = true) →
    f.imm10 = 0 → f.xd = 0 → f.xs2 = 0 → ((u.core c).getX f.xs1).setWidth 16 = (0 : BitVec 16) →
    (∀ n : BitVec 5, 24 ≤ n.toNat → (u.core c).getT n = .free) → OthersRun 0 [] c w u es →
    (∀ e ∈ es, e.ticket = none ∧ e.acts = []) →
    ∃ t, exec (.done c f w) u = .next t ∧
      let r := t.core c
      r.active = true ∧ r.item = some b.key ∧ r.preempted = none ∧ r.itemClass = b.cls ∧
      r.pc = BitVec.ofNat 64 (fieldAt h 0x10 8) ∧ r.itemPtr = BitVec.ofNat 64 (fieldAt h 0x18 8) ∧
      r.itemCycles = BitVec.ofNat 32 (fieldAt h 0x20 4) ∧ (∀ n, r.getX n = k.getX n) ∧ r.w = k.w ∧ r.p = k.p ∧ r.e = k.e ∧
      r.fpctl = k.fpctl ∧ r.fpflags = k.fpflags ∧ r.topkK = k.topkK ∧ r.topkst = k.topkst ∧
      (∀ n, (k.getS n).bound = true → r.getS n = k.getS n) ∧ (∀ n, (r.getS n).bound = (k.getS n).bound) ∧
      (∀ n : BitVec 5, n.toNat < 24 → r.getT n = (u.core c).getT n) ∧
      t.item? b.key = some { b with phase := .running, core := some c } ∧ (∃ x, t.item? i.key = some x ∧ x.phase = .accepted) ∧
      fieldAt (t.seen c.vat a 64) 2 2 = 0 ∧ ∀ d, d ≠ c → t.core d = u.core d) ∧
  (∀ (s : State) (c : CoreId) (k k0 : Core),
    let r := s.restore c k0 k.context
    (∀ i, r.getX i = k.getX i) ∧ r.w = k.w ∧ r.p = k.p ∧ r.e = k.e ∧ r.fpctl = k.fpctl ∧ r.fpflags = k.fpflags ∧
    r.topkK = k.topkK ∧ r.topkst = k.topkst ∧
    (k0.kept = k.st → ∀ i, (k.getS i).bound = true → r.getS i = k.getS i) ∧
    ∀ i, (r.getS i).pos = (k.getS i).pos ∧ (r.getS i).bound = (k.getS i).bound ∧ (r.getS i).write = (k.getS i).write ∧
      (r.getS i).plane = (k.getS i).plane ∧ (r.getS i).allocBase = (k.getS i).allocBase ∧
      (r.getS i).allocExtent = (k.getS i).allocExtent ∧ ((k.getS i).bound = true → (r.getS i).desc = (k.getS i).desc)) ∧
  (∀ (s : State) (c : CoreId) (waited : Nat),
    let k := s.core c
    (k.active = true → k.finishing = none → s.furn 0x340001 32 ≠ 0 → s.furn 0x340001 32 < waited →
      exec (.runaheadEntry c waited) s = .next (s.setCore c { k with runahead := true })) ∧
    (k.runahead = true → exec (.runaheadExit c) s = .next (s.setCore c { k with runahead := false }))) ∧
  (∀ (s : State) (vat : BitVec 6) (core : BitVec 5) (ctrl : BitVec 32), core.toNat < 17 →
    let n := 32 * vat.toNat + core.toNat
    let w := s.port n
    let a := s.alloc (descOf w.draft).alloc
    let index := bytesToLine (s.seen vat (descOf w.draft).idxref 64)
    let dst := w.dst.toNat
    let only := fun t : State => (∀ m, m ≠ n → t.port m = s.port m) ∧ t = { s with ports := t.ports, mem := t.mem }
    w.stat.getLsbD 31 = false →
    (ctrl ≠ 1 → ∃ t, exec (.descCreate vat core ctrl) s = .next t ∧ only t ∧ t.mem = s.mem ∧ t.port n = { w with ctrl := ctrl }) ∧
    (∀ code, s.descCheck w.draft a.job index = some code → ∃ t, exec (.descCreate vat core 1) s = .next t ∧ only t ∧
      t.mem = s.mem ∧ t.port n = { w with ctrl := 1, stat := code.setWidth 32 }) ∧
    (s.descCheck w.draft a.job index = none → dst % 64 = 0 →
      s.hb.allocs.any (fun e => e.2.live && e.2.rw && e.2.job = a.job && e.2.base ≤ dst && dst + 64 ≤ e.2.base + e.2.extent) = true →
      ∃ t d, exec (.descCreate vat core 1) s = .next t ∧ only t ∧ t.port n = { w with ctrl := 1, stat := 0 } ∧
        StoredInVat { vat := vat, core := 0 } [(dst, lineToBytes d)] s t ∧ d.extractLsb' 0 480 = w.draft.extractLsb' 0 480 ∧
        (a.live = true → s.markGood d a.job = true)))

/-- R81 to R84: MERGE writes the lane sums of its sources (and of DST under ACCUMULATE), folded into lane 0 under
FOLD, or completes with 0x0183 and writes nothing when a lane leaves its range; STATS writes each lane's mean,
variance and deviation rounded once and its count, or completes with 0x0185 when a lane cannot come from values and
their squares. That the unit reads and writes at the memory side, the Vat's dirty lines visible to it, is read from R57 and
R206 (log entry 65). -/
def Obligations.MergeUnit : Prop :=
  ∀ (s : State) (u : UnitCmd) (vat : BitVec 6) (flags n list sums squares counts dst : Nat), Awaits s u → NoErrors s →
    let v := u.core.vat
    let lane := fun (a j : Nat) => (BitVec.ofNat 576 (leVal (s.sideBytes v (a + 72 * j) 72))).toInt
    let fits := fun x : Int => -(2 ^ 575 : Int) ≤ x ∧ x < 2 ^ 575
    let none' : Nat → Nat := fun _ => 0
    (let addr := fun i => leVal (s.sideBytes v (list + 8 * i) 8)
     let all := (List.range n).map addr ++ (if flags % 2 = 1 then [dst] else [])
     let sum := fun j => (all.map (fun a => lane a j)).sum
     let out := fun (j : Nat) => if flags / 4 = 1 then (if j = 0 then ((List.range 16).map sum).sum else 0) else sum j
     NextCmd s 5 vat.toNat 1 u → u.block = record 64 [(0, 1, 1), (1, 1, flags), (2, 2, n), (8, 8, list), (0x20, 8, dst)] →
     flags ∈ [0, 1, 4, 5] → 1 ≤ n → n ≤ 4096 → dst % 64 = 0 → s.plainRange list (8 * n) = true →
     s.plainRange dst 1152 = true → (∀ i, i < n → addr i % 64 = 0 ∧ s.plainRange (addr i) 1152 = true) →
     ((∀ j, j < 16 → fits (sum j) ∧ fits (out j)) → Runs true (.merge vat) s u 0
       [(dst, (List.range 16).flatMap (fun j => leBytes 72 (BitVec.ofInt 576 (out j)).toNat))] none') ∧
     ((∃ j, j < 16 ∧ ¬ (fits (sum j) ∧ fits (out j))) → Runs true (.merge vat) s u 0x0183 [] none')) ∧
    (let count := fun j => leVal (s.sideBytes v (counts + 8 * j) 8)
     let d := fun j => count j - flags / 2
     let x := lane sums
     let y := lane squares
     let q := fun j => (count j : Int) * y j * 2 ^ 298 - x j * x j
     let f64 := fmtOf 0xD
     let f32 := fmtOf 0xC
     NextCmd s 5 vat.toNat 2 u → u.block = record 64 [(0, 1, 2), (1, 1, flags), (8, 8, sums), (0x10, 8, squares),
       (0x18, 8, counts), (0x20, 8, dst)] → flags ∈ [0, 2] → sums % 64 = 0 → squares % 64 = 0 → counts % 8 = 0 → dst % 64 = 0 →
     s.plainRange sums 1152 = true → s.plainRange squares 1152 = true → s.plainRange counts 128 = true →
     s.plainRange dst 512 = true →
     ((∀ j, j < 16 → 1 ≤ d j ∧ 0 ≤ y j ∧ 0 ≤ q j) → Runs true (.stats vat) s u 0 [(dst, (List.range 16).flatMap (fun j =>
       leBytes 8 (f64.round 0 (decide (x j < 0)) (x j).natAbs (count j * 2 ^ 298)).bits ++
       leBytes 8 (f64.round 0 false (q j).natAbs (count j * d j * 2 ^ 596)).bits ++
       leBytes 4 (f32.round 0 (decide (x j < 0)) (x j).natAbs (count j * 2 ^ 298)).bits ++
       leBytes 4 (f32.roundSqrt (q j).natAbs (count j * d j * 2 ^ 596)).bits ++ leBytes 8 (count j)))] none') ∧
     ((∃ j, j < 16 ∧ 1 ≤ count j ∧ (y j < 0 ∨ q j < 0)) → Runs true (.stats vat) s u 0x0185 [] none'))

/-- R86 to R91: a Sizing command converts COUNT elements one by one and reports NaN inputs; ZSCORE is (x − A) ÷ B,
MINMAX (x − A) ÷ (B − A), both 0 for a zero width, and CLIP bounds x by C and D, each exact before one rounding. How
near LOG1P's value is to the logarithm is the model's choice (log entry 40), and so is the sign of a zero (log entry
63); neither is stated here. That the unit works through its Vat's caches is a reading of the model (log entry 65). -/
def Obligations.SizingUnit : Prop :=
  (∀ (s : State) (u : UnitCmd) (vat : BitVec 6) (mode tin tout flags n src dst : Nat) (p : SizingParams) (fill : SizedQuot)
      (rest : Bytes), Awaits s u → NoErrors s → NextCmd s 2 vat.toNat mode u →
    u.block = record 24 [(0, 1, mode), (1, 1, tin), (2, 1, tout), (3, 1, flags), (4, 4, n), (8, 8, src), (0x10, 8, dst)] ++ rest →
    rest.length = 40 → allZero (rest.drop 0x14) = true → sizingParams u = some (p, fill) → mode < 4 →
    tin ∈ [0, 1, 2, 3, 4, 5, 0xA, 0xB, 0xC] → tout ∈ [8, 9, 0xA, 0xB, 0xC] → flags < 16 → (8 ≤ flags → mode = 2) →
    1 ≤ n → n ≤ 16777216 →
    let wi := etypeBytes tin
    let wo := etypeBytes tout
    src % wi = 0 → dst % wo = 0 → s.plainRange src (wi * n) = true → s.plainRange dst (wo * n) = true →
    let elem := fun i => sizingElem mode tin tout flags p fill (leVal (s.seen u.core.vat (src + wi * i) wi))
    ∀ i ∈ [(0, Instr.zscore vat), (1, .minmax vat), (2, .log1p vat), (3, .clip vat)], i.1 = mode →
      Runs false i.2 s u (if (List.range n).any (fun j => (elem j).2) then 0x04F4 else 0)
        [(dst, (List.range n).flatMap (fun j => leBytes wo (elem j).1))] (fun _ => 0)) ∧
  (∀ (p : SizingParams) (signed : Bool) (v : SizedQuot), 0 < v.den → 0 < p.a.den → 0 < p.b.den → 0 < p.c.den →
    0 < p.d.den →
    let q := fun x : SizedQuot => (x.num : ℚ) / x.den
    let x := q v
    let gives := fun (mode : Nat) (y : ℚ) => ∃ r, 0 < r.den ∧ sizingValue mode signed p (.val v) = .val r ∧ q r = y
    (0 ≤ p.b.num → gives 0 (if q p.b = 0 then 0 else (x - q p.a) / q p.b)) ∧
    (q p.a ≤ q p.b → gives 1 (if q p.b = q p.a then 0 else (x - q p.a) / (q p.b - q p.a))) ∧
    (q p.c ≤ q p.d → gives 3 (min (max x (q p.c)) (q p.d))))

/-- R105 to R110: TOPK writes the best K of its source, MERGE the best K of the entries of its lists, SORT every entry
in rank order; the result record holds the status, the number of entries, the ties cut off and the NaN keys left out. That
the unit works through its Vat's caches is a reading of the model (log entry 65), and the low 32 bits of a larger sum of
ties are its choice (log entry 159). -/
def Obligations.SortUnit : Prop :=
  ∀ (s : State) (u : UnitCmd) (unit : BitVec 4) (kt flags k n base src dst result extra : Nat), Awaits s u → NoErrors s →
    let vat := u.core.vat
    let w := if flags / 2 = 1 then keyBytes kt else if keyBytes kt = 4 then 8 else 16
    let e := if keyBytes kt = 4 then 8 else 16
    let small := decide (flags % 2 = 1)
    let at' := fun a => ({ key := leVal (s.seen vat a (keyBytes kt)), idx := leVal (s.seen vat (a + keyBytes kt) 4) } : Entry)
    let one := fun i => if flags / 2 = 1 then ({ key := leVal (s.seen vat (src + w * i) w), idx := base + i } : Entry)
      else at' (src + e * i)
    let addr := fun i => leVal (s.seen vat (src + 8 * i) 8)
    let good := fun (ranges : List (Nat × Nat)) (m : Nat) => dst % e = 0 ∧ result % 16 = 0 ∧ s.plainRange dst (e * m) = true ∧
      s.plainRange result 16 = true ∧ overlaps dst (e * m) result 16 = false ∧
      ∀ r ∈ ranges, s.plainRange r.1 r.2 = true ∧ overlaps dst (e * m) r.1 r.2 = false
    let gives := fun (i : Instr) (m : Nat) (r : Selection) (ties : Nat) => Runs false i s u r.status
      [(dst, (padded kt m small r.entries).flatMap (Entry.bytes kt)),
       (result, record 16 [(0, 2, r.status.toNat), (4, 4, r.entries.length), (8, 4, ties), (0xC, 4, r.nans)])] (fun _ => 0)
    kt ∈ [0x4, 0x5, 0x6, 0x7, 0xC, 0xD] → flags < 4 →
    (let xs := (List.range n).map one
     (flags / 2 = 1 → base + n ≤ 0xFFFFFFFF) → (flags / 2 = 0 → base = 0) → 1 ≤ n → src % w = 0 →
     (NextCmd s 4 unit.toNat 1 u → u.block = record 64 [(0, 1, 1), (1, 1, kt), (2, 1, flags), (4, 2, k), (8, 4, n), (0xC, 4, base),
         (0x10, 8, src), (0x18, 8, dst), (0x20, 8, result)] → n < 2 ^ 32 → 1 ≤ k → k ≤ 4096 → good [(src, w * n)] k →
       gives (.topk unit) k (select kt k small xs) (select kt k small xs).ties) ∧
     (NextCmd s 4 unit.toNat 3 u → u.block = record 64 [(0, 1, 3), (1, 1, kt), (2, 1, flags), (8, 4, n), (0xC, 4, base),
         (0x10, 8, src), (0x18, 8, dst), (0x20, 8, result)] → n ≤ 16777216 → good [(src, w * n)] n →
       ∃ es, es.Perm (xs.filter (fun x => x.idx ≠ padIndex && !keyNan kt x.key)) ∧
         es.Pairwise (fun a b => ranksBefore kt small a b = true) ∧
         let nans := (xs.filter (fun x => x.idx ≠ padIndex && keyNan kt x.key)).length
         gives (.sort unit) n { entries := es, ties := 0, nans := nans, conflict := false } 0)) ∧
    (let xs := (List.range n).flatMap (fun i => (List.range k).map (fun j => at' (addr i + e * j)))
     let r := select kt k small xs
     let kth := fun i => (at' (addr i + e * (k - 1))).key
     NextCmd s 4 unit.toNat 2 u → u.block = record 64 [(0, 1, 2), (1, 1, kt), (2, 1, flags), (4, 2, k), (6, 2, n),
       (0x10, 8, src), (0x18, 8, dst), (0x20, 8, result), (0x28, 8, extra)] → flags < 2 → 2 ≤ n → n ≤ 1024 → 1 ≤ k → k ≤ 4096 →
     src % 8 = 0 → extra % 8 = 0 → (∀ i, i < n → addr i % e = 0) →
     good ((src, 8 * n) :: (if extra = 0 then [] else [(extra, 16 * n)]) ++ (List.range n).map (fun i => (addr i, e * k))) k →
     gives (.sortMerge unit) k r (r.ties + (if extra = 0 then 0 else match r.entries.getLast? with
       | some l => if r.entries.length < k then 0 else ((List.range n).filter (fun i =>
           leVal (s.seen vat (extra + 16 * i + 4) 4) = k && keyOrd kt (kth i) = keyOrd kt l.key)).map
             (fun i => leVal (s.seen vat (extra + 16 * i + 8) 4)) |>.sum
       | none => 0)))

/-- R207 to R212: HASHX hashes each row's key, or gives the null value and reports it; BUCKET counts the boundaries at
or below each value; QHIST counts values by the high half of their key, and NaNs and nulls apart; QPICK writes the
boundary of the bin in which each rank falls, equal ones once. The bits of HASHX's output bitmap beyond COUNT are zero (a
reading of the model, log entry 120). -/
def Obligations.CalenderKeys : Prop :=
  ∀ (s : State) (u : UnitCmd) (vat : BitVec 6), Awaits s u → NoErrors s →
    let v : CalView := { s := s, vat := u.core.vat, cmd := u }
    let counts := fun k : Nat => if k = 0x442002 then 1 else 0
    let free := fun reads writes : List (Nat × Nat) => s.plainAll (reads ++ writes) = true ∧
      ∀ w ∈ writes, ∀ r ∈ reads, overlaps w.1 w.2 r.1 r.2 = false
    let col := columnAt (v.bytes v.cols 32) 0
    let isNull := fun (c : Column) (i : Nat) => v.present c i = false ∨ (c.numeric = true ∧ elemNan c.typ (leVal (v.value c i)) = true)
    let one := 1 ≤ v.count ∧ v.count ≤ 16777216 ∧ v.cols % 32 = 0 ∧ v.dst % 64 = 0 ∧ v.blockBad = false
    (let part := fun (i : Nat) (c : Column) =>
       let b := v.value c i
       if c.numeric then leBytes c.esize (elemPlus c.typ (leVal b))
       else if c.isVar && decide (1 < v.ncol) then leBytes 4 b.length ++ b else b
     let nul := fun i => ∃ c ∈ v.columns, isNull c i
     let w := if v.p1 = 0 then 8 else 4
     NextCmd s 1 vat.toNat 1 u → one → v.flags < 3 → 1 ≤ v.ncol → v.ncol ≤ 4 → v.p1 ≤ 2 ^ 32 →
     v.columnReject (fun _ => true) 1 = none →
     free v.columnReads ((v.dst, w * v.count) :: (if v.aux = 0 then [] else [(v.aux, ceilDiv v.count 8)])) →
     ∃ (st : BitVec 16) (out bits : Bytes), out.length = w * v.count ∧ bits.length = ceilDiv v.count 8 ∧
       (∀ i, i < v.count → (nul i → (out.drop (w * i)).take w = leBytes w v.p2) ∧
         (¬ nul i → (out.drop (w * i)).take w = leBytes w (hashOut v.flags v.p1 v.seed (v.columns.flatMap (part i))))) ∧
       (∀ i, (bits[i / 8]?.getD 0).getLsbD (i % 8) = true ↔ i < v.count ∧ ¬ nul i) ∧
       (st = 0x0430 ∧ (∃ i, i < v.count ∧ nul i) ∨ st = 0 ∧ ∀ i, i < v.count → ¬ nul i) ∧
       Runs true (.hashx vat) s u st ((v.dst, out) :: (if v.aux = 0 then [] else [(v.aux, bits)])) counts) ∧
    (let nb := v.p1 % 65536
     let tb := v.p1 / 65536
     let wb := etypeBytes tb
     let bounds := (List.range nb).map (fun j => v.nat (v.aux + wb * j) wb)
     NextCmd s 1 vat.toNat 2 u → one → v.flags = 0 → v.ncol = 1 → 1 ≤ nb → tb ≤ 0xD → v.seed = 0 →
     v.columnReject (·.numeric) 1 = none → tb = boundaryType col.typ →
     free (v.columnReads ++ [(v.aux, nb * wb)]) [(v.dst, 4 * v.count)] → boundsBad tb bounds = false →
     ∃ (st : BitVec 16) (out : Bytes), out.length = 4 * v.count ∧
       (∀ i, i < v.count → (isNull col i → (out.drop (4 * i)).take 4 = leBytes 4 v.p2) ∧
         (¬ isNull col i → fieldAt out (4 * i) 4 =
           (bounds.filter (atLeast col.typ (leVal (v.value col i)) tb)).length)) ∧
       (st = 0x0430 ∧ (∃ i, i < v.count ∧ isNull col i) ∨ st = 0 ∧ ∀ i, i < v.count → ¬ isNull col i) ∧
       Runs true (.bucket vat) s u st [(v.dst, out)] counts) ∧
    (let slot := fun i => if v.present col i = false then 65537
       else if elemNan col.typ (leVal (v.value col i)) then 65536 else histKey col.typ (leVal (v.value col i)) / 65536
     let old := fun k => if v.flags = 4 then v.nat (v.dst + 8 * k) 8 else 0
     NextCmd s 1 vat.toNat 3 u → one → (v.flags = 0 ∨ v.flags = 4) → v.ncol = 1 → v.aux = 0 → v.p1 = 0 → v.p2 = 0 → v.seed = 0 →
     v.columnReject (fun c => [0x4, 0x5, 0xA, 0xB, 0xC].contains c.typ) 1 = none → free v.columnReads [(v.dst, 524352)] →
     ∃ out : Bytes, out.length = 524352 ∧
       (∀ k, k < 65538 → fieldAt out (8 * k) 8 = (old k + ((List.range v.count).filter (fun i => slot i = k)).length) % 2 ^ 64) ∧
       Runs true (.qhist vat) s u 0 [(v.dst, out)] counts) ∧
    (let t := v.p1
     let bins := (List.range 65536).map (fun k => v.nat (v.cols + 8 * k) 8)
     let ranks := (List.range v.count).map (fun j => v.nat (v.aux + 8 * j) 8)
     NextCmd s 1 vat.toNat 4 u → v.blockBad = false → v.flags = 0 → v.ncol = 0 → 1 ≤ v.count → v.count ≤ 65535 →
     t ∈ [0x4, 0x5, 0xC] → v.p2 = 0 → v.seed = 0 → v.dst % 64 = 0 → 0 < bins.sum →
     (∀ r ∈ ranks, 1 ≤ r ∧ r ≤ bins.sum) → ranks.Pairwise (· ≤ ·) →
     ∃ bs : List Nat, bs.length = v.count ∧
       (∀ (j b r : Nat), bs[j]? = some b → ranks[j]? = some r → (bins.take b).sum < r ∧ r ≤ (bins.take (b + 1)).sum) ∧
       let kept := onceEach (bs.map (binValue t))
       (free [(v.cols, 524352), (v.aux, 8 * v.count)] [(v.dst, 64 + 4 * kept.length)] →
         Runs true (.qpick vat) s u (if kept.length < v.count then 0x0433 else 0)
           [(v.dst, leBytes 4 kept.length ++ zeros 60 ++ kept.flatMap (leBytes 4))] counts))

/-- R214 to R218: ASSEMBLE writes each row's fields at their offsets, the validity word, and zeros elsewhere, and
reports a value that was cut; SEAL writes a batch's header, row bitmap and broke list, the header's CRC covering all
of the batch. -/
def Obligations.CalenderRows : Prop :=
  ∀ (s : State) (u : UnitCmd) (vat : BitVec 6), Awaits s u → NoErrors s →
    let v : CalView := { s := s, vat := u.core.vat, cmd := u }
    let free := fun reads writes : List (Nat × Nat) => s.plainAll (reads ++ writes) = true ∧
      ∀ w ∈ writes, ∀ r ∈ reads, overlaps w.1 w.2 r.1 r.2 = false
    let l := layoutOf (v.bytes v.aux (16 + 8 * v.nat (v.aux + 2) 2))
    let cs := v.columns
    v.blockBad = false → v.flags = 0 → v.seed = 0 → v.p2 = 0 → v.dst % 64 = 0 →
    (NextCmd s 1 vat.toNat 5 u → 1 ≤ v.ncol → v.ncol ≤ 64 → 1 ≤ v.count → v.count ≤ 65536 → v.p1 = 0 → v.cols % 32 = 0 →
     v.nat (v.aux + 2) 2 ≤ 256 → v.columnReject (fun _ => true) 4096 = none → l.aligned = true → l.bad = false →
     (∀ f ∈ l.fields, f.colBad cs = false) →
     free (v.columnReads ++ [(v.aux, 16 + 8 * l.nfield)]) [(v.dst, v.count * l.rowBytes)] →
     ∃ rows : List Bytes, rows.length = v.count ∧
       (∀ i row, rows[i]? = some row → row.length = l.rowBytes ∧
         (∀ f ∈ l.fields, (row.drop f.off).take f.bytes = (v.fieldBytes cs i f).1) ∧
         (l.validOff ≠ 0xFFFF → fieldAt row l.validOff 8 = v.validWord cs l i) ∧
         (∀ j, j < l.rowBytes → (∀ p ∈ l.places, j < p.1 ∨ p.1 + p.2 ≤ j) → row[j]? = some 0)) ∧
       Runs true (.assemble vat) s u
         (if (List.range v.count).any (fun i => l.fields.any (fun f => (v.fieldBytes cs i f).2)) then 0x0431 else 0)
         [(v.dst, rows.flatten)] (fun k => if k = 0x442002 then 1 else 0)) ∧
    (let rows := v.p1
     let cap := s.furn 0x442001 1024
     let l := layoutOf (v.bytes v.aux 16)
     let p := batchPlan rows cap l.rowBytes
     let xs := (List.range v.count).map (attachmentAt (v.bytes v.cols (24 * v.count)))
     NextCmd s 1 vat.toNat 6 u → v.ncol = 0 → v.count ≤ 1048576 → (v.count = 0 → v.cols = 0) → 1 ≤ rows → rows ≤ 1048576 →
     (∀ a ∈ xs, a.rsv = 0 ∧ (a.row < rows ∨ a.row = 0xFFFFFFFF)) → l.sizesGood = true →
     free [(v.cols, 24 * v.count), (v.aux, 16), (v.dst + p.rows, p.total - p.rows)] [(v.dst, p.rows)] →
     ∃ (recs : List Attachment) (bits body : Bytes),
       recs.Pairwise (fun a b => a.ordinal < b.ordinal) ∧ (∀ a ∈ recs, a ∈ xs) ∧ (∀ x ∈ xs, ∃ a ∈ recs, a.ordinal = x.ordinal) ∧
       (∀ a ∈ recs, ∀ x ∈ xs, x.ordinal = a.ordinal → a.code < x.code ∨ (a.code = x.code ∧ a.count ≤ x.count)) ∧
       (∀ i, (bits[i / 8]?.getD 0).getLsbD (i % 8) = true ↔ i < rows ∧ ∃ a ∈ xs, a.row = i) ∧
       body = bits ++ zeros (p.list - 0x100 - bits.length) ++ (recs.take cap).flatMap Attachment.bytes ++
         zeros (p.rows - p.list - 16 * (recs.take cap).length) ∧
       let head := ((s.sealStamp u).header rows recs.length (recs.take cap).length (decide (cap < recs.length)) p l).take 0xFC
       let crc := crc32c 0 (head ++ body ++ v.bytes (v.dst + p.rows) (p.total - p.rows))
       let st : BitVec 16 := if attachConflict xs then 0x0434 else if cap < recs.length then 0x0435 else 0
       Runs true (.seal vat) s u st [(v.dst + 0x100, body), (v.dst, head ++ leBytes 4 crc.toNat)]
         (fun k => if k = 0x442002 ∨ k = 0x442003 then 1 else 0))

/-- R253 to R258, R261, R263, R264, R266: a SEARCH writes one result record per string and the emit records in string
order; LOAD puts a set into COPIES banks of every die, UPDATE changes the named entries, UNLOAD frees the banks, and a
retired bank holds nothing. WM_SEARCHES counts one for each command (log entry 76), an UPDATE takes effect in one step (log
entry 147), and the search works through its Vat's caches (log entry 65): readings and choices of the model. -/
def Obligations.WatermarkSets : Prop :=
  (∀ (s : State) (u : UnitCmd) (die : BitVec 2) (id src n copies : Nat) (x : WmSet), Awaits s u → NoErrors s →
    let vat := u.core.vat
    let admin := fun (op : Nat) (fs : List (Nat × Nat × Nat)) => NextCmd s 3 die.toNat op u ∧ u.cls = 2 ∧ 1 ≤ id ∧ id ≤ 0xFF ∧
      u.block = record 64 ((0, 1, op) :: (2, 2, id) :: fs)
    let key : BitVec 16 := BitVec.ofNat 16 id
    let done := fun (t : State) => Reported s t u 0 ∧
      t = { s with units := t.units, cores := t.cores, wm := t.wm, dict := { s.dict with values := t.dict.values } }
    (NextCmd s 3 die.toNat 1 u → s.wmTarget u = .ok x →
      let rs := (List.range (wmCount u)).map (fun i => wmSearch x (BitVec.ofNat 16 (u.field 0x34 2)) (s.wmString u i))
      let emits := (rs.zipIdx.flatMap (fun r => r.1.emits.map (fun e => leBytes 4 r.2 ++ leBytes 2 e.1 ++ leBytes 2 e.2)))
      Runs false (.search die) s u
        (if u.field 1 1 = 1 ∧ u.field 0x30 4 < emits.length then 0x0610 else if rs.any (fun r => r.outcome = 5) then 0x0611 else 0)
        ((u.field 0x20 8, rs.flatMap WmRun.record) ::
          (if u.field 1 1 = 1 then [(u.field 0x28 8, (emits.take (u.field 0x30 4)).flatten)] else []))
        (fun k => if k = 0x3C0002 then 1 else if k = 0x3C0003 then (rs.map (·.lookups)).sum else 0)) ∧
    (let b := s.seen vat src n
     admin 2 [(4, 4, n), (8, 8, src), (0x36, 1, copies)] → 1 ≤ copies → copies ≤ 4 → src % 64 = 0 → n < 2 ^ 32 →
     s.plainRange src n = true → wmImageField b = false → wmImageBad b = false → s.wmSet? key = none →
     (∀ d : Fin 4, copies ≤ ((s.wm.banks[d]).toList.filter (· = .free)).length) →
     ∃ t, exec (.load die) s = .next t ∧ done t ∧
       t.wm.sets = s.wm.sets ++ [({
         id := key, width := wmImageWidth b, mutable_ := decide (fieldAt b 7 1 = 1), digest := wmDigest b,
         classmap := wmClasses b, entries := (wmRecords b).map WmRecord.toEntry } : WmSet)] ∧
       ∀ d : Fin 4, (∀ i : Fin 16, (t.wm.banks[d])[i] = (s.wm.banks[d])[i] ∨
           ((s.wm.banks[d])[i] = .free ∧ (t.wm.banks[d])[i] = .holds key)) ∧
         ((t.wm.banks[d]).toList.filter (· = .free)).length + copies = ((s.wm.banks[d]).toList.filter (· = .free)).length) ∧
    (let rs := (List.range n).map (wmRecordAt (s.seen vat src (96 * n)))
     admin 3 [(4, 4, n), (8, 8, src)] → 1 ≤ n → n ≤ 8192 → src % 32 = 0 → s.plainRange src (96 * n) = true →
     s.wmSet? key = some x → x.mutable_ = true →
     (∀ r ∈ rs, r.uop < 2 ∧ r.reserved = false ∧ r.entry < x.entries.length ∧ (r.uop = 0 → r.bad x.width = false)) →
     s.leaseStale 3 (key.setWidth 32) u.lease = false → s.mirrored = false →
     ∃ t es, exec (.update die) s = .next t ∧ done t ∧ t.wmSet? key = some { x with entries := es } ∧
       es.length = x.entries.length ∧ t.wm.banks = s.wm.banks ∧ CountsBy 0x3C0004 1 s t ∧
       (∀ y ∈ t.wm.sets, y.id ≠ key → y ∈ s.wm.sets) ∧
       ∀ i : Nat, match (rs.filter (fun r => r.entry = i)).getLast? with
         | none => es[i]? = x.entries[i]?
         | some r => ∃ e, es[i]? = some e ∧ (r.uop = 0 → e = r.toEntry) ∧ (r.uop = 1 → e.valid = false)) ∧
    (admin 4 [] → s.wmSet? key = some x → State.wmBusy { s with units := s.units.erase u } x = false →
     ∃ t, exec (.unload die) s = .next t ∧ done t ∧ t.wm.sets = s.wm.sets.filter (fun y => y.id ≠ key) ∧
       ∀ (d : Fin 4) (i : Fin 16), (t.wm.banks[d])[i] = if (s.wm.banks[d])[i] = .holds key then .free else (s.wm.banks[d])[i])) ∧
  (∀ (s : State) (die : Fin 4) (bank : Fin 16), ∃ t, exec (.bankRetire (BitVec.ofNat 2 die.val) (BitVec.ofNat 4 bank.val)) s = .next t ∧
    t = { s with wm := { s.wm with banks := t.wm.banks } } ∧
    ∀ (d : Fin 4) (i : Fin 16), (t.wm.banks[d])[i] = if d = die ∧ i = bank then .retired else (s.wm.banks[d])[i]) ∧
  (∀ (x : WmSet) (start : BitVec 16) (str : Bytes),
    let r := wmSearch x start (some str)
    (wmSearch x start none).outcome = 4 ∧ (65535 < str.length → r.outcome = 5 ∧ r.emits = []) ∧
    (str.length ≤ 65535 → r.outcome ≤ 3 ∧ r.nemit = r.emits.length ∧ r.emits.Pairwise (fun a b => a.1 < b.1) ∧
      (∀ e ∈ r.emits, e.1 ≤ str.length) ∧ r.lookups ≤ str.length + 1 ∧
      (x.entries.find? (fun e => e.fits (wmKey x str start 0)) = none → r.outcome = 2 ∧ r.tag = 0xFFFF ∧ r.emits = [])))

/-- R137 to R162: a Pulper command that passes its checks decodes its entries one by one, writes OUT and the broke
records at the memory side, counts them, and completes with PULPER_BROKE when there are any; too many broke entries
leave OUT undefined and complete with 0x0385. A plain sample within OUT_MAX comes out as it is, where its directory
entry says. An overdue entry is noted, and a retired engine leaves the die's count. -/
def Obligations.PulperDecoding : Prop :=
  (∀ (s : State) (u : UnitCmd) (die : BitVec 2) (op : Nat), Awaits s u → NoErrors s → NextCmd s 6 die.toNat op u →
    s.pulReject u = none → s.pulNoEngine u = false →
    let c := s.pulSet u
    let refs := s.pulRefs u
    let ds := refs.zipIdx.map (fun r => s.pulDecode u c r.2 r.1)
    let broken := (refs.zip ds).filter (fun x => x.2.broke.isSome)
    let records := broken.flatMap (fun x => brokeRecord (pulTable u) x.1 x.2)
    let out := pulOutput u c (pulEsize u (s.pulParams u)) broken.length ds
    let counts := fun k : Nat => if k = 0x400010 then broken.length else if k = 0x400011 then
      (ds.filter (fun d => d.broke = some 0x0307)).length else 0
    ∀ i ∈ [(1, Instr.samples die), (2, .page die), (3, .arrow die)], i.1 = op → ∃ t, exec i.2 s = .next t ∧
      (∀ k, t.modVal k 0 = s.modVal k 0 + counts k) ∧
      t = { s with units := t.units, cores := t.cores, mem := t.mem, free := s.free + 1,
                   hb := { s.hb with jobs := t.hb.jobs }, dict := { s.dict with values := t.dict.values } } ∧
      (op ≠ 1 → t.hb.jobs = s.hb.jobs) ∧
      (c.max = 0 ∨ broken.length ≤ c.max → Reported s t u (if broken = [] then 0 else 0x0390) ∧
        t.mem = ((s.memWrite (pulOut u) out).memWrite (pulBroke u) records).mem) ∧
      (c.max ≠ 0 ∧ c.max < broken.length → Reported s t u 0x0385)) ∧
  (∀ (c : PulSet) (u : UnitCmd) (param b : Bytes) (augs : List AugEntry) (o : Nat), pulWrap u = 0 → pulFormat u = 0 →
    decodeSample c u param augs o b = if pulOutMax u < b.length then Decoded.fail 0x0306
      else { broke := none, bytes := b, elems := b.length, rows := 1 }) ∧
  (∀ (u : UnitCmd) (c : PulSet) (n : Nat) (ds : List Decoded), pulPack u = false → ds.length = pulCount u →
    let out := pulOutput u c 1 n ds
    out.length < 2 ^ 64 → ∀ (i : Nat) (d : Decoded), ds[i]? = some d → d.broke = none → d.bytes.length < 2 ^ 32 →
      let off := fieldAt out (64 + 16 * i) 8
      (d.bytes ≠ [] → off % 64 = 0) ∧ fieldAt out (64 + 16 * i + 8) 4 = d.bytes.length ∧ (out.drop off).take d.bytes.length = d.bytes) ∧
  (∀ (s : State) (u : UnitCmd) (die : BitVec 2) (op entry : Nat) (kind : EngineKind),
    let p := s.pulpers[die.toNat]
    let set := fun q : Pulper => { s with pulpers := s.pulpers.set die.toNat q }
    let late := { u with overdue := u.overdue ++ [entry] }
    let n := match kind with
      | .decompression => p.decompression
      | .jpeg => p.jpeg
      | .pointRecord => p.pointRecord
      | .page => p.page
    (NextCmd s 6 die.toNat op u → (s.pulSet u).wall = true → entry < pulCount u → entry ∉ u.overdue →
      exec (.deadlineExceeded die entry) s = .next { s with units := s.units.map (fun v => if v = u then late else v) }) ∧
    (n ≠ 0 → ∃ t q, exec (.engineRetire die kind) s = .next t ∧ CountsBy 0x400012 1 s t ∧
      t = { set q with dict := { s.dict with values := t.dict.values } } ∧
      (q = { p with decompression := n - 1 } ∧ kind = .decompression ∨ q = { p with jpeg := n - 1 } ∧ kind = .jpeg ∨
       q = { p with pointRecord := n - 1 } ∧ kind = .pointRecord ∨ q = { p with page := n - 1 } ∧ kind = .page)))

/-- R226 to R241: a GATHER of rows that all lie here writes each row converted, zeros for a null or out-of-range
index, and the validity bits; a scatter adds one contribution for each index that names a row; the close of an epoch
applies each combining entry to its row once, raises the version and forgets the entries. Bits of the validity map's last
byte beyond COUNT stay as they were (log entry 120), and the unit works through its Vat's caches (log entry 65): readings
of the model. -/
def Obligations.FeltUnit : Prop :=
  (∀ (s : State) (u : UnitCmd) (vat : BitVec 6) (t : Table), Awaits s u → NoErrors s → s.feltReject u = none →
    s.table? (feltTable u) = some t →
    let n := feltCount u
    let idx := fun j => leVal (s.seen u.core.vat (feltIndex u + 8 * j) 8)
    let size := t.elems * etypeBytes (feltType? u)
    let st : BitVec 16 := if (List.range n).any (fun j => s.resolve t (idx j) = .range) then 0x0510 else 0
    let row := fun j => s.gatherRow u t (idx j)
    (NextCmd s 0 vat.toNat 1 u → u.asked = [] → (∀ j, j < n → s.remoteRows t (idx j) = [] ∧ s.partsFail t (idx j) = false) →
      ∃ (r : State) (bits : Bytes), exec (.gather vat) s = .next r ∧ Reported s r u st ∧
        StoredInVat u.core ((List.range n).map (fun j => (feltDst u + j * gatherStep u t.elems, (row j).getD (zeros size))) ++
          (if feltValid u = 0 then [] else [(feltValid u, bits)])) s r ∧
        bits.length = ceilDiv n 8 ∧ (∀ j, j < 8 * ceilDiv n 8 →
          (bits[j / 8]?.getD 0).getLsbD (j % 8) = if j < n then (row j).isSome else s.validBit u j) ∧
        r = { s with units := r.units, cores := r.cores, mem := r.mem, felt := { s.felt with windows := r.felt.windows },
                     hb := { s.hb with items := r.hb.items, winLines := r.hb.winLines },
                     dict := { s.dict with values := r.dict.values } } ∧
        (u.cls ≠ 0 → r.hb = s.hb)) ∧
    (∀ key, u.item = some key →
      let epoch := if t.epochItems = 0 then 0 else key.seq.toNat / t.epochItems
      let vals := fun j => elemsOf (etypeBytes (feltType? u)) t.elems (s.seen u.core.vat (feltValues u + j * size) size)
      let gives := fun (i : Instr) (entry : Nat → Nat → Combine) =>
        let more : List Contribution := (List.range n).filterMap (fun j => match s.resolve t (idx j) with
          | .rows [p] => some { item := key, attempt := u.attempt, entry := entry j p.2 }
          | _ => none)
        ∃ r, exec i s = .next r ∧ Reported s r u st ∧ r = { s with
          units := r.units, cores := r.cores, felt := { s.felt with pending := s.felt.pending ++ more } }
      (NextCmd s 0 vat.toNat 2 u → gives (.scatterAdd vat) (fun j r => {
        table := t.id, epoch := epoch, row := r, adds := (vals j).map (fun x => (exactInput (feltType? u) x).getD 0),
        set := none, conflict := false })) ∧
      (NextCmd s 0 vat.toNat 3 u → gives (.scatterSet vat) (fun j r => {
        table := t.id, epoch := epoch, row := r, adds := [], conflict := false,
        set := some (BitVec.ofNat 64 (leVal (s.seen u.core.vat (feltOrder u + 8 * j) 8)),
          convertRow (feltType? u) t.etype.toNat (vals j)) })))) ∧
  (∀ (s : State) (u : UnitCmd) (t : Table) (i : Nat), t.kind = 1 → s.table? t.id = some t →
    (t.nrows ≤ i ∨ i = 2 ^ 64 - 1 → s.gatherRow u t i = none) ∧
    (i < t.nrows → i ≠ 2 ^ 64 - 1 → t.homeOf i s.self = none →
      s.gatherRow u t i = some ((elemsOf (etypeBytes t.etype.toNat) t.elems (s.rowAt t i)).flatMap (fun x =>
        leBytes (etypeBytes (feltType? u)) (convert t.etype.toNat (feltType? u) 0 x).bits)))) ∧
  (∀ (s : State) (t : Table), s.table? t.id = some t → t.updatable = true → t.replicated = false →
    s.epochCommitted t t.version = true → (∀ w ∈ s.felt.waiting, w.table ≠ t.id) → s.mirrored = false → s.fab.heldGathers = [] →
    (∀ j ∈ s.hb.jobs, j.finalSent = false) → (∀ j f, s.flow? t.flow = some (j, f) → j.modules = [s.straps.modid]) →
    s.combineStop = none →
    let entries := s.felt.combines.filter (fun c => c.table = t.id && c.epoch = t.version)
    (∀ c ∈ entries, t.homeOf c.row s.self = none ∧ (c.set = none → s.rowFails t c.row = false) ∧
      s.leaseStopped 2 (BitVec.ofNat 32 (t.id.toNat * 65536 + t.shardOf c.row)) = false) →
    entries.Pairwise (fun a b => a.row ≠ b.row) →
    ∃ r t', exec (.epochClose t.id) s = .next r ∧ r.table? t.id = some t' ∧ t'.version = t.version + 1 ∧
      (∀ c ∈ entries, r.rowAt t' c.row = s.closedRow t c) ∧
      (∀ q, (∀ c ∈ entries, c.row ≠ q) → r.rowAt t' q = s.rowAt t q) ∧
      r.felt.combines = s.felt.combines.filter (fun c => !(c.table = t.id && c.epoch = t.version)) ∧
      CountsBy 0x38000E (entries.filter (·.conflict)).length s r ∧
      r = { s with felt := r.felt, dict := { s.dict with values := r.dict.values } })

/-- R245 to R248, Table 9.6: a migration that may start reads the row and arms write-through; the switch, once the drain
of step 3 is complete, makes the new home the one lookups use and raises M, twice when step 2 had not come (M rises there
too); with operations of an older M outstanding it changes nothing, and nor does the release; the release moves the row
and ends write-through; an abandoned migration leaves the row where it was. Rows of other tables and every other part of
the module are as before. A row that cannot be read does not start to move (the model's choice, log entry 175); a switch that does
steps 2 to 4 at once and an abandonment after the switch are readings of the model (log entry 74). -/
def Obligations.RowMigration : Prop :=
  ∀ (s : State) (t : Table) (row : Nat) (home : BitVec 56) (r : Redirect), s.table? t.id = some t →
    let entry := fun u : State => u.redirect? t.id row
    let felt := fun u : State => u = { s with
      felt := { s.felt with
        redirects := u.felt.redirects, migEpoch := u.felt.migEpoch, windows := u.felt.windows, tables := u.felt.tables },
      dict := { s.dict with values := u.dict.values } }
    (s.rowFails t row = true → exec (.migrationStart t.id row home) s = .next s) ∧
    (s.mayMigrate t row = true → s.rowFails t row = false → ∃ u, exec (.migrationStart t.id row home) s = .next u ∧ felt u ∧
      u.felt.migEpoch = s.felt.migEpoch ∧ u.felt.tables = s.felt.tables ∧ u.rowAt t row = t.row row ∧
      entry u = some { table := t.id, row := row, state := .copy, oldHome := (entry s).map (·.newHome), newHome := home,
                       copy := t.row row, released := false }) ∧
    (entry s = some r → r.table = t.id → r.row = row → r.state ≠ .new → r.released = false →
      (∀ c ∈ s.units, c.stamp = none) → s.fab.heldGathers = [] → s.felt.waiting = [] →
      ∃ u, exec (.migrationSwitch t.id row) s = .next u ∧ felt u ∧
      u.felt.migEpoch = s.felt.migEpoch + (if r.state = .copy then 2 else 1) ∧ u.felt.tables = s.felt.tables ∧
      entry u = some { r with state := .new } ∧ u.rowAt t row = r.copy) ∧
    (entry s = some r → r.state = .writeThrough → s.drained = true → ∃ u, exec (.migrationSwitch t.id row) s = .next u ∧
      u.felt.migEpoch = s.felt.migEpoch + 1) ∧
    (entry s = some r → r.state ≠ .copy → (∃ c ∈ s.units, ∃ n, c.stamp = some n ∧ n ≠ s.felt.migEpoch) →
      exec (.migrationSwitch t.id row) s = .next s ∧ exec (.migrationRelease t.id row) s = .next s) ∧
    (entry s = some r → r.table = t.id → r.row = row → r.state = .new → r.released = false → s.drained = true →
      ∃ u t', exec (.migrationRelease t.id row) s = .next u ∧ felt u ∧ u.table? t.id = some t' ∧ u.rowAt t' row = r.copy ∧
      (∀ q, q ≠ row → t'.row q = t.row q) ∧ CountsBy 0x38000C 1 s u ∧
      (entry u = none ∨ entry u = some { r with released := true })) ∧
    (entry s = some r → r.table = t.id → r.row = row → r.released = false → ∃ u, exec (.migrationAbandon t.id row) s = .next u ∧ felt u ∧
      u.felt.tables = s.felt.tables ∧ u.rowAt t row = t.row row ∧ CountsBy 0x38000D 1 s u ∧
      (r.oldHome = none → entry u = none) ∧
      (∀ h, r.oldHome = some h → ∃ x, entry u = some x ∧ x.newHome = h ∧ x.released = true))

/-- R189 to R196: what an exchange does with a message it takes: DATA into open staging, the credit returned, or into
a slot until the round opens; an end of a round noted when its count is right; credits added, granted up to
CREDIT_MAX, and retained rows forgotten once done. A repeated message changes nothing, and a gap or a bad CRC asks for
a resend; resend requests are counted per stream, and an accepted message sets the count to 0 (a reading of the model, log entry
79). -/
def Obligations.SlurryReceiving : Prop :=
  ∀ (s : State) (m : Msg) (j : Job) (e : ExchRec) (x : Exch),
    let here := fun t : State => t.exch? m.job m.exch.toNat
    let p := m.part.toNat
    let r := m.round.toNat
    let n := m.value.toNat
    let row : RxRows := { src := m.from, part := p, round := r, rows := n, bytes := m.payload }
    let staged := Assoc.get 0 x.base p ≤ r ∧ r < Assoc.get 0 x.base p + e.roundsAhead
    let took := { x with rxSeq := Assoc.set 0 x.rxSeq (streamKey m) m.seq.toNat, asks := Assoc.set 0 x.asks m.from.toNat 0 }
    let counted := fun t : State => t.modVal 0x441003 0 = s.modVal 0x441003 0 + 1
    (Receives s 0x10 m j e x → n * e.rowBytes = m.payload.length → n ≤ 8128 / e.rowBytes →
      (e.flags.getLsbD 1 = true ∨ Assoc.get s.straps.modid x.homes p = s.straps.modid) → 1 ≤ x.creditOf m.from p →
      m.from ≠ s.straps.modid → s.fab.stopped = false → (∀ g ∈ x.ended, g.1 = m.from → g.2.1 ≠ r) →
      (s.setExch { x with staged := x.staged ++ [row] }).spilled ≤ Config.spillBytes →
      ∃ t y, exec (.data m) s = .next t ∧ here t = some y ∧ OnlyExch x s t ∧ counted t ∧ y.rxSeq = took.rxSeq ∧ y.asks = took.asks ∧
        Assoc.get 0 y.rowsIn p = Assoc.get 0 x.rowsIn p + n ∧ y.rowsFrom m.from r = x.rowsFrom m.from r + n ∧
        y.pool = x.pool ∧ y.retained = x.retained ∧ y.ended = x.ended ∧ y.credits = x.credits ∧
        (staged → y.staged = x.staged ++ [row] ∧ y.slots = x.slots ∧ y.creditOf m.from p = x.creditOf m.from p ∧
          ∃ a, t.sent = s.sent ++ [.fabric 0x12 a] ∧ a.dst = m.from.setWidth 16 ∧ a.part = m.part ∧ a.value = 1) ∧
        (¬ staged → y.staged = x.staged ∧ y.slots = x.slots ++ [row] ∧ y.creditOf m.from p = x.creditOf m.from p - 1 ∧
          t.sent = s.sent)) ∧
    (Receives s 0x11 m j e x →
      (x.rowsFrom m.from r = n → ∃ t, exec (.roundEnd m) s = .next t ∧ OnlyExch x s t ∧ counted t ∧ t.sent = s.sent ∧
        here t = some { took with
          got := x.got.filter (fun g => !(g.1 = m.from && g.2.1 = r)),
          ended := (m.from, r, n) :: x.ended.filter (fun g => !(g.1 = m.from && g.2.1 = r)),
          awaits := x.awaits.filter (fun a => a.2 ≠ (m.from, r)) }) ∧
      (x.rowsFrom m.from r ≠ n → j.stopped = none → ∃ t, exec (.roundEnd m) s = .next t ∧
        (0x0413, m.job.toNat) ∈ t.dict.eventLog ∧ ∀ k, t.job? m.job = some k → k.stopped = some 0x0413)) ∧
    (Receives s 0x12 m j e x → ∃ t, exec (.credit m) s = .next t ∧ OnlyExch x s t ∧ counted t ∧ t.sent = s.sent ∧
      here t = some { took with
        credits := Assoc.set 1 x.credits (creditKey m.from p) (Assoc.get 1 x.credits (creditKey m.from p) + n),
        creditAsked := x.creditAsked.filter (· ≠ creditKey m.from p) }) ∧
    (Receives s 0x13 m j e x → s.fab.stopped = false →
      let held := (x.slots.filter (fun t => t.src = m.from && t.part = p)).length
      let more := min n (1 + e.creditMax - (x.creditOf m.from p + held))
      1 ≤ more → ∃ t y a, exec (.creditReq m) s = .next t ∧ here t = some y ∧ OnlyExch x s t ∧ counted t ∧
        y.creditOf m.from p = x.creditOf m.from p + more ∧ y.slots = x.slots ∧ y.staged = x.staged ∧
        t.sent = s.sent ++ [.fabric 0x12 a] ∧ a.dst = m.from.setWidth 16 ∧ a.part = m.part ∧
        a.value = BitVec.ofNat 32 more) ∧
    (Receives s 0x14 m j e x → s.hb.items = [] → ∃ t, exec (.roundDone m) s = .next t ∧ OnlyExch x s t ∧ counted t ∧ t.sent = s.sent ∧
      here t = some { took with
        retained := x.retained.filter (fun t => !(t.1 = m.from && t.2.part = p && t.2.round = r)),
        doneOf := (x.doneOf ++ [(p, r)]).eraseDups }) ∧
    (∀ i ∈ [((0x10 : BitVec 8), Instr.data m), (0x11, .roundEnd m), (0x12, .credit m), (0x13, .creditReq m), (0x14, .roundDone m)],
      s.rst.boot = .ready → Arrives i.1 m → m.to = s.straps.modid → (s.genOf m.from).toNat ≤ m.gen.toNat → s.job? m.job = some j →
      j.exch? m.exch.toNat = some e → here s = some x → slurryFields i.1 m = true →
      let last := Assoc.get 0 x.rxSeq (streamKey m)
      let asked := Assoc.get 0 x.asks m.from.toNat
      (m.crc = m.check i.1 → m.seq.toNat ≤ last → exec i.2 s = .next s) ∧
      (m.crc ≠ m.check i.1 ∨ last + 1 < m.seq.toNat → asked < 3 → ∃ t, exec i.2 s = .next t ∧ OnlyExch x s t ∧
        t.sent = s.sent ++ [.resend m.from m.job x.exch] ∧
        here t = some { x with asks := Assoc.set 0 x.asks m.from.toNat (asked + 1) })) ∧
    (s.job? m.job = some j → j.exch? m.exch.toNat = some e → here s = some x → m.from ≠ s.straps.modid → s.fab.stopped = false →
      x.slots = [row] → staged → (s.setExch { x with staged := x.staged ++ [row], slots := [] }).spilled ≤ Config.spillBytes →
      ∃ t y a, exec (.slurryStageCopy m.job x.exch m.part) s = .next t ∧ here t = some y ∧ OnlyExch x s t ∧
        y.slots = [] ∧ y.staged = x.staged ++ [row] ∧ y.creditOf m.from p = x.creditOf m.from p + 1 ∧
        t.sent = s.sent ++ [.fabric 0x12 a] ∧ a.dst = m.from.setWidth 16 ∧ a.part = m.part ∧ a.value = 1)

/-- R179 to R181, R186 to R188, R195, R196, R345: the engine sends a round's rows to a module one DATA message at a
time, each for a credit, keeps them until they are done, asks for credits when it has none and ends the round when
nothing is left; a resend, a holder's state and a remap send retained rows again; a published filter passes every key
that was built. A resend under the SEQ that the rows had (log entry 79), and rows that HOLDER_STATE puts back to be sent in a new
stream (log entry 80), are readings of the model; a shard that comes home from the twin has the rows that the twin
wrote (log entry 174). -/
def Obligations.SlurrySending : Prop :=
  (∀ (s : State) (j : Job) (e : ExchRec) (x : Exch) (exch : BitVec 4) (dst : BitVec 14), s.job? j.job = some j →
    j.exch? exch.toNat = some e → s.exch? j.job exch.toNat = some x → s.fab.stopped = false →
    let here := fun t : State => t.exch? j.job exch.toNat
    let r := x.sendRound dst
    let mine := x.pool.filter (fun t => t.to x s.straps.modid = dst && t.round = r)
    let of := fun p => mine.filter (fun t => t.part = p)
    let fits := 8128 / e.rowBytes
    let can := fun p => of p ≠ [] ∧ (s.roundReady j e r = true ∨ fits ≤ (of p).length)
    let credit := fun (y : Exch) (p : Nat) => Assoc.get 1 y.credits (creditKey dst p)
    let sends := fun (t : State) (type : BitVec 8) (a : Msg) => t.sent = s.sent ++ [.fabric type a] ∧ a.dst = dst.setWidth 16 ∧
      a.exch = e.exch ∧ a.job = j.job ∧ a.seq = BitVec.ofNat 64 (Assoc.get 0 x.txSeq dst.toNat + 1)
    (j.stopped = none → (x.dests j e s.straps.modid).contains dst = true → s.broadcastBig j e = false → r < j.rounds e →
      (s.holders j e r).contains s.straps.modid = true → dst ≠ s.straps.modid → 1 ≤ fits →
      ((∃ p, can p ∧ credit x p ≠ 0) → ∃ t y a p, exec (.slurrySend j.job exch dst) s = .next t ∧ here t = some y ∧
        OnlyExch x s t ∧ can p ∧ credit x p ≠ 0 ∧
        let rows := (of p).take fits
        sends t 0x10 a ∧ a.part = BitVec.ofNat 32 p ∧ a.round = BitVec.ofNat 32 r ∧ a.value = BitVec.ofNat 32 rows.length ∧
        a.payload = rows.flatMap (·.bytes) ∧ 
        y.retained = x.retained ++ rows.map (fun t => (dst, { t with seq := Assoc.get 0 x.txSeq dst.toNat + 1 })) ∧
        credit y p = credit x p - 1 ∧ y.pool.length + rows.length = x.pool.length ∧
        ∀ t ∈ y.pool, t ∈ x.pool) ∧
      ((∃ p, can p) → (∀ p, can p → credit x p = 0) → ∃ t y, exec (.slurrySend j.job exch dst) s = .next t ∧
        here t = some y ∧ OnlyExch x s t ∧ y.pool = x.pool ∧ y.retained = x.retained ∧ y.credits = x.credits ∧
        t.modVal 0x441005 0 = s.modVal 0x441005 0 + 1 ∧
        (x.creditAsked = [] → e.creditMax ≠ 0 → ∃ a p, can p ∧ sends t 0x13 a ∧ a.part = BitVec.ofNat 32 p ∧
          a.value = BitVec.ofNat 32 e.creditMax ∧ y.creditAsked = [creditKey dst p])) ∧
      (mine = [] → s.roundReady j e r = true → ∃ t y a, exec (.slurrySend j.job exch dst) s = .next t ∧ here t = some y ∧
        OnlyExch x s t ∧ sends t 0x11 a ∧ a.part = 0 ∧ a.round = BitVec.ofNat 32 r ∧
        a.value = BitVec.ofNat 32 (Assoc.get 0 x.txRows (dst.toNat + 16384 * r)) ∧
        Assoc.get 0 y.txRound dst.toNat = max (Assoc.get 0 x.txRound dst.toNat) (r + 1) ∧ y.pool = x.pool ∧
        y.retained = x.retained)) ∧
    (∀ part round : BitVec 32,
      let rows := (x.retained.filter (fun t => t.1 = dst && t.2.part = part.toNat && t.2.round = round.toNat)).map (·.2)
      rows ≠ [] → rows.length ≤ fits → ∀ n, (∀ t ∈ rows, t.seq = n) →
      ∃ t y a, exec (.slurryResendRequest j.job exch dst part round) s = .next t ∧ here t = some y ∧
        OnlyExch x s t ∧ t.sent = s.sent ++ [.fabric 0x10 a] ∧ a.dst = dst.setWidth 16 ∧ a.exch = e.exch ∧ a.job = j.job ∧
        a.part = part ∧ a.round = round ∧ a.value = BitVec.ofNat 32 rows.length ∧
        a.payload = rows.flatMap (·.bytes) ∧ t.modVal 0x441006 0 = s.modVal 0x441006 0 + 1 ∧
        (n ≠ 0 → a.seq = BitVec.ofNat 64 n ∧ y = x) ∧
        (n = 0 → a.seq = BitVec.ofNat 64 (Assoc.get 0 x.txSeq dst.toNat + 1) ∧
          (y.retained.map (fun t => (t.1, { t.2 with seq := 0 }))) = x.retained.map (fun t => (t.1, { t.2 with seq := 0 })))) ∧
    (∀ m, TakesMsg s 0x43 m → m.job = j.job → j.exchanges = [e] → m.part.toNat < (if e.npart = 0 then 1 else e.npart) → m.from = dst →
      dst ≠ s.straps.modid → Assoc.get s.straps.modid x.homes m.part.toNat = dst →
      Assoc.get 0 x.txRound dst.toNat ≤ m.value.toNat →
      (∀ d ∈ x.doneOf, d.1 = m.part.toNat → d.2 < m.value.toNat) →
      let owed := fun t : BitVec 14 × TxRow => t.2.part = m.part.toNat && decide (m.value.toNat ≤ t.2.round)
      ∃ t, exec (.holderState m) s = .next t ∧ OnlyExch x s t ∧ t.sent = s.sent ∧ here t = some { x with
        pool := x.pool ++ (x.retained.filter owed).map (·.2),
        retained := (x.retained.filter (fun t => !owed t)).map (fun t => if t.1 = dst then (t.1, { t.2 with seq := 0 }) else t),
        redo := x.redo.eraseDups, txSeq := Assoc.set 0 x.txSeq dst.toNat 0,
        credits := Assoc.erase x.credits (creditKey dst m.part.toNat),
        creditAsked := x.creditAsked.filter (· ≠ creditKey dst m.part.toNat) }) ∧
    (∀ (u : RemapUpdate) (p : BitVec 32), u.job = j.job → u.parts = [(exch, p, dst)] → u.shards = [] → u.flows = [] →
      p.toNat < e.npart → Assoc.get s.straps.modid x.homes p.toNat ≠ dst →
      (∀ t ∈ x.retained, t.2.part ≠ p.toNat) → ∃ t y k, exec (.remap u) s = .next t ∧ here t = some y ∧
        Assoc.get s.straps.modid y.homes p.toNat = dst ∧ y.pool = x.pool ∧
        y.retained = x.retained.map (fun t => if t.1 = dst then (t.1, { t.2 with seq := 0 }) else t) ∧
        y.staged = x.staged.filter (fun t => t.part ≠ p.toNat) ∧ Assoc.get 0 y.rowsIn p.toNat = 0 ∧ credit y p.toNat = 1 ∧
        t.job? j.job = some k ∧ dst ∈ k.modules ∧ (∀ i ∈ j.modules, i ∈ k.modules) ∧ dst ∉ t.fab.fenceSeen)) ∧
  (∀ (s : State) (u : RemapUpdate) (j : Job), s.job? u.job = some j → u.parts = [] →
    (∀ (t : Table) (d : BitVec 16) (h : BitVec 14), u.shards = [(t.id, d, h)] → u.flows = [] → s.table? t.id = some t →
      let homes := Assoc.set s.straps.modid t.homes d.toNat h
      let back := h = s.straps.modid ∧ Assoc.get s.straps.modid t.homes d.toNat = s.straps.modid ^^^ 1
      let ours := fun (x : BitVec 16 × Nat × Bytes) (q : Nat) => decide (x.1 = t.id) && decide (x.2.1 = q)
      (¬ back → ∃ r, exec (.remap u) s = .next r ∧ r.table? t.id = some { t with homes := homes }) ∧
      (back → ∃ r v, exec (.remap u) s = .next r ∧ r.table? t.id = some v ∧ v = { t with homes := homes, rows := v.rows } ∧
        (∀ q, (s.twin.replica.filter (fun x => ours x q) = [] ∨ t.shardOf q ≠ d.toNat) → v.row q = t.row q) ∧
        (∀ q x, s.twin.replica.filter (fun x => ours x q) = [x] → t.shardOf q = d.toNat → v.row q = x.2.2) ∧
        ∀ x ∈ r.twin.replica, ¬ (x.1 = t.id ∧ t.shardOf x.2.1 = d.toNat))) ∧
    (∀ (f : FlowRun) (h : BitVec 14), u.shards = [] → u.flows = [(f.decl.flow, h)] → s.flow? f.decl.flow = some (j, f) →
      ∃ r k, exec (.remap u) s = .next r ∧ r.flow? f.decl.flow = some (k, { f with stopped := decide (h ≠ s.straps.modid) }))) ∧
  (∀ (s : State) (j : Job) (n : Nat) (js : JoinRec) (e : ExchRec) (x : Exch) (others : Bytes), s.job? j.job = some j →
    j.joins[n]? = some js → js.flags.getLsbD 2 = true → j.rightExch js = some e →
    s.exch? j.job e.exch.toNat = some x → 1 ≤ js.bloomBlocks →
    (∀ p, p < (if e.npart = 0 then 1 else e.npart) → Assoc.get s.straps.modid x.homes p = s.straps.modid →
      j.rounds e ≤ Assoc.get 0 x.base p) →
    ∃ (t : State) (f : Bytes) (k : Job), exec (.bloomPublish j.job n others) s = .next t ∧ f.length = 64 * js.bloomBlocks ∧
      (∀ h ∈ j.hashes, h.1 = n → bloomPasses f js.bloomBlocks js.bloomK h.2 = true) ∧
      (∀ i, i < 8 * f.length → (others[i / 8]?.getD 0).getLsbD (i % 8) = true → bitOf f i = true) ∧
      t.job? j.job = some k ∧ k = { j with filters := k.filters } ∧ Assoc.get [] k.filters n = f ∧
      (∀ m, m ≠ n → Assoc.get [] k.filters m = Assoc.get [] j.filters m) ∧ t = { s with hb := { s.hb with jobs := t.hb.jobs } })

/-- R221, R272, R274, R317, R318, R326, R378: what the host's ring commands do in service. SUBMIT_PLAUD completes with
its check's code, or with success and the job loaded; ABORT_JOB stops a job with CMD_ABORTED; ATTACH_RING gives a
BATCH flow the lowest free ring; a class A request becomes one item, or is answered when its flow is not loaded; a
window's end judges and answers. An abort of a job that is not loaded completes with success (the model's choice, log
entry 17); 0x0441 for an attach that names no flow, a flow that is no BATCH flow or one that has a ring (log entry 83), and
answers that wait for the window's end (log entry 84), are readings of the model. -/
def Obligations.HostCommands : Prop :=
  ∀ (s : State) (tag : BitVec 32), s.rst.hostReset = false → s.rst.boot = .ready → s.host.waiting = [] →
    let taken := fun t : State => t.host.cmdTail = s.host.cmdTail + 1 ∧ t.host.cmdHead = s.host.cmdHead + 1
    let only := fun t : State => t = { s with host := t.host, sent := t.sent } ∧ taken t
    let posts := fun (t : State) (st : BitVec 16) (final : Bool) (job : BitVec 64) (ring : BitVec 16) =>
      ∃ ph, t.sent = s.sent ++ [.completion tag st final ph job ring]
    (∀ image : Bytes,
      let job := plaudJob image
      ∃ t, exec (.submitPlaud tag image) s = .next t ∧
        match s.cmdTaken.loadPlaud tag false image with
        | .error code => posts t code true job 0 ∧ only t
        | .ok u => taken t ∧ s.job? job = none ∧ (∃ ph rest, t.sent = s.sent ++ .completion tag 0 false ph job 0 :: rest) ∧
          ∃ j, u.hb.jobs = s.hb.jobs ++ [j] ∧ j.job = job ∧ j.tag = tag ∧ j.test = false ∧ j.stopped = none ∧ j.finalSent = false ∧
            u.hb.items = s.hb.items ∧
            (∀ is, s.startInputs (plaudFiles image) (plaudInputs image) = .ok is →
              t.hb.jobs = s.hb.jobs ++ [{ j with inputs := is }] ∧ t.hb.items = s.hb.items) ∧
            (∀ code, s.startInputs (plaudFiles image) (plaudInputs image) = .error code →
              ∃ ph, .completion tag code true ph job 0 ∈ t.sent)) ∧
    (∀ job : BitVec 64, s.job? job = none → ∃ t, exec (.abortJob tag job) s = .next t ∧ posts t 0 true job 0 ∧ only t) ∧
    (∀ (job : BitVec 64) (j : Job), s.job? job = some j → j.stopped = none → j.finalSent = false → j.test = false →
      ∃ t, exec (.abortJob tag job) s = .next t ∧ taken t ∧ (∃ ph, .completion j.tag 0x0C0C true ph job 0 ∈ t.sent) ∧
        (∃ ph before, t.sent = before ++ [.completion tag 0 true ph job 0]) ∧ (0x0C0C, job.toNat) ∈ t.dict.eventLog ∧
        (∀ it ∈ t.hb.items, it.job = job → it.phase = .running ∨ it.phase = .preempted ∨ s.inUse it.outAlloc = true) ∧
        ∀ k, t.job? job = some k → k.stopped = some 0x0C0C) ∧
    (∀ a : RingAttach,
      let gives := fun (code : BitVec 16) (job : BitVec 64) => ∃ t, exec (.attachRing tag a) s = .next t ∧ posts t code true job 0 ∧ only t
      (2 ^ 20 ≤ a.flow.toNat ∨ s.flow? (a.flow.setWidth 20) = none → gives 0x0441 0) ∧
      (∀ (j : Job) (f : FlowRun), a.flow.toNat < 2 ^ 20 → s.flow? (a.flow.setWidth 20) = some (j, f) →
        (f.decl.batch = false ∨ f.ring.isSome ∨ j.stopped.isSome → gives 0x0441 0) ∧
        (f.decl.batch = true → f.ring = none → f.stopped = false → j.stopped = none →
          let fits := f.decl.outMax ≤ a.slotBytes.toNat ∧ a.slotBytes.toNat % 4096 = 0 ∧ 2 ≤ a.slots.toNat ∧ a.slots.toNat ≤ 65536
          (¬ fits → gives 0x0440 j.job) ∧
          (∀ n, n < 4096 → s.ring? n = none → (∀ (k : Nat), k < n → s.ring? k ≠ none) → fits →
            let r : Ring := {
              number := BitVec.ofNat 12 n, flow := f.decl.flow, base := a.base, comp := a.comp, slots := a.slots.toNat,
              slotBytes := a.slotBytes.toNat, rkey := a.rkey, consQpn := a.consQpn, standby := a.standby, finished := 0, written := 0 }
            ∃ t, exec (.attachRing tag a) s = .next t ∧ taken t ∧ t.hb.rings = s.hb.rings ++ [r] ∧
              (t.flow? f.decl.flow).map (·.2) = some { f with ring := some r.number } ∧ t.hb.items = s.hb.items ∧ t.mem = s.mem ∧
              t.cores = s.cores ∧ ∃ ph before, t.sent = before ++ [.completion tag 0 true ph j.job (BitVec.ofNat 16 n)])))) ∧
    (∀ (flow : BitVec 32) (payload : Bytes) (room : BitVec 64),
      (2 ^ 20 ≤ flow.toNat ∨ (∀ (j : Job) (f : FlowRun), s.flow? (flow.setWidth 20) = some (j, f) → f.decl.cls ≠ 0) →
        ∃ t, exec (.classa tag flow payload room) s = .next t ∧ taken t ∧
          (∃ ph, t.sent = s.sent ++ [.hostWrite tag ((leBytes 2 0x0816 ++ zeros 6).take room.toNat), .completion tag 0x0816 true ph 0 0]) ∧
          t = { s with host := t.host, sent := t.sent, hb := { s.hb with winRequests := s.hb.winRequests + 1 } }) ∧
      (∀ (j : Job) (f : FlowRun), flow.toNat < 2 ^ 20 → s.flow? (flow.setWidth 20) = some (j, f) → f.decl.cls = 0 →
        j.stopped = none → j.finalSent = false →
        let key := keyOf f.decl.flow f.next
        let held := (s.hb.items.filter (fun it => it.key.flow = f.decl.flow)).length
        (f.decl.window ≤ held ∨ s.twin.state = .detaching → exec (.classa tag flow payload room) s =
          .next { s with host := { s.host with waiting := [.classa tag flow payload room] } }) ∧
        (held < f.decl.window → s.twin.state ≠ .detaching → s.item? key = none →
          ∀ num base u, s.cmdTaken.newAlloc j.job false false (roundUpTo (payload.length + 1) 64) = some (num, base, u) →
          (f.decl.outMax = 0 ∨ (State.newAlloc (u.memWrite base payload) j.job false true f.decl.outMax).isSome = true) →
          ∃ t it, exec (.classa tag flow payload room) s = .next t ∧ taken t ∧ t.sent = s.sent ∧ t.hb.items = s.hb.items ++ [it] ∧
            it.key = key ∧ it.job = j.job ∧ it.cls = 0 ∧ it.phase = .created ∧ it.reply = .host tag room.toNat ∧
            it.inputs = [{ addr := base, bytes := payload.length, alloc := num }] ∧
            it.degraded = (s.hb.winPrevFailed || s.classAWide payload) ∧
            t.hb.winRequests = s.hb.winRequests + 1 ∧ t.hb.winItems = s.hb.winItems ++ [key] ∧
            (s.hb.items = [] → t.memRead base payload.length = payload)))) ∧
    (let failed := decide (50 < s.hb.winRequests) || decide (8800 * s.hb.winLevel < s.hb.winLines)
     let next := fun (u : State) => { u.hb with
       winRequests := 0, winLines := 0, winPrevFailed := failed, winItems := [],
       winLevel := if u.pow.stretched = 0 then u.pow.level else 8 }
     let judged := fun h : HeldReq => { h with failed := h.failed || (h.fresh && failed), fresh := false }
     (s.hb.winItems = [] → exec .classaWindow s =
        .next { s with hb := next s, fab := { s.fab with heldA := s.fab.heldA.map judged } }) ∧
     (∀ (key : ItemKey) (it : Item) (to' : BitVec 32) (room : Nat), s.hb.winItems = [key] → s.item? key = some it →
        it.phase = .accepted → it.reply = .host to' room → s.mem.poisoned it.out (min it.outBytes 32768) = false →
        let st : BitVec 16 := if it.degraded || failed || s.hb.pull || !s.classADefaults then 0x0920 else 0
        let data := s.memRead it.out (min it.outBytes 32768)
        ∃ t ph, exec .classaWindow s = .next t ∧ t.item? key = none ∧
          t.sent = s.sent ++ [.hostWrite to' ((leBytes 2 st.toNat ++ zeros 2 ++ leBytes 4 data.length ++ data).take room),
                              .completion to' st true ph it.job 0] ∧
          (∀ x ∈ t.hb.items, x ∈ s.hb.items ∨ x.key = key) ∧ t.hb.winItems = [] ∧ t.hb.winRequests = 0 ∧ t.hb.winLines = 0 ∧
          t.hb.winPrevFailed = failed ∧ t.modVal 0x481006 0 = s.modVal 0x481006 0 + (if st = 0 then 0 else 1)))

/-- R274, R275, R278, R279, R282, R286, R398: a work item from its source to its consumer. INGRESS_READ stages the
item's chunks, an absent one answering 0x0905 (a reading of the model, log entry 85); the item is made, of a SOURCE, CHAIN,
COLLECT or ROUND flow when Table 11.6 has its inputs, with its stamp, its 64 bytes and its arguments in the item store; a
ready item starts
on a core of its affinity Vat, or waits in that Vat's queue; a core that becomes idle takes class A first, and an idle
core steals an item that has waited; accepted items are released in order; a released batch that is due goes into its
slot, then its record, then its report, a batch without a seal at its whole length (the model's choice, log entry 45); the
consumer's index moves within what was written. -/
def Obligations.ItemLife : Prop :=
  ∀ (s : State) (flow : BitVec 20) (seq : BitVec 40) (c : CoreId),
    let q := seq.toNat
    let key : ItemKey := { flow := flow, seq := seq }
    let now := fun (t : State) => (t.flow? flow).map (·.2)
    let makes := fun (j : Job) (f : FlowRun) (u : State) (ins : List Input) (place : Option CoreId) =>
      ∃ t it, exec (.itemCreate flow seq) u = .next t ∧ Made u t j f q ins place it
    (∀ (j : Job) (f : FlowRun), s.flow? flow = some (j, f) → s.job? j.job = some j →
      (∀ i : InputRec, f.decl.trigger = 1 → s.mayCreate j f q = true → (∀ x ∈ f.staged, x.1 ≠ q) → f.staged.length < f.stageMax →
        j.input? f.decl.producer = some i →
        let chunks := i.chunksOf (q * f.decl.span) (min ((q + 1) * f.decl.span) i.rows)
        (f.stageFits chunks = false → exec (.ingressRead flow seq) s = .next s) ∧ (f.stageFits chunks = true →
        match s.stage j.job chunks [] with
        | none => ∃ t, exec (.ingressRead flow seq) s = .next t ∧ (0x0905, j.job.toNat) ∈ t.dict.eventLog ∧
            ∀ k, t.job? j.job = some k → k.stopped = some 0x0905
        | some none => exec (.ingressRead flow seq) s = .next s
        | some (some (_, ins)) => ∃ t, exec (.ingressRead flow seq) s = .next t ∧ t.hb.items = s.hb.items ∧
            now t = some { f with staged := f.staged ++ [(q, ins)] } ∧ ins.length = chunks.length ∧
            ∀ (k : Nat) (x : Chunk) (b : Bytes) (inp : Input), chunks[k]? = some x → ins[k]? = some inp → s.chunkBytes x = some b →
              inp.bytes = b.length ∧ t.memRead inp.addr b.length = b ∧ (t.alloc inp.alloc).live = true ∧
                (t.alloc inp.alloc).job = j.job)) ∧
      (∀ ins : List Input, j.modules = [s.straps.modid] → f.decl.trigger = 1 → s.mayCreate j f q = true →
        f.staged.find? (fun x => x.1 = q) = some (q, ins) →
        OutRoom s j f → makes j f s ins (f.shard.bind s.shardCore)) ∧
      (s.mayCreate j { f with next := s.skipOthers j f f.next } q = true →
        (∀ p : FlowRun, f.decl.trigger = 2 ∨ f.decl.trigger = 4 → j.flow? f.decl.producer = some p →
          (∀ k ∈ j.producerItems f.decl q, s.assigned j p.decl k s.straps.modid = true) →
          let made := (j.producerItems f.decl q).map (fun k => s.item? (keyOf p.decl.flow k))
          ((∃ x ∈ made, x.all (fun it => !it.phase.done) = true) → exec (.itemCreate flow seq) s = .next s) ∧
          (∀ its : List Item, made = its.map some → (∀ i ∈ its, i.phase.done = true) → OutRoom s j f →
            makes j f s (its.map (fun i => { addr := i.out, bytes := i.outBytes, alloc := i.outAlloc })) (f.shard.bind s.shardCore))) ∧
        (∀ (e : ExchRec) (x : Exch), f.decl.trigger = 3 → j.exch? f.decl.producer = some e → s.exch? j.job f.decl.producer = some x →
          let here := fun t : RxRows => decide (t.part = q % e.parts) && decide (t.round = q / e.parts)
          let rows := (x.staged.filter here).flatMap (·.bytes)
          let vat : Option CoreId := some { vat := BitVec.ofNat 6 (q % e.parts), core := 0 }
          let ready := s.roundComplete j e x (q % e.parts) (q / e.parts) = true ∧ ∀ t ∈ x.slots, here t = false
          (¬ ready → exec (.itemCreate flow seq) s = .next s) ∧
          (ready → rows = [] → s.roundFull j f.decl q = true → ∃ t, exec (.itemCreate flow seq) s = .next t ∧
            (0x0402, j.job.toNat) ∈ t.dict.eventLog ∧ ∀ k, t.job? j.job = some k → k.stopped = some 0x0402) ∧
          (ready → rows = [] → s.roundFull j f.decl q = false → OutRoom s j f → makes j f s [] vat) ∧
          (∀ num base u, ready → rows ≠ [] → s.newAlloc j.job false false (roundUpTo rows.length 64) = some (num, base, u) →
            s.roundFull j f.decl q = false → OutRoom (u.memWrite base rows) j f →
            makes j f s [{ addr := base, bytes := rows.length, alloc := num }] vat))) ∧
      (∀ (it : Item) (a : CoreId), s.item? key = some it → s.mayDispatch it = true → it.cls ≠ 0 → it.affinity = some a →
        f.lastCore = none →
        (s.takerIn it a.vat = some c → s.hb.pull = false → ∃ t, exec (.itemDispatch flow seq) s = .next t ∧ Started s t it c) ∧
        (s.takerIn it a.vat = some c → s.hb.pull = true → ∃ t, exec (.itemDispatch flow seq) s = .next t ∧
          t = { s with hb := { s.hb with items := t.hb.items, slots := s.hb.slots ++ [(c, key)],
                                         queued := s.hb.queued.filter (fun x => x.2 ≠ key) } } ∧
          t.item? key = some { it with phase := .queued }) ∧
        ((∀ d, s.mayTake it d = false) → ∃ t v, exec (.itemDispatch flow seq) s = .next t ∧
          t = { s with hb := { s.hb with items := t.hb.items, queued := s.hb.queued ++ [(v, key)] } } ∧
          t.item? key = some { it with phase := .queued } ∧ (s.vatClosed a.vat = false → v = a.vat) ∧
          ((∃ u, s.vatClosed u = false) → s.vatClosed v = false))) ∧
      (∀ it : Item, j.stopped = none → f.decl.cls ≠ 0 → f.decl.batch = true → f.decl.trigger ≠ 3 → j.modules = [s.straps.modid] →
        f.stopped = false → f.released = q → f.egressed ≤ q → f.egressed < f.decl.items → s.item? key = some it →
        it.phase = .accepted → s.item? (keyOf flow (q + 1)) = none →
        (∀ x ∈ s.hb.items, x.key.flow = flow → x.phase = .accepted → q ≤ x.key.seq.toNat) →
        ∃ t, exec (.itemRelease flow) s = .next t ∧ t.item? key = some { it with phase := .released } ∧
          now t = some { f with released := q + 1 } ∧ t.sent = s.sent) ∧
      (∀ (it : Item) (r : Ring) (n : BitVec 12), j.modules = [s.straps.modid] → f.decl.trigger ≠ 3 → j.stopped = none →
        f.stopped = false → f.decl.batch = true → f.egressed = q → s.item? key = some it → it.phase = .released →
        s.flowRing? f = some r → r.number = n →
        let due := f.decl.dueBase + q * f.decl.dueStep - f.decl.lead
        let out := s.memRead it.out it.outBytes
        let size := fieldAt out 0x44 4
        let bytes := if fieldAt out 0 4 = 0x31425644 ∧ 0x100 ≤ size ∧ size ≤ it.outBytes then size else it.outBytes
        (s.hb.reel.toNat < due ∨ r.finished + r.slots ≤ q ∨ 4096 ≤ s.meter.queue.length → exec (.batchEgress flow) s = .next s) ∧
        (due ≤ s.hb.reel.toNat → q < r.finished + r.slots → s.meter.queue.length < 4096 → s.mirrored = false ∨ q < r.slots →
          s.twin.state ≠ .detaching → s.leaseStopped 1 (flow.setWidth 32) = false → r.rkey ≠ 0 ∨ s.rst.hostReset = false → s.fab.stopped = false →
          s.mem.poisoned it.out it.outBytes = false →
          let rep : Report := {
            number := s.meter.nextReport, job := j.job, flow := flow, batch := q, rows := fieldAt out 0x14 4,
            rewrite := q < f.rewrite }
          ∃ t rest, exec (.batchEgress flow) s = .next t ∧
            t.sent = s.sent ++ [.batch n (q % r.slots) q (out.take bytes),
              .egress n (record 32 [(0, 4, flow.toNat), (4, 4, q % r.slots), (8, 8, q), (0x10, 4, bytes), (0x14, 4, fieldAt out 0xFC 4),
                (0x1A, 1, (q / r.slots + 1) % 2)]), .report rep] ++ rest ∧
            t.meter.queue = s.meter.queue ++ [rep] ∧ t.modVal 0x442004 0 = s.modVal 0x442004 0 + bytes ∧
            ∀ f', now t = some f' → f'.egressed = q + 1))) ∧
    (s.idle c = true → s.twin.state ≠ .detaching →
      (s.hb.pull = false → (∀ (x : Item) (xs : List Item), s.queuedFor c.vat (some 0) c = x :: xs →
          ∃ t, exec (.coreIdle c) s = .next t ∧ Started s t x c) ∧
        (∀ it : Item, s.nextFor c = some it → ∃ t, exec (.coreIdle c) s = .next t ∧ Started s t it c)) ∧
      (∀ it : Item, s.hb.pull = true → s.hb.slots.find? (fun x => x.1 = c) = some (c, key) → s.item? key = some it →
        (s.suits it c = true → ∃ t, exec (.coreIdle c) s = .next t ∧ (t.core c).active = true ∧ (t.core c).item = some key ∧
          (t.core c).pc = BitVec.ofNat 64 it.entry ∧ ∀ d, d ≠ c → t.core d = s.core d) ∧
        (s.suits it c = false → exec (.coreIdle c) s = .next { s with hb := { s.hb with
          slots := s.hb.slots.filter (fun x => x.1 ≠ c), queued := (c.vat, key) :: s.hb.queued } }))) ∧
    (∀ it : Item, s.item? key = some it → (∃ x ∈ s.hb.queued, x.2 = key) → s.mayTake it c = true →
      (∀ x ∈ s.hb.queued, x.1 ≠ c.vat) → s.twin.state ≠ .detaching → s.hb.pull = false →
      ∃ t, exec (.stealUs flow seq c) s = .next t ∧ Started s t it c) ∧
    (∀ (r : Ring) (n : BitVec 12) (count : BitVec 64) (m : Msg), s.rst.boot = .ready →
      let writes := fun i : IndexWrite => ∃ t, exec (.egressIndex i) s = .next t ∧
        (if r.finished ≤ count.toNat ∧ count.toNat ≤ r.written then
           { r with finished := count.toNat } ∈ t.hb.rings ∧ (∀ x ∈ s.hb.rings, x.same r = false → x ∈ t.hb.rings) ∧
             t.hb.items = s.hb.items ∧ t.mem = s.mem
         else t = { s with dict := { s.dict with eventLog := s.dict.eventLog ++ [(0x0815, n.toNat)] } })
      (s.rst.hostReset = false → s.hostRing? n.toNat = some r → writes (.doorbell n count)) ∧
      (Accepts s 0x21 m 8 → m.part.toNat = n.toNat → m.rsv.toNat = count.toNat → s.fabricRing? m.qp n.toNat = some r →
        writes (.message m)))

/-- R18, R19, R290, R291, R415: one source is selected. An advance from it raises the reel count to the carried value
(REEL_IN: by one), never lowers it, and with no entry due changes nothing else; at the last value it holds and reports
HB_REEL_OVERFLOW; an advance from another source is counted and ignored, and a pulse under 50 ns is none. -/
def Obligations.ReelAdvances : Prop :=
  ∀ (s : State) (v : BitVec 64) (high gap : Nat) (m : Msg) (path : Path), s.rst.boot = .ready → s.rst.hostReset = false →
    let source := s.furn 0x300003 0
    let now := s.hb.reel.toNat
    let last := 2 ^ 48 - 1
    let x := v.toNat % 2 ^ 48
    let quiet := fun b : Nat => ∀ d ∈ s.hb.delays, ¬ (now < d.value ∧ d.value ≤ b)
    let at' := fun (u : State) (b : Nat) => { u with hb := { u.hb with reel := BitVec.ofNat 48 b } }
    let refused := fun (u : State) (n : Nat) => { u with dict := { s.dict with eventLog := s.dict.eventLog ++ [(0x0812, n)] } }
    let edge := { s with free := s.free + 1, hb := { s.hb with lastReelEdge := true } }
    let moves := fun (i : Instr) (u : State) (b : Nat) =>
      (∃ t, exec i s = .next t ∧ t.hb.reel.toNat = b) ∧ (quiet b → exec i s = .next (at' u b))
    let ignored := fun (i : Instr) (u : State) => ∃ t, exec i s = .next t ∧ CountsBy 0x300006 1 s t ∧
      t = { u with dict := { s.dict with values := t.dict.values } }
    (source = 1 → now < last → moves (.reelAdvance (.doorbell v)) s (max now x) ∧
      (Serves s path → isMeter path = false → quiet x →
        exec (.reelAdvance (.dictionary path v)) s = .next ((at' s (max now x)).answer path false 0 []))) ∧
    (source = 1 → now = last → exec (.reelAdvance (.doorbell v)) s = .next (refused s x) ∧
      (Serves s path → isMeter path = false →
        exec (.reelAdvance (.dictionary path v)) s = .next ((refused s x).answer path false 0x0812 []))) ∧
    (source ≠ 1 → ignored (.reelAdvance (.doorbell v)) s) ∧
    (Accepts s 0x20 m 6 →
      (source = 0 → s.hb.reelQp ≠ 0 → m.qp.setWidth 32 = s.hb.reelQp →
        (now < last → moves (.reelAdvance (.message m)) s (max now m.rsv.toNat)) ∧
        (now = last → exec (.reelAdvance (.message m)) s = .next (refused s m.rsv.toNat))) ∧
      (source ≠ 0 ∨ m.qp.setWidth 32 ≠ s.hb.reelQp → ignored (.reelAdvance (.message m)) s)) ∧
    (100 ≤ high → 1000 ≤ gap ∨ s.hb.lastReelEdge = false →
      (source = 2 → now < last → moves (.reelInPulse high gap) edge (now + 1)) ∧
      (source = 2 → now = last → exec (.reelInPulse high gap) s = .next (refused edge (now + 1))) ∧
      (source ≠ 2 → ignored (.reelInPulse high gap) edge)) ∧
    (100 ≤ high → gap < 1000 → s.hb.lastReelEdge = true → ignored (.reelInPulse high gap) { s with free := s.free + 1 }) ∧
    (high < 50 → exec (.reelInPulse high gap) s = .next { s with free := s.free + 1 })

/-- R292, R293, Table 11.12: an advance fires what lies between the counts in order of value, then of kind, then of object, however many
advances it is made of: a farther one does what a nearer one and then it do. At one value with a single entry due, a grade
switch comes into force, a lease ends as LEASE_EXPIRY ends it, a prefetch changes nothing but that its entry is gone, and a
release lets the flow's head batch go as BATCH_EGRESS does, when it may go. REEL_WRITE moves the count as the doorbell
does, and answers. -/
def Obligations.DelayOrder : Prop :=
  (∀ ds : List DelayEntry,
    (sortDelays ds).Perm ds ∧
    (sortDelays ds).Pairwise (fun a b => a.value < b.value ∨ (a.value = b.value ∧
      (a.kind < b.kind ∨ (a.kind = b.kind ∧ a.object ≤ b.object))))) ∧
  (∀ (s : State) (i k : Instr) (m b : Nat), MovesReel s k m s → m < b → MovesReel s i b s →
    ∃ t v, exec k s = .next t ∧ exec i s = .next v ∧ t.hb.reel.toNat = m ∧ v.hb.reel.toNat = b ∧
      (MovesReel t i b t → exec i t = .next v)) ∧
  (∀ (s u : State) (i : Instr) (b : Nat), MovesReel s i b u → (∀ d ∈ u.hb.delays, s.hb.reel.toNat < d.value → b ≤ d.value) →
    let due := u.hb.delays.filter (fun d => d.value = b)
    exec i s = .next (reelAt ((sortDelays due).foldl State.fire (reelAt u b)) b) ∧
    (∀ d : DelayEntry, due = [d] →
      let gone := reelAt { u with hb := { u.hb with delays := u.hb.delays.erase d } } b
      (d.kind = 0 → ∀ x, u.dict.schedule.find? (fun y => y.1.toNat = b) = some x →
        exec i s = .next { gone with dict := { u.dict with
          active := x.2, past := u.dict.past ++ [x], schedule := u.dict.schedule.filter (fun y => y.1 ≠ x.1) } }) ∧
      (d.kind = 1 → ∀ l, u.twin.leases.find? (fun l => !l.mine && l.number.toNat = d.object) = some l →
        u.lease? false l.kind l.object = some l → l.expiry.toNat ≤ b →
        ∃ t, exec (.leaseExpiry l.kind l.object) gone = .next t ∧ exec i s = .next (reelAt t b)) ∧
      (d.kind = 2 → exec i s = .next gone) ∧
      (d.kind = 3 → ∀ flow : BitVec 20, d.object = flow.toNat →
        ((reelAt u b).egressReady flow = none → exec i s = .next (reelAt u b)) ∧
        (∀ x, (reelAt u b).egressReady flow = some x → ∃ t, exec (.batchEgress flow) (reelAt u b) = .next t ∧
          (t.egressReady flow = none → exec i s = .next (reelAt t b)))))) ∧
  (∀ (s : State) (path : Path) (v : BitVec 64), Serves s path → isMeter path = false → s.rst.boot = .ready →
    s.rst.hostReset = false → s.furn 0x300003 0 = 1 → s.hb.reel.toNat < 2 ^ 48 - 1 →
    ∃ t, exec (.reelAdvance (.doorbell v)) s = .next t ∧
      exec (.reelAdvance (.dictionary path v)) s = .next (t.answer path false 0 []))

/-- R341, R342: a holder past EXPIRY − LEASE_GUARD stops acting, past EXPIRY − LEASE_REELS ÷ 2 asks for a renewal, and
the authority ends a lease whose EXPIRY the reel has reached. -/
def Obligations.Leases : Prop :=
  ∀ (s : State) (kind : BitVec 8) (object : BitVec 32) (l : Lease),
    let reel := s.hb.reel.toNat
    (s.lease? true kind object = some l →
      (l.expiry.toNat ≤ reel + s.furn 0x4C000E 16 → ∃ t, exec (.leaseGuard kind object) s = .next t ∧
        t.lease? true kind object = some { l with stopped := true } ∧ t.leaseStopped kind object = true ∧
        t = { s with twin := { s.twin with leases := t.twin.leases } }) ∧
      (l.expiry.toNat < reel + s.furn 0x4C000D 256 / 2 → s.fab.stopped = false → s.twin.couchUp = true →
        ∃ t f, exec (.leaseRenew kind object) s = .next t ∧ t.sent = s.sent ++ [.couch 7 f] ∧
        f.payload = l.bytes 2 ∧ f.fseq = s.twin.fseqTx + 1 ∧ f.wellFormed 7 = true ∧ t = { s with twin := t.twin, sent := t.sent })) ∧
    (s.lease? false kind object = some l → l.expiry.toNat ≤ reel → kind ≠ 1 → kind ≠ 2 →
      ∃ t, exec (.leaseExpiry kind object) s = .next t ∧ t.lease? false kind object = none ∧
        t = { s with twin := { s.twin with leases := t.twin.leases }, hb := { s.hb with delays := t.hb.delays } } ∧
        (∀ d ∈ t.hb.delays, d.kind = 1 → d.object ≠ l.number.toNat)) ∧
    (s.lease? false 1 object = some l → l.expiry.toNat ≤ reel → s.flow? (object.setWidth 20) = none →
      ∃ t, exec (.leaseExpiry 1 object) s = .next t ∧ t.lease? false 1 object = none)

/-- R321 to R324, R318: a CNP takes 1 ÷ FAB_CNP_DIV off the send rate, not below 1 Gb/s, a quiet interval adds 5 % of line
rate, not above it; a queue pair in error is connected again and sends what was not acknowledged; an RNR NAK tries the
oldest message again and is no error, and a CLASSA_RESP of a good request among these becomes one of a degraded request. An
acknowledgement timeout sends again what is not acknowledged, and after 7 of them in a row the queue pair is in error; how
much has been acknowledged by then is free (log entry 51). No other queue pair changes. -/
def Obligations.QueuePairs : Prop :=
  ∀ (s : State) (n : BitVec 16) (q : Qp), s.qp? n = some q → 0 < q.rateDen → 2 ≤ s.furn 0x4C0002 16 → s.fab.stopped = false →
    let rate := fun x : Qp => (x.rateNum : ℚ) / x.rateDen
    let only := fun (t : State) (q' : Qp) => t.qp? n = some q' ∧
      (∀ m, m ≠ n → t.qp? m = s.qp? m) ∧ t = { s with fab := { s.fab with qps := t.fab.qps }, sent := t.sent, free := t.free }
    let resent := fun (t : State) (ms : List (BitVec 8 × Msg)) => t.sent = s.sent ++ ms.map (fun m => Out.fabric m.1 m.2)
    (∃ t q', exec (.cnpReceive n) s = .next t ∧ only t q' ∧ t.sent = s.sent ∧ q' = { q with rateNum := q'.rateNum, rateDen := q'.rateDen } ∧
      rate q' = max 1000000000 (rate q * (1 - 1 / (s.furn 0x4C0002 16 : ℚ)))) ∧
    (∃ t q', exec (.rateRecover n) s = .next t ∧ only t q' ∧ t.sent = s.sent ∧ q' = { q with rateNum := q'.rateNum, rateDen := q'.rateDen } ∧
      rate q' = min 800000000000 (rate q + 40000000000)) ∧
    (q.error = true → ∃ t, exec (.qpReconnect n) s = .next t ∧ only t { q with error := false, retries := 0 } ∧ resent t q.unacked) ∧
    (q.unacked = [] → exec (.rnrNak n) s = .next (s.setQp { q with rnr := q.rnr + 1 })) ∧
    (∀ type m ms, q.unacked = (type, m) :: ms →
      (¬ (type = 0x31 ∧ fieldAt m.payload 0 2 = 0) →
        ∃ t, exec (.rnrNak n) s = .next t ∧ only t { q with rnr := q.rnr + 1 } ∧ resent t [(type, m)]) ∧
      (type = 0x31 → fieldAt m.payload 0 2 = 0 → ∃ t m', exec (.rnrNak n) s = .next t ∧
        m' = { m with type := 0x31, payload := putAt m.payload 0 [0x20, 0x09], crc := m'.check 0x31 } ∧
        t.qp? n = some { q with rnr := q.rnr + 1, unacked := (0x31, m') :: ms } ∧ (∀ k, k ≠ n → t.qp? k = s.qp? k) ∧
        resent t [(0x31, m')] ∧ CountsBy 0x481006 1 s t ∧
        t = { s with fab := { s.fab with qps := t.fab.qps }, sent := t.sent, dict := { s.dict with values := t.dict.values } })) ∧
    (q.error = false → q.unacked ≠ [] → ∃ t k q', exec (.localAckTimeout n) s = .next t ∧ only t q' ∧ k < q.unacked.length ∧
      q'.unacked = q.unacked.drop k ∧
      (k = 0 → q.retries < 7 → q' = { q with retries := q.retries + 1 } ∧ resent t q.unacked) ∧
      (k = 0 → 7 ≤ q.retries → q' = { q with error := true, retries := 7 } ∧ t.sent = s.sent) ∧
      (0 < k → q'.error = false ∧ q'.retries = 1 ∧ resent t q'.unacked))

/-- R289, R317, R321, R323, R325 to R327, R337: of the answers to a request the first is kept; a class A request that finds every
receive buffer full gets an RNR NAK, one behind a held one or with its flow's window full waits in its buffer and counts in
its window, one for a flow that is not loaded is answered at once, and any other becomes the next item of its flow; an
announced generation above the one held raises it. A message below its sender's generation is counted, answered with
FENCED and has no other effect; one by another operation than a send is answered with a NAK, and like one of another TYPE, of
reserved values or for another module it is a protocol error and no more; a CE mark is answered with a CNP. Outside service
no message has any effect. -/
def Obligations.FabricMessages : Prop :=
  ∀ (s : State) (m : Msg),
    let kept := { s with fab := { s.fab with responses := s.fab.responses ++ [(m.seq, m.payload)] } }
    let waits := { s with hb := { s.hb with winRequests := s.hb.winRequests + 1 },
                          fab := { s.fab with heldA := s.fab.heldA ++ [{ msg := m, failed := s.hb.winPrevFailed, fresh := true }] } }
    let errs := fun (i : Instr) (out : List Out) => ∃ t, exec i s = .next t ∧ CountsBy 0x4C0010 1 s t ∧ t.sent = s.sent ++ out ∧
      t = { s with dict := { s.dict with values := t.dict.values, eventLog := s.dict.eventLog ++ [(0x0A01, 0)] }, sent := t.sent }
    (TakesMsg s 0x31 m → exec (.classaResp m) s = .next (if (s.response? m.seq).isSome then s else kept)) ∧
    (TakesMsg s 0x33 m → (∃ u ∈ s.units, ∃ a ∈ u.asked, a.1 = m.seq) →
      exec (.gatherResp m) s = .next (if (s.response? m.seq).isSome then s else kept)) ∧
    (TakesMsg s 0x30 m → s.buffersFull m.qp = true → exec (.classaReq m) s = .next { s with sent := s.sent ++ [.rnrNak m.qp] }) ∧
    (TakesMsg s 0x30 m → s.buffersFull m.qp = false → s.fab.heldA ≠ [] → exec (.classaReq m) s = .next waits) ∧
    (∀ (j : Job) (f : FlowRun), TakesMsg s 0x30 m → s.buffersFull m.qp = false → s.fab.heldA = [] → m.part.toNat < 2 ^ 20 →
      s.flow? (m.part.setWidth 20) = some (j, f) → f.decl.cls = 0 → j.stopped = none → j.finalSent = false →
      let full := f.decl.window ≤ (s.hb.items.filter (fun it => it.key.flow = f.decl.flow)).length
      (full ∨ s.twin.state = .detaching → exec (.classaReq m) s = .next waits) ∧
      (∀ num base u, ¬ full → s.twin.state ≠ .detaching → s.item? (keyOf f.decl.flow f.next) = none →
        s.newAlloc j.job false false (roundUpTo (m.payload.length + 1) 64) = some (num, base, u) → OutRoom (u.memWrite base m.payload) j f →
        ∃ t it, exec (.classaReq m) s = .next t ∧
          Made s t j f f.next [{ addr := base, bytes := m.payload.length, alloc := num }] (f.shard.bind s.shardCore) it ∧
          it.reply = .peer m ∧ it.degraded = (s.hb.winPrevFailed || s.classAWide m.payload) ∧ t.sent = s.sent ∧
          t.hb.winRequests = s.hb.winRequests + 1 ∧ t.hb.winItems = s.hb.winItems ++ [it.key])) ∧
    (TakesMsg s 0x30 m → s.buffersFull m.qp = false → s.fab.heldA = [] → s.flow? (m.part.setWidth 20) = none →
      s.fab.stopped = false → ∃ t a, exec (.classaReq m) s = .next t ∧
      t.sent = s.sent ++ [.fabric 0x31 a] ∧ a.seq = m.seq ∧ a.dst = m.src ∧ a.payload = classAPayload 0x0816 [] ∧
      a.wellFormed 0x31 = true ∧ t.hb.winRequests = s.hb.winRequests + 1) ∧
    (TakesMsg s 0x32 m → s.gatherHeld m = true →
      exec (.gatherReq m) s = .next { s with fab := { s.fab with heldGathers := s.fab.heldGathers ++ [(m, s.felt.migEpoch)] } }) ∧
    (TakesMsg s 0x32 m → s.gatherHeld m = false → s.fab.stopped = false → ∃ t a, exec (.gatherReq m) s = .next t ∧
      .fabric 0x33 a ∈ t.sent ∧ a.seq = m.seq ∧ a.dst = m.src ∧ a.qp = m.qp ∧ a.wellFormed 0x33 = true) ∧
    (TakesMsg s 0x46 m → m.part = m.from.setWidth 32 → m.from ≠ s.twinId → ∃ t, exec (.genAnnounce m) s = .next t ∧
      t = { s with fab := { s.fab with gens := t.fab.gens } } ∧
      (∀ x, (t.genOf x).toNat = if x = m.from then max (s.genOf x).toNat m.value.toNat else (s.genOf x).toNat)) ∧
    (∀ p ∈ [((0x30 : BitVec 8), Instr.classaReq m), (0x31, .classaResp m), (0x32, .gatherReq m), (0x33, .gatherResp m), (0x40, .fenceNotice m),
            (0x41, .fenceAck m), (0x42, .fenced m), (0x43, .holderState m), (0x44, .couchProbe m), (0x45, .couchProbeAck m),
            (0x46, .genAnnounce m)],
      (s.rst.boot ≠ .ready → exec p.2 s = .next s) ∧
      (s.rst.boot = .ready → m.by' ≠ .send → s.fab.stopped = false → errs p.2 ((if m.ce then [.cnp m.qp] else []) ++ [.nak m.qp])) ∧
      (s.rst.boot = .ready → m.by' = .send → m.ce = false → ¬ Addressed s p.1 m → errs p.2 []) ∧
      (s.rst.boot = .ready → m.by' = .send → m.ce = true → s.fab.stopped = false → ∃ t, exec p.2 s = .next t ∧ .cnp m.qp ∈ t.sent) ∧
      (Addressed s p.1 m → m.gen.toNat < (s.genOf m.from).toNat → s.fab.stopped = false →
        ∃ t a, exec p.2 s = .next t ∧ CountsBy 0x4C000F 1 s t ∧ t.sent = s.sent ++ [.fabric 0x42 a] ∧ a.dst = m.from.setWidth 16 ∧
          t = { s with dict := { s.dict with values := t.dict.values, eventLog := s.dict.eventLog ++ [(0x0A02, m.from.toNat)] },
                       fab := { s.fab with qps := t.fab.qps }, sent := t.sent }))

/-- R337, R339, R341, R343, R346: FENCE_NOTICE raises the victim's generation and is acknowledged; FENCE_ACK moves its sender
from those awaited; the last one commits the fence: of a whole pair the twin's work is taken over, its leases revoked and its
shards served in tier B from the replica, and with no whole pair every job on the victim stops; FENCED and a FENCE frame stop
all sending and begin a warm reset under the twin-fence source; a peer silent for FENCE_ACK_US is counted lost, and gets the
notice once more on every active port. -/
def Obligations.Fencing : Prop :=
  ∀ (s : State) (m : Msg) (f : Frame),
    let v : BitVec 14 := m.part.setWidth 14
    (TakesMsg s 0x40 m → m.part.toNat < 2 ^ 14 → (v ∈ s.fab.fenceSeen ∨ (s.slurry = [] ∧ s.felt.tables = [])) → s.fab.stopped = false → ∃ t a, exec (.fenceNotice m) s = .next t ∧
      (t.genOf v).toNat = max (s.genOf v).toNat m.value.toNat ∧ v ∈ t.fab.fenceSeen ∧
      t.sent = s.sent ++ [.fabric 0x41 a] ∧ a.seq = m.seq ∧ a.part = m.part ∧ a.dst = m.src) ∧
    (∀ x, TakesMsg s 0x41 m → s.twin.fences.find? (fun f => f.id = m.seq && f.victim.toNat = m.part.toNat) = some x →
      m.from ∈ x.awaiting → (∃ p ∈ x.awaiting, p ≠ m.from) → ∃ t, exec (.fenceAck m) s = .next t ∧
      t = { s with twin := { s.twin with fences := s.twin.fences.map (fun y => if y.id = x.id then
        { x with awaiting := x.awaiting.filter (· ≠ m.from), acked := x.acked ++ [m.from] } else y) } }) ∧
    (∀ x, TakesMsg s 0x41 m → s.twin.fences.find? (fun f => f.id = m.seq && f.victim.toNat = m.part.toNat) = some x →
      x.awaiting = [m.from] → x.committed = false → ∃ t, exec (.fenceAck m) s = .next t ∧
      { x with awaiting := [], acked := x.acked ++ [m.from], committed := true } ∈ t.twin.fences ∧
      (x.victim ≠ s.straps.modid ^^^ 1 ∨ s.twin.state ≠ .paired → ∀ j ∈ s.jobsWith x.victim, s.job? j.job = some j → j.stopped = none →
        (0x0A0B, j.job.toNat) ∈ t.dict.eventLog ∧ ∀ k, t.job? j.job = some k → k.stopped = some 0x0A0B) ∧
      (x.victim = s.straps.modid ^^^ 1 → s.twin.state = .paired →
        t.twin.state = .takeover ∧ x.victim ∈ t.fab.fenceSeen ∧ t.modVal 0x4C0011 0 = s.modVal 0x4C0011 0 + 1 ∧ t.twin.logHeld = [] ∧
        (∀ (tb : Table) (d : Nat), s.jobsWith x.victim = [] → s.twin.logHeld = [] → s.felt.waiting = [] → s.felt.tables = [tb] →
          tb.homes = [(d, x.victim)] → d < 2 ^ 16 →
          (∀ l ∈ t.twin.leases, l.mine = true) ∧ (tb.id, BitVec.ofNat 16 d, 4) ∈ t.rst.shardPlace ∧
          t.felt.tables = [{ (s.twin.replica.filter (fun r => r.1 = tb.id && tb.shardOf r.2.1 = d)).foldl
            (fun u r => u.setRow r.2.1 r.2.2) tb with homes := [] }]))) ∧
    (∀ p x, s.twin.fences.find? (fun f => !f.committed && f.awaiting.contains p) = some x → (∃ o ∈ x.awaiting, o ≠ p) →
      s.jobsWith x.victim = [] → ∃ t y, exec (.fenceAckUs p) s = .next t ∧ y ∈ t.twin.fences ∧ y.id = x.id ∧ y.victim = x.victim ∧
      y.awaiting = x.awaiting.filter (· ≠ p) ∧ p ∈ y.lost ∧ p ∈ y.again ∧ y.committed = false ∧
      (p ∉ x.again → s.fab.stopped = false → ∃ a : Msg, a.dst = p.setWidth 16 ∧ a.seq = x.id ∧
        t.sent = s.sent ++ (activePorts s.fab.ports).map (fun i => Out.fabricOn i 0x40 a))) ∧
    (TakesMsg s 0x42 m → m.part = s.straps.modid.setWidth 32 → s.rst.window = none →
      (∀ j ∈ s.hb.jobs, m.from ∉ j.modules) →
      ∃ t, exec (.fenced m) s = .next t ∧ Taken s t .twinFence 2 0x20000020 ∧ (0x0A07, 0) ∈ t.dict.eventLog) ∧
    (TakesFrame s 6 f → s.rst.window = none →
      ∃ t, exec (.fenceFrame f) s = .next t ∧ Taken s t .twinFence 2 0x20000020 ∧ (0x0A07, 0) ∈ t.dict.eventLog)

/-- R332, R338, R355: a heartbeat interval sends HEARTBEAT with the state; COUCH_MISS_LIMIT silent ones make the
module suspect its twin and probe it on every active port; the twin answers a probe; an answer puts the pair in
COUCH_DOWN; none in time makes role A fence and role B hold first, and fence when the hold expires. A HEARTBEAT sets
the twin's state. -/
def Obligations.TwinWatch : Prop :=
  ∀ (s : State) (m : Msg) (f : Frame), s.rst.boot = .ready → s.fab.stopped = false →
    let fences := fun t : State => ∃ x ∈ t.twin.fences, x.victim = s.straps.modid ^^^ 1
    (s.twin.couchUp = true → ∃ t h, exec .couchHbUs s = .next t ∧ t.sent = s.sent ++ [.couch 1 h] ∧
      fieldAt h.payload 0 1 = twinStateNumber s.twin.state ∧ fieldAt h.payload 8 8 = s.hb.reel.toNat ∧
      fieldAt h.payload 0x10 8 = s.twin.lsnApplied.toNat ∧ h.wellFormed 1 = true ∧ t = { s with twin := t.twin, sent := t.sent }) ∧
    ((s.twin.state = .paired ∨ s.twin.state = .resync) → s.twin.couchDown = false → s.twin.suspect = false →
      ∃ (t : State) (x : Msg), exec .twinSuspect s = .next t ∧ t.twin = { s.twin with
          suspect := true, probe := some s.twin.probeNext, probeNext := s.twin.probeNext + 1 } ∧
        t.sent = s.sent ++ (activePorts s.fab.ports).map (fun i => Out.fabricOn i 0x44 x) ∧
        x.seq = s.twin.probeNext ∧ x.dst = (s.straps.modid ^^^ 1).setWidth 16) ∧
    (TakesMsg s 0x44 m → m.from = s.straps.modid ^^^ 1 → ∃ t a, exec (.couchProbe m) s = .next t ∧
      t.sent = s.sent ++ [.fabric 0x45 a] ∧ a.seq = m.seq ∧ a.dst = m.src ∧ a.wellFormed 0x45 = true) ∧
    (TakesMsg s 0x45 m → m.from = s.straps.modid ^^^ 1 → s.twin.suspect = true → s.twin.probe = some m.seq →
      ∃ t, exec (.couchProbeAck m) s = .next t ∧ t.twin.couchUp = false ∧ t.twin.couchDown = true ∧ t.twin.suspect = false ∧
        t.twin.probe = none ∧ t.twin.hold = false ∧ (0x0A0C, 0) ∈ t.dict.eventLog) ∧
    (s.twin.suspect = true → s.twin.probe.isSome = true →
      (s.straps.twinb = true → exec .couchProbeUs s = .next { s with twin := { s.twin with hold := true, probe := none } }) ∧
      (s.straps.twinb = false → s.hb.jobs = [] → ∃ t, exec .couchProbeUs s = .next t ∧ fences t)) ∧
    (s.twin.suspect = true → s.twin.hold = true → s.hb.jobs = [] → ∃ t, exec .couchHoldBUs s = .next t ∧ fences t) ∧
    (∀ st, TakesFrame s 1 f → twinStateOf (fieldAt f.payload 0 1) = some st → s.twin.state = .unpaired →
      s.felt.waiting = [] → ∃ t, exec (.heartbeat f) s = .next t ∧ t.twin.peerState = st ∧ t.twin.fseqRx = f.fseq ∧
        t.twin.state = .unpaired ∧ t.twin.suspect = false)

/-- R333 to R335, Table 13.6: records whose LSN follows the one held are held in order and acknowledged, in LOG and RESYNC frames
alike; held records are applied in LSN order: the rows of ROWS records go one after another into the replica, REGISTER and
UNREGISTER add and remove a table, UPDATE records change their set, and a row this module itself homes is taken into its
own table (R370; the last is log entry 174); acknowledgements move what the twin is known to hold; mirror records are
held, the latest of each kind and flow. -/
def Obligations.ReplicaLog : Prop :=
  ∀ (s : State) (f : Frame), s.fab.stopped = false →
    let held := fun (r : LogRec) (t : State) => t.twin.lsnHeld = r.lsn ∧ t.twin.logHeld = s.twin.logHeld ++ [r] ∧
      ∃ a, t.sent = s.sent ++ [.couch 3 a] ∧ fieldAt a.payload 0 8 = r.lsn.toNat ∧ fieldAt a.payload 8 8 = s.twin.lsnApplied.toNat
    (∀ (r : LogRec), s.logRecords (f.payload.length / 32 + 1) f.payload = [r] → r.lsn = s.twin.lsnHeld + 1 →
      (TakesFrame s 2 f → ∃ t, exec (.log f) s = .next t ∧ held r t) ∧
      (TakesFrame s 9 f → ∃ t, exec (.resync f) s = .next t ∧ held r t)) ∧
    (s.twin.logHeld ≠ [] → ∃ t, exec .logApply s = .next t ∧ t.twin.logHeld = [] ∧
      some t.twin.lsnApplied = (s.twin.logHeld.getLast?).map (·.lsn) ∧
      (let bytes := fun (table : BitVec 16) (b : Bytes) => match s.table? table with | some u => b.take u.rowBytes | none => b
       let put := fun (rep : List (BitVec 16 × Nat × Bytes)) (r : LogRec) => r.rows.foldl (fun rep x =>
         rep.filter (fun y => !(y.1 = r.table && y.2.1 = x.1)) ++ [(r.table, x.1, bytes r.table x.2)]) rep
       (∀ r ∈ s.twin.logHeld, r.kind = 1 ∧ ∀ u, s.table? r.table = some u →
         u.replicated = true ∨ ∀ x ∈ r.rows, (u.homeOf x.1 s.straps.modid).isSome = true) →
       t.twin.replica = s.twin.logHeld.foldl put s.twin.replica) ∧
      (∀ r, s.twin.logHeld = [r] →
        (r.kind = 2 → s.table? r.table = none → ∃ u : Table, t.felt.tables = s.felt.tables ++ [u] ∧
          u = { tableOf r.data none with homes := u.homes }) ∧
        (r.kind = 3 → t.twin.replica = s.twin.replica.filter (fun x => x.1 ≠ r.table) ∧
          t.felt.tables = s.felt.tables.filter (fun u => !(u.id = r.table && u.job = none))) ∧
        (r.kind = 4 → t.wm.sets = s.wm.sets.map (fun x => if x.id = r.table then
          { x with entries := ((List.range r.count.toNat).map (wmRecordAt r.data)).foldl applyRecord x.entries } else x)) ∧
        (∀ u x, r.kind = 1 → s.table? r.table = some u → u.replicated = false → u.homeOf x.1 s.straps.modid = none →
          r.rows = [x] → s.shardTaken u (u.shardOf x.1) = false → t.twin.replica = s.twin.replica ∧
          ∃ v, t.table? u.id = some v ∧ v = { u.setRow x.1 (x.2.take u.rowBytes) with
            bad := Assoc.erase u.bad x.1, version := max u.version ((r.epoch.toNat + 1) % 2 ^ 32) }))) ∧
    (TakesFrame s 3 f → s.felt.waiting = [] → s.twin.state = .paired →
      let held := fieldAt f.payload 0 8
      let applied := fieldAt f.payload 8 8
      held ≤ s.twin.lsnTx.toNat → applied ≤ s.twin.lsnTx.toNat → ∃ t, exec (.logAck f) s = .next t ∧
        t.twin.lsnAcked.toNat = max s.twin.lsnAcked.toNat held ∧
        t.twin.logOut = s.twin.logOut.filter (fun r => applied < r.1.toNat)) ∧
    (TakesFrame s 5 f →
      let n := fieldAt f.payload 0 8
      ∃ t, exec (.mirrorAck f) s = .next t ∧ t.twin.mseqAcked.toNat =
        (if n ≤ s.twin.mseqTx.toNat then max s.twin.mseqAcked.toNat n else s.twin.mseqAcked.toNat)) ∧
    (TakesFrame s 4 f → f.payload.length = 64 →
      let r := mirrorOfBytes f.payload
      r.kind = 2 → s.mseqHeld < r.mseq.toNat → ∃ t a, exec (.mirror f) s = .next t ∧ r ∈ t.twin.mirrors ∧
        (∀ x ∈ t.twin.mirrors, x.kind = 2 → x.flow = r.flow → x = r) ∧
        t.sent = s.sent ++ [.couch 5 a] ∧ fieldAt a.payload 0 8 = r.mseq.toNat)

/-- R328, R331, R337, R341, R342, R347, Table 13.10: a LANE frame makes both ends stripe over the same lanes; a
refused flit makes the sender replay what is not acknowledged; ATTACH of the right twin is agreed, of another leaves
the module unpaired; a grant above the generation held is taken and announced; DETACH gives its leases back and
announces the next generation; a lease record of the current number renews or revokes. -/
def Obligations.CouchAndAttach : Prop :=
  ∀ (s : State) (f : Frame) (lanes : BitVec 16) (gen : BitVec 32), s.rst.boot = .ready →
    (TakesFrame s 8 f → BitVec.ofNat 16 (fieldAt f.payload 0 2) = lanes → lanes &&& s.twin.retiredLanes = 0 →
      ∃ t, exec (.lane f) s = .next t ∧ t.twin.lanes = lanes ∧ t.twin.retiredLanes = s.twin.retiredLanes) ∧
    (∀ n, s.twin.couchUp = true → s.fab.stopped = false → exec (.flitRefused n) s =
      .next { s with sent := s.sent ++ s.twin.unacked.map (fun u => Out.couch u.1 u.2) }) ∧
    (TakesFrame s 0x0A f → s.straps.boot ≠ 1 → s.twin.strapBad = false →
      8 ≤ ((List.range 16).filter (fun i => s.twin.lanes.getLsbD i)).length → (f.fseq = 1 → s.twin.fseqRx = 0) →
      ∃ t, exec (.attach f) s = .next t ∧
        (fieldAt f.payload 0 2 = (s.straps.modid ^^^ 1).toNat →
          fieldAt f.payload 2 1 = (if (s.straps.modid ^^^ 1).getLsbD 0 then 1 else 0) →
          (fieldAt f.payload 4 4 = Config.rowsem.toNat → t.twin.peerOk = true ∧ t.twin.state = s.twin.state) ∧
          (fieldAt f.payload 4 4 ≠ Config.rowsem.toNat → t.twin.peerOk = false ∧ t.twin.state = .unpaired ∧
            (0x0A04, 0) ∈ t.dict.eventLog)) ∧
        (fieldAt f.payload 0 2 ≠ (s.straps.modid ^^^ 1).toNat →
          t.twin.peerOk = false ∧ t.twin.state = .unpaired ∧ (0x0A03, 0) ∈ t.dict.eventLog)) ∧
    (∀ (q : TunnelReq) (peers : List (BitVec 14)), Serves s (.tunnel q) → s.straps.boot ≠ 1 → s.fab.gen.toNat < gen.toNat →
      s.twin.peerOk = false → ∃ t, exec (.attachGrant (.tunnel q) gen peers) s = .next t ∧
        t.fab.gen = gen ∧ t.fab.stopped = false ∧ t.twin.state = .unpaired ∧
        (∀ p, p ∈ t.fab.peers ↔ p ≠ s.straps.modid ∧ (p ∈ peers ∨ p = s.straps.modid ^^^ 1)) ∧
        ∀ p ∈ t.fab.peers, ∃ a, .fabric 0x46 a ∈ t.sent ∧ a.dst = p.setWidth 16 ∧ a.src = s.straps.modid.setWidth 16 ∧
          a.part = s.straps.modid.setWidth 32 ∧ a.value = gen ∧ a.gen = gen ∧ a.wellFormed 0x46 = true) ∧
    (s.twin.state ≠ .detaching → ∃ t, exec .detach s = .next t ∧ t.twin.state = .detaching ∧ (∀ l ∈ t.twin.leases, l.mine = false) ∧
      (s.fab.stopped = false → ∀ p ∈ s.fab.peers, ∃ a, .fabric 0x46 a ∈ t.sent ∧ a.dst = p.setWidth 16 ∧ a.value = s.fab.gen + 1)) ∧
    (∀ h l op, TakesFrame s 7 f → f.payload.length = 32 → leaseOf f.payload = (op, l) → l.kind ≠ 0 →
      s.lease? true l.kind l.object = some h → h.number = l.number →
      ∃ t, exec (.lease f) s = .next t ∧
        (op = 2 → t.lease? true l.kind l.object = some { h with expiry := l.expiry, stopped := false }) ∧
        (op = 4 → t.lease? true l.kind l.object = some { h with stopped := true }))

/-- Tables 14.1 and 14.2, R351, R352: with no window open a source held 1.2 µs or more is taken: it opens a window of
its reach, RESET_CAUSE holds the reach and the source's bit, a cold or power-on reset loses tier A, a warm one keeps
it, and HOST_PERST_N leaves everything but the host port and what hangs on it running: cores, units, memory, the twin, the
fabric but for what queue pairs then hold, and every job and item without egress or a request there; requests of the host
fail with RST_HOST_PORT. A level under 1.0 µs changes nothing (the free value drawn for it aside). -/
def Obligations.ResetInputs : Prop :=
  ∀ (s : State) (ns : Nat), s.rst.window = none →
    (1200 ≤ ns →
      (∃ t, exec (.pwrGood ns) s = .next t ∧ Taken s t .pwrGood 0 0x00000001 ∧ t.pow.pwrGood = false) ∧
      (∃ t, exec (.modRstN ns) s = .next t ∧ Taken s t .modRst 1 0x10000002) ∧
      (∃ t, exec (.warmRstN ns) s = .next t ∧ Taken s t .warmRst 2 0x20000008) ∧
      (∃ t, exec (.hostPerstN ns) s = .next t ∧ t.rst.hostReset = true ∧ t.host = HostPort.reset ∧
        t.rst.window = some { reach := 3, taken := [.hostPerst], low := [.hostPerst] } ∧ t.rst.boot = s.rst.boot ∧
        ((∀ r ∈ s.hb.rings, (s.flow? r.flow).isSome = true) → ∀ r ∈ t.hb.rings, r.rkey ≠ 0) ∧
        t.cores = s.cores ∧ t.units = s.units ∧ t.ports = s.ports ∧ t.mem = s.mem ∧ t.pulpers = s.pulpers ∧ t.wm = s.wm ∧
        t.twin = s.twin ∧ t.fab = { s.fab with qps := t.fab.qps } ∧ t.pow = s.pow ∧ t.meter = s.meter ∧ t.sec = s.sec ∧
        t.straps = s.straps ∧
        (∀ j ∈ s.hb.jobs, (∀ x ∈ s.hb.jobs, x.job = j.job → x = j) →
          (∀ r ∈ s.hb.rings, r.rkey = 0 → ∀ g ∈ j.flows, g.decl.flow ≠ r.flow) → j ∈ t.hb.jobs ∧
          ∀ it ∈ s.hb.items, it.job = j.job → (∀ x ∈ s.hb.items, x.key = it.key → x = it) →
            (∀ to' room, it.reply ≠ .host to' room) → it ∈ t.hb.items) ∧
        ((∀ r ∈ s.hb.rings, r.rkey ≠ 0) → t.slurry = s.slurry ∧ t.hb.rings = s.hb.rings ∧
          ∀ it ∈ s.hb.items, ∀ to' room, it.reply = .host to' room → ∃ ph, .completion to' 0x0B06 true ph it.job 0 ∈ t.sent))) ∧
    (ns < 1000 → ∀ i ∈ [Instr.pwrGood ns, .modRstN ns, .warmRstN ns, .hostPerstN ns],
      exec i s = .next { s with free := s.free + 1 })

/-- R354, R361 to R363, R371, R414: the internal sources open a window of their reach with their bit of RESET_CAUSE; a
warm reset whose write-back takes 10 ms widens to cold and sets bit 8. The READY timer does not run in recovery mode.
-/
def Obligations.ResetSources : Prop :=
  ∀ (s : State) (cause : BitVec 8) (path : Path),
    (s.rst.window = none →
      (s.rst.boot = .starting → ∃ t, exec (.selftestFailure cause) s = .next t ∧ Taken s t .selfTest 1 0x10000040 ∧
        (0x0B01, cause.toNat) ∈ t.dict.eventLog) ∧
      (s.rst.boot = .starting → ∃ t, exec .readyTimeout s = .next t ∧ Taken s t .readyTimeout 1 0x10000080 ∧
        (0x0B02, 0) ∈ t.dict.eventLog) ∧
      (s.rst.boot = .recovery → exec .readyTimeout s = .next s) ∧
      (s.rst.boot = .ready → ∃ t, exec .watchdog s = .next t ∧ Taken s t .watchdog 2 0x20000010) ∧
      (s.rst.boot = .ready → ∃ t, exec .refclkFail s = .next t ∧ Taken s t .selfTest 1 0x10000040 ∧
        (0x0B01, 0) ∈ t.dict.eventLog) ∧
      (Serves s path → isMeter path = false → ∃ t, exec (.resetCold path 0x444C4F43) s = .next t ∧
        Taken s t .resetCold 1 0x10000004)) ∧
    (∀ w, s.rst.window = some w → w.reach = 2 → w.taken = [.warmRst] →
      ∃ t, exec .warmEscalation s = .next t ∧ t.rst.window = some { w with reach := 1 } ∧ t.rst.cause = 0x10000108 ∧
        t.mem.bytes = [] ∧ (0x0B04, 0) ∈ t.dict.eventLog)

/-- R351, R353, R364, R365, R366: a reset input's release held under 1.0 µs changes nothing; one held 1.2 µs or more, and any
release of another source, counts. The last one closes the window; after a warm or wider reset the start is counted, or
the module is in recovery mode where the straps, the failed starts or the keys say so, with tier B in reset and the cause
in the event log and the mailbox; while another source is low the window stays. -/
def Obligations.ResetRelease : Prop :=
  ∀ (s : State) (src : ResetSource) (ns : Nat) (w : Window), s.rst.window = some w →
    let input : Bool := [ResetSource.pwrGood, .modRst, .warmRst, .hostPerst].contains src
    let most := [2, 3, 5, 8][s.straps.maxFail.toNat]?.getD 0
    (input = true → ns < 1000 → exec (.resetRelease ⟨src, ns⟩) s = .next { s with free := s.free + 1 }) ∧
    (input = false ∨ 1200 ≤ ns →
    (w.low = [src] → w.reach = 3 → ∃ t, exec (.resetRelease ⟨src, ns⟩) s = .next t ∧ t.rst.window = none ∧
      t.rst.hostReset = false ∧ t.rst.boot = s.rst.boot) ∧
    (w.low = [src] → w.reach < 3 → ∃ t, exec (.resetRelease ⟨src, ns⟩) s = .next t ∧ t.rst.window = none ∧
      t.rst.hostReset = false ∧ t.rst.cause = s.rst.cause ∧
      (if s.sec.state ≠ 0 ∨ s.straps.boot = 2 ∨ s.straps.boot = 3 ∨ most ≤ s.rst.failCount.toNat
       then t.rst.boot = .recovery ∧ t.rst.failCount = s.rst.failCount ∧ (0x0B03, 0) ∈ t.dict.eventLog ∧
         t.host.mbStatus = 0x0B03 ∧ t.mem.tierB = Vector.replicate 4 0 ∧ t.mem.tierBUp = false
       else t.rst.boot = .starting ∧ t.rst.failCount = s.rst.failCount + 1)) ∧
    (∀ other, other ≠ src → src ≠ .pwrGood → w.low = [src, other] → exec (.resetRelease ⟨src, ns⟩) s =
      .next { s with rst := { s.rst with window := some { w with low := [other] } },
                     free := if input = true then s.free + 1 else s.free }))

/-- R364, R285, R302 to R305, Table 14.4: READY clears the failed-start counter, puts dispatch in PUSH, reports the jobs
that a reset ended (R356), finds the devices of tier B after a reset that left it down, each port left out reported, and
the tier C namespaces it does not use, and trains the Couch link unless the straps keep the module unpaired. With fewer
than 960 cores in service the start fails its self-test instead (R361), and so it does while REFCLK, once out of range, has
not returned (R414; that it has is free, log entry 154). The class A window counts from the level in force, 8 while a die is
stretched (R393). -/
def Obligations.ReadyInService : Prop :=
  ∀ s : State, s.rst.boot = .starting →
    let l := if s.straps.safeClk then 8 else s.pow.level
    let left := 1024 - s.dict.coresOut.length
    (left < 960 → s.rst.refclkOut = false → s.rst.window = none → ∃ t, exec .ready s = .next t ∧ Taken s t .selfTest 1 0x10000040 ∧
      (0x0B01, left) ∈ t.dict.eventLog) ∧
    (s.rst.refclkOut = true → s.rst.window = none → ∃ t, exec .ready s = .next t ∧
      ((960 ≤ left ∧ t.rst.boot = .ready ∧ t.rst.refclkOut = false) ∨ Taken s t .selfTest 1 0x10000040)) ∧
    (960 ≤ left → s.rst.refclkOut = false → ∃ t, exec .ready s = .next t ∧
      t = { s with rst := { s.rst with boot := .ready, failCount := 0, counted := true, endedJobs := [] },
                   hb := { s.hb with pull := false, winLevel := if s.pow.stretched = 0 then l else 8 },
                   pow := { s.pow with level := l }, twin := t.twin,
                   mem := { s.mem with tierB := t.mem.tierB, tierBUp := t.mem.tierBUp, tierCUnused := t.mem.tierCUnused },
                   dict := { s.dict with eventLog := t.dict.eventLog }, host := t.host, sent := t.sent, free := t.free } ∧
      (s.straps.tierbEn = false ∨ s.mem.tierBUp = true → t.mem.tierB = s.mem.tierB ∧ t.mem.tierBUp = s.mem.tierBUp) ∧
      (s.straps.tierbEn = true → s.mem.tierBUp = false → t.mem.tierBUp = true ∧ ∀ p : Fin 4,
        let d := Config.tierBDevice s.free p.val
        t.mem.tierB[p] = (if d.inSubset = true ∧ d.ide = true then d.bytes / 256000000 * 256000000 else 0) ∧
        (d.bytes ≠ 0 → d.inSubset = false → (0x0901, p.val) ∈ t.dict.eventLog) ∧
        (d.bytes ≠ 0 → d.inSubset = true → d.ide = false → (0x0902, p.val) ∈ t.dict.eventLog)) ∧
      (∀ n ∈ t.mem.tierCUnused, (0x0904, n.toNat) ∈ t.dict.eventLog) ∧
      (∀ j ∈ s.rst.endedJobs, ∃ phase, Out.completion j.2 0x0B05 true phase j.1 0 ∈ t.sent) ∧
      (∀ r ∈ s.meter.queue, Out.report r ∈ t.sent) ∧
      (s.straps.twinb ≠ s.straps.modid.getLsbD 0 →
        t.twin = { s.twin with strapBad := true, state := .unpaired } ∧ (0x0A03, 0) ∈ t.dict.eventLog) ∧
      (s.straps.twinb = s.straps.modid.getLsbD 0 → s.straps.boot = 1 → t.twin = { s.twin with state := .unpaired }) ∧
      (s.straps.twinb = s.straps.modid.getLsbD 0 → s.straps.boot ≠ 1 → t.twin.couchUp = true ∧ t.twin.state = s.twin.state))

/-- R9, R10, R322, R331, R358, R359, R364: what the small resets and retirements do to a core, Vat or port in use by
nothing: a reset core holds nothing, a retired one gives its number and counters to the spare or goes out, a retired or failed
port's queue pairs move to active port (m + c) mod n, and a reset one's stay where they have gone (log entry 98), a retired
lane leaves the link, and a reset one leaves it and comes back, which takes a link of 8 lanes down; a tier B port that holds
an allocation refuses its reset, and one that holds nothing serves again; the reset of an NVMe port changes nothing the module
shows. RESET_CAUSE takes reach 4 or 5 with no source bit and no window (log entry 95). An UPDATE of a Watermark set goes
on (R268), and while a window is open a narrower reset is absorbed (R352). -/
def Obligations.SmallResets : Prop :=
  ∀ (s : State) (path : Path) (c : CoreId) (vat : BitVec 6) (p : Fin 8) (lane : Fin 16),
    Serves s path → isMeter path = false →
    let n := 16 * c.vat.toNat + c.core.toNat
    let free := (s.core c).item = none ∧ (s.core c).preempted = none
    let answers := fun (i : Instr) (u : State) => exec i s = .next (u.answer path false 0 [])
    let quiet := s.rst.window = none
    let noted := fun u : State => { u with rst := { u.rst with cause := 0x50000000 } }
    let cleared := fun (t : State) (k : Core) => t.core c = k ∧ (∀ d, d ≠ c → t.core d = s.core d) ∧
      t.units = s.units.filter (fun u => u.core ≠ c ∨ (u.unit = 3 ∧ u.field 0 1 = 3)) ∧
      t.hb.firmwareFault = s.hb.firmwareFault.filter (· ≠ c) ∧ t.hb.slots = s.hb.slots.filter (fun x => x.1 ≠ c)
    (¬ quiet → answers (.coreReset path (BitVec.ofNat 16 n)) s ∧ answers (.vatReset path (vat.setWidth 8)) s ∧
      answers (.portReset path (BitVec.ofNat 8 p.val)) s) ∧
    (quiet → free → ∃ t, answers (.coreReset path (BitVec.ofNat 16 n)) t ∧ cleared t Core.reset ∧ t.rst.cause = 0x50000000) ∧
    (free → c ∉ s.dict.coresOut → ∃ t, answers (.coreRetire (some path) (BitVec.ofNat 16 n)) t ∧
      exec (.coreRetire none (BitVec.ofNat 16 n)) s = .next t ∧
      cleared t (if Assoc.get 0xFF s.dict.spareMap c.vat.toNat = 0xFF
        then { Core.reset with cycle := (s.core c).cycle, retired := (s.core c).retired } else Core.reset) ∧
      (if Assoc.get 0xFF s.dict.spareMap c.vat.toNat = 0xFF
       then Assoc.get 0xFF t.dict.spareMap c.vat.toNat = c.core.setWidth 8 ∧ t.dict.coresOut = s.dict.coresOut
       else t.dict.spareMap = s.dict.spareMap ∧ t.dict.coresOut = s.dict.coresOut ++ [c])) ∧
    (quiet → (∀ d : CoreId, d.vat = vat → (s.core d).item = none ∧ (s.core d).preempted = none) →
      ∃ t, answers (.vatReset path (vat.setWidth 8)) t ∧ (∀ d : CoreId, t.core d = if d.vat = vat then Core.reset else s.core d) ∧
        (∀ l ∈ t.mem.l2, l.vat ≠ vat) ∧ (∀ k, k < 32 → t.port (32 * vat.toNat + k) = PortWindow.reset) ∧
        t.rst.cause = 0x40000000) ∧
    (let ports := s.fab.ports &&& ~~~(BitVec.ofNat 8 (2 ^ p.val))
     let left := (List.range 8).filter (fun i => ports.getLsbD i)
     let moved := fun qs : List Qp => qs.length = s.fab.qps.length ∧ ∀ (i : Nat) (q q' : Qp), s.fab.qps[i]? = some q →
       qs[i]? = some q' → q' = { q with port := q'.port } ∧ (q.port.toNat ≠ p.val → q' = q) ∧
         (q.port.toNat = p.val → ∀ k, left[(q.peer.toNat + q.cls.toNat) % left.length]? = some k → q'.port.toNat = k)
     (∃ t, answers (.portRetire path (BitVec.ofNat 8 p.val)) t ∧ moved t.fab.qps ∧
       t = { s with fab := { s.fab with ports := ports, retired := s.fab.retired ||| BitVec.ofNat 8 (2 ^ p.val),
                                        qps := t.fab.qps } }) ∧
     (∃ t, exec (.portFail (BitVec.ofNat 3 p.val)) s = .next t ∧ moved t.fab.qps ∧
       t = { s with fab := { s.fab with ports := ports, retired := s.fab.retired ||| BitVec.ofNat 8 (2 ^ p.val),
                                        qps := t.fab.qps } }) ∧
     (quiet → s.fab.retired.getLsbD p.val = false → ∃ t, answers (.portReset path (BitVec.ofNat 8 p.val)) t ∧ moved t.fab.qps ∧
       t.fab.ports = ports ||| BitVec.ofNat 8 (2 ^ p.val) ∧ t.rst.cause = 0x50000000)) ∧
    (let bit := BitVec.ofNat 16 (2 ^ lane.val)
     let out := fun t : State => t.twin.lanes = s.twin.lanes &&& ~~~bit ∧ t.twin.retiredLanes = s.twin.retiredLanes ||| bit ∧
       t.twin.couchUp = (s.twin.couchUp && decide (8 ≤ ((List.range 16).filter (fun i => t.twin.lanes.getLsbD i)).length))
     let reset := Instr.portReset path (BitVec.ofNat 8 (16 + lane.val))
     let wide := fun (lanes : BitVec 16) => decide (8 ≤ ((List.range 16).filter (fun i => lanes.getLsbD i)).length)
     (∃ t, answers (.portRetire path (BitVec.ofNat 8 (16 + lane.val))) t ∧ exec (.laneRetire (BitVec.ofNat 4 lane.val)) s = .next t ∧
       out t) ∧
     (quiet → s.twin.lanes.getLsbD lane.val = false → answers reset (noted s)) ∧
     (quiet → s.twin.lanes.getLsbD lane.val = true → ∃ t, answers reset t ∧ t.twin.lanes = s.twin.lanes ∧
       t.twin.retiredLanes = s.twin.retiredLanes ∧ t.twin.couchUp = (s.twin.couchUp && wide (s.twin.lanes &&& ~~~bit)) ∧
       t = { noted s with twin := t.twin, sent := t.sent } ∧
       (s.twin.couchUp = true → s.fab.stopped = false → ∃ f, .couch 8 f ∈ t.sent ∧ f.wellFormed 8 = true ∧
         fieldAt f.payload 0 2 = (s.twin.lanes &&& ~~~bit).toNat))) ∧
    (∀ k : Fin 4,
      let held := ∃ e ∈ s.hb.allocs, e.2.live = true ∧ e.2.tierB = true ∧ s.mem.onPort e.2.base e.2.extent k.val = true
      let reset := Instr.portReset path (BitVec.ofNat 8 (32 + k.val))
      (held → Refuses reset s path false 0x0B07) ∧
      (quiet → ¬ held → (∀ u ∈ s.felt.tables, u.tierB = true → u.kind = 3) → (∀ x ∈ s.rst.shardPlace, inTierB x.2.2 = false) →
        answers reset { noted s with mem := { s.mem with tierBDown := s.mem.tierBDown &&& ~~~(BitVec.ofNat 4 (2 ^ k.val)) } })) ∧
    (quiet → answers (.portReset path (BitVec.ofNat 8 (48 + p.val))) (noted s)) ∧
    answers (.failstartClear path 1) { s with rst := { s.rst with failCount := 0 } }

/-- R24, R359: an item under a reset core runs again from its start elsewhere: its next attempt, uncounted, kept from
that core. -/
def Obligations.ResetItemRunsAgain : Prop :=
  ∀ (s : State) (path : Path) (c : CoreId) (key : ItemKey) (it : Item) (j : Job),
    Serves s path → isMeter path = false → (s.core c).item = some key → (s.core c).preempted = none →
    s.rst.window = none → s.item? key = some it → s.job? it.job = some j → j.stopped = none →
    ∃ t, exec (.coreReset path (BitVec.ofNat 16 (16 * c.vat.toNat + c.core.toNat))) s = .next t ∧ t.core c = Core.reset ∧
      t.item? key = some { it with attempt := it.attempt + 1, phase := .created, core := none, avoidCore := some c,
                                   avoidVat := none }

/-- R387: a swap stops dispatch to its Vat; a Vat that does not drain is reset first; a drained one takes the image
when its self-test passes, else keeps its firmware and FW_SWAP_FAILED is logged, in the event log only (log entry 97), and is
admitted again either way; only an image whose signature verifies and whose row-semantics revision is ROWSEM is staged, and
none while another path writes one (R377). A whole image ends the path's own transfer (log entry 105). -/
def Obligations.FirmwareSwap : Prop :=
  ∀ (s : State) (path : Path) (vat : BitVec 6) (image b : Bytes), Serves s path → isMeter path = false →
    let rest := fun keep : Transfer → Bool => { s with dict := { s.dict with transfers := s.dict.transfers.filter keep } }
    let u := rest (fun x => x.path ≠ wayOf path)
    ((∀ x ∈ s.dict.transfers, x.key = 0x340007 → x.path = wayOf path) → ∃ t, exec (.fwImage path image) s = .next t ∧
      t = (if Config.verify Config.vanorKey (Config.fwSigned image).1 (Config.fwSigned image).2 = false then
             u.answer path false 0x0C20 []
           else if Config.fwRowsem image ≠ Config.rowsem then u.answer path false 0x0C21 []
           else State.answer { u with dict := { u.dict with fwStaged := some image } } path false 0 [])) ∧
    ((∃ x ∈ s.dict.transfers, x.key = 0x340007 ∧ x.path ≠ wayOf path) → exec (.fwImage path image) s =
      .next ((rest (fun x => x.path ≠ wayOf path || x.key = 0x340007)).answer path false 0x0C0A [])) ∧
    (s.dict.swap = none → s.dict.fwStaged = some b → exec (.fwSwapVat path (vat.setWidth 8)) s =
      .next (State.answer { s with dict := { s.dict with swap := some (vat, b, false) },
                                   hb := { s.hb with dispatchOff := s.hb.dispatchOff ++ [vat] } } path false 0 [])) ∧
    (∀ forced, s.dict.swap = some (vat, b, forced) →
      ((∃ c : CoreId, c.vat = vat ∧ (s.core c).active = true) → ∃ t, exec .fwDrainMs s = .next t ∧
        t.dict.swap = some (vat, b, true) ∧ t.rst.cause = 0x40000000) ∧
      ((∀ c : CoreId, c.vat = vat → (s.core c).active = false) →
        (∃ t, exec (.fwSwapLoad true) s = .next t ∧ t.modVal (0x341001 + vat.toNat) Config.fwRelease.toNat = (Config.fwRev b).toNat ∧
          t = { s with dict := { s.dict with swap := none, values := t.dict.values },
                       hb := { s.hb with dispatchOff := s.hb.dispatchOff.filter (· ≠ vat) } }) ∧
        exec (.fwSwapLoad false) s = .next { s with
          dict := { s.dict with swap := none, eventLog := s.dict.eventLog ++ [(0x0C22, vat.toNat)] },
          hb := { s.hb with dispatchOff := s.hb.dispatchOff.filter (· ≠ vat) } }))

/-- R377, R382, R384, R385: a furnish image that R382 accepts becomes the pending one, and no image is taken while another path writes
its entry; a grade image makes the grade's next
revision; a switch above the reel and STAMP_HORIZON is scheduled and entered in the delay list, or replaces the one at
its reel, and a cancel takes it away. -/
def Obligations.FurnishAndGrades : Prop :=
  ∀ (s : State) (path : Path) (image : Bytes) (g : BitVec 3) (reel : BitVec 48), Serves s path → isMeter path = false →
    let es := imageRecords image (fieldAt image 0xC 4)
    let grade := s.dict.grades[g.toNat]
    let value : BitVec 64 := BitVec.ofNat 64 (g.toNat * 2 ^ 48 + reel.toNat)
    let pending := s.dict.schedule.any (fun x => x.1 = reel)
    let rest := s.dict.transfers.filter (fun x => x.path ≠ wayOf path)
    let u := { s with dict := { s.dict with transfers := rest } }
    let mine := fun key : Nat => ∀ x ∈ s.dict.transfers, x.key = key → x.path = wayOf path
    (mine 0x201001 → furnishFormatBad image = false → s.dict.furnish.rev.toNat < fieldAt image 8 4 → rising es = true →
      recordsGood [.furnish, .grade] (fun k d => Assoc.get d es k) es = true →
      ∃ t, exec (.furnishImage path image) s = .next t ∧
        t = (if s.furnishSigned image = true then
               let f : Furnish := { rev := BitVec.ofNat 32 (fieldAt image 8 4), entries := es, image := image }
               State.answer { u with dict := { u.dict with pending := some f } } path false 0 []
             else u.answer path false 0x0C11 [])) ∧
    (∀ p ∈ [((0x201001 : Nat), Instr.furnishImage path image), (0x211001 + 256 * g.toNat, .gradeImage path g image)],
      (∃ x ∈ s.dict.transfers, x.key = p.1 ∧ x.path ≠ wayOf path) → exec p.2 s = .next (State.answer { s with
        dict := { s.dict with transfers := s.dict.transfers.filter (fun x => x.path ≠ wayOf path || x.key = p.1) } }
        path false 0x0C0A [])) ∧
    (mine (0x211001 + 256 * g.toNat) → gradeFormatBad g.toNat image = false → recordsInRange (fun _ d => d) (imageRecords image (fieldAt image 8 2)) = true →
      s.hb.jobs = [] → s.hb.items = [] →
      ∃ t : State, exec (.gradeImage path g image) s = .next (t.answer path false 0 []) ∧
        t = { u with dict := { u.dict with grades := t.dict.grades, kept := t.dict.kept } } ∧
        (∀ n : Fin 8, t.dict.grades[n] = if n.val = g.toNat then
            { name := BitVec.ofNat 128 (fieldAt image 0x10 16), written := true,
              rev := (if grade.written = false ∨ grade.rev = 0xFFFF then 1 else grade.rev + 1),
              entries := imageRecords image (fieldAt image 8 2) }
          else s.dict.grades[n])) ∧
    (s.hb.reel.toNat < reel.toNat → s.hb.stampHorizon < reel.toNat →
      (pending = false → s.dict.schedule.length < 16 → s.listLen 0 < 4096 →
        exec (.gradeSchedule path value) s = .next (State.answer { s with
          dict := { s.dict with schedule := s.dict.schedule ++ [(reel, g)] },
          hb := { s.hb with delays := s.hb.delays ++ [{ value := reel.toNat, kind := 0, object := g.toNat, list := 0 }] } }
          path false 0 [])) ∧
      (pending = true → exec (.gradeSchedule path value) s = .next (State.answer { s with
          dict := { s.dict with schedule := s.dict.schedule.filter (fun x => x.1 ≠ reel) ++ [(reel, g)] } } path false 0 [])) ∧
      exec (.gradeCancel path (reel.setWidth 64)) s = .next (State.answer { s with
        dict := { s.dict with schedule := s.dict.schedule.filter (fun x => x.1 ≠ reel) },
        hb := { s.hb with delays := s.hb.delays.filter (fun d => !(d.kind = 0 && d.value = reel.toNat)) } } path false 0 []))

/-- R290, R325, R337, R372 to R377, R379, R383, R388, R396: the dictionary paths. A closed path answers nothing; a tunnel request is a
fabric message and meets its checks, and one on another class or from another address than ORCH_ADDR is discarded and counted;
one whose number has been answered gets that answer again and is not applied (Table 13.2); a request outside what the path
serves is CMD_UNSUPPORTED; a CAN node answers on CAN-ID 0x580 + node ID, with the abort code of Table 15.20 after a refusal, the
mailbox in its registers and the tunnel by a DICT_RESP message; an entry that does not exist,
is not readable or writable, has another length, another range or a lock answers its code and changes nothing; a
Furnish value reads as its live value and a write changes it alone; a DOMAIN is put together piece by piece and
applied at its last one, while a piece for another entry drops the path's transfer (the drop and the most bytes of a piece are
log entry 105); a write of an entry with a command of its own is that command; NMT commands set the state of this node and of
the meter's and the heartbeat carries it. The boot-up frame is the model's choice (log entries 55, 172). -/
def Obligations.DictionaryPaths : Prop :=
  (∀ (s : State) (path : Path) (index : BitVec 16) (sub : BitVec 8) (offset : BitVec 32) (last : Bool) (data : Bytes),
    let key := index.toNat * 256 + sub.toNat
    let write := Instr.dictWrite path index sub offset last data
    let no := fun code : BitVec 16 => Refuses write s path false code
    let noRead := fun code : BitVec 16 => Refuses (.dictRead path index sub offset) s path true code
    (s.pathOpen path = false → (∀ q, path ≠ .tunnel q) →
      exec (.dictRead path index sub offset) s = .next s ∧ exec write s = .next s) ∧
    (∀ q : TunnelReq, path = .tunnel q → ∀ i ∈ [Instr.dictRead path index sub offset, write],
      (s.rst.boot ≠ .ready → exec i s = .next s) ∧
      (s.rst.boot = .ready → q.msg.by' = .send → q.msg.ce = false → ¬ Addressed s 0x50 q.msg → exec i s = .next s.protocolError) ∧
      (Addressed s 0x50 q.msg → q.msg.gen.toNat < (s.genOf q.msg.from).toNat → exec i s = .next (s.refuseStale q.msg)) ∧
      (TakesMsg s 0x50 q.msg →
        (s.orchAddr = 0 ∨ q.cls ≠ 2 ∨ q.ip.toNat ≠ s.orchAddr ∨ q.msg.part ≠ 0 ∨ q.msg.value ≠ 0 → exec i s = .next s.protocolError) ∧
        (∀ a, s.pathOpen path = true → s.keptAnswer path = some a → s.fab.stopped = false → ∃ t m, exec i s = .next t ∧
          t.sent = s.sent ++ [.fabric 0x51 m] ∧ m.seq = q.msg.seq ∧ m.dst = q.msg.src ∧ m.payload = a.2 ∧
          t = { s with fab := { s.fab with qps := t.fab.qps }, sent := t.sent }))) ∧
    (s.pathOpen path = true → served path = false →
      (∀ q : TunnelReq, path = .tunnel q → TakesMsg s 0x50 q.msg ∧ s.keptAnswer path = none) →
      exec (.dictRead path index sub offset) s = .next (s.answer path false 0x0C0B []) ∧ no 0x0C0B) ∧
    (Serves s path → isMeter path = false →
      ((∀ x ∈ entries, x.key / 256 ≠ index.toNat) → noRead 0x0C01 ∧ no 0x0C01) ∧
      ((∃ x ∈ entries, x.key / 256 = index.toNat) → (∀ x ∈ entries, x.key ≠ key) → sub ≠ 0 → noRead 0x0C02 ∧ no 0x0C02) ∧
      (∀ e, dictEntryAt key = .ok e →
        (e.access = .wo → noRead 0x0C03) ∧ (e.access = .ro → no 0x0C03) ∧ (e.access = .rws → no 0x0C06) ∧
        (∀ n, e.type = .uint n → e.source = .furnish →
          let v := leVal data
          (e.access ≠ .wo → exec (.dictRead path index sub offset) s =
            .next { s.answer path true 0 (leBytes n (s.furn key e.dflt)) with free := s.free + 1 }) ∧
          (e.access = .rw →
            (data.length ≠ n → no 0x0C04) ∧ (data.length = n →
              (e.accepts s.furn v = false → no 0x0C05) ∧
              (e.accepts s.furn v = true → s.hb.jobs ≠ [] → lockedKey key = true → no 0x0C07) ∧
              (e.accepts s.furn v = true → s.hb.jobs = [] ∨ lockedKey key = false →
                ∃ t : State, exec write s = .next (t.answer path false 0 []) ∧ t.furn key e.dflt = v ∧
                  (∀ k d, k ≠ key → t.furn k d = s.furn k d) ∧ t = { s with dict := { s.dict with live := t.dict.live } })))) ∧
        (e.type = .domain → e.access = .rw ∨ e.access = .wo → key ≠ 0x4C2001 →
          let got := s.received path key
          let way := wayOf path
          let rest := s.dict.transfers.filter (fun t => t.path ≠ way)
          let dropped := { s with dict := { s.dict with transfers := rest } }
          let more : Transfer := { path := way, key := key, got := got ++ data }
          ((∃ t ∈ s.dict.transfers, t.key = key ∧ t.path ≠ way) → exec write s = .next (State.answer { s with
            dict := { s.dict with transfers := s.dict.transfers.filter (fun t => t.path ≠ way || t.key = key) } } path false 0x0C0A [])) ∧
          ((∀ t ∈ s.dict.transfers, t.key = key → t.path = way) →
            (offset.toNat ≠ got.length → exec write s = .next (dropped.answer path false 0x0C04 [])) ∧
            (offset.toNat = got.length → data.length ≤ pieceMax path → (got ++ data).length ≤ 16777216 → got ++ data ≠ [] →
              (last = false → exec write s =
                .next (State.answer { s with dict := { s.dict with transfers := rest ++ [more] } } path false 0 [])) ∧
              (last = true → ∀ p ∈ [((0x201001 : Nat), Instr.furnishImage path (got ++ data)), (0x340007, .fwImage path (got ++ data)),
                  (0x211301, .gradeImage path 3 (got ++ data)), (0x580004, .debugToken path (got ++ data)),
                  (0x580005, .provision path (got ++ data))], key = p.1 → exec write s = exec p.2 dropped))))))) ∧
  (∀ (s : State) (path : Path) (offset : BitVec 32) (last : Bool) (v : BitVec 32) (w : BitVec 64),
    Serves s path → isMeter path = false →
    let same := fun (index : BitVec 16) (sub : BitVec 8) (n x : Nat) (i : Instr) =>
      exec (.dictWrite path index sub offset last (leBytes n x)) s = exec i s
    same 0x3000 0x0B 4 v.toNat (.reelQp path v) ∧ same 0x2100 3 8 w.toNat (.gradeSchedule path w) ∧
    same 0x2100 4 8 w.toNat (.gradeCancel path w) ∧ same 0x5000 2 4 v.toNat (.resetCold path v) ∧
    same 0x5800 2 4 v.toNat (.zeroise path v) ∧
    (v = 0 ∨ (∃ q ∈ s.fab.qps, q.number.toNat = v.toNat ∧ q.error = false) → exec (.reelQp path v) s =
      .next (State.answer { s with hb := { s.hb with reelQp := v } } path false 0 [])) ∧
    (v ≠ 0 → (∀ q ∈ s.fab.qps, q.number.toNat = v.toNat → q.error = true) → Refuses (.reelQp path v) s path false 0x0C05)) ∧
  (∀ (s : State) (read : Bool) (st : BitVec 16) (data : Bytes),
    let body := leBytes 2 st.toNat ++ zeros 2 ++ leBytes 4 data.length ++ data
    let node := fun (n : BitVec 7) (path : Path) =>
      let out := fun b : Bytes => s.answer path read st data = { s with sent := s.sent ++ [.usdo (0x580 + n.setWidth 16) st b] }
      (st = 0 → out data) ∧ ∀ p ∈ [((0x0C01 : BitVec 16), (0x06020000 : Nat)), (0x0C02, 0x06090011), (0x0C04, 0x06070010),
        (0x0C05, 0x06090030), (0x0C06, 0x06010000), (0x0C0B, 0x06010000), (0x0C10, 0x08000020), (0x0C0A, 0x08000022),
        (0x0C03, if read then 0x06010001 else 0x06010002)], st = p.1 → out (leBytes 4 p.2)
    (∀ u, node s.straps.canNode (.can u)) ∧ (∀ u, node (s.straps.canNode ^^^ 0x40) (.meterNode u)) ∧
    (∀ req, s.answer (.mailbox req) read st data = { s with
      sent := s.sent ++ [.answer (.mailbox req) st data],
      host := { s.host with mbReq := req, mbStatus := st.setWidth 32, mbResp := body } }) ∧
    (∀ q : TunnelReq, q.msg.src.toNat < 2 ^ 14 → q.msg.cls.toNat < 4 → body.length < 2 ^ 32 → s.fab.stopped = false → ∃ t m,
      s.answer (.tunnel q) read st data = t ∧
      t.sent = s.sent ++ [.fabric 0x51 m] ∧ m.wellFormed 0x51 = true ∧ m.exch = 0 ∧ m.round = 0 ∧ m.value = 0 ∧ m.part = q.msg.part ∧
      m.seq = q.msg.seq ∧ m.dst = q.msg.src ∧ m.payload = body ∧ (requestId q, st, body) ∈ t.fab.kept ∧
      t = { s with fab := { s.fab with qps := t.fab.qps, kept := t.fab.kept }, sent := t.sent })) ∧
  (∀ (s : State) (cmd node : BitVec 8),
    let up := s.rst.boot ≠ .inReset ∧ s.straps.canNode ≠ 0
    let mine : Bool := decide up && (node = 0 || node = s.straps.canNode.setWidth 8)
    let other := s.straps.canNode ^^^ 0x40
    let live : Bool := s.meter.fitted && s.meter.supplied
    let meters : Bool := live && (node = 0 || node = other.setWidth 8)
    let frame := fun (n : BitVec 7) (d : BitVec 8) => Out.can (0x700 + n.setWidth 16) [d]
    let to' := fun (nmt : BitVec 8) (keep : Transfer → Bool) (out : List Out) => exec (.nmtCommand cmd node) s = .next { s with
      dict := { s.dict with nmt := if mine then nmt else s.dict.nmt, transfers := s.dict.transfers.filter keep },
      meter := { s.meter with nmt := if meters then nmt else s.meter.nmt }, sent := s.sent ++ out }
    (∀ p ∈ [((0x01 : BitVec 8), (0x05 : BitVec 8)), (0x02, 0x04), (0x80, 0x7F)], cmd = p.1 → to' p.2 (fun _ => true) []) ∧
    (cmd ∉ [0x01, 0x02, 0x80, 0x81, 0x82] → exec (.nmtCommand cmd node) s = .next s) ∧
    (cmd = 0x81 ∨ cmd = 0x82 →
      to' 0x7F (fun t => !(mine && t.path = .can .expedited) && !(meters && t.path = .meterNode .expedited))
        ((if meters = true ∧ other ≠ 0 then [frame other 0] else []) ++ (if mine then [frame s.straps.canNode 0] else []))) ∧
    (s.furn 0x101700 1000 ≠ 0 → exec .canHeartbeat s = .next { s with sent := s.sent ++
      (if up then [frame s.straps.canNode s.dict.nmt] else []) ++
      (if live = true ∧ other ≠ 0 then [frame other s.meter.nmt] else []) }) ∧
    (s.furn 0x101700 1000 = 0 → exec .canHeartbeat s = .next s))

/-- R227, R230 to R232, R263, R264, R305, R306, R366 and Table 15.6: the mailbox operations in service, each with the codes
that turn it away: tables come and go, Watermark sets are loaded and unloaded, tier C blocks written read back and no
other block changes, a namespace that is not used answers 0x0904, and absent keys 0x0905 (for a write log entry 107); and in
recovery mode a test item runs as a job of its own, one at a time (log entry 108). The codes of an unload of no set are log entry
75, and what makes TABLE_DROP refuse and drop is log entry 106. -/
def Obligations.Services : Prop :=
  (∀ s : State, s.rst.boot = .ready → s.rst.hostReset = false → s.host.mbStatus.getLsbD 31 = false →
    let no := fun (i : Instr) (req : Bytes) (code : BitVec 16) => Refuses i s (.mailbox req) false code
    let gives := fun (i : Instr) (req : Bytes) (t : State) => exec i s = .next (t.answer (.mailbox req) false 0 [])
    (∀ (rec : Bytes) (rows : Option Bytes),
      let t := tableOf rec none
      let known := s.felt.tables.filter (fun u => u.job = none)
      let bad := tableRecordBad (s.felt.tables.map (·.id)) known rec
      (rec.length = 64 → bad = true → no (.tableRegister rec rows) (registerRequest rec rows) 0x0520) ∧
      (rec.length = 64 → bad = false → t.kind ≠ 3 → t.replicated = false → t.tier ≠ 2 → s.mirrored = false →
        (∀ p ∈ s.rst.shardPlace, p.1 ≠ t.id) →
        (1200000000000 < s.feltBytes.2 + t.nrows * t.stored → no (.tableRegister rec rows) (registerRequest rec rows) 0x0521) ∧
        (s.feltBytes.2 + t.nrows * t.stored ≤ 1200000000000 → s.feltBytes.1 + t.nrows * t.stored ≤ s.furn 0x380001 400000000000 →
          ∃ u : Table, gives (.tableRegister rec rows) (registerRequest rec rows) { s with felt := { s.felt with tables := s.felt.tables ++ [u] } } ∧
            u = { t with rows := u.rows } ∧ (∀ r, r < t.nrows → (r + 1) * t.rowBytes ≤ (rows.getD []).length →
              u.row r = ((rows.getD []).drop (t.rowBytes * r)).take t.rowBytes) ∧
            (rows = none → u.rows = [])))) ∧
    (∀ id : BitVec 16, s.table? id = none → no (.tableDrop id) (dropRequest id) 0x0504) ∧
    (∀ (id : BitVec 16) (t : Table), s.table? id = some t →
      let part := ∃ u ∈ s.felt.tables, u.kind = 3 ∧ (u.part1 = id ∨ u.part2 = id)
      (t.job.isSome = true ∨ part ∨ s.tableRead id = true → no (.tableDrop id) (dropRequest id) 0x0C0A) ∧
      (t.job = none → ¬ part → s.tableRead id = false → s.mirrored = false →
        ∃ u, gives (.tableDrop id) (dropRequest id) u ∧ u.felt.tables = s.felt.tables.filter (fun x => x.id ≠ id) ∧
          u.felt.redirects = s.felt.redirects.filter (fun x => x.table ≠ id) ∧
          u.felt.combines = s.felt.combines.filter (fun c => c.table ≠ id) ∧
          u.felt.pending = s.felt.pending.filter (fun c => c.entry.table ≠ id) ∧
          u.felt.waiting = s.felt.waiting.filter (fun w => w.table ≠ id) ∧
          u = { s with felt := { u.felt with migEpoch := s.felt.migEpoch },
                       rst := { s.rst with shardPlace := s.rst.shardPlace.filter (fun p => p.1 ≠ id) } })) ∧
    (∀ (id : BitVec 16) (copies : BitVec 8) (b : Bytes),
      let fits := id ≠ 0 ∧ id.toNat ≤ 0xFF ∧ 1 ≤ copies.toNat ∧ copies.toNat ≤ 4
      let free := fun v : Vector Bank 16 => (v.toList.filter (· = .free)).length
      (¬ fits ∨ wmImageField b = true → no (.wmLoad id copies b) (wmLoadRequest id copies b) 0x0601) ∧ (fits → wmImageField b = false →
        (wmImageBad b = true → no (.wmLoad id copies b) (wmLoadRequest id copies b) 0x0605) ∧
        (wmImageBad b = false → (s.wmSet? id).isSome = true → no (.wmLoad id copies b) (wmLoadRequest id copies b) 0x0606) ∧
        (wmImageBad b = false → s.wmSet? id = none → (∃ d : Fin 4, free s.wm.banks[d] < copies.toNat) →
          no (.wmLoad id copies b) (wmLoadRequest id copies b) 0x0607) ∧
        (wmImageBad b = false → s.wmSet? id = none → (∀ d : Fin 4, copies.toNat ≤ free s.wm.banks[d]) →
          ∃ t, gives (.wmLoad id copies b) (wmLoadRequest id copies b) t ∧ t = { s with wm := t.wm } ∧ t.wm.sets = s.wm.sets ++ [({
              id := id, width := wmImageWidth b, mutable_ := decide (fieldAt b 7 1 = 1), digest := wmDigest b,
              classmap := wmClasses b, entries := (wmRecords b).map WmRecord.toEntry } : WmSet)] ∧
            ∀ d : Fin 4, free t.wm.banks[d] + copies.toNat = free s.wm.banks[d] ∧
              ∀ i : Fin 16, (t.wm.banks[d])[i] = (s.wm.banks[d])[i] ∨
                ((s.wm.banks[d])[i] = .free ∧ (t.wm.banks[d])[i] = .holds id)))) ∧
    (∀ id : BitVec 16, id = 0 ∨ 0xFF < id.toNat → no (.wmUnload id) (wmUnloadRequest id) 0x0601) ∧
    (∀ id : BitVec 16, id ≠ 0 → id.toNat ≤ 0xFF → s.wmSet? id = none → no (.wmUnload id) (wmUnloadRequest id) 0x0608) ∧
    (∀ (id : BitVec 16) (x : WmSet), id ≠ 0 → id.toNat ≤ 0xFF → s.wmSet? id = some x →
      (s.wmBusy x = true → no (.wmUnload id) (wmUnloadRequest id) 0x060A) ∧
      (s.wmBusy x = false → ∃ t, gives (.wmUnload id) (wmUnloadRequest id) t ∧ t = { s with wm := t.wm } ∧ t.wm.sets = s.wm.sets.filter (fun y => y.id ≠ id) ∧
        ∀ (d : Fin 4) (i : Fin 16), (t.wm.banks[d])[i] = if (s.wm.banks[d])[i] = .holds id then .free else (s.wm.banks[d])[i])) ∧
    (∀ (nsid : BitVec 32) (lba : BitVec 64) (blocks : BitVec 32) (data : Bytes),
      let n := blocks.toNat
      let at' := fun i : Nat => lba + BitVec.ofNat 64 i
      (n = 0 ∨ 256 < n → no (.tiercWrite nsid lba blocks data) (blocksRequest 0x15 nsid lba blocks data) 0x0C05 ∧ no (.tiercRead nsid lba blocks) (blocksRequest 0x14 nsid lba blocks []) 0x0C05) ∧
      (1 ≤ n → n ≤ 256 → nsid ∈ s.mem.tierCUnused →
        no (.tiercWrite nsid lba blocks data) (blocksRequest 0x15 nsid lba blocks data) 0x0904 ∧ no (.tiercRead nsid lba blocks) (blocksRequest 0x14 nsid lba blocks []) 0x0904) ∧
      (1 ≤ n → n ≤ 256 → nsid ∉ s.mem.tierCUnused →
        (s.sec.nsKeys = false → no (.tiercWrite nsid lba blocks data) (blocksRequest 0x15 nsid lba blocks data) 0x0905 ∧ no (.tiercRead nsid lba blocks) (blocksRequest 0x14 nsid lba blocks []) 0x0905) ∧
        (s.sec.nsKeys = true → data.length = 4096 * n → ∃ t, gives (.tiercWrite nsid lba blocks data) (blocksRequest 0x15 nsid lba blocks data) t ∧
          t = { s with mem := { s.mem with tierC := t.mem.tierC } } ∧
          (∀ i, i < n → t.tierCBlock nsid (at' i) = some ((data.drop (4096 * i)).take 4096)) ∧
          ∀ m a, m ≠ nsid ∨ (∀ (i : Nat), i < n → a ≠ at' i) → t.tierCBlock m a = s.tierCBlock m a) ∧
        (∀ bs : List Bytes, bs.length = n → (∀ (i : Nat) (b : Bytes), bs[i]? = some b → s.tierCBlock nsid (at' i) = some b) →
          gives (.tiercRead nsid lba blocks) (blocksRequest 0x14 nsid lba blocks []) { s with sent := s.sent ++ [.hostWrite 0 bs.flatten], free := s.free + 1 }) ∧
        ((∃ i, i < n ∧ (∃ x ∈ s.mem.tierC, x.1 = nsid ∧ x.2.1 = at' i) ∧ s.tierCBlock nsid (at' i) = none) →
          no (.tiercRead nsid lba blocks) (blocksRequest 0x14 nsid lba blocks []) 0x0905))) ∧
    (∀ image : Bytes, no (.testItem image) (testRequest image) 0x0C0B)) ∧
  (∀ (s : State) (image : Bytes), s.rst.boot = .recovery → s.rst.hostReset = false → s.host.mbStatus.getLsbD 31 = false →
    (s.hb.jobs ≠ [] → Refuses (.testItem image) s (.mailbox (testRequest image)) false 0x0C0A) ∧
    (s.hb.jobs = [] → match s.loadPlaud 0 true image with
      | .error code => Refuses (.testItem image) s (.mailbox (testRequest image)) false code
      | .ok u => ∃ (t : State) (j : Job), exec (.testItem image) s = .next (t.answer (.mailbox (testRequest image)) false 0 []) ∧ u.hb.jobs = [j] ∧
          j.job = plaudJob image ∧ j.test = true ∧ (plaudInputs image = [] → t.hb.jobs = [{ j with inputs := [] }] ∧ t.hb.items = s.hb.items)))

/-- R300, R301, R303, R304: patrol scrub writes corrected lines back and counts the corrected errors of each DRAM row;
a row at SPARE_THRESHOLD takes a spare of its bank or is reported; a populated port's keys are new; a port that goes
down is marked, and with no allocation or table behind it nothing else changes. -/
def Obligations.MemoryTierEvents : Prop :=
  ∀ (s : State) (row : Nat) (port : BitVec 2),
    let fixed := s.mem.ecc.filter (fun e => e.2 = 1)
    (∃ t, exec .patrolScrub s = .next t ∧
      t = { s with mem := { s.mem with ecc := s.mem.ecc.filter (fun e => e.2 ≠ 1), rowErrors := t.mem.rowErrors },
                   dict := { s.dict with values := t.dict.values } } ∧
      (∀ d, Assoc.get 0 t.mem.rowErrors d = (fixed.filter (fun e => rowOfLine e.1 = d)).length) ∧
      CountsBy 0x48000E fixed.length s t) ∧
    (s.furn 0x480007 8 ≤ Assoc.get 0 s.mem.rowErrors row →
      let bank := bankOfRow row
      let used := Assoc.get 0 s.mem.sparesUsed bank
      ∃ t, exec (.rowSpare row) s = .next t ∧
        (Config.spareRows bank ≤ used → t = s.logEvent 0x0910 row) ∧
        (used < Config.spareRows bank →
          t = { s with mem := { s.mem with sparesUsed := t.mem.sparesUsed, rowErrors := t.mem.rowErrors, ecc := t.mem.ecc },
                       dict := { s.dict with values := t.dict.values } } ∧
          (∀ b, Assoc.get 0 t.mem.sparesUsed b = if b = bank then used + 1 else Assoc.get 0 s.mem.sparesUsed b) ∧
          (∀ d, Assoc.get 0 t.mem.rowErrors d = if d = row then 0 else Assoc.get 0 s.mem.rowErrors d) ∧
          (∀ e, e ∈ t.mem.ecc ↔ e ∈ s.mem.ecc ∧ ¬ (e.2 = 1 ∧ rowOfLine e.1 = row)) ∧
          CountsBy 0x480010 1 s t)) ∧
    (s.straps.tierbEn = true → s.mem.tierB[port.toNat] ≠ 0 →
      exec (.ideRekey port) s = .next { s with sec := { s.sec with
        ideKeys := s.sec.ideKeys.set port.toNat (s.sec.ideKeys[port.toNat] + 1) } }) ∧
    (s.straps.tierbEn = true → s.up = true → s.mem.tierB[port.toNat] ≠ 0 →
      ∃ t, exec (.tierbPortDown port) s = .next t ∧
        (∀ p : Fin 4, t.mem.tierBDown.getLsbD p = (decide (p.val = port.toNat) || s.mem.tierBDown.getLsbD p)) ∧
        ((∀ j ∈ s.hb.jobs, s.jobOnPort j.job port.toNat = false) →
          t = { s with mem := { s.mem with tierBDown := t.mem.tierBDown } }))

/-- R390, R391, R392, R394, R395: a stretch marks its die and counts; each condition that holds takes L down by one, not below 8, and a
condition's value is read; a hold interval without a condition, with power below 95 % of the cap and every junction 5 °C below
the limit throughout, takes L up by one, not above 16, nor above 8 with STRAP_SAFECLK; L at 8 with a condition present sets
DROOP_AT_FLOOR. Nothing but the governor's state and the class A window's lowest level changes. A calibration takes its die's
next Vat from dispatch and, once it runs nothing, sets the die's threshold to the lowest value without a warning plus 10 mV; a
warning in service raises it by 5 mV; both lie within DROOP_VTH_MIN_MV to DROOP_VTH_MAX_MV, and no other Furnish value changes.
That stretches which have lowered L count no more, and what values the governor holds, is the model's reading (log entry 100). -/
def Obligations.DroopGovernor : Prop :=
  ∀ (s : State) (die : BitVec 2), s.rst.boot ≠ .inReset →
    let bit : BitVec 4 := BitVec.ofNat 4 (2 ^ die.toNat)
    let l := max 8 (s.pow.level - 1)
    let hot := fun p : Power => decide (95 * s.furn 0x540005 2600 ≤ 100 * p.watts) ||
      p.celsius.any (fun t => decide (s.furn 0x540006 100 < t + 5))
    let recent := (s.pow.recent[die.toNat]).filter (fun t => decide ((s.tick - t).toNat ≤ 100))
    let reads := fun (c : DroopCond) (p : Power) (holds : Prop) (p' : Power) =>
      (holds → exec (.droopStepDown c) s = .next { s with
        pow := { p' with level := l, lastCond := true, disturbed := s.pow.disturbed || hot p },
        hb := { s.hb with winLevel := min s.hb.winLevel l } }) ∧
      (¬ holds → exec (.droopStepDown c) s = .next { s with pow := { p with disturbed := s.pow.disturbed || hot p } })
    let vat : BitVec 6 := die ++ s.pow.calNext[die.toNat]
    (s.pow.stretched.getLsbD die.toNat = false →
      ∃ t, exec (.droopStretch die) s = .next t ∧
        t = { s with pow := { s.pow with stretched := s.pow.stretched ||| bit,
                                         stretches := s.pow.stretches.set die.toNat (s.pow.stretches[die.toNat] + 1),
                                         recent := s.pow.recent.set die.toNat (recent ++ [s.tick]) },
                     hb := { s.hb with winLevel := min s.hb.winLevel 8 }, dict := { s.dict with values := t.dict.values } } ∧
        CountsBy 0x54000D 1 s t) ∧
    exec (.stretchEnd die) s = .next { s with pow := { s.pow with stretched := s.pow.stretched &&& ~~~bit } } ∧
    (∀ watts, let p := { s.pow with watts := watts }
      reads (.powerCap watts) p (s.furn 0x540005 2600 < watts) p) ∧
    (∀ mv, reads (.inputLow mv) s.pow (mv < 300000) s.pow) ∧
    (∀ celsius, let p := { s.pow with celsius := s.pow.celsius.set die.toNat celsius }
      reads (.junction die celsius) p (s.furn 0x540006 100 < celsius) p) ∧
    reads (.longStretch die) s.pow (s.pow.stretched.getLsbD die.toNat = true) s.pow ∧
    reads (.stepEvents die) s.pow (s.furn 0x540002 4 ≤ recent.length) { s.pow with recent := s.pow.recent.set die.toNat [] } ∧
    exec .droopHoldUs s = .next { s with pow := { s.pow with
      level := if s.pow.lastCond = true ∨ s.pow.disturbed = true then s.pow.level
        else min (if s.straps.safeClk then 8 else 16) (s.pow.level + 1),
      lastCond := false, disturbed := hot s.pow } } ∧
    (s.pow.level = 8 → s.pow.lastCond = true →
      ∃ t, exec .pwrDroopFloor s = .next t ∧ t.modVal 0x54000E 0 = 1 ∧
        t = { s with dict := { s.dict with values := t.dict.values, eventLog := s.dict.eventLog ++ [(0x0D02, 8)] } }) ∧
    (∀ lowest : BitVec 8, s.furn 0x540009 20 ≤ s.furn 0x54000A 50 →
    let key := 0x541001 + die.toNat
    let within := fun v : Nat => max (s.furn 0x540009 20) (min (s.furn 0x54000A 50) v)
    let gives := fun (i : Instr) (v : Nat) => ∃ t, exec i s = .next t ∧ t.furn key 30 = within v ∧
      (∀ k d, k ≠ key → t.furn k d = s.furn k d) ∧ t = { s with dict := { s.dict with live := t.dict.live }, pow := t.pow }
    let busy := ∃ c : CoreId, c.vat = vat ∧ (s.core c).active = true
    (s.up = true → s.furn 0x540007 1 ≠ 0 → s.pow.calVat = some vat ∨ (s.pow.calVat = none ∧ vat ∉ s.hb.dispatchOff) →
      (busy → exec (.droopCalibrate die lowest) s = .next { s with pow := { s.pow with calVat := some vat } }) ∧
      (¬ busy → gives (.droopCalibrate die lowest) (lowest.toNat + 10) ∧
        ∃ t, exec (.droopCalibrate die lowest) s = .next t ∧ t.pow = { s.pow with
          calVat := none, calNext := s.pow.calNext.set die.toNat (s.pow.calNext[die.toNat] + 1) })) ∧
    (∀ it c, s.pow.calVat = some c.vat → s.mayTake it c = false) ∧
    gives (.marginWarning die) (s.furn key 30 + 5) ∧
    (∃ t, exec (.marginWarning die) s = .next t ∧ t.pow = s.pow))

/-- Every command of the block completes: whatever the command and the state, exec answers a next state, and the queue is as it
was before. That no command ends in a fault or a refusal is the model's own choice: the spec gives each command of the table
an effect, or a status that reports it. -/
def Obligations.EveryCommandCompletes : Prop :=
  ∀ (i : Instr) (s : State), ∃ t, exec i s = .next t ∧ t.pending = s.pending

/-- R389 and Table 16.1: input from 300 V to 420 V changes nothing; an excursion to 285 V or 440 V of at most 10 ms is
reported; any other drives PWR_GOOD low, as an open PWR_SENSE (R409) and a thermal trip (R394, reported) do: a
power-on reset. -/
def Obligations.InputAndTrips : Prop :=
  ∀ (s : State) (mv ms : Nat),
    (300000 ≤ mv → mv ≤ 420000 → exec (.pwrInputRange mv ms) s = .next s) ∧
    (285000 ≤ mv → mv ≤ 440000 → ¬ (300000 ≤ mv ∧ mv ≤ 420000) → ms ≤ 10 →
      exec (.pwrInputRange mv ms) s = .next { s with dict := { s.dict with eventLog := s.dict.eventLog ++ [(0x0D01, mv)] } }) ∧
    (mv < 285000 ∨ 440000 < mv ∨ (10 < ms ∧ ¬ (300000 ≤ mv ∧ mv ≤ 420000)) →
      ∃ t, exec (.pwrInputRange mv ms) s = .next t ∧ PoweredDown s t) ∧
    (∃ t, exec .pwrSenseOpen s = .next t ∧ PoweredDown s t ∧ t.pow.sense = false) ∧
    (∃ t, exec .pwrThermalTrip s = .next t ∧ PoweredDown s t ∧ (0x0D03, 0) ∈ t.dict.eventLog)

/-- R398: a report that arrives whole and has not been counted adds its rows to its job's tenant, the released ones
or, with REWRITE, the rewritten ones, and is acknowledged; one already counted is only acknowledged; one whose CRC
fails is asked for again; an acknowledgement of a counted report takes it from the queue (another has no effect: the
model's reading, log entry 155), and a resend request sends it again. -/
def Obligations.ReleaseReports : Prop :=
  ∀ (s : State) (r : Report) (rest : List Report), s.meter.queue = r :: rest → s.meter.fitted = true → s.meter.supplied = true →
    let tenant := (r.job.extractLsb' 52 12).toNat
    let rows := fun t : State => Assoc.get (0, 0) t.meter.tenants tenant
    (s.meter.counted.toNat < r.number.toNat →
      ∃ t, exec (.releaseReport true) s = .next t ∧
        t = { s with meter := { s.meter with tenants := t.meter.tenants, counted := r.number },
                     sent := s.sent ++ [.reportAck r.number] } ∧
        rows t = (if r.rewrite then ((rows s).1, (rows s).2 + r.rows) else ((rows s).1 + r.rows, (rows s).2)) ∧
        ∀ n, n ≠ tenant → Assoc.get (0, 0) t.meter.tenants n = Assoc.get (0, 0) s.meter.tenants n) ∧
    (r.number.toNat ≤ s.meter.counted.toNat →
      exec (.releaseReport true) s = .next { s with sent := s.sent ++ [.reportAck r.number] }) ∧
    (∃ t, exec (.releaseReport false) s = .next t ∧ t.sent = s.sent ++ [.reportResend r.number] ∧
      t.meter.tenants = s.meter.tenants ∧ t.meter.queue = s.meter.queue ∧
      t = { s with meter := t.meter, sent := t.sent }) ∧
    (∀ n, exec (.reportAck n) s = .next (if n.toNat ≤ s.meter.counted.toNat then
      { s with meter := { s.meter with queue := s.meter.queue.filter (fun x => x.number ≠ n) } } else s)) ∧
    exec (.reportResend r.number) s = .next { s with sent := s.sent ++ [.report r] }

/-- R397, R399, R400: energy, the supply, the lid and the switch: ENERGY_J and SEAL_BREAKS rise, each event is logged
with the next SEQ, at 1,024 entries the oldest goes, and nothing outside the meter changes, but that its node says it has
started (log entry 172). SEQ from 1, SECONDS as low 32 bits and a SEAL_BREAKS that stays at its highest value are log entry 102. -/
def Obligations.MeterEvents : Prop :=
  ∀ (s : State) (joules seconds : Nat) (closed : Bool), s.meter.fitted = true →
    let m := s.meter
    let logs := fun (t : State) (code : BitVec 16) (data : BitVec 32) =>
      let e : MeterEvent := { seq := m.logCount + 1, seconds := BitVec.ofNat 32 m.seconds, code := code, data := data }
      t.meter.log = (m.log ++ [e]).drop (m.log.length + 1 - 1024) ∧ t.meter.logCount = m.logCount + 1
    let gives := fun (i : Instr) (code : BitVec 16) (data : BitVec 32) (f : Meter → Meter) =>
      ∃ t, exec i s = .next t ∧ logs t code data ∧
        t = { s with meter := { f m with log := t.meter.log, logCount := t.meter.logCount } }
    let breaks := if m.sealBreaks = 0xFFFFFFFF then m.sealBreaks else m.sealBreaks + 1
    (m.supplied = true → exec (.energyStore joules seconds) s = .next { s with meter := { m with
      energy := m.energy + joules, stored := m.energy + joules, seconds := m.seconds + seconds,
      powerW := if seconds = 0 then m.powerW else joules / seconds } }) ∧
    (m.supplied = true → gives .meterSupplyLost 5 (BitVec.ofNat 32 m.energy)
      (fun m => { m with stored := m.energy, supplied := false })) ∧
    (m.supplied = false → ∃ t, exec .meterSupplyRestored s = .next t ∧ logs t 6 (BitVec.ofNat 32 m.stored) ∧
      t = { s with
        meter := { m with energy := m.stored, supplied := true, nmt := 0x7F, log := t.meter.log, logCount := t.meter.logCount },
        sent := s.sent ++ (if s.straps.canNode = 0x40 then [] else [.can (0x700 + (s.straps.canNode ^^^ 0x40).setWidth 16) [0]]) }) ∧
    gives .lidOpened 1 breaks (fun m => { m with sealBreaks := breaks, sealClosed := false }) ∧
    gives .lidClosed 2 0 (fun m => { m with sealClosed := true }) ∧
    exec (.adjustmentSwitch closed) s = .next { s with meter := { m with adjClosed := closed } }

/-- R374, R399, R401: READING gives a new record of Table 16.5, signed over its first 96 bytes, with RSEQ one above;
calibration values and firmware come in on the meter's own node only, with the switch closed, within their bounds or
signed, and are logged. That a firmware image logs events 3 and 4, and the stored sizes of header and CRC, are the model's choice
(log entries 102, 103); a whole image ends the node's own transfer (log entry 105). -/
def Obligations.MeterReadings : Prop :=
  ∀ (s : State) (path : Path) (sub : BitVec 8) (value : BitVec 32) (image : Bytes), Serves s path →
    let m := s.meter
    let event := fun (k : Nat) (code : BitVec 16) (data : BitVec 32) =>
      ({ seq := m.logCount + BitVec.ofNat 32 k, seconds := BitVec.ofNat 32 m.seconds, code := code, data := data } : MeterEvent)
    let no := fun (i : Instr) (code : BitVec 16) => Refuses i s path false code
    (m.fitted = true → m.supplied = true → ∃ b, exec (.reading path) s =
        .next (State.answer { s with meter := { m with rseq := m.rseq + 1 } } path true 0 b) ∧ b.length = 192 ∧
      fieldAt b 0 4 = 0x31525644 ∧ fieldAt b 4 2 = 1 ∧ fieldAt b 6 2 = (if m.sealClosed then 1 else 0) ∧
      fieldAt b 8 4 = Config.meterSerial.toNat ∧ fieldAt b 0xC 4 = m.sealBreaks.toNat ∧ fieldAt b 0x10 8 = (m.rseq + 1).toNat ∧
      fieldAt b 0x18 8 = m.seconds % 2 ^ 64 ∧ fieldAt b 0x20 8 = m.energy % 2 ^ 64 ∧
      fieldAt b 0x28 4 = Config.moduleSerial.toNat ∧ fieldAt b 0x2C 4 = m.logCount.toNat ∧
      (b.drop 0x30).take 48 = fit 48 (Config.sha384 m.tenantTable) ∧ b.drop 96 = fit 96 (Config.meterSign (b.take 96))) ∧
    (1 ≤ sub.toNat → sub.toNat ≤ 8 → no (.meterRwsWrite path sub value) 0x0C03) ∧
    (0xB < sub.toNat → no (.meterRwsWrite path sub value) 0x0C02) ∧
    (sub = 9 ∨ sub = 0xA →
      let bound : Int := if sub = 9 then 20000 else 650
      let good := -bound ≤ value.toInt ∧ value.toInt ≤ bound
      (isMeter path = false → no (.meterRwsWrite path sub value) 0x0C06) ∧
      (isMeter path = true → m.adjClosed = false → no (.meterRwsWrite path sub value) 0x0D10) ∧
      (isMeter path = true → m.adjClosed = true → ¬ good → no (.meterRwsWrite path sub value) 0x0C05) ∧
      (isMeter path = true → m.adjClosed = true → good → exec (.meterRwsWrite path sub value) s = .next (State.answer { s with meter := { m with
        gain := if sub = 9 then value else m.gain, offset := if sub = 9 then m.offset else value, logCount := m.logCount + 1,
        log := (m.log ++ [event 1 3 (0x60000000 + sub.setWidth 32)]).drop (m.log.length + 1 - 1024) } } path false 0 []))) ∧
    (let g := Config.fwSigned image
     (isMeter path = false → no (.meterFwImage path image) 0x0C06) ∧
     let rest := fun keep : Transfer → Bool => { s with dict := { s.dict with transfers := s.dict.transfers.filter keep } }
     let u := rest (fun x => x.path ≠ wayOf path)
     let mine := ∀ x ∈ s.dict.transfers, x.key = 0x60000B → x.path = wayOf path
     let ends := fun code : BitVec 16 => exec (.meterFwImage path image) s = .next (u.answer path false code [])
     (isMeter path = true → ¬ mine → exec (.meterFwImage path image) s =
       .next ((rest (fun x => x.path ≠ wayOf path || x.key = 0x60000B)).answer path false 0x0C0A [])) ∧
     (isMeter path = true → mine → m.adjClosed = false → ends 0x0D10) ∧
     (isMeter path = true → mine → m.adjClosed = true →
       if Config.verify Config.meterKey g.1 g.2 = true then
         ∃ t, exec (.meterFwImage path image) s = .next (State.answer t path false 0 []) ∧ t = { u with meter := { m with
           fwVersion := Config.meterFwVersion image, fwCrc := crc32c 0 image, fwHeader := fit 64 (image.take 64), log := t.meter.log,
           logCount := m.logCount + 2 } } ∧
         event 1 3 0x6000000B ∈ t.meter.log ∧ event 2 4 (Config.meterFwVersion image) ∈ t.meter.log
       else ends 0x0D11))

/-- R368, R369: a step of a known shard that follows its latest one is written to the journal with the next JSEQ and
then takes effect: COPY starts the rebalance, SWITCH moves the shard's home, the last RELEASE ends it; a step out of
its order, or a SWITCH to the twin that the orchestrator has not acknowledged, changes nothing. After a warm reset a
shard's latest record decides how it goes on. That steps wait for this resume is the model's reading (log entry 104). -/
def Obligations.Rebalance : Prop :=
  ∀ (s : State) (t : Table), s.rst.boot = .ready → s.journalBase ≠ 0 → s.table? t.id = some t → s.rst.journalSeq < 2 ^ 64 - 1 →
    let next := s.rst.journalSeq + 1
    let wrote := fun (u : State) (r : JournalRec) => u.rst.journalSeq = next ∧ u.journalRead next = some r ∧ u.hb = s.hb ∧
      u.cores = s.cores
    let moved := fun (u : State) (shard : BitVec 16) (dest : Nat) => ∃ t', u.table? t.id = some t' ∧
      Assoc.get s.straps.modid t'.homes shard.toNat = (if dest = 3 then s.straps.modid ^^^ 1 else s.straps.modid) ∧
      t' = { t with homes := t'.homes } ∧ (t.id, shard, BitVec.ofNat 8 dest) ∈ u.rst.shardPlace
    let released := fun u : State => ∀ r ∈ u.journal, (latestOf u.journal r.table r.shard).map (·.step) = some 5
    (∀ r : RebalStep, s.rst.rebalDue = false → r.table = t.id → t.replicated = false → t.kind ≠ 3 → r.shard.toNat < ceilDiv t.nrows t.shardRows →
      1 ≤ r.dest.toNat → r.dest.toNat ≤ 3 →
      let last := (latestOf s.journal r.table r.shard).map (·.step)
      let follows := (last, r.step.toNat) ∈ [(none, 1), (some 5, 1), (some 1, 2), (some 2, 2), (some 3, 2), (some 2, 3), (some 3, 4),
        (some 4, 5), (some 5, 5)]
      (¬ follows ∨ (r.step = 4 ∧ r.dest = 3 ∧ r.orchAck = false) → exec (.rebalanceStep r) s = .next s) ∧
      (follows → ¬ (r.step = 4 ∧ r.dest = 3 ∧ r.orchAck = false) →
        ∃ u, exec (.rebalanceStep r) s = .next u ∧
          wrote u { table := r.table, shard := r.shard, step := r.step.toNat, dest := r.dest.toNat, epoch := r.epoch.toNat,
                    addr := r.destAddr.toNat } ∧
          (r.step = 1 → u.modVal 0x50000D 0 = 1 ∧ u.felt = s.felt) ∧
          (r.step = 2 ∨ r.step = 3 → u.modVal 0x50000D 0 = s.modVal 0x50000D 0 ∧ u.felt = s.felt) ∧
          (r.step = 4 → moved u r.shard r.dest.toNat ∧ u.modVal 0x50000D 0 = s.modVal 0x50000D 0) ∧
          (r.step = 5 → u.felt = s.felt ∧ (released u → u.modVal 0x50000D 0 = 0)))) ∧
    (∀ r : JournalRec, s.rst.rebalDue = true → s.twin.state = .paired ∨ s.twin.state = .unpaired →
      s.journal = [r] → r.table = t.id →
      ∃ u, exec .rebalanceResume s = .next u ∧ (0x0B09, 0) ∈ u.dict.eventLog ∧ u.rst.rebalDue = false ∧
        (4 ≤ r.step → wrote u { r with step := 5 }) ∧
        (r.step = 3 → r.epoch = t.version - 1 → r.dest ≠ 3 → wrote u { r with step := 4 } ∧ moved u r.shard r.dest) ∧
        (r.step = 3 → r.epoch = t.version - 1 → r.dest = 3 → u.modVal 0x50000D 0 = 2 ∧ u.felt = s.felt ∧ u.mem = s.mem) ∧
        (r.step ≤ 2 ∨ (r.step = 3 ∧ r.epoch ≠ t.version - 1) → wrote u { r with step := 2 } ∧ u.felt = s.felt ∧ u.modVal 0x50000D 0 = 2))

/-- R403 to R407: a zeroise, written, detected or asked for by a good debug token, erases the keys, counts itself and
resets the module, the token opening the debug access port to its SCOPE; a token that is not good changes only the nonce;
provisioning with a good image ends the zeroised state with that image's owner keys and new namespace keys, and is refused while
the debug access port is open. Neither is taken while another path writes its entry, and a whole image ends the path's own
transfer (R377, log entry 105). -/
def Obligations.SecurityEvents : Prop :=
  ∀ (s : State) (path : Path) (value : BitVec 32) (cause : BitVec 4) (image : Bytes),
    let erased := fun (t : State) (state : BitVec 8) => Taken s t .zeroise 1 0x10000000 ∧ t.sec.state = state ∧
      t.sec.zeroised = s.sec.zeroised + 1 ∧ t.sec.ownerKeys = false ∧ t.sec.nsKeys = false ∧ t.sec.deviceKey = 0 ∧
      t.rst.scrub = true ∧ ∀ p : Fin 4, t.sec.ideKeys[p] ≠ s.sec.ideKeys[p]
    let good : Bool := image.length = 160 && fieldAt image 0 4 = 0x31445644 && fieldAt image 4 2 = 1 &&
      fieldAt image 8 4 = Config.moduleSerial.toNat && fieldAt image 0x10 16 = (Config.nonce s.sec.nonceCount).toNat &&
      Config.verify Config.vanorKey (image.take 64) (image.drop 64)
    let rest := fun keep : Transfer → Bool => { s with dict := { s.dict with transfers := s.dict.transfers.filter keep } }
    let u := rest (fun x => x.path ≠ wayOf path)
    let mine := fun key : Nat => ∀ x ∈ s.dict.transfers, x.key = key → x.path = wayOf path
    (cause ≠ 0 → s.rst.window = none → ∃ t, exec (.tamperEvent cause) s = .next t ∧ erased t 1 ∧
      t.sec.tamper = cause.setWidth 8 ∧ (0x0D20, cause.toNat) ∈ t.dict.eventLog) ∧
    (Serves s path → isMeter path = false →
      (s.rst.window = none → ∃ t, exec (.zeroise path 0x4F52455A) s = .next t ∧ erased t 1) ∧
      (value ≠ 0x4F52455A → Refuses (.zeroise path value) s path false 0x0C05) ∧
      (s.rst.window = none → mine 0x580004 → ∃ t, exec (.debugToken path image) s = .next t ∧
        if good = true then erased t 2 ∧ t.sec.debugOpen = true ∧ t.sec.debugScope = BitVec.ofNat 2 (fieldAt image 6 2)
        else t = State.answer { u with sec := { s.sec with nonceCount := s.sec.nonceCount + 1 } } path false 0x0D22 []) ∧
      (∀ p ∈ [((0x580004 : Nat), Instr.debugToken path image), (0x580005, .provision path image)], ¬ mine p.1 →
        exec p.2 s = .next ((rest (fun x => x.path ≠ wayOf path || x.key = p.1)).answer path false 0x0C0A [])) ∧
      (let p := Config.provSigned image
       let n := s.sec.nsKeyGen + 1
       s.sec.state = 1 ∨ s.sec.state = 2 → mine 0x580005 → ∃ t, exec (.provision path image) s = .next t ∧
         t = (if s.sec.state = 1 ∧ Config.verify Config.vanorKey p.1 p.2 = true ∧ Config.provSerial image = Config.moduleSerial then
             State.answer { u with sec := { s.sec with
               state := 0, ownerKeys := true, ownerImage := some image, deviceKey := n, nsKeys := true, nsKeyGen := n } } path false 0 []
           else u.answer path false 0x0D23 [])))
end

