-- ==== Sys2Proof/Laws/Slots.lean ====
section
/-! SUPPORT. A slot writes only the registers it names (R35), and only the kinds of effect its slot number has. -/

namespace Sys2Proof.Machine

open Sys2Proof

/-- What an effect of a slot may hold. -/
structure EffectFits (slot : Nat) (ds : List Dest) (y : Effect) : Prop where
  x     : ∀ r v, y.x = some (r, v) → Dest.x r ∈ ds
  w     : ∀ r v, y.w = some (r, v) → Dest.w r ∈ ds
  p     : ∀ r v, y.p = some (r, v) → Dest.p r ∈ ds
  e     : ∀ r v, y.e = some (r, v) → Dest.e r ∈ ds
  zero  : slot = 0 ∨ (y.csr = none ∧ y.target = none ∧ y.done = none ∧ y.eret = false)
  two   : slot = 2 ∨ y.topkst = none
  three : slot = 3 ∨ (y.stream = none ∧ y.ticket = none ∧ y.acts = [])

/-- Every effect of a slot fits its number and its destinations. -/
def Fits (slot : Nat) (m : Meaning) : Prop := ∀ t e, m.run t = .ok e → EffectFits slot m.dests e

theorem scalar2_fits (f : SR) (g) : Fits 0 (scalar2 f g) := by
  intro t e h; cases h; constructor <;> simp [scalar2]
theorem scalar1_fits (f : SR) (g) : Fits 0 (scalar1 f g) := by
  intro t e h; cases h; constructor <;> simp [scalar1]
theorem scalarI_fits (f : SI) (g) : Fits 0 (scalarI f g) := by
  intro t e h; cases h; constructor <;> simp [scalarI]
theorem shiftI_fits (f : SI) (g) : Fits 0 (shiftI f g) := by
  intro t e h; cases h; constructor <;> simp [shiftI, scalarI]
theorem branch2_fits (f : SB) (g) : Fits 0 (branch2 f g) := by
  intro t e h; cases h; constructor <;> simp [branch2]
theorem branchP_fits (f : SB) (g) : Fits 0 (branchP f g) := by
  intro t e h; cases h; constructor <;> simp [branchP]
theorem nop_fits (n k : Nat) : Fits n (Meaning.nop k) := by
  intro t e h; cases h; constructor <;> simp [Meaning.nop]
theorem illegal_fits (n : Nat) : Fits n Meaning.illegal := by
  intro t e h; cases h; constructor <;> simp [Meaning.illegal]

theorem floatOp_fits (f : VR) (g) (n : Nat) : Fits n (floatOp f g) := by
  intro t e h; cases h; constructor <;> simp [floatOp, Ctx.vecOutR]
theorem extremumOp_fits (f : VR) (b) (n : Nat) : Fits n (extremumOp f b) := by
  intro t e h; cases h; constructor <;> simp [extremumOp, Ctx.vecOutR]
theorem intOp_fits (f : VR) (g) (n : Nat) : Fits n (intOp f g) := by
  intro t e h; cases h; constructor <;> simp [intOp, Ctx.vecOut]
theorem bitOp_fits (f : VR) (g) (n : Nat) : Fits n (bitOp f g) := by
  intro t e h; cases h; constructor <;> simp [bitOp, Ctx.vecOut]
theorem shiftOp_fits (f : VR) (g) (n : Nat) : Fits n (shiftOp f g) := by
  intro t e h; cases h; constructor <;> simp [shiftOp, Ctx.vecOut]
theorem predOp_fits (f : VR) (b) (g) (n : Nat) : Fits n (predOp f b g) := by
  intro t e h; cases h; constructor <;> simp [predOp]
theorem slotJmp_fits (f : SJ) : Fits 0 (slotJmp f) := by
  intro t e h; cases h; constructor <;> simp [slotJmp]
theorem slotCall_fits (f : SJ) : Fits 0 (slotCall f) := by
  intro t e h; cases h; constructor <;> simp [slotCall]
theorem slotJr_fits (f : SR) : Fits 0 (slotJr f) := by
  intro t e h; simp only [slotJr] at h
  repeat' split at h
  all_goals first | (cases h; done) | (cases h; constructor <;> simp [slotJr])
theorem slotCallr_fits (f : SR) : Fits 0 (slotCallr f) := by
  intro t e h; simp only [slotCallr] at h
  repeat' split at h
  all_goals first | (cases h; done) | (cases h; constructor <;> simp [slotCallr])
theorem slotCsrr_fits (f : SR) : Fits 0 (slotCsrr f) := by
  intro t e h; cases h; constructor <;> simp [slotCsrr]
theorem slotCsrw_fits (f : SR) : Fits 0 (slotCsrw f) := by
  intro t e h; simp only [slotCsrw] at h
  repeat' split at h
  all_goals first | (cases h; done) | (cases h; constructor <;> simp [slotCsrw])
theorem slotTrap_fits (f : SR) : Fits 0 (slotTrap f) := by
  intro t e h; cases h
theorem slotDone_fits (f : SR) : Fits 0 (slotDone f) := by
  intro t e h; simp only [slotDone] at h
  repeat' split at h
  all_goals first | (cases h; done) | (cases h; constructor <;> simp [slotDone])
theorem slotEret_fits (f : SR) : Fits 0 (slotEret f) := by
  intro t e h; cases h; constructor <;> simp [slotEret]
theorem slotVdot4_fits (f : VR) : Fits 1 (slotVdot4 f) := by
  intro t e h; cases h; constructor <;> simp [slotVdot4, Ctx.vecOutR]
theorem slotVerd_fits (f : VR) : Fits 1 (slotVerd f) := by
  intro t e h; cases h; constructor <;> simp [slotVerd, Ctx.vecOutR]
theorem slotVeclr_fits (f : VR) : Fits 1 (slotVeclr f) := by
  intro t e h; cases h; constructor <;> simp [slotVeclr]
theorem slotVeadd_fits (f : VR) : Fits 1 (slotVeadd f) := by
  intro t e h; simp only [slotVeadd] at h
  repeat' split at h
  all_goals first | (cases h; done) | (cases h; constructor <;> simp [slotVeadd])
theorem exactOp_fits (f : VR) (g) : Fits 1 (exactOp f g) := by
  intro t e h; simp only [exactOp] at h
  repeat' split at h
  all_goals first | (cases h; done) | (cases h; constructor <;> simp [exactOp])
theorem slotVcmp_fits (f : VR) : Fits 2 (slotVcmp f) := by
  intro t e h; cases h; constructor <;> simp [slotVcmp]
theorem slotVsel_fits (f : VR) : Fits 2 (slotVsel f) := by
  intro t e h; cases h; constructor <;> simp [slotVsel]
theorem slotVcvt_fits (f : VR) : Fits 2 (slotVcvt f) := by
  intro t e h; cases h; constructor <;> simp [slotVcvt, Ctx.vecOutR]
theorem slotVperm_fits (f : VR) : Fits 2 (slotVperm f) := by
  intro t e h; cases h; constructor <;> simp [slotVperm, Ctx.vecOut]
theorem slotVbcast_fits (f : VR) : Fits 2 (slotVbcast f) := by
  intro t e h; cases h; constructor <;> simp [slotVbcast, Ctx.vecOut]
theorem slotVmovx_fits (f : VR) : Fits 2 (slotVmovx f) := by
  intro t e h; cases h; constructor <;> simp [slotVmovx]
theorem slotVcompress_fits (f : VR) : Fits 2 (slotVcompress f) := by
  intro t e h; cases h; constructor <;> simp [slotVcompress]
theorem slotVexpand_fits (f : VR) : Fits 2 (slotVexpand f) := by
  intro t e h; cases h; constructor <;> simp [slotVexpand, Ctx.vecOut]
theorem slotVscan_fits (f : VR) : Fits 2 (slotVscan f) := by
  intro t e h; cases h; constructor <;> simp [slotVscan, Ctx.vecOut]
theorem slotVtopk_fits (f : VR) : Fits 2 (slotVtopk f) := by
  intro t e h; cases h; constructor <;> simp [slotVtopk, Ctx.selected]
theorem slotVmergek_fits (f : VR) : Fits 2 (slotVmergek f) := by
  intro t e h; cases h; constructor <;> simp [slotVmergek, Ctx.selected]
theorem slotVhash_fits (f : VR) : Fits 2 (slotVhash f) := by
  intro t e h; cases h; constructor <;> simp [slotVhash, Ctx.vecOut]
theorem slotPcnt_fits (f : VR) : Fits 2 (slotPcnt f) := by
  intro t e h; cases h; constructor <;> simp [slotPcnt]
theorem slotVmovi_fits (f : VI) : Fits 2 (slotVmovi f) := by
  intro t e h; cases h; constructor <;> simp [slotVmovi]
theorem slotLd_fits (f : MI) : Fits 3 (slotLd f) := by
  intro t e h; simp only [slotLd, Ctx.loadEffect] at h
  repeat' split at h
  all_goals first | (cases h; done) | (cases h; constructor <;> simp [slotLd, Ctx.loadEffect])
theorem slotLds_fits (f : MI) : Fits 3 (slotLds f) := by
  intro t e h; simp only [slotLds, Ctx.loadEffect] at h
  repeat' split at h
  all_goals first | (cases h; done) | (cases h; constructor <;> simp [slotLds, Ctx.loadEffect])
theorem slotSt_fits (f : MI) : Fits 3 (slotSt f) := by
  intro t e h; simp only [slotSt, Ctx.storeEffect] at h
  repeat' split at h
  all_goals first | (cases h; done) | (cases h; constructor <;> simp [slotSt, Ctx.storeEffect])
theorem slotVld_fits (f : MV) : Fits 3 (slotVld f) := by
  intro t e h; simp only [slotVld, Ctx.loadEffect] at h
  repeat' split at h
  all_goals first | (cases h; done) | (cases h; constructor <;> simp [slotVld, Ctx.loadEffect])
theorem slotVst_fits (f : MV) : Fits 3 (slotVst f) := by
  intro t e h; simp only [slotVst] at h
  repeat' split at h
  all_goals first | (cases h; done) | (cases h; constructor <;> simp [slotVst])
theorem slotPld_fits (f : MV) : Fits 3 (slotPld f) := by
  intro t e h; simp only [slotPld, Ctx.loadEffect] at h
  repeat' split at h
  all_goals first | (cases h; done) | (cases h; constructor <;> simp [slotPld, Ctx.loadEffect])
theorem slotPst_fits (f : MV) : Fits 3 (slotPst f) := by
  intro t e h; simp only [slotPst, Ctx.storeEffect] at h
  repeat' split at h
  all_goals first | (cases h; done) | (cases h; constructor <;> simp [slotPst, Ctx.storeEffect])
theorem slotSbind_fits (f : MS) : Fits 3 (slotSbind f) := by
  intro t e h; simp only [slotSbind] at h
  repeat' split at h
  all_goals first | (cases h; done) | (cases h; constructor <;> simp [slotSbind])
theorem slotSread_fits (f : MS) : Fits 3 (slotSread f) := by
  intro t e h; simp only [slotSread] at h
  repeat' split at h
  all_goals first | (cases h; done) | (cases h; constructor <;> simp [slotSread])
theorem slotSwrite_fits (f : MS) : Fits 3 (slotSwrite f) := by
  intro t e h; simp only [slotSwrite] at h
  repeat' split at h
  all_goals first | (cases h; done) | (cases h; constructor <;> simp [slotSwrite])
theorem slotSskip_fits (f : MS) : Fits 3 (slotSskip f) := by
  intro t e h; simp only [slotSskip] at h
  repeat' split at h
  all_goals first | (cases h; done) | (cases h; constructor <;> simp [slotSskip])
theorem slotSpos_fits (f : MS) : Fits 3 (slotSpos f) := by
  intro t e h; simp only [slotSpos] at h
  repeat' split at h
  all_goals first | (cases h; done) | (cases h; constructor <;> simp [slotSpos])
theorem slotSclose_fits (f : MS) : Fits 3 (slotSclose f) := by
  intro t e h; simp only [slotSclose] at h
  repeat' split at h
  all_goals first | (cases h; done) | (cases h; constructor <;> simp [slotSclose])
theorem slotVgather_fits (f : MX) : Fits 3 (slotVgather f) := by
  intro t e h; simp only [slotVgather] at h
  repeat' split at h
  all_goals first | (cases h; done) | (cases h; constructor <;> simp [slotVgather])
theorem slotVscatter_fits (f : MX) : Fits 3 (slotVscatter f) := by
  intro t e h; simp only [slotVscatter] at h
  repeat' split at h
  all_goals first | (cases h; done) | (cases h; constructor <;> simp [slotVscatter])
theorem slotEld_fits (f : MX) : Fits 3 (slotEld f) := by
  intro t e h; simp only [slotEld, Ctx.loadEffect] at h
  repeat' split at h
  all_goals first | (cases h; done) | (cases h; constructor <;> simp [slotEld, Ctx.loadEffect])
theorem slotEst_fits (f : MX) : Fits 3 (slotEst f) := by
  intro t e h; simp only [slotEst, Ctx.storeEffect] at h
  repeat' split at h
  all_goals first | (cases h; done) | (cases h; constructor <;> simp [slotEst, Ctx.storeEffect])
theorem slotAmofadd_fits (f : MX) : Fits 3 (slotAmofadd f) := by
  intro t e h; simp only [slotAmofadd, Ctx.atomic] at h
  repeat' split at h
  all_goals first | (cases h; done) | (cases h; constructor <;> simp [slotAmofadd, Ctx.atomic])
theorem slotFlush_fits (f : MX) : Fits 3 (slotFlush f) := by
  intro t e h; cases h; constructor <;> simp [slotFlush]
theorem slotInval_fits (f : MX) : Fits 3 (slotInval f) := by
  intro t e h; cases h; constructor <;> simp [slotInval]
theorem slotPref_fits (f : MX) : Fits 3 (slotPref f) := by
  intro t e h; cases h; constructor <;> simp [slotPref]
theorem slotUnit_fits (f : MX) : Fits 3 (slotUnit f) := by
  intro t e h; simp only [slotUnit] at h
  repeat' split at h
  all_goals first | (cases h; done) | (cases h; constructor <;> simp [slotUnit])
theorem slotTpoll_fits (f : MX) : Fits 3 (slotTpoll f) := by
  intro t e h; simp only [slotTpoll, Ctx.report] at h
  repeat' split at h
  all_goals first | (cases h; done) | (cases h; constructor <;> simp [slotTpoll, Ctx.report])
theorem slotTwait_fits (f : MX) : Fits 3 (slotTwait f) := by
  intro t e h; simp only [slotTwait, Ctx.report] at h
  repeat' split at h
  all_goals first | (cases h; done) | (cases h; constructor <;> simp [slotTwait, Ctx.report])
theorem orderOp_fits (f : MX) : Fits 3 (orderOp f) := by
  intro t e h; cases h; constructor <;> simp [orderOp]
theorem amoOp_fits (f : MX) (b) (g) : Fits 3 (amoOp f b g) := by
  intro t e h; simp only [amoOp, Ctx.atomic] at h
  repeat' split at h
  all_goals first | (cases h; done) | (cases h; constructor <;> simp [amoOp])

theorem slotMeaning0_fits (w : BitVec 32) : Fits 0 (slotMeaning0 w) := by
  unfold slotMeaning0
  split
  · exact nop_fits _ _
  · exact scalar2_fits _ _
  · exact scalar2_fits _ _
  · exact scalar2_fits _ _
  · exact scalar2_fits _ _
  · exact scalar2_fits _ _
  · exact scalar2_fits _ _
  · exact scalar2_fits _ _
  · exact scalar2_fits _ _
  · exact scalar2_fits _ _
  · exact scalar2_fits _ _
  · exact scalar2_fits _ _
  · exact scalar2_fits _ _
  · exact scalar2_fits _ _
  · exact scalar2_fits _ _
  · exact scalar2_fits _ _
  · exact scalar2_fits _ _
  · exact scalar1_fits _ _
  · exact scalar1_fits _ _
  · exact scalarI_fits _ _
  · exact scalarI_fits _ _
  · exact scalarI_fits _ _
  · exact scalarI_fits _ _
  · exact shiftI_fits _ _
  · exact shiftI_fits _ _
  · exact shiftI_fits _ _
  · exact scalarI_fits _ _
  · exact scalarI_fits _ _
  · exact branch2_fits _ _
  · exact branch2_fits _ _
  · exact branch2_fits _ _
  · exact branch2_fits _ _
  · exact branch2_fits _ _
  · exact branch2_fits _ _
  · exact branchP_fits _ _
  · exact branchP_fits _ _
  · exact slotJmp_fits _
  · exact slotCall_fits _
  · exact slotJr_fits _
  · exact slotCallr_fits _
  · exact slotCsrr_fits _
  · exact slotCsrw_fits _
  · exact slotTrap_fits _
  · exact slotDone_fits _
  · exact slotEret_fits _
  · exact illegal_fits _

theorem slotMeaning1_fits (w : BitVec 32) : Fits 1 (slotMeaning1 w) := by
  unfold slotMeaning1
  split
  · exact nop_fits _ _
  · exact floatOp_fits _ _ _
  · exact floatOp_fits _ _ _
  · exact floatOp_fits _ _ _
  · exact floatOp_fits _ _ _
  · exact floatOp_fits _ _ _
  · exact extremumOp_fits _ _ _
  · exact extremumOp_fits _ _ _
  · exact intOp_fits _ _ _
  · exact intOp_fits _ _ _
  · exact slotVdot4_fits _
  · exact exactOp_fits _ _
  · exact exactOp_fits _ _
  · exact slotVerd_fits _
  · exact slotVeclr_fits _
  · exact slotVeadd_fits _
  · exact illegal_fits _

theorem slotMeaning2_fits (w : BitVec 32) : Fits 2 (slotMeaning2 w) := by
  unfold slotMeaning2
  split
  · exact nop_fits _ _
  · exact intOp_fits _ _ _
  · exact intOp_fits _ _ _
  · unfold slotVadds satOp; exact intOp_fits _ _ _
  · unfold slotVsubs satOp; exact intOp_fits _ _ _
  · exact bitOp_fits _ _ _
  · exact bitOp_fits _ _ _
  · exact bitOp_fits _ _ _
  · exact shiftOp_fits _ _ _
  · exact shiftOp_fits _ _ _
  · exact shiftOp_fits _ _ _
  · exact intOp_fits _ _ _
  · exact intOp_fits _ _ _
  · exact slotVcmp_fits _
  · exact slotVsel_fits _
  · exact slotVcvt_fits _
  · exact slotVperm_fits _
  · exact slotVbcast_fits _
  · exact slotVmovx_fits _
  · exact slotVmovi_fits _
  · exact slotVcompress_fits _
  · exact slotVexpand_fits _
  · exact slotVscan_fits _
  · exact slotVtopk_fits _
  · exact slotVmergek_fits _
  · exact slotVhash_fits _
  · exact predOp_fits _ _ _ _
  · exact predOp_fits _ _ _ _
  · exact predOp_fits _ _ _ _
  · exact predOp_fits _ _ _ _
  · exact slotPcnt_fits _
  · exact predOp_fits _ _ _ _
  · exact illegal_fits _

theorem slotMeaning3_fits (w : BitVec 32) : Fits 3 (slotMeaning3 w) := by
  unfold slotMeaning3
  split
  · exact nop_fits _ _
  · exact slotLd_fits _
  · exact slotLds_fits _
  · exact slotSt_fits _
  · exact slotVld_fits _
  · exact slotVst_fits _
  · exact slotPld_fits _
  · exact slotPst_fits _
  · exact slotSbind_fits _
  · exact slotSread_fits _
  · exact slotSwrite_fits _
  · exact slotSskip_fits _
  · exact slotSpos_fits _
  · exact slotSclose_fits _
  · exact slotVgather_fits _
  · exact slotVscatter_fits _
  · exact slotEld_fits _
  · exact slotEst_fits _
  · exact amoOp_fits _ _ _
  · exact amoOp_fits _ _ _
  · exact amoOp_fits _ _ _
  · exact amoOp_fits _ _ _
  · exact slotAmofadd_fits _
  · exact slotFlush_fits _
  · exact slotInval_fits _
  · exact orderOp_fits _
  · exact orderOp_fits _
  · exact slotPref_fits _
  · exact slotUnit_fits _
  · exact slotTpoll_fits _
  · exact slotTwait_fits _
  · exact illegal_fits _

end Sys2Proof.Machine
end

