-- ==== Sys2Proof/Laws/State.lean ====
section
/-! SUPPORT. The small laws of updates: one lemma per field and update of the shared operations on State and Core, and
the frames of the operations that act on memory alone. -/

namespace Sys2Proof.Machine

open Sys2Proof

/-! ### Sparse collections -/

theorem Assoc.get_erase {α : Type} (d : α) (m : Assoc α) (a b : Nat) :
    Assoc.get d (Assoc.erase m a) b = if b = a then d else Assoc.get d m b := by
  induction m with
  | nil => simp [Assoc.erase, Assoc.get]
  | cons e m ih =>
    obtain ⟨k, v⟩ := e
    by_cases h : k = a <;> by_cases hb : b = a <;> by_cases hk : k = b <;> simp_all [Assoc.erase, Assoc.get]

/-- No entry of the collection has the key. -/
def Assoc.lacks {α : Type} (m : Assoc α) (a : Nat) : Prop := ∀ e ∈ m, e.1 ≠ a

theorem Assoc.lacks_erase {α : Type} (m : Assoc α) (a : Nat) : Assoc.lacks (Assoc.erase m a) a := by
  induction m with
  | nil => intro e h; cases h
  | cons e m ih =>
    obtain ⟨k, v⟩ := e
    by_cases h : k = a
    · simpa [Assoc.erase, h] using ih
    · intro e he
      rw [Assoc.erase, if_neg h] at he
      rcases List.mem_cons.mp he with rfl | he
      · exact h
      · exact ih e he

theorem Assoc.get_place {α : Type} (d : α) (m : Assoc α) (a b : Nat) (x : α) (h : Assoc.lacks m a) :
    Assoc.get d (Assoc.place m a x) b = if b = a then x else Assoc.get d m b := by
  induction m with
  | nil => simp only [Assoc.place, Assoc.get, eq_comm]
  | cons e m ih =>
    obtain ⟨k, v⟩ := e
    have hk : k ≠ a := h (k, v) (List.mem_cons_self ..)
    have ih := ih (fun e he => h e (List.mem_cons_of_mem _ he))
    rw [Assoc.place]
    by_cases hl : a < k
    · rw [if_pos hl, Assoc.get]
      by_cases hb : b = a
      · rw [if_pos hb.symm, if_pos hb]
      · rw [if_neg (Ne.symm hb), if_neg hb]
    · rw [if_neg hl, Assoc.get, ih, Assoc.get]
      by_cases hkb : k = b
      · rw [if_pos hkb, if_pos hkb, if_neg (fun h => hk (hkb.trans h))]
      · rw [if_neg hkb, if_neg hkb]

/-- A read after a write: the value written there, and what every other key held. -/
theorem Assoc.get_set {α : Type} [DecidableEq α] (d : α) (m : Assoc α) (a b : Nat) (x : α) :
    Assoc.get d (Assoc.set d m a x) b = if b = a then x else Assoc.get d m b := by
  unfold Assoc.set
  split
  · rename_i h; rw [Assoc.get_erase, h]
  · rw [Assoc.get_place _ _ _ _ _ (Assoc.lacks_erase m a), Assoc.get_erase]; split <;> rfl

/-! ### The canonical form -/

/-- Keys of a canonical collection lie above its bound. -/
theorem Assoc.wfFrom_bound {α : Type} [DecidableEq α] {d : α} {lo : Nat} {m : Assoc α}
    (h : Assoc.wfFrom d (some lo) m = true) : ∀ e ∈ m, lo < e.1 := by
  induction m generalizing lo with
  | nil => intro e he; cases he
  | cons p m ih =>
    obtain ⟨k, v⟩ := p
    simp only [Assoc.wfFrom, Bool.and_eq_true, decide_eq_true_eq] at h
    intro e he
    rcases List.mem_cons.mp he with rfl | he
    · exact h.1.1
    · exact Nat.lt_trans h.1.1 (ih h.2 e he)

theorem Assoc.wfFrom_weaken {α : Type} [DecidableEq α] {d : α} {lo lo' : Option Nat} {m : Assoc α}
    (h : Assoc.wfFrom d lo m = true) (hl : ∀ k, (∀ l, lo = some l → l < k) → ∀ l, lo' = some l → l < k) :
    Assoc.wfFrom d lo' m = true := by
  cases m with
  | nil => rfl
  | cons p m =>
    obtain ⟨k, v⟩ := p
    have hlo : ∀ l, lo = some l → l < k := by
      intro l e; subst e; simp [Assoc.wfFrom] at h; exact h.1.1
    have := hl k hlo
    cases lo' with
    | none => cases lo <;> simp_all [Assoc.wfFrom]
    | some l' => have := this l' rfl; cases lo <;> simp_all [Assoc.wfFrom]

theorem Assoc.wfFrom_erase {α : Type} [DecidableEq α] {d : α} {lo : Option Nat} {m : Assoc α} (a : Nat)
    (h : Assoc.wfFrom d lo m = true) : Assoc.wfFrom d lo (Assoc.erase m a) = true := by
  induction m generalizing lo with
  | nil => rfl
  | cons p m ih =>
    obtain ⟨k, v⟩ := p
    have h' := h
    simp only [Assoc.wfFrom, Bool.and_eq_true] at h'
    by_cases hk : k = a
    · rw [Assoc.erase, if_pos hk]
      exact ih (Assoc.wfFrom_weaken h'.2 (fun q hq l hl => by
        subst hl; exact Nat.lt_trans (by simpa using h'.1.1) (hq k rfl)))
    · rw [Assoc.erase, if_neg hk]
      simp only [Assoc.wfFrom, Bool.and_eq_true]
      exact ⟨h'.1, ih h'.2⟩

theorem Assoc.wfFrom_place {α : Type} [DecidableEq α] {d : α} {lo : Option Nat} {m : Assoc α} {a : Nat} {x : α}
    (h : Assoc.wfFrom d lo m = true) (hm : Assoc.lacks m a) (hl : ∀ l, lo = some l → l < a) (hx : x ≠ d) :
    Assoc.wfFrom d lo (Assoc.place m a x) = true := by
  induction m generalizing lo with
  | nil => cases lo <;> simp_all [Assoc.place, Assoc.wfFrom]
  | cons p m ih =>
    obtain ⟨k, v⟩ := p
    have h' := h
    simp only [Assoc.wfFrom, Bool.and_eq_true] at h'
    by_cases hk : a < k
    · rw [Assoc.place, if_pos hk]
      cases lo <;> simp_all [Assoc.wfFrom]
    · rw [Assoc.place, if_neg hk]
      have hka : k ≠ a := hm (k, v) (List.mem_cons_self ..)
      simp only [Assoc.wfFrom, Bool.and_eq_true]
      refine ⟨h'.1, ih h'.2 (fun e he => hm e (List.mem_cons_of_mem _ he)) ?_⟩
      intro l hl; cases hl; omega

/-- Every write keeps the canonical form. -/
theorem Assoc.wf_set {α : Type} [DecidableEq α] {d : α} {m : Assoc α} (h : Assoc.wf d m = true) (a : Nat) (x : α) :
    Assoc.wf d (Assoc.set d m a x) = true := by
  unfold Assoc.wf Assoc.set at *
  split
  · exact Assoc.wfFrom_erase a h
  · rename_i hx
    exact Assoc.wfFrom_place (Assoc.wfFrom_erase a h) (Assoc.lacks_erase m a) (fun _ e => by cases e) hx

theorem Assoc.wf_filter {α : Type} [DecidableEq α] {d : α} {lo : Option Nat} {m : Assoc α} (f : Nat × α → Bool)
    (h : Assoc.wfFrom d lo m = true) : Assoc.wfFrom d lo (m.filter f) = true := by
  induction m generalizing lo with
  | nil => rfl
  | cons p m ih =>
    obtain ⟨k, v⟩ := p
    have h' := h
    simp only [Assoc.wfFrom, Bool.and_eq_true] at h'
    by_cases hf : f (k, v) = true
    · rw [List.filter_cons_of_pos hf]
      simp only [Assoc.wfFrom, Bool.and_eq_true]
      exact ⟨h'.1, ih h'.2⟩
    · rw [List.filter_cons_of_neg hf]
      exact ih (Assoc.wfFrom_weaken h'.2 (fun q hq l hl => by
        subst hl; exact Nat.lt_trans (by simpa using h'.1.1) (hq k rfl)))

/-! ### Core registers -/

@[simp] theorem Core.getX_zero (k : Core) : k.getX 0 = 0 := rfl

theorem Core.getX_setX (k : Core) (r q : BitVec 5) (v : BitVec 64) :
    (k.setX r v).getX q = if q = r ∧ q ≠ 0 then v else k.getX q := by
  have e : (r.toNat = q.toNat) ↔ (q = r) := ⟨fun h => (BitVec.eq_of_toNat_eq h).symm, fun h => by rw [h]⟩
  unfold Core.setX Core.getX
  by_cases hq : q = 0
  · simp [hq]
  by_cases hr : r = 0
  · have : q ≠ r := fun h => hq (h.trans hr)
    rw [if_pos hr, if_neg hq, if_neg (by simp [this])]
  · have hq' : ¬ q = 0#5 := hq
    rw [if_neg hr, if_neg hq, if_neg hq, Vector.getElem_set]
    simp [e, hq']

theorem Core.getW_setW (k : Core) (r q : BitVec 5) (v) : (k.setW r v).getW q = if q = r then v else k.getW q := by
  have : (q = r) ↔ (r.toNat = q.toNat) := ⟨fun h => by rw [h], fun h => (BitVec.eq_of_toNat_eq h).symm⟩
  simp [Core.setW, Core.getW, Vector.getElem_set, this]

theorem Core.getP_setP (k : Core) (r q : BitVec 3) (v) : (k.setP r v).getP q = if q = r then v else k.getP q := by
  have : (q = r) ↔ (r.toNat = q.toNat) := ⟨fun h => by rw [h], fun h => (BitVec.eq_of_toNat_eq h).symm⟩
  simp [Core.setP, Core.getP, Vector.getElem_set, this]

theorem Core.getE_setE (k : Core) (r q : BitVec 1) (v) : (k.setE r v).getE q = if q = r then v else k.getE q := by
  have : (q = r) ↔ (r.toNat = q.toNat) := ⟨fun h => by rw [h], fun h => (BitVec.eq_of_toNat_eq h).symm⟩
  simp [Core.setE, Core.getE, Vector.getElem_set, this]

theorem Core.getS_setS (k : Core) (r q : BitVec 4) (v) : (k.setS r v).getS q = if q = r then v else k.getS q := by
  have : (q = r) ↔ (r.toNat = q.toNat) := ⟨fun h => by rw [h], fun h => (BitVec.eq_of_toNat_eq h).symm⟩
  simp [Core.setS, Core.getS, Vector.getElem_set, this]

theorem Core.getT_setT (k : Core) (r q : BitVec 5) (v) : (k.setT r v).getT q = if q = r then v else k.getT q := by
  have : (q = r) ↔ (r.toNat = q.toNat) := ⟨fun h => by rw [h], fun h => (BitVec.eq_of_toNat_eq h).symm⟩
  simp [Core.setT, Core.getT, Vector.getElem_set, this]

/-! ### Updates of the module, field by field -/

@[simp] theorem setCore_pending (s : State) (c : CoreId) (k : Core) : (s.setCore c k).pending = s.pending := rfl
@[simp] theorem setCore_mem (s : State) (c : CoreId) (k : Core) : (s.setCore c k).mem = s.mem := rfl
@[simp] theorem setCore_ports (s : State) (c : CoreId) (k : Core) : (s.setCore c k).ports = s.ports := rfl
@[simp] theorem setCore_units (s : State) (c : CoreId) (k : Core) : (s.setCore c k).units = s.units := rfl
@[simp] theorem setCore_pulpers (s : State) (c : CoreId) (k : Core) : (s.setCore c k).pulpers = s.pulpers := rfl
@[simp] theorem setCore_hb (s : State) (c : CoreId) (k : Core) : (s.setCore c k).hb = s.hb := rfl
@[simp] theorem setCore_felt (s : State) (c : CoreId) (k : Core) : (s.setCore c k).felt = s.felt := rfl
@[simp] theorem setCore_wm (s : State) (c : CoreId) (k : Core) : (s.setCore c k).wm = s.wm := rfl
@[simp] theorem setCore_slurry (s : State) (c : CoreId) (k : Core) : (s.setCore c k).slurry = s.slurry := rfl
@[simp] theorem setCore_fab (s : State) (c : CoreId) (k : Core) : (s.setCore c k).fab = s.fab := rfl
@[simp] theorem setCore_twin (s : State) (c : CoreId) (k : Core) : (s.setCore c k).twin = s.twin := rfl
@[simp] theorem setCore_dict (s : State) (c : CoreId) (k : Core) : (s.setCore c k).dict = s.dict := rfl
@[simp] theorem setCore_straps (s : State) (c : CoreId) (k : Core) : (s.setCore c k).straps = s.straps := rfl
@[simp] theorem setCore_pins (s : State) (c : CoreId) (k : Core) : (s.setCore c k).pins = s.pins := rfl
@[simp] theorem setCore_rst (s : State) (c : CoreId) (k : Core) : (s.setCore c k).rst = s.rst := rfl
@[simp] theorem setCore_pow (s : State) (c : CoreId) (k : Core) : (s.setCore c k).pow = s.pow := rfl
@[simp] theorem setCore_meter (s : State) (c : CoreId) (k : Core) : (s.setCore c k).meter = s.meter := rfl
@[simp] theorem setCore_sec (s : State) (c : CoreId) (k : Core) : (s.setCore c k).sec = s.sec := rfl
@[simp] theorem setCore_host (s : State) (c : CoreId) (k : Core) : (s.setCore c k).host = s.host := rfl
@[simp] theorem setCore_tick (s : State) (c : CoreId) (k : Core) : (s.setCore c k).tick = s.tick := rfl
@[simp] theorem setCore_sent (s : State) (c : CoreId) (k : Core) : (s.setCore c k).sent = s.sent := rfl
@[simp] theorem setCore_free (s : State) (c : CoreId) (k : Core) : (s.setCore c k).free = s.free := rfl
@[simp] theorem setPort_pending (s : State) (n : Nat) (w : PortWindow) : (s.setPort n w).pending = s.pending := rfl
@[simp] theorem setPort_cores (s : State) (n : Nat) (w : PortWindow) : (s.setPort n w).cores = s.cores := rfl
@[simp] theorem setPort_mem (s : State) (n : Nat) (w : PortWindow) : (s.setPort n w).mem = s.mem := rfl
@[simp] theorem setPort_units (s : State) (n : Nat) (w : PortWindow) : (s.setPort n w).units = s.units := rfl
@[simp] theorem setPort_pulpers (s : State) (n : Nat) (w : PortWindow) : (s.setPort n w).pulpers = s.pulpers := rfl
@[simp] theorem setPort_hb (s : State) (n : Nat) (w : PortWindow) : (s.setPort n w).hb = s.hb := rfl
@[simp] theorem setPort_felt (s : State) (n : Nat) (w : PortWindow) : (s.setPort n w).felt = s.felt := rfl
@[simp] theorem setPort_wm (s : State) (n : Nat) (w : PortWindow) : (s.setPort n w).wm = s.wm := rfl
@[simp] theorem setPort_slurry (s : State) (n : Nat) (w : PortWindow) : (s.setPort n w).slurry = s.slurry := rfl
@[simp] theorem setPort_fab (s : State) (n : Nat) (w : PortWindow) : (s.setPort n w).fab = s.fab := rfl
@[simp] theorem setPort_twin (s : State) (n : Nat) (w : PortWindow) : (s.setPort n w).twin = s.twin := rfl
@[simp] theorem setPort_dict (s : State) (n : Nat) (w : PortWindow) : (s.setPort n w).dict = s.dict := rfl
@[simp] theorem setPort_straps (s : State) (n : Nat) (w : PortWindow) : (s.setPort n w).straps = s.straps := rfl
@[simp] theorem setPort_pins (s : State) (n : Nat) (w : PortWindow) : (s.setPort n w).pins = s.pins := rfl
@[simp] theorem setPort_rst (s : State) (n : Nat) (w : PortWindow) : (s.setPort n w).rst = s.rst := rfl
@[simp] theorem setPort_pow (s : State) (n : Nat) (w : PortWindow) : (s.setPort n w).pow = s.pow := rfl
@[simp] theorem setPort_meter (s : State) (n : Nat) (w : PortWindow) : (s.setPort n w).meter = s.meter := rfl
@[simp] theorem setPort_sec (s : State) (n : Nat) (w : PortWindow) : (s.setPort n w).sec = s.sec := rfl
@[simp] theorem setPort_host (s : State) (n : Nat) (w : PortWindow) : (s.setPort n w).host = s.host := rfl
@[simp] theorem setPort_tick (s : State) (n : Nat) (w : PortWindow) : (s.setPort n w).tick = s.tick := rfl
@[simp] theorem setPort_sent (s : State) (n : Nat) (w : PortWindow) : (s.setPort n w).sent = s.sent := rfl
@[simp] theorem setPort_free (s : State) (n : Nat) (w : PortWindow) : (s.setPort n w).free = s.free := rfl
@[simp] theorem emit_pending (s : State) (o : Out) : (s.emit o).pending = s.pending := rfl
@[simp] theorem emit_cores (s : State) (o : Out) : (s.emit o).cores = s.cores := rfl
@[simp] theorem emit_mem (s : State) (o : Out) : (s.emit o).mem = s.mem := rfl
@[simp] theorem emit_ports (s : State) (o : Out) : (s.emit o).ports = s.ports := rfl
@[simp] theorem emit_units (s : State) (o : Out) : (s.emit o).units = s.units := rfl
@[simp] theorem emit_pulpers (s : State) (o : Out) : (s.emit o).pulpers = s.pulpers := rfl
@[simp] theorem emit_hb (s : State) (o : Out) : (s.emit o).hb = s.hb := rfl
@[simp] theorem emit_felt (s : State) (o : Out) : (s.emit o).felt = s.felt := rfl
@[simp] theorem emit_wm (s : State) (o : Out) : (s.emit o).wm = s.wm := rfl
@[simp] theorem emit_slurry (s : State) (o : Out) : (s.emit o).slurry = s.slurry := rfl
@[simp] theorem emit_fab (s : State) (o : Out) : (s.emit o).fab = s.fab := rfl
@[simp] theorem emit_twin (s : State) (o : Out) : (s.emit o).twin = s.twin := rfl
@[simp] theorem emit_dict (s : State) (o : Out) : (s.emit o).dict = s.dict := rfl
@[simp] theorem emit_straps (s : State) (o : Out) : (s.emit o).straps = s.straps := rfl
@[simp] theorem emit_pins (s : State) (o : Out) : (s.emit o).pins = s.pins := rfl
@[simp] theorem emit_rst (s : State) (o : Out) : (s.emit o).rst = s.rst := rfl
@[simp] theorem emit_pow (s : State) (o : Out) : (s.emit o).pow = s.pow := rfl
@[simp] theorem emit_meter (s : State) (o : Out) : (s.emit o).meter = s.meter := rfl
@[simp] theorem emit_sec (s : State) (o : Out) : (s.emit o).sec = s.sec := rfl
@[simp] theorem emit_host (s : State) (o : Out) : (s.emit o).host = s.host := rfl
@[simp] theorem emit_tick (s : State) (o : Out) : (s.emit o).tick = s.tick := rfl
@[simp] theorem emit_free (s : State) (o : Out) : (s.emit o).free = s.free := rfl
@[simp] theorem drawn_pending (s : State) : (s.drawn).pending = s.pending := rfl
@[simp] theorem drawn_cores (s : State) : (s.drawn).cores = s.cores := rfl
@[simp] theorem drawn_mem (s : State) : (s.drawn).mem = s.mem := rfl
@[simp] theorem drawn_ports (s : State) : (s.drawn).ports = s.ports := rfl
@[simp] theorem drawn_units (s : State) : (s.drawn).units = s.units := rfl
@[simp] theorem drawn_pulpers (s : State) : (s.drawn).pulpers = s.pulpers := rfl
@[simp] theorem drawn_hb (s : State) : (s.drawn).hb = s.hb := rfl
@[simp] theorem drawn_felt (s : State) : (s.drawn).felt = s.felt := rfl
@[simp] theorem drawn_wm (s : State) : (s.drawn).wm = s.wm := rfl
@[simp] theorem drawn_slurry (s : State) : (s.drawn).slurry = s.slurry := rfl
@[simp] theorem drawn_fab (s : State) : (s.drawn).fab = s.fab := rfl
@[simp] theorem drawn_twin (s : State) : (s.drawn).twin = s.twin := rfl
@[simp] theorem drawn_dict (s : State) : (s.drawn).dict = s.dict := rfl
@[simp] theorem drawn_straps (s : State) : (s.drawn).straps = s.straps := rfl
@[simp] theorem drawn_pins (s : State) : (s.drawn).pins = s.pins := rfl
@[simp] theorem drawn_rst (s : State) : (s.drawn).rst = s.rst := rfl
@[simp] theorem drawn_pow (s : State) : (s.drawn).pow = s.pow := rfl
@[simp] theorem drawn_meter (s : State) : (s.drawn).meter = s.meter := rfl
@[simp] theorem drawn_sec (s : State) : (s.drawn).sec = s.sec := rfl
@[simp] theorem drawn_host (s : State) : (s.drawn).host = s.host := rfl
@[simp] theorem drawn_tick (s : State) : (s.drawn).tick = s.tick := rfl
@[simp] theorem drawn_sent (s : State) : (s.drawn).sent = s.sent := rfl
@[simp] theorem logEvent_pending (s : State) (c : BitVec 16) (d : Nat) : (s.logEvent c d).pending = s.pending := rfl
@[simp] theorem logEvent_cores (s : State) (c : BitVec 16) (d : Nat) : (s.logEvent c d).cores = s.cores := rfl
@[simp] theorem logEvent_mem (s : State) (c : BitVec 16) (d : Nat) : (s.logEvent c d).mem = s.mem := rfl
@[simp] theorem logEvent_ports (s : State) (c : BitVec 16) (d : Nat) : (s.logEvent c d).ports = s.ports := rfl
@[simp] theorem logEvent_units (s : State) (c : BitVec 16) (d : Nat) : (s.logEvent c d).units = s.units := rfl
@[simp] theorem logEvent_pulpers (s : State) (c : BitVec 16) (d : Nat) : (s.logEvent c d).pulpers = s.pulpers := rfl
@[simp] theorem logEvent_hb (s : State) (c : BitVec 16) (d : Nat) : (s.logEvent c d).hb = s.hb := rfl
@[simp] theorem logEvent_felt (s : State) (c : BitVec 16) (d : Nat) : (s.logEvent c d).felt = s.felt := rfl
@[simp] theorem logEvent_wm (s : State) (c : BitVec 16) (d : Nat) : (s.logEvent c d).wm = s.wm := rfl
@[simp] theorem logEvent_slurry (s : State) (c : BitVec 16) (d : Nat) : (s.logEvent c d).slurry = s.slurry := rfl
@[simp] theorem logEvent_fab (s : State) (c : BitVec 16) (d : Nat) : (s.logEvent c d).fab = s.fab := rfl
@[simp] theorem logEvent_twin (s : State) (c : BitVec 16) (d : Nat) : (s.logEvent c d).twin = s.twin := rfl
@[simp] theorem logEvent_straps (s : State) (c : BitVec 16) (d : Nat) : (s.logEvent c d).straps = s.straps := rfl
@[simp] theorem logEvent_pins (s : State) (c : BitVec 16) (d : Nat) : (s.logEvent c d).pins = s.pins := rfl
@[simp] theorem logEvent_rst (s : State) (c : BitVec 16) (d : Nat) : (s.logEvent c d).rst = s.rst := rfl
@[simp] theorem logEvent_pow (s : State) (c : BitVec 16) (d : Nat) : (s.logEvent c d).pow = s.pow := rfl
@[simp] theorem logEvent_meter (s : State) (c : BitVec 16) (d : Nat) : (s.logEvent c d).meter = s.meter := rfl
@[simp] theorem logEvent_sec (s : State) (c : BitVec 16) (d : Nat) : (s.logEvent c d).sec = s.sec := rfl
@[simp] theorem logEvent_host (s : State) (c : BitVec 16) (d : Nat) : (s.logEvent c d).host = s.host := rfl
@[simp] theorem logEvent_tick (s : State) (c : BitVec 16) (d : Nat) : (s.logEvent c d).tick = s.tick := rfl
@[simp] theorem logEvent_sent (s : State) (c : BitVec 16) (d : Nat) : (s.logEvent c d).sent = s.sent := rfl
@[simp] theorem logEvent_free (s : State) (c : BitVec 16) (d : Nat) : (s.logEvent c d).free = s.free := rfl
@[simp] theorem setModVal_pending (s : State) (k d v : Nat) : (s.setModVal k d v).pending = s.pending := rfl
@[simp] theorem setModVal_cores (s : State) (k d v : Nat) : (s.setModVal k d v).cores = s.cores := rfl
@[simp] theorem setModVal_mem (s : State) (k d v : Nat) : (s.setModVal k d v).mem = s.mem := rfl
@[simp] theorem setModVal_ports (s : State) (k d v : Nat) : (s.setModVal k d v).ports = s.ports := rfl
@[simp] theorem setModVal_units (s : State) (k d v : Nat) : (s.setModVal k d v).units = s.units := rfl
@[simp] theorem setModVal_pulpers (s : State) (k d v : Nat) : (s.setModVal k d v).pulpers = s.pulpers := rfl
@[simp] theorem setModVal_hb (s : State) (k d v : Nat) : (s.setModVal k d v).hb = s.hb := rfl
@[simp] theorem setModVal_felt (s : State) (k d v : Nat) : (s.setModVal k d v).felt = s.felt := rfl
@[simp] theorem setModVal_wm (s : State) (k d v : Nat) : (s.setModVal k d v).wm = s.wm := rfl
@[simp] theorem setModVal_slurry (s : State) (k d v : Nat) : (s.setModVal k d v).slurry = s.slurry := rfl
@[simp] theorem setModVal_fab (s : State) (k d v : Nat) : (s.setModVal k d v).fab = s.fab := rfl
@[simp] theorem setModVal_twin (s : State) (k d v : Nat) : (s.setModVal k d v).twin = s.twin := rfl
@[simp] theorem setModVal_straps (s : State) (k d v : Nat) : (s.setModVal k d v).straps = s.straps := rfl
@[simp] theorem setModVal_pins (s : State) (k d v : Nat) : (s.setModVal k d v).pins = s.pins := rfl
@[simp] theorem setModVal_rst (s : State) (k d v : Nat) : (s.setModVal k d v).rst = s.rst := rfl
@[simp] theorem setModVal_pow (s : State) (k d v : Nat) : (s.setModVal k d v).pow = s.pow := rfl
@[simp] theorem setModVal_meter (s : State) (k d v : Nat) : (s.setModVal k d v).meter = s.meter := rfl
@[simp] theorem setModVal_sec (s : State) (k d v : Nat) : (s.setModVal k d v).sec = s.sec := rfl
@[simp] theorem setModVal_host (s : State) (k d v : Nat) : (s.setModVal k d v).host = s.host := rfl
@[simp] theorem setModVal_tick (s : State) (k d v : Nat) : (s.setModVal k d v).tick = s.tick := rfl
@[simp] theorem setModVal_sent (s : State) (k d v : Nat) : (s.setModVal k d v).sent = s.sent := rfl
@[simp] theorem setModVal_free (s : State) (k d v : Nat) : (s.setModVal k d v).free = s.free := rfl
@[simp] theorem bump_pending (s : State) (k n : Nat) : (s.bump k n).pending = s.pending := rfl
@[simp] theorem bump_cores (s : State) (k n : Nat) : (s.bump k n).cores = s.cores := rfl
@[simp] theorem bump_mem (s : State) (k n : Nat) : (s.bump k n).mem = s.mem := rfl
@[simp] theorem bump_ports (s : State) (k n : Nat) : (s.bump k n).ports = s.ports := rfl
@[simp] theorem bump_units (s : State) (k n : Nat) : (s.bump k n).units = s.units := rfl
@[simp] theorem bump_pulpers (s : State) (k n : Nat) : (s.bump k n).pulpers = s.pulpers := rfl
@[simp] theorem bump_hb (s : State) (k n : Nat) : (s.bump k n).hb = s.hb := rfl
@[simp] theorem bump_felt (s : State) (k n : Nat) : (s.bump k n).felt = s.felt := rfl
@[simp] theorem bump_wm (s : State) (k n : Nat) : (s.bump k n).wm = s.wm := rfl
@[simp] theorem bump_slurry (s : State) (k n : Nat) : (s.bump k n).slurry = s.slurry := rfl
@[simp] theorem bump_fab (s : State) (k n : Nat) : (s.bump k n).fab = s.fab := rfl
@[simp] theorem bump_twin (s : State) (k n : Nat) : (s.bump k n).twin = s.twin := rfl
@[simp] theorem bump_straps (s : State) (k n : Nat) : (s.bump k n).straps = s.straps := rfl
@[simp] theorem bump_pins (s : State) (k n : Nat) : (s.bump k n).pins = s.pins := rfl
@[simp] theorem bump_rst (s : State) (k n : Nat) : (s.bump k n).rst = s.rst := rfl
@[simp] theorem bump_pow (s : State) (k n : Nat) : (s.bump k n).pow = s.pow := rfl
@[simp] theorem bump_meter (s : State) (k n : Nat) : (s.bump k n).meter = s.meter := rfl
@[simp] theorem bump_sec (s : State) (k n : Nat) : (s.bump k n).sec = s.sec := rfl
@[simp] theorem bump_host (s : State) (k n : Nat) : (s.bump k n).host = s.host := rfl
@[simp] theorem bump_tick (s : State) (k n : Nat) : (s.bump k n).tick = s.tick := rfl
@[simp] theorem bump_sent (s : State) (k n : Nat) : (s.bump k n).sent = s.sent := rfl
@[simp] theorem bump_free (s : State) (k n : Nat) : (s.bump k n).free = s.free := rfl
@[simp] theorem memWrite_pending (s : State) (a : Nat) (b : Bytes) : (s.memWrite a b).pending = s.pending := rfl
@[simp] theorem memWrite_cores (s : State) (a : Nat) (b : Bytes) : (s.memWrite a b).cores = s.cores := rfl
@[simp] theorem memWrite_ports (s : State) (a : Nat) (b : Bytes) : (s.memWrite a b).ports = s.ports := rfl
@[simp] theorem memWrite_units (s : State) (a : Nat) (b : Bytes) : (s.memWrite a b).units = s.units := rfl
@[simp] theorem memWrite_pulpers (s : State) (a : Nat) (b : Bytes) : (s.memWrite a b).pulpers = s.pulpers := rfl
@[simp] theorem memWrite_hb (s : State) (a : Nat) (b : Bytes) : (s.memWrite a b).hb = s.hb := rfl
@[simp] theorem memWrite_felt (s : State) (a : Nat) (b : Bytes) : (s.memWrite a b).felt = s.felt := rfl
@[simp] theorem memWrite_wm (s : State) (a : Nat) (b : Bytes) : (s.memWrite a b).wm = s.wm := rfl
@[simp] theorem memWrite_slurry (s : State) (a : Nat) (b : Bytes) : (s.memWrite a b).slurry = s.slurry := rfl
@[simp] theorem memWrite_fab (s : State) (a : Nat) (b : Bytes) : (s.memWrite a b).fab = s.fab := rfl
@[simp] theorem memWrite_twin (s : State) (a : Nat) (b : Bytes) : (s.memWrite a b).twin = s.twin := rfl
@[simp] theorem memWrite_dict (s : State) (a : Nat) (b : Bytes) : (s.memWrite a b).dict = s.dict := rfl
@[simp] theorem memWrite_straps (s : State) (a : Nat) (b : Bytes) : (s.memWrite a b).straps = s.straps := rfl
@[simp] theorem memWrite_pins (s : State) (a : Nat) (b : Bytes) : (s.memWrite a b).pins = s.pins := rfl
@[simp] theorem memWrite_rst (s : State) (a : Nat) (b : Bytes) : (s.memWrite a b).rst = s.rst := rfl
@[simp] theorem memWrite_pow (s : State) (a : Nat) (b : Bytes) : (s.memWrite a b).pow = s.pow := rfl
@[simp] theorem memWrite_meter (s : State) (a : Nat) (b : Bytes) : (s.memWrite a b).meter = s.meter := rfl
@[simp] theorem memWrite_sec (s : State) (a : Nat) (b : Bytes) : (s.memWrite a b).sec = s.sec := rfl
@[simp] theorem memWrite_host (s : State) (a : Nat) (b : Bytes) : (s.memWrite a b).host = s.host := rfl
@[simp] theorem memWrite_tick (s : State) (a : Nat) (b : Bytes) : (s.memWrite a b).tick = s.tick := rfl
@[simp] theorem memWrite_sent (s : State) (a : Nat) (b : Bytes) : (s.memWrite a b).sent = s.sent := rfl
@[simp] theorem memWrite_free (s : State) (a : Nat) (b : Bytes) : (s.memWrite a b).free = s.free := rfl
@[simp] theorem putLine_pending (s : State) (v : BitVec 6) (n : Nat) (d : Bool) (x : BitVec 512) : (s.putLine v n d x).pending = s.pending := rfl
@[simp] theorem putLine_cores (s : State) (v : BitVec 6) (n : Nat) (d : Bool) (x : BitVec 512) : (s.putLine v n d x).cores = s.cores := rfl
@[simp] theorem putLine_ports (s : State) (v : BitVec 6) (n : Nat) (d : Bool) (x : BitVec 512) : (s.putLine v n d x).ports = s.ports := rfl
@[simp] theorem putLine_units (s : State) (v : BitVec 6) (n : Nat) (d : Bool) (x : BitVec 512) : (s.putLine v n d x).units = s.units := rfl
@[simp] theorem putLine_pulpers (s : State) (v : BitVec 6) (n : Nat) (d : Bool) (x : BitVec 512) : (s.putLine v n d x).pulpers = s.pulpers := rfl
@[simp] theorem putLine_hb (s : State) (v : BitVec 6) (n : Nat) (d : Bool) (x : BitVec 512) : (s.putLine v n d x).hb = s.hb := rfl
@[simp] theorem putLine_felt (s : State) (v : BitVec 6) (n : Nat) (d : Bool) (x : BitVec 512) : (s.putLine v n d x).felt = s.felt := rfl
@[simp] theorem putLine_wm (s : State) (v : BitVec 6) (n : Nat) (d : Bool) (x : BitVec 512) : (s.putLine v n d x).wm = s.wm := rfl
@[simp] theorem putLine_slurry (s : State) (v : BitVec 6) (n : Nat) (d : Bool) (x : BitVec 512) : (s.putLine v n d x).slurry = s.slurry := rfl
@[simp] theorem putLine_fab (s : State) (v : BitVec 6) (n : Nat) (d : Bool) (x : BitVec 512) : (s.putLine v n d x).fab = s.fab := rfl
@[simp] theorem putLine_twin (s : State) (v : BitVec 6) (n : Nat) (d : Bool) (x : BitVec 512) : (s.putLine v n d x).twin = s.twin := rfl
@[simp] theorem putLine_dict (s : State) (v : BitVec 6) (n : Nat) (d : Bool) (x : BitVec 512) : (s.putLine v n d x).dict = s.dict := rfl
@[simp] theorem putLine_straps (s : State) (v : BitVec 6) (n : Nat) (d : Bool) (x : BitVec 512) : (s.putLine v n d x).straps = s.straps := rfl
@[simp] theorem putLine_pins (s : State) (v : BitVec 6) (n : Nat) (d : Bool) (x : BitVec 512) : (s.putLine v n d x).pins = s.pins := rfl
@[simp] theorem putLine_rst (s : State) (v : BitVec 6) (n : Nat) (d : Bool) (x : BitVec 512) : (s.putLine v n d x).rst = s.rst := rfl
@[simp] theorem putLine_pow (s : State) (v : BitVec 6) (n : Nat) (d : Bool) (x : BitVec 512) : (s.putLine v n d x).pow = s.pow := rfl
@[simp] theorem putLine_meter (s : State) (v : BitVec 6) (n : Nat) (d : Bool) (x : BitVec 512) : (s.putLine v n d x).meter = s.meter := rfl
@[simp] theorem putLine_sec (s : State) (v : BitVec 6) (n : Nat) (d : Bool) (x : BitVec 512) : (s.putLine v n d x).sec = s.sec := rfl
@[simp] theorem putLine_host (s : State) (v : BitVec 6) (n : Nat) (d : Bool) (x : BitVec 512) : (s.putLine v n d x).host = s.host := rfl
@[simp] theorem putLine_tick (s : State) (v : BitVec 6) (n : Nat) (d : Bool) (x : BitVec 512) : (s.putLine v n d x).tick = s.tick := rfl
@[simp] theorem putLine_sent (s : State) (v : BitVec 6) (n : Nat) (d : Bool) (x : BitVec 512) : (s.putLine v n d x).sent = s.sent := rfl
@[simp] theorem putLine_free (s : State) (v : BitVec 6) (n : Nat) (d : Bool) (x : BitVec 512) : (s.putLine v n d x).free = s.free := rfl
@[simp] theorem touchLine_pending (s : State) (v : BitVec 6) (n : Nat) : (s.touchLine v n).pending = s.pending := rfl
@[simp] theorem touchLine_cores (s : State) (v : BitVec 6) (n : Nat) : (s.touchLine v n).cores = s.cores := rfl
@[simp] theorem touchLine_ports (s : State) (v : BitVec 6) (n : Nat) : (s.touchLine v n).ports = s.ports := rfl
@[simp] theorem touchLine_units (s : State) (v : BitVec 6) (n : Nat) : (s.touchLine v n).units = s.units := rfl
@[simp] theorem touchLine_pulpers (s : State) (v : BitVec 6) (n : Nat) : (s.touchLine v n).pulpers = s.pulpers := rfl
@[simp] theorem touchLine_hb (s : State) (v : BitVec 6) (n : Nat) : (s.touchLine v n).hb = s.hb := rfl
@[simp] theorem touchLine_felt (s : State) (v : BitVec 6) (n : Nat) : (s.touchLine v n).felt = s.felt := rfl
@[simp] theorem touchLine_wm (s : State) (v : BitVec 6) (n : Nat) : (s.touchLine v n).wm = s.wm := rfl
@[simp] theorem touchLine_slurry (s : State) (v : BitVec 6) (n : Nat) : (s.touchLine v n).slurry = s.slurry := rfl
@[simp] theorem touchLine_fab (s : State) (v : BitVec 6) (n : Nat) : (s.touchLine v n).fab = s.fab := rfl
@[simp] theorem touchLine_twin (s : State) (v : BitVec 6) (n : Nat) : (s.touchLine v n).twin = s.twin := rfl
@[simp] theorem touchLine_dict (s : State) (v : BitVec 6) (n : Nat) : (s.touchLine v n).dict = s.dict := rfl
@[simp] theorem touchLine_straps (s : State) (v : BitVec 6) (n : Nat) : (s.touchLine v n).straps = s.straps := rfl
@[simp] theorem touchLine_pins (s : State) (v : BitVec 6) (n : Nat) : (s.touchLine v n).pins = s.pins := rfl
@[simp] theorem touchLine_rst (s : State) (v : BitVec 6) (n : Nat) : (s.touchLine v n).rst = s.rst := rfl
@[simp] theorem touchLine_pow (s : State) (v : BitVec 6) (n : Nat) : (s.touchLine v n).pow = s.pow := rfl
@[simp] theorem touchLine_meter (s : State) (v : BitVec 6) (n : Nat) : (s.touchLine v n).meter = s.meter := rfl
@[simp] theorem touchLine_sec (s : State) (v : BitVec 6) (n : Nat) : (s.touchLine v n).sec = s.sec := rfl
@[simp] theorem touchLine_host (s : State) (v : BitVec 6) (n : Nat) : (s.touchLine v n).host = s.host := rfl
@[simp] theorem touchLine_tick (s : State) (v : BitVec 6) (n : Nat) : (s.touchLine v n).tick = s.tick := rfl
@[simp] theorem touchLine_sent (s : State) (v : BitVec 6) (n : Nat) : (s.touchLine v n).sent = s.sent := rfl
@[simp] theorem touchLine_free (s : State) (v : BitVec 6) (n : Nat) : (s.touchLine v n).free = s.free := rfl
@[simp] theorem storeByte_pending (s : State) (v : BitVec 6) (a : Nat) (b : BitVec 8) : (s.storeByte v a b).pending = s.pending := rfl
@[simp] theorem storeByte_cores (s : State) (v : BitVec 6) (a : Nat) (b : BitVec 8) : (s.storeByte v a b).cores = s.cores := rfl
@[simp] theorem storeByte_ports (s : State) (v : BitVec 6) (a : Nat) (b : BitVec 8) : (s.storeByte v a b).ports = s.ports := rfl
@[simp] theorem storeByte_units (s : State) (v : BitVec 6) (a : Nat) (b : BitVec 8) : (s.storeByte v a b).units = s.units := rfl
@[simp] theorem storeByte_pulpers (s : State) (v : BitVec 6) (a : Nat) (b : BitVec 8) : (s.storeByte v a b).pulpers = s.pulpers := rfl
@[simp] theorem storeByte_hb (s : State) (v : BitVec 6) (a : Nat) (b : BitVec 8) : (s.storeByte v a b).hb = s.hb := rfl
@[simp] theorem storeByte_felt (s : State) (v : BitVec 6) (a : Nat) (b : BitVec 8) : (s.storeByte v a b).felt = s.felt := rfl
@[simp] theorem storeByte_wm (s : State) (v : BitVec 6) (a : Nat) (b : BitVec 8) : (s.storeByte v a b).wm = s.wm := rfl
@[simp] theorem storeByte_slurry (s : State) (v : BitVec 6) (a : Nat) (b : BitVec 8) : (s.storeByte v a b).slurry = s.slurry := rfl
@[simp] theorem storeByte_fab (s : State) (v : BitVec 6) (a : Nat) (b : BitVec 8) : (s.storeByte v a b).fab = s.fab := rfl
@[simp] theorem storeByte_twin (s : State) (v : BitVec 6) (a : Nat) (b : BitVec 8) : (s.storeByte v a b).twin = s.twin := rfl
@[simp] theorem storeByte_dict (s : State) (v : BitVec 6) (a : Nat) (b : BitVec 8) : (s.storeByte v a b).dict = s.dict := rfl
@[simp] theorem storeByte_straps (s : State) (v : BitVec 6) (a : Nat) (b : BitVec 8) : (s.storeByte v a b).straps = s.straps := rfl
@[simp] theorem storeByte_pins (s : State) (v : BitVec 6) (a : Nat) (b : BitVec 8) : (s.storeByte v a b).pins = s.pins := rfl
@[simp] theorem storeByte_rst (s : State) (v : BitVec 6) (a : Nat) (b : BitVec 8) : (s.storeByte v a b).rst = s.rst := rfl
@[simp] theorem storeByte_pow (s : State) (v : BitVec 6) (a : Nat) (b : BitVec 8) : (s.storeByte v a b).pow = s.pow := rfl
@[simp] theorem storeByte_meter (s : State) (v : BitVec 6) (a : Nat) (b : BitVec 8) : (s.storeByte v a b).meter = s.meter := rfl
@[simp] theorem storeByte_sec (s : State) (v : BitVec 6) (a : Nat) (b : BitVec 8) : (s.storeByte v a b).sec = s.sec := rfl
@[simp] theorem storeByte_host (s : State) (v : BitVec 6) (a : Nat) (b : BitVec 8) : (s.storeByte v a b).host = s.host := rfl
@[simp] theorem storeByte_tick (s : State) (v : BitVec 6) (a : Nat) (b : BitVec 8) : (s.storeByte v a b).tick = s.tick := rfl
@[simp] theorem storeByte_sent (s : State) (v : BitVec 6) (a : Nat) (b : BitVec 8) : (s.storeByte v a b).sent = s.sent := rfl
@[simp] theorem storeByte_free (s : State) (v : BitVec 6) (a : Nat) (b : BitVec 8) : (s.storeByte v a b).free = s.free := rfl
@[simp] theorem setItem_pending (s : State) (it : Item) : (s.setItem it).pending = s.pending := rfl
@[simp] theorem setItem_cores (s : State) (it : Item) : (s.setItem it).cores = s.cores := rfl
@[simp] theorem setItem_mem (s : State) (it : Item) : (s.setItem it).mem = s.mem := rfl
@[simp] theorem setItem_ports (s : State) (it : Item) : (s.setItem it).ports = s.ports := rfl
@[simp] theorem setItem_units (s : State) (it : Item) : (s.setItem it).units = s.units := rfl
@[simp] theorem setItem_pulpers (s : State) (it : Item) : (s.setItem it).pulpers = s.pulpers := rfl
@[simp] theorem setItem_felt (s : State) (it : Item) : (s.setItem it).felt = s.felt := rfl
@[simp] theorem setItem_wm (s : State) (it : Item) : (s.setItem it).wm = s.wm := rfl
@[simp] theorem setItem_slurry (s : State) (it : Item) : (s.setItem it).slurry = s.slurry := rfl
@[simp] theorem setItem_fab (s : State) (it : Item) : (s.setItem it).fab = s.fab := rfl
@[simp] theorem setItem_twin (s : State) (it : Item) : (s.setItem it).twin = s.twin := rfl
@[simp] theorem setItem_dict (s : State) (it : Item) : (s.setItem it).dict = s.dict := rfl
@[simp] theorem setItem_straps (s : State) (it : Item) : (s.setItem it).straps = s.straps := rfl
@[simp] theorem setItem_pins (s : State) (it : Item) : (s.setItem it).pins = s.pins := rfl
@[simp] theorem setItem_rst (s : State) (it : Item) : (s.setItem it).rst = s.rst := rfl
@[simp] theorem setItem_pow (s : State) (it : Item) : (s.setItem it).pow = s.pow := rfl
@[simp] theorem setItem_meter (s : State) (it : Item) : (s.setItem it).meter = s.meter := rfl
@[simp] theorem setItem_sec (s : State) (it : Item) : (s.setItem it).sec = s.sec := rfl
@[simp] theorem setItem_host (s : State) (it : Item) : (s.setItem it).host = s.host := rfl
@[simp] theorem setItem_tick (s : State) (it : Item) : (s.setItem it).tick = s.tick := rfl
@[simp] theorem setItem_sent (s : State) (it : Item) : (s.setItem it).sent = s.sent := rfl
@[simp] theorem setItem_free (s : State) (it : Item) : (s.setItem it).free = s.free := rfl
@[simp] theorem setJob_pending (s : State) (j : Job) : (s.setJob j).pending = s.pending := rfl
@[simp] theorem setJob_cores (s : State) (j : Job) : (s.setJob j).cores = s.cores := rfl
@[simp] theorem setJob_mem (s : State) (j : Job) : (s.setJob j).mem = s.mem := rfl
@[simp] theorem setJob_ports (s : State) (j : Job) : (s.setJob j).ports = s.ports := rfl
@[simp] theorem setJob_units (s : State) (j : Job) : (s.setJob j).units = s.units := rfl
@[simp] theorem setJob_pulpers (s : State) (j : Job) : (s.setJob j).pulpers = s.pulpers := rfl
@[simp] theorem setJob_felt (s : State) (j : Job) : (s.setJob j).felt = s.felt := rfl
@[simp] theorem setJob_wm (s : State) (j : Job) : (s.setJob j).wm = s.wm := rfl
@[simp] theorem setJob_slurry (s : State) (j : Job) : (s.setJob j).slurry = s.slurry := rfl
@[simp] theorem setJob_fab (s : State) (j : Job) : (s.setJob j).fab = s.fab := rfl
@[simp] theorem setJob_twin (s : State) (j : Job) : (s.setJob j).twin = s.twin := rfl
@[simp] theorem setJob_dict (s : State) (j : Job) : (s.setJob j).dict = s.dict := rfl
@[simp] theorem setJob_straps (s : State) (j : Job) : (s.setJob j).straps = s.straps := rfl
@[simp] theorem setJob_pins (s : State) (j : Job) : (s.setJob j).pins = s.pins := rfl
@[simp] theorem setJob_rst (s : State) (j : Job) : (s.setJob j).rst = s.rst := rfl
@[simp] theorem setJob_pow (s : State) (j : Job) : (s.setJob j).pow = s.pow := rfl
@[simp] theorem setJob_meter (s : State) (j : Job) : (s.setJob j).meter = s.meter := rfl
@[simp] theorem setJob_sec (s : State) (j : Job) : (s.setJob j).sec = s.sec := rfl
@[simp] theorem setJob_host (s : State) (j : Job) : (s.setJob j).host = s.host := rfl
@[simp] theorem setJob_tick (s : State) (j : Job) : (s.setJob j).tick = s.tick := rfl
@[simp] theorem setJob_sent (s : State) (j : Job) : (s.setJob j).sent = s.sent := rfl
@[simp] theorem setJob_free (s : State) (j : Job) : (s.setJob j).free = s.free := rfl
@[simp] theorem setFlow_pending (s : State) (r : FlowRun) : (s.setFlow r).pending = s.pending := rfl
@[simp] theorem setFlow_cores (s : State) (r : FlowRun) : (s.setFlow r).cores = s.cores := rfl
@[simp] theorem setFlow_mem (s : State) (r : FlowRun) : (s.setFlow r).mem = s.mem := rfl
@[simp] theorem setFlow_ports (s : State) (r : FlowRun) : (s.setFlow r).ports = s.ports := rfl
@[simp] theorem setFlow_units (s : State) (r : FlowRun) : (s.setFlow r).units = s.units := rfl
@[simp] theorem setFlow_pulpers (s : State) (r : FlowRun) : (s.setFlow r).pulpers = s.pulpers := rfl
@[simp] theorem setFlow_felt (s : State) (r : FlowRun) : (s.setFlow r).felt = s.felt := rfl
@[simp] theorem setFlow_wm (s : State) (r : FlowRun) : (s.setFlow r).wm = s.wm := rfl
@[simp] theorem setFlow_slurry (s : State) (r : FlowRun) : (s.setFlow r).slurry = s.slurry := rfl
@[simp] theorem setFlow_fab (s : State) (r : FlowRun) : (s.setFlow r).fab = s.fab := rfl
@[simp] theorem setFlow_twin (s : State) (r : FlowRun) : (s.setFlow r).twin = s.twin := rfl
@[simp] theorem setFlow_dict (s : State) (r : FlowRun) : (s.setFlow r).dict = s.dict := rfl
@[simp] theorem setFlow_straps (s : State) (r : FlowRun) : (s.setFlow r).straps = s.straps := rfl
@[simp] theorem setFlow_pins (s : State) (r : FlowRun) : (s.setFlow r).pins = s.pins := rfl
@[simp] theorem setFlow_rst (s : State) (r : FlowRun) : (s.setFlow r).rst = s.rst := rfl
@[simp] theorem setFlow_pow (s : State) (r : FlowRun) : (s.setFlow r).pow = s.pow := rfl
@[simp] theorem setFlow_meter (s : State) (r : FlowRun) : (s.setFlow r).meter = s.meter := rfl
@[simp] theorem setFlow_sec (s : State) (r : FlowRun) : (s.setFlow r).sec = s.sec := rfl
@[simp] theorem setFlow_host (s : State) (r : FlowRun) : (s.setFlow r).host = s.host := rfl
@[simp] theorem setFlow_tick (s : State) (r : FlowRun) : (s.setFlow r).tick = s.tick := rfl
@[simp] theorem setFlow_sent (s : State) (r : FlowRun) : (s.setFlow r).sent = s.sent := rfl
@[simp] theorem setFlow_free (s : State) (r : FlowRun) : (s.setFlow r).free = s.free := rfl
@[simp] theorem complete_pending (s : State) (t : BitVec 32) (st : BitVec 16) (f : Bool) (j : BitVec 64) (r : BitVec 16) : (s.complete t st f j r).pending = s.pending := rfl
@[simp] theorem complete_cores (s : State) (t : BitVec 32) (st : BitVec 16) (f : Bool) (j : BitVec 64) (r : BitVec 16) : (s.complete t st f j r).cores = s.cores := rfl
@[simp] theorem complete_mem (s : State) (t : BitVec 32) (st : BitVec 16) (f : Bool) (j : BitVec 64) (r : BitVec 16) : (s.complete t st f j r).mem = s.mem := rfl
@[simp] theorem complete_ports (s : State) (t : BitVec 32) (st : BitVec 16) (f : Bool) (j : BitVec 64) (r : BitVec 16) : (s.complete t st f j r).ports = s.ports := rfl
@[simp] theorem complete_units (s : State) (t : BitVec 32) (st : BitVec 16) (f : Bool) (j : BitVec 64) (r : BitVec 16) : (s.complete t st f j r).units = s.units := rfl
@[simp] theorem complete_pulpers (s : State) (t : BitVec 32) (st : BitVec 16) (f : Bool) (j : BitVec 64) (r : BitVec 16) : (s.complete t st f j r).pulpers = s.pulpers := rfl
@[simp] theorem complete_hb (s : State) (t : BitVec 32) (st : BitVec 16) (f : Bool) (j : BitVec 64) (r : BitVec 16) : (s.complete t st f j r).hb = s.hb := rfl
@[simp] theorem complete_felt (s : State) (t : BitVec 32) (st : BitVec 16) (f : Bool) (j : BitVec 64) (r : BitVec 16) : (s.complete t st f j r).felt = s.felt := rfl
@[simp] theorem complete_wm (s : State) (t : BitVec 32) (st : BitVec 16) (f : Bool) (j : BitVec 64) (r : BitVec 16) : (s.complete t st f j r).wm = s.wm := rfl
@[simp] theorem complete_slurry (s : State) (t : BitVec 32) (st : BitVec 16) (f : Bool) (j : BitVec 64) (r : BitVec 16) : (s.complete t st f j r).slurry = s.slurry := rfl
@[simp] theorem complete_fab (s : State) (t : BitVec 32) (st : BitVec 16) (f : Bool) (j : BitVec 64) (r : BitVec 16) : (s.complete t st f j r).fab = s.fab := rfl
@[simp] theorem complete_twin (s : State) (t : BitVec 32) (st : BitVec 16) (f : Bool) (j : BitVec 64) (r : BitVec 16) : (s.complete t st f j r).twin = s.twin := rfl
@[simp] theorem complete_dict (s : State) (t : BitVec 32) (st : BitVec 16) (f : Bool) (j : BitVec 64) (r : BitVec 16) : (s.complete t st f j r).dict = s.dict := rfl
@[simp] theorem complete_straps (s : State) (t : BitVec 32) (st : BitVec 16) (f : Bool) (j : BitVec 64) (r : BitVec 16) : (s.complete t st f j r).straps = s.straps := rfl
@[simp] theorem complete_pins (s : State) (t : BitVec 32) (st : BitVec 16) (f : Bool) (j : BitVec 64) (r : BitVec 16) : (s.complete t st f j r).pins = s.pins := rfl
@[simp] theorem complete_rst (s : State) (t : BitVec 32) (st : BitVec 16) (f : Bool) (j : BitVec 64) (r : BitVec 16) : (s.complete t st f j r).rst = s.rst := rfl
@[simp] theorem complete_pow (s : State) (t : BitVec 32) (st : BitVec 16) (f : Bool) (j : BitVec 64) (r : BitVec 16) : (s.complete t st f j r).pow = s.pow := rfl
@[simp] theorem complete_meter (s : State) (t : BitVec 32) (st : BitVec 16) (f : Bool) (j : BitVec 64) (r : BitVec 16) : (s.complete t st f j r).meter = s.meter := rfl
@[simp] theorem complete_sec (s : State) (t : BitVec 32) (st : BitVec 16) (f : Bool) (j : BitVec 64) (r : BitVec 16) : (s.complete t st f j r).sec = s.sec := rfl
@[simp] theorem complete_tick (s : State) (t : BitVec 32) (st : BitVec 16) (f : Bool) (j : BitVec 64) (r : BitVec 16) : (s.complete t st f j r).tick = s.tick := rfl
@[simp] theorem complete_free (s : State) (t : BitVec 32) (st : BitVec 16) (f : Bool) (j : BitVec 64) (r : BitVec 16) : (s.complete t st f j r).free = s.free := rfl
@[simp] theorem setAlloc_pending (s : State) (n : BitVec 16) (a : Alloc) : (s.setAlloc n a).pending = s.pending := rfl
@[simp] theorem setAlloc_cores (s : State) (n : BitVec 16) (a : Alloc) : (s.setAlloc n a).cores = s.cores := rfl
@[simp] theorem setAlloc_mem (s : State) (n : BitVec 16) (a : Alloc) : (s.setAlloc n a).mem = s.mem := rfl
@[simp] theorem setAlloc_ports (s : State) (n : BitVec 16) (a : Alloc) : (s.setAlloc n a).ports = s.ports := rfl
@[simp] theorem setAlloc_units (s : State) (n : BitVec 16) (a : Alloc) : (s.setAlloc n a).units = s.units := rfl
@[simp] theorem setAlloc_pulpers (s : State) (n : BitVec 16) (a : Alloc) : (s.setAlloc n a).pulpers = s.pulpers := rfl
@[simp] theorem setAlloc_felt (s : State) (n : BitVec 16) (a : Alloc) : (s.setAlloc n a).felt = s.felt := rfl
@[simp] theorem setAlloc_wm (s : State) (n : BitVec 16) (a : Alloc) : (s.setAlloc n a).wm = s.wm := rfl
@[simp] theorem setAlloc_slurry (s : State) (n : BitVec 16) (a : Alloc) : (s.setAlloc n a).slurry = s.slurry := rfl
@[simp] theorem setAlloc_fab (s : State) (n : BitVec 16) (a : Alloc) : (s.setAlloc n a).fab = s.fab := rfl
@[simp] theorem setAlloc_twin (s : State) (n : BitVec 16) (a : Alloc) : (s.setAlloc n a).twin = s.twin := rfl
@[simp] theorem setAlloc_dict (s : State) (n : BitVec 16) (a : Alloc) : (s.setAlloc n a).dict = s.dict := rfl
@[simp] theorem setAlloc_straps (s : State) (n : BitVec 16) (a : Alloc) : (s.setAlloc n a).straps = s.straps := rfl
@[simp] theorem setAlloc_pins (s : State) (n : BitVec 16) (a : Alloc) : (s.setAlloc n a).pins = s.pins := rfl
@[simp] theorem setAlloc_rst (s : State) (n : BitVec 16) (a : Alloc) : (s.setAlloc n a).rst = s.rst := rfl
@[simp] theorem setAlloc_pow (s : State) (n : BitVec 16) (a : Alloc) : (s.setAlloc n a).pow = s.pow := rfl
@[simp] theorem setAlloc_meter (s : State) (n : BitVec 16) (a : Alloc) : (s.setAlloc n a).meter = s.meter := rfl
@[simp] theorem setAlloc_sec (s : State) (n : BitVec 16) (a : Alloc) : (s.setAlloc n a).sec = s.sec := rfl
@[simp] theorem setAlloc_host (s : State) (n : BitVec 16) (a : Alloc) : (s.setAlloc n a).host = s.host := rfl
@[simp] theorem setAlloc_tick (s : State) (n : BitVec 16) (a : Alloc) : (s.setAlloc n a).tick = s.tick := rfl
@[simp] theorem setAlloc_sent (s : State) (n : BitVec 16) (a : Alloc) : (s.setAlloc n a).sent = s.sent := rfl
@[simp] theorem setAlloc_free (s : State) (n : BitVec 16) (a : Alloc) : (s.setAlloc n a).free = s.free := rfl
@[simp] theorem clearRange_pending (s : State) (a n : Nat) : (s.clearRange a n).pending = s.pending := rfl
@[simp] theorem clearRange_cores (s : State) (a n : Nat) : (s.clearRange a n).cores = s.cores := rfl
@[simp] theorem clearRange_ports (s : State) (a n : Nat) : (s.clearRange a n).ports = s.ports := rfl
@[simp] theorem clearRange_units (s : State) (a n : Nat) : (s.clearRange a n).units = s.units := rfl
@[simp] theorem clearRange_pulpers (s : State) (a n : Nat) : (s.clearRange a n).pulpers = s.pulpers := rfl
@[simp] theorem clearRange_hb (s : State) (a n : Nat) : (s.clearRange a n).hb = s.hb := rfl
@[simp] theorem clearRange_felt (s : State) (a n : Nat) : (s.clearRange a n).felt = s.felt := rfl
@[simp] theorem clearRange_wm (s : State) (a n : Nat) : (s.clearRange a n).wm = s.wm := rfl
@[simp] theorem clearRange_slurry (s : State) (a n : Nat) : (s.clearRange a n).slurry = s.slurry := rfl
@[simp] theorem clearRange_fab (s : State) (a n : Nat) : (s.clearRange a n).fab = s.fab := rfl
@[simp] theorem clearRange_twin (s : State) (a n : Nat) : (s.clearRange a n).twin = s.twin := rfl
@[simp] theorem clearRange_dict (s : State) (a n : Nat) : (s.clearRange a n).dict = s.dict := rfl
@[simp] theorem clearRange_straps (s : State) (a n : Nat) : (s.clearRange a n).straps = s.straps := rfl
@[simp] theorem clearRange_pins (s : State) (a n : Nat) : (s.clearRange a n).pins = s.pins := rfl
@[simp] theorem clearRange_rst (s : State) (a n : Nat) : (s.clearRange a n).rst = s.rst := rfl
@[simp] theorem clearRange_pow (s : State) (a n : Nat) : (s.clearRange a n).pow = s.pow := rfl
@[simp] theorem clearRange_meter (s : State) (a n : Nat) : (s.clearRange a n).meter = s.meter := rfl
@[simp] theorem clearRange_sec (s : State) (a n : Nat) : (s.clearRange a n).sec = s.sec := rfl
@[simp] theorem clearRange_host (s : State) (a n : Nat) : (s.clearRange a n).host = s.host := rfl
@[simp] theorem clearRange_tick (s : State) (a n : Nat) : (s.clearRange a n).tick = s.tick := rfl
@[simp] theorem clearRange_sent (s : State) (a n : Nat) : (s.clearRange a n).sent = s.sent := rfl
@[simp] theorem clearRange_free (s : State) (a n : Nat) : (s.clearRange a n).free = s.free := rfl
@[simp] theorem setExch_pending (s : State) (x : Exch) : (s.setExch x).pending = s.pending := rfl
@[simp] theorem setExch_cores (s : State) (x : Exch) : (s.setExch x).cores = s.cores := rfl
@[simp] theorem setExch_mem (s : State) (x : Exch) : (s.setExch x).mem = s.mem := rfl
@[simp] theorem setExch_ports (s : State) (x : Exch) : (s.setExch x).ports = s.ports := rfl
@[simp] theorem setExch_units (s : State) (x : Exch) : (s.setExch x).units = s.units := rfl
@[simp] theorem setExch_pulpers (s : State) (x : Exch) : (s.setExch x).pulpers = s.pulpers := rfl
@[simp] theorem setExch_hb (s : State) (x : Exch) : (s.setExch x).hb = s.hb := rfl
@[simp] theorem setExch_felt (s : State) (x : Exch) : (s.setExch x).felt = s.felt := rfl
@[simp] theorem setExch_wm (s : State) (x : Exch) : (s.setExch x).wm = s.wm := rfl
@[simp] theorem setExch_fab (s : State) (x : Exch) : (s.setExch x).fab = s.fab := rfl
@[simp] theorem setExch_twin (s : State) (x : Exch) : (s.setExch x).twin = s.twin := rfl
@[simp] theorem setExch_dict (s : State) (x : Exch) : (s.setExch x).dict = s.dict := rfl
@[simp] theorem setExch_straps (s : State) (x : Exch) : (s.setExch x).straps = s.straps := rfl
@[simp] theorem setExch_pins (s : State) (x : Exch) : (s.setExch x).pins = s.pins := rfl
@[simp] theorem setExch_rst (s : State) (x : Exch) : (s.setExch x).rst = s.rst := rfl
@[simp] theorem setExch_pow (s : State) (x : Exch) : (s.setExch x).pow = s.pow := rfl
@[simp] theorem setExch_meter (s : State) (x : Exch) : (s.setExch x).meter = s.meter := rfl
@[simp] theorem setExch_sec (s : State) (x : Exch) : (s.setExch x).sec = s.sec := rfl
@[simp] theorem setExch_host (s : State) (x : Exch) : (s.setExch x).host = s.host := rfl
@[simp] theorem setExch_tick (s : State) (x : Exch) : (s.setExch x).tick = s.tick := rfl
@[simp] theorem setExch_sent (s : State) (x : Exch) : (s.setExch x).sent = s.sent := rfl
@[simp] theorem setExch_free (s : State) (x : Exch) : (s.setExch x).free = s.free := rfl

end Sys2Proof.Machine
end

