-- ==== Sys2Proof/Laws/Words.lean ====
section
/-! SUPPORT. What a word does (R34, R35, R59, R60), said once: actions stay in memory, ports and unit queues; a word
whose slots all complete commits their results. -/

namespace Sys2Proof.Machine

open Sys2Proof

/-! ### What actions leave alone -/

/-- The two states differ in memory, creation ports and unit queues only. -/
def ActsOnly (s t : State) : Prop := t = { s with mem := t.mem, ports := t.ports, units := t.units }

/-- The two states differ in memory only. -/
def MemOnly (s t : State) : Prop := t = { s with mem := t.mem }

theorem MemOnly.refl (s : State) : MemOnly s s := rfl
theorem MemOnly.trans {s t u : State} (h : MemOnly s t) (g : MemOnly t u) : MemOnly s u := by
  unfold MemOnly at *; rw [g, h]
theorem MemOnly.acts {s t : State} (h : MemOnly s t) : ActsOnly s t := by
  unfold MemOnly ActsOnly at *; rw [h]
theorem ActsOnly.refl (s : State) : ActsOnly s s := rfl
theorem ActsOnly.trans {s t u : State} (h : ActsOnly s t) (g : ActsOnly t u) : ActsOnly s u := by
  unfold ActsOnly at *; rw [g, h]

theorem foldl_memOnly {β : Type} (f : State → β → State) (h : ∀ s b, MemOnly s (f s b)) (l : List β) (s : State) :
    MemOnly s (l.foldl f s) := by
  induction l generalizing s with
  | nil => rfl
  | cons b l ih => exact (h s b).trans (ih _)

theorem putLine_memOnly (s : State) (v n d x) : MemOnly s (s.putLine v n d x) := rfl
theorem memWrite_memOnly (s : State) (a b) : MemOnly s (s.memWrite a b) := rfl
theorem touchLine_memOnly (s : State) (v n) : MemOnly s (s.touchLine v n) := rfl
theorem storeByte_memOnly (s : State) (v a b) : MemOnly s (s.storeByte v a b) := rfl
theorem heal_memOnly (s : State) (v ls) : MemOnly s (s.heal v ls) := rfl
theorem noteStores_memOnly (s : State) (c acts) : MemOnly s (s.noteStores c acts) := by
  unfold State.noteStores
  lift_lets
  intro as
  split <;> rfl
theorem setBit_memOnly (s : State) (v a i b) : MemOnly s (s.setBit v a i b) := rfl

theorem store_memOnly (s : State) (v a) (b : Bytes) : MemOnly s (s.store v a b) := by
  induction b generalizing s a with
  | nil => rfl
  | cons x b ih => exact (storeByte_memOnly s v a x).trans (ih _ _)

theorem storeCells_memOnly (s : State) (v) (cs : List (Nat × BitVec 8)) : MemOnly s (s.storeCells v cs) := by
  induction cs generalizing s with
  | nil => rfl
  | cons x b ih => obtain ⟨a, x⟩ := x; exact (storeByte_memOnly s v a x).trans (ih _)

theorem touchLines_memOnly (s : State) (v n k) : MemOnly s (s.touchLines v n k) := by
  induction k generalizing s n with
  | zero => rfl
  | succ k ih => exact (touchLine_memOnly s v n).trans (ih _ _)

theorem flushLine_memOnly (s : State) (v n) : MemOnly s (s.flushLine v n) := by
  unfold State.flushLine
  split
  · split
    · show MemOnly s (if _ then _ else _)
      split <;> rfl
    · rfl
  · rfl

theorem invalLine_memOnly (s : State) (v n) : MemOnly s (s.invalLine v n) := (flushLine_memOnly s v n).trans rfl

theorem flushRange_memOnly (s : State) (v a n) : MemOnly s (s.flushRange v a n) :=
  foldl_memOnly _ (fun s b => flushLine_memOnly s v b) _ s

theorem invalRange_memOnly (s : State) (v a n) : MemOnly s (s.invalRange v a n) :=
  foldl_memOnly _ (fun s b => invalLine_memOnly s v b) _ s

theorem setPort_actsOnly (s : State) (n w) : ActsOnly s (s.setPort n w) := rfl

theorem portCreate_actsOnly (s : State) (v n) : ActsOnly s (s.portCreate v n) := by
  unfold State.portCreate
  lift_lets
  intro w job index dst code s'
  split
  · exact (setPort_actsOnly s n _).trans (store_memOnly s' _ _ _).acts
  · exact setPort_actsOnly s n _

theorem portCtrl_actsOnly (s : State) (v n x) : ActsOnly s (s.portCtrl v n x) := by
  unfold State.portCtrl
  split
  · rfl
  · show ActsOnly s (if x = 1 then State.portCreate (s.setPort n _) v n else s.setPort n _)
    split
    · exact (setPort_actsOnly s n _).trans (portCreate_actsOnly _ _ _)
    · exact setPort_actsOnly s n _

theorem portStore_actsOnly (s : State) (v n cs) : ActsOnly s (s.portStore v n cs) := by
  unfold State.portStore
  lift_lets
  intro w img s'
  split
  · rfl
  · split
    · exact (setPort_actsOnly s n _).trans (portCtrl_actsOnly s' _ _ _)
    · exact setPort_actsOnly s n _

theorem act_actsOnly (s : State) (c : CoreId) (a : Act) : ActsOnly s (s.act c a) := by
  cases a with
  | touch ls => exact (foldl_memOnly _ (fun s b => touchLine_memOnly s c.vat b) ls s).acts
  | cells cs => exact ((storeCells_memOnly s c.vat cs).trans (heal_memOnly _ _ _)).acts
  | bits bs => exact ((foldl_memOnly _ (fun s b => setBit_memOnly s c.vat b.1 b.2.1 b.2.2) bs s).trans (heal_memOnly _ _ _)).acts
  | atomic a b => exact ((invalLine_memOnly s c.vat (a / 64)).trans (memWrite_memOnly _ a b)).acts
  | flush a n => exact (flushRange_memOnly s c.vat a n).acts
  | inval a n => exact (invalRange_memOnly s c.vat a n).acts
  | port n v cs => exact portStore_actsOnly s v n cs
  | submit u => rfl

@[simp] theorem noteStores_nil (s : State) (c : CoreId) : s.noteStores c [] = s := rfl
theorem noteStores_bytes (s : State) (c acts) : (s.noteStores c acts).mem.bytes = s.mem.bytes := by
  unfold State.noteStores
  lift_lets
  intro as
  split <;> rfl
theorem noteStores_l2 (s : State) (c acts) : (s.noteStores c acts).mem.l2 = s.mem.l2 := by
  unfold State.noteStores
  lift_lets
  intro as
  split <;> rfl

theorem acts_actsOnly (c : CoreId) (l : List Act) (s : State) : ActsOnly s (l.foldl (fun s a => s.act c a) s) := by
  induction l generalizing s with
  | nil => rfl
  | cons a l ih => exact (act_actsOnly s c a).trans (ih _)

/-! ### Cores -/

theorem coreNum_inj {c d : CoreId} (h : coreNum c = coreNum d) : c = d := by
  unfold coreNum at h
  obtain ⟨v, k⟩ := c
  obtain ⟨v', k'⟩ := d
  have h1 := k.isLt
  have h2 := k'.isLt
  simp only at h
  have hv : v.toNat = v'.toNat := by omega
  have hk : k.toNat = k'.toNat := by omega
  rw [BitVec.eq_of_toNat_eq hv, BitVec.eq_of_toNat_eq hk]

/-- A core reads as written; every other core is as it was. -/
theorem core_setCore (s : State) (c d : CoreId) (k : Core) :
    (s.setCore c k).core d = if d = c then k else s.core d := by
  unfold State.core State.setCore
  rw [Assoc.get_set]
  by_cases h : d = c
  · rw [if_pos h, if_pos (by rw [h])]
  · rw [if_neg h, if_neg (fun e => h (coreNum_inj e))]

theorem core_actsOnly {s t : State} (h : ActsOnly s t) (c : CoreId) : t.core c = s.core c := by
  unfold ActsOnly at h; rw [h]; rfl

/-! ### Registers after all slots -/

theorem writeX_getX (k : Core) (o) (r : BitVec 5) (hr : r ≠ 0) :
    (k.writeX o).getX r = (writtenTo o r).getD (k.getX r) := by
  rcases o with _ | ⟨q, v⟩
  · rfl
  · simp only [Core.writeX, writtenTo, Core.getX_setX]
    by_cases h : r = q
    · subst h; have hr' : ¬ r = 0#5 := hr; simp [hr']
    · rw [if_neg (fun e => h e.1), if_neg (Ne.symm h)]; rfl

theorem writeW_getW (k : Core) (o) (r) : (k.writeW o).getW r = (writtenTo o r).getD (k.getW r) := by
  rcases o with _ | ⟨q, v⟩
  · rfl
  · simp only [Core.writeW, writtenTo, Core.getW_setW, eq_comm]; split <;> rfl
theorem writeP_getP (k : Core) (o) (r) : (k.writeP o).getP r = (writtenTo o r).getD (k.getP r) := by
  rcases o with _ | ⟨q, v⟩
  · rfl
  · simp only [Core.writeP, writtenTo, Core.getP_setP, eq_comm]; split <;> rfl
theorem writeE_getE (k : Core) (o) (r) : (k.writeE o).getE r = (writtenTo o r).getD (k.getE r) := by
  rcases o with _ | ⟨q, v⟩
  · rfl
  · simp only [Core.writeE, writtenTo, Core.getE_setE, eq_comm]; split <;> rfl
theorem writeStream_getS (k : Core) (o) (r) : (k.writeStream o).getS r = (writtenTo o r).getD (k.getS r) := by
  rcases o with _ | ⟨q, v⟩
  · rfl
  · simp only [Core.writeStream, writtenTo, Core.getS_setS, eq_comm]; split <;> rfl
theorem writeTicket_getT (k : Core) (o) (r) : (k.writeTicket o).getT r = (writtenTo o r).getD (k.getT r) := by
  rcases o with _ | ⟨q, v⟩
  · rfl
  · simp only [Core.writeTicket, writtenTo, Core.getT_setT, eq_comm]; split <;> rfl

theorem writeX_rest (k : Core) (o) : (k.writeX o) = { k with x := (k.writeX o).x } := by
  rcases o with _ | ⟨q, v⟩
  · rfl
  · simp only [Core.writeX, Core.setX]; split <;> rfl
theorem writeX_x0 (k : Core) (o) : (k.writeX o).x[0] = k.x[0] := by
  rcases o with _ | ⟨q, v⟩
  · rfl
  · simp only [Core.writeX, Core.setX]
    split
    · rfl
    · rename_i h
      have : q.toNat ≠ 0 := fun e => h (BitVec.eq_of_toNat_eq (by simpa using e))
      simp [this]
theorem writeW_rest (k : Core) (o) : (k.writeW o) = { k with w := (k.writeW o).w } := by rcases o with _ | ⟨q, v⟩ <;> rfl
theorem writeP_rest (k : Core) (o) : (k.writeP o) = { k with p := (k.writeP o).p } := by rcases o with _ | ⟨q, v⟩ <;> rfl
theorem writeE_rest (k : Core) (o) : (k.writeE o) = { k with e := (k.writeE o).e } := by rcases o with _ | ⟨q, v⟩ <;> rfl
theorem writeStream_rest (k : Core) (o) : (k.writeStream o) = { k with st := (k.writeStream o).st } := by
  rcases o with _ | ⟨q, v⟩ <;> rfl
theorem writeTicket_rest (k : Core) (o) : (k.writeTicket o) = { k with tickets := (k.writeTicket o).tickets } := by
  rcases o with _ | ⟨q, v⟩ <;> rfl
theorem writeCsr_rest (k : Core) (o) : (k.writeCsr o) =
    { k with fpctl := (k.writeCsr o).fpctl, fpflags := (k.writeCsr o).fpflags, topkK := (k.writeCsr o).topkK,
             epc := (k.writeCsr o).epc, evec := (k.writeCsr o).evec } := by
  rcases o with _ | ⟨i, v⟩
  · rfl
  · simp only [Core.writeCsr]
    repeat' split
    all_goals rfl

@[simp] theorem writeX_w (k : Core) (o) : (k.writeX o).w = k.w := by rw [writeX_rest]
@[simp] theorem writeX_p (k : Core) (o) : (k.writeX o).p = k.p := by rw [writeX_rest]
@[simp] theorem writeX_e (k : Core) (o) : (k.writeX o).e = k.e := by rw [writeX_rest]
@[simp] theorem writeX_st (k : Core) (o) : (k.writeX o).st = k.st := by rw [writeX_rest]
@[simp] theorem writeX_pc (k : Core) (o) : (k.writeX o).pc = k.pc := by rw [writeX_rest]
@[simp] theorem writeX_active (k : Core) (o) : (k.writeX o).active = k.active := by rw [writeX_rest]
@[simp] theorem writeX_firmware (k : Core) (o) : (k.writeX o).firmware = k.firmware := by rw [writeX_rest]
@[simp] theorem writeX_item (k : Core) (o) : (k.writeX o).item = k.item := by rw [writeX_rest]
@[simp] theorem writeX_itemPtr (k : Core) (o) : (k.writeX o).itemPtr = k.itemPtr := by rw [writeX_rest]
@[simp] theorem writeX_itemClass (k : Core) (o) : (k.writeX o).itemClass = k.itemClass := by rw [writeX_rest]
@[simp] theorem writeX_fpctl (k : Core) (o) : (k.writeX o).fpctl = k.fpctl := by rw [writeX_rest]
@[simp] theorem writeX_fpflags (k : Core) (o) : (k.writeX o).fpflags = k.fpflags := by rw [writeX_rest]
@[simp] theorem writeX_topkK (k : Core) (o) : (k.writeX o).topkK = k.topkK := by rw [writeX_rest]
@[simp] theorem writeX_topkst (k : Core) (o) : (k.writeX o).topkst = k.topkst := by rw [writeX_rest]
@[simp] theorem writeX_epc (k : Core) (o) : (k.writeX o).epc = k.epc := by rw [writeX_rest]
@[simp] theorem writeX_cause (k : Core) (o) : (k.writeX o).cause = k.cause := by rw [writeX_rest]
@[simp] theorem writeX_faddr (k : Core) (o) : (k.writeX o).faddr = k.faddr := by rw [writeX_rest]
@[simp] theorem writeX_evec (k : Core) (o) : (k.writeX o).evec = k.evec := by rw [writeX_rest]
@[simp] theorem writeX_cycle (k : Core) (o) : (k.writeX o).cycle = k.cycle := by rw [writeX_rest]
@[simp] theorem writeX_retired (k : Core) (o) : (k.writeX o).retired = k.retired := by rw [writeX_rest]
@[simp] theorem writeX_tickets (k : Core) (o) : (k.writeX o).tickets = k.tickets := by rw [writeX_rest]
@[simp] theorem writeX_handler (k : Core) (o) : (k.writeX o).handler = k.handler := by rw [writeX_rest]
@[simp] theorem writeX_finishing (k : Core) (o) : (k.writeX o).finishing = k.finishing := by rw [writeX_rest]
@[simp] theorem writeX_runahead (k : Core) (o) : (k.writeX o).runahead = k.runahead := by rw [writeX_rest]
@[simp] theorem writeX_preempted (k : Core) (o) : (k.writeX o).preempted = k.preempted := by rw [writeX_rest]
@[simp] theorem writeX_wordsRun (k : Core) (o) : (k.writeX o).wordsRun = k.wordsRun := by rw [writeX_rest]
@[simp] theorem writeX_lineUses (k : Core) (o) : (k.writeX o).lineUses = k.lineUses := by rw [writeX_rest]
@[simp] theorem writeX_otherUnit (k : Core) (o) : (k.writeX o).otherUnit = k.otherUnit := by rw [writeX_rest]
@[simp] theorem writeW_x (k : Core) (o) : (k.writeW o).x = k.x := by rw [writeW_rest]
@[simp] theorem writeW_p (k : Core) (o) : (k.writeW o).p = k.p := by rw [writeW_rest]
@[simp] theorem writeW_e (k : Core) (o) : (k.writeW o).e = k.e := by rw [writeW_rest]
@[simp] theorem writeW_st (k : Core) (o) : (k.writeW o).st = k.st := by rw [writeW_rest]
@[simp] theorem writeW_pc (k : Core) (o) : (k.writeW o).pc = k.pc := by rw [writeW_rest]
@[simp] theorem writeW_active (k : Core) (o) : (k.writeW o).active = k.active := by rw [writeW_rest]
@[simp] theorem writeW_firmware (k : Core) (o) : (k.writeW o).firmware = k.firmware := by rw [writeW_rest]
@[simp] theorem writeW_item (k : Core) (o) : (k.writeW o).item = k.item := by rw [writeW_rest]
@[simp] theorem writeW_itemPtr (k : Core) (o) : (k.writeW o).itemPtr = k.itemPtr := by rw [writeW_rest]
@[simp] theorem writeW_itemClass (k : Core) (o) : (k.writeW o).itemClass = k.itemClass := by rw [writeW_rest]
@[simp] theorem writeW_fpctl (k : Core) (o) : (k.writeW o).fpctl = k.fpctl := by rw [writeW_rest]
@[simp] theorem writeW_fpflags (k : Core) (o) : (k.writeW o).fpflags = k.fpflags := by rw [writeW_rest]
@[simp] theorem writeW_topkK (k : Core) (o) : (k.writeW o).topkK = k.topkK := by rw [writeW_rest]
@[simp] theorem writeW_topkst (k : Core) (o) : (k.writeW o).topkst = k.topkst := by rw [writeW_rest]
@[simp] theorem writeW_epc (k : Core) (o) : (k.writeW o).epc = k.epc := by rw [writeW_rest]
@[simp] theorem writeW_cause (k : Core) (o) : (k.writeW o).cause = k.cause := by rw [writeW_rest]
@[simp] theorem writeW_faddr (k : Core) (o) : (k.writeW o).faddr = k.faddr := by rw [writeW_rest]
@[simp] theorem writeW_evec (k : Core) (o) : (k.writeW o).evec = k.evec := by rw [writeW_rest]
@[simp] theorem writeW_cycle (k : Core) (o) : (k.writeW o).cycle = k.cycle := by rw [writeW_rest]
@[simp] theorem writeW_retired (k : Core) (o) : (k.writeW o).retired = k.retired := by rw [writeW_rest]
@[simp] theorem writeW_tickets (k : Core) (o) : (k.writeW o).tickets = k.tickets := by rw [writeW_rest]
@[simp] theorem writeW_handler (k : Core) (o) : (k.writeW o).handler = k.handler := by rw [writeW_rest]
@[simp] theorem writeW_finishing (k : Core) (o) : (k.writeW o).finishing = k.finishing := by rw [writeW_rest]
@[simp] theorem writeW_runahead (k : Core) (o) : (k.writeW o).runahead = k.runahead := by rw [writeW_rest]
@[simp] theorem writeW_preempted (k : Core) (o) : (k.writeW o).preempted = k.preempted := by rw [writeW_rest]
@[simp] theorem writeW_wordsRun (k : Core) (o) : (k.writeW o).wordsRun = k.wordsRun := by rw [writeW_rest]
@[simp] theorem writeW_lineUses (k : Core) (o) : (k.writeW o).lineUses = k.lineUses := by rw [writeW_rest]
@[simp] theorem writeW_otherUnit (k : Core) (o) : (k.writeW o).otherUnit = k.otherUnit := by rw [writeW_rest]
@[simp] theorem writeP_x (k : Core) (o) : (k.writeP o).x = k.x := by rw [writeP_rest]
@[simp] theorem writeP_w (k : Core) (o) : (k.writeP o).w = k.w := by rw [writeP_rest]
@[simp] theorem writeP_e (k : Core) (o) : (k.writeP o).e = k.e := by rw [writeP_rest]
@[simp] theorem writeP_st (k : Core) (o) : (k.writeP o).st = k.st := by rw [writeP_rest]
@[simp] theorem writeP_pc (k : Core) (o) : (k.writeP o).pc = k.pc := by rw [writeP_rest]
@[simp] theorem writeP_active (k : Core) (o) : (k.writeP o).active = k.active := by rw [writeP_rest]
@[simp] theorem writeP_firmware (k : Core) (o) : (k.writeP o).firmware = k.firmware := by rw [writeP_rest]
@[simp] theorem writeP_item (k : Core) (o) : (k.writeP o).item = k.item := by rw [writeP_rest]
@[simp] theorem writeP_itemPtr (k : Core) (o) : (k.writeP o).itemPtr = k.itemPtr := by rw [writeP_rest]
@[simp] theorem writeP_itemClass (k : Core) (o) : (k.writeP o).itemClass = k.itemClass := by rw [writeP_rest]
@[simp] theorem writeP_fpctl (k : Core) (o) : (k.writeP o).fpctl = k.fpctl := by rw [writeP_rest]
@[simp] theorem writeP_fpflags (k : Core) (o) : (k.writeP o).fpflags = k.fpflags := by rw [writeP_rest]
@[simp] theorem writeP_topkK (k : Core) (o) : (k.writeP o).topkK = k.topkK := by rw [writeP_rest]
@[simp] theorem writeP_topkst (k : Core) (o) : (k.writeP o).topkst = k.topkst := by rw [writeP_rest]
@[simp] theorem writeP_epc (k : Core) (o) : (k.writeP o).epc = k.epc := by rw [writeP_rest]
@[simp] theorem writeP_cause (k : Core) (o) : (k.writeP o).cause = k.cause := by rw [writeP_rest]
@[simp] theorem writeP_faddr (k : Core) (o) : (k.writeP o).faddr = k.faddr := by rw [writeP_rest]
@[simp] theorem writeP_evec (k : Core) (o) : (k.writeP o).evec = k.evec := by rw [writeP_rest]
@[simp] theorem writeP_cycle (k : Core) (o) : (k.writeP o).cycle = k.cycle := by rw [writeP_rest]
@[simp] theorem writeP_retired (k : Core) (o) : (k.writeP o).retired = k.retired := by rw [writeP_rest]
@[simp] theorem writeP_tickets (k : Core) (o) : (k.writeP o).tickets = k.tickets := by rw [writeP_rest]
@[simp] theorem writeP_handler (k : Core) (o) : (k.writeP o).handler = k.handler := by rw [writeP_rest]
@[simp] theorem writeP_finishing (k : Core) (o) : (k.writeP o).finishing = k.finishing := by rw [writeP_rest]
@[simp] theorem writeP_runahead (k : Core) (o) : (k.writeP o).runahead = k.runahead := by rw [writeP_rest]
@[simp] theorem writeP_preempted (k : Core) (o) : (k.writeP o).preempted = k.preempted := by rw [writeP_rest]
@[simp] theorem writeP_wordsRun (k : Core) (o) : (k.writeP o).wordsRun = k.wordsRun := by rw [writeP_rest]
@[simp] theorem writeP_lineUses (k : Core) (o) : (k.writeP o).lineUses = k.lineUses := by rw [writeP_rest]
@[simp] theorem writeP_otherUnit (k : Core) (o) : (k.writeP o).otherUnit = k.otherUnit := by rw [writeP_rest]
@[simp] theorem writeE_x (k : Core) (o) : (k.writeE o).x = k.x := by rw [writeE_rest]
@[simp] theorem writeE_w (k : Core) (o) : (k.writeE o).w = k.w := by rw [writeE_rest]
@[simp] theorem writeE_p (k : Core) (o) : (k.writeE o).p = k.p := by rw [writeE_rest]
@[simp] theorem writeE_st (k : Core) (o) : (k.writeE o).st = k.st := by rw [writeE_rest]
@[simp] theorem writeE_pc (k : Core) (o) : (k.writeE o).pc = k.pc := by rw [writeE_rest]
@[simp] theorem writeE_active (k : Core) (o) : (k.writeE o).active = k.active := by rw [writeE_rest]
@[simp] theorem writeE_firmware (k : Core) (o) : (k.writeE o).firmware = k.firmware := by rw [writeE_rest]
@[simp] theorem writeE_item (k : Core) (o) : (k.writeE o).item = k.item := by rw [writeE_rest]
@[simp] theorem writeE_itemPtr (k : Core) (o) : (k.writeE o).itemPtr = k.itemPtr := by rw [writeE_rest]
@[simp] theorem writeE_itemClass (k : Core) (o) : (k.writeE o).itemClass = k.itemClass := by rw [writeE_rest]
@[simp] theorem writeE_fpctl (k : Core) (o) : (k.writeE o).fpctl = k.fpctl := by rw [writeE_rest]
@[simp] theorem writeE_fpflags (k : Core) (o) : (k.writeE o).fpflags = k.fpflags := by rw [writeE_rest]
@[simp] theorem writeE_topkK (k : Core) (o) : (k.writeE o).topkK = k.topkK := by rw [writeE_rest]
@[simp] theorem writeE_topkst (k : Core) (o) : (k.writeE o).topkst = k.topkst := by rw [writeE_rest]
@[simp] theorem writeE_epc (k : Core) (o) : (k.writeE o).epc = k.epc := by rw [writeE_rest]
@[simp] theorem writeE_cause (k : Core) (o) : (k.writeE o).cause = k.cause := by rw [writeE_rest]
@[simp] theorem writeE_faddr (k : Core) (o) : (k.writeE o).faddr = k.faddr := by rw [writeE_rest]
@[simp] theorem writeE_evec (k : Core) (o) : (k.writeE o).evec = k.evec := by rw [writeE_rest]
@[simp] theorem writeE_cycle (k : Core) (o) : (k.writeE o).cycle = k.cycle := by rw [writeE_rest]
@[simp] theorem writeE_retired (k : Core) (o) : (k.writeE o).retired = k.retired := by rw [writeE_rest]
@[simp] theorem writeE_tickets (k : Core) (o) : (k.writeE o).tickets = k.tickets := by rw [writeE_rest]
@[simp] theorem writeE_handler (k : Core) (o) : (k.writeE o).handler = k.handler := by rw [writeE_rest]
@[simp] theorem writeE_finishing (k : Core) (o) : (k.writeE o).finishing = k.finishing := by rw [writeE_rest]
@[simp] theorem writeE_runahead (k : Core) (o) : (k.writeE o).runahead = k.runahead := by rw [writeE_rest]
@[simp] theorem writeE_preempted (k : Core) (o) : (k.writeE o).preempted = k.preempted := by rw [writeE_rest]
@[simp] theorem writeE_wordsRun (k : Core) (o) : (k.writeE o).wordsRun = k.wordsRun := by rw [writeE_rest]
@[simp] theorem writeE_lineUses (k : Core) (o) : (k.writeE o).lineUses = k.lineUses := by rw [writeE_rest]
@[simp] theorem writeE_otherUnit (k : Core) (o) : (k.writeE o).otherUnit = k.otherUnit := by rw [writeE_rest]
@[simp] theorem writeCsr_x (k : Core) (o) : (k.writeCsr o).x = k.x := by rw [writeCsr_rest]
@[simp] theorem writeCsr_w (k : Core) (o) : (k.writeCsr o).w = k.w := by rw [writeCsr_rest]
@[simp] theorem writeCsr_p (k : Core) (o) : (k.writeCsr o).p = k.p := by rw [writeCsr_rest]
@[simp] theorem writeCsr_e (k : Core) (o) : (k.writeCsr o).e = k.e := by rw [writeCsr_rest]
@[simp] theorem writeCsr_st (k : Core) (o) : (k.writeCsr o).st = k.st := by rw [writeCsr_rest]
@[simp] theorem writeCsr_pc (k : Core) (o) : (k.writeCsr o).pc = k.pc := by rw [writeCsr_rest]
@[simp] theorem writeCsr_active (k : Core) (o) : (k.writeCsr o).active = k.active := by rw [writeCsr_rest]
@[simp] theorem writeCsr_firmware (k : Core) (o) : (k.writeCsr o).firmware = k.firmware := by rw [writeCsr_rest]
@[simp] theorem writeCsr_item (k : Core) (o) : (k.writeCsr o).item = k.item := by rw [writeCsr_rest]
@[simp] theorem writeCsr_itemPtr (k : Core) (o) : (k.writeCsr o).itemPtr = k.itemPtr := by rw [writeCsr_rest]
@[simp] theorem writeCsr_itemClass (k : Core) (o) : (k.writeCsr o).itemClass = k.itemClass := by rw [writeCsr_rest]
@[simp] theorem writeCsr_topkst (k : Core) (o) : (k.writeCsr o).topkst = k.topkst := by rw [writeCsr_rest]
@[simp] theorem writeCsr_cause (k : Core) (o) : (k.writeCsr o).cause = k.cause := by rw [writeCsr_rest]
@[simp] theorem writeCsr_faddr (k : Core) (o) : (k.writeCsr o).faddr = k.faddr := by rw [writeCsr_rest]
@[simp] theorem writeCsr_cycle (k : Core) (o) : (k.writeCsr o).cycle = k.cycle := by rw [writeCsr_rest]
@[simp] theorem writeCsr_retired (k : Core) (o) : (k.writeCsr o).retired = k.retired := by rw [writeCsr_rest]
@[simp] theorem writeCsr_tickets (k : Core) (o) : (k.writeCsr o).tickets = k.tickets := by rw [writeCsr_rest]
@[simp] theorem writeCsr_handler (k : Core) (o) : (k.writeCsr o).handler = k.handler := by rw [writeCsr_rest]
@[simp] theorem writeCsr_finishing (k : Core) (o) : (k.writeCsr o).finishing = k.finishing := by rw [writeCsr_rest]
@[simp] theorem writeCsr_runahead (k : Core) (o) : (k.writeCsr o).runahead = k.runahead := by rw [writeCsr_rest]
@[simp] theorem writeCsr_preempted (k : Core) (o) : (k.writeCsr o).preempted = k.preempted := by rw [writeCsr_rest]
@[simp] theorem writeCsr_wordsRun (k : Core) (o) : (k.writeCsr o).wordsRun = k.wordsRun := by rw [writeCsr_rest]
@[simp] theorem writeCsr_lineUses (k : Core) (o) : (k.writeCsr o).lineUses = k.lineUses := by rw [writeCsr_rest]
@[simp] theorem writeCsr_otherUnit (k : Core) (o) : (k.writeCsr o).otherUnit = k.otherUnit := by rw [writeCsr_rest]
@[simp] theorem writeStream_x (k : Core) (o) : (k.writeStream o).x = k.x := by rw [writeStream_rest]
@[simp] theorem writeStream_w (k : Core) (o) : (k.writeStream o).w = k.w := by rw [writeStream_rest]
@[simp] theorem writeStream_p (k : Core) (o) : (k.writeStream o).p = k.p := by rw [writeStream_rest]
@[simp] theorem writeStream_e (k : Core) (o) : (k.writeStream o).e = k.e := by rw [writeStream_rest]
@[simp] theorem writeStream_pc (k : Core) (o) : (k.writeStream o).pc = k.pc := by rw [writeStream_rest]
@[simp] theorem writeStream_active (k : Core) (o) : (k.writeStream o).active = k.active := by rw [writeStream_rest]
@[simp] theorem writeStream_firmware (k : Core) (o) : (k.writeStream o).firmware = k.firmware := by rw [writeStream_rest]
@[simp] theorem writeStream_item (k : Core) (o) : (k.writeStream o).item = k.item := by rw [writeStream_rest]
@[simp] theorem writeStream_itemPtr (k : Core) (o) : (k.writeStream o).itemPtr = k.itemPtr := by rw [writeStream_rest]
@[simp] theorem writeStream_itemClass (k : Core) (o) : (k.writeStream o).itemClass = k.itemClass := by rw [writeStream_rest]
@[simp] theorem writeStream_fpctl (k : Core) (o) : (k.writeStream o).fpctl = k.fpctl := by rw [writeStream_rest]
@[simp] theorem writeStream_fpflags (k : Core) (o) : (k.writeStream o).fpflags = k.fpflags := by rw [writeStream_rest]
@[simp] theorem writeStream_topkK (k : Core) (o) : (k.writeStream o).topkK = k.topkK := by rw [writeStream_rest]
@[simp] theorem writeStream_topkst (k : Core) (o) : (k.writeStream o).topkst = k.topkst := by rw [writeStream_rest]
@[simp] theorem writeStream_epc (k : Core) (o) : (k.writeStream o).epc = k.epc := by rw [writeStream_rest]
@[simp] theorem writeStream_cause (k : Core) (o) : (k.writeStream o).cause = k.cause := by rw [writeStream_rest]
@[simp] theorem writeStream_faddr (k : Core) (o) : (k.writeStream o).faddr = k.faddr := by rw [writeStream_rest]
@[simp] theorem writeStream_evec (k : Core) (o) : (k.writeStream o).evec = k.evec := by rw [writeStream_rest]
@[simp] theorem writeStream_cycle (k : Core) (o) : (k.writeStream o).cycle = k.cycle := by rw [writeStream_rest]
@[simp] theorem writeStream_retired (k : Core) (o) : (k.writeStream o).retired = k.retired := by rw [writeStream_rest]
@[simp] theorem writeStream_tickets (k : Core) (o) : (k.writeStream o).tickets = k.tickets := by rw [writeStream_rest]
@[simp] theorem writeStream_handler (k : Core) (o) : (k.writeStream o).handler = k.handler := by rw [writeStream_rest]
@[simp] theorem writeStream_finishing (k : Core) (o) : (k.writeStream o).finishing = k.finishing := by rw [writeStream_rest]
@[simp] theorem writeStream_runahead (k : Core) (o) : (k.writeStream o).runahead = k.runahead := by rw [writeStream_rest]
@[simp] theorem writeStream_preempted (k : Core) (o) : (k.writeStream o).preempted = k.preempted := by rw [writeStream_rest]
@[simp] theorem writeStream_wordsRun (k : Core) (o) : (k.writeStream o).wordsRun = k.wordsRun := by rw [writeStream_rest]
@[simp] theorem writeStream_lineUses (k : Core) (o) : (k.writeStream o).lineUses = k.lineUses := by rw [writeStream_rest]
@[simp] theorem writeStream_otherUnit (k : Core) (o) : (k.writeStream o).otherUnit = k.otherUnit := by rw [writeStream_rest]
@[simp] theorem writeTicket_x (k : Core) (o) : (k.writeTicket o).x = k.x := by rw [writeTicket_rest]
@[simp] theorem writeTicket_w (k : Core) (o) : (k.writeTicket o).w = k.w := by rw [writeTicket_rest]
@[simp] theorem writeTicket_p (k : Core) (o) : (k.writeTicket o).p = k.p := by rw [writeTicket_rest]
@[simp] theorem writeTicket_e (k : Core) (o) : (k.writeTicket o).e = k.e := by rw [writeTicket_rest]
@[simp] theorem writeTicket_st (k : Core) (o) : (k.writeTicket o).st = k.st := by rw [writeTicket_rest]
@[simp] theorem writeTicket_pc (k : Core) (o) : (k.writeTicket o).pc = k.pc := by rw [writeTicket_rest]
@[simp] theorem writeTicket_active (k : Core) (o) : (k.writeTicket o).active = k.active := by rw [writeTicket_rest]
@[simp] theorem writeTicket_firmware (k : Core) (o) : (k.writeTicket o).firmware = k.firmware := by rw [writeTicket_rest]
@[simp] theorem writeTicket_item (k : Core) (o) : (k.writeTicket o).item = k.item := by rw [writeTicket_rest]
@[simp] theorem writeTicket_itemPtr (k : Core) (o) : (k.writeTicket o).itemPtr = k.itemPtr := by rw [writeTicket_rest]
@[simp] theorem writeTicket_itemClass (k : Core) (o) : (k.writeTicket o).itemClass = k.itemClass := by rw [writeTicket_rest]
@[simp] theorem writeTicket_fpctl (k : Core) (o) : (k.writeTicket o).fpctl = k.fpctl := by rw [writeTicket_rest]
@[simp] theorem writeTicket_fpflags (k : Core) (o) : (k.writeTicket o).fpflags = k.fpflags := by rw [writeTicket_rest]
@[simp] theorem writeTicket_topkK (k : Core) (o) : (k.writeTicket o).topkK = k.topkK := by rw [writeTicket_rest]
@[simp] theorem writeTicket_topkst (k : Core) (o) : (k.writeTicket o).topkst = k.topkst := by rw [writeTicket_rest]
@[simp] theorem writeTicket_epc (k : Core) (o) : (k.writeTicket o).epc = k.epc := by rw [writeTicket_rest]
@[simp] theorem writeTicket_cause (k : Core) (o) : (k.writeTicket o).cause = k.cause := by rw [writeTicket_rest]
@[simp] theorem writeTicket_faddr (k : Core) (o) : (k.writeTicket o).faddr = k.faddr := by rw [writeTicket_rest]
@[simp] theorem writeTicket_evec (k : Core) (o) : (k.writeTicket o).evec = k.evec := by rw [writeTicket_rest]
@[simp] theorem writeTicket_cycle (k : Core) (o) : (k.writeTicket o).cycle = k.cycle := by rw [writeTicket_rest]
@[simp] theorem writeTicket_retired (k : Core) (o) : (k.writeTicket o).retired = k.retired := by rw [writeTicket_rest]
@[simp] theorem writeTicket_handler (k : Core) (o) : (k.writeTicket o).handler = k.handler := by rw [writeTicket_rest]
@[simp] theorem writeTicket_finishing (k : Core) (o) : (k.writeTicket o).finishing = k.finishing := by rw [writeTicket_rest]
@[simp] theorem writeTicket_runahead (k : Core) (o) : (k.writeTicket o).runahead = k.runahead := by rw [writeTicket_rest]
@[simp] theorem writeTicket_preempted (k : Core) (o) : (k.writeTicket o).preempted = k.preempted := by rw [writeTicket_rest]
@[simp] theorem writeTicket_wordsRun (k : Core) (o) : (k.writeTicket o).wordsRun = k.wordsRun := by rw [writeTicket_rest]
@[simp] theorem writeTicket_lineUses (k : Core) (o) : (k.writeTicket o).lineUses = k.lineUses := by rw [writeTicket_rest]
@[simp] theorem writeTicket_otherUnit (k : Core) (o) : (k.writeTicket o).otherUnit = k.otherUnit := by rw [writeTicket_rest]

theorem writeCsr_fpctl (k : Core) (o) : (k.writeCsr o).fpctl = ((writtenTo o 0x008).map (·.setWidth 2)).getD k.fpctl := by
  rcases o with _ | ⟨i, v⟩
  · rfl
  · simp only [Core.writeCsr, writtenTo]
    repeat' split
    all_goals rfl
theorem writeCsr_fpflags (k : Core) (o) :
    (k.writeCsr o).fpflags = ((writtenTo o 0x009).map (·.setWidth 5)).getD k.fpflags := by
  rcases o with _ | ⟨i, v⟩
  · rfl
  · simp only [Core.writeCsr, writtenTo]
    repeat' split
    all_goals first | rfl | simp_all
theorem writeCsr_topkK (k : Core) (o) : (k.writeCsr o).topkK = ((writtenTo o 0x00A).map (·.setWidth 7)).getD k.topkK := by
  rcases o with _ | ⟨i, v⟩
  · rfl
  · simp only [Core.writeCsr, writtenTo]
    repeat' split
    all_goals first | rfl | simp_all
theorem writeCsr_epc (k : Core) (o) : (k.writeCsr o).epc = (writtenTo o 0x010).getD k.epc := by
  rcases o with _ | ⟨i, v⟩
  · rfl
  · simp only [Core.writeCsr, writtenTo]
    repeat' split
    all_goals first | rfl | simp_all
theorem writeCsr_evec (k : Core) (o) :
    (k.writeCsr o).evec = ((writtenTo o 0x013).map (· &&& ~~~15#64)).getD k.evec := by
  rcases o with _ | ⟨i, v⟩
  · rfl
  · simp only [Core.writeCsr, writtenTo]
    repeat' split
    all_goals first | rfl | simp_all

/-- What one slot's effect leaves in the core. -/
structure WrittenBy (k k' : Core) (y : Effect) : Prop where
  x0      : k'.x[0] = k.x[0]
  x       : ∀ r, r ≠ 0 → k'.getX r = (writtenTo y.x r).getD (k.getX r)
  w       : ∀ r, k'.getW r = (writtenTo y.w r).getD (k.getW r)
  p       : ∀ r, k'.getP r = (writtenTo y.p r).getD (k.getP r)
  e       : ∀ r, k'.getE r = (writtenTo y.e r).getD (k.getE r)
  streams : ∀ n, k'.getS n = (writtenTo y.stream n).getD (k.getS n)
  tickets : ∀ n, k'.getT n = (writtenTo y.ticket n).getD (k.getT n)
  topkst  : k'.topkst = y.topkst.getD k.topkst
  fpctl   : k'.fpctl = ((writtenTo y.csr 0x008).map (·.setWidth 2)).getD k.fpctl
  fpflags : k'.fpflags = ((writtenTo y.csr 0x009).map (·.setWidth 5)).getD k.fpflags
  topkK   : k'.topkK = ((writtenTo y.csr 0x00A).map (·.setWidth 7)).getD k.topkK
  epc     : k'.epc = (writtenTo y.csr 0x010).getD k.epc
  evec    : k'.evec = ((writtenTo y.csr 0x013).map (· &&& ~~~15#64)).getD k.evec
  handler : k'.handler = (k.handler && !y.eret)
  rest    : k'.cause = k.cause ∧ k'.faddr = k.faddr ∧ k'.active = k.active ∧ k'.firmware = k.firmware ∧
              k'.item = k.item ∧ k'.itemPtr = k.itemPtr ∧ k'.itemClass = k.itemClass ∧ k'.preempted = k.preempted ∧
              k'.finishing = k.finishing ∧ k'.runahead = k.runahead

theorem write_writtenBy (k : Core) (y : Effect) : WrittenBy k (k.write y) y := by
  constructor
  · simp only [Core.write, writeTicket_x, writeStream_x, writeCsr_x, writeE_x, writeP_x, writeW_x]
    exact writeX_x0 k y.x
  · intro r hr
    rw [← writeX_getX k y.x r hr]
    simp [Core.write, Core.getX]
  · intro r
    rw [show k.getW r = (k.writeX y.x).getW r by simp [Core.getW], ← writeW_getW]
    simp [Core.write, Core.getW]
  · intro r
    rw [show k.getP r = ((k.writeX y.x).writeW y.w).getP r by simp [Core.getP], ← writeP_getP]
    simp [Core.write, Core.getP]
  · intro r
    rw [show k.getE r = (((k.writeX y.x).writeW y.w).writeP y.p).getE r by simp [Core.getE], ← writeE_getE]
    simp [Core.write, Core.getE]
  · intro n
    rw [show k.getS n = (((((k.writeX y.x).writeW y.w).writeP y.p).writeE y.e).writeCsr y.csr).getS n by
      simp [Core.getS], ← writeStream_getS]
    simp [Core.write, Core.getS]
  · intro n
    rw [show k.getT n = ((((((k.writeX y.x).writeW y.w).writeP y.p).writeE y.e).writeCsr y.csr).writeStream y.stream).getT n by
      simp [Core.getT], ← writeTicket_getT]
    simp [Core.write, Core.getT]
  · simp [Core.write]
  · simp [Core.write, writeCsr_fpctl]
  · simp [Core.write, writeCsr_fpflags]
  · simp [Core.write, writeCsr_topkK]
  · simp [Core.write, writeCsr_epc]
  · simp [Core.write, writeCsr_evec]
  · simp [Core.write]
  · simp [Core.write]

end Sys2Proof.Machine
end

