-- ==== Sys2Proof/Laws/Memory.lean ====
section
/-! SUPPORT. Memory: every operation keeps the canonical form; a read after a write gives the byte written and every
other byte as before, at the memory side and through a Vat's caches. -/

namespace Sys2Proof.Machine

open Sys2Proof

/-! ### The canonical form is kept -/

theorem Memory.wf_setByte {m : Memory} (h : m.wf = true) (a b) : (m.setByte a b).wf = true := Assoc.wf_set h a b

theorem Memory.wf_write {m : Memory} (h : m.wf = true) (a : Nat) (b : Bytes) : (m.write a b).wf = true := by
  induction b generalizing m a with
  | nil => exact h
  | cons x b ih => exact ih (Memory.wf_setByte h a x) (a + 1)

theorem Memory.wf_of_bytes {m n : Memory} (h : m.wf = true) (e : n.bytes = m.bytes) : n.wf = true := by
  unfold Memory.wf at *; rw [e]; exact h

theorem memWrite_wf {s : State} (h : s.mem.wf = true) (a b) : (s.memWrite a b).mem.wf = true := Memory.wf_write h a b
theorem putLine_wf {s : State} (h : s.mem.wf = true) (v n d x) : (s.putLine v n d x).mem.wf = true := h
theorem touchLine_wf {s : State} (h : s.mem.wf = true) (v n) : (s.touchLine v n).mem.wf = true := h
theorem storeByte_wf {s : State} (h : s.mem.wf = true) (v a b) : (s.storeByte v a b).mem.wf = true := h
theorem setBit_wf {s : State} (h : s.mem.wf = true) (v a i b) : (s.setBit v a i b).mem.wf = true := h

theorem touchLines_bytes (s : State) (v n k) : (s.touchLines v n k).mem.bytes = s.mem.bytes := by
  induction k generalizing s n with
  | zero => rfl
  | succ k ih => exact ih _ _

theorem touch_bytes (s : State) (v a n) : (s.touch v a n).mem.bytes = s.mem.bytes := touchLines_bytes ..

theorem store_bytes (s : State) (v a) (b : Bytes) : (s.store v a b).mem.bytes = s.mem.bytes := by
  induction b generalizing s a with
  | nil => rfl
  | cons x b ih => exact ih _ _

theorem storeCells_bytes (s : State) (v) (cs : List (Nat × BitVec 8)) : (s.storeCells v cs).mem.bytes = s.mem.bytes := by
  induction cs generalizing s with
  | nil => rfl
  | cons x cs ih => obtain ⟨a, x⟩ := x; exact ih _

theorem touch_wf {s : State} (h : s.mem.wf = true) (v a n) : (s.touch v a n).mem.wf = true :=
  Memory.wf_of_bytes h (touch_bytes s v a n)
theorem store_wf {s : State} (h : s.mem.wf = true) (v a b) : (s.store v a b).mem.wf = true :=
  Memory.wf_of_bytes h (store_bytes s v a b)
theorem storeCells_wf {s : State} (h : s.mem.wf = true) (v cs) : (s.storeCells v cs).mem.wf = true :=
  Memory.wf_of_bytes h (storeCells_bytes s v cs)

theorem flushLine_wf {s : State} (h : s.mem.wf = true) (v n) : (s.flushLine v n).mem.wf = true := by
  unfold State.flushLine
  split
  · split
    · show Memory.wf (ite _ _ _ : State).mem = true
      split
      · exact memWrite_wf h _ _
      · exact memWrite_wf h _ _
    · exact h
  · exact h

theorem invalLine_wf {s : State} (h : s.mem.wf = true) (v n) : (s.invalLine v n).mem.wf = true :=
  Memory.wf_of_bytes (flushLine_wf h v n) rfl

/-- A fold of steps that keep the form keeps it. -/
theorem foldl_wf {β : Type} (f : State → β → State) (hf : ∀ s b, s.mem.wf = true → (f s b).mem.wf = true) (l : List β)
    {s : State} (h : s.mem.wf = true) : (l.foldl f s).mem.wf = true := by
  induction l generalizing s with
  | nil => exact h
  | cons b l ih => exact ih (hf s b h)

theorem flushRange_wf {s : State} (h : s.mem.wf = true) (v a n) : (s.flushRange v a n).mem.wf = true :=
  foldl_wf _ (fun _ b h => flushLine_wf h v b) _ h
theorem invalRange_wf {s : State} (h : s.mem.wf = true) (v a n) : (s.invalRange v a n).mem.wf = true :=
  foldl_wf _ (fun _ b h => invalLine_wf h v b) _ h
theorem invalVat_wf {s : State} (h : s.mem.wf = true) (v) : (s.invalVat v).mem.wf = true :=
  foldl_wf _ (fun _ b h => invalLine_wf h v b) _ h

theorem clearRange_wf {s : State} (h : s.mem.wf = true) (a n) : (s.clearRange a n).mem.wf = true := by
  unfold Memory.wf Assoc.wf at *
  exact Assoc.wf_filter _ h

theorem portCreate_wf {s : State} (h : s.mem.wf = true) (v n) : (s.portCreate v n).mem.wf = true := by
  unfold State.portCreate
  lift_lets
  intro w job index dst code s'
  split
  · exact store_wf (s := s') h _ _ _
  · exact h

theorem portCtrl_wf {s : State} (h : s.mem.wf = true) (v n x) : (s.portCtrl v n x).mem.wf = true := by
  unfold State.portCtrl
  split
  · exact h
  · show Memory.wf (if x = 1 then State.portCreate (s.setPort n _) v n else s.setPort n _).mem = true
    split
    · exact portCreate_wf (by exact h) _ _
    · exact h

theorem portStore_wf {s : State} (h : s.mem.wf = true) (v n cs) : (s.portStore v n cs).mem.wf = true := by
  unfold State.portStore
  lift_lets
  intro w img s'
  split
  · exact h
  · split
    · exact portCtrl_wf (s := s') h _ _ _
    · exact h

/-- Every action of a slot keeps the form. -/
theorem act_wf {s : State} (h : s.mem.wf = true) (c : CoreId) (a : Act) : (s.act c a).mem.wf = true := by
  cases a with
  | touch ls => exact foldl_wf _ (fun _ b h => touchLine_wf h c.vat b) ls h
  | cells cs => exact storeCells_wf h c.vat cs
  | bits bs => exact foldl_wf (fun s b => s.setBit c.vat b.1 b.2.1 b.2.2) (fun _ b h => setBit_wf h c.vat b.1 b.2.1 b.2.2) bs h
  | atomic a b => exact memWrite_wf (invalLine_wf h c.vat (a / 64)) a b
  | flush a n => exact flushRange_wf h c.vat a n
  | inval a n => exact invalRange_wf h c.vat a n
  | port n v cs => exact portStore_wf h v n cs
  | submit u => exact h

theorem acts_wf (c : CoreId) (l : List Act) {s : State} (h : s.mem.wf = true) :
    (l.foldl (fun s a => s.act c a) s).mem.wf = true :=
  foldl_wf _ (fun _ a h => act_wf h c a) l h

/-- Memory right after reset is in its canonical form. -/
theorem reset_wf : State.reset.mem.wf = true := by decide

/-! ### The memory side -/

/-- A byte reads as written, and every other byte as before. -/
theorem Memory.byte_setByte (m : Memory) (a q : Nat) (b : BitVec 8) :
    (m.setByte a b).byte q = if q = a then b else m.byte q := by
  unfold Memory.byte Memory.setByte
  rw [Assoc.get_set]

theorem Memory.byte_write (m : Memory) (a q : Nat) (b : Bytes) :
    (m.write a b).byte q = if a ≤ q then (b[q - a]?).getD (m.byte q) else m.byte q := by
  induction b generalizing m a with
  | nil => simp [Memory.write]
  | cons x b ih =>
    rw [Memory.write, ih, Memory.byte_setByte]
    by_cases h : a + 1 ≤ q
    · have : q - a = q - (a + 1) + 1 := by omega
      rw [if_pos h, if_neg (by omega : ¬ q = a), if_pos (by omega : a ≤ q), this, List.getElem?_cons_succ]
    · rw [if_neg h]
      by_cases e : q = a
      · subst e; simp
      · rw [if_neg e, if_neg (by omega)]

/-- Reading a range right after writing it gives the bytes written. -/
theorem Memory.read_write (m : Memory) (a : Nat) (b : Bytes) : (m.write a b).read a b.length = b := by
  have key : ∀ (k n : Nat), k + n = b.length → Memory.read (m.write a b) (a + k) n = b.drop k := by
    intro k n
    induction n generalizing k with
    | zero => intro h; rw [List.drop_eq_nil_of_le (by omega)]; rfl
    | succ n ih =>
      intro h
      have hk : k < b.length := by omega
      rw [Memory.read, Memory.byte_write, if_pos (by omega), Nat.add_sub_cancel_left, List.getElem?_eq_getElem hk,
        Nat.add_assoc, ih (k + 1) (by omega), List.drop_eq_getElem_cons hk]
      rfl
  simpa using key 0 b.length (by omega)

/-- A write at the memory side leaves every Vat's copies alone. -/
theorem Memory.write_l2 (m : Memory) (a : Nat) (b : Bytes) : m.write a b = { m with bytes := (m.write a b).bytes } := by
  induction b generalizing m a with
  | nil => rfl
  | cons x b ih => rw [Memory.write, ih]; rfl

/-! ### Lines and their bytes -/

theorem leBytes_length (n v : Nat) : (leBytes n v).length = n := by
  induction n generalizing v with
  | zero => rfl
  | succ n ih => rw [leBytes, List.length_cons, ih]

theorem leBytes_getElem? (n v i : Nat) (h : i < n) : (leBytes n v)[i]? = some (BitVec.ofNat 8 (v / 256 ^ i)) := by
  induction n generalizing v i with
  | zero => omega
  | succ n ih =>
    cases i with
    | zero => simp [leBytes]
    | succ i => rw [leBytes, List.getElem?_cons_succ, ih _ _ (by omega), Nat.div_div_eq_div_mul, Nat.pow_succ, Nat.mul_comm]

theorem leVal_lt (b : Bytes) : leVal b < 256 ^ b.length := by
  induction b with
  | nil => simp [leVal]
  | cons x b ih =>
    have := x.isLt
    rw [leVal, List.length_cons, Nat.pow_succ]
    omega

theorem leVal_div (b : Bytes) (i : Nat) : BitVec.ofNat 8 (leVal b / 256 ^ i) = (b[i]?).getD 0 := by
  induction b generalizing i with
  | nil => simp [leVal]
  | cons x b ih =>
    cases i with
    | zero =>
      apply BitVec.eq_of_toNat_eq
      have := x.isLt
      simp [leVal]
      omega
    | succ i =>
      rw [List.getElem?_cons_succ, ← ih i, Nat.pow_succ, Nat.mul_comm, ← Nat.div_div_eq_div_mul, leVal]
      have := x.isLt
      congr 2
      omega

/-- Byte `i` of a line built from 64 bytes. -/
theorem bytesToLine_byte (b : Bytes) (i : Nat) (h : i < 64) :
    (bytesToLine b).extractLsb' (8 * i) 8 = (b[i]?).getD 0 := by
  rw [← leVal_div]
  apply BitVec.eq_of_toNat_eq
  have e : (256 : Nat) ^ i = 2 ^ (8 * i) := by rw [Nat.pow_mul]
  simp only [bytesToLine, BitVec.extractLsb'_toNat, BitVec.toNat_ofNat, e, Nat.shiftRight_eq_div_pow]
  obtain ⟨k, hk⟩ : ∃ k, 512 = 8 * i + (8 + k) := ⟨512 - 8 * i - 8, by omega⟩
  rw [hk, Nat.pow_add, Nat.mod_mul_right_div_self, Nat.pow_add, Nat.mod_mul_right_mod]

theorem lineToBytes_length (l : BitVec 512) : (lineToBytes l).length = 64 := leBytes_length ..

theorem lineToBytes_byte (l : BitVec 512) (i : Nat) (h : i < 64) :
    (lineToBytes l)[i]? = some (l.extractLsb' (8 * i) 8) := by
  rw [lineToBytes, leBytes_getElem? _ _ _ h]
  congr 1
  apply BitVec.eq_of_toNat_eq
  have e : (256 : Nat) ^ i = 2 ^ (8 * i) := by rw [Nat.pow_mul]
  simp [e, Nat.shiftRight_eq_div_pow]

/-- A line with one byte replaced holds it there and its other bytes elsewhere. -/
theorem setLineByte_byte (l : BitVec 512) (i j : Nat) (b : BitVec 8) (hi : i < 64) (hj : j < 64) :
    (setLineByte l i b).extractLsb' (8 * j) 8 = if j = i then b else l.extractLsb' (8 * j) 8 := by
  rw [setLineByte, bytesToLine_byte _ _ hj, putAt]
  have hl := lineToBytes_length l
  have ht : (List.take i (lineToBytes l)).length = i := by rw [List.length_take]; omega
  rcases Nat.lt_trichotomy j i with h | h | h
  · rw [List.append_assoc, List.getElem?_append_left (by omega), List.getElem?_take_of_lt h, lineToBytes_byte _ _ hj,
      if_neg (by omega)]
    rfl
  · subst h
    rw [List.append_assoc, List.getElem?_append_right (by omega), ht, Nat.sub_self, if_pos rfl]
    rfl
  · rw [List.getElem?_append_right (by rw [List.length_append, ht, List.length_singleton]; omega), List.length_append, ht,
      List.length_singleton, List.getElem?_drop]
    have : i + 1 + (j - (i + 1)) = j := by omega
    rw [this, lineToBytes_byte _ _ hj, if_neg (by omega)]
    rfl

/-! ### What a Vat's cores see -/

theorem l2Find_drop (ls : List L2Line) (v w : BitVec 6) (n k : Nat) :
    l2Find (l2Drop ls v n) w k = if w = v ∧ k = n then none else l2Find ls w k := by
  induction ls with
  | nil => simp [l2Find, l2Drop]
  | cons l ls ih =>
    unfold l2Find l2Drop at *
    by_cases h : l.vat = v ∧ l.line = n
    · rw [List.filter_cons_of_neg (by simpa using h), ih]
      obtain ⟨rfl, rfl⟩ := h
      by_cases g : w = l.vat ∧ k = l.line
      · rw [if_pos g, if_pos g]
      · rw [if_neg g, if_neg g, List.find?_cons_of_neg]
        simp only [Bool.and_eq_true, decide_eq_true_eq]
        exact fun e => g ⟨e.1.symm, e.2.symm⟩
    · rw [List.filter_cons_of_pos (by simpa using not_and_or.mp h)]
      by_cases g : l.vat = w ∧ l.line = k
      · rw [List.find?_cons_of_pos (by simpa using g), List.find?_cons_of_pos (by simpa using g),
          if_neg (fun e => h ⟨g.1.trans e.1, g.2.trans e.2⟩)]
      · rw [List.find?_cons_of_neg (by simpa using g), List.find?_cons_of_neg (by simpa using g), ih]

/-- A copy put in place is the one found; every other copy is as before. -/
theorem l2Find_putLine (s : State) (v w : BitVec 6) (n k : Nat) (d x) :
    l2Find (s.putLine v n d x).mem.l2 w k =
      if w = v ∧ k = n then some { vat := v, line := n, dirty := d, data := x, poison := s.lineLost v n } else l2Find s.mem.l2 w k := by
  by_cases h : w = v ∧ k = n
  · obtain ⟨rfl, rfl⟩ := h
    rw [if_pos ⟨rfl, rfl⟩]
    exact List.find?_cons_of_pos (by simp)
  · rw [if_neg h]
    refine (List.find?_cons_of_neg ?_).trans ((l2Find_drop s.mem.l2 v w n k).trans (if_neg h))
    simp only [Bool.and_eq_true, decide_eq_true_eq]
    exact fun e => h ⟨e.1.symm, e.2.symm⟩

/-- Bytes of a line that a Vat holds dirty read from that copy. -/
theorem seenLine_dirty {s : State} {v : BitVec 6} {n : Nat} {l : L2Line} (h : l2Find s.mem.l2 v n = some l)
    (hd : l.dirty = true) : s.seenLine v n = l.data := by
  unfold State.seenLine
  rw [h]
  simp [hd]

/-- The core that stores a byte sees it. -/
theorem seenByte_storeByte (s : State) (v : BitVec 6) (a : Nat) (b : BitVec 8) : (s.storeByte v a b).seenByte v a = b := by
  unfold State.seenByte State.storeByte
  rw [seenLine_dirty (l2Find_putLine ..  |>.trans (if_pos ⟨rfl, rfl⟩)) rfl,
    setLineByte_byte _ _ _ _ (by omega) (by omega), if_pos rfl]

/-- Another byte of a line stored to reads as it read before. -/
theorem seenByte_storeByte_line (s : State) (v : BitVec 6) (a q : Nat) (b : BitVec 8) (h : q / 64 = a / 64) (hq : q ≠ a) :
    (s.storeByte v a b).seenByte v q = s.seenByte v q := by
  unfold State.seenByte State.storeByte
  rw [h, seenLine_dirty (l2Find_putLine .. |>.trans (if_pos ⟨rfl, rfl⟩)) rfl,
    setLineByte_byte _ _ _ _ (by omega) (by omega), if_neg (by omega)]

/-- Lookups of a line depend only on its own copies. -/
theorem find_putLine_other (s : State) (v : BitVec 6) (n k : Nat) (d x) (h : k ≠ n) (p : L2Line → Bool) :
    (s.putLine v n d x).mem.l2.find? (fun l => l.line = k && p l) = s.mem.l2.find? (fun l => l.line = k && p l) := by
  refine (List.find?_cons_of_neg (by simpa using fun e : n = k => absurd e.symm h)).trans ?_
  unfold l2Drop
  induction s.mem.l2 with
  | nil => rfl
  | cons l ls ih =>
    by_cases g : l.vat = v ∧ l.line = n
    · rw [List.filter_cons_of_neg (by simpa using g), List.find?_cons_of_neg, ih]
      simp only [Bool.and_eq_true, decide_eq_true_eq]
      exact fun e => h (e.1.symm.trans g.2)
    · rw [List.filter_cons_of_pos (by simpa using not_and_or.mp g), List.find?_cons, List.find?_cons, ih]

/-- What lies below a Vat's own copy of a line does not depend on the copies of other lines. -/
theorem belowLine_putLine_other (s : State) (v w : BitVec 6) (n k : Nat) (d x) (h : k ≠ n) :
    (s.putLine v n d x).belowLine w k = s.belowLine w k := by
  have e : ∀ ls : List L2Line, ls.find? (fun l => decide (l.line = k) && l.dirty && decide (l.vat ≠ w) &&
      Config.replaced s.free l.vat.toNat k) = ls.find? (fun l => decide (l.line = k) &&
      (l.dirty && decide (l.vat ≠ w) && Config.replaced s.free l.vat.toNat k)) := by
    intro ls; congr 1; funext l; simp [Bool.and_assoc]
  exact congrArg (fun o : Option L2Line => match o with | some l => l.data | none => s.mem.line k)
    ((e _).trans ((find_putLine_other s v n k d x h _).trans (e _).symm))

/-- ... nor on the Vat's own copy. -/
theorem belowLine_putLine_own (s : State) (v : BitVec 6) (n : Nat) (d x) :
    (s.putLine v n d x).belowLine v n = s.belowLine v n := by
  have e : (s.putLine v n d x).mem.l2.find? (fun l => decide (l.line = n) && l.dirty && decide (l.vat ≠ v) &&
      Config.replaced s.free l.vat.toNat n) = s.mem.l2.find? (fun l => decide (l.line = n) && l.dirty && decide (l.vat ≠ v) &&
      Config.replaced s.free l.vat.toNat n) := by
    refine (List.find?_cons_of_neg (by simp)).trans ?_
    unfold l2Drop
    induction s.mem.l2 with
    | nil => rfl
    | cons l ls ih =>
      by_cases g : l.vat = v ∧ l.line = n
      · rw [List.filter_cons_of_neg (by simpa using g), List.find?_cons_of_neg (by simp [g.1]), ih]
      · rw [List.filter_cons_of_pos (by simpa using not_and_or.mp g), List.find?_cons, List.find?_cons, ih]
  exact congrArg (fun o : Option L2Line => match o with | some l => l.data | none => s.mem.line n) e

/-- Lines other than one put in place read as before, in every Vat. -/
theorem seenLine_putLine_other (s : State) (v w : BitVec 6) (n k : Nat) (d x) (h : k ≠ n) :
    (s.putLine v n d x).seenLine w k = s.seenLine w k := by
  unfold State.seenLine
  rw [l2Find_putLine, if_neg (fun e => h e.2), belowLine_putLine_other _ _ _ _ _ _ _ h]
  rfl

theorem seenByte_storeByte_other (s : State) (v w : BitVec 6) (a q : Nat) (b : BitVec 8) (h : q / 64 ≠ a / 64) :
    (s.storeByte v a b).seenByte w q = s.seenByte w q := by
  unfold State.seenByte State.storeByte
  rw [seenLine_putLine_other _ _ _ _ _ _ _ h]

/-- What a Vat sees of a byte after one of its cores has stored another. -/
theorem seenByte_storeByte_ne (s : State) (v : BitVec 6) (a q : Nat) (b : BitVec 8) (hq : q ≠ a) :
    (s.storeByte v a b).seenByte v q = s.seenByte v q := by
  by_cases h : q / 64 = a / 64
  · exact seenByte_storeByte_line s v a q b h hq
  · exact seenByte_storeByte_other s v v a q b h

/-- After a store of bytes, a core of the Vat sees them at their addresses, and every other byte as before. -/
theorem seenByte_store (s : State) (v : BitVec 6) (a q : Nat) (b : Bytes) :
    (s.store v a b).seenByte v q = if a ≤ q then (b[q - a]?).getD (s.seenByte v q) else s.seenByte v q := by
  induction b generalizing s a with
  | nil => simp [State.store]
  | cons x b ih =>
    rw [State.store, ih]
    by_cases h : a + 1 ≤ q
    · have e : q - a = q - (a + 1) + 1 := by omega
      rw [if_pos h, if_pos (by omega), e, List.getElem?_cons_succ, seenByte_storeByte_ne _ _ _ _ _ (by omega)]
    · rw [if_neg h]
      by_cases g : q = a
      · subst g; rw [seenByte_storeByte]; simp
      · rw [seenByte_storeByte_ne _ _ _ _ _ g, if_neg (by omega)]

/-- A read of a line changes nothing that the Vat's own cores see. -/
theorem seenLine_touchLine (s : State) (v : BitVec 6) (n k : Nat) : (s.touchLine v n).seenLine v k = s.seenLine v k := by
  by_cases g : k = n
  · subst g
    show (s.putLine v k _ _).seenLine v k = _
    unfold State.seenLine
    rw [l2Find_putLine, if_pos ⟨rfl, rfl⟩, belowLine_putLine_own]
    show (if _ || !Config.replaced s.free v.toNat k then _ else _) = _
    cases l2Find s.mem.l2 v k with
    | none => simp
    | some l => simp only; split <;> rfl
  · exact seenLine_putLine_other _ _ _ _ _ _ _ g

theorem seenByte_touchLine (s : State) (v : BitVec 6) (n q : Nat) : (s.touchLine v n).seenByte v q = s.seenByte v q := by
  unfold State.seenByte; rw [seenLine_touchLine]

theorem seenByte_touch (s : State) (v : BitVec 6) (a n q : Nat) : (s.touch v a n).seenByte v q = s.seenByte v q := by
  have key : ∀ (k m : Nat) (s : State), (s.touchLines v m k).seenByte v q = s.seenByte v q := by
    intro k
    induction k with
    | zero => intro m s; rfl
    | succ k ih => intro m s; exact (ih _ _).trans (seenByte_touchLine s v m q)
  exact key _ _ s

/-- A store reads back as the bytes stored, and a range beside it as before. -/
theorem seen_ext (s t : State) (v : BitVec 6) (a n : Nat) (h : ∀ q, a ≤ q → q < a + n → s.seenByte v q = t.seenByte v q) :
    s.seen v a n = t.seen v a n := by
  induction n generalizing a with
  | zero => rfl
  | succ n ih =>
    rw [State.seen, State.seen, h a (Nat.le_refl _) (by omega), ih (a + 1) (fun q h1 h2 => h q (by omega) (by omega))]
theorem seen_store (s : State) (v : BitVec 6) (a : Nat) (b : Bytes) : (s.store v a b).seen v a b.length = b := by
  induction b generalizing s a with
  | nil => rfl
  | cons x b ih =>
    rw [List.length_cons, State.seen, State.store, ih, seenByte_store, if_neg (by omega), seenByte_storeByte]
theorem seen_store_other (s : State) (v : BitVec 6) (a q n : Nat) (b : Bytes) (h : q + n ≤ a ∨ a + b.length ≤ q) :
    (s.store v a b).seen v q n = s.seen v q n :=
  seen_ext _ _ v q n (fun i h1 h2 => by
    rw [seenByte_store]
    split
    · rw [List.getElem?_eq_none (by omega)]; rfl
    · rfl)

/-- The Vat holds dirty each line that a store wrote to, and each one that it held dirty before. -/
theorem store_dirty (s : State) (v : BitVec 6) (a n : Nat) (b : Bytes)
    (h : (∃ x, l2Find s.mem.l2 v n = some x ∧ x.dirty = true) ∨ ∃ q, a ≤ q ∧ q < a + b.length ∧ q / 64 = n) :
    ∃ x, l2Find (s.store v a b).mem.l2 v n = some x ∧ x.dirty = true := by
  induction b generalizing s a with
  | nil => exact h.resolve_right (fun ⟨q, h1, h2, _⟩ => by rw [List.length_nil] at h2; omega)
  | cons x b ih =>
    refine ih _ _ ?_
    by_cases g : n = a / 64
    · exact .inl ⟨_, (l2Find_putLine ..).trans (if_pos ⟨rfl, g⟩), rfl⟩
    · rcases h with ⟨y, hy, hd⟩ | ⟨q, h1, h2, h3⟩
      · exact .inl ⟨y, (l2Find_putLine ..).trans ((if_neg (fun e => g e.2)).trans hy), hd⟩
      · rw [List.length_cons] at h2
        have : q ≠ a := fun e => g (by rw [← h3, e])
        exact .inr ⟨q, by omega, by omega, h3⟩

/-! ### Tier C -/

/-- A block deciphers to what was enciphered (R306). -/
@[simp] theorem Block.plain_seal (k : XtsKey) (n : BitVec 64) (b : Bytes) : (Block.seal k n b).plain = b :=
  Equiv.symm_apply_apply _ _
@[simp] theorem Block.seal_key (k : XtsKey) (n : BitVec 64) (b : Bytes) : (Block.seal k n b).key = k := rfl
@[simp] theorem Block.seal_tweak (k : XtsKey) (n : BitVec 64) (b : Bytes) : (Block.seal k n b).tweak = n.setWidth 128 := rfl

end Sys2Proof.Machine
end

