-- ==== Sys2Proof/Laws/Descriptors.lean ====
section
/-! SUPPORT. Lines as byte strings and back, and marked descriptors (R119): what a creation port writes is what SBIND's
check accepts. -/

namespace Sys2Proof.Machine

open Sys2Proof

theorem leVal_leBytes (n v : Nat) : leVal (leBytes n v) = v % 256 ^ n := by
  induction n generalizing v with
  | zero => simp [leBytes, leVal, Nat.mod_one]
  | succ n ih =>
    have e : (BitVec.ofNat 8 v).toNat = v % 256 := rfl
    rw [leBytes, leVal, ih, e, Nat.pow_succ', Nat.mod_mul (x := v) (a := 256)]

theorem leBytes_leVal (b : Bytes) : leBytes b.length (leVal b) = b := by
  induction b with
  | nil => rfl
  | cons x b ih =>
    have := x.isLt
    rw [List.length_cons, leBytes, leVal]
    have h1 : (x.toNat + 256 * leVal b) / 256 = leVal b := by omega
    have h2 : BitVec.ofNat 8 (x.toNat + 256 * leVal b) = x := by
      apply BitVec.eq_of_toNat_eq; rw [BitVec.toNat_ofNat]; omega
    rw [h1, h2, ih]

/-- A line is the bytes it is read as. -/
theorem bytesToLine_lineToBytes (l : BitVec 512) : bytesToLine (lineToBytes l) = l := by
  apply BitVec.eq_of_toNat_eq
  have : (256 : Nat) ^ 64 = 2 ^ 512 := (Nat.pow_mul 2 8 64).symm
  rw [bytesToLine, lineToBytes, leVal_leBytes, BitVec.toNat_ofNat, this, Nat.mod_mod]
  exact Nat.mod_eq_of_lt l.isLt

/-- A line that a Vat holds dirty reads, whole, as that copy's bytes. -/
theorem seen_dirty {s : State} {v : BitVec 6} {n : Nat} {l : L2Line} (h : l2Find s.mem.l2 v n = some l)
    (hd : l.dirty = true) : s.seen v (64 * n) 64 = lineToBytes l.data := by
  have key : ∀ (m k : Nat), k + m = 64 → State.seen s v (64 * n + k) m = (lineToBytes l.data).drop k := by
    intro m
    induction m with
    | zero =>
      intro k hk
      rw [List.drop_eq_nil_of_le (by rw [lineToBytes_length]; omega)]; rfl
    | succ m ih =>
      intro k hk
      have hl : k < (lineToBytes l.data).length := by rw [lineToBytes_length]; omega
      have e1 : (64 * n + k) / 64 = n := by omega
      have e2 : (64 * n + k) % 64 = k := by omega
      rw [State.seen, Nat.add_assoc, ih (k + 1) (by omega), List.drop_eq_getElem_cons hl]
      congr 1
      rw [State.seenByte, e1, e2, seenLine_dirty h hd]
      have := lineToBytes_byte l.data k (by omega)
      rw [List.getElem?_eq_getElem hl] at this
      exact (Option.some.inj this).symm
  exact key 64 0 (by omega)

theorem marked_toNat (s : State) (b : BitVec 512) (job : BitVec 64) :
    (s.marked b job).toNat = b.toNat % 2 ^ 480 + 2 ^ 480 * (s.markOf b job).toNat := by
  rw [State.marked, BitVec.toNat_ofNat]
  apply Nat.mod_eq_of_lt
  have h1 := (s.markOf b job).isLt
  have h2 := Nat.mod_lt b.toNat (Nat.two_pow_pos 480)
  calc b.toNat % 2 ^ 480 + 2 ^ 480 * (s.markOf b job).toNat
      < 2 ^ 480 + 2 ^ 480 * (s.markOf b job).toNat := Nat.add_lt_add_right h2 _
    _ = 2 ^ 480 * ((s.markOf b job).toNat + 1) := by rw [Nat.mul_add, Nat.mul_one, Nat.add_comm]
    _ ≤ 2 ^ 480 * 2 ^ 32 := Nat.mul_le_mul_left _ h1
    _ = 2 ^ 512 := (Nat.pow_add 2 480 32).symm

/-- A field of the first 60 bytes does not see MARK. -/
theorem descField_marked (s : State) (b : BitVec 512) (job : BitVec 64) (off n : Nat) (h : off + n ≤ 0x3C) :
    descField (s.marked b job) off n = descField b off n := by
  obtain ⟨k, hk⟩ : ∃ k, 480 = 8 * off + (8 * n + k) := ⟨480 - 8 * off - 8 * n, by omega⟩
  have e := marked_toNat s b job
  unfold descField
  rw [e]
  have split : ∀ x y : Nat, (x % 2 ^ 480 + 2 ^ 480 * y) / 2 ^ (8 * off) % 2 ^ (8 * n) = x / 2 ^ (8 * off) % 2 ^ (8 * n) := by
    intro x y
    rw [hk, Nat.pow_add, Nat.mul_assoc, Nat.add_mul_div_left _ _ (Nat.two_pow_pos _), Nat.mod_mul_right_div_self, Nat.pow_add,
      Nat.mul_assoc, Nat.add_mul_mod_self_left, Nat.mod_mul_right_mod]
  exact split _ _

theorem marked_alloc (s : State) (b : BitVec 512) (job : BitVec 64) : (descOf (s.marked b job)).alloc = (descOf b).alloc := by
  show BitVec.ofNat 16 (descField (s.marked b job) 0x3A 2) = BitVec.ofNat 16 (descField b 0x3A 2)
  rw [descField_marked _ _ _ _ _ (by omega)]

theorem marked_writable (s : State) (b : BitVec 512) (job : BitVec 64) :
    (descOf (s.marked b job)).writable = (descOf b).writable := by
  show decide (descField (s.marked b job) 0x39 1 / 8 % 2 = 1) = decide (descField b 0x39 1 / 8 % 2 = 1)
  rw [descField_marked _ _ _ _ _ (by omega)]

/-- What a creation port marks, SBIND accepts, while the record lives (R119, R123). -/
theorem markGood_marked (s : State) (b : BitVec 512) (job : BitVec 64) (h : (s.alloc (descOf b).alloc).live = true) :
    s.markGood (s.marked b job) job = true := by
  have ha := marked_alloc s b job
  have e := marked_toNat s b job
  have hlow : (s.marked b job).extractLsb' 0 480 = b.extractLsb' 0 480 := by
    apply BitVec.eq_of_toNat_eq
    rw [BitVec.extractLsb'_toNat, BitVec.extractLsb'_toNat, e, Nat.shiftRight_zero, Nat.shiftRight_zero,
      Nat.add_mul_mod_self_left, Nat.mod_mod]
  have hm : (descOf (s.marked b job)).mark = s.markOf b job := by
    show BitVec.ofNat 32 (descField (s.marked b job) 0x3C 4) = _
    apply BitVec.eq_of_toNat_eq
    unfold descField
    rw [e, BitVec.toNat_ofNat]
    have h1 := (s.markOf b job).isLt
    have h2 := Nat.mod_lt b.toNat (Nat.two_pow_pos 480)
    have h4 : 8 * 0x3C = 480 := by norm_num
    rw [h4, Nat.add_mul_div_left _ _ (Nat.two_pow_pos _), Nat.div_eq_of_lt h2, Nat.zero_add]
    omega
  show ((s.alloc (descOf (s.marked b job)).alloc).live && decide ((descOf (s.marked b job)).mark = s.markOf (s.marked b job) job)) = true
  rw [ha, h, hm, Bool.true_and, decide_eq_true_eq]
  show Config.mark (b.extractLsb' 0 480) (s.alloc (descOf b).alloc).gen job s.self s.sec.markEra =
    Config.mark ((s.marked b job).extractLsb' 0 480) (s.alloc (descOf (s.marked b job)).alloc).gen job s.self s.sec.markEra
  rw [hlow, ha]

end Sys2Proof.Machine
end

