-- ==== Sys2Proof/Laws/Codecs.lean ====
section
/-! SUPPORT. Laws of the decompressors: one that has ended stays as it is, and a stored DEFLATE block gives back its bytes. -/

namespace Sys2Proof.Laws

open Sys2Proof Sys2Proof.Machine

/-! ### A decompressor that has ended -/

@[simp] theorem note_of_ended {u : Unwrap} (h : u.ended = true) (w : WrapStep) : u.note w = u := by simp [Unwrap.note, h]

@[simp] theorem stopIf_of_ended {u : Unwrap} (h : u.ended = true) (c : Bool) (w : WrapStep) : u.stopIf c w = u := by
  simp [Unwrap.stopIf, h]

@[simp] theorem emit_of_ended {u : Unwrap} (h : u.ended = true) (b : Bytes) : u.emit b = u := by simp [Unwrap.emit, h]

@[simp] theorem bit_of_ended {u : Unwrap} (h : u.ended = true) : u.bit = (0, u) := by simp [Unwrap.bit, h]

@[simp] theorem take_of_ended {u : Unwrap} (h : u.ended = true) (n : Nat) : u.take n = ([], u) := by simp [Unwrap.take, h]

@[simp] theorem copy_of_ended {u : Unwrap} (h : u.ended = true) (d n most : Nat) : u.copy d n most = u := by
  simp [Unwrap.copy, h]

/-! ### One that has not -/

@[simp] theorem stopIf_false (u : Unwrap) (w : WrapStep) : u.stopIf false w = u := by simp [Unwrap.stopIf]

/-- Output grows by what is emitted. -/
theorem emit_out {u : Unwrap} (h : u.ended = false) (b : Bytes) : (u.emit b).out = b.reverse ++ u.out := by
  cases b <;> simp [Unwrap.emit, h]

/-- What a copy of `n` bytes leaves behind them is the output there was. -/
theorem backCopy_drop (d n : Nat) (out : Bytes) : (backCopy d n out).drop n = out := by
  induction n generalizing out with
  | zero => rfl
  | succ n ih =>
    rw [backCopy, ← List.tail_drop, ih]; rfl

/-! ### A stored DEFLATE block (RFC 1951, 3.2.4) -/

/-- The bytes of `b` as one stored block, the final one. -/
def storedBlock (b : Bytes) : Bytes := 0x01 :: leBytes 2 b.length ++ leBytes 2 (0xFFFF - b.length) ++ b

theorem take_of_enough {u : Unwrap} (h : u.ended = false) {n : Nat} (hn : 0 < n) (hl : n ≤ u.rest.length) :
    u.take n = (u.rest.take n, { u with rest := u.rest.drop n, bits := [], steps := .input n :: u.steps }) := by
  simp [Unwrap.take, h, Nat.min_eq_left hl, Nat.ne_of_gt hn]

theorem le_of_leBytes {u : Unwrap} (h : u.ended = false) {n v : Nat} (hn : 0 < n) (hv : v < 256 ^ n) {r : Bytes}
    (hr : u.rest = leBytes n v ++ r) : u.le n = (v, { u with rest := r, bits := [], steps := .input n :: u.steps }) := by
  have hl := leBytes_length n v
  rw [Unwrap.le, take_of_enough h hn (by simp [hr, hl])]
  simp [hr, leVal_leBytes, Nat.mod_eq_of_lt hv, hl]

/-- A stored block on whose bytes the input ends, behind its three header bits. -/
theorem stored_of_block {u : Unwrap} (h : u.ended = false) {b : Bytes} (hb : b ≠ []) (hl : b.length < 2 ^ 16)
    (hr : u.rest = leBytes 2 b.length ++ (leBytes 2 (0xFFFF - b.length) ++ b)) :
    u.stored = { u with rest := [], bits := [], out := b.reverse ++ u.out,
                        steps := .output b :: .input b.length :: .input 2 :: .input 2 :: u.steps } := by
  have hp : 0 < b.length := List.length_pos_iff.mpr hb
  have sum : b.length + (0xFFFF - b.length) = 0xFFFF := by omega
  rw [Unwrap.stored, le_of_leBytes h (n := 2) (by decide) (by simpa using hl) hr]
  dsimp only
  rw [le_of_leBytes (u := Unwrap.mk (leBytes 2 (0xFFFF - b.length) ++ b) [] u.out (.input 2 :: u.steps) u.past u.ended)
    h (by decide) (by omega) rfl]
  dsimp only
  simp only [sum, ne_eq, not_true_eq_false, decide_false, stopIf_false]
  rw [take_of_enough (u := Unwrap.mk b [] u.out (.input 2 :: .input 2 :: u.steps) u.past u.ended) h hp (Nat.le_refl _)]
  simp [Unwrap.emit, h, hb]

/-- A final stored block gives back the bytes it holds. -/
theorem unwrap_storedBlock {b : Bytes} (hb : b ≠ []) (hl : b.length < 2 ^ 16) :
    (unwrap 1 (storedBlock b)).flatMap wrapOut = b := by
  let u : Unwrap := { rest := leBytes 2 b.length ++ (leBytes 2 (0xFFFF - b.length) ++ b), bits := List.replicate 5 false, out := [],
                      steps := [.input 1, .header], past := 0, ended := false }
  have final : ((Unwrap.start (storedBlock b)).note .header).bit = (1, { u with bits := List.replicate 7 false }) := rfl
  have kind : Unwrap.field 2 { u with bits := List.replicate 7 false } = (0, u) := rfl
  have run : (Unwrap.start (storedBlock b)).deflate = u.stored := by
    rw [Unwrap.deflate, Unwrap.inflate, final]
    dsimp only
    rw [kind]
    simp [Unwrap.stopIf, show u.ended = false from rfl]
  rw [unwrap, run, stored_of_block rfl hb hl rfl]
  simp [Unwrap.met, wrapOut, u]

end Sys2Proof.Laws
end

