-- ==== Sys2Proof/Laws/Commit.lean ====
section
/-! SUPPORT. Committing a word: its slots' effects in any order, and the spec lemma of `runWord`. -/

namespace Sys2Proof.Machine

open Sys2Proof

/-- Slots that write one place write one value. -/
def Agree {β : Type} (l : List Effect) (f : Effect → Option β) : Prop :=
  ∀ a ∈ l, ∀ b ∈ l, ∀ u v, f a = some u → f b = some v → u = v

theorem Agree.sub {β : Type} {l m : List Effect} {f : Effect → Option β} (h : Agree l f) (hm : ∀ a ∈ m, a ∈ l) :
    Agree m f := fun a ha b hb => h a (hm a ha) b (hm b hb)

theorem findSome_agree {β : Type} {l m : List Effect} {f : Effect → Option β} (h : Agree l f)
    (hm : ∀ a, a ∈ l ↔ a ∈ m) : l.findSome? f = m.findSome? f := by
  cases hl : l.findSome? f with
  | none =>
    rw [List.findSome?_eq_none_iff] at hl
    exact (List.findSome?_eq_none_iff.mpr (fun a ha => hl a ((hm a).mpr ha))).symm
  | some v =>
    obtain ⟨a, ha, hv⟩ := List.exists_of_findSome?_eq_some hl
    cases hk : m.findSome? f with
    | none => rw [List.findSome?_eq_none_iff] at hk; rw [hk a ((hm a).mp ha)] at hv; cases hv
    | some u =>
      obtain ⟨b, hb, hu⟩ := List.exists_of_findSome?_eq_some hk
      rw [h a ha b ((hm b).mpr hb) v u hv hu]

theorem findSome_step {β : Type} {e : Effect} {l : List Effect} {f : Effect → Option β} (h : Agree (e :: l) f) (d : β) :
    (l.findSome? f).getD ((f e).getD d) = ((e :: l).findSome? f).getD d := by
  cases hl : l.findSome? f with
  | none => rw [List.findSome?_cons]; cases f e <;> simp [hl]
  | some v =>
    obtain ⟨a, ha, hv⟩ := List.exists_of_findSome?_eq_some hl
    rw [List.findSome?_cons]
    cases he : f e with
    | none => simp [hl]
    | some u => simp [h a (List.mem_cons_of_mem _ ha) e (List.mem_cons_self ..) v u hv he]

theorem findSome_map_step {β γ : Type} {e : Effect} {l : List Effect} {f : Effect → Option β} (h : Agree (e :: l) f)
    (g : β → γ) (d : γ) :
    ((l.findSome? f).map g).getD (((f e).map g).getD d) = (((e :: l).findSome? f).map g).getD d := by
  cases hl : l.findSome? f with
  | none => rw [List.findSome?_cons]; cases f e <;> simp [hl]
  | some v =>
    obtain ⟨a, ha, hv⟩ := List.exists_of_findSome?_eq_some hl
    rw [List.findSome?_cons]
    cases he : f e with
    | none => simp [hl]
    | some u => simp [h a (List.mem_cons_of_mem _ ha) e (List.mem_cons_self ..) v u hv he]

/-- The effects of a word's slots agree everywhere. -/
structure Compat (l : List Effect) : Prop where
  x       : ∀ r, r ≠ 0 → Agree l (fun e => writtenTo e.x r)
  w       : ∀ r, Agree l (fun e => writtenTo e.w r)
  p       : ∀ r, Agree l (fun e => writtenTo e.p r)
  e       : ∀ r, Agree l (fun e => writtenTo e.e r)
  streams : ∀ n, Agree l (fun e => writtenTo e.stream n)
  tickets : ∀ n, Agree l (fun e => writtenTo e.ticket n)
  topkst  : Agree l (·.topkst)
  csr     : ∀ i, Agree l (fun e => writtenTo e.csr i)
  target  : Agree l (·.target)

theorem Compat.sub {l m : List Effect} (h : Compat l) (hm : ∀ a ∈ m, a ∈ l) : Compat m :=
  ⟨fun r hr => (h.x r hr).sub hm, fun r => (h.w r).sub hm, fun r => (h.p r).sub hm, fun r => (h.e r).sub hm,
   fun r => (h.streams r).sub hm, fun r => (h.tickets r).sub hm, h.topkst.sub hm, fun i => (h.csr i).sub hm,
   h.target.sub hm⟩

/-- The registers after the writes of all slots. -/
structure Folded (k k' : Core) (es : List Effect) : Prop where
  x0      : k'.x[0] = k.x[0]
  x       : ∀ r, r ≠ 0 → k'.getX r = (es.findSome? (fun e => writtenTo e.x r)).getD (k.getX r)
  w       : ∀ r, k'.getW r = (es.findSome? (fun e => writtenTo e.w r)).getD (k.getW r)
  p       : ∀ r, k'.getP r = (es.findSome? (fun e => writtenTo e.p r)).getD (k.getP r)
  e       : ∀ r, k'.getE r = (es.findSome? (fun e => writtenTo e.e r)).getD (k.getE r)
  streams : ∀ n, k'.getS n = (es.findSome? (fun e => writtenTo e.stream n)).getD (k.getS n)
  tickets : ∀ n, k'.getT n = (es.findSome? (fun e => writtenTo e.ticket n)).getD (k.getT n)
  topkst  : k'.topkst = (es.findSome? (·.topkst)).getD k.topkst
  fpctl   : k'.fpctl = ((es.findSome? (fun e => writtenTo e.csr 0x008)).map (·.setWidth 2)).getD k.fpctl
  fpflags : k'.fpflags = ((es.findSome? (fun e => writtenTo e.csr 0x009)).map (·.setWidth 5)).getD k.fpflags
  topkK   : k'.topkK = ((es.findSome? (fun e => writtenTo e.csr 0x00A)).map (·.setWidth 7)).getD k.topkK
  epc     : k'.epc = (es.findSome? (fun e => writtenTo e.csr 0x010)).getD k.epc
  evec    : k'.evec = ((es.findSome? (fun e => writtenTo e.csr 0x013)).map (· &&& ~~~15#64)).getD k.evec
  handler : k'.handler = (k.handler && !es.any (·.eret))
  rest    : k'.cause = k.cause ∧ k'.faddr = k.faddr ∧ k'.active = k.active ∧ k'.firmware = k.firmware ∧
              k'.item = k.item ∧ k'.itemPtr = k.itemPtr ∧ k'.itemClass = k.itemClass ∧ k'.preempted = k.preempted ∧
              k'.finishing = k.finishing ∧ k'.runahead = k.runahead

theorem folded (es : List Effect) (k : Core) (h : Compat es) : Folded k (es.foldl (fun k e => k.write e) k) es := by
  induction es generalizing k with
  | nil => constructor <;> simp
  | cons e l ih =>
    have i := ih (k.write e) (h.sub (fun a ha => List.mem_cons_of_mem _ ha))
    have b := write_writtenBy k e
    rw [List.foldl_cons]
    constructor
    · rw [i.x0, b.x0]
    · intro r hr; rw [i.x r hr, b.x r hr]; exact findSome_step (f := fun e => writtenTo e.x r) (h.x r hr) _
    · intro r; rw [i.w, b.w]; exact findSome_step (f := fun e => writtenTo e.w r) (h.w r) _
    · intro r; rw [i.p, b.p]; exact findSome_step (f := fun e => writtenTo e.p r) (h.p r) _
    · intro r; rw [i.e, b.e]; exact findSome_step (f := fun e => writtenTo e.e r) (h.e r) _
    · intro r; rw [i.streams, b.streams]; exact findSome_step (f := fun e => writtenTo e.stream r) (h.streams r) _
    · intro r; rw [i.tickets, b.tickets]; exact findSome_step (f := fun e => writtenTo e.ticket r) (h.tickets r) _
    · rw [i.topkst, b.topkst]; exact findSome_step h.topkst _
    · rw [i.fpctl, b.fpctl]; exact findSome_map_step (f := fun e => writtenTo e.csr 0x008) (h.csr _) _ _
    · rw [i.fpflags, b.fpflags]; exact findSome_map_step (f := fun e => writtenTo e.csr 0x009) (h.csr _) _ _
    · rw [i.topkK, b.topkK]; exact findSome_map_step (f := fun e => writtenTo e.csr 0x00A) (h.csr _) _ _
    · rw [i.epc, b.epc]; exact findSome_step (f := fun e => writtenTo e.csr 0x010) (h.csr _) _
    · rw [i.evec, b.evec]; exact findSome_map_step (f := fun e => writtenTo e.csr 0x013) (h.csr _) _ _
    · rw [i.handler, b.handler]; simp [Bool.and_assoc]
    · obtain ⟨a1, a2, a3, a4, a5, a6, a7, a8, a9, a10⟩ := i.rest
      obtain ⟨b1, b2, b3, b4, b5, b6, b7, b8, b9, b10⟩ := b.rest
      exact ⟨a1.trans b1, a2.trans b2, a3.trans b3, a4.trans b4, a5.trans b5, a6.trans b6, a7.trans b7, a8.trans b8,
        a9.trans b9, a10.trans b10⟩

theorem orFlags_perm {l m : List Effect} (h : l.Perm m) (z : BitVec 5) :
    l.foldl (fun a e => a ||| e.flags) z = m.foldl (fun a e => a ||| e.flags) z := by
  induction h generalizing z with
  | nil => rfl
  | cons x _ ih => exact ih _
  | swap x y l =>
    simp only [List.foldl_cons]
    rw [BitVec.or_assoc, BitVec.or_comm y.flags, ← BitVec.or_assoc]
  | trans _ _ ih₁ ih₂ => exact (ih₁ z).trans (ih₂ z)

/-- The order in which the slots are listed does not matter. -/
theorem Written.perm {k k' : Core} {l m : List Effect} (h : Written k k' l) (hc : Compat l) (hp : l.Perm m) :
    Written k k' m := by
  have hm : ∀ a, a ∈ l ↔ a ∈ m := fun a => hp.mem_iff
  constructor
  · exact h.x0
  · intro r hr; rw [h.x r hr, findSome_agree (hc.x r hr) hm]
  · intro r; rw [h.w, findSome_agree (hc.w r) hm]
  · intro r; rw [h.p, findSome_agree (hc.p r) hm]
  · intro r; rw [h.e, findSome_agree (hc.e r) hm]
  · intro r; rw [h.streams, findSome_agree (hc.streams r) hm]
  · intro r; rw [h.tickets, findSome_agree (hc.tickets r) hm]
  · rw [h.topkst, findSome_agree hc.topkst hm]
  · rw [h.fpctl, findSome_agree (hc.csr 0x008) hm]
  · rw [h.fpflags, findSome_agree (hc.csr 0x009) hm, orFlags_perm hp]
  · rw [h.topkK, findSome_agree (hc.csr 0x00A) hm]
  · rw [h.epc, findSome_agree (hc.csr 0x010) hm]
  · rw [h.evec, findSome_agree (hc.csr 0x013) hm]
  · rw [h.pc, findSome_agree hc.target hm]
  · exact h.retired
  · rw [h.handler]
    congr 2
    rw [Bool.eq_iff_iff, List.any_eq_true, List.any_eq_true]
    exact ⟨fun ⟨a, ha, e⟩ => ⟨a, (hm a).mp ha, e⟩, fun ⟨a, ha, e⟩ => ⟨a, (hm a).mpr ha, e⟩⟩
  · exact h.cause
  · exact h.item

/-- A commit without DONE: the core's registers, and nothing outside the core but what the slots' actions do. -/
theorem commit_written (s : State) (c : CoreId) (es : List Effect) (hc : Compat es) (hd : ∀ e ∈ es, e.done = none) :
    Written (s.core c) ((s.commit c es).core c) es ∧ SameOutside c s (s.commit c es) ∧
      ((∀ e ∈ es, e.acts = []) → SameBesides c s (s.commit c es)) := by
  have hdone : es.findSome? (·.done) = none := List.findSome?_eq_none_iff.mpr hd
  have f := folded es (s.core c) hc
  have hcommit : s.commit c es = ((es.flatMap (·.acts)).foldl (fun s a => s.act c a) ((s.noteStores c (es.flatMap (·.acts))).setCore c
      { es.foldl (fun k e => k.write e) (s.core c) with
        fpflags := (es.foldl (fun k e => k.write e) (s.core c)).fpflags ||| es.foldl (fun a e => a ||| e.flags) 0,
        pc := (es.findSome? (·.target)).getD ((s.core c).pc + 16), retired := (s.core c).retired + 1,
        cycle := (s.core c).cycle + 1 + BitVec.ofNat 64 (Config.stall s.free),
        itemCycles := (s.core c).itemCycles + 1 + BitVec.ofNat 32 (Config.stall s.free),
        wordsRun := (s.core c).wordsRun + 1 })).drawn := by
    unfold State.commit
    simp only [hdone]
  have ha := acts_actsOnly c (es.flatMap (·.acts)) ((s.noteStores c (es.flatMap (·.acts))).setCore c
      { es.foldl (fun k e => k.write e) (s.core c) with
        fpflags := (es.foldl (fun k e => k.write e) (s.core c)).fpflags ||| es.foldl (fun a e => a ||| e.flags) 0,
        pc := (es.findSome? (·.target)).getD ((s.core c).pc + 16), retired := (s.core c).retired + 1,
        cycle := (s.core c).cycle + 1 + BitVec.ofNat 64 (Config.stall s.free),
        itemCycles := (s.core c).itemCycles + 1 + BitVec.ofNat 32 (Config.stall s.free),
        wordsRun := (s.core c).wordsRun + 1 })
  have hn := noteStores_memOnly s c (es.flatMap (·.acts))
  have hcore : ∀ d, (s.commit c es).core d = if d = c then
      { es.foldl (fun k e => k.write e) (s.core c) with
        fpflags := (es.foldl (fun k e => k.write e) (s.core c)).fpflags ||| es.foldl (fun a e => a ||| e.flags) 0,
        pc := (es.findSome? (·.target)).getD ((s.core c).pc + 16), retired := (s.core c).retired + 1,
        cycle := (s.core c).cycle + 1 + BitVec.ofNat 64 (Config.stall s.free),
        itemCycles := (s.core c).itemCycles + 1 + BitVec.ofNat 32 (Config.stall s.free),
        wordsRun := (s.core c).wordsRun + 1 } else s.core d := by
    intro d
    rw [hcommit, show ∀ u : State, u.drawn.core d = u.core d from fun _ => rfl, core_actsOnly ha, core_setCore,
      core_actsOnly hn.acts]
  refine ⟨?_, ⟨?_, ?_⟩, ?_⟩
  · rw [hcore c, if_pos rfl]
    exact ⟨f.x0, f.x, f.w, f.p, f.e, f.streams, f.tickets, f.topkst, f.fpctl, by rw [← f.fpflags], f.topkK, f.epc, f.evec,
      rfl, rfl, f.handler, ⟨f.rest.1, f.rest.2.1⟩,
      ⟨f.rest.2.2.1, f.rest.2.2.2.1, f.rest.2.2.2.2.1, f.rest.2.2.2.2.2.1, f.rest.2.2.2.2.2.2.1, f.rest.2.2.2.2.2.2.2.1,
        f.rest.2.2.2.2.2.2.2.2.1, f.rest.2.2.2.2.2.2.2.2.2⟩⟩
  · rw [hcommit]
    unfold ActsOnly at ha
    unfold MemOnly at hn
    rw [ha, hn]
    rfl
  · intro d hdc; rw [hcore d, if_neg hdc]
  · intro hacts
    have : es.flatMap (·.acts) = [] := List.flatMap_eq_nil_iff.mpr hacts
    refine ⟨?_, fun d hdc => by rw [hcore d, if_neg hdc]⟩
    rw [hcommit, this]
    rfl

/-! ### The word -/

theorem evalSlots_ok {s : State} {c : CoreId} {ms : List Meaning} {es : List Effect}
    (h : List.Forall₂ (SlotRuns s c) ms es) (i : Nat) :
    evalSlots { s := s, c := c, k := s.core c } i ms = .ok es := by
  induction h generalizing i with
  | nil => rfl
  | cons a _ ih =>
    have hp : ∀ b f : Bool, (b = true → f = true) → (b && !f) = false := by decide
    rw [evalSlots, if_neg (by simp [a.legal]), if_neg (by rw [hp _ _ a.mode]; simp), a.run]
    simp only
    rw [ih]

theorem eraseDups_length {α : Type} [DecidableEq α] (l : List α) (h : l.Nodup) : l.eraseDups = l := by
  induction l with
  | nil => rfl
  | cons a l ih =>
    rw [List.nodup_cons] at h
    rw [List.eraseDups_cons]
    have : l.filter (fun b => !b == a) = l := List.filter_eq_self.mpr (fun b hb => by
      have : b ≠ a := fun e => h.1 (e ▸ hb)
      simp [this])
    rw [this, ih h.2]

/-- The own slot and its companions in slot order. -/
def slotOrder {α : Type} (own : Nat) (e : α) (es : List α) : List α := es.take own ++ e :: es.drop own

theorem slotOrder_perm {α : Type} (own : Nat) (e : α) (es : List α) : (slotOrder own e es).Perm (e :: es) := by
  unfold slotOrder
  exact List.perm_middle.trans (by rw [List.take_append_drop])

theorem wordSlots_order (own : Nat) (h : own ≤ 3) (m : Meaning) (w : Companions) :
    wordSlots own m w = slotOrder own m (companionsOf own w) := by
  rcases own with _ | _ | _ | _ | n
  · rfl
  · rfl
  · rfl
  · rfl
  · omega

theorem forall₂_slotOrder {s : State} {c : CoreId} (own : Nat) {m : Meaning} {e : Effect} {ms : List Meaning}
    {es : List Effect} (h : List.Forall₂ (SlotRuns s c) ms es) (hm : SlotRuns s c m e) :
    List.Forall₂ (SlotRuns s c) (slotOrder own m ms) (slotOrder own e es) := by
  unfold slotOrder
  exact List.rel_append (List.forall₂_take own h) (List.Forall₂.cons hm (List.forall₂_drop own h))

theorem noClash {ms : List Meaning} (hn : ((ms.flatMap (·.dests)).filter (· ≠ .x 0)).Nodup) : destsClash ms = false := by
  have h : ms.flatMap (fun m => m.dests.filter (· ≠ .x 0)) = (ms.flatMap (·.dests)).filter (· ≠ .x 0) := by
    rw [List.filter_flatMap]
  simp only [destsClash, h, eraseDups_length _ hn]
  simp

/-- The four meanings of a word fit their slots. -/
theorem wordSlots_fit (own : Nat) (h : own ≤ 3) (m : Meaning) (hm : Fits own m) (w : Companions) :
    ∃ a b c d, wordSlots own m w = [a, b, c, d] ∧ Fits 0 a ∧ Fits 1 b ∧ Fits 2 c ∧ Fits 3 d := by
  rcases own with _ | _ | _ | _ | n
  · exact ⟨_, _, _, _, rfl, hm, slotMeaning1_fits _, slotMeaning2_fits _, slotMeaning3_fits _⟩
  · exact ⟨_, _, _, _, rfl, slotMeaning0_fits _, hm, slotMeaning2_fits _, slotMeaning3_fits _⟩
  · exact ⟨_, _, _, _, rfl, slotMeaning0_fits _, slotMeaning1_fits _, hm, slotMeaning3_fits _⟩
  · exact ⟨_, _, _, _, rfl, slotMeaning0_fits _, slotMeaning1_fits _, slotMeaning2_fits _, hm⟩
  · omega

/-- Two places of a list without repeats hold different things. -/
theorem agree_of_disjoint {β : Type} {ms : List Meaning} {es : List Effect} {f : Effect → Option β} (d : Dest)
    (h : List.Forall₂ (fun m e => ∀ v, f e = some v → d ∈ m.dests) ms es)
    (hn : ((ms.flatMap (·.dests)).filter (· ≠ .x 0)).Nodup) (hd : d ≠ .x 0) : Agree es f := by
  have key : ∀ (ms : List Meaning) (es : List Effect),
      List.Forall₂ (fun m e => ∀ v, f e = some v → d ∈ m.dests) ms es → ∀ a ∈ es, ∀ v, f a = some v →
        d ∈ ((ms.flatMap (·.dests)).filter (· ≠ .x 0)) := by
    intro ms es h
    induction h with
    | nil => intro a ha; cases ha
    | cons hm _ ih =>
      intro a ha v hv
      rw [List.flatMap_cons, List.filter_append, List.mem_append]
      rcases List.mem_cons.mp ha with rfl | ha
      · exact .inl (List.mem_filter.mpr ⟨hm v hv, by simpa using hd⟩)
      · exact .inr (ih a ha v hv)
  induction h with
  | nil => intro a ha; cases ha
  | @cons m e ms es hm ht ih =>
    rw [List.flatMap_cons, List.filter_append, List.nodup_append] at hn
    have ih := ih hn.2.1
    have no : ∀ v, f e = some v → ∀ b ∈ es, ∀ u, f b = some u → False := fun v hv b hb u hu =>
      hn.2.2 d (List.mem_filter.mpr ⟨hm v hv, by simpa using hd⟩) d (key ms es ht b hb u hu) rfl
    intro a ha b hb u v hu hv
    rcases List.mem_cons.mp ha with rfl | ha'
    · rcases List.mem_cons.mp hb with rfl | hb'
      · rw [hu] at hv; exact Option.some.inj hv
      · exact (no u hu b hb' v hv).elim
    · rcases List.mem_cons.mp hb with rfl | hb'
      · exact (no v hv a ha' u hu).elim
      · exact ih a ha' b hb' u v hu hv

theorem writtenTo_some {α β : Type} [DecidableEq α] {p : Option (α × β)} {r : α} {v : β} (h : writtenTo p r = some v) :
    p = some (r, v) := by
  unfold writtenTo at h
  rcases p with _ | ⟨q, u⟩
  · cases h
  · simp only at h
    split at h
    · rename_i e; rw [e, Option.some.inj h]
    · cases h

theorem Agree.one {β : Type} {a b c d : Effect} {f : Effect → Option β} (i : Fin 4)
    (h : ∀ j : Fin 4, j ≠ i → f ([a, b, c, d][j]) = none) : Agree [a, b, c, d] f := by
  intro x hx y hy u v hu hv
  have place : ∀ z ∈ [a, b, c, d], ∀ w, f z = some w → z = [a, b, c, d][i] := by
    intro z hz w hw
    simp only [List.mem_cons, List.not_mem_nil, or_false] at hz
    rcases hz with rfl | rfl | rfl | rfl
    · by_cases e : (0 : Fin 4) = i
      · subst e; rfl
      · have := h 0 e; simp_all
    · by_cases e : (1 : Fin 4) = i
      · subst e; rfl
      · have := h 1 e; simp_all
    · by_cases e : (2 : Fin 4) = i
      · subst e; rfl
      · have := h 2 e; simp_all
    · by_cases e : (3 : Fin 4) = i
      · subst e; rfl
      · have := h 3 e; simp_all
  rw [place x hx u hu] at hu
  rw [place y hy v hv, hu] at hv
  exact Option.some.inj hv

theorem word_compat {s : State} {c : CoreId} {a b p d : Meaning} {es : List Effect}
    (h : List.Forall₂ (SlotRuns s c) [a, b, p, d] es) (ha : Fits 0 a) (hb : Fits 1 b) (hp : Fits 2 p) (hd : Fits 3 d)
    (hn : (([a, b, p, d].flatMap (·.dests)).filter (· ≠ .x 0)).Nodup) : Compat es := by
  rcases h with _ | @⟨_, e0, _, _, r0, h⟩
  rcases h with _ | @⟨_, e1, _, _, r1, h⟩
  rcases h with _ | @⟨_, e2, _, _, r2, h⟩
  rcases h with _ | @⟨_, e3, _, _, r3, h⟩
  rcases h with _ | _
  have f0 := ha _ _ r0.run
  have f1 := hb _ _ r1.run
  have f2 := hp _ _ r2.run
  have f3 := hd _ _ r3.run
  have z1 := f1.zero.resolve_left (by decide)
  have z2 := f2.zero.resolve_left (by decide)
  have z3 := f3.zero.resolve_left (by decide)
  have t0 := f0.two.resolve_left (by decide)
  have t1 := f1.two.resolve_left (by decide)
  have t3 := f3.two.resolve_left (by decide)
  have h0 := f0.three.resolve_left (by decide)
  have h1 := f1.three.resolve_left (by decide)
  have h2 := f2.three.resolve_left (by decide)
  constructor
  · intro r hr
    refine agree_of_disjoint (.x r) ?_ hn (by simpa using hr)
    exact .cons (fun v hv => f0.x r v (writtenTo_some hv)) (.cons (fun v hv => f1.x r v (writtenTo_some hv))
      (.cons (fun v hv => f2.x r v (writtenTo_some hv)) (.cons (fun v hv => f3.x r v (writtenTo_some hv)) .nil)))
  · intro r
    refine agree_of_disjoint (.w r) ?_ hn (by simp)
    exact .cons (fun v hv => f0.w r v (writtenTo_some hv)) (.cons (fun v hv => f1.w r v (writtenTo_some hv))
      (.cons (fun v hv => f2.w r v (writtenTo_some hv)) (.cons (fun v hv => f3.w r v (writtenTo_some hv)) .nil)))
  · intro r
    refine agree_of_disjoint (.p r) ?_ hn (by simp)
    exact .cons (fun v hv => f0.p r v (writtenTo_some hv)) (.cons (fun v hv => f1.p r v (writtenTo_some hv))
      (.cons (fun v hv => f2.p r v (writtenTo_some hv)) (.cons (fun v hv => f3.p r v (writtenTo_some hv)) .nil)))
  · intro r
    refine agree_of_disjoint (.e r) ?_ hn (by simp)
    exact .cons (fun v hv => f0.e r v (writtenTo_some hv)) (.cons (fun v hv => f1.e r v (writtenTo_some hv))
      (.cons (fun v hv => f2.e r v (writtenTo_some hv)) (.cons (fun v hv => f3.e r v (writtenTo_some hv)) .nil)))
  · intro n
    refine Agree.one 3 (fun j hj => ?_)
    fin_cases j <;> simp_all [writtenTo]
  · intro n
    refine Agree.one 3 (fun j hj => ?_)
    fin_cases j <;> simp_all [writtenTo]
  · refine Agree.one 2 (fun j hj => ?_)
    fin_cases j <;> simp_all
  · intro n
    refine Agree.one 0 (fun j hj => ?_)
    fin_cases j <;> simp_all [writtenTo]
  · refine Agree.one 0 (fun j hj => ?_)
    fin_cases j <;> simp_all

/-- What a word does when its own slot completes: whatever companions run beside it, it commits all four. -/
theorem runWord_completes {own : Nat} {m : Meaning} {c : CoreId} {w : Companions} {s : State} {e : Effect}
    (hown : own ≤ 3) (hf : Fits own m) (hm : SlotRuns s c m e) {es : List Effect}
    (h : OthersRun own m.dests c w s es) :
    ∃ t, runWord c own m w s = .next t ∧ t = s.commit c (slotOrder own e es) ∧
      Written (s.core c) (t.core c) (e :: es) ∧ SameOutside c s t ∧
      ((∀ y ∈ e :: es, y.acts = []) → SameBesides c s t) := by
  have hall := forall₂_slotOrder own h.runs hm
  rw [← wordSlots_order own hown] at hall
  have hperm : (wordSlots own m w).Perm (m :: companionsOf own w) := by
    rw [wordSlots_order own hown]; exact slotOrder_perm _ _ _
  have hn : (((wordSlots own m w).flatMap (·.dests)).filter (· ≠ .x 0)).Nodup := by
    refine (List.Perm.nodup_iff ?_).mpr h.dests
    refine List.Perm.filter _ ((List.Perm.flatMap_right _ hperm).trans ?_)
    rw [List.flatMap_cons]
    exact List.perm_append_comm
  have hrun : runWord c own m w s = .next (s.commit c (slotOrder own e es)) := by
    unfold runWord
    simp only [h.commits.active, h.commits.finishing, h.commits.ahead, h.commits.fetch, noClash hn,
      evalSlots_ok hall]
    rfl
  have hcompat : Compat (slotOrder own e es) := by
    obtain ⟨a, b, p, d, hw, ha, hb, hp, hd⟩ := wordSlots_fit own hown m hf w
    rw [hw] at hall hn
    exact word_compat hall ha hb hp hd hn
  have hmem : ∀ y, y ∈ slotOrder own e es ↔ y ∈ e :: es := fun y => (slotOrder_perm own e es).mem_iff
  have hdone : ∀ y ∈ slotOrder own e es, y.done = none := by
    have : ∀ (ms : List Meaning) (ys : List Effect), List.Forall₂ (SlotRuns s c) ms ys → ∀ y ∈ ys, y.done = none := by
      intro ms ys hh
      induction hh with
      | nil => intro x hx; cases hx
      | cons a _ ih =>
        intro x hx
        rcases List.mem_cons.mp hx with rfl | hx
        · exact a.goes
        · exact ih x hx
    exact this _ _ hall
  obtain ⟨h1, h2, h3⟩ := commit_written s c _ hcompat hdone
  refine ⟨_, hrun, rfl, h1.perm hcompat (slotOrder_perm own e es), h2, fun ha => h3 (fun y hy => ha y ((hmem y).mp hy))⟩

/-- Line counts and the unit mark of a slot are no register. -/
theorem Written.plain {k k' : Core} {e : Effect} {es : List Effect} (h : Written k k' (e :: es)) (n : Nat) (b : Bool)
    (a : List Act) : Written k k' ({ e with lines := n, other := b, acts := a } :: es) :=
  ⟨h.x0, h.x, h.w, h.p, h.e, h.streams, h.tickets, h.topkst, h.fpctl, h.fpflags, h.topkK, h.epc, h.evec, h.pc, h.retired,
   h.handler, h.cause, h.item⟩

/-- A command that runs a word completes when its own slot does. -/
theorem completes {own : Nat} {m : Meaning} {c : CoreId} {w : Companions} {s : State} {e : Effect} {i : Instr}
    (hi : exec i s = runWord c own m w s) (hown : own ≤ 3) (hf : Fits own m) (hm : SlotRuns s c m e) :
    Completes own m.dests e i c w s := by
  intro es h
  obtain ⟨t, h1, -, h2, h3, h4⟩ := runWord_completes hown hf hm h
  exact ⟨t, by rw [hi, h1], h2, h3, h4⟩

end Sys2Proof.Machine
end

