-- ==== Sys2Proof/Laws/Search.lean ====
section
/-! SUPPORT. The lowest free number: what the search for record, ring and queue pair numbers answers. -/

namespace Sys2Proof.Machine

open Sys2Proof

theorem firstFrom_eq_some {p : Nat → Bool} {k n m : Nat} :
    firstFrom p k n = some m ↔ n ≤ m ∧ m < n + k ∧ p m = true ∧ ∀ i, n ≤ i → i < m → p i = false := by
  induction k generalizing n with
  | zero =>
    refine ⟨fun h => (nomatch h), fun h => ?_⟩
    omega
  | succ k ih =>
    unfold firstFrom
    by_cases hp : p n = true
    · rw [if_pos hp]
      constructor
      · intro h
        cases h
        exact ⟨Nat.le_refl _, by omega, hp, fun i a b => by omega⟩
      · rintro ⟨h1, -, -, h2⟩
        rcases Nat.lt_or_eq_of_le h1 with h | h
        · rw [h2 n (Nat.le_refl _) h] at hp
          cases hp
        · rw [h]
    · rw [if_neg hp, ih]
      have hn : p n = false := by simpa using hp
      constructor
      · rintro ⟨h1, h2, h3, h4⟩
        refine ⟨by omega, by omega, h3, fun i a b => ?_⟩
        rcases Nat.lt_or_eq_of_le a with h | h
        · exact h4 i h b
        · rw [← h, hn]
      · rintro ⟨h1, h2, h3, h4⟩
        have : n ≠ m := fun h => by rw [← h, hn] at h3; cases h3
        exact ⟨by omega, by omega, h3, fun i a b => h4 i (by omega) b⟩

theorem firstFrom_eq_none {p : Nat → Bool} {k n : Nat} :
    firstFrom p k n = none ↔ ∀ i, n ≤ i → i < n + k → p i = false := by
  induction k generalizing n with
  | zero => exact ⟨fun _ i a b => by omega, fun _ => rfl⟩
  | succ k ih =>
    unfold firstFrom
    by_cases hp : p n = true
    · rw [if_pos hp]
      refine ⟨fun h => (nomatch h), fun h => ?_⟩
      rw [h n (Nat.le_refl _) (by omega)] at hp
      cases hp
    · rw [if_neg hp, ih]
      have hn : p n = false := by simpa using hp
      refine ⟨fun h i a b => ?_, fun h i a b => h i (by omega) (by omega)⟩
      rcases Nat.lt_or_eq_of_le a with g | g
      · exact h i g (by omega)
      · rw [← g, hn]

/-- The ring number given is below 4096, free, and the lowest free one. -/
theorem freeRing_eq_some {s : State} {n : Nat} :
    s.freeRing = some n ↔ n < 4096 ∧ s.ring? n = none ∧ ∀ k, k < n → s.ring? k ≠ none := by
  unfold State.freeRing
  rw [firstFrom_eq_some]
  simp [Option.isSome_iff_ne_none]

/-- The record number given is 1 to 65535, not live, and the lowest such. -/
theorem allocNumber_eq_some {s : State} {n : Nat} :
    s.allocNumber = some n ↔ 1 ≤ n ∧ n < 65536 ∧ (Assoc.get Alloc.none s.hb.allocs n).live = false ∧
      ∀ k, 1 ≤ k → k < n → (Assoc.get Alloc.none s.hb.allocs k).live = true := by
  unfold State.allocNumber
  rw [firstFrom_eq_some]
  simp

end Sys2Proof.Machine
end

