-- ==== Sys2Proof/Laws/Updates.lean ====
section
/-! SUPPORT. One lemma per field for the updates of one table, queue pair, ring, fence, redirect, Pulper or meter, for an answer kept
for the tunnel, and for a command taken from, or left in, the host ring. -/

namespace Sys2Proof.Machine

open Sys2Proof

@[simp] theorem setTable_pending (s : State) (t : Table) : (s.setTable t).pending = s.pending := rfl
@[simp] theorem setTable_cores (s : State) (t : Table) : (s.setTable t).cores = s.cores := rfl
@[simp] theorem setTable_mem (s : State) (t : Table) : (s.setTable t).mem = s.mem := rfl
@[simp] theorem setTable_ports (s : State) (t : Table) : (s.setTable t).ports = s.ports := rfl
@[simp] theorem setTable_units (s : State) (t : Table) : (s.setTable t).units = s.units := rfl
@[simp] theorem setTable_pulpers (s : State) (t : Table) : (s.setTable t).pulpers = s.pulpers := rfl
@[simp] theorem setTable_hb (s : State) (t : Table) : (s.setTable t).hb = s.hb := rfl
@[simp] theorem setTable_wm (s : State) (t : Table) : (s.setTable t).wm = s.wm := rfl
@[simp] theorem setTable_slurry (s : State) (t : Table) : (s.setTable t).slurry = s.slurry := rfl
@[simp] theorem setTable_fab (s : State) (t : Table) : (s.setTable t).fab = s.fab := rfl
@[simp] theorem setTable_twin (s : State) (t : Table) : (s.setTable t).twin = s.twin := rfl
@[simp] theorem setTable_dict (s : State) (t : Table) : (s.setTable t).dict = s.dict := rfl
@[simp] theorem setTable_straps (s : State) (t : Table) : (s.setTable t).straps = s.straps := rfl
@[simp] theorem setTable_pins (s : State) (t : Table) : (s.setTable t).pins = s.pins := rfl
@[simp] theorem setTable_rst (s : State) (t : Table) : (s.setTable t).rst = s.rst := rfl
@[simp] theorem setTable_pow (s : State) (t : Table) : (s.setTable t).pow = s.pow := rfl
@[simp] theorem setTable_meter (s : State) (t : Table) : (s.setTable t).meter = s.meter := rfl
@[simp] theorem setTable_sec (s : State) (t : Table) : (s.setTable t).sec = s.sec := rfl
@[simp] theorem setTable_host (s : State) (t : Table) : (s.setTable t).host = s.host := rfl
@[simp] theorem setTable_tick (s : State) (t : Table) : (s.setTable t).tick = s.tick := rfl
@[simp] theorem setTable_sent (s : State) (t : Table) : (s.setTable t).sent = s.sent := rfl
@[simp] theorem setTable_free (s : State) (t : Table) : (s.setTable t).free = s.free := rfl
@[simp] theorem setQp_pending (s : State) (q : Qp) : (s.setQp q).pending = s.pending := rfl
@[simp] theorem setQp_cores (s : State) (q : Qp) : (s.setQp q).cores = s.cores := rfl
@[simp] theorem setQp_mem (s : State) (q : Qp) : (s.setQp q).mem = s.mem := rfl
@[simp] theorem setQp_ports (s : State) (q : Qp) : (s.setQp q).ports = s.ports := rfl
@[simp] theorem setQp_units (s : State) (q : Qp) : (s.setQp q).units = s.units := rfl
@[simp] theorem setQp_pulpers (s : State) (q : Qp) : (s.setQp q).pulpers = s.pulpers := rfl
@[simp] theorem setQp_hb (s : State) (q : Qp) : (s.setQp q).hb = s.hb := rfl
@[simp] theorem setQp_felt (s : State) (q : Qp) : (s.setQp q).felt = s.felt := rfl
@[simp] theorem setQp_wm (s : State) (q : Qp) : (s.setQp q).wm = s.wm := rfl
@[simp] theorem setQp_slurry (s : State) (q : Qp) : (s.setQp q).slurry = s.slurry := rfl
@[simp] theorem setQp_twin (s : State) (q : Qp) : (s.setQp q).twin = s.twin := rfl
@[simp] theorem setQp_dict (s : State) (q : Qp) : (s.setQp q).dict = s.dict := rfl
@[simp] theorem setQp_straps (s : State) (q : Qp) : (s.setQp q).straps = s.straps := rfl
@[simp] theorem setQp_pins (s : State) (q : Qp) : (s.setQp q).pins = s.pins := rfl
@[simp] theorem setQp_rst (s : State) (q : Qp) : (s.setQp q).rst = s.rst := rfl
@[simp] theorem setQp_pow (s : State) (q : Qp) : (s.setQp q).pow = s.pow := rfl
@[simp] theorem setQp_meter (s : State) (q : Qp) : (s.setQp q).meter = s.meter := rfl
@[simp] theorem setQp_sec (s : State) (q : Qp) : (s.setQp q).sec = s.sec := rfl
@[simp] theorem setQp_host (s : State) (q : Qp) : (s.setQp q).host = s.host := rfl
@[simp] theorem setQp_tick (s : State) (q : Qp) : (s.setQp q).tick = s.tick := rfl
@[simp] theorem setQp_sent (s : State) (q : Qp) : (s.setQp q).sent = s.sent := rfl
@[simp] theorem setQp_free (s : State) (q : Qp) : (s.setQp q).free = s.free := rfl
@[simp] theorem setMeter_pending (s : State) (m : Meter) : (s.setMeter m).pending = s.pending := rfl
@[simp] theorem setMeter_cores (s : State) (m : Meter) : (s.setMeter m).cores = s.cores := rfl
@[simp] theorem setMeter_mem (s : State) (m : Meter) : (s.setMeter m).mem = s.mem := rfl
@[simp] theorem setMeter_ports (s : State) (m : Meter) : (s.setMeter m).ports = s.ports := rfl
@[simp] theorem setMeter_units (s : State) (m : Meter) : (s.setMeter m).units = s.units := rfl
@[simp] theorem setMeter_pulpers (s : State) (m : Meter) : (s.setMeter m).pulpers = s.pulpers := rfl
@[simp] theorem setMeter_hb (s : State) (m : Meter) : (s.setMeter m).hb = s.hb := rfl
@[simp] theorem setMeter_felt (s : State) (m : Meter) : (s.setMeter m).felt = s.felt := rfl
@[simp] theorem setMeter_wm (s : State) (m : Meter) : (s.setMeter m).wm = s.wm := rfl
@[simp] theorem setMeter_slurry (s : State) (m : Meter) : (s.setMeter m).slurry = s.slurry := rfl
@[simp] theorem setMeter_fab (s : State) (m : Meter) : (s.setMeter m).fab = s.fab := rfl
@[simp] theorem setMeter_twin (s : State) (m : Meter) : (s.setMeter m).twin = s.twin := rfl
@[simp] theorem setMeter_dict (s : State) (m : Meter) : (s.setMeter m).dict = s.dict := rfl
@[simp] theorem setMeter_straps (s : State) (m : Meter) : (s.setMeter m).straps = s.straps := rfl
@[simp] theorem setMeter_pins (s : State) (m : Meter) : (s.setMeter m).pins = s.pins := rfl
@[simp] theorem setMeter_rst (s : State) (m : Meter) : (s.setMeter m).rst = s.rst := rfl
@[simp] theorem setMeter_pow (s : State) (m : Meter) : (s.setMeter m).pow = s.pow := rfl
@[simp] theorem setMeter_sec (s : State) (m : Meter) : (s.setMeter m).sec = s.sec := rfl
@[simp] theorem setMeter_host (s : State) (m : Meter) : (s.setMeter m).host = s.host := rfl
@[simp] theorem setMeter_tick (s : State) (m : Meter) : (s.setMeter m).tick = s.tick := rfl
@[simp] theorem setMeter_sent (s : State) (m : Meter) : (s.setMeter m).sent = s.sent := rfl
@[simp] theorem setMeter_free (s : State) (m : Meter) : (s.setMeter m).free = s.free := rfl
@[simp] theorem setRing_pending (s : State) (r : Ring) : (s.setRing r).pending = s.pending := rfl
@[simp] theorem setRing_cores (s : State) (r : Ring) : (s.setRing r).cores = s.cores := rfl
@[simp] theorem setRing_mem (s : State) (r : Ring) : (s.setRing r).mem = s.mem := rfl
@[simp] theorem setRing_ports (s : State) (r : Ring) : (s.setRing r).ports = s.ports := rfl
@[simp] theorem setRing_units (s : State) (r : Ring) : (s.setRing r).units = s.units := rfl
@[simp] theorem setRing_pulpers (s : State) (r : Ring) : (s.setRing r).pulpers = s.pulpers := rfl
@[simp] theorem setRing_felt (s : State) (r : Ring) : (s.setRing r).felt = s.felt := rfl
@[simp] theorem setRing_wm (s : State) (r : Ring) : (s.setRing r).wm = s.wm := rfl
@[simp] theorem setRing_slurry (s : State) (r : Ring) : (s.setRing r).slurry = s.slurry := rfl
@[simp] theorem setRing_fab (s : State) (r : Ring) : (s.setRing r).fab = s.fab := rfl
@[simp] theorem setRing_twin (s : State) (r : Ring) : (s.setRing r).twin = s.twin := rfl
@[simp] theorem setRing_dict (s : State) (r : Ring) : (s.setRing r).dict = s.dict := rfl
@[simp] theorem setRing_straps (s : State) (r : Ring) : (s.setRing r).straps = s.straps := rfl
@[simp] theorem setRing_pins (s : State) (r : Ring) : (s.setRing r).pins = s.pins := rfl
@[simp] theorem setRing_rst (s : State) (r : Ring) : (s.setRing r).rst = s.rst := rfl
@[simp] theorem setRing_pow (s : State) (r : Ring) : (s.setRing r).pow = s.pow := rfl
@[simp] theorem setRing_meter (s : State) (r : Ring) : (s.setRing r).meter = s.meter := rfl
@[simp] theorem setRing_sec (s : State) (r : Ring) : (s.setRing r).sec = s.sec := rfl
@[simp] theorem setRing_host (s : State) (r : Ring) : (s.setRing r).host = s.host := rfl
@[simp] theorem setRing_tick (s : State) (r : Ring) : (s.setRing r).tick = s.tick := rfl
@[simp] theorem setRing_sent (s : State) (r : Ring) : (s.setRing r).sent = s.sent := rfl
@[simp] theorem setRing_free (s : State) (r : Ring) : (s.setRing r).free = s.free := rfl
@[simp] theorem setFence_pending (s : State) (f : Fence) : (s.setFence f).pending = s.pending := rfl
@[simp] theorem setFence_cores (s : State) (f : Fence) : (s.setFence f).cores = s.cores := rfl
@[simp] theorem setFence_mem (s : State) (f : Fence) : (s.setFence f).mem = s.mem := rfl
@[simp] theorem setFence_ports (s : State) (f : Fence) : (s.setFence f).ports = s.ports := rfl
@[simp] theorem setFence_units (s : State) (f : Fence) : (s.setFence f).units = s.units := rfl
@[simp] theorem setFence_pulpers (s : State) (f : Fence) : (s.setFence f).pulpers = s.pulpers := rfl
@[simp] theorem setFence_hb (s : State) (f : Fence) : (s.setFence f).hb = s.hb := rfl
@[simp] theorem setFence_felt (s : State) (f : Fence) : (s.setFence f).felt = s.felt := rfl
@[simp] theorem setFence_wm (s : State) (f : Fence) : (s.setFence f).wm = s.wm := rfl
@[simp] theorem setFence_slurry (s : State) (f : Fence) : (s.setFence f).slurry = s.slurry := rfl
@[simp] theorem setFence_fab (s : State) (f : Fence) : (s.setFence f).fab = s.fab := rfl
@[simp] theorem setFence_dict (s : State) (f : Fence) : (s.setFence f).dict = s.dict := rfl
@[simp] theorem setFence_straps (s : State) (f : Fence) : (s.setFence f).straps = s.straps := rfl
@[simp] theorem setFence_pins (s : State) (f : Fence) : (s.setFence f).pins = s.pins := rfl
@[simp] theorem setFence_rst (s : State) (f : Fence) : (s.setFence f).rst = s.rst := rfl
@[simp] theorem setFence_pow (s : State) (f : Fence) : (s.setFence f).pow = s.pow := rfl
@[simp] theorem setFence_meter (s : State) (f : Fence) : (s.setFence f).meter = s.meter := rfl
@[simp] theorem setFence_sec (s : State) (f : Fence) : (s.setFence f).sec = s.sec := rfl
@[simp] theorem setFence_host (s : State) (f : Fence) : (s.setFence f).host = s.host := rfl
@[simp] theorem setFence_tick (s : State) (f : Fence) : (s.setFence f).tick = s.tick := rfl
@[simp] theorem setFence_sent (s : State) (f : Fence) : (s.setFence f).sent = s.sent := rfl
@[simp] theorem setFence_free (s : State) (f : Fence) : (s.setFence f).free = s.free := rfl
@[simp] theorem setRedirect_pending (s : State) (r : Redirect) : (s.setRedirect r).pending = s.pending := rfl
@[simp] theorem setRedirect_cores (s : State) (r : Redirect) : (s.setRedirect r).cores = s.cores := rfl
@[simp] theorem setRedirect_mem (s : State) (r : Redirect) : (s.setRedirect r).mem = s.mem := rfl
@[simp] theorem setRedirect_ports (s : State) (r : Redirect) : (s.setRedirect r).ports = s.ports := rfl
@[simp] theorem setRedirect_units (s : State) (r : Redirect) : (s.setRedirect r).units = s.units := rfl
@[simp] theorem setRedirect_pulpers (s : State) (r : Redirect) : (s.setRedirect r).pulpers = s.pulpers := rfl
@[simp] theorem setRedirect_hb (s : State) (r : Redirect) : (s.setRedirect r).hb = s.hb := rfl
@[simp] theorem setRedirect_wm (s : State) (r : Redirect) : (s.setRedirect r).wm = s.wm := rfl
@[simp] theorem setRedirect_slurry (s : State) (r : Redirect) : (s.setRedirect r).slurry = s.slurry := rfl
@[simp] theorem setRedirect_fab (s : State) (r : Redirect) : (s.setRedirect r).fab = s.fab := rfl
@[simp] theorem setRedirect_twin (s : State) (r : Redirect) : (s.setRedirect r).twin = s.twin := rfl
@[simp] theorem setRedirect_dict (s : State) (r : Redirect) : (s.setRedirect r).dict = s.dict := rfl
@[simp] theorem setRedirect_straps (s : State) (r : Redirect) : (s.setRedirect r).straps = s.straps := rfl
@[simp] theorem setRedirect_pins (s : State) (r : Redirect) : (s.setRedirect r).pins = s.pins := rfl
@[simp] theorem setRedirect_rst (s : State) (r : Redirect) : (s.setRedirect r).rst = s.rst := rfl
@[simp] theorem setRedirect_pow (s : State) (r : Redirect) : (s.setRedirect r).pow = s.pow := rfl
@[simp] theorem setRedirect_meter (s : State) (r : Redirect) : (s.setRedirect r).meter = s.meter := rfl
@[simp] theorem setRedirect_sec (s : State) (r : Redirect) : (s.setRedirect r).sec = s.sec := rfl
@[simp] theorem setRedirect_host (s : State) (r : Redirect) : (s.setRedirect r).host = s.host := rfl
@[simp] theorem setRedirect_tick (s : State) (r : Redirect) : (s.setRedirect r).tick = s.tick := rfl
@[simp] theorem setRedirect_sent (s : State) (r : Redirect) : (s.setRedirect r).sent = s.sent := rfl
@[simp] theorem setRedirect_free (s : State) (r : Redirect) : (s.setRedirect r).free = s.free := rfl
@[simp] theorem keepAnswer_pending (s : State) (r : TunnelReq) (st : BitVec 16) (d : Bytes) : (s.keepAnswer r st d).pending = s.pending := rfl
@[simp] theorem keepAnswer_cores (s : State) (r : TunnelReq) (st : BitVec 16) (d : Bytes) : (s.keepAnswer r st d).cores = s.cores := rfl
@[simp] theorem keepAnswer_mem (s : State) (r : TunnelReq) (st : BitVec 16) (d : Bytes) : (s.keepAnswer r st d).mem = s.mem := rfl
@[simp] theorem keepAnswer_ports (s : State) (r : TunnelReq) (st : BitVec 16) (d : Bytes) : (s.keepAnswer r st d).ports = s.ports := rfl
@[simp] theorem keepAnswer_units (s : State) (r : TunnelReq) (st : BitVec 16) (d : Bytes) : (s.keepAnswer r st d).units = s.units := rfl
@[simp] theorem keepAnswer_pulpers (s : State) (r : TunnelReq) (st : BitVec 16) (d : Bytes) : (s.keepAnswer r st d).pulpers = s.pulpers := rfl
@[simp] theorem keepAnswer_hb (s : State) (r : TunnelReq) (st : BitVec 16) (d : Bytes) : (s.keepAnswer r st d).hb = s.hb := rfl
@[simp] theorem keepAnswer_felt (s : State) (r : TunnelReq) (st : BitVec 16) (d : Bytes) : (s.keepAnswer r st d).felt = s.felt := rfl
@[simp] theorem keepAnswer_wm (s : State) (r : TunnelReq) (st : BitVec 16) (d : Bytes) : (s.keepAnswer r st d).wm = s.wm := rfl
@[simp] theorem keepAnswer_slurry (s : State) (r : TunnelReq) (st : BitVec 16) (d : Bytes) : (s.keepAnswer r st d).slurry = s.slurry := rfl
@[simp] theorem keepAnswer_twin (s : State) (r : TunnelReq) (st : BitVec 16) (d : Bytes) : (s.keepAnswer r st d).twin = s.twin := rfl
@[simp] theorem keepAnswer_dict (s : State) (r : TunnelReq) (st : BitVec 16) (d : Bytes) : (s.keepAnswer r st d).dict = s.dict := rfl
@[simp] theorem keepAnswer_straps (s : State) (r : TunnelReq) (st : BitVec 16) (d : Bytes) : (s.keepAnswer r st d).straps = s.straps := rfl
@[simp] theorem keepAnswer_pins (s : State) (r : TunnelReq) (st : BitVec 16) (d : Bytes) : (s.keepAnswer r st d).pins = s.pins := rfl
@[simp] theorem keepAnswer_rst (s : State) (r : TunnelReq) (st : BitVec 16) (d : Bytes) : (s.keepAnswer r st d).rst = s.rst := rfl
@[simp] theorem keepAnswer_pow (s : State) (r : TunnelReq) (st : BitVec 16) (d : Bytes) : (s.keepAnswer r st d).pow = s.pow := rfl
@[simp] theorem keepAnswer_meter (s : State) (r : TunnelReq) (st : BitVec 16) (d : Bytes) : (s.keepAnswer r st d).meter = s.meter := rfl
@[simp] theorem keepAnswer_sec (s : State) (r : TunnelReq) (st : BitVec 16) (d : Bytes) : (s.keepAnswer r st d).sec = s.sec := rfl
@[simp] theorem keepAnswer_host (s : State) (r : TunnelReq) (st : BitVec 16) (d : Bytes) : (s.keepAnswer r st d).host = s.host := rfl
@[simp] theorem keepAnswer_tick (s : State) (r : TunnelReq) (st : BitVec 16) (d : Bytes) : (s.keepAnswer r st d).tick = s.tick := rfl
@[simp] theorem keepAnswer_sent (s : State) (r : TunnelReq) (st : BitVec 16) (d : Bytes) : (s.keepAnswer r st d).sent = s.sent := rfl
@[simp] theorem keepAnswer_free (s : State) (r : TunnelReq) (st : BitVec 16) (d : Bytes) : (s.keepAnswer r st d).free = s.free := rfl
@[simp] theorem cmdTaken_pending (s : State) : (s.cmdTaken).pending = s.pending := rfl
@[simp] theorem cmdTaken_cores (s : State) : (s.cmdTaken).cores = s.cores := rfl
@[simp] theorem cmdTaken_mem (s : State) : (s.cmdTaken).mem = s.mem := rfl
@[simp] theorem cmdTaken_ports (s : State) : (s.cmdTaken).ports = s.ports := rfl
@[simp] theorem cmdTaken_units (s : State) : (s.cmdTaken).units = s.units := rfl
@[simp] theorem cmdTaken_pulpers (s : State) : (s.cmdTaken).pulpers = s.pulpers := rfl
@[simp] theorem cmdTaken_hb (s : State) : (s.cmdTaken).hb = s.hb := rfl
@[simp] theorem cmdTaken_felt (s : State) : (s.cmdTaken).felt = s.felt := rfl
@[simp] theorem cmdTaken_wm (s : State) : (s.cmdTaken).wm = s.wm := rfl
@[simp] theorem cmdTaken_slurry (s : State) : (s.cmdTaken).slurry = s.slurry := rfl
@[simp] theorem cmdTaken_fab (s : State) : (s.cmdTaken).fab = s.fab := rfl
@[simp] theorem cmdTaken_twin (s : State) : (s.cmdTaken).twin = s.twin := rfl
@[simp] theorem cmdTaken_dict (s : State) : (s.cmdTaken).dict = s.dict := rfl
@[simp] theorem cmdTaken_straps (s : State) : (s.cmdTaken).straps = s.straps := rfl
@[simp] theorem cmdTaken_pins (s : State) : (s.cmdTaken).pins = s.pins := rfl
@[simp] theorem cmdTaken_rst (s : State) : (s.cmdTaken).rst = s.rst := rfl
@[simp] theorem cmdTaken_pow (s : State) : (s.cmdTaken).pow = s.pow := rfl
@[simp] theorem cmdTaken_meter (s : State) : (s.cmdTaken).meter = s.meter := rfl
@[simp] theorem cmdTaken_sec (s : State) : (s.cmdTaken).sec = s.sec := rfl
@[simp] theorem cmdTaken_tick (s : State) : (s.cmdTaken).tick = s.tick := rfl
@[simp] theorem cmdTaken_sent (s : State) : (s.cmdTaken).sent = s.sent := rfl
@[simp] theorem cmdTaken_free (s : State) : (s.cmdTaken).free = s.free := rfl
@[simp] theorem ringWait_pending (s : State) (c : Instr) : (s.ringWait c).pending = s.pending := rfl
@[simp] theorem ringWait_cores (s : State) (c : Instr) : (s.ringWait c).cores = s.cores := rfl
@[simp] theorem ringWait_mem (s : State) (c : Instr) : (s.ringWait c).mem = s.mem := rfl
@[simp] theorem ringWait_ports (s : State) (c : Instr) : (s.ringWait c).ports = s.ports := rfl
@[simp] theorem ringWait_units (s : State) (c : Instr) : (s.ringWait c).units = s.units := rfl
@[simp] theorem ringWait_pulpers (s : State) (c : Instr) : (s.ringWait c).pulpers = s.pulpers := rfl
@[simp] theorem ringWait_hb (s : State) (c : Instr) : (s.ringWait c).hb = s.hb := rfl
@[simp] theorem ringWait_felt (s : State) (c : Instr) : (s.ringWait c).felt = s.felt := rfl
@[simp] theorem ringWait_wm (s : State) (c : Instr) : (s.ringWait c).wm = s.wm := rfl
@[simp] theorem ringWait_slurry (s : State) (c : Instr) : (s.ringWait c).slurry = s.slurry := rfl
@[simp] theorem ringWait_fab (s : State) (c : Instr) : (s.ringWait c).fab = s.fab := rfl
@[simp] theorem ringWait_twin (s : State) (c : Instr) : (s.ringWait c).twin = s.twin := rfl
@[simp] theorem ringWait_dict (s : State) (c : Instr) : (s.ringWait c).dict = s.dict := rfl
@[simp] theorem ringWait_straps (s : State) (c : Instr) : (s.ringWait c).straps = s.straps := rfl
@[simp] theorem ringWait_pins (s : State) (c : Instr) : (s.ringWait c).pins = s.pins := rfl
@[simp] theorem ringWait_rst (s : State) (c : Instr) : (s.ringWait c).rst = s.rst := rfl
@[simp] theorem ringWait_pow (s : State) (c : Instr) : (s.ringWait c).pow = s.pow := rfl
@[simp] theorem ringWait_meter (s : State) (c : Instr) : (s.ringWait c).meter = s.meter := rfl
@[simp] theorem ringWait_sec (s : State) (c : Instr) : (s.ringWait c).sec = s.sec := rfl
@[simp] theorem ringWait_tick (s : State) (c : Instr) : (s.ringWait c).tick = s.tick := rfl
@[simp] theorem ringWait_sent (s : State) (c : Instr) : (s.ringWait c).sent = s.sent := rfl
@[simp] theorem ringWait_free (s : State) (c : Instr) : (s.ringWait c).free = s.free := rfl
@[simp] theorem setPulper_pending (s : State) (d : BitVec 2) (p : Pulper) : (s.setPulper d p).pending = s.pending := rfl
@[simp] theorem setPulper_cores (s : State) (d : BitVec 2) (p : Pulper) : (s.setPulper d p).cores = s.cores := rfl
@[simp] theorem setPulper_mem (s : State) (d : BitVec 2) (p : Pulper) : (s.setPulper d p).mem = s.mem := rfl
@[simp] theorem setPulper_ports (s : State) (d : BitVec 2) (p : Pulper) : (s.setPulper d p).ports = s.ports := rfl
@[simp] theorem setPulper_units (s : State) (d : BitVec 2) (p : Pulper) : (s.setPulper d p).units = s.units := rfl
@[simp] theorem setPulper_hb (s : State) (d : BitVec 2) (p : Pulper) : (s.setPulper d p).hb = s.hb := rfl
@[simp] theorem setPulper_felt (s : State) (d : BitVec 2) (p : Pulper) : (s.setPulper d p).felt = s.felt := rfl
@[simp] theorem setPulper_wm (s : State) (d : BitVec 2) (p : Pulper) : (s.setPulper d p).wm = s.wm := rfl
@[simp] theorem setPulper_slurry (s : State) (d : BitVec 2) (p : Pulper) : (s.setPulper d p).slurry = s.slurry := rfl
@[simp] theorem setPulper_fab (s : State) (d : BitVec 2) (p : Pulper) : (s.setPulper d p).fab = s.fab := rfl
@[simp] theorem setPulper_twin (s : State) (d : BitVec 2) (p : Pulper) : (s.setPulper d p).twin = s.twin := rfl
@[simp] theorem setPulper_dict (s : State) (d : BitVec 2) (p : Pulper) : (s.setPulper d p).dict = s.dict := rfl
@[simp] theorem setPulper_straps (s : State) (d : BitVec 2) (p : Pulper) : (s.setPulper d p).straps = s.straps := rfl
@[simp] theorem setPulper_pins (s : State) (d : BitVec 2) (p : Pulper) : (s.setPulper d p).pins = s.pins := rfl
@[simp] theorem setPulper_rst (s : State) (d : BitVec 2) (p : Pulper) : (s.setPulper d p).rst = s.rst := rfl
@[simp] theorem setPulper_pow (s : State) (d : BitVec 2) (p : Pulper) : (s.setPulper d p).pow = s.pow := rfl
@[simp] theorem setPulper_meter (s : State) (d : BitVec 2) (p : Pulper) : (s.setPulper d p).meter = s.meter := rfl
@[simp] theorem setPulper_sec (s : State) (d : BitVec 2) (p : Pulper) : (s.setPulper d p).sec = s.sec := rfl
@[simp] theorem setPulper_host (s : State) (d : BitVec 2) (p : Pulper) : (s.setPulper d p).host = s.host := rfl
@[simp] theorem setPulper_tick (s : State) (d : BitVec 2) (p : Pulper) : (s.setPulper d p).tick = s.tick := rfl
@[simp] theorem setPulper_sent (s : State) (d : BitVec 2) (p : Pulper) : (s.setPulper d p).sent = s.sent := rfl
@[simp] theorem setPulper_free (s : State) (d : BitVec 2) (p : Pulper) : (s.setPulper d p).free = s.free := rfl

end Sys2Proof.Machine
end

