-- ==== Sys2Proof/Tests/Slice0.lean ====
section
/-! SUPPORT. Tests: ill-formed terms the checks refuse, words of the spec's examples, single steps, and for every
obligation with hypotheses a concrete state and operands that meet them (clause by clause, at the bounds of its ranges). -/

namespace Sys2Proof.Tests

open Sys2Proof Sys2Proof.Machine

set_option Elab.async false

/-! ### States the tests share -/

/-- In service, PUSH, the Couch link up, nothing loaded. -/
def up : State :=
  { State.reset with
    rst := { Reset.reset with boot := .ready }
    hb := { Headbox.reset with pull := false }
    twin := { Twin.reset with couchUp := true } }

def c0 : CoreId := { vat := 0, core := 0 }
def itemCore : Core := { Core.reset with active := true, item := some { flow := 1, seq := 0 }, itemClass := 1 }
def fwCore : Core := { Core.reset with active := true, firmware := true }
def withCore (k : Core) : State := { up with cores := [(0, k)] }
/-- Three NOPs. -/
def w0 : Companions := { o1 := 0, o2 := 0, o3 := 0 }
def noEffects : List Effect := [{}, {}, {}]

theorem others (own : Nat) (ds : List Dest) (s : State) (hc : Commits s c0) (hd : (ds.filter (· ≠ .x 0)).Nodup) :
    OthersRun own ds c0 w0 s noEffects := by
  have r0 : SlotRuns s c0 (slotMeaning0 0) {} := ⟨rfl, fun h => (by cases h), rfl, rfl⟩
  have r1 : SlotRuns s c0 (slotMeaning1 0) {} := ⟨rfl, fun h => (by cases h), rfl, rfl⟩
  have r2 : SlotRuns s c0 (slotMeaning2 0) {} := ⟨rfl, fun h => (by cases h), rfl, rfl⟩
  have r3 : SlotRuns s c0 (slotMeaning3 0) {} := ⟨rfl, fun h => (by cases h), rfl, rfl⟩
  match own with
  | 0 => exact ⟨hc, .cons r1 (.cons r2 (.cons r3 .nil)), hd⟩
  | 1 => exact ⟨hc, .cons r0 (.cons r2 (.cons r3 .nil)), hd⟩
  | 2 => exact ⟨hc, .cons r0 (.cons r1 (.cons r3 .nil)), hd⟩
  | _ + 3 => exact ⟨hc, .cons r0 (.cons r1 (.cons r2 .nil)), hd⟩

theorem itemCommits : Commits (withCore itemCore) c0 := ⟨rfl, rfl, rfl, by decide +kernel⟩
theorem fwCommits : Commits (withCore fwCore) c0 := ⟨rfl, rfl, rfl, by decide +kernel⟩

/-! A job of one BATCH flow of class B fed by a source, its item 0, and an allocation record. -/

def flow1 : FlowRec :=
  { flow := 1, cls := 1, stage := 0, trigger := 1, batch := true, items := 4, entry := 0, arg := 0, producer := 0, span := 2,
    outMax := 0, window := 4, dueBase := 1, dueStep := 1, lead := 0, stampDiv := 1, stampNum := 1, stampDen := 1 }
def run1 : FlowRun :=
  { decl := flow1, bpo := 8, stageMax := 2, next := 0, ahead := [], staged := [], released := 0, egressed := 0, ring := none,
    lastCore := none, arrivals := 0, rewrite := 0, stopped := false, shard := none }
def job7 : Job :=
  { job := 7, tag := 9, seed := 0, unordered := true, test := false, flows := [run1], allocs := [], codeBase := 0,
    argsBase := 0, argsBytes := 0, descs := [], descsBase := 0, hashes := [], filters := [], joins := [], exchanges := [], inputs := [], layouts := 0, tables := [], shares := [], modules := [0],
    stopped := none, finalSent := false }
def key1 : ItemKey := { flow := 1, seq := 0 }
def item1 : Item :=
  { key := key1, job := 7, cls := 1, grade := 0, gradeRev := 1, entry := 0, ptr := itemStoreBase, arg := itemStoreBase + 64,
    out := 0, outBytes := 0, outAlloc := 0, affinity := none, stampReel := 1, attempt := 0, counted := 0, last := false,
    reproducible := true, phase := .running, inputs := [], core := some c0, avoidDie := none, avoidCore := none,
    avoidVat := none, reply := .none, degraded := false, coreFailed := false, descs := [] }
def rec1 : Alloc := { base := itemStoreEnd, extent := 65536, tierB := false, rw := true, job := 7, gen := 0, live := true }
/-- A state with a core, the job, an item and the record. -/
def loaded (k : Core) (items : List Item) : State :=
  { withCore k with hb := { up.hb with jobs := [job7], items := items, allocs := [(1, rec1)] } }

/-! ### Tistra words -/

def sr (xd xs1 xs2 : BitVec 5) (imm : BitVec 10) : SR := { xd := xd, xs1 := xs1, xs2 := xs2, imm10 := imm }
def mx (rd rs1 rs2 : BitVec 5) (func : BitVec 11) : MX := { rd := rd, rs1 := rs1, rs2 := rs2, func := func }
def vr (etype : BitVec 4) (wd wa wb : BitVec 5) (mod : BitVec 3) : VR :=
  { etype := etype, wd := wd, wa := wa, wb := wb, mod := mod, zm := 0, pg := 0 }
def hi5 : BitVec 5 := 31

/-- ScalarResults: a word with NOPs beside it, destination X0 and X31; imm15 = 63 is the highest shift. -/
theorem witness_ScalarResults : OthersRun 0 [.x 0] c0 w0 (withCore itemCore) noEffects ∧
    OthersRun 0 [.x 31] c0 w0 (withCore itemCore) noEffects ∧ (sr 0 1 2 0).imm10 = 0 ∧ (sr 0 1 0 0).xs2 = 0 ∧
    (63 : BitVec 15).toNat < 64 :=
  ⟨others _ _ _ itemCommits (by decide), others _ _ _ itemCommits (by decide), rfl, rfl, by decide⟩

/-- BranchesAndJumps: P7 named, register fields zero, an aligned target in X1 (and X0, aligned too), CALL's X31. -/
theorem witness_BranchesAndJumps : OthersRun 0 [] c0 w0 (withCore itemCore) noEffects ∧
    OthersRun 0 [.x 31] c0 w0 (withCore itemCore) noEffects ∧ (7 : BitVec 5).toNat < 8 ∧
    (((withCore { itemCore with x := itemCore.x.set 1 0xFFFFFFFFFFFFFFF0 }).core c0).getX 1).toNat % 16 = 0 :=
  ⟨others _ _ _ itemCommits (by decide), others _ _ _ itemCommits (by decide), by decide, by decide +kernel⟩

/-- ControlRegisters: firmware mode for the firmware registers, item mode for the rest. -/
theorem witness_ControlRegisters : OthersRun 0 [.x 1] c0 w0 (withCore itemCore) noEffects ∧
    OthersRun 0 [.x 1] c0 w0 (withCore fwCore) noEffects ∧ OthersRun 0 [] c0 w0 (withCore fwCore) noEffects ∧
    ((withCore fwCore).core c0).firmware = true :=
  ⟨others _ _ _ itemCommits (by decide), others _ _ _ fwCommits (by decide), others _ _ _ fwCommits (by decide), rfl⟩

/-- WordControl: the empty slots; TRAP and ERET in firmware mode; DONE of an item with no ticket. -/
theorem witness_WordControl :
    (∀ own ≤ 3, OthersRun own [] c0 w0 (withCore itemCore) noEffects) ∧
    (Commits (withCore fwCore) c0 ∧ ((withCore fwCore).core c0).firmware = true ∧ ((withCore fwCore).core c0).handler = false ∧
      destsClash (wordSlots 0 (slotTrap (sr 0 0 0 1023)) w0) = false) ∧
    (((withCore itemCore).core c0).firmware = false ∧ ((withCore itemCore).core c0).item = some { flow := 1, seq := 0 } ∧
      ((withCore itemCore).core c0).preempted = none ∧ (∀ n, ((withCore itemCore).core c0).getT n = .free) ∧
      ∀ e ∈ noEffects, e.ticket = none) :=
  ⟨fun _ _ => others _ _ _ itemCommits (by decide), ⟨fwCommits, rfl, rfl, by decide +kernel⟩,
    ⟨rfl, rfl, rfl, by decide +kernel, by decide⟩⟩

/-- A word of MNOP whose slot 0 is `o1`. -/
def besideNop (o1 o3 : BitVec 32) : List Meaning := wordSlots 3 (slotMnop 0) { o1 := o1, o2 := 0, o3 := o3 }
def namedBy (ms : List Meaning) : List Dest := (ms.flatMap (·.dests)).filter (· ≠ .x 0)
/-- Table 2.10: a word that cannot be fetched, ADDI and VMOVX that both name X1, an opcode of no row, ERET in item mode, TRAP, and
TWAIT for a pending ticket. -/
theorem witness_WordControl_exceptions :
    (let s := withCore { itemCore with pc := 0xFFFF000000000000 }
     (s.core c0).active = true ∧ (s.core c0).finishing = none ∧ (s.core c0).runahead = false ∧ fetchFault s (s.core c0) = true) ∧
    (let s := withCore itemCore
     fetchFault s (s.core c0) = false ∧ ¬ (namedBy (besideNop 0x30100000 0x48020000)).Nodup ∧
     (namedBy (besideNop 0xFE000000 0)).Nodup ∧ (namedBy (besideNop 0x78000000 0)).Nodup ∧ (namedBy (besideNop 0x74000000 0)).Nodup ∧
     (slotMeaning0 0xFE000000).legal (s.core c0) = false ∧
     ((slotMeaning0 0x78000000).legal (s.core c0) = true ∧ (slotMeaning0 0x78000000).privileged = true ∧ (s.core c0).firmware = false)) ∧
    (SlotMay (withCore itemCore) c0 (slotMeaning0 0x74000000) ∧
     (∃ trap fa, (slotMeaning0 0x74000000).run (ctxOf (withCore itemCore) c0) = .error (.exc 0x010F trap fa))) ∧
    (let s := withCore { itemCore with tickets := itemCore.tickets.set 0 .pending }
     (namedBy (wordSlots 0 (slotNop0 0) { w0 with o3 := 0xA8000000 })).Nodup ∧
     SlotMay s c0 (slotMeaning3 0xA8000000) ∧ (slotMeaning3 0xA8000000).run (ctxOf s c0) = .error .wait ∧
     (∀ b ∈ (wordSlots 0 (slotNop0 0) w0).take 3, SlotMay s c0 b ∧ b.run (ctxOf s c0) = .ok {})) ∧
    (((withCore fwCore).core c0).firmware = true ∧ ((withCore fwCore).core c0).handler = false ∧
      ((withCore { fwCore with handler := true }).core c0).handler = true) ∧
    (let s := loaded itemCore [item1]
     (s.core c0).firmware = false ∧ (s.core c0).item = some key1 ∧ (s.core c0).preempted = none ∧ s.item? key1 = some item1 ∧
       item1.cls ≠ 0 ∧ s.job? item1.job = some job7 ∧ job7.stopped = none ∧ item1.counted < s.furn 0x300007 3) := by
  refine ⟨by decide +kernel, by decide +kernel, ⟨⟨rfl, fun h => (by cases h)⟩, _, _, rfl⟩,
    ⟨by decide, ⟨by decide, fun h => (by cases h)⟩, rfl, fun b hb => ?_⟩, by decide, by decide +kernel⟩
  have h : b = slotNop0 0 ∨ b = slotMeaning1 0 ∨ b = slotMeaning2 0 := by simpa [wordSlots, w0] using hb
  rcases h with rfl | rfl | rfl <;> exact ⟨⟨rfl, fun h => (by cases h)⟩, rfl⟩

/-- FloatVectors, IntegerAndLaneVectors, ConversionsAndPredicates: element types at the ends of their ranges. -/
theorem witness_FloatVectors : OthersRun 1 [.w 31] c0 w0 (withCore itemCore) noEffects ∧
    ∀ t ∈ [(8 : BitVec 4), 0xD], 8 ≤ (vr t 31 1 2 0).etype.toNat ∧ (vr t 31 1 2 0).etype.toNat ≤ 0xD ∧ (vr t 31 1 2 0).mod = 0 :=
  ⟨others _ _ _ itemCommits (by decide), by decide⟩

theorem witness_RoundedOnce :
    ((fmtOf 0x8).round 0 true 1 3).flags &&& flagOverflow = 0 ∧ ((fmtOf 0xD).round 3 false 1 (2 ^ 1080)).flags &&& flagOverflow = 0 := by
  decide +kernel

theorem witness_IntegerAndLaneVectors : OthersRun 1 [.w 0] c0 w0 (withCore itemCore) noEffects ∧
    OthersRun 2 [.w 31] c0 w0 (withCore itemCore) noEffects ∧ OthersRun 2 [.x 0] c0 w0 (withCore itemCore) noEffects ∧
    (∀ t ∈ [(0 : BitVec 4), 7], (vr t 31 1 0 0).etype.toNat < 8 ∧ (vr t 31 1 0 0).wb = 0) ∧
    (vr 0xD 31 1 0 0).etype.toNat ≤ 0xD ∧ (vr 0xD 31 1 0 0).zm = 0 :=
  ⟨others _ _ _ itemCommits (by decide), others _ _ _ itemCommits (by decide), others _ _ _ itemCommits (by decide), by decide,
    by decide, rfl⟩

/-- ConversionsAndPredicates: a widening part (mod 7 of INT8 to INT64), a mode (mod 4 of FP64 to FP32), P7 as source and
destination. -/
theorem witness_ConversionsAndPredicates : OthersRun 2 [.p 7] c0 w0 (withCore itemCore) noEffects ∧
    (512 / etypeBytes 6 < 512 / etypeBytes 0 ∧ 7 < 512 / etypeBytes 0 / (512 / etypeBytes 6)) ∧
    (512 / etypeBytes 0xD ≤ 512 / etypeBytes 0xC ∧ (4 : BitVec 3).toNat < 5) ∧
    (0x9 : BitVec 4).toNat ∈ [0x0, 0x1, 0x8, 0x9] ∧ (vr 0xD 7 7 7 6).mod ≠ 7 ∧ (vr 0xD 7 7 7 6).wd.toNat < 8 ∧
    (vr 0xD 7 7 7 0).wa.toNat < 8 ∧ (vr 0xD 7 7 7 0).wb.toNat < 8 :=
  ⟨others _ _ _ itemCommits (by decide), by decide, by decide, by decide, by decide, by decide, by decide, by decide⟩

/-- Values of FP32 and FP8 encodings, an infinity and a NaN. -/
theorem witness_ConversionsAndPredicates_values :
    (∃ q, (fmtOf 0xC).Value 0x3F800000 q) ∧ (∃ q, (fmtOf 0x8).Value 0x38 q) ∧ (∃ x, (fmtOf 0xC).Extended 0x7F800000 x) ∧
    ((fmtOf 0xD).decode 0x7FF8000000000000).isNan = true ∧ ((fmtOf 0xC).decode 0x7F800001).isSnan = true ∧
    (0x3F800000 < 2 ^ (8 * etypeBytes 0xC)) :=
  ⟨⟨_, _, _, _, rfl, rfl⟩, ⟨_, _, _, _, rfl, rfl⟩, ⟨⊤, .inr (.inl ⟨rfl, rfl⟩)⟩, by decide +kernel, by decide +kernel, by decide⟩

/-- ExactAccumulation: every element active and zero, E1 as destination. -/
theorem witness_ExactAccumulation : OthersRun 1 [.e 1] c0 w0 (withCore itemCore) noEffects ∧
    (vr 0xC 1 1 0 0).wd.toNat < 2 ∧
    (∀ i ∈ (List.range (512 / 4)).filter (fun i => ((withCore { itemCore with p := itemCore.p.set 0 1 }).core c0 |>.getP 0).getLsbD (i * 4)),
      exactInput 0xC (lane 4 (((withCore itemCore).core c0).getW 1) i) = some 0 ∧
      exactSquare 0xC (lane 4 (((withCore itemCore).core c0).getW 1) i) = some 0) ∧
    (∀ j, j < 16 → laneFits (2 ^ 575 - 1) = true ∧ laneFits 0 = true) :=
  ⟨others _ _ _ itemCommits (by decide), by decide, by decide +kernel, by decide +kernel⟩

/-- SelectionAndHashes: K at 1 and at 64, both orders. -/
theorem witness_SelectionAndHashes : OthersRun 2 [.w 31] c0 w0 (withCore { itemCore with topkK := 64 }) noEffects ∧
    (∀ n ∈ [1, 64], 1 ≤ ((withCore { itemCore with topkK := BitVec.ofNat 7 n }).core c0).topkK.toNat ∧
      ((withCore { itemCore with topkK := BitVec.ofNat 7 n }).core c0).topkK.toNat ≤ 64) ∧ (vr 0xC 31 1 2 1).mod.toNat < 2 ∧
    (vr 7 31 1 2 2).etype.toNat ∈ [0x4, 0x5, 0x6, 0x7] :=
  ⟨others _ _ _ ⟨rfl, rfl, rfl, by decide +kernel⟩ (by decide), by decide +kernel, by decide, by decide⟩

/-! ### Memory, streams, tickets -/

/-- X1 at the last 1,152 bytes of tier A, aligned. -/
def atEnd (k : Core) : Core := { k with x := k.x.set 1 (BitVec.ofNat 64 (tierAEnd - 1152)), p := k.p.set 0 (BitVec.allOnes 512) }

theorem witness_Loads : OthersRun 3 [.x 0] c0 w0 (withCore (atEnd itemCore)) noEffects ∧
    (let s := withCore (atEnd itemCore)
     let a := ((s.core c0).getX 1).toNat
     (∀ n ∈ [1, 2, 4, 8, 64, 512], AccessOk s (a + 1152 - n) n (if n = 512 then 64 else n) ∧
       (ctxOf s c0).poisoned (a + 1152 - n) n = false) ∧
     AccessOk s a 1152 64 ∧ (ctxOf s c0).poisoned a 1152 = false ∧ (1 : BitVec 5).toNat < 2 ∧ (7 : BitVec 5).toNat < 8) ∧
    (let s := withCore (atEnd itemCore)
     let f : MX := mx 2 1 0 0x200
     f.func.toNat / 128 ≤ 0xD ∧ f.func.toNat % 4 = 0 ∧
     ∀ i, i < 512 / 4 → ((s.core c0).getP 0).getLsbD (i * 4) = true →
       let a := (BitVec.ofInt 64 (((s.core c0).getX 1).toNat + (BitVec.ofNat 32 (lane 4 ((s.core c0).getW 0) i)).toInt * 1)).toNat
       AccessOk s a 4 4 ∧ (ctxOf s c0).poisoned a 4 = false) :=
  ⟨others _ _ _ ⟨rfl, rfl, rfl, by decide +kernel⟩ (by decide), by unfold AccessOk; decide +kernel, by
    unfold AccessOk; decide +kernel⟩

theorem witness_Stores : OthersRun 3 [] c0 w0 (withCore (atEnd itemCore)) noEffects ∧
    (let s := withCore (atEnd itemCore)
     let a := ((s.core c0).getX 1).toNat
     (∀ n ∈ [1, 2, 4, 8, 64, 512, 1152], AccessOk s (a + 1152 - n) n (if n < 64 then n else 64) ∧ StoreOk s c0 (a + 1152 - n) n)) ∧
    StoreOk (withCore fwCore) c0 itemStoreBase 8 ∧
    (let s := withCore (atEnd itemCore)
     ∀ i ∈ (List.range (512 / 4)).filter (fun i => decide (i < 128) && ((s.core c0).getP 0).getLsbD (i * 4)),
       let a := (BitVec.ofInt 64 (((s.core c0).getX 1).toNat + (BitVec.ofNat 32 (lane 4 ((s.core c0).getW 0) i)).toInt * 1)).toNat
       AccessOk s a 4 4 ∧ StoreOk s c0 a 4) :=
  ⟨others _ _ _ ⟨rfl, rfl, rfl, by decide +kernel⟩ (by decide), by unfold AccessOk StoreOk; decide +kernel, .inl rfl, by
    unfold AccessOk StoreOk; decide +kernel⟩

/-- A writable byte vector of 600 elements in record 1, and the same with three bit-planes of INT4. -/
def vecImg : BitVec 512 := bytesToLine (leBytes 8 itemStoreEnd ++ leBytes 8 (600 + 2 ^ 32) ++ zeros 40 ++ [1, 0x09, 1, 0] ++ zeros 4)
def bitImg : BitVec 512 :=
  bytesToLine (leBytes 8 itemStoreEnd ++ leBytes 8 64 ++ leBytes 8 (4 + 8 * 2 ^ 32) ++ zeros 32 ++ [0x94, 0x09, 1, 0] ++ zeros 4)
def stream (img : BitVec 512) (write : Bool) (pos : BitVec 64) : Stream :=
  { desc := 0, pos := pos, allocBase := BitVec.ofNat 64 itemStoreEnd, allocExtent := 65536, bound := true, write := write,
    plane := 0, image := img, index := [], since := 0 }
def streaming (st : Stream) : State := loaded { atEnd itemCore with st := itemCore.st.set 2 st } [item1]
/-- The descriptor, marked, in the Vat's caches at address 0. -/
def described : State :=
  let s := loaded fwCore []
  { s with mem := { s.mem with l2 := [{ vat := 0, line := 0, dirty := true, data := s.marked vecImg 7, poison := false }] } }

theorem witness_Streams_bind :
    let s := described
    let img := bytesToLine (s.seen c0.vat 0 64)
    OthersRun 3 [] c0 w0 s noEffects ∧ ((s.core c0).getX 1).toNat = 0 ∧ AccessOk s 0 64 64 ∧
      (ctxOf s c0).poisoned 0 64 = false ∧ s.markGood img ((ctxOf s c0).job img) = true ∧ (descOf img).writable = true ∧
      (1 : BitVec 14).toNat < 2 := by
  have hmark : described.marked vecImg 7 = (loaded fwCore []).marked vecImg 7 := by
    have e : described.markOf vecImg 7 = (loaded fwCore []).markOf vecImg 7 := rfl
    unfold State.marked; rw [e]
  have hseen : described.seen c0.vat 0 64 = lineToBytes (described.marked vecImg 7) := by
    rw [hmark]
    exact seen_dirty (s := described) (n := 0)
      (l := { vat := 0, line := 0, dirty := true, data := (loaded fwCore []).marked vecImg 7, poison := false }) (List.find?_cons_of_pos rfl) rfl
  have himg : bytesToLine (described.seen c0.vat 0 64) = described.marked vecImg 7 := by
    rw [hseen, bytesToLine_lineToBytes]
  have hal : (descOf (described.marked vecImg 7)).alloc = 1 := (marked_alloc _ _ _).trans (by decide +kernel)
  have hwr : (descOf (described.marked vecImg 7)).writable = true := (marked_writable _ _ _).trans (by decide +kernel)
  have hjob : (ctxOf described c0).job (described.marked vecImg 7) = 7 := by
    exact (congrArg (fun n => (described.alloc n).job) hal).trans (by decide +kernel)
  refine ⟨others _ _ _ ⟨rfl, rfl, rfl, by decide +kernel⟩ (by decide), by decide +kernel, ?_, by decide +kernel, ?_, ?_, by decide⟩
  · unfold AccessOk; decide +kernel
  · rw [himg, hjob]; exact markGood_marked _ _ _ (by decide +kernel)
  · rw [himg]; exact hwr

/-- A bound read stream at its last elements, a write stream of bytes with just enough room, and one of bit-planes. -/
theorem witness_Streams_bytes :
    (let s := streaming (stream vecImg false 598)
     let st := (s.core c0).getS 2
     let d := descOf st.image
     d.esize = 1 ∧ d.ndim = 1 ∧ d.size 0 = 600 ∧ d.stride 0 = 1 ∧ d.planar = false ∧ (∀ x ∈ s.mem.stores, x.core = c0) ∧
     ∀ i, i < 2 → AccessOk s (d.addr + 598 + i) 1 1 ∧ (ctxOf s c0).poisoned (d.addr + 598 + i) 1 = false) ∧
    (let s := streaming (stream vecImg true 598)
     let d := descOf ((s.core c0).getS 2).image
     ∀ i, i < 2 → AccessOk s (d.addr + 598 + i) 1 1 ∧ StoreOk s c0 (d.addr + 598 + i) 1) := by
  unfold AccessOk StoreOk
  decide +kernel

theorem witness_Streams_use :
    OthersRun 3 [.w 0, .p 1] c0 w0 (streaming (stream vecImg false 598)) noEffects ∧
    (let s := streaming (stream vecImg false 598)
     let st := (s.core c0).getS 2
     st.bound = true ∧ st.write = false ∧ ((ctxOf s c0).streamRead st).stop.isNone = true ∧
     (descOf st.image).bytes = true ∧ (descOf st.image).gather = false) ∧
    (let s := streaming (stream vecImg true 598)
     let st := (s.core c0).getS 2
     st.bound = true ∧ st.write = true ∧ ∃ cells st' ls, (ctxOf s c0).streamWrite st (List.replicate 2 5) = .ok (.cells cells, st', ls)) ∧
    (let s := streaming (stream bitImg true 0)
     let st := (s.core c0).getS 2
     st.bound = true ∧ st.write = true ∧ ∃ bits st' ls, (ctxOf s c0).streamWrite st [1, 2] = .ok (.bits bits, st', ls)) := by
  refine ⟨others _ _ _ ⟨rfl, rfl, rfl, by decide +kernel⟩ (by decide), by decide +kernel, ⟨rfl, rfl, ?_⟩, ⟨rfl, rfl, ?_⟩⟩
  · have h : (match (ctxOf (streaming (stream vecImg true 598)) c0).streamWrite
        (((streaming (stream vecImg true 598)).core c0).getS 2) (List.replicate 2 5) with
        | .ok (.cells _, _, _) => true | _ => false) = true := by decide +kernel
    split at h
    · rename_i h'; exact ⟨_, _, _, h'⟩
    · cases h
  · have h : (match (ctxOf (streaming (stream bitImg true 0)) c0).streamWrite
        (((streaming (stream bitImg true 0)).core c0).getS 2) [1, 2] with
        | .ok (.bits _, _, _) => true | _ => false) = true := by decide +kernel
    split at h
    · rename_i h'; exact ⟨_, _, _, h'⟩
    · cases h

/-- AtomicOperations: a word at the end of tier A; UNORDERED_OK of the item's job. -/
theorem witness_AtomicOperations :
    let s := loaded (atEnd itemCore) [item1]
    OthersRun 3 [.x 0] c0 w0 s noEffects ∧ (ctxOf s c0).unorderedOk = true ∧
    (∀ n ∈ [4, 8], AccessOk s (tierAEnd - n) n n ∧ StoreOk s c0 (tierAEnd - n) n ∧ (ctxOf s c0).poisoned (tierAEnd - n) n = false) :=
  ⟨others _ _ _ ⟨rfl, rfl, rfl, by decide +kernel⟩ (by decide), by decide +kernel, by unfold AccessOk StoreOk; decide +kernel⟩

/-- A core with its tickets in four states: 0 to 21 pending, 22 complete, 23 free. -/
def ticketCore : Core :=
  { itemCore with tickets := Vector.ofFn (fun (i : Fin 32) => if i.val = 22 then .complete 5 else if i.val < 22 then .pending else .free) }
def ticketState : State :=
  { withCore { ticketCore with x := ticketCore.x.set 1 (BitVec.ofNat 64 22) } with
    mem := { Memory.reset with bytes := [(22, 3)], l2 := [{ vat := 0, line := 4, dirty := true, data := 1, poison := false }] } }

theorem witness_CachesAndTickets :
    OthersRun 3 [] c0 w0 ticketState noEffects ∧ OthersRun 3 [.x 0] c0 w0 ticketState noEffects ∧
    (∃ x, l2Find ticketState.mem.l2 c0.vat 4 = some x ∧ x.dirty = true ∧ (0 < 1 ∧ 256 < 64 * (4 + 1) ∧ 64 * 4 < 256 + 1)) ∧
    (let k := ticketState.core c0
     k.cls = 1 ∧ k.getT 23 = .free ∧ (∀ m : BitVec 5, m.toNat ≤ 23 → k.getT m = .free → (23 : BitVec 5).toNat ≤ m.toNat) ∧
     AccessOk ticketState 22 64 1 ∧ (ctxOf ticketState c0).poisoned 22 64 = false ∧
     (unitOps 0).1 ≤ (ticketState.seenByte c0.vat 22).toNat ∧ (ticketState.seenByte c0.vat 22).toNat ≤ (unitOps 0).2) ∧
    (let k := ticketState.core c0
     k.getX 1 = BitVec.ofNat 64 22 ∧ k.getT (BitVec.ofNat 5 22) = .complete 5 ∧ k.getT (BitVec.ofNat 5 21) = .pending) :=
  ⟨others _ _ _ ⟨rfl, rfl, rfl, by decide +kernel⟩ (by decide), others _ _ _ ⟨rfl, rfl, rfl, by decide +kernel⟩ (by decide),
    ⟨_, rfl, rfl, by decide⟩, by unfold AccessOk; decide +kernel, by decide +kernel⟩

/-- A class A item that waits, and the class B item it may take the core from. -/
def itemA : Item := { item1 with key := { flow := 2, seq := 0 }, cls := 0, phase := .created, core := none }

theorem witness_CoreSharingAndCreation :
    (let s := loaded { itemCore with item := some key1 } [itemA, item1]
     s.item? itemA.key = some itemA ∧ itemA.cls = 0 ∧ itemA.phase = .created ∧ s.item? key1 = some item1 ∧ item1.key = key1 ∧
     itemA.key ≠ key1 ∧ (s.core c0).active = true ∧ (s.core c0).firmware = false ∧ (s.core c0).itemClass = 1 ∧
     (s.core c0).finishing = none ∧ (s.core c0).preempted = none ∧ (s.core c0).item = some key1 ∧ s.hb.pull = false ∧
     itemA.avoidCore ≠ some c0 ∧ itemA.avoidDie ≠ some (vatDie c0.vat) ∧ itemA.avoidVat ≠ some c0.vat ∧
     (s.cores.filter (fun e => e.2.preempted.isSome)).length < s.furn 0x481005 128 ∧
     (∀ r ∈ (itemA.ptr, 256 * itemSlots itemA.inputs.length) :: s.argBlock itemA :: itemA.inputs.map (fun i => (i.addr, i.bytes)),
       r.1 + r.2 ≤ contextArea c0 ∨ contextArea c0 + 0x5100 ≤ r.1) ∧
     s.furn 0x340001 32 ≠ 0 ∧ s.furn 0x340001 32 < 33) ∧
    ((withCore { itemCore with runahead := true }).core c0).runahead = true ∧
    (let s := loaded fwCore []
     let w := s.port (16 : Nat)
     w.stat.getLsbD 31 = false ∧ s.descCheck w.draft (s.alloc (descOf w.draft).alloc).job (bytesToLine (s.seen 0 (descOf w.draft).idxref 64)) = some 0x0201) ∧
    (let s := { loaded fwCore [] with ports := [(16, { draft := vecImg, dst := BitVec.ofNat 64 itemStoreEnd, ctrl := 0, stat := 0 })] }
     let w := s.port 16
     w.stat.getLsbD 31 = false ∧ (16 : BitVec 5).toNat < 17 ∧
     s.descCheck w.draft (s.alloc (descOf w.draft).alloc).job (bytesToLine (s.seen 0 (descOf w.draft).idxref 64)) = none ∧
     w.dst.toNat % 64 = 0 ∧ s.rwRecordHolds 7 w.dst.toNat 64 = true ∧ (s.alloc (descOf w.draft).alloc).live = true) :=
  ⟨by decide +kernel, rfl, by decide +kernel, by decide +kernel⟩

/-- The class A item runs on the core of the item that it pre-empted, whose context stands in the context area. -/
def itemB : Item := { item1 with phase := .preempted }
def itemR : Item := { itemA with phase := .running, core := some c0, reply := .host 1 8 }
def twoItems : State :=
  let s := loaded { Core.reset with active := true, itemClass := 0, item := some itemA.key, preempted := some key1 } [itemR, itemB]
  { s with hb := { s.hb with winItems := [itemA.key] } }
def saved : State :=
  (twoItems.store 0 (contextArea c0 + 0x40) Core.reset.context).store 0 (contextArea c0) (contextHeader itemB 64 9 Core.reset.context)
theorem saved_only : saved = { twoItems with mem := saved.mem } :=
  (store_memOnly _ _ _ _).trans (store_memOnly _ _ _ _)
theorem reset_context : Core.reset.context.length = 20672 := by decide +kernel
theorem saved_header : saved.seen 0 (contextArea c0) 64 = contextHeader itemB 64 9 Core.reset.context := seen_store _ _ _ _
theorem header_crc (it : Item) (a b : Nat) (ctx : Bytes) : fieldAt (contextHeader it a b ctx) 0x38 4 = (crc32c 0 ctx).toNat :=
  (leVal_leBytes 4 _).trans (Nat.mod_eq_of_lt (crc32c 0 ctx).isLt)
theorem witness_CoreSharingAndCreation_done :
    (let k := saved.core c0
     k.firmware = false ∧ k.itemClass = 0 ∧ k.item = some itemR.key ∧ k.preempted = some itemB.key ∧ k.kept = Core.reset.st ∧
     (k.getX 0).setWidth 16 = (0 : BitVec 16) ∧ ∀ n : BitVec 5, 24 ≤ n.toNat → k.getT n = .free) ∧
    (saved.item? itemR.key = some itemR ∧ saved.item? itemB.key = some itemB ∧ itemR.key ≠ itemB.key ∧ itemB.phase = .preempted ∧
     itemR.cls = 0 ∧ itemR.reply ≠ .none ∧ saved.job? itemR.job = some job7 ∧ job7.stopped = none ∧ itemR.key ∈ saved.hb.winItems ∧
     (itemR.out + itemR.outBytes ≤ contextArea c0 ∨ contextArea c0 + 0x5100 ≤ itemR.out)) ∧
    saved.seen 0 (contextArea c0 + 0x40) 20672 = Core.reset.context ∧
    fieldAt (saved.seen 0 (contextArea c0) 64) 2 2 = 1 ∧
    fieldAt (saved.seen 0 (contextArea c0) 64) 0x38 4 = (crc32c 0 Core.reset.context).toNat ∧
    (∀ i, i < 324 → ∃ x, l2Find saved.mem.l2 0 (contextArea c0 / 64 + i) = some x ∧ x.dirty = true) ∧
    OthersRun 0 [] c0 w0 saved noEffects ∧ ∀ e ∈ noEffects, e.ticket = none ∧ e.acts = [] := by
  refine ⟨?_, ?_, ?_, ?_, ?_, fun i hi => ?_, others _ _ _ ?_ (by decide), by decide⟩
  · rw [saved_only]; decide +kernel
  · rw [saved_only]; exact ⟨rfl, rfl, by decide, rfl, rfl, by decide, rfl, rfl, List.mem_cons_self, by decide⟩
  · unfold saved
    rw [seen_store_other _ _ _ _ _ _ (.inr (by decide +kernel)), ← reset_context]
    exact seen_store _ _ _ _
  · rw [saved_header]; rfl
  · rw [saved_header]; exact header_crc _ _ _ _
  · unfold saved
    refine store_dirty _ _ _ _ _ ?_
    by_cases h : i = 0
    · exact .inr ⟨0, Nat.le_refl _, by decide +kernel, by subst h; rfl⟩
    · exact .inl (store_dirty _ _ _ _ _ (.inr ⟨64 * i, by show 0x40 ≤ _; omega, by rw [reset_context]; show _ < 0x40 + 20672; omega,
        by show _ = 0 + i; omega⟩))
  · rw [saved_only]; exact ⟨rfl, rfl, rfl, rfl⟩

/-! ### Unit commands: firmware waits on ticket 0 -/

def theCmd (unit : BitVec 4) (inst : Nat) (block : Bytes) : UnitCmd :=
  { unit := unit, inst := inst, core := c0, ticket := 0, cls := 2, block := block, item := none, attempt := 0, asked := [] }
def unitOn (unit : BitVec 4) (inst : Nat) (block : Bytes) (m : Memory) : State :=
  { loaded { fwCore with tickets := fwCore.tickets.set 0 .pending } [] with units := [theCmd unit inst block], mem := m }
def ram (bytes : List Host.Cell) : Memory := { Memory.reset with bytes := bytes }
def unitState (unit : BitVec 4) (inst : Nat) (block : Bytes) (bytes : List Host.Cell) : State := unitOn unit inst block (ram bytes)
/-- Memory whose only bytes are dirty lines of Vat 0. -/
def dirty (ls : List (Nat × BitVec 512)) : Memory :=
  { Memory.reset with l2 := ls.map (fun l => { vat := 0, line := l.1, dirty := true, data := l.2, poison := false }) }

/-- The command is the next of its unit, its core waits for it, and no line is uncorrectable. -/
def ReadyOn (unit : BitVec 4) (inst op : Nat) (block : Bytes) (m : Memory) : Prop :=
  Awaits (unitOn unit inst block m) (theCmd unit inst block) ∧ NoErrors (unitOn unit inst block m) ∧
    NextCmd (unitOn unit inst block m) unit.toNat inst op (theCmd unit inst block)
def UnitReady (unit : BitVec 4) (inst op : Nat) (block : Bytes) (bytes : List Host.Cell) : Prop :=
  ReadyOn unit inst op block (ram bytes)

theorem readyOn (unit : BitVec 4) (inst op : Nat) (block : Bytes) (m : Memory)
    (he : m.ecc = [] ∧ m.tierBDown = 0 ∧ m.l2.any (·.poison) = false) (h : fieldAt block 0 1 = op) : ReadyOn unit inst op block m :=
  ⟨⟨rfl, rfl, rfl⟩, ⟨fun l => by show Assoc.get 0 m.ecc l < 2; rw [he.1]; exact (by decide : 0 < 2),
      fun x hx => by
        cases hp : x.poison with
        | false => rfl
        | true => have := List.any_eq_false.mp he.2.2 x hx; exact absurd hp this, he.2.1⟩,
    ⟨(fun h => (by cases h)), ⟨rfl, rfl, h⟩, [], [], rfl, fun _ hx => (by cases hx), fun _ _ hx => (by cases hx)⟩⟩
theorem unitReady (unit : BitVec 4) (inst op : Nat) (block : Bytes) (bytes : List Host.Cell) (h : fieldAt block 0 1 = op) :
    UnitReady unit inst op block bytes := readyOn _ _ _ _ _ ⟨rfl, rfl, rfl⟩ h

/-- Memory that lists no byte reads zero where no line is cached. -/
theorem read_nil (m : Memory) (h : m.bytes = []) (a n : Nat) : leVal (m.read a n) = 0 := by
  induction n generalizing a with
  | zero => rfl
  | succ n ih =>
    rw [Memory.read, leVal, ih, Memory.byte, h]; rfl
theorem zero_lane : (BitVec.ofNat 576 0).toInt = 0 := by decide +kernel
theorem side_zero (s : State) (h : s.mem.bytes = []) (a n : Nat)
    (hl : ∀ l ∈ s.mem.l2, 64 * (l.line + 1) ≤ a ∨ a + n ≤ 64 * l.line) : leVal (s.sideBytes 0 a n) = 0 := by
  induction n generalizing a with
  | zero => rfl
  | succ n ih =>
    have hline : ∀ l ∈ s.mem.l2, l.line ≠ a / 64 := fun l hm e => by have := hl l hm; omega
    have h1 : l2Find s.mem.l2 0 (a / 64) = none :=
      List.find?_eq_none.mpr (fun l hm => by simp [hline l hm])
    have h2 : s.mem.l2.find? (fun l => l.line = a / 64 && l.dirty && l.vat ≠ 0 && Config.replaced s.free l.vat.toNat (a / 64)) = none :=
      List.find?_eq_none.mpr (fun l hm => by simp [hline l hm])
    have h3 : s.sideLine 0 (a / 64) = 0 := by
      unfold State.sideLine State.belowLine
      rw [h1]
      simp only [h2]
      exact congrArg (BitVec.ofNat 512) (read_nil s.mem h _ _)
    rw [State.sideBytes, leVal, h3, ih (a + 1) (fun l hm => by have := hl l hm; omega)]
    simp

def mergeBlock (flags n list : Nat) : Bytes := record 64 [(0, 1, 1), (1, 1, flags), (2, 2, n), (8, 8, list), (0x20, 8, 8192)]
def statsBlock : Bytes :=
  record 64 [(0, 1, 2), (1, 1, 0), (8, 8, 64), (0x10, 8, 4096), (0x18, 8, 65536), (0x20, 8, 8192)]
def mergeLane (s : State) (a j : Nat) : Int := (BitVec.ofNat 576 (leVal (s.sideBytes 0 (a + 72 * j) 72))).toInt
/-- Lane 0 at address 0 at its highest value. -/
def topLane : Memory := dirty [(0, BitVec.allOnes 512), (1, 0x7FFFFFFFFFFFFFFF)]

/-- MERGE of 4,096 images that fit, folded and accumulated, and of two that do not fit. -/
theorem witness_MergeUnit_merge :
    ReadyOn 5 0 1 (mergeBlock 5 4096 65536) (dirty []) ∧
    (let s := unitOn 5 0 (mergeBlock 5 4096 65536) (dirty [])
     s.plainRange 65536 (8 * 4096) = true ∧ s.plainRange 8192 1152 = true ∧ s.plainRange 0 1152 = true ∧
     (∀ i, leVal (s.sideBytes 0 (65536 + 8 * i) 8) = 0) ∧ ∀ a j, mergeLane s a j = 0) ∧
    ReadyOn 5 0 1 (mergeBlock 0 2 65536) topLane ∧
    (let s := unitOn 5 0 (mergeBlock 0 2 65536) topLane
     (∀ i, leVal (s.sideBytes 0 (65536 + 8 * i) 8) = 0) ∧ ¬ mergeLane s 0 0 + mergeLane s 0 0 < 2 ^ 575) := by
  refine ⟨readyOn _ _ _ _ _ ⟨rfl, rfl, by decide +kernel⟩ (by decide +kernel), ⟨by decide +kernel, by decide +kernel, by decide +kernel, fun i =>
    side_zero _ rfl _ _ (fun _ hm => (by cases hm)), fun a j => ?_⟩, readyOn _ _ _ _ _ ⟨rfl, rfl, by decide +kernel⟩ (by decide +kernel), fun i => ?_, by decide +kernel⟩
  · rw [mergeLane, side_zero _ rfl _ _ (fun _ hm => (by cases hm)), zero_lane]
  · refine side_zero _ rfl _ _ (fun l hm => ?_)
    have : l.line = 0 ∨ l.line = 1 := by
      rcases List.mem_map.mp hm with ⟨x, hx, rfl⟩
      simp only [List.mem_cons, List.not_mem_nil, or_false] at hx
      rcases hx with rfl | rfl <;> simp
    omega

/-- STATS of sixteen lanes that hold one value 0 each, and of a lane whose sum of squares is negative. -/
def statsMem (low : List (Nat × BitVec 512)) : Memory :=
  dirty (low ++ [(1024, bytesToLine ((List.range 8).flatMap (fun _ => leBytes 8 1))), (1025, bytesToLine ((List.range 8).flatMap (fun _ => leBytes 8 1)))])
theorem witness_MergeUnit_stats :
    ReadyOn 5 0 2 statsBlock (statsMem []) ∧
    (let s := unitOn 5 0 statsBlock (statsMem [])
     s.plainRange 64 1152 = true ∧ s.plainRange 4096 1152 = true ∧ s.plainRange 65536 128 = true ∧ s.plainRange 8192 512 = true ∧
     (∀ j, j < 16 → leVal (s.sideBytes 0 (65536 + 8 * j) 8) = 1) ∧ ∀ j, j < 16 → mergeLane s 64 j = 0 ∧ mergeLane s 4096 j = 0) ∧
    ReadyOn 5 0 2 statsBlock (statsMem [(64, BitVec.allOnes 512), (65, BitVec.allOnes 512)]) ∧
    (let s := unitOn 5 0 statsBlock (statsMem [(64, BitVec.allOnes 512), (65, BitVec.allOnes 512)])
     1 ≤ leVal (s.sideBytes 0 65536 8) ∧ mergeLane s 4096 0 < 0) := by
  have off : ∀ l ∈ (unitOn 5 0 statsBlock (statsMem [])).mem.l2, 1024 ≤ l.line := by
    intro l hm
    rcases List.mem_map.mp hm with ⟨x, hx, rfl⟩
    simp only [List.nil_append, List.mem_cons, List.not_mem_nil, or_false] at hx
    rcases hx with rfl | rfl <;> simp
  refine ⟨readyOn _ _ _ _ _ ⟨rfl, rfl, by decide +kernel⟩ (by decide +kernel), ⟨by decide +kernel, by decide +kernel, by decide +kernel, by decide +kernel,
    by decide +kernel, fun j hj => ⟨?_, ?_⟩⟩, readyOn _ _ _ _ _ ⟨rfl, rfl, by decide +kernel⟩ (by decide +kernel), by decide +kernel⟩
  · rw [mergeLane, side_zero _ rfl _ _ (fun l hm => by have := off l hm; omega), zero_lane]
  · rw [mergeLane, side_zero _ rfl _ _ (fun l hm => by have := off l hm; omega), zero_lane]

/-- Each mode of the Sizing unit, 16,777,216 elements of FP32 with A = 1, B = 2, C = 1, D = 2. -/
def sizingBlock (mode : Nat) : Bytes :=
  record 24 [(0, 1, mode), (1, 1, 0xC), (2, 1, 0xC), (3, 1, if mode = 2 then 15 else 0), (4, 4, 16777216), (8, 8, 0), (0x10, 8, 2 ^ 32)] ++
    record 40 [(0, 4, 0x3F800000), (4, 4, 0x40000000), (8, 4, 0x3F800000), (0xC, 4, 0x40000000)]
theorem witness_SizingUnit :
    (∀ mode ∈ [0, 1, 2, 3], UnitReady 2 0 mode (sizingBlock mode) []) ∧
    (∀ mode ∈ [0, 1, 2, 3], (sizingParams (theCmd 2 0 (sizingBlock mode))).isSome = true ∧
      (sizingBlock mode).length = 64 ∧ allZero (((sizingBlock mode).drop 24).drop 0x14) = true) ∧
    up.plainRange 0 (4 * 16777216) = true ∧ up.plainRange (2 ^ 32) (4 * 16777216) = true ∧
    (∀ a b c d : SizedQuot, a = ⟨1, 1, false⟩ → b = SizedQuot.zero → c = SizedQuot.zero → d = SizedQuot.zero →
      0 < a.den ∧ 0 ≤ b.num ∧ c.num ≤ d.num) :=
  ⟨fun m hm => by
      simp only [List.mem_cons, List.not_mem_nil, or_false] at hm
      rcases hm with rfl | rfl | rfl | rfl <;> exact unitReady _ _ _ _ _ (by decide +kernel),
    by decide +kernel, by decide +kernel, by decide +kernel, by rintro _ _ _ _ rfl rfl rfl rfl; decide⟩

def sortBlock (op flags k nlists n base src extra : Nat) : Bytes :=
  record 64 [(0, 1, op), (1, 1, 0xC), (2, 1, flags), (4, 2, k), (6, 2, nlists), (8, 4, n), (0xC, 4, base), (0x10, 8, src),
    (0x18, 8, 2 ^ 32), (0x20, 8, 2 ^ 33), (0x28, 8, extra)]
/-- TOPK of the keys whose index may be highest, with K at 4,096; SORT at 16,777,216 entries; SORT_MERGE of two lists. -/
theorem witness_SortUnit :
    UnitReady 4 3 1 (sortBlock 1 2 4096 0 1 0xFFFFFFFE 0 0) [] ∧ UnitReady 4 3 3 (sortBlock 3 1 0 0 16777216 0 0 0) [] ∧
    UnitReady 4 3 2 (sortBlock 2 0 1 2 0 0 65536 0) [] ∧
    (0xFFFFFFFE + 1 ≤ 0xFFFFFFFF ∧ up.plainRange 0 4 = true ∧ up.plainRange (2 ^ 32) (8 * 16777216) = true ∧
      up.plainRange (2 ^ 33) 16 = true ∧ up.plainRange 0 (8 * 16777216) = true ∧ up.plainRange 65536 16 = true ∧
      overlaps (2 ^ 32) (8 * 16777216) (2 ^ 33) 16 = false ∧ overlaps (2 ^ 32) (8 * 16777216) 0 (8 * 16777216) = false ∧
      overlaps (2 ^ 32) (8 * 4096) 0 4 = false) ∧
    (let s := unitState 4 3 (sortBlock 2 0 1 2 0 0 65536 0) []
     ∀ i, i < 2 → leVal (s.seen 0 (65536 + 8 * i) 8) % 8 = 0 ∧ s.plainRange (leVal (s.seen 0 (65536 + 8 * i) 8)) 8 = true) :=
  ⟨unitReady _ _ _ _ _ (by decide +kernel), unitReady _ _ _ _ _ (by decide +kernel), unitReady _ _ _ _ _ (by decide +kernel),
    by decide +kernel, by decide +kernel⟩

/-- A column list of one FP32 column at 4,096, its rows at 65,536, and boundaries 0 and 1 at 8,192. -/
def calMem : List Host.Cell := [(4098, 1), (4112, 0x0C), (4114, 1), (8198, 0x80), (8199, 0x3F)]
def calBlock (op flags ncol count aux p1 : Nat) : Bytes :=
  record 64 [(0, 1, op), (1, 1, flags), (2, 1, ncol), (4, 4, count), (8, 8, 4096), (0x10, 8, 2 ^ 32), (0x18, 8, aux), (0x20, 8, p1)]
def calView (block : Bytes) (bytes : List Host.Cell) : CalView :=
  { s := unitState 1 0 block bytes, vat := 0, cmd := theCmd 1 0 block }
/-- What CalenderKeys asks of a command of one column. -/
def calOk (v : CalView) (allowed : Column → Bool) (aux : List (Nat × Nat)) (out : Nat) : Bool :=
  decide (v.cols % 32 = 0 ∧ v.dst % 64 = 0 ∧ v.blockBad = false ∧ v.columnReject allowed 1 = none) &&
    v.s.plainAll (v.columnReads ++ aux ++ [(v.dst, out)]) &&
    (v.columnReads ++ aux).all (fun r => !overlaps v.dst out r.1 r.2)

theorem witness_CalenderKeys :
    UnitReady 1 0 1 (calBlock 1 2 1 1 0 (2 ^ 32)) calMem ∧ UnitReady 1 0 2 (calBlock 2 0 1 1 8192 (2 + 0xC * 65536)) calMem ∧
    UnitReady 1 0 3 (calBlock 3 0 1 1 0 0) calMem ∧
    calOk (calView (calBlock 1 2 1 1 0 (2 ^ 32)) calMem) (fun _ => true) [] 4 = true ∧
    calOk (calView (calBlock 2 0 1 1 8192 (2 + 0xC * 65536)) calMem) (·.numeric) [(8192, 8)] 4 = true ∧
    boundaryType 0xC = 0xC ∧ boundsBad 0xC [0, 0x3F800000] = false ∧
    (let v := calView (calBlock 2 0 1 1 8192 (2 + 0xC * 65536)) calMem
     v.nat 8192 4 = 0 ∧ v.nat 8196 4 = 0x3F800000) ∧
    calOk (calView (calBlock 3 0 1 1 0 0) calMem) (fun c => [0x4, 0x5, 0xA, 0xB, 0xC].contains c.typ) [] 524352 = true :=
  ⟨unitReady _ _ _ _ _ (by decide +kernel), unitReady _ _ _ _ _ (by decide +kernel), unitReady _ _ _ _ _ (by decide +kernel),
    by decide +kernel, by decide +kernel, by decide +kernel, by decide +kernel, by decide +kernel, by decide +kernel⟩

theorem first_le_sum (f : Nat → Nat) (n : Nat) (h : 0 < n) : f 0 ≤ ((List.range n).map f).sum :=
  List.le_sum_of_mem (List.mem_map.mpr ⟨0, List.mem_range.mpr h, rfl⟩)

/-- QPICK of rank 1 in a histogram whose first bin counts one value. -/
def pickMem : List Host.Cell := [(4096, 1), (16777216, 1)]
theorem witness_CalenderKeys_qpick :
    let v := calView (calBlock 4 0 0 1 16777216 0xC) pickMem
    UnitReady 1 0 4 (calBlock 4 0 0 1 16777216 0xC) pickMem ∧ v.blockBad = false ∧ v.dst % 64 = 0 ∧
      v.nat 16777216 8 = 1 ∧ 1 ≤ ((List.range 65536).map (fun k => v.nat (v.cols + 8 * k) 8)).sum ∧
      v.s.plainAll [(v.cols, 524352), (16777216, 8), (v.dst, 68)] = true ∧ overlaps v.dst 68 v.cols 524352 = false := by
  refine ⟨unitReady _ _ _ _ _ (by decide +kernel), by decide +kernel, by decide +kernel, by decide +kernel, ?_, by decide +kernel,
    by decide +kernel⟩
  have h : (calView (calBlock 4 0 0 1 16777216 0xC) pickMem).nat
      ((calView (calBlock 4 0 0 1 16777216 0xC) pickMem).cols + 8 * 0) 8 = 1 := by decide +kernel
  generalize calView (calBlock 4 0 0 1 16777216 0xC) pickMem = v at h ⊢
  rw [← h]
  exact first_le_sum (fun k => v.nat (v.cols + 8 * k) 8) 65536 (by decide)

/-- ASSEMBLE of one FP32 field into a row of 64 bytes with a validity word; SEAL of one row. -/
def rowMem : List Host.Cell :=
  [(4098, 1), (4112, 0x0C), (4114, 1), (8192, 64), (8194, 1), (8196, 8), (8211, 0x0C), (8212, 1), (8214, 63)]
theorem witness_CalenderRows :
    UnitReady 1 0 5 (calBlock 5 0 1 1 8192 0) rowMem ∧
    (let v := calView (calBlock 5 0 1 1 8192 0) rowMem
     let l := layoutOf (v.bytes v.aux (16 + 8 * v.nat (v.aux + 2) 2))
     v.blockBad = false ∧ v.columnReject (fun _ => true) 4096 = none ∧ l.aligned = true ∧ l.bad = false ∧ l.fields ≠ [] ∧
     (∀ f ∈ l.fields, f.colBad v.columns = false) ∧
     v.s.plainAll (v.columnReads ++ [(v.aux, 16 + 8 * l.nfield), (v.dst, v.count * l.rowBytes)]) = true ∧
     ∀ r ∈ v.columnReads ++ [(v.aux, 16 + 8 * l.nfield)], overlaps v.dst (v.count * l.rowBytes) r.1 r.2 = false) ∧
    UnitReady 1 0 6 (calBlock 6 0 0 1 8192 1) rowMem ∧
    (let v := calView (calBlock 6 0 0 1 8192 1) rowMem
     let l := layoutOf (v.bytes v.aux 16)
     let p := batchPlan 1 (v.s.furn 0x442001 1024) l.rowBytes
     let xs := (List.range v.count).map (attachmentAt (v.bytes v.cols (24 * v.count)))
     v.blockBad = false ∧ v.ncol = 0 ∧ xs ≠ [] ∧ (∀ a ∈ xs, a.rsv = 0 ∨ a.row < 1) ∧ l.sizesGood = true ∧
     v.s.plainAll [(v.cols, 24), (v.aux, 16), (v.dst + p.rows, p.total - p.rows), (v.dst, p.rows)] = true ∧
     ∀ r ∈ [(v.cols, 24), (v.aux, 16), (v.dst + p.rows, p.total - p.rows)], overlaps v.dst p.rows r.1 r.2 = false) :=
  ⟨unitReady _ _ _ _ _ (by decide +kernel), by decide +kernel, unitReady _ _ _ _ _ (by decide +kernel), by decide +kernel⟩

/-! ### Watermark -/

/-- An image of one entry with its own digest. -/
def wmHead : Bytes := leBytes 4 0x31575644 ++ (leBytes 2 1 ++ ([1, 1] ++ (leBytes 8 1 ++ leBytes 8 12102156772715470714)))
def wmTail : Bytes := record 96 [(0x28, 40, 0xF * 2 ^ 76)]
def wmGood : Bytes := wmHead ++ (zeros 2088 ++ wmTail)

theorem wm_classes : ∀ c ∈ wmClasses wmGood, c.getLsbD 63 = false := by
  intro c hc
  rcases List.mem_map.mp hc with ⟨i, hi, rfl⟩
  have h24 : wmHead.length = 24 := by decide
  have hi' := List.mem_range.mp hi
  have h1 : wmGood.drop (0x40 + 8 * i) = zeros (2048 - 8 * i) ++ wmTail := by
    rw [wmGood, List.drop_append, List.drop_eq_nil_of_le (by omega), h24, List.nil_append, List.drop_append, zeros, List.drop_replicate,
      List.length_replicate]
    have e1 : 2088 - (64 + 8 * i - 24) = 2048 - 8 * i := by omega
    have e2 : 64 + 8 * i - 24 - 2088 = 0 := by omega
    rw [e1, e2, List.drop_zero, zeros]
  have h2 : (zeros (2048 - 8 * i) ++ wmTail).take 8 = zeros 8 := by
    rw [List.take_append, zeros, List.length_replicate, List.take_replicate]
    have e1 : 8 - (2048 - 8 * i) = 0 := by omega
    have e2 : min 8 (2048 - 8 * i) = 8 := by omega
    rw [e1, e2, List.take_zero, List.append_nil, zeros]
  rw [fieldAt, h1, h2]
  decide

theorem wm_good : wmImageField wmGood = false ∧ wmImageBad wmGood = false ∧ wmGood.length = 2208 := by
  refine ⟨by decide +kernel, ?_, by decide +kernel⟩
  have h : (wmClasses wmGood).any (fun c => c.getLsbD 63) = false := by
    rw [List.any_eq_false]; intro c hc; rw [wm_classes c hc]; decide
  have h1 : wmDigest wmGood = BitVec.ofNat 64 (fieldAt wmGood 0x10 8) := by decide +kernel
  unfold wmImageBad
  rw [h, ← h1]
  decide +kernel

def wmSet1 : WmSet :=
  { id := 1, width := 1, mutable_ := true, digest := 5, classmap := [],
    entries := [{ valid := true, value := 0, care := 0, data := 0 }] }
def withSet (s : State) : State :=
  { s with
    wm := { banks := Vector.replicate 4 ((Vector.replicate 16 .free).set 15 (.holds 1)), sets := [wmSet1] }
    dict := { s.dict with grades := s.dict.grades.set 0 { s.dict.grades[0] with entries := [(0x3C1001, 5)] } } }
def linesFrom (n : Nat) (b : Bytes) (k : Nat) : List (Nat × BitVec 512) :=
  (List.range k).map (fun i => (n + i, bytesToLine ((b.drop (64 * i)).take 64)))

theorem line_held (s : State) (n : Nat) (b : Bytes) (k q : Nat) (h : s.mem.l2 = (dirty (linesFrom n b k)).l2) (hq : q < k) :
    s.seenLine 0 (n + q) = bytesToLine ((b.drop (64 * q)).take 64) := by
  have e : l2Find s.mem.l2 0 (n + q) =
      some { vat := 0, line := n + q, dirty := true, data := bytesToLine ((b.drop (64 * q)).take 64), poison := false } := by
    rw [h]
    unfold l2Find dirty linesFrom
    rw [List.map_map, List.find?_map]
    have : List.find? ((fun l : L2Line => decide (l.vat = 0) && decide (l.line = n + q)) ∘
        (fun l : Nat × BitVec 512 => ({ vat := 0, line := l.1, dirty := true, data := l.2, poison := false } : L2Line)) ∘
        (fun i => (n + i, bytesToLine ((b.drop (64 * i)).take 64)))) (List.range k) = some q := by
      rw [List.find?_range_eq_some]
      refine ⟨by simp, by simpa using hq, fun j hj => ?_⟩
      have : ¬ j = q := by omega
      simp [this]
    rw [this]
    rfl
  unfold State.seenLine
  rw [e]
  rfl

/-- Bytes put into dirty lines read back. -/
theorem seen_lines (s : State) (n : Nat) (b : Bytes) (k : Nat) (h : s.mem.l2 = (dirty (linesFrom n b k)).l2) (hb : b.length ≤ 64 * k) :
    s.seen 0 (64 * n) b.length = b := by
  have key : ∀ m p : Nat, p + m = b.length → s.seen 0 (64 * n + p) m = b.drop p := by
    intro m
    induction m with
    | zero =>
      intro p hp
      rw [List.drop_of_length_le (by omega)]
      rfl
    | succ m ih =>
      intro p hp
      rw [List.drop_eq_getElem_cons (by omega : p < b.length)]
      show s.seenByte 0 (64 * n + p) :: s.seen 0 (64 * n + p + 1) m = _
      rw [Nat.add_assoc, ih (p + 1) (by omega)]
      congr 1
      unfold State.seenByte
      have e1 : (64 * n + p) / 64 = n + p / 64 := by omega
      have e2 : (64 * n + p) % 64 = p % 64 := by omega
      rw [e1, e2, line_held s n b k (p / 64) h (by omega), bytesToLine_byte _ _ (by omega)]
      rw [List.getElem?_take, if_pos (by omega), List.getElem?_drop]
      have e3 : 64 * (p / 64) + p % 64 = p := by omega
      rw [e3, List.getElem?_eq_getElem (by omega : p < b.length)]
      rfl
  exact key b.length 0 (by omega)

def searchBlock : Bytes :=
  record 64 [(0, 1, 1), (1, 1, 1), (4, 4, 1), (8, 8, 0), (0x10, 8, 4096), (0x20, 8, 8192), (0x28, 8, 16384), (0x30, 4, 1)]
def adminBlock (op id n src copies : Nat) : Bytes := record 64 [(0, 1, op), (2, 2, id), (4, 4, n), (8, 8, src), (0x36, 1, copies)]

/-- The unit's command is ready in a state that differs only in its Watermark banks and grades. -/
theorem readyWithSet {unit : BitVec 4} {inst op : Nat} {block : Bytes} {m : Memory} (h : ReadyOn unit inst op block m) :
    Awaits (withSet (unitOn unit inst block m)) (theCmd unit inst block) ∧ NoErrors (withSet (unitOn unit inst block m)) ∧
      NextCmd (withSet (unitOn unit inst block m)) unit.toNat inst op (theCmd unit inst block) :=
  ⟨⟨h.1.ticket, h.1.finishing, h.1.run⟩, h.2.1, ⟨h.2.2.runs, h.2.2.here, h.2.2.first⟩⟩

theorem witness_WatermarkSets_search :
    ReadyOn 3 0 1 searchBlock (dirty []) ∧
    (∃ x, (withSet (unitOn 3 0 searchBlock (dirty []))).wmTarget (theCmd 3 0 searchBlock) = .ok x) := by
  refine ⟨readyOn _ _ _ _ _ ⟨rfl, rfl, by decide +kernel⟩ (by decide +kernel), ?_⟩
  have h : (match (withSet (unitOn 3 0 searchBlock (dirty []))).wmTarget (theCmd 3 0 searchBlock) with
    | .ok _ => true | .error _ => false) = true := by decide +kernel
  split at h
  · rename_i h'; exact ⟨_, h'⟩
  · cases h

/-- LOAD of four copies under the highest ID, from the end of tier A. -/
def loadSrc : Nat := tierAEnd - 2240
def loadState : State := unitOn 3 0 (adminBlock 2 255 2208 loadSrc 4) (dirty (linesFrom (loadSrc / 64) wmGood 35))
theorem witness_WatermarkSets_load :
    ReadyOn 3 0 2 (adminBlock 2 255 2208 loadSrc 4) (dirty (linesFrom (loadSrc / 64) wmGood 35)) ∧
    loadState.seen 0 loadSrc 2208 = wmGood ∧ loadSrc % 64 = 0 ∧ loadState.plainRange loadSrc 2208 = true ∧
    loadState.wmSet? 255 = none ∧ (∀ d : Fin 4, 4 ≤ ((loadState.wm.banks[d]).toList.filter (· = .free)).length) ∧ (255 : Nat) ≤ 0xFF := by
  refine ⟨readyOn _ _ _ _ _ ⟨rfl, rfl, by decide +kernel⟩ (by decide +kernel), ?_, by decide +kernel, by decide +kernel, by decide +kernel,
    by decide +kernel, by decide⟩
  have h := seen_lines loadState (loadSrc / 64) wmGood 35 rfl (by rw [wm_good.2.2]; decide)
  rw [wm_good.2.2] at h
  exact h

/-- UPDATE of entry 0 (an entry record and a removal), UNLOAD. -/
def updateMem : Memory := dirty (linesFrom 64 (record 96 [(0x28, 40, 0xF * 2 ^ 76)] ++ record 96 [(0x56, 1, 1)]) 3)
theorem witness_WatermarkSets_update :
    (let s := withSet (unitOn 3 0 (adminBlock 3 1 2 4096 0) updateMem)
     let rs := (List.range 2).map (wmRecordAt (s.seen 0 4096 (96 * 2)))
     ReadyOn 3 0 3 (adminBlock 3 1 2 4096 0) updateMem ∧ s.plainRange 4096 192 = true ∧ s.wmSet? 1 = some wmSet1 ∧
     wmSet1.mutable_ = true ∧ rs.map (·.uop) = [0, 1] ∧
     (∀ r ∈ rs, r.uop < 2 ∧ r.reserved = false ∧ r.entry < wmSet1.entries.length ∧ (r.uop = 0 → r.bad wmSet1.width = false)) ∧
     s.leaseStale 3 1 (theCmd 3 0 (adminBlock 3 1 2 4096 0)).lease = false ∧ s.mirrored = false) ∧
    (let s := { withSet (unitOn 3 0 (adminBlock 4 1 0 0 0) (dirty [])) with dict := up.dict }
     ReadyOn 3 0 4 (adminBlock 4 1 0 0 0) (dirty []) ∧ s.wmSet? 1 = some wmSet1 ∧
     State.wmBusy { s with units := s.units.erase (theCmd 3 0 (adminBlock 4 1 0 0 0)) } wmSet1 = false) :=
  ⟨⟨readyOn _ _ _ _ _ ⟨rfl, rfl, by decide +kernel⟩ (by decide +kernel), by decide +kernel, by decide +kernel, rfl, by decide +kernel, by decide +kernel,
      by decide +kernel, by decide +kernel⟩,
    ⟨readyOn _ _ _ _ _ ⟨rfl, rfl, by decide +kernel⟩ (by decide +kernel), by decide +kernel, by decide +kernel⟩⟩

/-- An empty string and a string of 65,535 bytes' bound; no entry fits a set without entries. -/
theorem witness_WatermarkSets_search_strings : (65535 : Nat) < (List.replicate 65536 (0 : BitVec 8)).length ∧
    ([] : Bytes).length ≤ 65535 ∧ ({ wmSet1 with entries := [] } : WmSet).entries.find? (fun e => e.fits (wmKey wmSet1 [] 0 0)) = none :=
  ⟨by rw [List.length_replicate]; decide, by decide, rfl⟩

/-! ### Pulper -/

/-- One plain sample of 4 bytes at 65,536, listed at 4,096; OUT is just large enough. -/
def pulBlock (op : Nat) : Bytes :=
  record 64 [(0, 1, op), (4, 4, 1), (8, 8, 4096), (0x10, 8, 2 ^ 32), (0x18, 4, 192), (0x1C, 4, 4), (0x20, 8, if op = 2 then 8192 else 0),
    (0x30, 8, 2 ^ 33)]
def pulMem : Memory := dirty (linesFrom 64 (record 32 [(0, 7, 65536), (0x10, 4, 4)] ++ zeros 32) 1)
/-- No engine type is missing, whatever the bodies hold. -/
theorem engines_there (s : State) (u : UnitCmd)
    (h : (let p := s.pulpers[(vatDie u.core.vat).toNat]; p.decompression ≠ 0 ∧ p.jpeg ≠ 0 ∧ p.pointRecord ≠ 0 ∧ p.page ≠ 0)) :
    s.pulNoEngine u = false := by
  unfold State.pulNoEngine
  simp [h]

theorem witness_PulperDecoding :
    (∀ op ∈ [1, 2, 3], ReadyOn 6 0 op (pulBlock op) pulMem ∧ (unitOn 6 0 (pulBlock op) pulMem).pulReject (theCmd 6 0 (pulBlock op)) = none ∧
      (unitOn 6 0 (pulBlock op) pulMem).pulNoEngine (theCmd 6 0 (pulBlock op)) = false) ∧
    pulWrap (theCmd 6 0 (pulBlock 1)) = 0 ∧ pulFormat (theCmd 6 0 (pulBlock 1)) = 0 ∧ pulPack (theCmd 6 0 (pulBlock 1)) = false ∧
    (let s := { unitOn 6 0 (pulBlock 1) pulMem with dict := { up.dict with grades := up.dict.grades.set 0 { up.dict.grades[0] with entries := [(0x400004, 1)] } } }
     (s.pulSet (theCmd 6 0 (pulBlock 1))).wall = true ∧ 0 < pulCount (theCmd 6 0 (pulBlock 1)) ∧ 0 ∉ (theCmd 6 0 (pulBlock 1)).overdue) ∧
    (up.pulpers[(0 : Fin 4)]).page ≠ 0 := by
  refine ⟨fun op hop => ?_, by decide +kernel, by decide +kernel, by decide +kernel, by decide +kernel, by decide +kernel⟩
  simp only [List.mem_cons, List.not_mem_nil, or_false] at hop
  rcases hop with rfl | rfl | rfl <;>
    exact ⟨readyOn _ _ _ _ _ ⟨rfl, rfl, by decide +kernel⟩ (by decide +kernel), by decide +kernel, engines_there _ _ (by decide +kernel)⟩

/-! ### Felt -/

/-- An updatable table of four rows of one FP32 element, fed by flow 1, four items an epoch. -/
def table5 : Table :=
  { id := 5, kind := 1, etype := 0xC, elems := 1, updatable := true, replicated := false, tier := 0, compOp := 0, nrows := 4,
    nindex := 0, seed := 0, part1 := 0, part2 := 0, shardRows := 4, flow := 1, epochItems := 4, job := none, tierB := false,
    rows := [(1, [0, 0, 0x80, 0x3F])], version := 0, commits := [(0, 4)], homes := [], bad := [] }
def feltBlock (op : Nat) : Bytes :=
  record 64 [(0, 1, op), (1, 1, 0xC), (2, 2, 5), (4, 4, 2), (8, 8, 4096), (0x10, 8, if op = 1 then 8192 else 0),
    (0x18, 8, if op = 1 then 16384 else 0), (0x20, 8, if op = 1 then 0 else 32768), (0x28, 8, if op = 3 then 36864 else 0)]
def feltCmd (op : Nat) : UnitCmd := { theCmd 0 0 (feltBlock op) with cls := 1, item := some key1 }
/-- Indices 3 (the last row) and 4 (out of range). -/
def feltState (op : Nat) : State :=
  { loaded { itemCore with item := some key1, tickets := itemCore.tickets.set 0 .pending } [item1] with
    units := [feltCmd op], felt := { Felt.reset with tables := [table5] },
    mem := dirty (linesFrom 64 (leBytes 8 3 ++ leBytes 8 4 ++ zeros 48) 1) }

theorem feltReady (op : Nat) (h : fieldAt (feltBlock op) 0 1 = op) :
    Awaits (feltState op) (feltCmd op) ∧ NoErrors (feltState op) ∧ NextCmd (feltState op) 0 0 op (feltCmd op) :=
  ⟨⟨rfl, rfl, ⟨.inl rfl, item1, rfl, rfl⟩⟩, ⟨fun _ => (by decide : 0 < 2), fun x hx => (by
      rcases List.mem_map.mp hx with ⟨y, _, rfl⟩; rfl), rfl⟩, ⟨(fun h => (by cases h)), ⟨rfl, rfl, h⟩, [], [], rfl, fun _ hx => (by cases hx), fun _ _ hx => (by cases hx)⟩⟩

theorem witness_FeltUnit :
    (∀ op ∈ [1, 2, 3], (Awaits (feltState op) (feltCmd op) ∧ NoErrors (feltState op) ∧ NextCmd (feltState op) 0 0 op (feltCmd op)) ∧
      (feltState op).feltReject (feltCmd op) = none ∧ (feltState op).table? (feltTable (feltCmd op)) = some table5) ∧
    ((feltCmd 1).asked = [] ∧ ∀ j, j < 2 → (feltState 1).remoteRows table5 (leVal ((feltState 1).seen 0 (4096 + 8 * j) 8)) = [] ∧
      (feltState 1).partsFail table5 (leVal ((feltState 1).seen 0 (4096 + 8 * j) 8)) = false) ∧
    (table5.kind = 1 ∧ table5.nrows ≤ 4 ∧ 3 < table5.nrows ∧ table5.homeOf 3 (feltState 1).self = none) ∧
    (let s := feltState 1
     table5.updatable = true ∧ table5.replicated = false ∧ s.epochCommitted table5 table5.version = true ∧ s.felt.waiting = [] ∧
     s.mirrored = false ∧ s.fab.heldGathers = [] ∧ s.flow? table5.flow = some (job7, run1) ∧ job7.modules = [s.straps.modid] ∧
     s.combineStop.isNone = true ∧ ∀ j ∈ s.hb.jobs, j.finalSent = false) ∧
    (let c : Combine := { table := 5, epoch := 0, row := 3, adds := [1], set := none, conflict := false }
     (feltState 1).rowFails table5 c.row = false ∧ table5.homeOf c.row up.self = none ∧ up.leaseStopped 2 (BitVec.ofNat 32 (5 * 65536 + table5.shardOf c.row)) = false) := by
  refine ⟨fun op hop => ?_, ⟨rfl, by decide +kernel⟩, by decide +kernel, by decide +kernel, by decide +kernel⟩
  simp only [List.mem_cons, List.not_mem_nil, or_false] at hop
  rcases hop with rfl | rfl | rfl
  · exact ⟨feltReady _ (by decide +kernel), by decide +kernel, by decide +kernel⟩
  · exact ⟨feltReady _ (by decide +kernel), by decide +kernel, by decide +kernel⟩
  · exact ⟨feltReady _ (by decide +kernel), by decide +kernel, by decide +kernel⟩

/-- RowMigration: row 3 may migrate; an entry in write-through, one switched with and without an old home. -/
def redirect5 (st : MigState) (old : Option (BitVec 56)) : Redirect :=
  { table := 5, row := 3, state := st, oldHome := old, newHome := 7, copy := [1, 2, 3, 4], released := false }
def migrating (r : List Redirect) : State := { feltState 1 with felt := { (feltState 1).felt with redirects := r } }
theorem witness_RowMigration :
    (migrating []).table? 5 = some table5 ∧ (migrating []).mayMigrate table5 3 = true ∧ (migrating []).rowFails table5 3 = false ∧
    (migrating []).rowFails { table5 with bad := [(3, 2)] } 3 = true ∧
    ((∀ c ∈ (migrating []).units, c.stamp = none) ∧ (migrating []).fab.heldGathers = [] ∧ (migrating []).felt.waiting = [] ∧
      (migrating []).drained = true) ∧
    (let s := { migrating [redirect5 .new none] with units := [{ feltCmd 1 with stamp := some 7 }] }
     ∃ c ∈ s.units, ∃ n, c.stamp = some n ∧ n ≠ s.felt.migEpoch) ∧
    (∀ st ∈ [MigState.copy, .writeThrough], (migrating [redirect5 st none]).redirect? 5 3 = some (redirect5 st none) ∧ st ≠ .new) ∧
    (migrating [redirect5 .writeThrough none]).redirect? 5 3 = some (redirect5 .writeThrough none) ∧
    (migrating [redirect5 .new none]).redirect? 5 3 = some (redirect5 .new none) ∧
    (migrating [redirect5 .new (some 9)]).redirect? 5 3 = some (redirect5 .new (some 9)) := by
  refine ⟨by decide +kernel, by decide +kernel, by decide +kernel, by decide +kernel, by decide +kernel,
    ⟨_, List.mem_cons_self, 7, rfl, by decide⟩, by decide +kernel, by decide +kernel, by decide +kernel, by decide +kernel⟩

/-! ### Slurry: exchange 1 of job 7, two partitions, rows of 64 bytes, one round of four rows -/

def exch1 : ExchRec :=
  { exch := 1, flags := 0, rowBytes := 64, npart := 2, partSeed := 0, keyOff := 0, keyLen := 8, join := 0, roundRows := 4,
    stageBytes := 1000, creditMax := 4, roundsAhead := 1, prov := 0, table := 1, nextMask := 0 }
def exchAt : Exch :=
  { job := 7, exch := 1, homes := [], pool := [], retained := [], credits := [], txSeq := [], txRound := [], txRows := [], slots := [],
    staged := [], base := [], ended := [], got := [], redo := [], awaits := [], doneOf := [], rxSeq := [], asks := [], granted := [],
    creditAsked := [], rowsIn := [] }
/-- A flow that sends on the exchange, its one item created and gone. -/
def flow2 : FlowRun := { run1 with decl := { flow1 with flow := 2, batch := false, items := 1, span := 4, producer := 1 }, next := 1 }
def input1 : InputRec := { table := 1, format := 0, rows := 4, cols := 1, chunks := [] }
def job7x : Job := { job7 with flows := [run1, flow2], exchanges := [exch1], inputs := [input1] }
def slurryState (x : Exch) : State := { up with hb := { up.hb with jobs := [job7x] }, slurry := [x] }
def msg (seq : BitVec 64) (part round value : BitVec 32) (payload : Bytes) : Msg :=
  { qp := 0, version := 1, exch := 1, cls := 1, gen := 0, job := 7, src := 5, dst := 0, part := part, round := round,
    length := BitVec.ofNat 32 payload.length, seq := seq, value := value, rsv := 0, crc := 0, payload := payload }
def row0 : RxRows := { src := 5, part := 0, round := 0, rows := 1, bytes := zeros 64 }

theorem receives (t : BitVec 8) (m : Msg) (x : Exch) (h : x.job = 7 ∧ x.exch = 1) (hm : m.job = 7 ∧ m.exch = 1 ∧ m.to = 0)
    (hc : m.by' = .send ∧ m.ce = false) (hf : slurryFields t m = true) (hs : m.seq.toNat = Assoc.get 0 x.rxSeq (streamKey m) + 1) :
    Receives (slurryState x) t (m.withCrc t) job7x exch1 x := by
  refine ⟨rfl, ⟨rfl, hc⟩, hm.2.2, Nat.zero_le _, ?_, ⟨?_, ?_⟩, ⟨hf, rfl⟩, hs⟩
  · show (slurryState x).job? m.job = _; rw [hm.1]; rfl
  · show job7x.exch? m.exch.toNat = _; rw [hm.2.1]; rfl
  · show [x].find? (fun y => y.job = m.job && y.exch.toNat = m.exch.toNat) = some x
    rw [hm.1, hm.2.1]
    exact List.find?_cons_of_pos (by rw [h.1, h.2]; decide)

theorem witness_SlurryReceiving :
    (∀ r ∈ [(0 : BitVec 32), 1], Receives (slurryState exchAt) 0x10 ((msg 1 0 r 1 (zeros 64)).withCrc 0x10) job7x exch1 exchAt) ∧
    (1 ≤ 8128 / exch1.rowBytes ∧ Assoc.get 0 exchAt.homes 0 = 0 ∧ 1 ≤ exchAt.creditOf 5 0 ∧
      ((slurryState exchAt).setExch { exchAt with staged := exchAt.staged ++ [row0] }).spilled ≤ Config.spillBytes ∧
      ((5 : BitVec 14) ≠ (slurryState exchAt).straps.modid ∧ exchAt.ended = [] ∧ (slurryState exchAt).hb.items = []) ∧
      (0 < Assoc.get 0 exchAt.base 0 + exch1.roundsAhead ∧ ¬ 1 < Assoc.get 0 exchAt.base 0 + exch1.roundsAhead)) ∧
    (∀ n ∈ [(0 : BitVec 32), 1], Receives (slurryState exchAt) 0x11 ((msg 1 0 0 n []).withCrc 0x11) job7x exch1 exchAt) ∧
    (exchAt.rowsFrom 5 0 = 0 ∧ job7x.stopped = none) ∧
    Receives (slurryState exchAt) 0x12 ((msg 1 0 0 1 []).withCrc 0x12) job7x exch1 exchAt ∧
    Receives (slurryState exchAt) 0x13 ((msg 1 0 0 1 []).withCrc 0x13) job7x exch1 exchAt ∧
    (1 ≤ min 1 (1 + exch1.creditMax - (exchAt.creditOf 5 0 + (exchAt.slots.filter (fun t => t.src = 5 && t.part = 0)).length))) ∧
    Receives (slurryState exchAt) 0x14 ((msg 1 0 0 0 []).withCrc 0x14) job7x exch1 exchAt := by
  refine ⟨fun r hr => ?_, ⟨by decide, by decide, by decide, ?_, by decide, by decide⟩, fun n hn => ?_, by decide,
    receives _ _ _ (by decide) (by decide) ⟨rfl, rfl⟩ (by decide +kernel) (by decide +kernel),
    receives _ _ _ (by decide) (by decide) ⟨rfl, rfl⟩ (by decide +kernel) (by decide +kernel), by decide +kernel,
    receives _ _ _ (by decide) (by decide) ⟨rfl, rfl⟩ (by decide +kernel) (by decide +kernel)⟩
  · simp only [List.mem_cons, List.not_mem_nil, or_false] at hr
    rcases hr with rfl | rfl <;>
      exact receives _ _ _ (by decide) (by decide) ⟨rfl, rfl⟩ (by decide +kernel) (by decide +kernel)
  · have h : ((slurryState exchAt).setExch { exchAt with staged := exchAt.staged ++ [row0] }).spilled = 0 := by decide +kernel
    rw [h]; exact Nat.zero_le _
  · simp only [List.mem_cons, List.not_mem_nil, or_false] at hn
    rcases hn with rfl | rfl <;>
      exact receives _ _ _ (by decide) (by decide) ⟨rfl, rfl⟩ (by decide +kernel) (by decide +kernel)

/-- A repeated message, a gap and a bad CRC after two requests for a resend; a slot whose round is open. -/
theorem witness_SlurryReceiving_again :
    (let x := { exchAt with rxSeq := [(5 * 2 ^ 32, 1)], asks := [(5, 2)] }
     (slurryState x).rst.boot = .ready ∧ (slurryState x).job? 7 = some job7x ∧ job7x.exch? 1 = some exch1 ∧
     (slurryState x).exch? 7 1 = some x ∧ Assoc.get 0 x.asks 5 < 3 ∧
     ∀ t ∈ [(0x10 : BitVec 8), 0x11, 0x12, 0x13, 0x14],
       (let m := (msg 1 0 0 0 []).withCrc t
        (m.type = t ∧ m.by' = .send ∧ m.ce = false) ∧ slurryFields t m = true ∧ m.crc = m.check t ∧ m.seq.toNat ≤ Assoc.get 0 x.rxSeq (streamKey m)) ∧
       (let m := (msg 3 0 0 0 []).withCrc t
        slurryFields t m = true ∧ Assoc.get 0 x.rxSeq (streamKey m) + 1 < m.seq.toNat) ∧
       (let m := { (msg 2 0 0 0 []).withCrc t with crc := 0 }
        slurryFields t m = true ∧ m.crc ≠ m.check t)) ∧
    (let x := { exchAt with slots := [row0] }
     x.slots = [row0] ∧ ((slurryState x).setExch { x with staged := x.staged ++ [row0], slots := [] }).spilled ≤ Config.spillBytes) := by
  refine ⟨by decide +kernel, rfl, ?_⟩
  have h : ((slurryState { exchAt with slots := [row0] }).setExch
      { exchAt with slots := [], staged := exchAt.staged ++ [row0] }).spilled = 0 := by decide +kernel
  exact Nat.le_trans (Nat.le_of_eq h) (Nat.zero_le _)

/-- The sender of exchange 1: partition 0 is module 1's; rows in the pool, retained rows, no credit left. -/
def tx : TxRow := { item := { flow := 2, seq := 0 }, dest := none, part := 0, round := 0, bytes := zeros 64, seq := 0 }
def sender : Exch := { exchAt with homes := [(0, 1)] }

theorem witness_SlurrySending :
    (let s := slurryState { sender with pool := [tx] }
     let x : Exch := { sender with pool := [tx] }
     s.job? 7 = some job7x ∧ job7x.exch? 1 = some exch1 ∧ s.exch? 7 1 = some x ∧ s.fab.stopped = false ∧ job7x.stopped = none ∧
     (x.dests job7x exch1 s.straps.modid).contains 1 = true ∧ s.broadcastBig job7x exch1 = false ∧ x.sendRound 1 < job7x.rounds exch1 ∧
     (s.holders job7x exch1 (x.sendRound 1)).contains s.straps.modid = true ∧ (1 : BitVec 14) ≠ s.straps.modid ∧ 1 ≤ 8128 / exch1.rowBytes ∧
     x.pool.filter (fun t => t.to x s.straps.modid = 1 && t.round = x.sendRound 1) = [tx] ∧ s.roundReady job7x exch1 0 = true ∧
     Assoc.get 1 x.credits (creditKey 1 0) = 1 ∧ Assoc.get 1 [(creditKey 1 0, 0)] (creditKey 1 0) = 0 ∧ x.creditAsked = [] ∧ exch1.creditMax ≠ 0) ∧
    (let s := slurryState sender
     sender.pool = [] ∧ s.roundReady job7x exch1 (sender.sendRound 1) = true ∧
     (s.holders job7x exch1 (sender.sendRound 1)).contains s.straps.modid = true) ∧
    (let x := { sender with retained := [(1, tx)] }
     (x.retained.filter (fun t => t.1 = 1 && t.2.part = 0 && t.2.round = 0)).map (·.2) = [tx] ∧ tx.seq = 0 ∧ 1 ≤ 8128 / exch1.rowBytes) ∧
    (let m := { (msg 0 0 0 0 []) with exch := 0, src := 1 }.withCrc 0x43
     TakesMsg (slurryState sender) 0x43 m ∧ m.job = job7x.job ∧ job7x.exchanges = [exch1] ∧ m.part.toNat < 2 ∧ m.from = 1 ∧ (1 : BitVec 14) ≠ up.straps.modid ∧
     Assoc.get up.straps.modid sender.homes m.part.toNat = 1 ∧ Assoc.get 0 sender.txRound 1 ≤ m.value.toNat ∧ sender.doneOf = []) := by
  refine ⟨by decide +kernel, by decide +kernel, by decide +kernel, ?_⟩
  unfold TakesMsg Addressed Arrives
  decide +kernel

/-- REMAP: a partition whose home changes, a shard of a table, a flow; the filter of a right side that is built. -/
def join0 : JoinRec :=
  { kind := 0, mode := 0, nkeys := 1, flags := 0x24, left := 1, right := 1, keys := [], seed := 0, bloomBlocks := 1, bloomK := 1,
    bucketLog2 := 0, rowBytes := 64 }
def jobJoin : Job := { job7x with joins := [join0], hashes := [(0, 3)] }
theorem witness_SlurrySending_remap :
    (let u : RemapUpdate := { job := 7, parts := [(1, 1, 2)], shards := [], flows := [] }
     u.job = job7x.job ∧ (1 : BitVec 32).toNat < exch1.npart ∧ Assoc.get up.straps.modid sender.homes 1 ≠ 2 ∧
     ∀ t ∈ ([] : List (BitVec 14 × TxRow)), t.2.part ≠ 1) ∧
    (let s := { slurryState sender with felt := { Felt.reset with tables := [table5] } }
     s.table? table5.id = some table5 ∧ s.job? 7 = some job7x ∧ s.flow? run1.decl.flow = some (job7x, run1) ∧ (1 : BitVec 14) ≠ s.straps.modid) ∧
    (let t := { table5 with homes := [(0, 1)] }
     let s := { slurryState sender with felt := { Felt.reset with tables := [t] }, twin := { up.twin with replica := [(5, 2, [1, 2, 3, 4])] } }
     s.table? t.id = some t ∧ Assoc.get s.straps.modid t.homes 0 = s.straps.modid ^^^ 1 ∧ t.shardOf 2 = 0 ∧
       s.twin.replica.filter (fun x => decide (x.1 = t.id) && decide (x.2.1 = 2)) = [(5, 2, [1, 2, 3, 4])] ∧
       s.twin.replica.filter (fun x => decide (x.1 = t.id) && decide (x.2.1 = 3)) = []) ∧
    (let x := { exchAt with base := [(0, 1), (1, 1)] }
     let s := { slurryState x with hb := { up.hb with jobs := [jobJoin] } }
     s.job? jobJoin.job = some jobJoin ∧ jobJoin.joins[0]? = some join0 ∧ join0.flags.getLsbD 2 = true ∧
     jobJoin.rightExch join0 = some exch1 ∧ s.exch? jobJoin.job exch1.exch.toNat = some x ∧ 1 ≤ join0.bloomBlocks ∧
     ∀ p, p < 2 → Assoc.get s.straps.modid x.homes p = s.straps.modid → jobJoin.rounds exch1 ≤ Assoc.get 0 x.base p) := by
  decide +kernel

/-! ### Host commands: a PLAUD image without sections but one input, a class A flow, a ring -/

def plaudRaw (input : Bytes) : Bytes :=
  leBytes 4 0x31505644 ++ leBytes 4 1 ++ leBytes 8 8 ++ zeros 8 ++ leBytes 4 Config.rowsem.toNat ++
    leBytes 4 (256 + input.length) ++ zeros 32 ++
    (if input.isEmpty then zeros 128
     else zeros 32 ++ leBytes 4 256 ++ leBytes 4 1 ++ zeros 40 ++ leBytes 4 320 ++ leBytes 4 1 ++ zeros 40) ++ zeros 64 ++ input
/-- With its CRC. -/
def plaud (input : Bytes) : Bytes := putAt (plaudRaw input) 0x20 (leBytes 4 (crc32c 0 (plaudRaw input)).toNat)
def inputEntry : Bytes := leBytes 2 1 ++ leBytes 2 1 ++ leBytes 4 1 ++ zeros 8 ++ leBytes 8 4 ++ leBytes 8 1 ++ zeros 32 ++
  zeros 16 ++ leBytes 8 1 ++ zeros 40

theorem first_number (s : State) (h : (Assoc.get Alloc.none s.hb.allocs 1).live = false) : s.allocNumber = some 1 := by
  unfold State.allocNumber firstFrom
  rw [h]; rfl

theorem alloc_at (s : State) (job : BitVec 64) (tb rw : Bool) (n a : Nat) (h : (Assoc.get Alloc.none s.hb.allocs 1).live = false)
    (hp : s.allocPlace tb n = some a) : ∃ u, s.newAlloc job tb rw n = some (1, a, u) := by
  unfold State.newAlloc
  rw [first_number s h, hp]
  exact ⟨_, rfl⟩

theorem crc_of (raw : Bytes) (h : putAt (putAt raw 0x20 (leBytes 4 (crc32c 0 raw).toNat)) 0x20 (zeros 4) = raw) 
    (h32 : (raw.take 32).length = 32) :
    plaudCrcBad (putAt raw 0x20 (leBytes 4 (crc32c 0 raw).toNat)) = false := by
  unfold plaudCrcBad
  rw [h]
  have : fieldAt (putAt raw 0x20 (leBytes 4 (crc32c 0 raw).toNat)) 0x20 4 = (crc32c 0 raw).toNat := by
    unfold fieldAt putAt
    rw [List.append_assoc, List.drop_append_of_le_length (by omega), List.drop_of_length_le (by omega), List.nil_append,
      List.take_append_of_le_length (by rw [leBytes_length]), List.take_of_length_le (by rw [leBytes_length]), leVal_leBytes]
    exact Nat.mod_eq_of_lt (crc32c 0 raw).isLt
  rw [this]; simp

theorem loads_of (s : State) (tag : BitVec 32) (test : Bool) (b : Bytes) (h1 : plaudFormatBad b = false) (h2 : plaudFieldBad b = false) (h3 : plaudCrcBad b = false)
    (h4 : fieldAt b 0x18 4 = Config.rowsem.toNat)
    (h5 : plaudInputsBad b = false)
    (h6 : ∃ u n, s.newAlloc (plaudJob b) false false (plaudBytes b) = some (n, itemStoreEnd, u)) (h7 : plaudAllocs b = []) (h8 : plaudDescs b = [])
    (h9 : joinExchCode b = none) (ha : secEntries b 7 64 = []) (hb : layoutOffs b (secCount b 8) (secOff b 8) = [])
    (hc : secEntries b 1 64 = []) (hd : ∀ j : Job, s.flowCode b j [] = none) (he : (s.job? (plaudJob b)).isSome = false)
    (hf : s.replicaShort (plaudJob b) = false) : ∃ u, s.loadPlaud tag test b = .ok u := by
  obtain ⟨u, n, h6⟩ := h6
  have k1 : ∀ v : State, v.makeAllocs b (plaudJob b) [] [] = some (v, []) := fun _ => rfl
  have k2 : ∀ (v : State) d, v.plaudDescCode [] d [] (plaudJob b) = none := fun _ _ => rfl
  have k3 : ∀ v : State, v.placeTables (plaudJob b) [] [] = .ok v := fun _ => rfl
  have k4 : ∀ v : State, v.addReleases [] = some v := fun _ => rfl
  have k5 : repeats [] = false := rfl
  unfold State.loadPlaud
  simp only [h1, h2, h3, h4, h5, h6, h7, h8, h9, ha, hb, hc, hd, he, hf, k1, k2, k3, k4, k5, Bool.or_self,
    plaudFlows, List.map_nil, List.any_nil, ne_eq, not_true_eq_false, if_false,
    Bool.false_eq_true]
  exact ⟨_, rfl⟩

theorem up_loads (b : Bytes) (h1 : plaudFormatBad b = false) (h2 : plaudFieldBad b = false) (h3 : plaudCrcBad b = false)
    (h4 : fieldAt b 0x18 4 = Config.rowsem.toNat)
    (h5 : plaudInputsBad b = false)
    (h6 : up.cmdTaken.allocPlace false (plaudBytes b) = some itemStoreEnd) (h7 : plaudAllocs b = []) (h8 : plaudDescs b = [])
    (h9 : joinExchCode b = none) (ha : secEntries b 7 64 = []) (hb : layoutOffs b (secCount b 8) (secOff b 8) = [])
    (hc : secEntries b 1 64 = []) : ∃ u, up.cmdTaken.loadPlaud 9 false b = .ok u :=
  loads_of _ _ _ b h1 h2 h3 h4 h5
    (let ⟨u, h⟩ := alloc_at up.cmdTaken (plaudJob b) false false (plaudBytes b) itemStoreEnd rfl h6; ⟨u, _, h⟩) h7 h8 h9 ha hb hc
    (fun j => by unfold State.flowCode; simp [repeats]; decide +kernel) rfl rfl

theorem plaud_rowsem (x : Bytes) (h : fieldAt (plaud x) 0x18 4 = leVal (leBytes 4 Config.rowsem.toNat)) :
    fieldAt (plaud x) 0x18 4 = Config.rowsem.toNat := by
  rw [h, leVal_leBytes]
  exact Nat.mod_eq_of_lt Config.rowsem.isLt

theorem plaud_loads : ∃ u, up.cmdTaken.loadPlaud 9 false (plaud []) = .ok u := by
  refine up_loads (plaud []) ?_ ?_ (crc_of _ rfl rfl) (plaud_rowsem _ rfl) ?_ ?_ ?_ ?_ ?_ ?_ ?_ ?_ <;> decide +kernel
theorem plaud_input_loads : ∃ u, up.cmdTaken.loadPlaud 9 false (plaud inputEntry) = .ok u := by
  refine up_loads (plaud inputEntry) ?_ ?_ (crc_of _ rfl rfl) (plaud_rowsem _ rfl) ?_ ?_ ?_ ?_ ?_ ?_ ?_ ?_ <;> decide +kernel

theorem inputs_none : up.startInputs (plaudFiles (plaud [])) (plaudInputs (plaud [])) = .ok [] := by
  have h : plaudInputs (plaud []) = [] := by decide +kernel
  rw [h]; rfl

/-- The first block of the one file is not in tier C. -/
theorem inputs_unread : up.startInputs (plaudFiles (plaud inputEntry)) (plaudInputs (plaud inputEntry)) = .error 0x0817 := by
  have h : plaudInputs (plaud inputEntry) =
    [{ rec' := { table := 1, format := 1, rows := 4, cols := 1, chunks := [] }, files := 1, file0 := 0, rsv := false }] := by
    decide +kernel
  have g : plaudFiles (plaud inputEntry) = [{ nsid := 0, lba := 0, bytes := 1, rsv := false }] := by decide +kernel
  rw [h, g]; rfl

def flowA : FlowRun := { run1 with decl := { flow1 with flow := 3, cls := 0, batch := false, window := 1 } }
def jobA : Job := { job7 with flows := [flowA] }
def keyA : ItemKey := { flow := 3, seq := 0 }
def reqA : Item := { item1 with key := keyA, cls := 0, phase := .accepted, core := none, reply := .host 9 64 }
def classAState (items : List Item) : State := { up with hb := { up.hb with jobs := [jobA], items := items } }
def attachOf (flow slots slotBytes : BitVec 32) : RingAttach :=
  { flow := flow, slots := slots, slotBytes := slotBytes, base := 0, comp := 0, rkey := 1, consQpn := 2, standby := 0 }

theorem witness_HostCommands :
    (up.rst.hostReset = false ∧ up.rst.boot = .ready ∧ up.host.waiting = []) ∧
    ((∃ code, up.cmdTaken.loadPlaud 9 false [] = .error code) ∧ (∃ u, up.cmdTaken.loadPlaud 9 false (plaud []) = .ok u) ∧
      (∃ u, up.cmdTaken.loadPlaud 9 false (plaud inputEntry) = .ok u)) ∧
    (up.startInputs (plaudFiles (plaud [])) (plaudInputs (plaud [])) = .ok [] ∧
      up.startInputs (plaudFiles (plaud inputEntry)) (plaudInputs (plaud inputEntry)) = .error 0x0817) ∧
    up.job? 7 = none ∧
    (let s := loaded itemCore [item1]
     s.rst.hostReset = false ∧ s.rst.boot = .ready ∧ s.job? 7 = some job7 ∧ job7.stopped = none ∧ job7.finalSent = false ∧ job7.test = false) ∧
    (2 ^ 20 ≤ (attachOf 0x100000 0 4096).flow.toNat ∧ 2 ^ 20 ≤ (attachOf 0xFFFFFFFF 0 4096).flow.toNat) ∧
    up.flow? ((attachOf 1 2 4096).flow.setWidth 20) = none ∧
    (let s := slurryState exchAt
     s.flow? ((attachOf 2 2 4096).flow.setWidth 20) = some (job7x, flow2) ∧ flow2.decl.batch = false) ∧
    (let s := loaded fwCore []
     s.flow? ((attachOf 1 2 4096).flow.setWidth 20) = some (job7, run1) ∧ run1.decl.batch = true ∧ run1.ring = none ∧
     run1.stopped = false ∧ job7.stopped = none ∧ s.ring? 0 = none ∧ (∀ k, k < 0 → s.ring? k ≠ none) ∧
     (∀ a ∈ [attachOf 1 2 4096, attachOf 1 65536 4096, attachOf 1 2 0xFFFFF000],
       run1.decl.outMax ≤ a.slotBytes.toNat ∧ a.slotBytes.toNat % 4096 = 0 ∧ 2 ≤ a.slots.toNat ∧ a.slots.toNat ≤ 65536) ∧
     (∀ a ∈ [attachOf 1 1 4096, attachOf 1 65537 4096, attachOf 1 2 4095],
       ¬ (run1.decl.outMax ≤ a.slotBytes.toNat ∧ a.slotBytes.toNat % 4096 = 0 ∧ 2 ≤ a.slots.toNat ∧ a.slots.toNat ≤ 65536))) := by
  refine ⟨by decide, ⟨⟨_, rfl⟩, plaud_loads, plaud_input_loads⟩, ⟨inputs_none, inputs_unread⟩, rfl, by decide +kernel, by decide +kernel, rfl, by decide +kernel, ?_⟩
  · refine ⟨by decide +kernel, by decide, by decide, by decide, by decide, by decide +kernel, fun k h => by omega, by decide, by decide⟩

/-- A request: no class A flow, the window of the flow full or not; the end of a window. -/
theorem witness_HostCommands_classa :
    (∀ (j : Job) (f : FlowRun), (loaded fwCore []).flow? ((1 : BitVec 32).setWidth 20) = some (j, f) → f.decl.cls ≠ 0) ∧
    ((classAState []).flow? ((3 : BitVec 32).setWidth 20) = some (jobA, flowA) ∧ flowA.decl.cls = 0 ∧ jobA.stopped = none ∧ jobA.finalSent = false ∧
      flowA.decl.window ≤ ((classAState [reqA]).hb.items.filter (fun it => it.key.flow = flowA.decl.flow)).length ∧
      ((classAState []).hb.items.filter (fun it => it.key.flow = flowA.decl.flow)).length < flowA.decl.window ∧
      (classAState []).item? (keyOf flowA.decl.flow flowA.next) = none ∧ flowA.decl.outMax = 0) ∧
    (∃ num base u, (classAState []).cmdTaken.newAlloc jobA.job false false (roundUpTo (([1] : Bytes).length + 1) 64) = some (num, base, u)) ∧
    up.hb.winItems = [] ∧
    (let s := classAState [reqA]
     let s := { s with hb := { s.hb with winItems := [keyA] } }
     s.hb.winItems = [keyA] ∧ s.item? keyA = some reqA ∧ reqA.phase = .accepted ∧ reqA.reply = .host 9 64 ∧
       s.mem.poisoned reqA.out (min reqA.outBytes 32768) = false) ∧
    ((classAState []).twin.state ≠ .detaching ∧
      ({ classAState [] with twin := { up.twin with state := .detaching } } : State).twin.state = .detaching) := by
  refine ⟨fun j f h => ?_, by decide +kernel, ?_, rfl, by decide +kernel, by decide⟩
  · have h' : (loaded fwCore []).flow? ((1 : BitVec 32).setWidth 20) = some (job7, run1) := by decide +kernel
    rw [h'] at h; cases h; decide
  · obtain ⟨u, h⟩ := alloc_at (classAState []).cmdTaken jobA.job false false (roundUpTo (([1] : Bytes).length + 1) 64) itemStoreEnd rfl
      (by decide +kernel)
    exact ⟨_, _, u, h⟩

/-! ### Items, the reel, leases -/

def runIn : FlowRun := { run1 with decl := { flow1 with producer := 1 } }
def msg0 (t : BitVec 8) (part : BitVec 32) (seq : BitVec 64) (value : BitVec 32) (payload : Bytes) : Msg :=
  Msg.withCrc t
    { qp := 0, version := 1, exch := 0, cls := 1, gen := 0, job := 0, src := 1, dst := 0, part := part, round := 0,
      length := BitVec.ofNat 32 payload.length, seq := seq, value := value, rsv := 0, crc := 0, payload := payload }
def jobState (j : Job) (items : List Item) (allocs : Assoc Alloc) : State :=
  { up with hb := { up.hb with jobs := [j], items := items, allocs := allocs } }
def jobWith (f : FlowRun) (chunks : List Chunk) : Job := { job7 with flows := [f], inputs := [{ input1 with chunks := chunks }] }
def chunk1 : Chunk := { col := 0, first := 0, rows := 4, nsid := 1, lba := 5, off := 0, bytes := 1 }

/-- Flow 1 with one chunk: unreadable, with no room, and read. -/
def unread : State := jobState (jobWith runIn [chunk1]) [] []
def inRead : State := { unread with mem := { up.mem with tierC := [(1, 5, Block.seal { nsid := 1, gen := 1 } 5 (zeros 4096))] } }
def noRoom : State := { inRead with hb := { inRead.hb with
  allocs := [(2, { rec1 with base := itemStoreEnd, extent := tierAEnd - itemStoreEnd })] } }
def stagedIn : Option (Option (State × List Input)) → List Input
  | some (some (_, ins)) => ins
  | _ => []

theorem witness_ItemLife_ingress :
    (∀ q ∈ [0, 3], (jobState (jobWith runIn []) [] []).flow? 1 = some (jobWith runIn [], runIn) ∧
      (jobState (jobWith runIn []) [] []).job? 7 = some (jobWith runIn []) ∧ runIn.decl.trigger = 1 ∧
      (jobState (jobWith runIn []) [] []).mayCreate (jobWith runIn []) runIn q = true ∧ (∀ x ∈ runIn.staged, x.1 ≠ q) ∧
      runIn.staged.length < runIn.stageMax ∧ (jobWith runIn []).input? runIn.decl.producer = some input1) ∧
    (jobWith runIn [chunk1]).input? runIn.decl.producer = some { input1 with chunks := [chunk1] } ∧
    ({ input1 with chunks := [chunk1] } : InputRec).chunksOf 0 2 = [chunk1] ∧ runIn.stageFits [chunk1] = true ∧
    runIn.stageFits [{ chunk1 with bytes := 2 ^ 40 }] = false := by decide +kernel

theorem witness_ItemLife_unread : (unread.stage 7 [chunk1] []).isNone = true := by decide +kernel
/-- The chunk's block deciphers to zeros. -/
theorem read_chunk (s : State) (h : s.mem.tierC = inRead.mem.tierC) (hu : s.up = true) (hk : s.sec = up.sec) (hn : s.mem.tierCUnused = []) :
    s.chunkBytes chunk1 = some [0] := by
  have hb : s.tierCBlock 1 5 = some (zeros 4096) := by
    unfold State.tierCBlock
    rw [h, hn, hu, hk]
    show (if _ then some (Block.seal { nsid := 1, gen := 1 } 5 (zeros 4096)).plain else none) = _
    rw [Block.plain_seal]
    simp [State.nsKey, hk]
    exact ⟨rfl, rfl⟩
  have hr : s.tierCRead 1 5 1 = some (zeros 4096) := by
    unfold State.tierCRead State.tierCRead
    rw [hb]
    simp
  show (s.tierCRead 1 5 1).map (fun b => (b.drop 0).take 1) = _
  rw [hr]
  decide +kernel
theorem witness_ItemLife_noRoom : (noRoom.stage 7 [chunk1] []).map (·.isNone) = some true := by
  unfold State.stage
  rw [read_chunk noRoom rfl (by decide) rfl rfl]
  decide +kernel
theorem witness_ItemLife_read : stagedIn (inRead.stage 7 [chunk1] []) = [{ addr := itemStoreEnd, bytes := 1, alloc := 1 }] := by
  unfold State.stage
  rw [read_chunk inRead rfl (by decide) rfl rfl]
  decide +kernel

/-- Creation of item 3 from what is staged. -/
def stagedRun : FlowRun := { runIn with staged := [(3, [])] }
/-- Item 0 created, its affinity core 0 of Vat 0. -/
def item0 : Item := { item1 with phase := .created, core := none, affinity := some c0 }
def nowhere (s : State) : State := { s with hb := { s.hb with dispatchOff := (List.range 64).map (BitVec.ofNat 6) } }
theorem nowhere_takes (s : State) (it : Item) (d : CoreId) : (nowhere s).mayTake it d = false := by
  have h : ((List.range 64).map (BitVec.ofNat 6)).contains d.vat = true := by
    have : ∀ v : BitVec 6, ((List.range 64).map (BitVec.ofNat 6)).contains v = true := by decide +kernel
    exact this _
  unfold State.mayTake State.suits State.vatClosed nowhere
  simp only [h, Bool.true_or, Bool.not_true, Bool.and_false, Bool.false_and]

/-- Item 0 of a CHAIN flow whose producer item is finished or still runs; of a ROUND flow whose round is open, complete and empty,
complete with rows, and of which the build is full. -/
def flowC : FlowRun := { run1 with decl := { flow1 with flow := 4, trigger := 2, producer := 1, span := 1, items := 4 } }
def jobC : Job := { job7 with flows := [run1, flowC] }
def flowR : FlowRun := { run1 with decl := { flow1 with flow := 5, trigger := 3, producer := 1, batch := false, items := 2 } }
def jobR (js : List JoinRec) : Job := { job7x with flows := [run1, flow2, flowR], joins := js }
def roundState (js : List JoinRec) (ended : List (BitVec 14 × Nat × Nat)) (rows : List RxRows) : State :=
  { slurryState { exchAt with ended := ended, staged := rows } with hb := { up.hb with jobs := [jobR js] } }
def joinB : JoinRec := { join0 with kind := 1, flags := 0x36 }

theorem witness_ItemLife_chain :
    let s := fun (p : Phase) => jobState jobC [{ item1 with phase := p, core := none }] []
    let j := jobC
    let f := flowC
    ∀ p ∈ [Phase.accepted, .created],
      (s p).flow? 4 = some (j, f) ∧ (s p).job? 7 = some j ∧ f.decl.trigger = 2 ∧ j.flow? f.decl.producer = some run1 ∧
      (s p).mayCreate j { f with next := (s p).skipOthers j f f.next } 0 = true ∧ j.producerItems f.decl 0 = [0] ∧
      (s p).assigned j run1.decl 0 (s p).straps.modid = true ∧ (s p).item? (keyOf 1 0) = some { item1 with phase := p, core := none } ∧
      Phase.done .accepted = true ∧ Phase.done .created = false ∧ f.decl.outMax = 0 := by decide +kernel

theorem witness_ItemLife_round :
    (∀ js ∈ [[], [joinB]], ∀ ended ∈ [[], [((0 : BitVec 14), 0, 4)]], ∀ rows ∈ [[], [row0]],
      let s := roundState js ended rows
      let j := jobR js
      let f := flowR
      s.flow? 5 = some (j, f) ∧ s.job? 7 = some j ∧ f.decl.trigger = 3 ∧ j.exch? f.decl.producer = some exch1 ∧
      s.exch? j.job f.decl.producer = some { exchAt with ended := ended, staged := rows } ∧
      s.mayCreate j { f with next := s.skipOthers j f f.next } 0 = true ∧
      s.roundComplete j exch1 { exchAt with ended := ended, staged := rows } 0 0 = decide (ended ≠ []) ∧ s.roundFull j f.decl 0 = decide (js ≠ []) ∧
      f.decl.outMax = 0 ∧ row0.bytes ≠ []) ∧
    ∃ u, (roundState [] [(0, 0, 4)] [row0]).newAlloc 7 false false (roundUpTo row0.bytes.length 64) = some (1, itemStoreEnd, u) :=
  ⟨by decide +kernel, alloc_at _ _ _ _ _ _ rfl (by decide +kernel)⟩

theorem witness_ItemLife_start :
    (let j := jobWith stagedRun []
     let s := jobState j [] []
     s.flow? 1 = some (j, stagedRun) ∧ s.job? 7 = some j ∧ j.modules = [s.straps.modid] ∧ stagedRun.decl.trigger = 1 ∧
     s.mayCreate j stagedRun 3 = true ∧ stagedRun.staged.find? (fun x => x.1 = 3) = some (3, []) ∧ stagedRun.decl.outMax = 0) ∧
    (let j := jobWith runIn []
     let s := jobState j [item0] []
     s.item? key1 = some item0 ∧ s.mayDispatch item0 = true ∧ item0.cls ≠ 0 ∧ item0.affinity = some c0 ∧ runIn.lastCore = none ∧
     s.takerIn item0 0 = some c0 ∧ s.hb.pull = false ∧ ({ s with hb := { s.hb with pull := true } } : State).takerIn item0 0 = some c0 ∧
     (nowhere s).flow? 1 = some (j, runIn) ∧ (nowhere s).job? 7 = some j ∧
     (nowhere s).item? key1 = some item0 ∧ (nowhere s).mayDispatch item0 = true) ∧
    (let a := { item0 with cls := 0, phase := .queued }
     let b := { item0 with phase := .queued }
     let s := fun (it : Item) (v : BitVec 6) => { jobState (jobWith runIn []) [it] [] with
       hb := { (jobState (jobWith runIn []) [it] []).hb with queued := [(v, key1)] } }
     (s a 0).queuedFor 0 (some 0) c0 = [a] ∧ (s b 0).nextFor c0 = some b ∧
     (s a 0).idle c0 = true ∧ (s a 0).twin.state ≠ .detaching ∧ (s a 0).hb.pull = false ∧
     (let p := { s b 0 with hb := { (s b 0).hb with pull := true, slots := [(c0, key1)] } }
      p.idle c0 = true ∧ p.hb.slots.find? (fun x => x.1 = c0) = some (c0, key1) ∧ p.item? key1 = some b ∧ p.suits b c0 = true ∧
      ({ p with hb := { p.hb with firmwareFault := [c0] } } : State).suits b c0 = false) ∧ (s b 0).vatClosed 0 = false ∧
     (s b 1).item? key1 = some b ∧ b.phase = .queued ∧ (s b 1).mayTake b c0 = true ∧ (∀ x ∈ (s b 1).hb.queued, x.1 ≠ 0)) := by
  decide +kernel

/-- Release of item 3 of 4; egress of batch 3 with a free slot, before its reel, with the ring full. -/
def itemEnd (p : Phase) : Item := { item1 with key := { flow := 1, seq := 3 }, phase := p, core := none }
def runOut (released egressed : Nat) : FlowRun := { run1 with next := 4, released := released, egressed := egressed, ring := some 2 }
def ring2 : Ring :=
  { number := 2, flow := 1, base := 0, comp := 0, slots := 2, slotBytes := 4096, rkey := 5, consQpn := 1, standby := 0, finished := 2,
    written := 3 }
def outState (f : FlowRun) (it : Item) (reel : BitVec 48) (r : Ring) : State :=
  { up with hb := { up.hb with jobs := [{ job7 with flows := [f] }], items := [it], rings := [r], reel := reel } }

theorem witness_ItemLife_end :
    (let f := runOut 3 3
     let s := outState f (itemEnd .accepted) 4 ring2
     s.flow? 1 = some ({ job7 with flows := [f] }, f) ∧ f.decl.cls ≠ 0 ∧ f.decl.batch = true ∧ f.decl.trigger ≠ 3 ∧ f.stopped = false ∧
     job7.modules = [s.straps.modid] ∧ f.released = 3 ∧ f.egressed ≤ 3 ∧ f.egressed < f.decl.items ∧ s.item? { flow := 1, seq := 3 } = some (itemEnd .accepted) ∧
     s.item? (keyOf 1 4) = none ∧ ∀ x ∈ s.hb.items, x.key.flow = 1 → x.phase = .accepted → 3 ≤ x.key.seq.toNat) ∧
    (let f := runOut 4 3
     let s := fun (reel : BitVec 48) (r : Ring) => outState f (itemEnd .released) reel r
     (s 4 ring2).flow? 1 = some ({ job7 with flows := [f] }, f) ∧ f.egressed = 3 ∧ f.ring = some 2 ∧
     (s 4 ring2).item? { flow := 1, seq := 3 } = some (itemEnd .released) ∧ (s 4 ring2).flowRing? f = some ring2 ∧
     f.decl.dueBase + 3 * f.decl.dueStep - f.decl.lead = 4 ∧ (s 3 ring2).hb.reel.toNat < 4 ∧ 4 ≤ (s 4 ring2).hb.reel.toNat ∧
     3 < ring2.finished + ring2.slots ∧ 1 + ring2.slots ≤ 3 ∧ (s 4 ring2).meter.queue.length < 4096 ∧
     (s 4 ring2).mirrored = false ∧ (s 4 ring2).twin.state ≠ .detaching ∧ (s 4 ring2).leaseStopped 1 1 = false ∧ ring2.rkey ≠ 0 ∧ (s 4 ring2).fab.stopped = false ∧
     (s 4 ring2).mem.poisoned (itemEnd .released).out (itemEnd .released).outBytes = false) ∧
    (let s := outState (runOut 4 3) (itemEnd .released) 3 ring2
     s.rst.boot = .ready ∧ s.rst.hostReset = false ∧ s.fabricRing? 0 2 = some ring2 ∧
     (outState (runOut 4 3) (itemEnd .released) 3 { ring2 with rkey := 0 }).hostRing? 2 = some { ring2 with rkey := 0 } ∧
     (let m := { msg0 0x21 2 0 0 [] with rsv := 3 }.withCrc 0x21
      m.part.toNat = 2 ∧ m.rsv.toNat = (3 : BitVec 64).toNat ∧ (s.rst.boot = .ready ∧ m.type = 0x21 ∧ m.by' = .send ∧ m.ce = false) ∧ hbMessage 0x21 m 8 = true ∧ m.to = s.straps.modid ∧
      (s.genOf m.from).toNat ≤ m.gen.toNat) ∧
     ring2.finished ≤ 3 ∧ 3 ≤ ring2.written ∧ ¬ 4 ≤ ring2.written ∧ ¬ ring2.finished ≤ 1) := by
  decide +kernel

/-! ### The reel and leases -/

def reelState (source reel : Nat) (qp : BitVec 32) (edge : Bool) : State :=
  { up with dict := { Dictionary.reset with live := [(0x300003, source)] },
            hb := { up.hb with reel := BitVec.ofNat 48 reel, reelQp := qp, lastReelEdge := edge } }
def reelMsg : Msg := { msg0 0x20 0 0 0 [] with qp := 9, rsv := BitVec.ofNat 128 (2 ^ 48 - 1) }.withCrc 0x20

theorem witness_ReelAdvances :
    (∀ n ∈ [0, 1, 2], (reelState n 0 0 false).furn 0x300003 0 = n ∧ (reelState n 0 0 false).rst.boot = .ready ∧
      (reelState n 0 0 false).rst.hostReset = false ∧ (reelState n 0 0 false).hb.reel.toNat < 2 ^ 48 - 1 ∧
      (reelState n (2 ^ 48 - 2) 0 false).hb.reel.toNat < 2 ^ 48 - 1 ∧ (reelState n (2 ^ 48 - 1) 0 false).hb.reel.toNat = 2 ^ 48 - 1 ∧
      ∀ d ∈ (reelState n 0 0 false).hb.delays, ¬ (0 < d.value ∧ d.value ≤ 2 ^ 48 - 1)) ∧
    (let s := reelState 0 0 9 false
     (reelMsg.type = 0x20 ∧ reelMsg.by' = .send ∧ reelMsg.ce = false) ∧ hbMessage 0x20 reelMsg 6 = true ∧ reelMsg.to = s.straps.modid ∧ (s.genOf reelMsg.from).toNat ≤ reelMsg.gen.toNat ∧
     s.hb.reelQp ≠ 0 ∧ reelMsg.qp.setWidth 32 = s.hb.reelQp ∧ reelMsg.qp.setWidth 32 ≠ (reelState 0 0 8 false).hb.reelQp) ∧
    ((reelState 2 0 0 false).hb.lastReelEdge = false ∧ (reelState 2 0 0 true).hb.lastReelEdge = true ∧ 100 ≤ 100 ∧ 1000 ≤ 1000 ∧
      999 < 1000 ∧ 49 < 50) := by decide +kernel

/-- An entry of each kind due at reel 9 (of kind 3: at the reel of the batch), by each source. -/
def due (kind object : Nat) : DelayEntry := { value := 9, kind := kind, object := object, list := 0 }
def dueState (source : Nat) (d : DelayEntry) (r : Ring) : State :=
  let s := outState (runOut 4 3) (itemEnd .released) 8 r
  { s with
    hb := { s.hb with delays := [d], reelQp := 9 }
    dict := { Dictionary.reset with live := [(0x300003, source)], schedule := [(9, 1)] }
    twin := { up.twin with
      leases := [{ kind := 3, object := 1, number := 4, holderGen := 0, expiry := 9, mine := false, stopped := false }] } }
def dueMsg : Msg := { msg0 0x20 0 0 0 [] with qp := 9, rsv := 9 }.withCrc 0x20
theorem moved (d : DelayEntry) (r : Ring) (b : Nat) (h : 8 < b ∧ b < 2 ^ 48) :
    MovesReel (dueState 1 d r) (.reelAdvance (.doorbell (BitVec.ofNat 64 b))) b (dueState 1 d r) := by
  refine ⟨rfl, (by decide : (8 : BitVec 48).toNat < 2 ^ 48 - 1), h.1, .inl ⟨_, rfl, rfl, rfl, ?_, rfl⟩⟩
  rw [BitVec.toNat_ofNat]
  omega

theorem witness_DelayOrder :
    (∀ d r, MovesReel (dueState 1 d r) (.reelAdvance (.doorbell (BitVec.ofNat 64 9))) 9 (dueState 1 d r) ∧
      MovesReel (dueState 1 d r) (.reelAdvance (.doorbell (BitVec.ofNat 64 (2 ^ 48 - 1)))) (2 ^ 48 - 1) (dueState 1 d r)) ∧
    MovesReel (dueState 0 (due 2 1) ring2) (.reelAdvance (.message dueMsg)) 9 (dueState 0 (due 2 1) ring2) ∧
    MovesReel (dueState 2 (due 2 1) ring2) (.reelInPulse 100 0) 9 { dueState 2 (due 2 1) ring2 with
      free := (dueState 2 (due 2 1) ring2).free + 1, hb := { (dueState 2 (due 2 1) ring2).hb with lastReelEdge := true } } ∧
    (∀ d ∈ [due 0 1, due 1 4, due 2 1, due 3 1], (dueState 1 d ring2).hb.delays.filter (fun d => d.value = 9) = [d]) ∧
    ((dueState 1 (due 0 1) ring2).dict.schedule.find? (fun y => y.1.toNat = 9) = some (9, 1)) ∧
    (∃ l, (dueState 1 (due 1 4) ring2).twin.leases.find? (fun l => !l.mine && l.number.toNat = 4) = some l ∧
      (dueState 1 (due 1 4) ring2).lease? false l.kind l.object = some l ∧ l.expiry.toNat ≤ 9) ∧
    ((reelAt (dueState 1 (due 3 1) ring2) 9).egressReady 1).isSome = true ∧
    ((reelAt (dueState 1 (due 3 1) { ring2 with finished := 1 }) 9).egressReady 1).isNone = true := by
  refine ⟨fun d r => ⟨moved d r 9 (by decide), moved d r _ (by decide)⟩, ⟨rfl, by decide, by decide, .inr (.inl ⟨_, rfl, ?_⟩)⟩,
    ⟨rfl, by decide, by decide, .inr (.inr ⟨100, 0, rfl, by decide, .inr rfl, rfl, rfl, rfl⟩)⟩, by decide, by decide, ⟨_, rfl, by decide, by decide⟩,
    by decide +kernel, by decide +kernel⟩
  unfold Accepts Arrives
  decide +kernel

def lease (mine : Bool) (kind : BitVec 8) (expiry : BitVec 48) : Lease :=
  { kind := kind, object := 1, number := 4, holderGen := 0, expiry := expiry, mine := mine, stopped := false }
def leaseState (l : Lease) (reel : BitVec 48) : State :=
  { up with hb := { up.hb with reel := reel }, twin := { up.twin with leases := [l] } }

theorem witness_Leases :
    (let s := fun (reel : BitVec 48) => leaseState (lease true 3 1000) reel
     (s 0).furn 0x4C000E 16 = 16 ∧ (s 0).furn 0x4C000D 256 = 256 ∧
     (s 984).lease? true 3 1 = some (lease true 3 1000) ∧ 1000 ≤ 984 + (s 984).furn 0x4C000E 16 ∧
     1000 < 873 + (s 873).furn 0x4C000D 256 / 2 ∧ (s 873).fab.stopped = false ∧ (s 873).twin.couchUp = true) ∧
    (let s := leaseState (lease false 3 1000) 1000
     s.lease? false 3 1 = some (lease false 3 1000) ∧ (lease false 3 1000).expiry.toNat ≤ s.hb.reel.toNat ∧ (3 : BitVec 8) ≠ 1 ∧
     (3 : BitVec 8) ≠ 2) ∧
    (let s := leaseState (lease false 1 1000) 1000
     s.lease? false 1 1 = some (lease false 1 1000) ∧ s.flow? ((1 : BitVec 32).setWidth 20) = none) := by decide +kernel

/-! ### Queue pairs and fabric messages -/

def qp1 (error : Bool) (retries : Nat) : Qp :=
  { number := 1, peer := 1, remote := 0, cls := 1, port := 0, ip := 0, rateNum := lineRate, rateDen := 1, retries := retries, rnr := 0,
    error := error, unacked := [(0x46, msg0 0x46 1 0 0 [])] }
/-- The oldest message is a CLASSA_RESP of a good request, or of a degraded one. -/
def qpResp (st : BitVec 16) : Qp := { qp1 false 0 with unacked := [(0x31, msg0 0x31 0 5 0 (leBytes 2 st.toNat ++ zeros 14))] }
def qpState (q : Qp) : State := { up with fab := { Fabric.reset with qps := [q] } }

theorem witness_QueuePairs :
    (qpState (qp1 true 7)).qp? 1 = some (qp1 true 7) ∧ (qpState (qp1 false 7)).qp? 1 = some (qp1 false 7) ∧
    (qpState (qp1 false 6)).qp? 1 = some (qp1 false 6) ∧ 0 < (qp1 false 0).rateDen ∧ 2 ≤ (qpState (qp1 false 0)).furn 0x4C0002 16 ∧
    (qpState (qp1 false 0)).fab.stopped = false ∧ (qp1 false 0).unacked ≠ [] ∧ ({ qp1 false 0 with unacked := [] } : Qp).unacked = [] ∧
    (∀ st ∈ [(0 : BitVec 16), 0x0920], ∃ m, (qpResp st).unacked = [(0x31, m)] ∧ fieldAt m.payload 0 2 = st.toNat) := by
  refine ⟨by decide +kernel, by decide +kernel, by decide +kernel, by decide +kernel, by decide +kernel, by decide +kernel, by decide +kernel, rfl, fun st h => ⟨_, rfl, ?_⟩⟩
  simp only [List.mem_cons, List.not_mem_nil, or_false] at h
  rcases h with rfl | rfl <;> decide

def asking : UnitCmd :=
  { unit := 6, inst := 0, core := c0, ticket := 0, cls := 1, block := zeros 64, item := none, attempt := 0, 
    asked := [(5, 1, [0])] }

theorem good_msg (t : BitVec 8) (m : Msg)
    (h : (m.version = 1 ∧ m.cls.toNat < 4) ∧ m.src.toNat < 2 ^ 14 ∧ m.dst.toNat < 2 ^ 14 ∧ m.length.toNat = m.payload.length) :
    (m.withCrc t).wellFormed t = true := by
  have e : (m.withCrc t).crc = (m.withCrc t).check t := rfl
  unfold Msg.wellFormed
  rw [← e]
  show (m.version = 1 && m.cls.toNat < 4 && m.src.toNat < 2 ^ 14 && m.dst.toNat < 2 ^ 14 && m.length.toNat = m.payload.length &&
    decide ((m.withCrc t).crc = (m.withCrc t).crc)) = true
  simp only [h, decide_true, Bool.and_self]

/-- Taking a message of Table 13.2 without looking at its CRC. -/
theorem takes (s : State) (t : BitVec 8) (m : Msg) (hb : s.rst.boot = .ready) (hc : m.by' = .send ∧ m.ce = false)
    (h : (m.version = 1 ∧ m.cls.toNat < 4) ∧ m.src.toNat < 2 ^ 14 ∧ m.dst.toNat < 2 ^ 14 ∧ m.length.toNat = m.payload.length)
    (h0 : m.exch = 0 ∧ m.round = 0 ∧ m.rsv = 0 ∧ m.to = s.straps.modid) (hg : (s.genOf m.from).toNat ≤ m.gen.toNat) :
    TakesMsg s t (m.withCrc t) :=
  ⟨⟨hb, ⟨rfl, hc⟩, good_msg t m h, h0⟩, hg⟩

theorem up_takes (k : BitVec 8) (a : BitVec 32) (b : BitVec 64) (c : BitVec 32) (p : Bytes)
    (h : (BitVec.ofNat 32 p.length).toNat = p.length) : TakesMsg up k (msg0 k a b c p) :=
  takes up k _ rfl ⟨rfl, rfl⟩ ⟨⟨rfl, (by decide : (1 : BitVec 8).toNat < 4)⟩, (by decide : (1 : BitVec 16).toNat < 2 ^ 14),
    (by decide : (0 : BitVec 16).toNat < 2 ^ 14), h⟩ ⟨rfl, rfl, rfl, rfl⟩ (Nat.zero_le _)

def heldReq : HeldReq := { msg := msg0 0x30 1 5 0 [1], failed := false, fresh := true }

theorem witness_FabricMessages :
    (TakesMsg up 0x31 (msg0 0x31 0 5 0 [1]) ∧ TakesMsg up 0x33 (msg0 0x33 0 5 0 [1]) ∧
      (∃ u ∈ ({ up with units := [asking] } : State).units, ∃ a ∈ u.asked, a.1 = (5 : BitVec 64))) ∧
    (TakesMsg up 0x30 (msg0 0x30 1 5 0 [1]) ∧ up.buffersFull (msg0 0x30 1 5 0 [1]).qp = false ∧ up.fab.heldA = [] ∧
      ({ up with fab := { Fabric.reset with heldA := [heldReq] } } : State).fab.heldA ≠ [] ∧
      ({ up with fab := { Fabric.reset with heldA := List.replicate 4096 heldReq } } : State).buffersFull
        (msg0 0x30 1 5 0 [1]).qp = true ∧ up.flow? ((1 : BitVec 32).setWidth 20) = none ∧ up.fab.stopped = false) ∧
    (TakesMsg up 0x32 (msg0 0x32 0 5 0 (zeros 16)) ∧ up.gatherHeld (msg0 0x32 0 5 0 (zeros 16)) = false) ∧
    (let s := { up with felt := { Felt.reset with tables := [table5] } }
     let m := msg0 0x32 0 5 0 (leBytes 8 table5.id.toNat ++ leBytes 8 1)
     TakesMsg s 0x32 m ∧ s.gatherHeld m = true) ∧
    (TakesMsg { up with straps := { up.straps with modid := 4 } } 0x46 ({ msg0 0x46 1 0 9 [] with dst := 4 }.withCrc 0x46) ∧
      (1 : BitVec 14) ≠ ({ up with straps := { up.straps with modid := 4 } } : State).twinId) ∧
    (let s := { up with fab := { Fabric.reset with gens := [(1, 1)] } }
     State.reset.rst.boot ≠ .ready ∧ Addressed s 0x46 (msg0 0x46 1 0 0 []) ∧ (0 : Nat) < (s.genOf 1).toNat) := by
  refine ⟨⟨up_takes _ _ _ _ _ rfl, up_takes _ _ _ _ _ rfl, by decide +kernel⟩, ⟨up_takes _ _ _ _ _ rfl, by decide +kernel, rfl, (fun h => (by cases h)), by decide +kernel, by decide +kernel, rfl⟩,
    ⟨up_takes _ _ _ _ _ rfl, by decide +kernel⟩, ⟨?_, by decide +kernel⟩, ⟨?_, by decide +kernel⟩, by decide, ?_, by decide +kernel⟩
  · exact takes _ _ _ rfl ⟨rfl, rfl⟩ ⟨⟨rfl, by decide⟩, by decide, by decide, rfl⟩ ⟨rfl, rfl, rfl, rfl⟩ (Nat.zero_le _)
  · exact takes _ _ _ rfl ⟨rfl, rfl⟩ ⟨⟨rfl, by decide⟩, by decide, by decide, rfl⟩ ⟨rfl, rfl, rfl, rfl⟩ (Nat.zero_le _)
  · exact ⟨rfl, ⟨rfl, rfl, rfl⟩, good_msg 0x46 _ ⟨⟨rfl, (by decide : (1 : BitVec 8).toNat < 4)⟩, (by decide : (1 : BitVec 16).toNat < 2 ^ 14),
      (by decide : (0 : BitVec 16).toNat < 2 ^ 14), rfl⟩, rfl, rfl, rfl, rfl⟩

/-- A request for a loaded class A flow: it makes an item, or waits as the window is full; messages by another operation, with a CE
mark, of another TYPE. -/
theorem witness_FabricMessages_classa :
    (let m := msg0 0x30 3 5 0 [1]
     (∀ items, TakesMsg (classAState items) 0x30 m) ∧ (classAState []).buffersFull m.qp = false ∧ (classAState []).fab.heldA = [] ∧
       m.part.toNat < 2 ^ 20 ∧ (classAState []).flow? (m.part.setWidth 20) = some (jobA, flowA) ∧ flowA.decl.cls = 0 ∧
       jobA.stopped = none ∧ jobA.finalSent = false ∧
       flowA.decl.window ≤ ((classAState [reqA]).hb.items.filter (fun it => it.key.flow = flowA.decl.flow)).length ∧
       ¬ flowA.decl.window ≤ ((classAState []).hb.items.filter (fun it => it.key.flow = flowA.decl.flow)).length ∧
       (classAState []).twin.state ≠ .detaching ∧ (classAState []).item? (keyOf flowA.decl.flow flowA.next) = none ∧
       (∃ num base u, (classAState []).newAlloc jobA.job false false (roundUpTo (m.payload.length + 1) 64) = some (num, base, u)) ∧
       flowA.decl.outMax = 0) ∧
    (let m := msg0 0x30 3 5 0 [1]
     ({ m with by' := .rdmaWrite } : Msg).by' ≠ .send ∧ ({ m with ce := true } : Msg).ce = true ∧ ¬ Addressed up 0x30 { m with type := 0x52 }) := by
  refine ⟨⟨fun _ => takes _ _ _ rfl ⟨rfl, rfl⟩ ⟨⟨rfl, by decide⟩, by decide, by decide, rfl⟩ ⟨rfl, rfl, rfl, rfl⟩ (Nat.zero_le _), by decide +kernel, rfl,
    by decide, by decide +kernel, rfl, rfl, rfl, by decide +kernel, by decide +kernel, by decide, rfl, ?_, rfl⟩, by decide, rfl, fun h => ?_⟩
  · obtain ⟨u, h⟩ := alloc_at (classAState []) jobA.job false false (roundUpTo (([1] : Bytes).length + 1) 64) itemStoreEnd rfl
      (by decide +kernel)
    exact ⟨_, _, u, h⟩
  · exact absurd h.2.1.1 (by show (0x52 : BitVec 8) ≠ 0x30; decide)

/-! ### Fencing and the twin -/

def fence2 (awaiting : List (BitVec 14)) : Fence :=
  { victim := 3, gen := 1, id := 5, awaiting := awaiting, acked := [], lost := [], again := [],
    committed := false }
def fenceState : State := { up with twin := { up.twin with fences := [fence2 [1, 2]] } }
def frame (t : BitVec 8) (fseq : BitVec 64) (payload : Bytes) : Frame :=
  let f : Frame :=
    { version := 1, rsv := 0, length := BitVec.ofNat 32 payload.length, fseq := fseq, ack := 0, gen := 0, crc := 0,
      payload := payload }
  { f with crc := f.check t }

theorem good_frame (t : BitVec 8) (n : BitVec 64) (p : Bytes)
    (h : (BitVec.ofNat 32 p.length).toNat = p.length ∧ p.length % 32 = 0 ∧ p.length ≤ 1048576) :
    (frame t n p).wellFormed t = true := by
  have e : (frame t n p).crc = (frame t n p).check t := rfl
  unfold Frame.wellFormed
  rw [← e]
  show (decide (1 = (1 : BitVec 8)) && decide ((BitVec.ofNat 32 p.length).toNat = p.length) && decide ((BitVec.ofNat 32 p.length).toNat % 32 = 0) &&
    decide ((BitVec.ofNat 32 p.length).toNat ≤ 1048576) && decide ((frame t n p).crc = (frame t n p).crc)) = true
  rw [h.1]
  simp only [h, decide_true, Bool.and_self]

theorem takes_frame (s : State) (t : BitVec 8) (n : BitVec 64) (p : Bytes) (hb : s.rst.boot = .ready) (hc : s.twin.couchUp = true)
    (hn : n = s.twin.fseqRx + 1) (hg : (s.genOf s.twinId).toNat = 0)
    (h : (BitVec.ofNat 32 p.length).toNat = p.length ∧ p.length % 32 = 0 ∧ p.length ≤ 1048576) : TakesFrame s t (frame t n p) :=
  ⟨hb, good_frame t n p h, hc, hn, Nat.le_of_eq (hg.trans rfl)⟩

/-- The fence of the twin, or of another module, that awaits one acknowledgement; a table with a shard at the twin. -/
def lastAck (victim : BitVec 14) (st : TwinState) : State :=
  { up with
    twin := { up.twin with fences := [{ fence2 [1] with victim := victim }], state := st }
    felt := { Felt.reset with tables := [{ table5 with homes := [(0, 1)] }] } }

theorem witness_Fencing :
    (TakesMsg up 0x40 (msg0 0x40 3 5 1 []) ∧ (msg0 0x40 3 5 1 []).part.toNat < 2 ^ 14 ∧ up.slurry = [] ∧ up.felt.tables = [] ∧
      up.fab.stopped = false) ∧
    ((3 : BitVec 14) ∈ ({ up with fab := { Fabric.reset with fenceSeen := [3] } } : State).fab.fenceSeen) ∧
    (TakesMsg fenceState 0x41 (msg0 0x41 3 5 1 []) ∧
      fenceState.twin.fences.find? (fun f => f.id = (5 : BitVec 64) && f.victim.toNat = (3 : BitVec 32).toNat) =
        some (fence2 [1, 2]) ∧ (1 : BitVec 14) ∈ (fence2 [1, 2]).awaiting ∧ (∃ p ∈ (fence2 [1, 2]).awaiting, p ≠ 1)) ∧
    (fenceState.twin.fences.find? (fun f => !f.committed && f.awaiting.contains 2) = some (fence2 [1, 2]) ∧
      (∃ o ∈ (fence2 [1, 2]).awaiting, o ≠ 2) ∧ fenceState.jobsWith 3 = [] ∧ 2 ∉ (fence2 [1, 2]).again ∧ fenceState.fab.stopped = false) ∧
    (TakesMsg up 0x42 (msg0 0x42 0 0 1 []) ∧ (msg0 0x42 0 0 1 []).part = up.straps.modid.setWidth 32 ∧ up.rst.window = none ∧
      ∀ j ∈ up.hb.jobs, (1 : BitVec 14) ∉ j.modules) ∧
    TakesFrame up 6 (frame 6 1 (zeros 32)) ∧
    (∀ tw ∈ [TwinState.paired, .takeover], let s := lastAck (if tw = .paired then 1 else 3) tw
      TakesMsg s 0x41 (msg0 0x41 (if tw = .paired then 1 else 3) 5 1 []) ∧
      s.twin.fences.find? (fun f => f.id = (5 : BitVec 64) && f.victim.toNat = (if tw = .paired then (1 : BitVec 32) else 3).toNat) =
        some { fence2 [1] with victim := if tw = .paired then 1 else 3 } ∧ s.twin.state = tw) ∧
    ((lastAck 1 .paired).jobsWith 1 = [] ∧ (lastAck 1 .paired).twin.logHeld = [] ∧ (lastAck 1 .paired).felt.waiting = [] ∧
      (lastAck 1 .paired).felt.tables = [{ table5 with homes := [(0, 1)] }]) :=
  ⟨⟨up_takes _ _ _ _ _ rfl, by decide, rfl, rfl, rfl⟩, by decide,
    ⟨takes _ _ _ rfl ⟨rfl, rfl⟩ ⟨⟨rfl, by decide⟩, by decide, by decide, rfl⟩ ⟨rfl, rfl, rfl, rfl⟩ (Nat.zero_le _), by decide +kernel, by decide,
      2, by decide, by decide⟩, ⟨by decide +kernel, ⟨1, by decide, by decide⟩, rfl, by decide, rfl⟩,
    ⟨up_takes _ _ _ _ _ rfl, rfl, rfl, fun j h => nomatch h⟩, takes_frame _ _ _ _ rfl rfl rfl rfl (by decide), fun tw htw => by
      simp only [List.mem_cons, List.not_mem_nil, or_false] at htw
      rcases htw with rfl | rfl <;>
        exact ⟨takes _ _ _ rfl ⟨rfl, rfl⟩ ⟨⟨rfl, by decide⟩, by decide, by decide, rfl⟩ ⟨rfl, rfl, rfl, rfl⟩ (Nat.zero_le _), by decide +kernel, rfl⟩,
    by decide +kernel⟩

def watch (b : Bool) (st : TwinState) (suspect hold : Bool) (probe : Option (BitVec 64)) : State :=
  { up with straps := { up.straps with twinb := b },
            twin := { up.twin with state := st, suspect := suspect, hold := hold, probe := probe } }

theorem witness_TwinWatch :
    (up.rst.boot = .ready ∧ up.fab.stopped = false ∧ up.twin.couchUp = true) ∧
    (∀ st ∈ [TwinState.paired, .resync], (watch false st false false none).twin.state = st ∧
      (watch false st false false none).twin.couchDown = false ∧ (watch false st false false none).twin.suspect = false) ∧
    (TakesMsg up 0x44 (msg0 0x44 0 5 0 []) ∧ (1 : BitVec 14) = up.straps.modid ^^^ 1) ∧
    (TakesMsg (watch false .paired true false (some 5)) 0x45 (msg0 0x45 0 5 0 []) ∧
      (watch false .paired true false (some 5)).twin.suspect = true ∧
      (watch false .paired true false (some 5)).twin.probe = some (msg0 0x45 0 5 0 []).seq) ∧
    (∀ b ∈ [true, false], (watch b .paired true false (some 5)).straps.twinb = b ∧
      (watch b .paired true false (some 5)).twin.probe.isSome = true ∧ (watch b .paired true false (some 5)).hb.jobs = []) ∧
    ((watch true .paired true true none).twin.hold = true ∧ (watch true .paired true true none).hb.jobs = []) ∧
    (TakesFrame (watch false .unpaired false false none) 1 (frame 1 1 (leBytes 1 3 ++ zeros 31)) ∧
      twinStateOf (fieldAt (leBytes 1 3 ++ zeros 31) 0 1) = some .paired ∧ (watch false .unpaired false false none).felt.waiting = []) :=
  ⟨by decide, by decide, ⟨up_takes _ _ _ _ _ rfl, by decide⟩,
    ⟨takes _ _ _ rfl ⟨rfl, rfl⟩ ⟨⟨rfl, by decide⟩, by decide, by decide, rfl⟩ ⟨rfl, rfl, rfl, rfl⟩ (Nat.zero_le _), rfl, rfl⟩, by decide, by decide,
    takes_frame _ _ _ _ rfl rfl rfl rfl (by decide), by decide, rfl⟩

/-- A LOG record of table 1 with LSN 1 and no rows. -/
def logPayload : Bytes := logBytes { lsn := 1, table := 1, kind := 1, count := 0, epoch := 0, data := [] }
def logOf : LogRec := { lsn := 1, table := 1, kind := 1, count := 0, epoch := 0, data := [] }
def lsnState : State := { up with twin := { up.twin with state := .paired, lsnTx := 4, mseqTx := 4 } }
/-- A RELEASE record of flow 1, MSEQ 1. -/
def mirrorPayload : Bytes := leBytes 4 2 ++ leBytes 4 1 ++ leBytes 8 1 ++ zeros 48

theorem witness_ReplicaLog :
    (up.logRecords (logPayload.length / 32 + 1) logPayload = [logOf] ∧ logOf.lsn = up.twin.lsnHeld + 1 ∧
      TakesFrame up 2 (frame 2 1 logPayload) ∧ TakesFrame up 9 (frame 9 1 logPayload)) ∧
    ({ up with twin := { up.twin with logHeld := [logOf] } } : State).twin.logHeld ≠ [] ∧
    (TakesFrame lsnState 3 (frame 3 1 (leBytes 8 4 ++ leBytes 8 4 ++ zeros 16)) ∧ lsnState.felt.waiting = [] ∧
      lsnState.twin.state = .paired ∧ fieldAt (leBytes 8 4 ++ leBytes 8 4 ++ zeros 16) 0 8 ≤ lsnState.twin.lsnTx.toNat ∧
      fieldAt (leBytes 8 4 ++ leBytes 8 4 ++ zeros 16) 8 8 ≤ lsnState.twin.lsnTx.toNat) ∧
    (TakesFrame lsnState 5 (frame 5 1 (leBytes 8 4 ++ zeros 24)) ∧ TakesFrame lsnState 5 (frame 5 1 (leBytes 8 5 ++ zeros 24))) ∧
    (TakesFrame up 4 (frame 4 1 mirrorPayload) ∧ mirrorPayload.length = 64 ∧ (mirrorOfBytes mirrorPayload).kind = 2 ∧
      up.mseqHeld < (mirrorOfBytes mirrorPayload).mseq.toNat) :=
  ⟨⟨by decide +kernel, by decide, takes_frame _ _ _ _ rfl rfl rfl rfl (by decide), takes_frame _ _ _ _ rfl rfl rfl rfl (by decide)⟩,
    by decide, ⟨takes_frame _ _ _ _ rfl rfl rfl rfl (by decide), rfl, rfl, by decide, by decide⟩,
    ⟨takes_frame _ _ _ _ rfl rfl rfl rfl (by decide), takes_frame _ _ _ _ rfl rfl rfl rfl (by decide)⟩,
    takes_frame _ _ _ _ rfl rfl rfl rfl (by decide), by decide, by decide +kernel, by decide +kernel⟩

/-- Records of each kind on their own: table 9 comes new, an UPDATE record of set 9, and row 1 of table 5, which module 0 homes. -/
def recOf (kind : BitVec 8) (table : BitVec 16) (count : BitVec 32) (data : Bytes) : LogRec :=
  { lsn := 1, table := table, kind := kind, count := count, epoch := 0, data := data }
def holding (r : LogRec) : State :=
  { up with felt := { Felt.reset with tables := [table5] }, twin := { up.twin with logHeld := [r] } }
theorem witness_ReplicaLog_kinds :
    (∀ r ∈ (holding (recOf 1 9 0 [])).twin.logHeld, r.kind = 1 ∧ ∀ u, (holding (recOf 1 9 0 [])).table? r.table = some u →
      u.replicated = true ∨ ∀ x ∈ r.rows, (u.homeOf x.1 up.straps.modid).isSome = true) ∧
    (∀ k ∈ [(2 : BitVec 8), 3, 4], (holding (recOf k 9 1 (zeros 64))).twin.logHeld = [recOf k 9 1 (zeros 64)] ∧
      (recOf k 9 1 (zeros 64)).kind = k ∧ (holding (recOf k 9 1 (zeros 64))).table? 9 = none) ∧
    (let r := recOf 1 5 1 (leBytes 8 1 ++ zeros 56 ++ [1, 2, 3, 4])
     let s := holding r
     s.twin.logHeld = [r] ∧ r.kind = 1 ∧ s.table? r.table = some table5 ∧ table5.replicated = false ∧
       table5.homeOf 1 s.straps.modid = none ∧ r.rows = [(1, [1, 2, 3, 4])] ∧ s.shardTaken table5 (table5.shardOf 1) = false) :=
  ⟨fun r h => by
      obtain rfl := List.mem_singleton.mp h
      exact ⟨rfl, fun u h => by cases h⟩,
    by decide +kernel, by decide +kernel⟩

/-- A request with op 0x01 on each path. -/
def q0 : TunnelReq := { msg := msg0 0x50 0 1 0 [1], cls := 2, ip := 9 }
def mb : Path := .mailbox [1]
def canP : Path := .can .expedited
def nodeP : Path := .meterNode .expedited
theorem q0_takes (s : State) (hb : s.rst.boot = .ready) (hs : s.straps.modid = 0) (hg : (s.genOf 1).toNat = 0) :
    TakesMsg s 0x50 q0.msg :=
  takes s 0x50 _ hb ⟨rfl, rfl⟩ ⟨⟨rfl, by decide⟩, by decide, by decide, rfl⟩ ⟨rfl, rfl, rfl, hs.symm⟩ (Nat.le_of_eq hg)
def tunnelState : State :=
  { up with dict := { Dictionary.reset with live := [(0x1F8201, 9)] }, twin := { up.twin with peerOk := false } }
theorem serves_tunnel (s : State) (hb : s.rst.boot = .ready) (ho : s.fromOrch q0 = true) (hs : s.straps.modid = 0)
    (hg : (s.genOf 1).toNat = 0) (hk : s.fab.kept = []) : Serves s (.tunnel q0) := by
  refine ⟨?_, rfl, fun r h => ?_⟩
  · unfold State.pathOpen
    simp [hb, ho]
  · cases h
    exact ⟨q0_takes s hb hs hg, fun k hk' => by rw [hk] at hk'; cases hk'⟩
theorem serves_open (s : State) (path : Path) (h : s.pathOpen path = true) (hs : served path = true) (ht : isTunnel path = false) :
    Serves s path := ⟨h, hs, fun r e => by subst e; cases ht⟩

/-- A lease of the flow 1 that this module holds; the twin renews it to reel 9. -/
def leasePayload (op : Nat) : Bytes := ({ lease false 3 9 with number := 4 } : Lease).bytes op

theorem witness_CouchAndAttach :
    (TakesFrame up 8 (frame 8 1 (leBytes 2 0x00FF ++ zeros 30)) ∧ BitVec.ofNat 16 (fieldAt (leBytes 2 0x00FF ++ zeros 30) 0 2) = 0x00FF ∧
      (0x00FF : BitVec 16) &&& up.twin.retiredLanes = 0) ∧
    (up.twin.couchUp = true ∧ up.fab.stopped = false) ∧
    ((∀ p ∈ [leBytes 2 1 ++ leBytes 2 1 ++ leBytes 4 Config.rowsem.toNat ++ zeros 24,
        leBytes 2 2 ++ leBytes 2 1 ++ leBytes 4 0 ++ zeros 24],
        TakesFrame up 0x0A (frame 0x0A 1 p)) ∧ up.straps.boot ≠ 1 ∧ up.twin.strapBad = false ∧
      8 ≤ ((List.range 16).filter (fun i => up.twin.lanes.getLsbD i)).length ∧ ((1 : BitVec 64) = 1 → up.twin.fseqRx = 0) ∧
      (up.straps.modid ^^^ 1).getLsbD 0 = true) ∧
    (fieldAt (leBytes 2 1 ++ leBytes 2 1 ++ leBytes 4 Config.rowsem.toNat ++ zeros 24) 4 4 = Config.rowsem.toNat ∧
      fieldAt (leBytes 2 1 ++ leBytes 2 1 ++ leBytes 4 ((Config.rowsem.toNat + 1) % 2 ^ 32) ++ zeros 24) 4 4 ≠ Config.rowsem.toNat ∧
      fieldAt (leBytes 2 2 ++ leBytes 2 1 ++ leBytes 4 0 ++ zeros 24) 0 2 ≠ (up.straps.modid ^^^ 1).toNat) ∧
    (Serves tunnelState (.tunnel q0) ∧ tunnelState.straps.boot ≠ 1 ∧ tunnelState.fab.gen.toNat < (1 : BitVec 32).toNat ∧
      tunnelState.twin.peerOk = false) ∧
    (up.twin.state ≠ .detaching) ∧
    (∀ op ∈ [2, 4], TakesFrame (leaseState (lease true 3 5) 0) 7 (frame 7 1 (leasePayload op)) ∧ (leasePayload op).length = 32 ∧
      leaseOf (leasePayload op) = (op, { lease false 3 9 with number := 4 }) ∧ (3 : BitVec 8) ≠ 0 ∧
      (leaseState (lease true 3 5) 0).lease? true 3 1 = some (lease true 3 5) ∧ (lease true 3 5).number = 4) := by
  have f : ∀ x : Nat, x < 2 ^ 32 → fieldAt (leBytes 2 1 ++ leBytes 2 1 ++ leBytes 4 x ++ zeros 24) 4 4 = x := fun x hx => by
    show leVal (leBytes 4 x) = x
    rw [leVal_leBytes]
    exact Nat.mod_eq_of_lt hx
  refine ⟨⟨takes_frame _ _ _ _ rfl rfl rfl rfl (by decide), by decide, by decide⟩, by decide, ⟨fun p hp => ?_, by decide +kernel⟩,
    ⟨f _ Config.rowsem.isLt, ?_, by decide⟩, ⟨serves_tunnel _ rfl (by decide +kernel) rfl rfl rfl, by decide +kernel⟩, by decide, fun op hop => ?_⟩
  · simp only [List.mem_cons, List.not_mem_nil, or_false] at hp
    rcases hp with rfl | rfl <;> exact takes_frame _ _ _ _ rfl rfl rfl rfl (by decide)
  · rw [f _ (Nat.mod_lt _ (by decide))]
    have := Config.rowsem.isLt
    omega
  · simp only [List.mem_cons, List.not_mem_nil, or_false] at hop
    rcases hop with rfl | rfl <;>
      exact ⟨takes_frame _ _ _ _ rfl rfl rfl rfl (by decide +kernel), by decide +kernel⟩

/-! ### Resets -/

def winState (reach : Nat) (taken low : List ResetSource) : State :=
  { State.reset with rst := { Reset.reset with boot := .inReset, window := some { reach := reach, taken := taken, low := low } } }
def ringOfLoadedFlow : State := outState (runOut 3 3) (itemEnd .accepted) 4 ring2

theorem witness_ResetInputs :
    up.rst.window = none ∧ 1200 ≤ 1200 ∧ 999 < 1000 ∧
    (∀ r ∈ ringOfLoadedFlow.hb.rings, (ringOfLoadedFlow.flow? r.flow).isSome = true) ∧ ringOfLoadedFlow.hb.rings = [ring2] ∧ ring2.rkey ≠ 0 ∧
    (let s := ringOfLoadedFlow
     ∀ j ∈ s.hb.jobs, (∀ x ∈ s.hb.jobs, x.job = j.job → x = j) ∧ (∀ r ∈ s.hb.rings, r.rkey = 0 → ∀ g ∈ j.flows, g.decl.flow ≠ r.flow) ∧
       s.hb.items = [itemEnd .accepted] ∧ (itemEnd .accepted).job = j.job ∧ (itemEnd .accepted).reply = .none) ∧
    ((classAState [reqA]).hb.items = [reqA] ∧ reqA.reply = .host 9 64 ∧ (classAState [reqA]).hb.rings = []) := by
  decide +kernel

theorem witness_ResetSources :
    (State.reset.rst.window = none ∧ State.reset.rst.boot = .starting) ∧
    (let s := { State.reset with rst := { Reset.reset with boot := .recovery } }
     s.rst.window = none ∧ s.rst.boot = .recovery) ∧
    (up.rst.window = none ∧ up.rst.boot = .ready) ∧
    (let s := { up with straps := { up.straps with canNode := 5 } }
     s.rst.window = none ∧ Serves s canP ∧ Serves s mb ∧ isMeter canP = false ∧ isMeter mb = false ∧ tunnelState.rst.window = none ∧
       Serves tunnelState (.tunnel q0)) ∧
    ((winState 2 [.warmRst] [.warmRst]).rst.window = some { reach := 2, taken := [.warmRst], low := [.warmRst] }) :=
  ⟨by decide, by decide, by decide, ⟨rfl, serves_open _ _ (by decide +kernel) rfl rfl, serves_open _ _ (by decide +kernel) rfl rfl, rfl, rfl,
    rfl, serves_tunnel _ rfl (by decide +kernel) rfl rfl rfl⟩, by decide⟩

theorem witness_ResetRelease :
    ((winState 3 [.hostPerst] [.hostPerst]).rst.window = some { reach := 3, taken := [.hostPerst], low := [.hostPerst] }) ∧
    (∀ reach ∈ [0, 1, 2], (winState reach [.warmRst] [.warmRst]).rst.window =
      some { reach := reach, taken := [.warmRst], low := [.warmRst] }) ∧
    ((2 : BitVec 8) ≠ 0 ∧ [2, 3, 5, 8][up.straps.maxFail.toNat]?.getD 0 ≤ (2 : BitVec 8).toNat ∧
      ¬ [2, 3, 5, 8][up.straps.maxFail.toNat]?.getD 0 ≤ (1 : BitVec 8).toNat ∧ up.sec.state = 0 ∧ up.straps.boot = 0) ∧
    ((winState 1 [.modRst, .warmRst] [.modRst, .warmRst]).rst.window =
      some { reach := 1, taken := [.modRst, .warmRst], low := [.modRst, .warmRst] } ∧ ResetSource.warmRst ≠ .modRst ∧
      ResetSource.modRst ≠ .pwrGood) ∧
    ([ResetSource.pwrGood, .modRst, .warmRst, .hostPerst].contains .warmRst = true ∧
      [ResetSource.pwrGood, .modRst, .warmRst, .hostPerst].contains .watchdog = false ∧ 999 < 1000 ∧ 1200 ≤ 1200) := by decide

theorem witness_ReadyInService :
    (let s := { State.reset with rst := { Reset.reset with endedJobs := [(7, 9)] } }
     s.rst.boot = .starting ∧ s.rst.endedJobs = [(7, 9)]) ∧
    (let s := { State.reset with straps := { Straps.reset with twinb := true } }
     s.rst.boot = .starting ∧ s.straps.twinb ≠ s.straps.modid.getLsbD 0) ∧
    (let s := { State.reset with straps := { Straps.reset with boot := 1 } }
     s.rst.boot = .starting ∧ s.straps.twinb = s.straps.modid.getLsbD 0 ∧ s.straps.boot = 1) ∧
    (State.reset.straps.twinb = State.reset.straps.modid.getLsbD 0 ∧ State.reset.straps.boot ≠ 1) ∧
    (960 ≤ 1024 - State.reset.dict.coresOut.length ∧ State.reset.rst.window = none ∧ State.reset.rst.refclkOut = false ∧
      ({ State.reset with rst := { Reset.reset with refclkOut := true } } : State).rst.refclkOut = true ∧
      (let s := { State.reset with dict := { Dictionary.reset with coresOut := List.replicate 65 c0 } }
       s.rst.boot = .starting ∧ 1024 - s.dict.coresOut.length < 960)) ∧
    (let s := { State.reset with straps := { Straps.reset with tierbEn := true } }
     s.rst.boot = .starting ∧ s.straps.tierbEn = true ∧ s.mem.tierBUp = false ∧
       ({ s with mem := { s.mem with tierBUp := true } } : State).mem.tierBUp = true) := by decide +kernel

theorem up_free : ∀ d : CoreId, (up.core d).item = none ∧ (up.core d).preempted = none := fun d => by
  have : up.core d = Core.reset := rfl
  rw [this]
  exact ⟨rfl, rfl⟩

theorem witness_SmallResets :
    (Serves up mb ∧ isMeter mb = false ∧ up.rst.window = none) ∧
    (let s := { up with straps := { up.straps with canNode := 5 },
                        rst := { up.rst with window := some { reach := 3, taken := [.hostPerst], low := [.hostPerst] } } }
     Serves s canP ∧ ¬ s.rst.window = none) ∧
    ((up.core c0).item = none ∧ (up.core c0).preempted = none ∧ c0 ∉ up.dict.coresOut) ∧
    (∀ d : CoreId, d.vat = 63 → (up.core d).item = none ∧ (up.core d).preempted = none) ∧
    (up.fab.retired.getLsbD 0 = false ∧ up.fab.retired.getLsbD 7 = false) :=
  ⟨⟨serves_open _ _ (by decide +kernel) rfl rfl, by decide, rfl⟩, ⟨serves_open _ _ (by decide +kernel) rfl rfl, fun h => (by cases h)⟩,
    ⟨(up_free c0).1, (up_free c0).2, fun h => nomatch h⟩, fun d _ => up_free d, by decide⟩

/-- A lane in use and one out of use; a tier B port that an allocation lies on, and one that holds nothing. -/
theorem witness_SmallResets_ports :
    (∀ l : Fin 16, up.twin.lanes.getLsbD l.val = true) ∧ up.twin.couchUp = true ∧ up.fab.stopped = false ∧
    ({ up with twin := { up.twin with lanes := 0xFFFE } } : State).twin.lanes.getLsbD 0 = false ∧
    (let s := { up with mem := { up.mem with tierB := #v[0, 0, 0, 1000000] }, hb := { up.hb with allocs := [(1, { rec1 with base := tierBBase, tierB := true })] } }
     ∃ e ∈ s.hb.allocs, e.2.live = true ∧ e.2.tierB = true ∧ s.mem.onPort e.2.base e.2.extent 3 = true) ∧
    ((¬ ∃ e ∈ up.hb.allocs, e.2.live = true ∧ e.2.tierB = true ∧ up.mem.onPort e.2.base e.2.extent 3 = true) ∧
      (∀ u ∈ up.felt.tables, u.tierB = true → u.kind = 3) ∧ ∀ x ∈ up.rst.shardPlace, inTierB x.2.2 = false) :=
  ⟨by decide +kernel, rfl, rfl, by decide, ⟨_, List.mem_cons_self, rfl, rfl, by decide +kernel⟩,
    ⟨fun ⟨_, he, _⟩ => absurd he List.not_mem_nil, fun _ h => absurd h List.not_mem_nil, fun _ h => absurd h List.not_mem_nil⟩⟩

theorem witness_ResetItemRunsAgain :
    let s := loaded itemCore [item1]
    Serves s mb ∧ s.rst.window = none ∧ (s.core c0).item = some key1 ∧ (s.core c0).preempted = none ∧ s.item? key1 = some item1 ∧
      s.job? item1.job = some job7 ∧ job7.stopped = none :=
  ⟨serves_open _ _ (by decide +kernel) rfl rfl, by decide +kernel⟩

/-- A transfer of another path, and one of the mailbox itself. -/
def writing (key : Nat) (path : Path) : State :=
  { up with dict := { Dictionary.reset with transfers := [{ path := path, key := key, got := [1] }] } }
theorem witness_transfers (key : Nat) :
    Serves (writing key canP) mb ∧ (∃ x ∈ (writing key canP).dict.transfers, x.key = key ∧ x.path ≠ wayOf mb) ∧
    Serves (writing key (wayOf mb)) mb ∧ ∀ x ∈ (writing key (wayOf mb)).dict.transfers, x.key = key → x.path = wayOf mb :=
  ⟨serves_open _ _ (by show up.pathOpen mb = true; decide +kernel) rfl rfl,
    ⟨_, List.mem_cons_self, rfl, by show canP ≠ wayOf mb; decide⟩,
    serves_open _ _ (by show up.pathOpen mb = true; decide +kernel) rfl rfl, fun x h _ => by
    simp only [writing, List.mem_cons, List.not_mem_nil, or_false] at h; rw [h]⟩

theorem witness_FirmwareSwap :
    (Serves up mb ∧ isMeter mb = false) ∧
    (let s := { up with dict := { Dictionary.reset with fwStaged := some [1] } }
     s.pathOpen mb = true ∧ s.dict.swap = none ∧ s.dict.fwStaged = some [1]) ∧
    (let s := { withCore fwCore with dict := { Dictionary.reset with swap := some (0, [1], false) } }
     s.pathOpen mb = true ∧ s.dict.swap = some (0, [1], false) ∧ (s.core c0).active = true) ∧
    (let s := { up with dict := { Dictionary.reset with swap := some (0, [1], false) } }
     s.pathOpen mb = true ∧ s.dict.swap = some (0, [1], false)) ∧
    (∀ c : CoreId, c.vat = 0 → (up.core c).active = false) :=
  ⟨⟨serves_open _ _ (by decide +kernel) rfl rfl, by decide⟩, by decide +kernel, by decide +kernel, by decide +kernel, fun _ _ => rfl⟩

/-! ### The dictionary -/

def furnishOf : Bytes :=
  leBytes 4 0x31465644 ++ leBytes 4 1 ++ leBytes 4 2 ++ leBytes 4 1 ++ leBytes 4 176 ++ zeros 44 ++
    (leBytes 2 0x3000 ++ leBytes 6 3 ++ leBytes 8 1) ++ zeros 96
def gradeRaw : Bytes := leBytes 4 0x31475644 ++ leBytes 2 1 ++ leBytes 2 4 ++ zeros 56
def gradeOf : Bytes := putAt gradeRaw 0x20 (leBytes 4 (gradeCrc gradeRaw).toNat)
def switching (schedule : List (BitVec 48 × BitVec 3)) : State :=
  { up with dict := { Dictionary.reset with schedule := schedule } }

theorem witness_FurnishAndGrades :
    (up.pathOpen mb = true ∧ furnishFormatBad furnishOf = false ∧ up.dict.furnish.rev.toNat < fieldAt furnishOf 8 4 ∧
      rising (imageRecords furnishOf 1) = true ∧ fieldAt furnishOf 0xC 4 = 1 ∧
      recordsGood [.furnish, .grade] (fun k d => Assoc.get d (imageRecords furnishOf 1) k) (imageRecords furnishOf 1) = true) ∧
    (gradeFormatBad 4 gradeOf = false ∧ recordsInRange (fun _ d => d) (imageRecords gradeOf (fieldAt gradeOf 8 2)) = true ∧ up.hb.jobs = [] ∧ up.hb.items = []) ∧
    (up.hb.reel.toNat < (1 : BitVec 48).toNat ∧ up.hb.stampHorizon < (1 : BitVec 48).toNat ∧
      (switching []).dict.schedule.any (fun x => x.1 = 1) = false ∧ (switching []).dict.schedule.length < 16 ∧
      (switching []).listLen 0 < 4096 ∧ (switching [(1, 2)]).dict.schedule.any (fun x => x.1 = 1) = true) := by
  decide +kernel

def sending (got : Bytes) (path : Path) : State :=
  { up with dict := { Dictionary.reset with transfers := [{ path := path, key := 0x201001, got := got }] } }
def loadedUp : State := loaded fwCore []

/-- A path that serves, and a tunnel request whose number has its answer. -/
theorem witness_DictionaryPaths_served :
    let s := { tunnelState with fab := { Fabric.reset with kept := [(requestId q0, 0, [1])] } }
    Serves up mb ∧ TakesMsg s 0x50 q0.msg ∧ s.pathOpen (.tunnel q0) = true ∧ s.keptAnswer (.tunnel q0) = some (0, [1]) ∧
      s.fab.stopped = false :=
  ⟨serves_open _ _ (by decide +kernel) rfl rfl, q0_takes _ rfl rfl (by decide), by decide +kernel, by decide +kernel, rfl⟩

/-- A request outside what its path serves, and a tunnel message that is not well formed or of an earlier generation. -/
theorem witness_DictionaryPaths_refused :
    (({ up with straps := { up.straps with canNode := 5 } } : State).pathOpen (.can .bulk) = true ∧ served (.can .bulk) = false) ∧
    (up.pathOpen (.mailbox [0xFF]) = true ∧ served (.mailbox [0xFF]) = false) ∧
    (q0.msg.by' = .send ∧ q0.msg.ce = false ∧ ¬ Addressed up 0x50 { q0.msg with version := 9 }) ∧
    (let s := { tunnelState with fab := { Fabric.reset with gens := [(1, 5)] } }
     Addressed s 0x50 q0.msg ∧ q0.msg.gen.toNat < (s.genOf q0.msg.from).toNat) :=
  ⟨by decide +kernel, by decide +kernel, ⟨rfl, rfl, fun h => absurd h.2.2.1 (by simp [Msg.wellFormed])⟩,
    ⟨(q0_takes tunnelState rfl rfl (by decide)).1, by decide +kernel⟩⟩

/-- A tunnel request on another class, from another address, or before ORCH_ADDR is set. -/
theorem witness_DictionaryPaths_elsewhere :
    tunnelState.rst.boot = .ready ∧ ({ q0 with cls := 1 }).cls ≠ 2 ∧ ({ q0 with ip := 8 }).ip.toNat ≠ tunnelState.orchAddr ∧
    up.rst.boot = .ready ∧ up.orchAddr = 0 ∧ q0.msg.part = 0 ∧ q0.msg.value = 0 := by decide +kernel

theorem witness_DictionaryPaths :
    (State.reset.pathOpen canP = false ∧ up.pathOpen mb = true) ∧
    ((∀ x ∈ entries, x.key / 256 ≠ (0x7777 : BitVec 16).toNat) ∧ (∃ x ∈ entries, x.key / 256 = (0x3000 : BitVec 16).toNat) ∧
      (∀ x ∈ entries, x.key ≠ 0x3000 * 256 + 0xFF)) ∧
    ((dictEntryAt 0x201001).map (·.access) = .ok .wo ∧ (dictEntryAt 0x300001).map (·.access) = .ok .ro ∧
      (dictEntryAt 0x60000B).map (·.access) = .ok .rws) ∧
    (let e : DictEntry := ⟨0x300002, .uint 4, .rw, .furnish, 4096, 1, 65536⟩
     dictEntryAt 0x300002 = .ok e ∧ (∀ v ∈ [1, 65536], e.accepts up.furn v = true) ∧ (∀ v ∈ [0, 65537], e.accepts up.furn v = false) ∧
       ([0, 0, 1] : Bytes).length ≠ 4 ∧ ([0, 0, 1, 0] : Bytes).length = 4 ∧ leVal [0, 0, 1, 0] = 65536 ∧ loadedUp.hb.jobs ≠ [] ∧
       loadedUp.pathOpen mb = true ∧ e.accepts loadedUp.furn 1 = true ∧ lockedKey 0x300002 = true ∧ up.hb.jobs = [] ∧
       lockedKey 0x300003 = false) ∧
    ((dictEntryAt 0x201001).map (·.type) = .ok .domain ∧
      (∃ t ∈ (sending [1] canP).dict.transfers, t.key = 0x201001 ∧ t.path ≠ wayOf mb) ∧
      (∀ t ∈ (sending [1] (wayOf mb)).dict.transfers, t.key = 0x201001 → t.path = wayOf mb) ∧
      (sending [1] (wayOf mb)).received mb 0x201001 = [1] ∧ (1 : BitVec 32).toNat = [1].length ∧ (0 : BitVec 32).toNat ≠ [1].length ∧
      ([2] : Bytes).length ≤ pieceMax mb ∧ ([1, 2] : Bytes).length ≤ 16777216 ∧ [1, 2] ≠ []) ∧
    ((∃ q ∈ (qpState (qp1 false 0)).fab.qps, q.number.toNat = (1 : BitVec 32).toNat ∧ q.error = false) ∧
      (qpState (qp1 false 0)).pathOpen mb = true ∧
      ∀ q ∈ (qpState (qp1 true 7)).fab.qps, q.number.toNat = (1 : BitVec 32).toNat → q.error = true) ∧
    (let s := { up with straps := { up.straps with canNode := 5 } }
     s.rst.boot ≠ .inReset ∧ s.straps.canNode ≠ 0 ∧ ¬ ((6 : BitVec 8) = 0 ∨ (6 : BitVec 8) = s.straps.canNode.setWidth 8) ∧
       (5 : BitVec 8) = s.straps.canNode.setWidth 8 ∧ s.furn 0x101700 1000 ≠ 0 ∧
       ({ s with dict := { s.dict with live := [(0x101700, 0)] } } : State).furn 0x101700 1000 = 0) := by decide +kernel

def recBytes : Bytes :=
  leBytes 2 1 ++ leBytes 1 1 ++ leBytes 1 0xC ++ leBytes 4 1 ++ leBytes 8 4 ++ zeros 20 ++ leBytes 4 4 ++ zeros 24
/-- More rows than the module holds. -/
def wideBytes : Bytes :=
  leBytes 2 1 ++ leBytes 1 1 ++ leBytes 1 0xC ++ leBytes 4 4096 ++ leBytes 8 (2 ^ 30) ++ zeros 20 ++ leBytes 4 (2 ^ 20) ++ zeros 24
def tablesState (ts : List Table) : State := { up with felt := { Felt.reset with tables := ts } }
def set9 : WmSet := { id := 9, width := 1, mutable_ := false, digest := 5, classmap := [], entries := [] }
def fullBanks : State := { up with wm := { Watermark.reset with banks := Vector.replicate 4 (Vector.replicate 16 (.holds 7)) } }

theorem witness_Services_tables :
    (up.rst.boot = .ready ∧ up.rst.hostReset = false ∧ up.host.mbStatus.getLsbD 31 = false) ∧
    ((zeros 64).length = 64 ∧ tableRecordBad (up.felt.tables.map (·.id)) (up.felt.tables.filter (fun u => u.job = none)) (zeros 64) = true) ∧
    (∀ b ∈ [recBytes, wideBytes], b.length = 64 ∧ tableRecordBad [] [] b = false ∧ (tableOf b none).kind ≠ 3 ∧
      (tableOf b none).replicated = false ∧ (tableOf b none).tier ≠ 2) ∧
    (up.mirrored = false ∧ up.felt.tables = [] ∧
      1200000000000 < up.feltBytes.2 + (tableOf wideBytes none).nrows * (tableOf wideBytes none).stored ∧
      up.feltBytes.2 + (tableOf recBytes none).nrows * (tableOf recBytes none).stored ≤ 1200000000000 ∧
      up.feltBytes.1 + (tableOf recBytes none).nrows * (tableOf recBytes none).stored ≤ up.furn 0x380001 400000000000) ∧
    (up.table? 5 = none ∧ (tablesState [table5]).table? 5 = some table5 ∧ (tablesState [{ table5 with job := some 7 }]).table? 5 =
      some { table5 with job := some 7 } ∧ table5.job = none ∧ (tablesState [table5]).tableRead 5 = false ∧
      ¬ (∃ u ∈ (tablesState [table5]).felt.tables, u.kind = 3 ∧ (u.part1 = 5 ∨ u.part2 = 5)) ∧
      (∃ u ∈ (tablesState [table5, { table5 with id := 6, kind := 3, part1 := 5 }]).felt.tables, u.kind = 3 ∧ (u.part1 = 5 ∨ u.part2 = 5))) ∧
    (tablesState [table5]).mirrored = false := by decide +kernel

theorem witness_Services_sets :
    (∀ x ∈ [((0 : Nat), 1), (0x100, 1), (1, 0), (1, 5)], ¬ (BitVec.ofNat 16 x.1 ≠ 0 ∧ (BitVec.ofNat 16 x.1).toNat ≤ 0xFF ∧
      1 ≤ (BitVec.ofNat 8 x.2).toNat ∧ (BitVec.ofNat 8 x.2).toNat ≤ 4)) ∧
    (∀ x ∈ [((1 : Nat), 1), (0xFF, 4)], BitVec.ofNat 16 x.1 ≠ 0 ∧ (BitVec.ofNat 16 x.1).toNat ≤ 0xFF ∧
      1 ≤ (BitVec.ofNat 8 x.2).toNat ∧ (BitVec.ofNat 8 x.2).toNat ≤ 4) ∧
    (wmImageField [] = false ∧ wmImageBad [] = true) ∧ (wmImageField wmGood = false ∧ wmImageBad wmGood = false) ∧
    (up.wmSet? 9 = none ∧ (∃ d : Fin 4, (fullBanks.wm.banks[d].toList.filter (· = .free)).length < 1) ∧ fullBanks.wmSet? 9 = none ∧
      ∀ d : Fin 4, 4 ≤ (up.wm.banks[d].toList.filter (· = .free)).length) ∧
    (let s := { up with wm := { Watermark.reset with sets := [set9] } }
     s.wmSet? 9 = some set9 ∧ s.wmBusy set9 = false ∧
     ({ s with units := [{ asking with unit := 3, block := leBytes 2 4 ++ leBytes 2 9 ++ zeros 60 }] } : State).wmBusy set9 = true) ∧
    (0xFF < (0x100 : BitVec 16).toNat ∧ (9 : BitVec 16) ≠ 0 ∧ (9 : BitVec 16).toNat ≤ 0xFF) :=
  ⟨by decide +kernel, by decide +kernel, by decide +kernel, ⟨wm_good.1, wm_good.2.1⟩, by decide +kernel, by decide +kernel, by decide⟩

def recovering : State := { up with rst := { up.rst with boot := .recovery } }
def oneBlock : State := { up with mem := { up.mem with tierC := [(1, 5, Block.seal { nsid := 1, gen := 1 } 5 (zeros 4096))] } }

theorem witness_Services_tierC :
    ((0 : BitVec 32).toNat = 0 ∧ 256 < (257 : BitVec 32).toNat ∧ 1 ≤ (1 : BitVec 32).toNat ∧ (256 : BitVec 32).toNat ≤ 256) ∧
    (({ up with sec := { up.sec with nsKeys := false } } : State).sec.nsKeys = false ∧ up.sec.nsKeys = true ∧
      (zeros 4096).length = 4096 * (1 : BitVec 32).toNat ∧ (1 : BitVec 32) ∉ oneBlock.mem.tierCUnused ∧
      (1 : BitVec 32) ∈ ({ up with mem := { up.mem with tierCUnused := [1] } } : State).mem.tierCUnused) ∧
    (∀ (i : Nat) (b : Bytes), [zeros 4096][i]? = some b → oneBlock.tierCBlock 1 (5 + BitVec.ofNat 64 i) = some b) ∧
    (let s := { oneBlock with sec := { up.sec with nsKeyGen := 2 } }
     (∃ x ∈ s.mem.tierC, x.1 = 1 ∧ x.2.1 = 5 + BitVec.ofNat 64 0) ∧ (s.tierCBlock 1 (5 + BitVec.ofNat 64 0)).isNone = true) := by
  refine ⟨by decide, ⟨rfl, rfl, by decide +kernel, by decide, by decide⟩, fun i b h => ?_, ⟨_, List.mem_cons_self, rfl, by decide⟩, by decide +kernel⟩
  cases i with
  | zero => cases h; exact congrArg some (Block.plain_seal _ _ _)
  | succ i => cases h

theorem witness_Services_test :
    (recovering.rst.boot = .recovery ∧ recovering.rst.hostReset = false ∧ recovering.host.mbStatus.getLsbD 31 = false ∧
      recovering.hb.jobs = []) ∧
    ({ recovering with hb := { recovering.hb with jobs := [job7] } } : State).hb.jobs ≠ [] ∧
    (∃ code, recovering.loadPlaud 0 true [] = .error code) ∧ (∃ u, recovering.loadPlaud 0 true (plaud []) = .ok u) ∧
    plaudInputs (plaud []) = [] := by
  refine ⟨⟨rfl, rfl, rfl, rfl⟩, fun h => (by cases h), ⟨_, rfl⟩, ?_, by decide +kernel⟩
  obtain ⟨u, h⟩ := alloc_at recovering (plaudJob (plaud [])) false false (plaudBytes (plaud [])) itemStoreEnd rfl (by decide +kernel)
  have flows : ∀ j : Job, recovering.flowCode (plaud []) j [] = none := fun j => by
    unfold State.flowCode
    simp [repeats]
    decide +kernel
  refine loads_of recovering 0 true (plaud []) ?_ ?_ (crc_of _ rfl rfl) (plaud_rowsem _ rfl) ?_ ⟨u, _, h⟩ ?_ ?_ ?_ ?_ ?_ ?_ flows rfl rfl <;>
    decide +kernel

/-! ### Memory, power, the meter, security -/

def port3 : State :=
  { up with straps := { up.straps with tierbEn := true }, mem := { up.mem with tierB := #v[0, 0, 0, 1000000] } }

theorem witness_MemoryTierEvents :
    (let s := { up with mem := { up.mem with rowErrors := [(3, 8)], sparesUsed := [(bankOfRow 3, Config.spareRows (bankOfRow 3))] } }
     s.furn 0x480007 8 ≤ Assoc.get 0 s.mem.rowErrors 3 ∧
       Config.spareRows (bankOfRow 3) ≤ Assoc.get 0 s.mem.sparesUsed (bankOfRow 3)) ∧
    (port3.straps.tierbEn = true ∧ port3.mem.tierB[(3 : BitVec 2).toNat] ≠ 0 ∧ port3.up = true ∧
      ∀ j ∈ port3.hb.jobs, port3.jobOnPort j.job 3 = false) := by
  refine ⟨⟨by decide +kernel, ?_⟩, by decide +kernel⟩
  simp [Assoc.get]

def powState (level : Nat) (cond : Bool) : State := { up with pow := { up.pow with level := level, lastCond := cond, stretched := 8, recent := up.pow.recent.set 3 [0, 0, 0, 0] } }

theorem witness_DroopGovernor :
    (up.rst.boot ≠ .inReset ∧ up.pow.stretched.getLsbD 3 = false) ∧ (powState 16 false).pow.stretched.getLsbD 3 = true ∧
    (powState 16 false).furn 0x540002 4 ≤
      (((powState 16 false).pow.recent[(3 : BitVec 2).toNat]).filter (fun t => decide (((powState 16 false).tick - t).toNat ≤ 100))).length ∧
    ¬ up.furn 0x540002 4 ≤ ((up.pow.recent[(3 : BitVec 2).toNat]).filter (fun t => decide ((up.tick - t).toNat ≤ 100))).length ∧
    (up.furn 0x540005 2600 < 2601 ∧ 299999 < 300000 ∧ up.furn 0x540006 100 < 101) ∧
    ((powState 8 true).pow.level = 8 ∧ (powState 8 true).pow.lastCond = true ∧ (powState 8 true).rst.boot ≠ .inReset) := by
  decide +kernel

theorem witness_DroopGovernor_thresholds :
    (up.furn 0x540009 20 ≤ up.furn 0x54000A 50 ∧ up.up = true ∧ up.furn 0x540007 1 ≠ 0 ∧ up.rst.boot ≠ .inReset) ∧
    (let vat : BitVec 6 := (0 : BitVec 2) ++ up.pow.calNext[(0 : BitVec 2).toNat]
     up.pow.calVat = none ∧ vat ∉ up.hb.dispatchOff ∧ vat = 0 ∧ ((withCore itemCore).core c0).active = true) ∧
    (∀ c : CoreId, (up.core c).active = false) ∧
    ({ withCore itemCore with pow := { up.pow with calVat := some 0 } } : State).pow.calVat = some c0.vat :=
  ⟨by decide +kernel, by decide +kernel, fun _ => rfl, rfl⟩

theorem witness_InputAndTrips :
    (∀ mv ∈ [300000, 420000], 300000 ≤ mv ∧ mv ≤ 420000) ∧
    (∀ mv ∈ [285000, 299999, 420001, 440000], (285000 ≤ mv ∧ mv ≤ 440000 ∧ ¬ (300000 ≤ mv ∧ mv ≤ 420000)) ∧ 10 ≤ 10 ∧ 10 < 11) ∧
    (∀ mv ∈ [284999, 440001], mv < 285000 ∨ 440000 < mv) := by decide

def report1 (rewrite : Bool) : Report := { number := 5, job := 0xABC0000000000001, flow := 1, batch := 0, rows := 3, rewrite := rewrite }
def meterState (f : Meter → Meter) : State := { up with meter := f up.meter }

theorem witness_ReleaseReports :
    (∀ b ∈ [true, false], let s := meterState (fun m => { m with queue := [report1 b], counted := 4 })
      s.meter.queue = [report1 b] ∧ s.meter.fitted = true ∧ s.meter.supplied = true ∧ s.meter.counted.toNat < (report1 b).number.toNat) ∧
    (let s := meterState (fun m => { m with queue := [report1 false], counted := 5 })
     s.meter.queue = [report1 false] ∧ s.meter.fitted = true ∧ s.meter.supplied = true ∧ (report1 false).number.toNat ≤ s.meter.counted.toNat) := by
  decide +kernel

theorem witness_MeterEvents : up.meter.fitted = true ∧ up.meter.supplied = true ∧
    (meterState (fun m => { m with supplied := false })).meter.supplied = false ∧
    (meterState (fun m => { m with supplied := false })).meter.fitted = true := by decide

def nodeState (closed : Bool) : State := meterState (fun m => { m with adjClosed := closed })

theorem witness_MeterReadings :
    (Serves up mb ∧ up.meter.fitted = true ∧ up.meter.supplied = true ∧ isMeter mb = false) ∧
    (1 ≤ (1 : BitVec 8).toNat ∧ (8 : BitVec 8).toNat ≤ 8 ∧ 0xB < (0xC : BitVec 8).toNat) ∧
    (∀ b ∈ [true, false], Serves (nodeState b) nodeP ∧ isMeter nodeP = true ∧ (nodeState b).meter.adjClosed = b ∧
      ∀ x ∈ (nodeState b).dict.transfers, x.key = 0x60000B → x.path = wayOf nodeP) ∧
    (∃ x ∈ (writing 0x60000B mb).dict.transfers, x.key = 0x60000B ∧ x.path ≠ wayOf nodeP) ∧
    ((BitVec.ofInt 32 20000).toInt ≤ 20000 ∧ -20000 ≤ (BitVec.ofInt 32 (-20000)).toInt ∧ (BitVec.ofInt 32 650).toInt ≤ 650 ∧
      -650 ≤ (BitVec.ofInt 32 (-650)).toInt ∧ ¬ (BitVec.ofInt 32 20001).toInt ≤ 20000 ∧ ¬ -650 ≤ (BitVec.ofInt 32 (-651)).toInt) :=
  ⟨⟨serves_open _ _ (by decide +kernel) rfl rfl, rfl, rfl, rfl⟩, by decide,
    fun b _ => ⟨serves_open _ _ (by cases b <;> decide +kernel) rfl rfl, rfl, rfl, fun _ h => absurd h List.not_mem_nil⟩,
    ⟨_, List.mem_cons_self, rfl, by decide⟩, by decide +kernel⟩

def rebalState (seq : Nat) (m : Memory) (value : Nat) : State :=
  { tablesState [table5] with
    mem := m, rst := { up.rst with journalSeq := seq, rebalDue := value ≠ 0 },
    dict := { Dictionary.reset with values := [(0x50000C, 4096), (0x50000D, value)] },
    twin := { up.twin with state := .paired } }
def stepOf (step dest : BitVec 8) (ack : Bool) : RebalStep :=
  { table := 5, shard := 0, step := step, dest := dest, epoch := 0, destAddr := 0, orchAck := ack }
/-- A journal of one record of the last step 1 to 5, destination 2 or the twin. -/
def journalRec (step dest epoch : Nat) : JournalRec :=
  { table := 5, shard := 0, step := step, dest := dest, epoch := epoch, addr := 0 }
def journalOf (r : JournalRec) : Memory := Memory.reset.write 4096 (r.bytes 1)

theorem witness_Rebalance_steps :
    (let s := rebalState 0 Memory.reset 0
     s.rst.boot = .ready ∧ s.rst.rebalDue = false ∧ s.journalBase ≠ 0 ∧ s.table? 5 = some table5 ∧ s.rst.journalSeq < 2 ^ 64 - 1 ∧ s.journal = [] ∧
     table5.replicated = false ∧ table5.kind ≠ 3 ∧ (0 : BitVec 16).toNat < ceilDiv table5.nrows table5.shardRows ∧
     (∀ d ∈ [1, 3], 1 ≤ (BitVec.ofNat 8 d).toNat ∧ (BitVec.ofNat 8 d).toNat ≤ 3) ∧
     (latestOf s.journal 5 0).map (·.step) = none) ∧
    (∀ n ∈ [1, 2, 3, 4, 5], (rebalState 1 (journalOf (journalRec n 3 0)) 1).journal = [journalRec n 3 0]) ∧
    ((stepOf 4 3 false).orchAck = false ∧ (stepOf 4 3 true).orchAck = true) := by decide +kernel

theorem witness_Rebalance_resume :
    (∀ n ∈ [2, 3, 4, 5], ∀ d ∈ [2, 3], (rebalState 1 (journalOf (journalRec n d 0)) n).journal = [journalRec n d 0]) ∧
    (∀ v ∈ [1, 2], (rebalState 0 Memory.reset v).rst.rebalDue = true ∧ (rebalState 0 Memory.reset v).twin.state = .paired) ∧
    (journalRec 3 2 0).epoch = table5.version - 1 ∧ (journalRec 3 2 1).epoch ≠ table5.version - 1 ∧
    (rebalState 1 (journalOf (journalRec 3 2 1)) 1).journal = [journalRec 3 2 1] := by decide +kernel

theorem witness_SecurityEvents :
    ((1 : BitVec 4) ≠ 0 ∧ (15 : BitVec 4) ≠ 0 ∧ up.rst.window = none) ∧ (Serves up mb ∧ isMeter mb = false ∧ up.dict.transfers = []) ∧
    ((0x4F52455B : BitVec 32) ≠ 0x4F52455A) ∧
    (∀ n ∈ [1, 2], ({ up with sec := { up.sec with state := BitVec.ofNat 8 n } } : State).sec.state = 1 ∨
      ({ up with sec := { up.sec with state := BitVec.ofNat 8 n } } : State).sec.state = 2) :=
  ⟨by decide +kernel, ⟨serves_open _ _ (by decide +kernel) rfl rfl, rfl, rfl⟩, by decide, by decide +kernel⟩

/-- StepKeepsInv: a state in service with a command in front. -/
theorem witness_StepKeepsInv : Sys2Proof.Machine.Inv { up with pending := [.watchdog] } ∧ ∃ t, step { up with pending := [.watchdog] } = .next t :=
  ⟨by unfold Sys2Proof.Machine.Inv; decide +kernel, _, rfl⟩

/-! ### Ill-formed commands -/

theorem long_msg (t : BitVec 8) (m : Msg) : ({ m with payload := List.replicate (2 ^ 32) 0 } : Msg).carried t = false := by
  unfold Msg.carried
  rw [List.length_replicate, show decide (2 ^ 32 < 2 ^ 32) = false from rfl]
  rfl
theorem long_frame (f : Frame) : ({ f with payload := List.replicate 1048577 0 } : Frame).carried = false := by
  unfold Frame.carried
  rw [List.length_replicate]
  decide

theorem test_wf_messages (m : Msg) :
    (Instr.data { m with payload := List.replicate (2 ^ 32) 0 }).wellFormed = false ∧
    (Instr.classaReq { m with payload := List.replicate (2 ^ 32) 0 }).wellFormed = false ∧
    (Instr.egressIndex (.message { m with payload := List.replicate (2 ^ 32) 0 })).wellFormed = false ∧
    (Instr.reelAdvance (.message { m with payload := List.replicate (2 ^ 32) 0 })).wellFormed = false :=
  ⟨long_msg _ m, long_msg _ m, long_msg _ m, long_msg _ m⟩
/-- A message with the TYPE of another row is that row's; the TYPE 0x52 is reserved (Table 13.2). -/
theorem test_wf_type (m : Msg) : (Instr.fenced { m with type := 0x41, payload := [] }).wellFormed = false ∧
    (Instr.fenced { m with type := 0x52, payload := [] }).wellFormed = true := ⟨rfl, rfl⟩
theorem test_wf_frames (f : Frame) : (Instr.log { f with payload := List.replicate 1048577 0 }).wellFormed = false ∧
    (Instr.attach { f with payload := List.replicate 1048577 0 }).wellFormed = false := ⟨long_frame f, long_frame f⟩

theorem test_wf_images : (Instr.submitPlaud 1 []).wellFormed = false ∧ (Instr.testItem []).wellFormed = false ∧
    (Instr.furnishImage canP []).wellFormed = false ∧ (Instr.gradeImage canP 0 []).wellFormed = false ∧
    (Instr.fwImage canP []).wellFormed = false ∧ (Instr.meterFwImage nodeP []).wellFormed = false ∧
    (Instr.debugToken canP []).wellFormed = false ∧ (Instr.provision canP []).wellFormed = false := by decide
theorem test_wf_image_length : (Instr.submitPlaud 1 (List.replicate (2 ^ 32) 0)).wellFormed = false ∧
    (Instr.testItem (List.replicate (2 ^ 32) 0)).wellFormed = false ∧ (Instr.wmLoad 1 1 (List.replicate (2 ^ 32) 0)).wellFormed = false ∧
    (Instr.classa 1 1 (List.replicate (2 ^ 32) 0) 0).wellFormed = false ∧
    (Instr.fwImage canP (List.replicate 16777217 0)).wellFormed = false := by
  refine ⟨?_, ?_, ?_, ?_, ?_⟩ <;> unfold Instr.wellFormed <;> (try unfold domainFits) <;> dsimp only <;>
    rw [List.length_replicate] <;> decide
theorem test_wf_pieces : (Instr.dictWrite mb 0 0 0 true (List.replicate 4081 0)).wellFormed = false ∧
    (Instr.dictWrite (.tunnel q0) 0 0 0 true (List.replicate 4081 0)).wellFormed = false ∧
    (Instr.dictWrite canP 0 0 0 true (List.replicate 16777217 0)).wellFormed = false := by
  refine ⟨?_, ?_, ?_⟩ <;> unfold Instr.wellFormed pieceFits <;> dsimp only <;> rw [List.length_replicate] <;> decide
theorem test_wf_register : (Instr.tableRegister (zeros 63) none).wellFormed = false ∧ (Instr.tiercWrite 1 0 1 (zeros 4)).wellFormed = false := by
  decide
theorem test_wf_rebalance : (∀ r ∈ [stepOf 0 1 true, stepOf 6 1 true, stepOf 1 0 true, stepOf 1 4 true],
    (Instr.rebalanceStep r).wellFormed = false) ∧ (Instr.rebalanceStep (stepOf 5 3 true)).wellFormed = true := by decide

/-! ### The words of 02's filter loop; their bits are read as Table 2.4 lays them out -/

theorem test_slot0_addi : slotMeaning0 0x30420040 = slotAddi { xd := 4, xs1 := 4, imm15 := 64 } := rfl
theorem test_slot1_vnop : slotMeaning1 0 = slotMeaning1 (BitVec.ofNat 32 0) ∧ (slotMeaning1 0).dests = [] := ⟨rfl, rfl⟩
theorem test_slot2_vcmp : slotMeaning2 0x358411C9 = slotVcmp { etype := 6, wd := 2, wa := 1, wb := 3, mod := 4, zm := 1, pg := 1 } := rfl
theorem test_slot3_sread : slotMeaning3 0x24824000 = slotSread { sn := 2, reg := 1, pg := 1, imm14 := 0 } := rfl
/-- An opcode outside Table 2.5 is reserved (R36). -/
theorem test_slot0_reserved : (slotMeaning0 0xFE000000).legal Core.reset = false := by decide
/-- The table gives the rows no bits. -/
theorem test_no_table_bits : decodeTableWord 32 0x30420040 = none ∧ up.withFetchWord 32 0x30420040 = up := ⟨rfl, rfl⟩

/-! ### Worked examples of the spec and single steps -/

/-- The candidates of Table 4.3. -/
def scores : List Sys2Proof.Machine.Entry :=
  [⟨0x3F400000, 0x158BBFB0⟩, ⟨0x7FC00000, 0x158BBFB1⟩, ⟨0x7F800000, 0x158BBFB2⟩, ⟨0x3F400000, 0x158BBFB3⟩,
   ⟨0x80000000, 0x158BBFB4⟩, ⟨0x3F400000, 0x158BBFB5⟩, ⟨0x3F000000, 0x158BBFB6⟩, ⟨0, 0x158BBFB7⟩]
/-- Table 4.4. -/
theorem test_topk_3_largest : (select 0xC 3 false scores).status = 0x0702 ∧
    ((select 0xC 3 false scores).entries.map (·.idx)) = [0x158BBFB2, 0x158BBFB0, 0x158BBFB3] := by decide +kernel
theorem test_topk_4_smallest :
    ((select 0xC 4 true scores).entries.map (·.idx)) = [0x158BBFB4, 0x158BBFB7, 0x158BBFB6, 0x158BBFB0] := by decide +kernel
/-- Table 4.5: index BFB3 comes with other key bits in the second list. -/
theorem test_merge_conflict :
    (let r := select 0xC 4 false
      [⟨0x3F666666, 0xBFB4⟩, ⟨0x3F400000, 0xBFB0⟩, ⟨0x3F19999A, 0xBFB3⟩, ⟨0x3E800000, 0xBFB1⟩, ⟨0x3F666666, 0xBFB4⟩,
       ⟨0x3F200000, 0xBFB3⟩, ⟨0x3F000000, 0xBFB2⟩]
     r.entries.map (·.idx) = [0xBFB4, 0xBFB0, 0xBFB3, 0xBFB2] ∧ r.status = 0x0701) := by decide +kernel

/-- Division by zero gives −1 and the dividend (Table 2.5), and the most negative number divided by −1 wraps. -/
def dived (a b : BitVec 64) (i : CoreId → SR → Companions → Instr) : Option (BitVec 64) :=
  match exec (i c0 { xd := 3, xs1 := 1, xs2 := 2, imm10 := 0 } w0)
    (withCore { itemCore with x := (itemCore.x.set 1 a).set 2 b }) with
  | .next t => some ((t.core c0).getX 3)
  | _ => none
theorem test_div_zero : dived 7 0 .div = some 0xFFFFFFFFFFFFFFFF ∧ dived 7 0 .rem = some 7 := by decide +kernel
theorem test_div_wraps : dived 0x8000000000000000 0xFFFFFFFFFFFFFFFF .div = some 0x8000000000000000 := by decide +kernel
/-- What holds of the next state a command or step gives. -/
def Next (o : Host.Outcome State Fault Refusal) (p : State → Bool) : Bool :=
  match o with
  | .next t => p t
  | _ => false
/-- A step with a command waiting takes it; on an empty queue the tick goes on. -/
theorem test_step_takes : Next (step { up with pending := [.watchdog, .ready] }) (fun t => t.pending = [.ready]) = true := by
  decide +kernel
theorem test_step_idle : Next (step up) (fun t => t.tick = 1 && t.pending = []) = true := by decide +kernel
/-- 16's example: job 0x0A10_0000_0000_2B41 is tenant 0x0A1's. -/
theorem test_tenant : Next (exec (.releaseReport true) (meterState (fun m => { m with
    queue := [{ number := 1, job := 0x0A10000000002B41, flow := 1, batch := 0, rows := 4096, rewrite := false }] })))
    (fun t => Assoc.get (0, 0) t.meter.tenants 0x0A1 = (4096, 0)) = true := by decide +kernel
/-- A GRADE_SWITCH at reel 9 is announced, fires as the reel reaches it, and is no pending switch then (R385). -/
theorem test_grade_switch : Next (exec (.reelAdvance (.doorbell 9)) { reelState 1 0 0 false with
    dict := { (reelState 1 0 0 false).dict with schedule := [(9, 1)] },
    hb := { up.hb with delays := [{ value := 9, kind := 0, object := 1, list := 0 }] } })
    (fun t => t.dict.active = 1 && t.dict.schedule = [] && t.hb.delays = [] && t.hb.reel = 9) = true := by decide +kernel
/-- Two CNPs take a sixteenth each (R324): 800 Gb/s × 15 ÷ 16 × 15 ÷ 16. -/
theorem test_cnp : Next (exec (.cnpReceive 1) (qpState (qp1 false 0))) (fun t => Next (exec (.cnpReceive 1) t) (fun u =>
    match u.qp? 1 with | some q => q.rateNum * 256 = 800000000000 * 225 * q.rateDen | none => false)) = true := by decide +kernel
/-- ZEROISE from the mailbox with its magic number: zeroised, counted, and the cold window open (R403). -/
theorem test_zeroise : Next (exec (.zeroise mb 0x4F52455A) up)
    (fun t => t.sec.state = 1 && t.sec.zeroised = 1 && t.rst.cause = 0x10000000 && t.rst.window.isSome) = true := by decide +kernel

/-- R200's check value: the hash of the empty string with seed 0; and R199's of the digits 1 to 9 by CRC-32C. -/
theorem test_xxhash_empty : xxHash64 0 [] = 0xEF46DB3751D8E999 := by decide +kernel
theorem test_crc_check : crc32c 0 ((List.range 9).map (fun i => BitVec.ofNat 8 (0x31 + i))) = 0xE3069283 := by
  decide +kernel

/-! ### Codecs (Table 6.6; streams written out from the cited standards) -/

/-- What a wrapped string unwraps to, and the step it ends with. -/
def unwrapped (w : Nat) (b : Bytes) : Bytes × Option WrapStep := ((unwrap w b).flatMap wrapOut, (unwrap w b).getLast?)
/-- RFC 1951: a block with fixed codes holds one a; a stored block whose LEN and NLEN differ is a defect. -/
theorem test_deflate : (unwrapped 1 [0x4B, 0x04, 0x00]).1 = [0x61] ∧
    unwrapped 1 [0x01, 0x01, 0x00, 0x01, 0x00, 0x61] = ([], some (.bad .wrapData)) := by decide +kernel
/-- RFC 1950: Adler-32 0x00620062 of an a is checked, and FDICT is outside the subset. -/
theorem test_zlib : (unwrapped 2 [0x78, 0x9C, 0x4B, 0x04, 0x00, 0x00, 0x62, 0x00, 0x62]).1 = [0x61] ∧
    (unwrapped 2 [0x78, 0x9C, 0x4B, 0x04, 0x00, 0x00, 0x62, 0x00, 0x63]).2 = some (.bad .wrapChecksum) ∧
    unwrapped 2 [0x78, 0xBB] = ([], some .dictionary) := by decide +kernel
/-- RFC 1952: CRC-32 and ISIZE of an a, two members in turn. -/
def gzipA : Bytes := [0x1F, 0x8B, 0x08, 0x00, 0x00, 0x00, 0x00, 0x00, 0x02, 0x03, 0x4B, 0x04, 0x00, 0x43, 0xBE, 0xB7, 0xE8, 0x01, 0x00, 0x00] ++
    [0x00]
theorem test_gzip : unwrapped 3 (gzipA ++ gzipA) = ([0x61, 0x61], some (.input 4)) := by decide +kernel
/-- RFC 8878: a compressed block of six literals and one sequence, and a raw block with its content checksum. -/
theorem test_zstd : (unwrapped 4 ([0x28, 0xB5, 0x2F, 0xFD, 0x20, 0x1D, 0x65, 0x00, 0x00, 0x30, 0x68, 0x65, 0x6C, 0x6C, 0x6F, 0x20, 0x01, 0x00, 0xA9, 0x4B] ++
    [0x11])).1 =
    (List.replicate 4 [0x68, 0x65, 0x6C, 0x6C, 0x6F, 0x20]).flatten ++ [0x68, 0x65, 0x6C, 0x6C, 0x6F] := by decide +kernel
theorem test_zstd_sum : unwrapped 4 [0x28, 0xB5, 0x2F, 0xFD, 0x24, 0x01, 0x09, 0x00, 0x00, 0x61, 0x5B, 0x6E, 0x8C, 0xA9] = ([0x61], some (.input 4)) := by
  decide +kernel
/-- The LZ4 frame format: an overlapping match in a block, with header and content checksums. -/
theorem test_lz4 : (unwrapped 5 ([0x04, 0x22, 0x4D, 0x18, 0x64, 0x40, 0xA7, 0x0B, 0x00, 0x00, 0x00, 0x1F, 0x61, 0x01, 0x00, 0x07, 0x50, 0x61, 0x61, 0x61] ++
    [0x61, 0x61, 0x00, 0x00, 0x00, 0x00, 0xBE, 0x4F, 0x23, 0xA3])).1 =
    List.replicate 32 0x61 := by decide +kernel
/-- Snappy: an a and a copy of four bytes from one byte back. -/
theorem test_snappy : (unwrapped 6 [0x05, 0x00, 0x61, 0x01, 0x01]).1 = List.replicate 5 0x61 := by decide +kernel
/-- ISO/IEC 10918-1: one baseline block with DC 3 and -1 in the first place after it, all of Q 2. -/
def jpegOne : Bytes := [0xFF, 0xD8, 0xFF, 0xDB, 0x00, 0x43, 0x00, 0x02, 0x02, 0x02, 0x02, 0x02, 0x02, 0x02, 0x02, 0x02, 0x02, 0x02, 0x02, 0x02] ++
    [0x02, 0x02, 0x02, 0x02, 0x02, 0x02, 0x02, 0x02, 0x02, 0x02, 0x02, 0x02, 0x02, 0x02, 0x02, 0x02, 0x02, 0x02, 0x02, 0x02] ++
    [0x02, 0x02, 0x02, 0x02, 0x02, 0x02, 0x02, 0x02, 0x02, 0x02, 0x02, 0x02, 0x02, 0x02, 0x02, 0x02, 0x02, 0x02, 0x02, 0x02] ++
    [0x02, 0x02, 0x02, 0x02, 0x02, 0x02, 0x02, 0x02, 0x02, 0x02, 0x02, 0xFF, 0xC0, 0x00, 0x0B, 0x08, 0x00, 0x08, 0x00, 0x08] ++
    [0x01, 0x01, 0x11, 0x00, 0xFF, 0xC4, 0x00, 0x27, 0x00, 0x01, 0x00, 0x00, 0x00, 0x00, 0x00, 0x00, 0x00, 0x00, 0x00, 0x00] ++
    [0x00, 0x00, 0x00, 0x00, 0x00, 0x02, 0x10, 0x02, 0x00, 0x00, 0x00, 0x00, 0x00, 0x00, 0x00, 0x00, 0x00, 0x00, 0x00, 0x00] ++
    [0x00, 0x00, 0x00, 0x00, 0x01, 0xFF, 0xDA, 0x00, 0x08, 0x01, 0x01, 0x00, 0x00, 0x3F, 0x00, 0x73, 0xFF, 0xD9]
theorem test_jpeg_block : (jpegDecode jpegOne).comps =
    [{ quant := List.replicate 64 2, blocks := [[3, -1] ++ List.replicate 62 0] }] := by decide +kernel
theorem test_jpeg_steps : (jpegDecode jpegOne).steps =
    [.marker, .frame 0 8 8 8 [(1, 1)], .marker, .marker, .entropy 1, .visit 0 63] := by decide +kernel
/-- Parquet: a v1 page of optional INT32, a 7 and a null; and a v2 page of dictionary indexes 1, 0, 1. -/
theorem test_page : (parquetPage ([0x01, 0x01] ++ zeros 30) [] ([0x15, 0x00, 0x15, 0x14, 0x15, 0x14, 0x2C, 0x15, 0x04, 0x15, 0x00, 0x15, 0x06, 0x15, 0x06, 0x00, 0x00, 0x02, 0x00, 0x00] ++
    [0x00, 0x03, 0x01, 0x07, 0x00, 0x00, 0x00])).column =
    [{ valid := true, elems := [some [7, 0, 0, 0]] }, { valid := false, elems := [none] }] := by decide +kernel
theorem test_page_dictionary : (parquetPage ([0x06] ++ zeros 31)
    (dictEntries ([0x06] ++ zeros 31) ([0x15, 0x04, 0x15, 0x16, 0x15, 0x16, 0x4C, 0x15, 0x04, 0x15, 0x00, 0x00, 0x00, 0x02, 0x00, 0x00, 0x00, 0x61, 0x62, 0x01] ++
    [0x00, 0x00, 0x00, 0x63]))
    ([0x15, 0x06, 0x15, 0x06, 0x15, 0x06, 0x15, 0xAD, 0xAE, 0xDF, 0xA3, 0x0B, 0x4C, 0x15, 0x06, 0x15, 0x00, 0x15, 0x06, 0x15] ++
    [0x10, 0x15, 0x00, 0x15, 0x00, 0x11, 0x00, 0x00, 0x01, 0x03, 0x05])).column.flatMap (·.elems) =
    [some [0x63], some [0x61, 0x62], some [0x63]] := by decide +kernel
/-- Arrow: a record batch of Int8 1, null, 3 passes its buffers through. -/
theorem test_arrow : (arrowBatch ([0xFF, 0xFF, 0xFF, 0xFF, 0x90, 0x00, 0x00, 0x00, 0x10, 0x00, 0x00, 0x00, 0x0C, 0x00, 0x18, 0x00, 0x04, 0x00, 0x06, 0x00] ++
    [0x08, 0x00, 0x10, 0x00, 0x0C, 0x00, 0x00, 0x00, 0x04, 0x00, 0x03, 0x00, 0x20, 0x00, 0x00, 0x00, 0x00, 0x00, 0x00, 0x00] ++
    [0x10, 0x00, 0x00, 0x00, 0x00, 0x00, 0x00, 0x00, 0x0A, 0x00, 0x18, 0x00, 0x08, 0x00, 0x10, 0x00, 0x14, 0x00, 0x00, 0x00] ++
    [0x00, 0x00, 0x00, 0x00, 0x10, 0x00, 0x00, 0x00, 0x00, 0x00, 0x00, 0x00, 0x03, 0x00, 0x00, 0x00, 0x00, 0x00, 0x00, 0x00] ++
    [0x0C, 0x00, 0x00, 0x00, 0x20, 0x00, 0x00, 0x00, 0x00, 0x00, 0x00, 0x00, 0x01, 0x00, 0x00, 0x00, 0x03, 0x00, 0x00, 0x00] ++
    [0x00, 0x00, 0x00, 0x00, 0x01, 0x00, 0x00, 0x00, 0x00, 0x00, 0x00, 0x00, 0x00, 0x00, 0x00, 0x00, 0x02, 0x00, 0x00, 0x00] ++
    [0x00, 0x00, 0x00, 0x00, 0x00, 0x00, 0x00, 0x00, 0x01, 0x00, 0x00, 0x00, 0x00, 0x00, 0x00, 0x00, 0x08, 0x00, 0x00, 0x00] ++
    [0x00, 0x00, 0x00, 0x00, 0x03, 0x00, 0x00, 0x00, 0x00, 0x00, 0x00, 0x00, 0x05, 0x00, 0x00, 0x00, 0x00, 0x00, 0x00, 0x00] ++
    [0x01, 0x00, 0x03, 0x00, 0x00, 0x00, 0x00, 0x00])).columns =
    { rows := 3, nulls := 1, bufs := [some [5], none, none, some [1, 0, 3]] } := by decide +kernel
/-- A Parquet footer: one row group of two rows with one chunk of 8 bytes at 4. -/
theorem test_footer : footer 1 ([0x50, 0x41, 0x52, 0x31, 0x00, 0x00, 0x00, 0x00, 0x00, 0x00, 0x00, 0x00, 0x15, 0x02, 0x19, 0x2C, 0x48, 0x01, 0x73, 0x15] ++
    [0x02, 0x00, 0x15, 0x02, 0x25, 0x02, 0x18, 0x01, 0x63, 0x00, 0x15, 0x04, 0x19, 0x1C, 0x19, 0x1C, 0x25, 0x08, 0x1C, 0x15] ++
    [0x02, 0x19, 0x15, 0x00, 0x25, 0x00, 0x15, 0x04, 0x15, 0x10, 0x15, 0x10, 0x25, 0x08, 0x00, 0x00, 0x15, 0x10, 0x15, 0x04] ++
    [0x00, 0x00, 0x32, 0x00, 0x00, 0x00, 0x50, 0x41, 0x52, 0x31]) =
    some { rows := 2, chunks := [{ col := 0, first := 0, rows := 2, off := 4, bytes := 8, elsewhere := false }] } := by
  decide +kernel


end Sys2Proof.Tests
end

/-! ### The reel clock (R18, R19, R290, R291, R415) -/

namespace Sys2Proof.Machine

open Sys2Proof

/-! ### Counters, messages and paths -/

/-- The default only decides which entries are kept: a read of another key sees no difference, whatever its own default. -/
theorem Assoc.get_set_ne {α : Type} [DecidableEq α] (d e : α) (m : Assoc α) {a b : Nat} (x : α) (h : b ≠ a) :
    Assoc.get d (Assoc.set e m a x) b = Assoc.get d m b := by
  unfold Assoc.set
  split
  · rw [Assoc.get_erase, if_neg h]
  · rw [Assoc.get_place _ _ _ _ _ (Assoc.lacks_erase m a), Assoc.get_erase, if_neg h, if_neg h]

theorem bump_countsBy (s : State) (key n : Nat) : CountsBy key n s (s.bump key n) :=
  ⟨(Assoc.get_set 0 _ key key _).trans (if_pos rfl), fun _ d h => Assoc.get_set_ne d 0 _ _ h⟩

/-- A send of the row's TYPE with no congestion mark reaches the header's checks with the state as it was. -/
theorem arrives_of_arrives {t : BitVec 8} {m : Msg} (h : Arrives t m) (s : State) (f : State → State) :
    s.arrives t m f = f s := by
  obtain ⟨htype, hby, hce⟩ := h
  simp [State.arrives, htype, hby, hce]

theorem takeHbMsg_of_accepts {s : State} {t : BitVec 8} {m : Msg} {n : Nat} (h : Accepts s t m n) (f : State → State) :
    s.takeHbMsg t m n f = f s := by
  obtain ⟨hboot, harr, hform, hto, hgen⟩ := h
  simp [State.takeHbMsg, State.up, State.self, arrives_of_arrives harr, hboot, hform, hto, Nat.not_lt.mpr hgen]

theorem rsv_lt_of_accepts {s : State} {t : BitVec 8} {m : Msg} {n : Nat} (h : Accepts s t m n) :
    m.rsv.toNat < 2 ^ (8 * n) := by
  obtain ⟨-, -, hform, -, -⟩ := h
  simp only [hbMessage, Bool.and_eq_true, decide_eq_true_eq] at hform
  exact hform.2

theorem takeMsg_of_takesMsg {s : State} {t : BitVec 8} {m : Msg} (h : TakesMsg s t m) (f : State → State) :
    s.takeMsg t m f = f s := by
  obtain ⟨⟨hboot, harr, hform, hexch, hround, hrsv, hto⟩, hgen⟩ := h
  simp [State.takeMsg, State.up, State.self, arrives_of_arrives harr, hboot, hform, hexch, hround, hrsv, hto,
    Nat.not_lt.mpr hgen]

theorem keptAnswer_tunnel_eq_none {s : State} {r : TunnelReq} (h : ∀ k ∈ s.fab.kept, k.1 ≠ requestId r) :
    s.keptAnswer (.tunnel r) = none := by
  simpa [State.keptAnswer] using fun a b c d e hk => h ((a, b, c), d, e) hk

theorem serve_of_served {path : Path} (h : served path = true) (s : State) (f : State → State) : s.serve path f = f s :=
  if_pos h

theorem onPath_of_serves {s : State} {path : Path} (h : Serves s path) (f : State → State) : s.onPath path f = f s := by
  obtain ⟨hopen, hserved, htunnel⟩ := h
  cases path with
  | tunnel r =>
    obtain ⟨htakes, hkept⟩ := htunnel r rfl
    have horch : s.fromOrch r = true := by
      simp only [State.pathOpen, Bool.and_eq_true] at hopen
      exact hopen.2
    rw [State.onPath, takeMsg_of_takesMsg htakes]
    simp [horch, keptAnswer_tunnel_eq_none hkept, serve_of_served hserved]
  | can u => simp [State.onPath, hopen, serve_of_served hserved]
  | mailbox req => simp [State.onPath, hopen, serve_of_served hserved]
  | meterNode u => simp [State.onPath, hopen, serve_of_served hserved]

theorem onModulePath_of_serves {s : State} {path : Path} (h : Serves s path) (hm : isMeter path = false)
    (f : State → State) : s.onModulePath path f = f s := by
  simp [State.onModulePath, onPath_of_serves h, hm]

/-! ### The reel count -/

/-- No entry of the delay lists is due between the reel count and a value. -/
def QuietTo (s : State) (b : Nat) : Prop := ∀ d ∈ s.hb.delays, ¬ (s.hb.reel.toNat < d.value ∧ d.value ≤ b)

theorem setReel_reel {b : Nat} (h : b < 2 ^ 48) (s : State) : (s.setReel b).hb.reel.toNat = b :=
  (BitVec.toNat_ofNat b 48).trans (Nat.mod_eq_of_lt h)

theorem setReel_self (s : State) : s.setReel s.hb.reel.toNat = s := by
  simp [State.setReel]

/-- Whatever fires on the way, the count ends where it was sent. -/
theorem reelFrom_reel {b : Nat} (h : b < 2 ^ 48) (fuel : Nat) (s : State) :
    (s.reelFrom b fuel).hb.reel.toNat = b := by
  induction fuel generalizing s with
  | zero => exact setReel_reel h s
  | succ fuel ih =>
    rw [State.reelFrom]
    split
    · exact ih _
    · exact setReel_reel h s

theorem due_eq_nil {s : State} {b : Nat} (h : QuietTo s b) :
    (s.hb.delays.map (·.value)).filter (fun v => s.hb.reel.toNat < v && v ≤ b) = [] := by
  simpa [List.filter_eq_nil_iff, QuietTo] using h

theorem reelFrom_of_quiet {s : State} {b : Nat} (h : QuietTo s b) (fuel : Nat) : s.reelFrom b fuel = s.setReel b := by
  cases fuel with
  | zero => rfl
  | succ fuel => rw [State.reelFrom, due_eq_nil h, lowest]

/-- R19: the last value holds, and an advance there is reported. -/
theorem reelSet_of_last {s : State} (h : s.hb.reel.toNat = 2 ^ 48 - 1) (v : Nat) :
    s.reelSet v = (0x0812, s.logEvent 0x0812 v) := if_pos h

theorem reelSet_of_lt_last {s : State} (h : s.hb.reel.toNat < 2 ^ 48 - 1) (v : Nat) :
    s.reelSet v = (0, if s.hb.reel.toNat < v then s.reelTo v else s) := if_neg (Nat.ne_of_lt h)

/-- R18: the count becomes the larger of its value and the carried one. -/
theorem reelSet_reel {s : State} {v : Nat} (h : s.hb.reel.toNat < 2 ^ 48 - 1) (hv : v < 2 ^ 48) :
    (s.reelSet v).2.hb.reel.toNat = max s.hb.reel.toNat v := by
  rw [reelSet_of_lt_last h]
  by_cases hlt : s.hb.reel.toNat < v
  · rw [if_pos hlt, Nat.max_eq_right (Nat.le_of_lt hlt)]
    exact reelFrom_reel hv _ s
  · rw [if_neg hlt, Nat.max_eq_left (Nat.not_lt.mp hlt)]

theorem reelSet_of_quiet {s : State} {v : Nat} (h : s.hb.reel.toNat < 2 ^ 48 - 1) (hq : QuietTo s v) :
    s.reelSet v = (0, s.setReel (max s.hb.reel.toNat v)) := by
  rw [reelSet_of_lt_last h]
  by_cases hlt : s.hb.reel.toNat < v
  · rw [if_pos hlt, Nat.max_eq_right (Nat.le_of_lt hlt), State.reelTo, reelFrom_of_quiet hq]
  · rw [if_neg hlt, Nat.max_eq_left (Nat.not_lt.mp hlt), setReel_self]

/-! ### The rows of the reel clock, case by case -/

section Rows

variable {s : State}

theorem exec_doorbell_selected (hb : s.rst.boot = .ready) (hr : s.rst.hostReset = false) (hs : s.reelSource = 1)
    (v : BitVec 64) : exec (.reelAdvance (.doorbell v)) s = .next (s.reelSet (v.toNat % 2 ^ 48)).2 := by
  change execReelAdvance (.doorbell v) s = _
  simp [execReelAdvance, State.rootUp, State.up, hb, hr, hs]

theorem exec_doorbell_other (hb : s.rst.boot = .ready) (hr : s.rst.hostReset = false) (hs : s.reelSource ≠ 1)
    (v : BitVec 64) : exec (.reelAdvance (.doorbell v)) s = .next s.reelIgnored := by
  change execReelAdvance (.doorbell v) s = _
  simp [execReelAdvance, State.rootUp, State.up, hb, hr, hs]

theorem exec_dictionary_selected {path : Path} (hb : s.rst.boot = .ready) (hs : s.reelSource = 1) (hp : Serves s path)
    (hm : isMeter path = false) (v : BitVec 64) : exec (.reelAdvance (.dictionary path v)) s =
      .next ((s.reelSet (v.toNat % 2 ^ 48)).2.answer path false (s.reelSet (v.toNat % 2 ^ 48)).1 []) := by
  change execReelAdvance (.dictionary path v) s = _
  simp [execReelAdvance, onModulePath_of_serves hp hm, State.reelWrite, State.rootUp, State.up, hb, hs]

theorem exec_message {m : Msg} (ha : Accepts s 0x20 m 6) : exec (.reelAdvance (.message m)) s = .next (s.reelMessage m) :=
  congrArg Host.Outcome.next (takeHbMsg_of_accepts ha (fun s => s.reelMessage m))

theorem reelMessage_selected {m : Msg} (hs : s.reelSource = 0) (h0 : s.hb.reelQp ≠ 0)
    (hq : m.qp.setWidth 32 = s.hb.reelQp) : s.reelMessage m = (s.reelSet m.rsv.toNat).2 :=
  if_pos (by simpa [hs, hq] using h0)

theorem reelMessage_other {m : Msg} (ho : s.reelSource ≠ 0 ∨ m.qp.setWidth 32 ≠ s.hb.reelQp) :
    s.reelMessage m = s.reelIgnored :=
  if_neg (by rcases ho with h | h <;> simp [h])

/-- The state after a pulse that counts as an edge, before the count moves. -/
def State.edgeSeen (s : State) : State := { s.drawn with hb := { s.hb with lastReelEdge := true } }

/-- A qualified edge (R415) counts like an advance by one. -/
theorem exec_pulse_qualified {high gap : Nat} (hb : s.rst.boot = .ready) (hh : 100 ≤ high)
    (hg : 1000 ≤ gap ∨ s.hb.lastReelEdge = false) : exec (.reelInPulse high gap) s =
      .next (if s.reelSource = 2 then (s.edgeSeen.reelSet (s.hb.reel.toNat + 1)).2 else s.edgeSeen.reelIgnored) := by
  have hgap : (s.hb.lastReelEdge && decide (gap < 1000)) = false := by
    rcases hg with h | h
    · simp [Nat.not_lt.mpr h]
    · simp [h]
  change execReelInPulse high gap s = _
  simp only [execReelInPulse, State.edgesCount, State.up, hb, hh, hgap]
  exact (apply_ite Host.Outcome.next _ _ _).symm

theorem exec_pulse_selected {high gap : Nat} (hb : s.rst.boot = .ready) (hh : 100 ≤ high)
    (hg : 1000 ≤ gap ∨ s.hb.lastReelEdge = false) (hs : s.reelSource = 2) :
    exec (.reelInPulse high gap) s = .next (s.edgeSeen.reelSet (s.hb.reel.toNat + 1)).2 := by
  rw [exec_pulse_qualified hb hh hg, if_pos hs]

theorem exec_pulse_other {high gap : Nat} (hb : s.rst.boot = .ready) (hh : 100 ≤ high)
    (hg : 1000 ≤ gap ∨ s.hb.lastReelEdge = false) (hs : s.reelSource ≠ 2) :
    exec (.reelInPulse high gap) s = .next s.edgeSeen.reelIgnored := by
  rw [exec_pulse_qualified hb hh hg, if_neg hs]

theorem exec_pulse_early {high gap : Nat} (hb : s.rst.boot = .ready) (hh : 100 ≤ high) (hg : gap < 1000)
    (he : s.hb.lastReelEdge = true) : exec (.reelInPulse high gap) s = .next s.drawn.reelIgnored := by
  change execReelInPulse high gap s = _
  simp [execReelInPulse, State.edgesCount, State.up, hb, hh, hg, he]

theorem exec_pulse_short {high : Nat} (hh : high < 50) (gap : Nat) : exec (.reelInPulse high gap) s = .next s.drawn := by
  change execReelInPulse high gap s = _
  simp [execReelInPulse, Nat.not_le.mpr hh, Nat.not_le.mpr (Nat.lt_trans hh (by decide : 50 < 100))]

/-! ### What an advance does, whatever brings it -/

/-- A command that sets the count below the last value raises it to the carried value, and does no more with no entry due. -/
theorem moves_of_exec {i : Instr} {u : State} {v b : Nat} (hi : exec i s = .next (u.reelSet v).2)
    (hlt : u.hb.reel.toNat < 2 ^ 48 - 1) (hv : v < 2 ^ 48) (hb : max u.hb.reel.toNat v = b) :
    (∃ t, exec i s = .next t ∧ t.hb.reel.toNat = b) ∧ (QuietTo u b → exec i s = .next (u.setReel b)) := by
  subst hb
  refine ⟨⟨_, hi, reelSet_reel hlt hv⟩, fun hq => ?_⟩
  have hqv : QuietTo u v := fun d hd hdue => hq d hd ⟨hdue.1, Nat.le_trans hdue.2 (Nat.le_max_right _ _)⟩
  rw [hi, reelSet_of_quiet hlt hqv]

/-- At the last value the advance is refused: the event is logged and the count holds. -/
theorem refused_of_exec {i : Instr} {u : State} {v : Nat} (hi : exec i s = .next (u.reelSet v).2)
    (hlast : u.hb.reel.toNat = 2 ^ 48 - 1) : exec i s = .next (u.logEvent 0x0812 v) := by
  rw [hi, reelSet_of_last hlast]

/-- A command whose advance is ignored counts it, and changes nothing of the dictionary but the counter. -/
theorem ignored_of_exec {i : Instr} {u : State} (hi : exec i s = .next u.reelIgnored) (hu : u.dict = s.dict) :
    ∃ t, exec i s = .next t ∧ CountsBy 0x300006 1 s t ∧ t = { u with dict := { s.dict with values := t.dict.values } } := by
  refine ⟨_, hi, ?_, ?_⟩
  · have hval : ∀ k d, u.modVal k d = s.modVal k d := fun k d => by rw [State.modVal, State.modVal, hu]
    obtain ⟨hkey, hrest⟩ := bump_countsBy u 0x300006 1
    exact ⟨hkey.trans (by rw [hval]), fun k d h => (hrest k d h).trans (hval k d)⟩
  · rw [← hu]
    rfl

end Rows

/-- Settles O33: each source brings its advance to `reelSet` or to the counter of ignored ones, and one lemma says what each does. -/
theorem reelAdvances : Obligations.ReelAdvances := by
  intro s v high gap m path hboot hreset source now last x quiet at' refused edge moves ignored
  have hx : x < 2 ^ 48 := Nat.mod_lt _ (by decide)
  refine ⟨fun hs hlt => ?_, fun hs hlast => ?_, fun hs => ?_, fun ha => ⟨fun hs h0 hq => ?_, fun ho => ?_⟩,
    fun hh hg => ⟨fun hs hlt => ?_, fun hs hlast => ?_, fun hs => ?_⟩, fun hh hg he => ?_, fun hh => ?_⟩
  -- The host's doorbell and REEL_WRITE, from the selected source.
  · refine ⟨moves_of_exec (exec_doorbell_selected hboot hreset hs v) hlt hx rfl, fun hp hm hquiet => ?_⟩
    rw [exec_dictionary_selected hboot hs hp hm, reelSet_of_quiet hlt hquiet]
    rfl
  · refine ⟨refused_of_exec (exec_doorbell_selected hboot hreset hs v) hlast, fun hp hm => ?_⟩
    rw [exec_dictionary_selected hboot hs hp hm, reelSet_of_last hlast]
    rfl
  · exact ignored_of_exec (exec_doorbell_other hboot hreset hs v) rfl
  -- The fabric's message.
  · have hi := (exec_message ha).trans (congrArg _ (reelMessage_selected hs h0 hq))
    exact ⟨fun hlt => moves_of_exec hi hlt (rsv_lt_of_accepts ha) rfl, fun hlast => refused_of_exec hi hlast⟩
  · exact ignored_of_exec ((exec_message ha).trans (congrArg _ (reelMessage_other ho))) rfl
  -- The edges of REEL_IN.
  · have hnext : s.hb.reel.toNat + 1 < 2 ^ 48 := Nat.add_lt_of_lt_sub hlt
    exact moves_of_exec (exec_pulse_selected hboot hh hg hs) hlt hnext (Nat.max_eq_right (Nat.le_succ _))
  · exact refused_of_exec (exec_pulse_selected hboot hh hg hs) hlast
  · exact ignored_of_exec (exec_pulse_other hboot hh hg hs) rfl
  · exact ignored_of_exec (exec_pulse_early hboot hh hg he) rfl
  · exact exec_pulse_short hh gap

end Sys2Proof.Machine

/-! ### Scalar slot-0 results (Table 2.5) -/

namespace Sys2Proof.Machine

open Sys2Proof

/-! #### The results as integers -/

theorem eq_ofInt_of_toInt_bmod {n : Nat} {a : BitVec n} {z : Int} (h : a.toInt = z.bmod (2 ^ n)) : a = BitVec.ofInt n z :=
  BitVec.eq_of_toInt_eq (h.trans (BitVec.toInt_ofInt z).symm)

theorem eq_ofInt_of_toInt {n : Nat} {a : BitVec n} {z : Int} (h : a.toInt = z) : a = BitVec.ofInt n z := by
  rw [← h, BitVec.ofInt_toInt]

/-- The upper half of a 128-bit product. -/
theorem extract_high_ofInt (z : Int) : (BitVec.ofInt 128 z).extractLsb' 64 64 = BitVec.ofInt 64 (z / 2 ^ 64) := by
  apply BitVec.eq_of_toNat_eq
  rw [BitVec.extractLsb'_toNat, BitVec.toNat_ofInt, BitVec.toNat_ofInt, Nat.shiftRight_eq_div_pow]
  omega

theorem all64_eq : all64 = BitVec.ofInt 64 (-1) := by decide

theorem sdiv_eq_ofInt (a b : BitVec 64) : a.sdiv b = BitVec.ofInt 64 (a.toInt.tdiv b.toInt) :=
  eq_ofInt_of_toInt_bmod (BitVec.toInt_sdiv a b)

theorem srem_eq_ofInt (a b : BitVec 64) : a.srem b = BitVec.ofInt 64 (a.toInt.tmod b.toInt) :=
  eq_ofInt_of_toInt (BitVec.toInt_srem a b)

theorem sshiftRight_eq_ofInt (a : BitVec 64) (n : Nat) : a.sshiftRight n = BitVec.ofInt 64 (a.toInt / 2 ^ n) :=
  eq_ofInt_of_toInt (by rw [BitVec.toInt_sshiftRight, Int.shiftRight_eq_div_pow]; norm_cast)

theorem mul_eq_ofInt (a b : BitVec 64) : a * b = BitVec.ofInt 64 (a.toInt * b.toInt) :=
  eq_ofInt_of_toInt_bmod (BitVec.toInt_mul a b)

theorem udiv_eq_ofNat (a b : BitVec 64) : a / b = BitVec.ofNat 64 (a.toNat / b.toNat) := by
  rw [← BitVec.toNat_udiv, BitVec.ofNat_toNat, BitVec.setWidth_eq]

theorem shiftLeft_eq_ofNat (a : BitVec 64) (n : Nat) : a <<< n = BitVec.ofNat 64 (a.toNat * 2 ^ n) := by
  apply BitVec.eq_of_toNat_eq
  rw [BitVec.toNat_shiftLeft, BitVec.toNat_ofNat, Nat.shiftLeft_eq]

theorem ushiftRight_eq_ofNat (a : BitVec 64) (n : Nat) : a >>> n = BitVec.ofNat 64 (a.toNat / 2 ^ n) := by
  rw [← Nat.shiftRight_eq_div_pow, ← BitVec.toNat_ushiftRight, BitVec.ofNat_toNat, BitVec.setWidth_eq]

theorem bit64_slt (a b : BitVec 64) : bit64 (a.slt b) = if a.toInt < b.toInt then 1 else 0 := by
  simp [bit64, BitVec.slt_iff_toInt_lt]

theorem bit64_ult (a b : BitVec 64) : bit64 (a.ult b) = if a.toNat < b.toNat then 1 else 0 := by
  simp [bit64, BitVec.ult_iff_lt, BitVec.lt_def]

theorem sext15_toInt (v : BitVec 15) : (sext15 v).toInt = v.toInt := by
  rw [sext15, BitVec.toInt_signExtend_of_le (by decide)]

theorem add_sext15 (a : BitVec 64) (v : BitVec 15) : a + sext15 v = BitVec.ofInt 64 (a.toInt + v.toInt) := by
  rw [BitVec.ofInt_add, BitVec.ofInt_toInt, ← sext15_toInt, BitVec.ofInt_toInt]

theorem setWidth_eq_ofNat {n : Nat} (v : BitVec n) (k : Nat) : v.setWidth k = BitVec.ofNat k v.toNat :=
  (BitVec.ofNat_toNat k v).symm

/-- The shifted value has no bit where imm15 has one. -/
theorem shiftLeft_or_imm (a : BitVec 64) (v : BitVec 15) :
    (a <<< 15) ||| v.setWidth 64 = BitVec.ofNat 64 (a.toNat * 2 ^ 15 + v.toNat) := by
  have hv := v.isLt
  apply BitVec.eq_of_toNat_eq
  have low : (BitVec.setWidth 64 v).toNat = v.toNat := BitVec.toNat_setWidth_of_le (by decide)
  have high : (a <<< 15).toNat = 2 ^ 15 * (a.toNat % 2 ^ 49) := by
    rw [BitVec.toNat_shiftLeft, Nat.shiftLeft_eq]; omega
  rw [BitVec.toNat_or, low, high, ← Nat.two_pow_add_eq_or_of_lt hv, BitVec.toNat_ofNat]
  omega

/-- CLZ counts the zero bits above the highest set bit. -/
theorem leadingZeros_spec (a : BitVec 64) :
    leadingZeros a ≤ 64 ∧ a.toNat < 2 ^ (64 - leadingZeros a) ∧
      (leadingZeros a < 64 → 2 ^ (63 - leadingZeros a) ≤ a.toNat) := by
  unfold leadingZeros
  by_cases h : a = 0
  · subst h; simp
  · have h0 : a.toNat ≠ 0 := fun e => h (BitVec.eq_of_toNat_eq e)
    have hlog : Nat.log2 a.toNat < 64 := (Nat.log2_lt h0).mpr a.isLt
    rw [if_neg h]
    refine ⟨by omega, ?_, fun _ => ?_⟩
    · rw [show 64 - (63 - Nat.log2 a.toNat) = Nat.log2 a.toNat + 1 by omega]
      exact Nat.lt_log2_self
    · rw [show 63 - (63 - Nat.log2 a.toNat) = Nat.log2 a.toNat by omega]
      exact Nat.log2_self_le h0

theorem onesIn_eq_card (a : BitVec 64) :
    onesIn a = (Finset.univ.filter (fun i : Fin 64 => a.getLsbD i = true)).card := by
  rw [Finset.card_filter, Fin.sum_univ_eq_sum_range (fun i => if a.getLsbD i = true then 1 else 0), ← Finset.card_filter]
  exact congrArg (fun p => ((List.range 64).filter p).length) (funext fun i => Bool.decide_eq_true.symm)

/-! #### Words that write one scalar register -/

section
variable {i : Instr} {c : CoreId} {f : SR} {w : Companions} {s : State}

theorem writesX_scalar2 {g : BitVec 64 → BitVec 64 → BitVec 64} (hi : exec i s = runWord c 0 (scalar2 f g) w s)
    (himm : f.imm10 = 0) {v : BitVec 64} (hv : g ((s.core c).getX f.xs1) ((s.core c).getX f.xs2) = v) :
    WritesX 0 i c f.xd v w s :=
  hv ▸ completes hi (by decide) (scalar2_fits f g) ⟨decide_eq_true himm, nofun, rfl, rfl⟩

theorem writesX_scalar1 {g : BitVec 64 → BitVec 64} (hi : exec i s = runWord c 0 (scalar1 f g) w s)
    (himm : f.imm10 = 0) (hxs2 : f.xs2 = 0) {v : BitVec 64} (hv : g ((s.core c).getX f.xs1) = v) :
    WritesX 0 i c f.xd v w s :=
  hv ▸ completes hi (by decide) (scalar1_fits f g) ⟨by simp [scalar1, himm, hxs2], nofun, rfl, rfl⟩

end

section
variable {i : Instr} {c : CoreId} {f : SI} {w : Companions} {s : State}

theorem writesX_scalarI {g : BitVec 64 → BitVec 64} (hi : exec i s = runWord c 0 (scalarI f g) w s) {v : BitVec 64}
    (hv : g ((s.core c).getX f.xs1) = v) : WritesX 0 i c f.xd v w s :=
  hv ▸ completes hi (by decide) (scalarI_fits f g) ⟨rfl, nofun, rfl, rfl⟩

theorem writesX_shiftI {g : BitVec 64 → Nat → BitVec 64} (hi : exec i s = runWord c 0 (shiftI f g) w s)
    (hn : f.imm15.toNat < 64) {v : BitVec 64} (hv : g ((s.core c).getX f.xs1) f.imm15.toNat = v) :
    WritesX 0 i c f.xd v w s := by
  rw [← hv, ← Nat.mod_eq_of_lt hn]
  exact completes hi (by decide) (shiftI_fits f g) ⟨decide_eq_true hn, nofun, rfl, rfl⟩

end

/-- Settles O4: each row's slot computes xd by its own operation, whose integer value is the row's in Table 2.5. -/
theorem scalarResults : Obligations.ScalarResults := by
  refine ⟨fun c f w s h => ?_, fun c f w s h h2 => ?_, fun c f w s => ?_⟩
  · intro a b n
    exact ⟨writesX_scalar2 rfl h rfl, writesX_scalar2 rfl h rfl, writesX_scalar2 rfl h (mul_eq_ofInt a b),
      writesX_scalar2 rfl h (extract_high_ofInt _), writesX_scalar2 rfl h rfl,
      writesX_scalar2 rfl h (by rw [all64_eq, sdiv_eq_ofInt]), writesX_scalar2 rfl h (by rw [all64_eq, udiv_eq_ofNat]),
      writesX_scalar2 rfl h (by rw [srem_eq_ofInt]), writesX_scalar2 rfl h rfl, writesX_scalar2 rfl h rfl,
      writesX_scalar2 rfl h rfl, writesX_scalar2 rfl h (shiftLeft_eq_ofNat a n),
      writesX_scalar2 rfl h (ushiftRight_eq_ofNat a n), writesX_scalar2 rfl h (sshiftRight_eq_ofInt a n),
      writesX_scalar2 rfl h (bit64_slt a b), writesX_scalar2 rfl h (bit64_ult a b)⟩
  · intro a
    obtain ⟨hle, hlt, hge⟩ := leadingZeros_spec a
    exact ⟨⟨leadingZeros a, hle, hlt, hge, writesX_scalar1 rfl h h2 rfl⟩,
      writesX_scalar1 rfl h h2 (congrArg (BitVec.ofNat 64) (onesIn_eq_card a))⟩
  · intro a n
    have himm : f.imm15.setWidth 64 = BitVec.ofNat 64 n := setWidth_eq_ofNat f.imm15 64
    exact ⟨writesX_scalarI rfl (add_sext15 a f.imm15), writesX_scalarI rfl (congrArg (a &&& ·) himm),
      writesX_scalarI rfl (congrArg (a ||| ·) himm), writesX_scalarI rfl (congrArg (a ^^^ ·) himm),
      fun hn => writesX_shiftI rfl hn (shiftLeft_eq_ofNat a n), fun hn => writesX_shiftI rfl hn (ushiftRight_eq_ofNat a n),
      fun hn => writesX_shiftI rfl hn (sshiftRight_eq_ofInt a n), writesX_scalarI rfl (shiftLeft_or_imm a f.imm15),
      writesX_scalarI rfl (by rw [bit64_slt, sext15_toInt])⟩

end Sys2Proof.Machine

/-! ### Branches and jumps (Table 2.5, R37) -/

namespace Sys2Proof.Machine

open Sys2Proof

/-- PC plus an offset in words. -/
theorem ofInt_pc_add (s : State) (c : CoreId) (off : Int) :
    BitVec.ofInt 64 ((s.core c).pc.toNat + 16 * off) = (ctxOf s c).target off := by
  rw [BitVec.ofInt_add, Int.mul_comm, BitVec.ofInt_natCast, BitVec.ofNat_toNat, BitVec.setWidth_eq]
  rfl

section
variable {i : Instr} {c : CoreId} {f : SB} {w : Companions} {s : State}

theorem goesTo_branch2 {g : BitVec 64 → BitVec 64 → Bool} (hi : exec i s = runWord c 0 (branch2 f g) w s) {b : Bool}
    (hb : g ((s.core c).getX f.xs1) ((s.core c).getX f.xs2) = b) :
    GoesTo i c (if b then some (BitVec.ofInt 64 ((s.core c).pc.toNat + 16 * f.off15.toInt)) else none) w s := by
  rw [← hb, ofInt_pc_add]
  exact completes hi (by decide) (branch2_fits f g) ⟨rfl, nofun, rfl, rfl⟩

theorem goesTo_branchP {g : BitVec 512 → Bool} (hi : exec i s = runWord c 0 (branchP f g) w s) (hp : f.xs1.toNat < 8)
    (h2 : f.xs2 = 0) {b : Bool} (hb : g ((s.core c).getP (BitVec.ofNat 3 f.xs1.toNat)) = b) :
    GoesTo i c (if b then some (BitVec.ofInt 64 ((s.core c).pc.toNat + 16 * f.off15.toInt)) else none) w s := by
  rw [← hb, ← setWidth_eq_ofNat, ofInt_pc_add]
  exact completes hi (by decide) (branchP_fits f g) ⟨by simp [branchP, hp, h2], nofun, rfl, rfl⟩

end

theorem decide_ne_eq_bne {n : Nat} (a b : BitVec n) : decide (a ≠ b) = (a != b) := by
  rw [Bool.eq_iff_iff]; simp

theorem slt_eq_decide (a b : BitVec 64) : a.slt b = decide (a.toInt < b.toInt) := rfl

theorem not_slt_eq_decide (a b : BitVec 64) : (!a.slt b) = decide (b.toInt ≤ a.toInt) := by
  rw [slt_eq_decide, ← decide_not]; simp

theorem ult_eq_decide (a b : BitVec 64) : a.ult b = decide (a.toNat < b.toNat) := rfl

theorem not_ult_eq_decide (a b : BitVec 64) : (!a.ult b) = decide (b.toNat ≤ a.toNat) := by
  rw [ult_eq_decide, ← decide_not]; simp

section
variable {c : CoreId} {f : SR} {j : SJ} {w : Companions} {s : State}

theorem goesTo_jmp :
    GoesTo (.jmp c j w) c (some (BitVec.ofInt 64 ((s.core c).pc.toNat + 16 * j.off25.toInt))) w s := by
  rw [ofInt_pc_add]
  exact completes (m := slotJmp j) rfl (by decide) (slotJmp_fits j) ⟨rfl, nofun, rfl, rfl⟩

theorem completes_call : Completes 0 [.x 31]
    { x := some (31, (s.core c).pc + 16), target := some (BitVec.ofInt 64 ((s.core c).pc.toNat + 16 * j.off25.toInt)) }
    (.call c j w) c w s := by
  rw [ofInt_pc_add]
  exact completes (m := slotCall j) rfl (by decide) (slotCall_fits j) ⟨rfl, nofun, rfl, rfl⟩

theorem goesTo_jr (himm : f.imm10 = 0) (hxd : f.xd = 0) (h2 : f.xs2 = 0) (ha : ((s.core c).getX f.xs1).toNat % 16 = 0) :
    GoesTo (.jr c f w) c (some ((s.core c).getX f.xs1)) w s :=
  completes (m := slotJr f) rfl (by decide) (slotJr_fits f)
    ⟨by simp [slotJr, himm, hxd, h2], nofun, by simp [slotJr, ha], rfl⟩

theorem completes_callr (himm : f.imm10 = 0) (h2 : f.xs2 = 0) (ha : ((s.core c).getX f.xs1).toNat % 16 = 0) :
    Completes 0 [.x f.xd] { x := some (f.xd, (s.core c).pc + 16), target := some ((s.core c).getX f.xs1) }
      (.callr c f w) c w s :=
  completes (m := slotCallr f) rfl (by decide) (slotCallr_fits f)
    ⟨by simp [slotCallr, himm, h2], nofun, by simp [slotCallr, ha], rfl⟩

end

/-- Settles O5: a branch's slot gives a target or none, and the word goes on there or at the next word. -/
theorem branchesAndJumps : Obligations.BranchesAndJumps := by
  refine ⟨fun c f j w s => ?_, fun c f j w s => ⟨completes_call, goesTo_jr, completes_callr⟩⟩
  intro k a b p dest
  exact ⟨goesTo_branch2 rfl (by rfl), goesTo_branch2 rfl (decide_ne_eq_bne a b), goesTo_branch2 rfl (slt_eq_decide a b),
    goesTo_branch2 rfl (not_slt_eq_decide a b), goesTo_branch2 rfl (ult_eq_decide a b),
    goesTo_branch2 rfl (not_ult_eq_decide a b), fun hp h2 => goesTo_branchP rfl hp h2 (decide_ne_eq_bne p 0),
    fun hp h2 => goesTo_branchP rfl hp h2 (by rfl), goesTo_jmp⟩

end Sys2Proof.Machine

/-! ### Control registers (Table 2.9, R42) -/

namespace Sys2Proof.Machine

open Sys2Proof

theorem writesX_csrr {c : CoreId} {f : SR} {w : Companions} {s : State} (h1 : f.xs1 = 0) (h2 : f.xs2 = 0)
    (hl : csrListed f.imm10 = true) (hm : csrFirmware f.imm10 = true → (s.core c).firmware = true) :
    WritesX 0 (.csrr c f w) c f.xd ((ctxOf s c).csr f.imm10) w s :=
  completes (m := slotCsrr f) rfl (by decide) (slotCsrr_fits f) ⟨by simp [slotCsrr, h1, h2, hl], hm, rfl, rfl⟩

/-- A word gives X[r] one value, so two accounts of it agree. -/
theorem WritesX.unique {own : Nat} {i : Instr} {c : CoreId} {r : BitVec 5} {u v : BitVec 64} {w : Companions} {s : State}
    {es : List Effect} (hu : WritesX own i c r u w s) (hv : WritesX own i c r v w s) (hr : r ≠ 0)
    (he : OthersRun own [.x r] c w s es) : u = v := by
  obtain ⟨t, ht, wu, -⟩ := hu es he
  obtain ⟨t', ht', wv, -⟩ := hv es he
  cases ht.symm.trans ht'
  have e := (wu.x r hr).symm.trans (wv.x r hr)
  simpa [writtenTo] using e

/-- Empty companion slots complete beside any slot 0. -/
theorem othersRun_empty {s : State} {c : CoreId} (h : Commits s c) (r : BitVec 5) :
    OthersRun 0 [.x r] c ⟨0, 0, 0⟩ s [{}, {}, {}] :=
  ⟨h, .cons ⟨rfl, nofun, rfl, rfl⟩ (.cons ⟨rfl, nofun, rfl, rfl⟩ (.cons ⟨rfl, nofun, rfl, rfl⟩ .nil)),
    (List.nodup_singleton (Dest.x r)).filter _⟩

/-- A core that runs a class A item and keeps the pending ticket 0 of the class B item it pre-empted. -/
def coreOfPreempted : Core :=
  { Core.reset with active := true, tickets := Core.reset.tickets.set 0 .pending }

def stateOfPreempted : State := { State.reset with cores := [(0, coreOfPreempted)] }

/-- TICKETS shows the class A item's own tickets, of which there are none. -/
theorem ticketMap_coreOfPreempted : coreOfPreempted.ticketMap = 0 := by decide

theorem commits_stateOfPreempted : Commits stateOfPreempted ⟨0, 0⟩ := ⟨rfl, rfl, rfl, by decide⟩

/-- Refutes O6: TICKETS holds the running item's tickets alone (Table 2.9), and a pending ticket of the item it pre-empted
reads as 0 there. -/
theorem not_controlRegisters : ¬ Obligations.ControlRegisters := by
  intro h
  let f : SR := { xd := 1, xs1 := 0, xs2 := 0, imm10 := 0x030 }
  obtain ⟨v, hbits, -, hv⟩ := (h.1 ⟨0, 0⟩ f ⟨0, 0, 0⟩ stateOfPreempted rfl rfl).2.2 rfl
  have hmap := (writesX_csrr (f := f) rfl rfl (by decide) (by decide)).unique hv (by decide)
    (othersRun_empty commits_stateOfPreempted 1)
  have hzero : v = 0 := hmap.symm.trans ticketMap_coreOfPreempted
  have hbit := hbits 0
  rw [hzero] at hbit
  exact absurd hbit (by decide)

end Sys2Proof.Machine

/-! ### The Headbox's treatment of an ended run leaves the cores alone (Table 11.8) -/

namespace Sys2Proof.Machine

open Sys2Proof

theorem foldl_cores {β : Type} {f : State → β → State} (h : ∀ s b, (f s b).cores = s.cores) (l : List β) (s : State) :
    (l.foldl f s).cores = s.cores := by
  induction l generalizing s with
  | nil => rfl
  | cons b l ih => exact (ih _).trans (h s b)

/-! #### Operations that touch neither cores nor jobs, and only add to the event log -/

/-- No core and no job has changed, and the event log has lost nothing. -/
structure Quiet (s t : State) : Prop where
  cores : t.cores = s.cores
  jobs  : t.hb.jobs = s.hb.jobs
  log   : s.dict.eventLog ⊆ t.dict.eventLog

theorem Quiet.refl (s : State) : Quiet s s := ⟨rfl, rfl, List.Subset.refl _⟩

theorem Quiet.trans {s t u : State} (h : Quiet s t) (g : Quiet t u) : Quiet s u :=
  ⟨g.cores.trans h.cores, g.jobs.trans h.jobs, List.Subset.trans h.log g.log⟩

theorem Quiet.foldl {β : Type} {f : State → β → State} (h : ∀ s b, Quiet s (f s b)) (l : List β) (s : State) :
    Quiet s (l.foldl f s) := by
  induction l generalizing s with
  | nil => exact .refl s
  | cons b l ih => exact (h s b).trans (ih _)

theorem freeAlloc_quiet (s : State) (n : BitVec 16) : Quiet s (s.freeAlloc n) := by
  unfold State.freeAlloc
  lift_lets
  intro a
  split
  · exact ⟨rfl, rfl, List.Subset.refl _⟩
  · exact .refl s

theorem removeItem_quiet (s : State) (key : ItemKey) : Quiet s (s.removeItem key) := by
  unfold State.removeItem
  split
  · exact .refl s
  · next it _ =>
    have inputs := Quiet.foldl (f := fun s (i : Input) => if it.cls = 0 then s.freeAlloc i.alloc else s) (fun s i => by
      split
      · exact freeAlloc_quiet s _
      · exact .refl s) it.inputs s
    have both := inputs.trans (freeAlloc_quiet _ it.outAlloc)
    exact ⟨both.cores, both.jobs, both.log⟩

theorem dropRun_quiet (s : State) (key : ItemKey) : Quiet s (s.dropRun key) := ⟨rfl, rfl, List.Subset.refl _⟩

theorem sendMsg_quiet (s : State) (t : BitVec 8) (m : Msg) : Quiet s (s.sendMsg t m) := by
  unfold State.sendMsg
  split
  · exact .refl s
  · lift_lets
    intro u
    split
    · exact ⟨rfl, rfl, List.Subset.refl _⟩
    · exact ⟨rfl, rfl, List.Subset.refl _⟩

theorem answerClassA_quiet (s : State) (r : Reply) (job : BitVec 64) (st : BitVec 16) (d : Bytes) :
    Quiet s (s.answerClassA r job st d) := by
  cases r with
  | none => exact .refl s
  | host tag room => exact ⟨rfl, rfl, List.Subset.refl _⟩
  | peer m => exact sendMsg_quiet s _ _

theorem noteLatency_quiet (s : State) (degraded : Bool) : Quiet s (s.noteLatency degraded) := by
  refine ⟨rfl, rfl, ?_⟩
  unfold State.noteLatency
  lift_lets
  intro missed w ns most misses
  dsimp only
  split
  · exact List.subset_append_left _ _
  · exact List.Subset.refl _

theorem classAStatus_quiet (s : State) (it : Item) : Quiet s (s.classAStatus it).2 := by
  unfold State.classAStatus
  split
  · exact (Quiet.mk rfl rfl (List.Subset.refl _) : Quiet s (s.bump 0x481006 1)).trans (noteLatency_quiet _ true)
  · exact noteLatency_quiet s false

theorem failClassA_quiet (s : State) (it : Item) (code : BitVec 16) : Quiet s (s.failClassA it code) :=
  (((classAStatus_quiet s it).trans (dropRun_quiet _ _)).trans (answerClassA_quiet _ _ _ _ _)).trans (removeItem_quiet _ _)

theorem notePoison_quiet (s : State) (st : BitVec 16) : Quiet s (s.notePoison st) := by
  unfold State.notePoison
  split
  · exact ⟨rfl, rfl, List.Subset.refl _⟩
  · exact .refl s

theorem serveClassA_quiet (s : State) (it : Item) : Quiet s (s.serveClassA it) := by
  unfold State.serveClassA
  lift_lets
  intro n r
  split
  · exact (notePoison_quiet s _).trans (failClassA_quiet _ _ _)
  · exact ((classAStatus_quiet s it).trans (answerClassA_quiet _ _ _ _ _)).trans (removeItem_quiet _ _)

theorem sendCan_quiet (s : State) (id : Nat) (b : Bytes) : Quiet s (s.sendCan id b) := by
  unfold State.sendCan
  split
  · exact .refl s
  · exact ⟨rfl, rfl, List.Subset.refl _⟩

theorem faultCode_quiet_log (s : State) (code : BitVec 16) (n : Nat) :
    Quiet ((s.logEvent code n).setModVal 0x100100 0 1) (s.faultCode code n) := by
  unfold State.faultCode
  lift_lets
  intro u
  split
  · exact .refl _
  · exact sendCan_quiet u _ _

theorem faultCode_quiet (s : State) (code : BitVec 16) (n : Nat) : Quiet s (s.faultCode code n) :=
  (Quiet.mk rfl rfl (List.subset_append_left _ _) : Quiet s ((s.logEvent code n).setModVal 0x100100 0 1)).trans
    (faultCode_quiet_log s code n)

/-- A fault code enters the event log. -/
theorem faultCode_logs (s : State) (code : BitVec 16) (n : Nat) : (code, n) ∈ (s.faultCode code n).dict.eventLog :=
  (faultCode_quiet_log s code n).log (List.mem_append_right _ (List.mem_singleton.mpr rfl))

/-! #### The end of a job -/

/-- Unloading forgets jobs and changes none that stay. -/
structure Unloads (s t : State) : Prop where
  cores : t.cores = s.cores
  jobs  : ∀ id k, t.job? id = some k → s.job? id = some k
  log   : s.dict.eventLog ⊆ t.dict.eventLog

theorem Quiet.job? {s t : State} (h : Quiet s t) (id : BitVec 64) : t.job? id = s.job? id := by
  unfold State.job?; rw [h.jobs]

theorem Quiet.unloads {s t : State} (h : Quiet s t) : Unloads s t := ⟨h.cores, fun id _ hk => (h.job? id) ▸ hk, h.log⟩

theorem unload_unloads (s : State) (id : BitVec 64) : Unloads s (s.unload id) := by
  unfold State.unload
  split
  · exact (Quiet.refl s).unloads
  · split
    · exact (Quiet.refl s).unloads
    · next j _ _ =>
      lift_lets
      intro s1 owned s2 flowIn tabIn fed s3
      have q1 : Quiet s s1 := Quiet.foldl (fun s (it : Item) => removeItem_quiet s it.key) _ s
      have q : Quiet s s2 := q1.trans (Quiet.foldl (fun s (e : Nat × Alloc) => freeAlloc_quiet s (BitVec.ofNat 16 e.1)) owned s1)
      refine ⟨q.cores, fun i k hk => ?_, q.log⟩
      have kept : (s2.hb.jobs.filter (fun x => x.job ≠ id)).find? (fun x => x.job = i) = some k := hk
      rw [← q.job? i]
      by_cases h : i = id
      · rw [List.find?_eq_some_iff_append] at kept
        obtain ⟨hi, as, bs, hl, -⟩ := kept
        have hmem : k ∈ s2.hb.jobs.filter (fun x => x.job ≠ id) := hl ▸ List.mem_append_right _ (List.mem_cons_self ..)
        have hne := (List.mem_filter.mp hmem).2
        simp only [decide_eq_true_eq] at hi hne
        exact absurd (hi.trans h) hne
      · rw [List.find?_filter] at kept
        refine (congrArg (List.find? · s2.hb.jobs) (funext fun x => ?_)).trans kept
        by_cases hx : x.job = i
        · simp [hx, h]
        · simp [hx]

theorem foldl_waiting_quiet (code : BitVec 16) (l : List Item) (s : State) :
    Quiet s (l.foldl (fun s it => if it.cls = 0 then s.failClassA it code else (s.dropRun it.key).removeItem it.key) s) := by
  refine Quiet.foldl (fun s it => ?_) l s
  split
  · exact failClassA_quiet s it code
  · exact (dropRun_quiet s _).trans (removeItem_quiet _ _)

theorem job?_setJob {s : State} {j k : Job} (h : s.job? k.job = some j) : (s.setJob k).job? k.job = some k := by
  unfold State.job? State.setJob at *
  have same : ((fun x => decide (x.job = k.job)) ∘ fun x => if x.job = k.job then k else x) =
      fun x : Job => decide (x.job = k.job) := by
    funext x
    by_cases hx : x.job = k.job <;> simp [hx]
  have hj : j.job = k.job := by simpa using List.find?_some h
  refine (List.find?_map ..).trans ?_
  rw [same, h]
  simp [hj]

/-- What stopping a job leaves of it: the code in the event log and, while it is listed, on the job. -/
structure StopsJob (s t : State) (id : BitVec 64) (code : BitVec 16) : Prop where
  logged  : (code, id.toNat) ∈ t.dict.eventLog
  stopped : ∀ k, t.job? id = some k → k.stopped = some code

theorem job?_job {s : State} {id : BitVec 64} {j : Job} (h : s.job? id = some j) : j.job = id :=
  by simpa using List.find?_some h

/-- Stopping a job: the state before its items go. -/
def State.markStopped (s : State) (j : Job) (code : BitVec 16) : State :=
  let t := (s.setJob { j with stopped := some code, finalSent := true }).faultCode code j.job.toNat
  if j.finalSent || j.test then t else t.complete j.tag code true j.job 0

theorem markStopped_quiet (s : State) (j : Job) (code : BitVec 16) :
    Quiet ((s.setJob { j with stopped := some code, finalSent := true }).faultCode code j.job.toNat) (s.markStopped j code) := by
  unfold State.markStopped
  lift_lets
  intro t
  split
  · exact .refl _
  · exact ⟨rfl, rfl, List.Subset.refl _⟩

theorem stopJob_of_stopped {s : State} {id : BitVec 64} {j : Job} (hj : s.job? id = some j) (hs : j.stopped.isSome = true)
    (code : BitVec 16) : s.stopJob id code = s := by
  unfold State.stopJob; simp [hj, hs]

theorem stopJob_of_none {s : State} {id : BitVec 64} (hj : s.job? id = none) (code : BitVec 16) : s.stopJob id code = s := by
  unfold State.stopJob; simp [hj]

/-- A job that runs is marked stopped, and what follows only ends its items and unloads it. -/
theorem stopJob_unloads {s : State} {id : BitVec 64} {j : Job} (hj : s.job? id = some j) (hs : j.stopped = none)
    (code : BitVec 16) : Unloads (s.markStopped j code) (s.stopJob id code) := by
  have hid := job?_job hj
  have run : s.stopJob id code = (((s.markStopped j code).hb.items.filter (fun it => it.job = id && !it.onCore &&
      !(s.markStopped j code).inUse it.outAlloc)).foldl (fun s it =>
        if it.cls = 0 then s.failClassA it code else (s.dropRun it.key).removeItem it.key) (s.markStopped j code)).unload id := by
    unfold State.stopJob
    simp only [hj, hs, Option.isSome_none, Bool.false_eq_true, if_false]
    rw [← hid]
    rfl
  rw [run]
  have q := foldl_waiting_quiet code ((s.markStopped j code).hb.items.filter (fun it => it.job = id && !it.onCore &&
      !(s.markStopped j code).inUse it.outAlloc)) (s.markStopped j code)
  have u := unload_unloads (((s.markStopped j code).hb.items.filter (fun it => it.job = id && !it.onCore &&
      !(s.markStopped j code).inUse it.outAlloc)).foldl (fun s it =>
        if it.cls = 0 then s.failClassA it code else (s.dropRun it.key).removeItem it.key) (s.markStopped j code)) id
  exact ⟨u.cores.trans q.cores, fun i k hk => q.unloads.jobs i k (u.jobs i k hk), List.Subset.trans q.log u.log⟩

theorem markStopped_cores (s : State) (j : Job) (code : BitVec 16) : (s.markStopped j code).cores = s.cores :=
  (markStopped_quiet s j code).cores.trans (faultCode_quiet _ _ _).cores

theorem stopJob_cores (s : State) (id : BitVec 64) (code : BitVec 16) : (s.stopJob id code).cores = s.cores := by
  cases hj : s.job? id with
  | none => rw [stopJob_of_none hj]
  | some j =>
    cases hs : j.stopped with
    | some x => rw [stopJob_of_stopped hj (by simp [hs])]
    | none => exact (stopJob_unloads hj hs code).cores.trans (markStopped_cores s j code)

theorem stopJob_stops {s : State} {id : BitVec 64} {j : Job} (hj : s.job? id = some j) (hs : j.stopped = none)
    (code : BitVec 16) : StopsJob s (s.stopJob id code) id code := by
  have hid := job?_job hj
  have u := stopJob_unloads hj hs code
  have q := markStopped_quiet s j code
  refine ⟨u.log (q.log (hid ▸ faultCode_logs _ _ _)), fun k hk => ?_⟩
  have hk := u.jobs id k hk
  rw [q.job?, (faultCode_quiet _ _ _).job?, ← hid] at hk
  have hset : (s.setJob { j with stopped := some code, finalSent := true }).job? j.job = some _ :=
    job?_setJob (k := { j with stopped := some code, finalSent := true }) (hid.symm ▸ hj)
  rw [← Option.some.inj (hset.symm.trans hk)]

/-! #### An accepted or repeated run -/

theorem handRows_cores (s : State) (j : Job) (f : FlowRec) (it : Item) : (s.handRows j f it).cores = s.cores := by
  refine foldl_cores (fun s e => ?_) _ s
  dsimp only
  split
  · rfl
  · rfl

theorem keepHashes_cores (s : State) (id : BitVec 64) (hs : List (Nat × BitVec 64)) : (s.keepHashes id hs).cores = s.cores := by
  unfold State.keepHashes
  split
  · rfl
  · split <;> rfl

theorem countBuilt_cores (s : State) (id : BitVec 64) (p : Nat) (js : List (JoinRec × Nat)) (rows : JoinRec → List Bytes) :
    (s.countBuilt id p js rows).cores = s.cores := by
  unfold State.countBuilt
  split <;> rfl

theorem keepJoined_cores (s : State) (j : Job) (f : FlowRec) (it : Item) : (s.keepJoined j f it).cores = s.cores := by
  unfold State.keepJoined
  split
  · rfl
  · split
    · rfl
    · lift_lets
      intro above out rows
      split
      · rfl
      · rw [keepHashes_cores, countBuilt_cores]

theorem countJoined_cores (s : State) (j : Job) (f : FlowRec) (it : Item) : (s.countJoined j f it).cores = s.cores := by
  unfold State.countJoined
  split <;> rfl

theorem sendSlurry_cores (s : State) (j : Job) (e : ExchRec) (t : BitVec 8) (dst : BitVec 14) (part round value : Nat)
    (payload : Bytes) : (s.sendSlurry j e t dst part round value payload).cores = s.cores := by
  unfold State.sendSlurry
  split
  · rfl
  · exact (sendMsg_quiet _ _ _).cores

theorem finishRound_cores (s : State) (j : Job) (f : FlowRec) (q : Nat) : (s.finishRound j f q).cores = s.cores := by
  unfold State.finishRound
  split
  · lift_lets
    intro p r mine rows s1 x1 b x2 s2
    split
    · rfl
    · exact (foldl_cores (fun s h => sendSlurry_cores s _ _ _ h _ _ _ _) _ _).trans (keepHashes_cores _ _ _)
  · rfl

theorem sweep_cores (s : State) (id : BitVec 64) : (s.sweep id).cores = s.cores := by
  unfold State.sweep
  split
  · rfl
  · exact foldl_cores (fun s it => (removeItem_quiet s _).cores) _ s

theorem acceptRun_cores (s : State) (it : Item) : (s.acceptRun it).cores = s.cores := by
  unfold State.acceptRun
  lift_lets
  intro s1 s2
  have h2 : s2.cores = s.cores := rfl
  split
  · exact (stopJob_cores s2 _ _).trans h2
  · split
    · exact h2
    · next j f _ =>
      lift_lets
      intro own s3 s4 s5
      have h3 : s3.cores = s.cores := foldl_cores (fun s (i : Input) => (freeAlloc_quiet s i.alloc).cores) own s2
      split
      · exact (stopJob_cores _ _ _).trans ((notePoison_quiet _ _).cores.trans h3)
      · rw [sweep_cores, finishRound_cores]
        exact (countJoined_cores _ _ _ _).trans ((keepJoined_cores _ _ _ _).trans ((handRows_cores _ _ _ _).trans h3))

theorem rerun_cores (s : State) (it : Item) (counted : Bool) (c : Option CoreId) (d : Option (BitVec 2)) :
    (s.rerun it counted c d).cores = s.cores := by
  unfold State.rerun
  rw [memWrite_cores, bump_cores, setItem_cores]
  rfl

/-- Whatever the status, the Headbox's treatment of the run leaves every core as it is. -/
theorem outcome_cores (s : State) (it : Item) (c : CoreId) (st : BitVec 16) : (s.outcome it c st).cores = s.cores := by
  have dropped : ∀ u : State, (((u.dropRun it.key).removeItem it.key).unload it.job).cores = u.cores := fun u =>
    (unload_unloads _ _).cores.trans (removeItem_quiet _ _).cores
  unfold State.outcome
  lift_lets
  intro limit stopped
  split
  · exact dropped s
  · split
    · split
      · exact (unload_unloads _ _).cores.trans (failClassA_quiet _ _ _).cores
      · exact dropped s
    · have failed := fun (x : Item) (code : BitVec 16) => (failClassA_quiet s x code).cores
      have ended := fun code : BitVec 16 => stopJob_cores s it.job code
      split
      · split
        · split
          · exact setItem_cores s _
          · exact (serveClassA_quiet s it).cores
        · exact acceptRun_cores s it
      · split
        · split
          · split
            · exact failed it st
            · exact rerun_cores s _ _ _ _
          · split
            · exact ended _
            · exact rerun_cores s _ _ _ _
        · split
          · dsimp only
            split
            · split
              · exact failed _ _
              · exact ended _
            · exact rerun_cores s _ _ _ _
          · split
            · split
              · split
                · exact failed _ _
                · exact ended _
              · exact rerun_cores s _ _ _ _
            · split
              · exact failed _ _
              · exact ended _

end Sys2Proof.Machine

/-! ### Words that stop, and the exceptions they take (R59 to R61, Table 2.10) -/

namespace Sys2Proof.Machine

open Sys2Proof

/-! #### The slot that stops a word -/

/-- Why a slot stops its word: its encoding, its mode, or what its operation raises or waits for (R60). -/
def Meaning.stops (m : Meaning) (t : Ctx) (x : Stop) : Prop :=
  if m.legal t.k = false then x = excOf 0x0101
  else if m.privileged = true ∧ t.k.firmware = false then x = excOf 0x0103
  else m.run t = .error x

theorem stops_of_illegal {m : Meaning} {t : Ctx} (h : m.legal t.k = false) : m.stops t (excOf 0x0101) := by
  simp [Meaning.stops, h]

theorem stops_of_privileged {m : Meaning} {t : Ctx} (h : m.legal t.k = true) (hp : m.privileged = true)
    (hf : t.k.firmware = false) : m.stops t (excOf 0x0103) := by
  simp [Meaning.stops, h, hp, hf]

theorem stops_of_run {m : Meaning} {s : State} {c : CoreId} (h : SlotMay s c m) {x : Stop}
    (hr : m.run (ctxOf s c) = .error x) : m.stops (ctxOf s c) x := by
  obtain ⟨hl, hp⟩ := h
  unfold Meaning.stops
  rw [if_neg (by rw [show (ctxOf s c).k = s.core c from rfl, hl]; decide), if_neg]
  · exact hr
  · rintro ⟨h1, h2⟩
    exact absurd ((hp h1).symm.trans h2) (by decide)

theorem evalSlots_of_stops {m : Meaning} {t : Ctx} {x : Stop} (h : m.stops t x) (i : Nat) (ms : List Meaning) :
    evalSlots t i (m :: ms) = .error (i, x) := by
  unfold Meaning.stops at h
  rw [evalSlots]
  split at h
  · next hl => rw [h, hl]; rfl
  · next hl =>
    have hl : m.legal t.k = true := by simpa using hl
    split at h
    · next hp => rw [h, hl, hp.1, hp.2]; rfl
    · next hp =>
      have hp : (m.privileged && !t.k.firmware) = false := by simpa using hp
      rw [hl, hp, h]
      rfl

/-- A slot that completes hands over to the next. -/
theorem evalSlots_cons_error {s : State} {c : CoreId} {m : Meaning} {e : Effect} {i : Nat} {ms : List Meaning}
    {x : Nat × Stop} (hm : SlotMay s c m) (hr : m.run (ctxOf s c) = .ok e) (h : evalSlots (ctxOf s c) (i + 1) ms = .error x) :
    evalSlots (ctxOf s c) i (m :: ms) = .error x := by
  obtain ⟨hl, hp⟩ := hm
  have hpriv : (m.privileged && !(s.core c).firmware) = false := by
    cases h1 : m.privileged
    · rfl
    · simp [hp h1]
  rw [evalSlots, show (ctxOf s c).k = s.core c from rfl, hl, hpriv, hr, h]
  rfl

/-- R60: the first slot that stops decides. -/
theorem evalSlots_stop {s : State} {c : CoreId} {m : Meaning} {x : Stop} (n : Nat) (ms : List Meaning) (i : Nat)
    (hn : ms[n]? = some m) (before : ∀ b ∈ ms.take n, SlotMay s c b ∧ ∃ e, b.run (ctxOf s c) = .ok e)
    (h : m.stops (ctxOf s c) x) : evalSlots (ctxOf s c) i ms = .error (i + n, x) := by
  induction n generalizing ms i with
  | zero =>
    cases ms with
    | nil => cases hn
    | cons a ms =>
      cases hn
      exact evalSlots_of_stops h i ms
  | succ n ih =>
    cases ms with
    | nil => cases hn
    | cons a ms =>
      obtain ⟨ha, e, he⟩ := before a (by simp)
      refine evalSlots_cons_error ha he ?_
      rw [ih ms (i + 1) hn (fun b hb => before b (by simp [hb])), Nat.add_right_comm, Nat.add_assoc]

/-! #### Words by their outcome -/

section
variable {c : CoreId} {own : Nat} {m : Meaning} {w : Companions} {s : State}

theorem runWord_fetchFault (ha : (s.core c).active = true) (hf : (s.core c).finishing = none)
    (hr : (s.core c).runahead = false) (h : fetchFault s (s.core c) = true) :
    runWord c own m w s = .next (s.exception c none 0x0104 none none) := by
  simp [runWord, ha, hf, hr, h]

theorem runWord_clash (hc : Commits s c) (h : destsClash (wordSlots own m w) = true) :
    runWord c own m w s = .next (s.exception c none 0x0102 none none) := by
  obtain ⟨ha, hf, hr, hfetch⟩ := hc
  simp [runWord, ha, hf, hr, hfetch, h]

theorem runWord_exc (hc : Commits s c) (h : destsClash (wordSlots own m w) = false) {n : Nat} {code : BitVec 16}
    {trap : Option (BitVec 10)} {fa : Option (BitVec 64)}
    (he : evalSlots (ctxOf s c) 0 (wordSlots own m w) = .error (n, .exc code trap fa)) :
    runWord c own m w s = .next (s.exception c (some (BitVec.ofNat 2 n)) code trap fa) := by
  obtain ⟨ha, hf, hr, hfetch⟩ := hc
  have he : evalSlots { s := s, c := c, k := s.core c } 0 (wordSlots own m w) = .error (n, .exc code trap fa) := he
  simp [runWord, ha, hf, hr, hfetch, h, he]

theorem runWord_wait (hc : Commits s c) (h : destsClash (wordSlots own m w) = false) {n : Nat}
    (he : evalSlots (ctxOf s c) 0 (wordSlots own m w) = .error (n, .wait)) : runWord c own m w s = .next s := by
  obtain ⟨ha, hf, hr, hfetch⟩ := hc
  have he : evalSlots { s := s, c := c, k := s.core c } 0 (wordSlots own m w) = .error (n, .wait) := he
  simp [runWord, ha, hf, hr, hfetch, h, he]

end

theorem nodup_of_eraseDups_length {α : Type} [DecidableEq α] (l : List α) (h : l.length = l.eraseDups.length) : l.Nodup := by
  have sub : ∀ l : List α, l.eraseDups.length ≤ l.length := by
    intro l
    induction hn : l.length using Nat.strong_induction_on generalizing l with
    | _ n ih =>
      cases l with
      | nil => simp
      | cons a l =>
        rw [List.eraseDups_cons, List.length_cons]
        have hf := List.length_filter_le (fun b => !b == a) l
        rw [List.length_cons] at hn
        have := ih (l.filter (fun b => !b == a)).length (by omega) _ rfl
        omega
  induction l with
  | nil => exact List.nodup_nil
  | cons a l ih =>
    rw [List.eraseDups_cons, List.length_cons, List.length_cons] at h
    have h1 := sub (l.filter (fun b => !b == a))
    have h2 := List.length_filter_le (fun b => !b == a) l
    have hl : l.filter (fun b => !b == a) = l := List.filter_eq_self.mpr (by
      have : (l.filter (fun b => !b == a)).length = l.length := by omega
      exact List.length_filter_eq_length_iff.mp this)
    rw [hl] at h
    refine List.nodup_cons.mpr ⟨fun hm => ?_, ih (by omega)⟩
    have := List.filter_eq_self.mp hl a hm
    simp at this

theorem destsClash_eq (ms : List Meaning) :
    destsClash ms = true ↔ ¬ ((ms.flatMap (·.dests)).filter (· ≠ .x 0)).Nodup := by
  constructor
  · intro h hn
    rw [noClash hn] at h
    cases h
  · intro h
    have e : ms.flatMap (fun m => m.dests.filter (· ≠ .x 0)) = (ms.flatMap (·.dests)).filter (· ≠ .x 0) := by
      rw [List.filter_flatMap]
    unfold destsClash
    rw [e]
    exact decide_eq_true (fun hl => h (nodup_of_eraseDups_length _ hl))

theorem destsClash_eq_false {ms : List Meaning} (h : ((ms.flatMap (·.dests)).filter (· ≠ .x 0)).Nodup) :
    destsClash ms = false := noClash h

/-! #### The exception itself -/

/-- The core as it takes an exception: the time its word took has passed. -/
def State.stalled (s : State) (c : CoreId) : Core :=
  { s.core c with cycle := (s.core c).cycle + 1 + BitVec.ofNat 64 (Config.stall s.free),
                  itemCycles := (s.core c).itemCycles + 1 + BitVec.ofNat 32 (Config.stall s.free) }

/-- The module as a core takes an exception: an uncorrectable read is counted. -/
def State.noted (s : State) (c : CoreId) (code : BitVec 16) (faddr : Option (BitVec 64)) : State :=
  ((if faddr.isSome && code = poisonStatus then s.bump 0x48000F 1 else s).setCore c (s.stalled c)).drawn

theorem exception_eq (s : State) (c : CoreId) (slot : Option (BitVec 2)) (code : BitVec 16) (trap : Option (BitVec 10))
    (faddr : Option (BitVec 64)) : s.exception c slot code trap faddr =
      if !(s.core c).firmware then ((s.noted c code faddr).setCore c { s.stalled c with epc := (s.core c).pc }).itemEnd c code
      else if (s.core c).handler then
        let u := ((s.noted c code faddr).setCore c { s.stalled c with epc := (s.core c).pc, active := false }).faultCode code (coreNum c)
        { u with hb := { u.hb with firmwareFault := u.hb.firmwareFault ++ [c] } }
      else (s.noted c code faddr).setCore c { s.stalled c with
        epc := (s.core c).pc,
        cause := trap.getD ((Config.freeWord s.free 1).setWidth 10) ++ slot.getD ((Config.freeWord s.free 2).setWidth 2) ++ code,
        faddr := faddr.getD (Config.freeWord s.free 0), pc := (s.core c).evec, handler := true } := rfl

/-- Beside the core, only the counter of uncorrectable reads can have changed. -/
theorem noted_eq (s : State) (c : CoreId) (code : BitVec 16) (faddr : Option (BitVec 64)) :
    s.noted c code faddr = { s with cores := (s.noted c code faddr).cores, free := (s.noted c code faddr).free,
                                    dict := { s.dict with values := (s.noted c code faddr).dict.values } } := by
  unfold State.noted
  split <;> rfl

theorem noted_dict (s : State) (c : CoreId) {code : BitVec 16} (h : code ≠ poisonStatus) (faddr : Option (BitVec 64)) :
    (s.noted c code faddr).dict = s.dict := by
  unfold State.noted
  rw [if_neg (by simp [h])]
  rfl

theorem core_noted (s : State) (c d : CoreId) (code : BitVec 16) (faddr : Option (BitVec 64)) :
    (s.noted c code faddr).core d = if d = c then s.stalled c else s.core d := by
  have h : (s.noted c code faddr).core d =
      ((if faddr.isSome && code = poisonStatus then s.bump 0x48000F 1 else s).setCore c (s.stalled c)).core d := rfl
  rw [h, core_setCore]
  split
  · rfl
  · split <;> rfl

theorem core_noted_setCore (s : State) (c d : CoreId) (code : BitVec 16) (faddr : Option (BitVec 64)) (k : Core) :
    ((s.noted c code faddr).setCore c k).core d = if d = c then k else s.core d := by
  rw [core_setCore, core_noted]
  split <;> rfl

theorem cause_fields (tr : BitVec 10) (sl : BitVec 2) (code : BitVec 16) :
    (tr ++ sl ++ code).extractLsb' 0 16 = code ∧ (tr ++ sl ++ code).extractLsb' 16 2 = sl ∧
      (tr ++ sl ++ code).extractLsb' 18 10 = tr := by
  refine ⟨?_, ?_, ?_⟩ <;> ext i hi <;> simp only [BitVec.getElem_extractLsb', BitVec.getLsbD_append]
  · simp [hi, BitVec.getLsbD_eq_getElem]
  · simp [hi, BitVec.getLsbD_eq_getElem]
  · simp [show ¬ 18 + i < 16 by omega, show ¬ 18 + i - 16 < 2 by omega, show 18 + i - 16 - 2 = i by omega,
      BitVec.getLsbD_eq_getElem hi]

/-- A core's view of a state whose cores have only had one replaced. -/
theorem core_of_cores {s t : State} (h : t.cores = s.cores) (d : CoreId) : t.core d = s.core d := by
  unfold State.core; rw [h]

/-- A class A item that has gone beyond condition 5 of Table 12.5 is marked as it ends. -/
def Item.measured (it : Item) (k : Core) : Item :=
  if it.cls = 0 && (decide (2048 < k.wordsRun) || decide (16 < k.lineUses) || k.otherUnit) then { it with degraded := true }
  else it

section
variable {s : State} {c : CoreId} {key : ItemKey}

theorem itemEnd_of_no_item (h : (s.core c).item = none) (st : BitVec 16) :
    s.itemEnd c st = s.setCore c (s.core c).vacate := by
  unfold State.itemEnd
  simp only [h]

theorem itemEnd_of_unknown (h : (s.core c).item = some key) (hp : (s.core c).preempted = none) (hi : s.item? key = none)
    (st : BitVec 16) : s.itemEnd c st = s.setCore c (s.core c).vacate := by
  have hi : (s.setCore c (s.core c).vacate).item? key = none := hi
  unfold State.itemEnd
  simp only [h, hp, hi]

theorem itemEnd_of_item {it : Item} (h : (s.core c).item = some key) (hp : (s.core c).preempted = none)
    (hi : s.item? key = some it) (st : BitVec 16) : s.itemEnd c st =
      ((s.setCore c (s.core c).vacate).setItem (it.measured (s.core c))).outcome (it.measured (s.core c)) c st := by
  have hi : (s.setCore c (s.core c).vacate).item? key = some it := hi
  unfold State.itemEnd
  simp only [h, hp, hi]
  rfl

/-- An item that had pre-empted no other leaves its core empty, and no other core changes (R50). -/
theorem itemEnd_cores (hp : (s.core c).preempted = none) (st : BitVec 16) :
    (s.itemEnd c st).cores = (s.setCore c (s.core c).vacate).cores := by
  cases h : (s.core c).item with
  | none => rw [itemEnd_of_no_item h]
  | some key =>
    cases hi : s.item? key with
    | none => rw [itemEnd_of_unknown h hp hi]
    | some it => rw [itemEnd_of_item h hp hi, outcome_cores, setItem_cores]

end

/-! #### The codes a slot can raise (Table 2.10) -/

/-- A stop with a code of Table 2.10, or a wait. -/
def Stop.listed : Stop → Prop
  | .exc code _ _ => 0x0101 ≤ code.toNat ∧ code.toNat ≤ 0x010F
  | .wait => True

/-- What does not complete stops for a cause of Table 2.10. -/
def StopsListed {α : Type} (r : Except Stop α) : Prop := ∀ x, r = .error x → x.listed

theorem stopsListed_ok {α : Type} (a : α) : StopsListed (.ok a : Except Stop α) := nofun

theorem stopsListed_error {α : Type} {x : Stop} (h : x.listed) : StopsListed (.error x : Except Stop α) := by
  rintro _ ⟨⟩
  exact h

theorem stopsListed_ite {α : Type} {p : Prop} [Decidable p] {a b : Except Stop α} (ha : StopsListed a) (hb : StopsListed b) :
    StopsListed (if p then a else b) := by
  split
  · exact ha
  · exact hb

theorem exc_listed {code : BitVec 16} (h : 0x0101 ≤ code.toNat ∧ code.toNat ≤ 0x010F) (trap : Option (BitVec 10))
    (fa : Option (BitVec 64)) : (Stop.exc code trap fa).listed := h

theorem wait_listed : Stop.wait.listed := trivial

theorem access_listed {t : Ctx} {st : Bool} {a n al : Nat} {e : Stop} (h : t.access st a n al = some e) : e.listed := by
  unfold Ctx.access at h
  split at h
  · cases h; exact exc_listed (by decide) _ _
  · split at h
    · split at h
      · cases h; exact exc_listed (by decide) _ _
      · cases h
    · split at h
      · cases h
      · cases h; exact exc_listed (by decide) _ _

theorem load_listed (t : Ctx) (a n al : Nat) : StopsListed (t.load a n al) := by
  unfold Ctx.load
  split
  · next e h => exact stopsListed_error (access_listed h)
  · exact stopsListed_ite (stopsListed_error (exc_listed (by decide) _ _)) (stopsListed_ok _)

theorem loadEffect_listed (t : Ctx) (a n al : Nat) (g : Bytes → Effect) : StopsListed (t.loadEffect a n al g) := by
  unfold Ctx.loadEffect
  split
  · next e h => exact stopsListed_error (load_listed t a n al e h)
  · exact stopsListed_ok _

theorem storeEffect_listed (t : Ctx) (a : Nat) (b : Bytes) (al : Nat) : StopsListed (t.storeEffect a b al) := by
  unfold Ctx.storeEffect
  split
  · next e h => exact stopsListed_error (access_listed h)
  · exact stopsListed_ok _

theorem atomic_listed (t : Ctx) (f : MX) (w : Nat) (sign : Bool) (g : Nat → Nat) : StopsListed (t.atomic f w sign g) := by
  unfold Ctx.atomic
  dsimp only
  split
  · next e h => exact stopsListed_error (access_listed h)
  · exact stopsListed_ite (stopsListed_error (exc_listed (by decide) _ _)) (stopsListed_ok _)

theorem rangesStop_listed {t : Ctx} {st : Bool} {rs : List (Nat × Nat)} {e : Stop} (h : t.rangesStop st rs = some e) :
    e.listed := by
  unfold Ctx.rangesStop at h
  split at h
  · next e' h' =>
    cases h
    obtain ⟨r, -, hr⟩ := List.exists_of_findSome?_eq_some h'
    exact access_listed hr
  · split at h
    · cases h
    · obtain ⟨r, -, hr⟩ := List.exists_of_findSome?_eq_some h
      split at hr
      · cases hr; exact exc_listed (by decide) _ _
      · cases hr

theorem bind_listed (t : Ctx) (a : Nat) (write : Bool) : StopsListed (t.bind a write) := by
  unfold Ctx.bind
  split
  · next e h => exact stopsListed_error (load_listed t a 64 64 e h)
  · exact stopsListed_ite (stopsListed_error (exc_listed (by decide) _ _))
      (stopsListed_ite (stopsListed_error (exc_listed (by decide) _ _)) (stopsListed_ok _))

theorem bound_listed (t : Ctx) (f : MS) (write : Option Bool) : StopsListed (t.bound f write) := by
  unfold Ctx.bound
  refine stopsListed_ite (stopsListed_error (exc_listed (by decide) _ _)) ?_
  cases write with
  | none => exact stopsListed_ok _
  | some w => exact stopsListed_ite (stopsListed_ok _) (stopsListed_error (exc_listed (by decide) _ _))

theorem streamRead_listed {t : Ctx} {st : Stream} {e : Stop} (h : (t.streamRead st).stop = some e) : e.listed := by
  unfold Ctx.streamRead at h
  dsimp only at h
  split at h
  · exact rangesStop_listed h
  · exact rangesStop_listed h

theorem streamWrite_listed (t : Ctx) (st : Stream) (els : List Nat) : StopsListed (t.streamWrite st els) := by
  unfold Ctx.streamWrite
  refine stopsListed_ite (stopsListed_error (exc_listed (by decide) _ _))
    (stopsListed_ite (stopsListed_error (exc_listed (by decide) _ _))
      (stopsListed_ite (stopsListed_error (exc_listed (by decide) _ _)) ?_))
  dsimp only
  split
  · next h => exact stopsListed_error (rangesStop_listed h)
  · next h => exact stopsListed_error (rangesStop_listed h)
  · exact stopsListed_ok _

theorem report_listed (f : MX) (n : BitVec 5) (st : BitVec 16) : StopsListed (Ctx.report f n st) :=
  stopsListed_ite (stopsListed_error (exc_listed (by decide) _ _)) (stopsListed_ok _)

theorem jumps_listed (p : Prop) [Decidable p] (e : Effect) : StopsListed (if p then .error (excOf 0x0105) else .ok e) :=
  stopsListed_ite (stopsListed_error (exc_listed (by decide) _ _)) (stopsListed_ok _)

theorem slotMeaning0_listed (w : BitVec 32) (t : Ctx) : StopsListed ((slotMeaning0 w).run t) := by
  unfold slotMeaning0
  split
  case h_39 => exact jumps_listed _ _
  case h_40 => exact jumps_listed _ _
  case h_42 => exact stopsListed_ite (stopsListed_ok _) (stopsListed_error (exc_listed (by decide) _ _))
  case h_43 => exact stopsListed_error (exc_listed (by decide) _ _)
  case h_44 =>
    exact stopsListed_ite (stopsListed_error wait_listed)
      (stopsListed_ite (stopsListed_error (exc_listed (by decide) _ _)) (stopsListed_ok _))
  all_goals exact stopsListed_ok _

theorem exactOp_listed (f : VR) (g : Nat → Nat → Option Int) (t : Ctx) : StopsListed ((exactOp f g).run t) := by
  unfold exactOp
  refine stopsListed_ite (stopsListed_error (exc_listed (by decide) _ _)) ?_
  split
  · exact stopsListed_error (exc_listed (by decide) _ _)
  · exact stopsListed_ok _

theorem slotVeadd_listed (f : VR) (t : Ctx) : StopsListed ((slotVeadd f).run t) := by
  unfold slotVeadd
  dsimp only
  split
  · exact stopsListed_error (exc_listed (by decide) _ _)
  · exact stopsListed_ok _

theorem slotMeaning1_listed (w : BitVec 32) (t : Ctx) : StopsListed ((slotMeaning1 w).run t) := by
  unfold slotMeaning1
  split
  case h_12 => exact exactOp_listed _ _ t
  case h_13 => exact exactOp_listed _ _ t
  case h_16 => exact slotVeadd_listed _ t
  all_goals exact stopsListed_ok _

theorem slotMeaning2_listed (w : BitVec 32) (t : Ctx) : StopsListed ((slotMeaning2 w).run t) := by
  unfold slotMeaning2
  split <;> exact stopsListed_ok _

theorem slotVgather_listed (f : MX) (t : Ctx) : StopsListed ((slotVgather f).run t) := by
  unfold slotVgather
  dsimp only
  split
  · next h =>
    obtain ⟨x, -, hx⟩ := List.exists_of_findSome?_eq_some h
    split at hx
    · next hl => cases hx; exact stopsListed_error (load_listed t _ _ _ _ hl)
    · cases hx
  · exact stopsListed_ok _

theorem slotVscatter_listed (f : MX) (t : Ctx) : StopsListed ((slotVscatter f).run t) := by
  unfold slotVscatter
  dsimp only
  split
  · next h =>
    obtain ⟨x, -, hx⟩ := List.exists_of_findSome?_eq_some h
    exact stopsListed_error (access_listed hx)
  · exact stopsListed_ok _

theorem slotVst_listed (f : MV) (t : Ctx) : StopsListed ((slotVst f).run t) := by
  unfold slotVst
  dsimp only
  split
  · next h => exact stopsListed_error (access_listed h)
  · exact stopsListed_ok _

theorem slotSread_listed (f : MS) (t : Ctx) : StopsListed ((slotSread f).run t) := by
  unfold slotSread
  dsimp only
  split
  · next e h => exact stopsListed_error (bound_listed t f (some false) e h)
  · split
    · next h => exact stopsListed_error (streamRead_listed h)
    · exact stopsListed_ok _

theorem slotSbind_listed (f : MS) (t : Ctx) : StopsListed ((slotSbind f).run t) := by
  unfold slotSbind
  dsimp only
  split
  · next e h => exact stopsListed_error (bind_listed t _ _ e h)
  · exact stopsListed_ok _

theorem slotSwrite_listed (f : MS) (t : Ctx) : StopsListed ((slotSwrite f).run t) := by
  unfold slotSwrite
  dsimp only
  split
  · next e h => exact stopsListed_error (bound_listed t f (some true) e h)
  · split
    · next e h => exact stopsListed_error (streamWrite_listed t _ _ e h)
    · exact stopsListed_ok _

theorem slotSskip_listed (f : MS) (t : Ctx) : StopsListed ((slotSskip f).run t) := by
  unfold slotSskip
  dsimp only
  split
  · next e h => exact stopsListed_error (bound_listed t f (some false) e h)
  · exact stopsListed_ok _

theorem slotSpos_listed (f : MS) (t : Ctx) : StopsListed ((slotSpos f).run t) := by
  unfold slotSpos
  dsimp only
  split
  · next e h => exact stopsListed_error (bound_listed t f none e h)
  · exact stopsListed_ok _

theorem slotSclose_listed (f : MS) (t : Ctx) : StopsListed ((slotSclose f).run t) := by
  unfold slotSclose
  dsimp only
  split
  · next e h => exact stopsListed_error (bound_listed t f none e h)
  · exact stopsListed_ok _

theorem slotUnit_listed (f : MX) (t : Ctx) : StopsListed ((slotUnit f).run t) := by
  unfold slotUnit
  dsimp only
  split
  · next e h => exact stopsListed_error (load_listed t _ 64 1 e h)
  · split
    · exact stopsListed_error wait_listed
    · exact stopsListed_ok _

theorem slotTpoll_listed (f : MX) (t : Ctx) : StopsListed ((slotTpoll f).run t) := by
  unfold slotTpoll
  dsimp only
  split
  · exact stopsListed_error (exc_listed (by decide) _ _)
  · exact report_listed _ _ _
  · exact stopsListed_ok _

theorem slotTwait_listed (f : MX) (t : Ctx) : StopsListed ((slotTwait f).run t) := by
  unfold slotTwait
  dsimp only
  split
  · exact stopsListed_error (exc_listed (by decide) _ _)
  · exact report_listed _ _ _
  · exact stopsListed_error wait_listed

theorem amoOp_listed (f : MX) (sign : Bool) (g : Nat → Nat → Nat → Nat → Nat) (t : Ctx) :
    StopsListed ((amoOp f sign g).run t) := atomic_listed _ _ _ _ _

theorem slotAmofadd_listed (f : MX) (t : Ctx) : StopsListed ((slotAmofadd f).run t) :=
  stopsListed_ite (stopsListed_error (exc_listed (by decide) _ _)) (atomic_listed _ _ _ _ _)

/-- Table 2.8: every operation of slot 3 stops for a cause of Table 2.10 only. -/
theorem slotMeaning3_listed (w : BitVec 32) (t : Ctx) : StopsListed ((slotMeaning3 w).run t) := by
  unfold slotMeaning3
  split
  · exact stopsListed_ok _
  · exact loadEffect_listed _ _ _ _ _
  · exact loadEffect_listed _ _ _ _ _
  · exact storeEffect_listed _ _ _ _
  · exact loadEffect_listed _ _ _ _ _
  · exact slotVst_listed _ t
  · exact loadEffect_listed _ _ _ _ _
  · exact storeEffect_listed _ _ _ _
  · exact slotSbind_listed _ t
  · exact slotSread_listed _ t
  · exact slotSwrite_listed _ t
  · exact slotSskip_listed _ t
  · exact slotSpos_listed _ t
  · exact slotSclose_listed _ t
  · exact slotVgather_listed _ t
  · exact slotVscatter_listed _ t
  · exact loadEffect_listed _ _ _ _ _
  · exact storeEffect_listed _ _ _ _
  · exact amoOp_listed _ _ _ t
  · exact amoOp_listed _ _ _ t
  · exact amoOp_listed _ _ _ t
  · exact amoOp_listed _ _ _ t
  · exact slotAmofadd_listed _ t
  · exact stopsListed_ok _
  · exact stopsListed_ok _
  · exact stopsListed_ok _
  · exact stopsListed_ok _
  · exact stopsListed_ok _
  · exact slotUnit_listed _ t
  · exact slotTpoll_listed _ t
  · exact slotTwait_listed _ t
  · exact stopsListed_ok _

/-- A word whose own slot is listed stops for a cause of Table 2.10 only. -/
theorem wordSlots_listed {own : Nat} {a m : Meaning} {w : Companions} {t : Ctx} (ha : StopsListed (a.run t))
    (h : m ∈ wordSlots own a w) : StopsListed (m.run t) := by
  have s0 := slotMeaning0_listed w.o1 t
  have s1 := fun v => slotMeaning1_listed v t
  have s2 := fun v => slotMeaning2_listed v t
  have s3 := slotMeaning3_listed w.o3 t
  unfold wordSlots at h
  split at h <;>
    (simp only [List.mem_cons, List.not_mem_nil, or_false] at h
     rcases h with rfl | rfl | rfl | rfl <;> simp [ha, s0, s1, s2, s3])

theorem listed_reported {code : BitVec 16} (h : 0x0101 ≤ code.toNat ∧ code.toNat ≤ 0x010F) : reportedStatus code = code := by
  obtain ⟨lo, hi⟩ := h
  have : reservedStatus code = false := by
    unfold reservedStatus
    simp only [Bool.or_eq_false_iff, Bool.and_eq_false_iff, decide_eq_false_iff_not]
    omega
  unfold reportedStatus
  rw [this]
  rfl

theorem listed_ne_zero {code : BitVec 16} (h : 0x0101 ≤ code.toNat ∧ code.toNat ≤ 0x010F) : code ≠ 0 := by
  rintro rfl
  exact absurd h.1 (by decide)

end Sys2Proof.Machine

/-! ### O7: empty slots, exceptions, TRAP, ERET and DONE (R36, R49, R50, R59 to R61) -/

namespace Sys2Proof.Machine

open Sys2Proof

/-! #### An item whose run has ended -/

theorem item?_setItem {s : State} {it x : Item} (h : s.item? x.key = some it) : (s.setItem x).item? x.key = some x := by
  unfold State.item? State.setItem at *
  have same : ((fun i : Item => decide (i.key = x.key)) ∘ fun i => if i.key = x.key then x else i) =
      fun i : Item => decide (i.key = x.key) := by
    funext i
    by_cases hi : i.key = x.key <;> simp [hi]
  have hk : it.key = x.key := by simpa using List.find?_some h
  refine (List.find?_map ..).trans ?_
  rw [same, h]
  simp [hk]

theorem item?_key {s : State} {key : ItemKey} {it : Item} (h : s.item? key = some it) : it.key = key := by
  simpa using List.find?_some h

section
variable {s : State} {it : Item} {j : Job} {code : BitVec 16}

/-- Table 11.8: an item of class B or C that ended with one of the other codes of Table 2.10 stops its job. -/
theorem outcome_stops (hc : it.cls ≠ 0) (hj : s.job? it.job = some j) (hs : j.stopped = none)
    (hl : 0x0101 ≤ code.toNat ∧ code.toNat ≤ 0x010F) (hn : code ∉ ([0x0107, 0x0110, 0x0111, 0x0387, 0x0620] : List (BitVec 16)))
    (c : CoreId) : s.outcome it c code = s.stopJob it.job code := by
  have hz := listed_ne_zero hl
  simp only [List.mem_cons, List.not_mem_nil, or_false, not_or, BitVec.ofNat_eq_ofNat, ne_eq] at hn hc hz
  obtain ⟨h7, h10, h11, h87, h20⟩ := hn
  unfold State.outcome
  simp [Item.answered, isCoreFault, isNoEngine, hj, hs, hc, hz, h7, h10, h11, h87, h20, listed_reported hl]

/-- Table 11.8: after an uncorrectable read the item runs again, below the limit. -/
theorem outcome_reruns (hc : it.cls ≠ 0) (hj : s.job? it.job = some j) (hs : j.stopped = none)
    (hn : it.counted < s.furn 0x300007 3) (c : CoreId) :
    s.outcome it c 0x0107 = s.rerun { it with degraded := true } true it.avoidCore it.avoidDie := by
  have hc : ¬ it.cls = 0#2 := hc
  unfold State.outcome
  simp [Item.answered, isCoreFault, hj, hs, hc, Nat.not_le.mpr hn]

theorem rerun_item? {key : ItemKey} (hi : s.item? key = some it) (counted : Bool) (c : Option CoreId)
    (d : Option (BitVec 2)) (x : Item) (hx : x.key = key) : (s.rerun x counted c d).item? key = some { x with
      attempt := x.attempt + 1, counted := x.counted + (if counted then 1 else 0), phase := .created, core := none,
      avoidCore := c, avoidDie := d } := by
  subst hx
  unfold State.rerun
  have kept : ∀ (u : State) (a : Nat) (b : Bytes), ((u.bump 0x30000E 1).memWrite a b).item? x.key = u.item? x.key :=
    fun _ _ _ => rfl
  rw [kept]
  exact item?_setItem (s := s.dropRun x.key) (it := it) hi

theorem measured_of_cls (hc : it.cls ≠ 0) (k : Core) : it.measured k = it := by
  have hc : ¬ it.cls = 0#2 := hc
  unfold Item.measured
  simp [hc]

end

/-! #### Raising an exception (R59, R61) -/

theorem faultCode_mem (s : State) (code : BitVec 16) (n : Nat) : (s.faultCode code n).mem = s.mem := by
  unfold State.faultCode State.sendCan
  dsimp only
  split
  · rfl
  · split <;> rfl

section
variable {i : Instr} {c : CoreId} {s : State} {slot : Option (BitVec 2)} {code : BitVec 16} {trap : Option (BitVec 10)}
  {fa : Option (BitVec 64)}

/-- The module as an item's exception ends the item: nothing but the core's counters and EPC has changed. -/
def State.faulted (s : State) (c : CoreId) (code : BitVec 16) (fa : Option (BitVec 64)) : State :=
  (s.noted c code fa).setCore c { s.stalled c with epc := (s.core c).pc }

theorem core_faulted (d : CoreId) :
    (s.faulted c code fa).core d = if d = c then { s.stalled c with epc := (s.core c).pc } else s.core d :=
  core_noted_setCore s c d code fa _

theorem faulted_item? (key : ItemKey) : (s.faulted c code fa).item? key = s.item? key := by
  have : (s.faulted c code fa).hb = s.hb := by
    show (s.noted c code fa).hb = s.hb
    rw [noted_eq]
  unfold State.item?
  rw [this]

/-- Firmware outside its handler goes on at EVEC. -/
theorem exception_firmware (hf : (s.core c).firmware = true) (hh : (s.core c).handler = false) :
    ∃ t, s.exception c slot code trap fa = t ∧
    t.core c = { s.core c with
      epc := (s.core c).pc, cause := (t.core c).cause, faddr := (t.core c).faddr, pc := (s.core c).evec, handler := true,
      cycle := (t.core c).cycle, itemCycles := (t.core c).itemCycles } ∧
    (t.core c).cause = trap.getD ((Config.freeWord s.free 1).setWidth 10) ++
      slot.getD ((Config.freeWord s.free 2).setWidth 2) ++ code ∧ (∀ a, fa = some a → (t.core c).faddr = a) ∧
    t = { s with cores := t.cores, free := t.free, dict := { s.dict with values := t.dict.values } } ∧
    (code ≠ 0x0107 → t.dict = s.dict) ∧ ∀ d, d ≠ c → t.core d = s.core d := by
  refine ⟨_, rfl, ?_⟩
  rw [exception_eq]
  simp only [hf, hh, Bool.not_true, Bool.false_eq_true, if_false, core_noted_setCore]
  refine ⟨by simp [State.stalled, hf], by simp, ?_, ?_, fun hc => noted_dict s c hc fa, fun d hd => by rw [if_neg hd]⟩
  · rintro a rfl
    simp
  · conv_lhs => unfold State.setCore
    rw [noted_eq s c code fa]
    rfl

/-- Firmware inside its handler stops, and the Vat reports it. -/
theorem exception_handler (hf : (s.core c).firmware = true) (hh : (s.core c).handler = true) :
    ∃ t, s.exception c slot code trap fa = t ∧
    t.core c = { s.core c with
      active := false, epc := (s.core c).pc, cycle := (t.core c).cycle, itemCycles := (t.core c).itemCycles } ∧
    c ∈ t.hb.firmwareFault ∧ (code, 16 * c.vat.toNat + c.core.toNat) ∈ t.dict.eventLog ∧ t.mem = s.mem ∧
    ∀ d, d ≠ c → t.core d = s.core d := by
  refine ⟨_, rfl, ?_⟩
  rw [exception_eq]
  simp only [hf, hh, Bool.not_true, Bool.false_eq_true, if_false, if_true]
  have hcore := fun d => (core_of_cores (faultCode_quiet ((s.noted c code fa).setCore c
    { s.stalled c with epc := (s.core c).pc, active := false }) code (coreNum c)).cores d).trans (core_noted_setCore s c d code fa _)
  refine ⟨?_, by simp, faultCode_logs _ _ _, ?_, fun d hd => (hcore d).trans (if_neg hd)⟩
  · refine (hcore c).trans ?_
    rw [if_pos rfl, show ∀ u : State, ({ u with hb := { u.hb with firmwareFault := u.hb.firmwareFault ++ [c] } } : State).core c
      = u.core c from fun _ => rfl, hcore c, if_pos rfl]
    simp [State.stalled, hf, hh]
  · refine (faultCode_mem _ _ _).trans ?_
    show (s.noted c code fa).mem = s.mem
    rw [noted_eq]

theorem exception_item (hf : (s.core c).firmware = false) :
    s.exception c slot code trap fa = (s.faulted c code fa).itemEnd c code := by
  rw [exception_eq, hf]
  rfl

/-- A job-stopping or repeated end of the item that has faulted (Table 11.8). -/
theorem faulted_outcome {key : ItemKey} {it : Item} {j : Job} (hk : (s.core c).item = some key)
    (hp : (s.core c).preempted = none) (hi : s.item? key = some it) (hc : it.cls ≠ 0) (hj : s.job? it.job = some j)
    (hs : j.stopped = none) (hl : 0x0101 ≤ code.toNat ∧ code.toNat ≤ 0x010F) :
    let t := (s.faulted c code fa).itemEnd c code
    (code ∉ ([0x0107, 0x0110, 0x0111, 0x0387, 0x0620] : List (BitVec 16)) →
      (code, j.job.toNat) ∈ t.dict.eventLog ∧ ∀ k, t.job? j.job = some k → k.stopped = some code) ∧
    (code = 0x0107 → it.counted < s.furn 0x300007 3 → t.item? key = some { it with
      degraded := true, attempt := it.attempt + 1, counted := it.counted + 1, phase := .created, core := none }) := by
  intro t
  have hcore : (s.faulted c code fa).core c = { s.stalled c with epc := (s.core c).pc } := by
    rw [core_faulted, if_pos rfl]
  have key_ := item?_key hi
  have hend : t = (((s.faulted c code fa).setCore c ((s.faulted c code fa).core c).vacate).setItem it).outcome it c code := by
    have := itemEnd_of_item (s := s.faulted c code fa) (c := c) (key := key) (by rw [hcore]; exact hk) (by rw [hcore]; exact hp)
      ((faulted_item? key).trans hi) code
    rwa [measured_of_cls hc] at this
  have hjob : (((s.faulted c code fa).setCore c ((s.faulted c code fa).core c).vacate).setItem it).job? it.job = some j := by
    show ((s.noted c code fa)).job? it.job = some j
    rw [noted_eq]
    exact hj
  have hid := job?_job hj
  refine ⟨fun hn => ?_, fun h7 hlt => ?_⟩
  · rw [hend, outcome_stops hc hjob hs hl hn, hid]
    have stop := stopJob_stops hjob hs code
    exact ⟨stop.logged, stop.stopped⟩
  · subst h7
    have hlim : (((s.faulted c 0x0107 fa).setCore c ((s.faulted c 0x0107 fa).core c).vacate).setItem it).furn 0x300007 3 =
        s.furn 0x300007 3 := by
      show (s.noted c 0x0107 fa).furn 0x300007 3 = _
      rw [noted_eq]
      rfl
    have hitem : (((s.faulted c 0x0107 fa).setCore c ((s.faulted c 0x0107 fa).core c).vacate).setItem it).item? key = some it :=
      by
      subst key_
      exact item?_setItem (s := (s.faulted c 0x0107 fa).setCore c ((s.faulted c 0x0107 fa).core c).vacate) (x := it)
        ((faulted_item? (c := c) it.key).trans hi)
    rw [hend, outcome_reruns hc hjob hs (hlim ▸ hlt)]
    exact rerun_item? hitem true it.avoidCore it.avoidDie { it with degraded := true } key_

/-- A command that takes an exception of Table 2.10 raises it. -/
theorem raises_of_exec (hx : exec i s = .next (s.exception c slot code trap fa))
    (hl : 0x0101 ≤ code.toNat ∧ code.toNat ≤ 0x010F) : Raises i c s slot code trap fa := by
  refine ⟨fun hf hh => ?_, fun hf hh => ?_, fun hf key hk hp => ?_⟩
  · obtain ⟨t, ht, hcore, hcause, hfa, hrest⟩ :=
      exception_firmware (slot := slot) (code := code) (trap := trap) (fa := fa) hf hh
    obtain ⟨h1, h2, h3⟩ := cause_fields (trap.getD ((Config.freeWord s.free 1).setWidth 10))
      (slot.getD ((Config.freeWord s.free 2).setWidth 2)) code
    refine ⟨t, ht ▸ hx, hcore, hcause ▸ h1, ?_, ?_, hfa, hrest⟩
    · rintro n rfl
      exact hcause ▸ h2
    · rintro n rfl
      exact hcause ▸ h3
  · obtain ⟨t, ht, hrest⟩ := exception_handler (slot := slot) (code := code) (trap := trap) (fa := fa) hf hh
    exact ⟨t, ht ▸ hx, hrest⟩
  · rw [exception_item hf] at hx
    have hcore : (s.faulted c code fa).core c = { s.stalled c with epc := (s.core c).pc } := by
      rw [core_faulted, if_pos rfl]
    have hend := fun d => core_of_cores (itemEnd_cores (s := s.faulted c code fa) (c := c) (by rw [hcore]; exact hp) code) d
    refine ⟨_, hx, ?_, ?_, ?_, fun d hd => ?_, fun it j hi hc hj hs => faulted_outcome hk hp hi hc hj hs hl⟩
    · rw [hend, core_setCore, if_pos rfl]
      rfl
    · rw [hend, core_setCore, if_pos rfl]
      rfl
    · rw [hend, core_setCore, if_pos rfl, hcore]
      rfl
    · rw [hend, core_setCore, if_neg hd, core_faulted, if_neg hd]

end

/-! #### DONE (R49, R50) -/

theorem evalSlots_cons_ok {t : Ctx} {m : Meaning} {e : Effect} {ms : List Meaning} {es : List Effect} {i : Nat}
    (hl : m.legal t.k = true) (hp : m.privileged = false) (hr : m.run t = .ok e)
    (h : evalSlots t (i + 1) ms = .ok es) : evalSlots t i (m :: ms) = .ok (e :: es) := by
  rw [evalSlots, hl, hp, hr, h]
  rfl

/-- The core as a word's results leave it. -/
def State.wordCore (s : State) (c : CoreId) (es : List Effect) : Core :=
  let k := es.foldl (fun k e => k.write e) (s.core c)
  { k with
    fpflags := k.fpflags ||| es.foldl (fun a e => a ||| e.flags) 0,
    pc := (es.findSome? (·.target)).getD ((s.core c).pc + 16), retired := (s.core c).retired + 1,
    cycle := (s.core c).cycle + 1 + BitVec.ofNat 64 (Config.stall s.free),
    itemCycles := (s.core c).itemCycles + 1 + BitVec.ofNat 32 (Config.stall s.free),
    wordsRun := (s.core c).wordsRun + 1 }

/-- The module after a word's results, before a DONE of the word. -/
def State.wordDone (s : State) (c : CoreId) (es : List Effect) : State :=
  ((es.flatMap (·.acts)).foldl (fun s a => s.act c a)
    ((s.noteStores c (es.flatMap (·.acts))).setCore c (s.wordCore c es))).drawn

theorem core_wordDone (s : State) (c : CoreId) (es : List Effect) : (s.wordDone c es).core c = s.wordCore c es :=
  (core_actsOnly (acts_actsOnly c _ _) c).trans ((core_setCore _ c c _).trans (if_pos rfl))

theorem commit_plain {s : State} {c : CoreId} {es : List Effect} (h : es.findSome? (·.done) = none) :
    s.commit c es = s.wordDone c es := by
  unfold State.commit
  simp only [h]
  rfl

theorem commit_ends {s : State} {c : CoreId} {es : List Effect} {st : BitVec 16} (h : es.findSome? (·.done) = some st)
    (hf : (s.core c).firmware = false)
    (hp : (s.wordCore c es).anyPending (ticketLo (s.core c).cls) (ticketHi (s.core c).cls) = false) :
    s.commit c es = (s.wordDone c es).finish c st := by
  have shape : s.commit c es = if (s.core c).firmware then s.wordDone c es
      else if (s.wordCore c es).anyPending (ticketLo (s.core c).cls) (ticketHi (s.core c).cls)
        then (s.wordDone c es).setCore c ((s.core c).waiting (s.wordCore c es) st)
      else (s.wordDone c es).finish c st := by
    unfold State.commit
    simp only [h]
    rfl
  rw [shape, hf, hp]
  rfl

/-- The word of DONE commits its other slots first; with no ticket of the item pending its item then ends (R50). -/
theorem commit_done {s : State} {c : CoreId} {es : List Effect} (hd : ∀ e ∈ es, e.done = none)
    (hf : (s.core c).firmware = false) (st : BitVec 16)
    (hp : ((s.commit c ({} :: es)).core c).anyPending (ticketLo (s.core c).cls) (ticketHi (s.core c).cls) = false) :
    s.commit c ({ done := some st } :: es) = (s.commit c ({} :: es)).finish c st := by
  have hnone : (({} : Effect) :: es).findSome? (·.done) = none :=
    List.findSome?_eq_none_iff.mpr (List.forall_mem_cons.mpr ⟨rfl, hd⟩)
  rw [commit_plain hnone, core_wordDone] at hp
  rw [commit_ends (es := { done := some st } :: es) (st := st) rfl hf hp, commit_plain hnone]
  rfl

/-- The core ends its item: the output goes back to memory, and then the item ends (R50). -/
theorem finish_itemEnd (s : State) (c : CoreId) (st : BitVec 16) : ∃ u, MemOnly s u ∧ s.finish c st = u.itemEnd c st := by
  unfold State.finish
  dsimp only
  split
  · split
    · exact ⟨_, flushRange_memOnly _ _ _ _, rfl⟩
    · exact ⟨_, .refl s, rfl⟩
  · exact ⟨_, .refl s, rfl⟩

/-- The tickets of the running item's class are free. -/
def OwnFree (k : Core) : Prop := ∀ n : BitVec 5, ticketLo k.cls ≤ n.toNat → n.toNat ≤ ticketHi k.cls → k.getT n = .free

theorem OwnFree.ticket {k : Core} (h : OwnFree k) {i : Nat} (hi : i < 32) (hl : ticketLo k.cls ≤ i) (hh : i ≤ ticketHi k.cls) :
    k.tickets[i]? = some .free := by
  have hn : (BitVec.ofNat 5 i).toNat = i := by rw [BitVec.toNat_ofNat]; omega
  have := h (BitVec.ofNat 5 i) (by omega) (by omega)
  unfold Core.getT at this
  simp only [hn] at this
  rw [Vector.getElem?_eq_getElem hi, this]

theorem OwnFree.anyPending {k : Core} (h : OwnFree k) : k.anyPending (ticketLo k.cls) (ticketHi k.cls) = false := by
  unfold Core.anyPending
  rw [List.any_eq_false]
  intro i hi
  by_cases hr : ticketLo k.cls ≤ i ∧ i ≤ ticketHi k.cls
  · simp [h.ticket (List.mem_range.mp hi) hr.1 hr.2]
  · simp only [Bool.and_eq_true, decide_eq_true_eq]
    exact fun e => hr e.1

theorem OwnFree.unitFailed {k : Core} (h : OwnFree k) : k.unitFailed = false := by
  unfold Core.unitFailed Core.owns
  rw [List.any_eq_false]
  intro i hi
  by_cases hr : ticketLo k.cls ≤ i ∧ i ≤ ticketHi k.cls
  · simp [h.ticket (List.mem_range.mp hi) hr.1 hr.2]
  · simp only [Bool.and_eq_true, decide_eq_true_eq]
    exact fun e => hr e.1

theorem othersRun_done {own : Nat} {ds : List Dest} {c : CoreId} {w : Companions} {s : State} {es : List Effect}
    (h : OthersRun own ds c w s es) : ∀ e ∈ es, e.done = none := by
  have all : ∀ {ms es}, List.Forall₂ (SlotRuns s c) ms es → ∀ e ∈ es, e.done = none := by
    intro ms es hr
    induction hr with
    | nil => exact fun e he => absurd he List.not_mem_nil
    | cons a _ ih =>
      intro e he
      rcases List.mem_cons.mp he with rfl | he
      · exact a.goes
      · exact ih e he
  exact all h.runs

theorem nop_runs {s : State} {c : CoreId} : SlotRuns s c (Meaning.nop 0) {} := ⟨rfl, nofun, rfl, rfl⟩

section
variable {c : CoreId} {f : SR} {w : Companions} {s : State} {es : List Effect}

theorem writeX_kept (k : Core) (o) : (k.writeX o).kept = k.kept := by rw [writeX_rest]
theorem writeW_kept (k : Core) (o) : (k.writeW o).kept = k.kept := by rw [writeW_rest]
theorem writeP_kept (k : Core) (o) : (k.writeP o).kept = k.kept := by rw [writeP_rest]
theorem writeE_kept (k : Core) (o) : (k.writeE o).kept = k.kept := by rw [writeE_rest]
theorem writeCsr_kept (k : Core) (o) : (k.writeCsr o).kept = k.kept := by rw [writeCsr_rest]
theorem writeStream_kept (k : Core) (o) : (k.writeStream o).kept = k.kept := by rw [writeStream_rest]
theorem writeTicket_kept (k : Core) (o) : (k.writeTicket o).kept = k.kept := by rw [writeTicket_rest]

theorem foldl_write_kept (es : List Effect) (k : Core) : (es.foldl (fun k e => k.write e) k).kept = k.kept := by
  induction es generalizing k with
  | nil => rfl
  | cons e es ih =>
    rw [List.foldl_cons, ih]
    show (((((((k.writeX e.x).writeW e.w).writeP e.p).writeE e.e).writeCsr e.csr).writeStream e.stream).writeTicket e.ticket).kept
      = k.kept
    simp only [writeTicket_kept, writeStream_kept, writeCsr_kept, writeE_kept, writeP_kept, writeW_kept, writeX_kept]

/-- The word of a DONE that need not wait is the empty word with its companions, and then the item's end (R49, R50). -/
theorem exec_done (hf : (s.core c).firmware = false) (h0 : f.imm10 = 0) (hd : f.xd = 0) (h2 : f.xs2 = 0)
    (hfree : OwnFree (s.core c)) (ho : OthersRun 0 [] c w s es) (ht : ∀ e ∈ es, e.ticket = none) :
    ∃ u, Written (s.core c) (u.core c) ({} :: es) ∧ SameOutside c s u ∧ ((∀ e ∈ es, e.acts = []) → SameBesides c s u) ∧
      (u.core c).kept = (s.core c).kept ∧ (∀ n, (u.core c).getT n = (s.core c).getT n) ∧
      exec (.done c f w) s = .next (u.finish c (((s.core c).getX f.xs1).setWidth 16)) := by
  obtain ⟨u, -, hu, hw, hs, hb⟩ := runWord_completes (own := 0) (m := Meaning.nop 0) (by decide) (nop_fits 0 0) nop_runs ho
  have tickets : ∀ n, (u.core c).getT n = (s.core c).getT n := by
    intro n
    rw [hw.tickets, List.findSome?_eq_none_iff.mpr]
    · rfl
    · intro e he
      rcases List.mem_cons.mp he with rfl | he
      · rfl
      · rw [ht e he]; rfl
  have hnone : (({} : Effect) :: es).findSome? (·.done) = none :=
    List.findSome?_eq_none_iff.mpr (List.forall_mem_cons.mpr ⟨rfl, othersRun_done ho⟩)
  have kept : (u.core c).kept = (s.core c).kept := by
    have hu : u = s.wordDone c ({} :: es) := hu.trans (commit_plain hnone)
    rw [hu, core_wordDone]
    exact foldl_write_kept ({} :: es) (s.core c)
  refine ⟨u, hw, hs, fun hacts => hb (List.forall_mem_cons.mpr ⟨rfl, hacts⟩), kept, tickets, ?_⟩
  have hrun : (slotDone f).run (ctxOf s c) = .ok { done := some (((s.core c).getX f.xs1).setWidth 16) } := by
    simp [slotDone, ctxOf, hfree.anyPending, hfree.unitFailed]
  have hslots : evalSlots (ctxOf s c) 0 (wordSlots 0 (slotDone f) w) =
      .ok ({ done := some (((s.core c).getX f.xs1).setWidth 16) } :: es) :=
    evalSlots_cons_ok (by simp [slotDone, h0, hd, h2]) rfl hrun (evalSlots_ok ho.runs 1)
  have hclash : destsClash (wordSlots 0 (slotDone f) w) = false :=
    noClash (by have := ho.dests; rwa [List.append_nil] at this)
  have hcls : (u.core c).cls = (s.core c).cls := by
    obtain ⟨-, hfw, -, -, hcl, -⟩ := hw.item
    unfold Core.cls
    rw [hfw, hcl]
  have hfree' : OwnFree (u.core c) := fun n hl hh => by
    rw [hcls] at hl hh
    rw [tickets]
    exact hfree n hl hh
  have pending := hfree'.anyPending
  rw [hcls] at pending
  have hu : u = s.commit c ({} :: es) := hu
  obtain ⟨ha, hfin, hr, hfetch⟩ := ho.commits
  have hword : exec (.done c f w) s = .next (s.commit c ({ done := some (((s.core c).getX f.xs1).setWidth 16) } :: es)) := by
    have hslots : evalSlots { s := s, c := c, k := s.core c } 0 (wordSlots 0 (slotDone f) w) = _ := hslots
    show runWord c 0 (slotDone f) w s = _
    simp only [runWord, ha, hfin, hr, hfetch, hclash, hslots]
    rfl
  rw [hword, commit_done (othersRun_done ho) hf _ (by rw [← hu]; exact pending), hu]

/-- DONE of an item that had pre-empted no other empties the core and changes no other (R50). -/
theorem done_empties (hf : (s.core c).firmware = false) (hp : (s.core c).preempted = none)
    (h0 : f.imm10 = 0) (hd : f.xd = 0) (h2 : f.xs2 = 0) (hfree : ∀ n, (s.core c).getT n = .free)
    (ho : OthersRun 0 [] c w s es) (ht : ∀ e ∈ es, e.ticket = none) :
    ∃ t, exec (.done c f w) s = .next t ∧ (t.core c).active = false ∧ (t.core c).item = none ∧
      (∀ d, d ≠ c → t.core d = s.core d) := by
  obtain ⟨u, hw, ⟨-, hs⟩, -, -, -, hx⟩ := exec_done hf h0 hd h2 (fun n _ _ => hfree n) ho ht
  obtain ⟨v, hv, he⟩ := finish_itemEnd u c (((s.core c).getX f.xs1).setWidth 16)
  obtain ⟨-, -, -, -, -, hpre, -⟩ := hw.item
  have hcore : ∀ d, v.core d = u.core d := core_actsOnly hv.acts
  have hend := fun d => core_of_cores (itemEnd_cores (s := v) (c := c)
    (by rw [hcore, hpre, hp]) (((s.core c).getX f.xs1).setWidth 16)) d
  rw [he] at hx
  refine ⟨_, hx, ?_, ?_, fun d hd => ?_⟩
  · rw [hend, core_setCore, if_pos rfl]; rfl
  · rw [hend, core_setCore, if_pos rfl]; rfl
  · rw [hend, core_setCore, if_neg hd, hcore, hs d hd]

end

/-! #### The clauses -/

theorem nop_completes {i : Instr} {own : Nat} {c : CoreId} {w : Companions} {s : State} (ho : own ≤ 3)
    (hi : exec i s = runWord c own (Meaning.nop 0) w s) : Completes own [] {} i c w s :=
  completes hi ho (nop_fits own 0) nop_runs

theorem orderOp_completes {i : Instr} {c : CoreId} {f : MX} {w : Companions} {s : State}
    (hi : exec i s = runWord c 3 (orderOp f) w s) (hd : f.rd = 0) (h1 : f.rs1 = 0) (h2 : f.rs2 = 0) (h3 : f.func = 0) :
    Completes 3 [] {} i c w s :=
  completes hi (by decide) (orderOp_fits f) ⟨by simp [orderOp, hd, h1, h2, h3], nofun, rfl, rfl⟩

/-- TRAP stops the word in slot 0 with its number. -/
theorem exec_trap {c : CoreId} {f : SR} {w : Companions} {s : State} (hc : Commits s c) (hd : f.xd = 0) (h1 : f.xs1 = 0)
    (h2 : f.xs2 = 0) (hn : destsClash (wordSlots 0 (slotTrap f) w) = false) :
    exec (.trap c f w) s = .next (s.exception c (some 0) 0x010F (some f.imm10) none) := by
  have may : SlotMay s c (slotTrap f) := ⟨by simp [slotTrap, hd, h1, h2], nofun⟩
  exact runWord_exc hc hn (evalSlots_stop 0 _ 0 rfl nofun (stops_of_run may rfl))

section
variable {c : CoreId} {w : Companions} {s : State} {own : Nat} {i : Instr} {a : Meaning}

/-- R60: the causes of a word in their order. -/
theorem word_raises (hi : exec i s = runWord c own a w s) (hl : ∀ t, StopsListed (a.run t))
    (ha : (s.core c).active = true) (hf : (s.core c).finishing = none) (hr : (s.core c).runahead = false) :
    let slots := wordSlots own a w
    let named := (slots.flatMap (·.dests)).filter (· ≠ .x 0)
    (fetchFault s (s.core c) = true → Raises i c s none 0x0104 none none) ∧
    (fetchFault s (s.core c) = false → ¬ named.Nodup → Raises i c s none 0x0102 none none) ∧
    (fetchFault s (s.core c) = false → named.Nodup → ∀ (n : Fin 4) (m : Meaning), slots[n.val]? = some m →
      (∀ b ∈ slots.take n.val, SlotMay s c b ∧ ∃ e, b.run (ctxOf s c) = .ok e) →
      let at' := some (BitVec.ofNat 2 n.val)
      (m.legal (s.core c) = false → Raises i c s at' 0x0101 none none) ∧
      (m.legal (s.core c) = true → m.privileged = true → (s.core c).firmware = false → Raises i c s at' 0x0103 none none) ∧
      (SlotMay s c m → ∀ code trap fa, m.run (ctxOf s c) = .error (.exc code trap fa) → Raises i c s at' code trap fa) ∧
      (SlotMay s c m → m.run (ctxOf s c) = .error .wait → exec i s = .next s)) := by
  intro slots named
  refine ⟨fun h => ?_, fun h hn => ?_, fun h hn n m hm before => ?_⟩
  · exact raises_of_exec (hi.trans (runWord_fetchFault ha hf hr h)) (by decide)
  · exact raises_of_exec (hi.trans (runWord_clash ⟨ha, hf, hr, h⟩ ((destsClash_eq _).mpr hn))) (by decide)
  · intro at'
    have commits : Commits s c := ⟨ha, hf, hr, h⟩
    have clash := destsClash_eq_false hn
    have eval : ∀ {x}, m.stops (ctxOf s c) x → evalSlots (ctxOf s c) 0 slots = .error (n.val, x) := fun hx => by
      have := evalSlots_stop n.val slots 0 hm before hx
      rwa [Nat.zero_add] at this
    refine ⟨fun hleg => ?_, fun hleg hp hfw => ?_, fun may code trap fa hrun => ?_, fun may hrun => ?_⟩
    · exact raises_of_exec (hi.trans (runWord_exc commits clash (eval (stops_of_illegal hleg)))) (by decide)
    · exact raises_of_exec (hi.trans (runWord_exc commits clash (eval (stops_of_privileged hleg hp hfw)))) (by decide)
    · have listed := wordSlots_listed (hl (ctxOf s c)) (List.mem_of_getElem? hm) _ hrun
      exact raises_of_exec (hi.trans (runWord_exc commits clash (eval (stops_of_run may hrun)))) listed
    · exact hi.trans (runWord_wait commits clash (eval (stops_of_run may hrun)))

end

/-- Settles O7: the causes of a word in order, each raising its exception, and DONE through the empty word. -/
theorem wordControl : Obligations.WordControl := by
  refine ⟨fun c f w s => ?_, fun c f w s hc hf hh hd h1 h2 hn => ?_, fun c w s ha hf hr p hp => ?_,
    fun c f w s hf h0 hd h1 h2 => ?_, fun c f w s es key hf _ hp h0 hd h2 hfree ho ht => ?_⟩
  · exact ⟨nop_completes (by decide) rfl, nop_completes (by decide) rfl, nop_completes (by decide) rfl,
      nop_completes (by decide) rfl, fun hd h1 h2 h3 => ⟨orderOp_completes rfl hd h1 h2 h3, orderOp_completes rfl hd h1 h2 h3⟩⟩
  · obtain ⟨t, ht, hcore, hcause, -, hsame, hdict, hothers⟩ :=
      exception_firmware (slot := some 0) (code := 0x010F) (trap := some f.imm10) (fa := none) hf hh
    have hepc : (t.core c).epc = (s.core c).pc := by rw [hcore]
    have hpc : (t.core c).pc = (s.core c).evec := by rw [hcore]
    refine ⟨t, (exec_trap hc hd h1 h2 hn).trans (by rw [ht]), ⟨?_, hothers⟩, hepc, hcause, hpc, by rw [hcore], ?_⟩
    · rw [hdict (by decide)] at hsame
      exact hsame
    · calc t.core c = _ := hcore
        _ = _ := by rw [hepc, hpc]
  · simp only [List.mem_cons, List.not_mem_nil, or_false] at hp
    rcases hp with rfl | rfl
    · exact word_raises rfl (fun _ => stopsListed_ok _) ha hf hr
    · exact word_raises rfl (fun _ => stopsListed_ok _) ha hf hr
  · exact completes rfl (by decide) (slotEret_fits f) ⟨by simp [slotEret, h0, hd, h1, h2], fun _ => hf, rfl, rfl⟩
  · exact done_empties hf hp h0 hd h2 hfree ho ht

end Sys2Proof.Machine

/-! ### Elements of vectors and predicates (R30, R31) -/

namespace Sys2Proof.Machine

open Sys2Proof

/-! #### Elements of packed vectors -/

/-- The element widths of Table 2.2. -/
def Width (w : Nat) : Prop := w = 1 ∨ w = 2 ∨ w = 4 ∨ w = 8

theorem etypeBytes_width {t : Nat} (h : t ≤ 0xD) : Width (etypeBytes t) := by
  unfold Width
  interval_cases t <;> simp [etypeBytes]

theorem Width.pos {w : Nat} (h : Width w) : 0 < w := by
  rcases h with rfl | rfl | rfl | rfl <;> decide

theorem Width.mul_laneCount {w : Nat} (h : Width w) : w * (512 / w) = 512 := by
  rcases h with rfl | rfl | rfl | rfl <;> rfl

theorem lane_lt (w : Nat) (v : BitVec 4096) (i : Nat) : lane w v i < 2 ^ (8 * w) :=
  Nat.mod_lt _ (Nat.two_pow_pos _)

theorem mod_div_mod_two_pow (n : Nat) {a b k : Nat} (h : a + b ≤ k) : n % 2 ^ k / 2 ^ a % 2 ^ b = n / 2 ^ a % 2 ^ b := by
  refine Nat.eq_of_testBit_eq (fun i => ?_)
  simp only [Nat.testBit_mod_two_pow, Nat.testBit_div_two_pow]
  by_cases hi : i < b
  · simp [hi, show i + a < k by omega]
  · simp [hi]

theorem packNat_digit (w : Nat) (xs : List Nat) (i : Nat) :
    packNat w xs / 2 ^ (8 * w * i) % 2 ^ (8 * w) = xs[i]?.getD 0 % 2 ^ (8 * w) := by
  induction xs generalizing i with
  | nil => simp [packNat]
  | cons x xs ih =>
    cases i with
    | zero => simp [packNat]
    | succ i =>
      rw [show 8 * w * (i + 1) = 8 * w + 8 * w * i by ring, pow_add, ← Nat.div_div_eq_div_mul, packNat,
        Nat.add_mul_div_left _ _ (Nat.two_pow_pos _), Nat.div_eq_of_lt (Nat.mod_lt _ (Nat.two_pow_pos _)), Nat.zero_add, ih]
      simp

theorem lane_packLanes {w : Nat} (hw : Width w) (xs : List Nat) {i : Nat} (hi : i < 512 / w) :
    lane w (packLanes w xs) i = xs[i]?.getD 0 % 2 ^ (8 * w) := by
  have hfit : 8 * w * i + 8 * w ≤ 4096 := by
    have := hw.mul_laneCount
    have : w * (i + 1) ≤ w * (512 / w) := Nat.mul_le_mul_left w hi
    nlinarith
  unfold lane packLanes
  rw [BitVec.toNat_ofNat, mod_div_mod_two_pow _ hfit, packNat_digit]

theorem lane_packLanes_range {w : Nat} (hw : Width w) (g : Nat → Nat) {i : Nat} (hi : i < 512 / w) :
    lane w (packLanes w ((List.range (laneCount w)).map g)) i = g i % 2 ^ (8 * w) := by
  rw [lane_packLanes hw _ hi]
  simp [laneCount, hi]

theorem lanes_governed {w : Nat} (hw : Width w) (pg : BitVec 512) (zm : BitVec 1) (old : BitVec 4096) {g g' : Nat → Nat}
    (hg : ∀ i, i < 512 / w → pg.getLsbD (i * w) = true → g i % 2 ^ (8 * w) = g' i) :
    Lanes w pg zm old (governed w pg (zm = 1) old g) g' := by
  intro i hi
  unfold governed
  rw [lane_packLanes_range hw _ hi]
  unfold laneOn
  by_cases hp : pg.getLsbD (i * w) = true
  · rw [if_pos hp, if_pos hp, hg i hi hp]
  · rw [if_neg hp, if_neg hp]
    by_cases hz : zm = 1
    · simp [hz]
    · rw [if_neg (by simpa using hz), if_neg hz, Nat.mod_eq_of_lt (lane_lt w old i)]

theorem governedR_eq (w : Nat) (pg : BitVec 512) (zm : Bool) (old : BitVec 4096) (g : Nat → Rounded) :
    governedR w pg zm old g = (governed w pg zm old (fun i => (g i).bits),
      (List.range (512 / w)).foldl (fun a i => if pg.getLsbD (i * w) then a ||| (g i).flags else a) 0) := by
  unfold governedR governed laneOn laneCount
  simp only [List.map_map, List.foldl_map, Prod.mk.injEq]
  constructor
  · congr 1
    refine List.map_congr_left (fun i _ => ?_)
    simp only [Function.comp_apply]
    split <;> rfl
  · congr 1
    funext a i
    split
    · rfl
    · simp

theorem foldl_noFlags (n : Nat) (on : Nat → Bool) :
    (List.range n).foldl (fun (a : BitVec 5) i => if on i then a ||| 0 else a) 0 = 0 := by
  have : (fun (a : BitVec 5) i => if on i then a ||| 0 else a) = fun a (_ : Nat) => a := by
    funext a i
    split
    · simp
    · rfl
  rw [this]
  exact List.foldl_fixed' (fun _ => rfl) _

/-! #### A word that writes governed elements -/

section
variable {own : Nat} {i : Instr} {c : CoreId} {f : VR} {n : Nat} {ws : Companions} {s : State} {m : Meaning}

theorem writesLanes_of {g : Nat → Rounded} {bits : Nat → Nat} {fl : Nat → BitVec 5} (hw : Width n)
    (hi : exec i s = runWord c own m ws s) (ho : own ≤ 3) (hf : Fits own m) (hd : m.dests = [.w f.wd])
    (hm : SlotRuns s c m ((ctxOf s c).vecOutR f n g))
    (hb : ∀ j, j < 512 / n → ((s.core c).getP f.pg).getLsbD (j * n) = true → (g j).bits % 2 ^ (8 * n) = bits j)
    (hfl : ∀ j, j < 512 / n → ((s.core c).getP f.pg).getLsbD (j * n) = true → (g j).flags = fl j) :
    WritesLanes own i c f n bits fl ws s := by
  have h := completes hi ho hf hm
  rw [hd] at h
  refine ⟨_, lanes_governed hw ((s.core c).getP f.pg) f.zm ((s.core c).getW f.wd) hb, ?_⟩
  have flags : (List.range (512 / n)).foldl (fun a j => if ((s.core c).getP f.pg).getLsbD (j * n) then a ||| (g j).flags else a) 0 =
      (List.range (512 / n)).foldl (fun a j => if ((s.core c).getP f.pg).getLsbD (j * n) then a ||| fl j else a) (0 : BitVec 5) := by
    refine List.foldl_ext _ _ _ (fun a j hj => ?_)
    by_cases hp : ((s.core c).getP f.pg).getLsbD (j * n) = true
    · rw [if_pos hp, if_pos hp, hfl j (List.mem_range.mp hj) hp]
    · rw [if_neg hp, if_neg hp]
  unfold WritesW
  rw [← flags]
  unfold Ctx.vecOutR at h
  rw [governedR_eq] at h
  exact h

theorem writesLanes_of_vecOut {g g' : Nat → Nat} (hw : Width n) (hi : exec i s = runWord c own m ws s) (ho : own ≤ 3)
    (hf : Fits own m) (hd : m.dests = [.w f.wd]) (hm : SlotRuns s c m ((ctxOf s c).vecOut f n g))
    (hg : ∀ j, j < 512 / n → ((s.core c).getP f.pg).getLsbD (j * n) = true → g j % 2 ^ (8 * n) = g' j) :
    WritesLanes own i c f n g' (fun _ => 0) ws s := by
  have h := completes hi ho hf hm
  rw [hd] at h
  refine ⟨_, lanes_governed hw ((s.core c).getP f.pg) f.zm ((s.core c).getW f.wd) hg, ?_⟩
  rw [foldl_noFlags]
  exact h

end

/-! #### Integers of an element type -/

theorem intVal_modEq (signed : Bool) (w b : Nat) : intVal signed w b ≡ (b : Int) [ZMOD ((2 ^ (8 * w) : Nat) : Int)] := by
  unfold intVal
  split
  · exact Int.sub_modulus_modEq_iff.mpr rfl
  · rfl

theorem wrapInt_of_modEq {w : Nat} {z : Int} {m : Nat} (h : z ≡ (m : Int) [ZMOD ((2 ^ (8 * w) : Nat) : Int)]) :
    wrapInt w z = m % 2 ^ (8 * w) := by
  unfold wrapInt
  rw [h, ← Int.natCast_emod, Int.toNat_natCast]

theorem wrapInt_lt (w : Nat) (z : Int) : wrapInt w z < 2 ^ (8 * w) := by
  have hp : (0 : Int) < ((2 ^ (8 * w) : Nat) : Int) := by exact_mod_cast Nat.two_pow_pos (8 * w)
  have h1 := Int.emod_nonneg z hp.ne'
  have h2 := Int.emod_lt_of_pos z hp
  unfold wrapInt
  omega

theorem wrapInt_intVal {signed : Bool} {w b : Nat} (h : b < 2 ^ (8 * w)) : wrapInt w (intVal signed w b) = b := by
  rw [wrapInt_of_modEq (intVal_modEq signed w b), Nat.mod_eq_of_lt h]

theorem intMin_le_intMax (signed : Bool) (w : Nat) : intMin signed w ≤ intMax signed w := by
  have h1 := Nat.two_pow_pos (8 * w - 1)
  have h2 := Nat.two_pow_pos (8 * w)
  unfold intMin intMax
  cases signed
  · simp only [Bool.false_eq_true, if_false]
    omega
  · simp only [if_true]
    omega

theorem clampInt_eq (signed : Bool) (w : Nat) (v : Int) :
    clampInt signed w v = max (intMin signed w) (min (intMax signed w) v) := by
  have := intMin_le_intMax signed w
  unfold clampInt
  split
  · omega
  · split <;> omega

end Sys2Proof.Machine

/-! ### O10: integer vectors, bitwise and lane moves, element moves (Tables 2.6 and 2.7) -/

namespace Sys2Proof.Machine

open Sys2Proof

section
variable {own : Nat} {i : Instr} {c : CoreId} {f : VR} {w : Companions} {s : State}

/-- An integer instruction writes the low bits of its results. -/
theorem writesLanes_intOp {g : Int → Int → Int → Int} {r : Nat → Nat} (he : f.etype.toNat < 8) (hm : f.mod = 0)
    (hi : exec i s = runWord c own (intOp f g) w s) (ho : own ≤ 3)
    (hr : ∀ j, let v := fun x => intVal (etypeSigned f.etype.toNat) f.width (lane f.width ((s.core c).getW x) j)
      wrapInt f.width (g (v f.wd) (v f.wa) (v f.wb)) = r j) :
    WritesLanes own i c f f.width r (fun _ => 0) w s := by
  refine writesLanes_of_vecOut (etypeBytes_width (by omega)) hi ho (intOp_fits f g own) rfl
    ⟨by simp [intOp, etypeInt, etypeIsInt, he, hm], nofun, rfl, rfl⟩ (fun j _ _ => ?_)
  rw [Nat.mod_eq_of_lt (wrapInt_lt _ _)]
  exact hr j

theorem writesLanes_shiftOp {g : Nat → Nat → Nat} {r : Nat → Nat} (he : f.etype.toNat < 8) (hm : f.mod = 0)
    (hi : exec i s = runWord c 2 (shiftOp f g) w s)
    (hr : ∀ j, let x := fun x => lane f.width ((s.core c).getW x) j
      g (x f.wa) (x f.wb % (8 * f.width)) % 2 ^ (8 * f.width) = r j) :
    WritesLanes 2 i c f f.width r (fun _ => 0) w s :=
  writesLanes_of_vecOut (etypeBytes_width (by omega)) hi (by decide) (shiftOp_fits f g 2) rfl
    ⟨by simp [shiftOp, etypeInt, etypeIsInt, he, hm], nofun, rfl, rfl⟩ (fun j _ _ => hr j)

theorem writesLanes_bitOp {g : Nat → Nat → Nat} (he : f.etype.toNat ≤ 0xD) (hm : f.mod = 0)
    (hi : exec i s = runWord c 2 (bitOp f g) w s) (hg : ∀ a b, a < 2 ^ (8 * f.width) → b < 2 ^ (8 * f.width) → g a b < 2 ^ (8 * f.width)) :
    WritesLanes 2 i c f f.width (fun j => g (lane f.width ((s.core c).getW f.wa) j) (lane f.width ((s.core c).getW f.wb) j))
      (fun _ => 0) w s :=
  writesLanes_of_vecOut (etypeBytes_width he) hi (by decide) (bitOp_fits f g 2) rfl
    ⟨by simp [bitOp, etypeAny, he, hm], nofun, rfl, rfl⟩
    (fun j _ _ => Nat.mod_eq_of_lt (hg _ _ (lane_lt _ _ _) (lane_lt _ _ _)))

end

theorem wrapInt_ite {n : Nat} {p : Prop} [Decidable p] {x y : Int} {a b : Nat} (hx : wrapInt n x = a) (hy : wrapInt n y = b) :
    wrapInt n (if p then x else y) = if p then a else b := by
  split
  · exact hx
  · exact hy

/-! #### Active elements in order -/

theorem activeLanes_eq (n : Nat) (pg : BitVec 512) :
    activeLanes n pg = (List.range (512 / n)).filter (fun i => pg.getLsbD (i * n)) := rfl

/-- The active elements up to the i-th are those of the first i + 1. -/
theorem filter_activeLanes (on : Nat → Bool) {m i : Nat} (hi : i < m) :
    ((List.range m).filter on).filter (· ≤ i) = (List.range (i + 1)).filter on := by
  obtain ⟨d, rfl⟩ : ∃ d, m = (i + 1) + d := ⟨m - (i + 1), by omega⟩
  rw [List.range_add, List.filter_append, List.filter_append]
  have low : ((List.range (i + 1)).filter on).filter (· ≤ i) = (List.range (i + 1)).filter on := by
    refine List.filter_eq_self.mpr (fun j hj => ?_)
    have := List.mem_range.mp (List.mem_filter.mp hj).1
    simp only [decide_eq_true_eq]
    omega
  have high : (((List.range d).map (i + 1 + ·)).filter on).filter (· ≤ i) = [] := by
    refine List.filter_eq_nil_iff.mpr (fun j hj => ?_)
    obtain ⟨x, -, rfl⟩ := List.mem_map.mp (List.mem_filter.mp hj).1
    simp only [decide_eq_true_eq]
    omega
  rw [low, high, List.append_nil]

/-- An active element comes after as many others as are active below it. -/
theorem idxOf_activeLanes (on : Nat → Bool) {m i : Nat} (hi : i < m) (hon : on i = true) :
    ((List.range m).filter on).idxOf i = ((List.range i).filter on).length := by
  obtain ⟨d, rfl⟩ : ∃ d, m = (i + 1) + d := ⟨m - (i + 1), by omega⟩
  have absent : i ∉ (List.range i).filter on := fun h => by simp at h
  rw [List.range_add, List.filter_append, List.range_succ, List.filter_append, List.filter_singleton, hon, cond_true,
    List.append_assoc, List.idxOf_append_of_notMem absent]
  simp

theorem foldl_add_eq_sum (l : List Nat) (a : Nat → Nat) : l.foldl (fun s j => s + a j) 0 = (l.map a).sum := by
  rw [List.sum_eq_foldl, List.foldl_map]

section
variable {c : CoreId} {f : VR} {w : Companions} {s : State}

/-- The integer rows of Tables 2.6 and 2.7. -/
theorem integer_rows (he : f.etype.toNat < 8) (hm : f.mod = 0) :
    let k := s.core c
    let n := etypeBytes f.etype.toNat
    let top := 2 ^ (8 * n)
    let v := intVal (etypeSigned f.etype.toNat) n
    let lo := intMin (etypeSigned f.etype.toNat) n
    let hi := intMax (etypeSigned f.etype.toNat) n
    let d := lane n (k.getW f.wd)
    let a := lane n (k.getW f.wa)
    let b := lane n (k.getW f.wb)
    let gives := fun (own : Nat) (i : Instr) (g : Nat → Nat) => WritesLanes own i c f n g (fun _ => 0) w s
    gives 1 (.vimul c f w) (fun i => a i * b i % top) ∧
    gives 1 (.vimac c f w) (fun i => (d i + a i * b i) % top) ∧
    gives 2 (.vadd c f w) (fun i => (a i + b i) % top) ∧
    gives 2 (.vsub c f w) (fun i => (a i + top - b i) % top) ∧
    gives 2 (.vadds c f w) (fun i => wrapInt n (max lo (min hi (v (a i) + v (b i))))) ∧
    gives 2 (.vsubs c f w) (fun i => wrapInt n (max lo (min hi (v (a i) - v (b i))))) ∧
    gives 2 (.vshl c f w) (fun i => a i * 2 ^ (b i % (8 * n)) % top) ∧
    gives 2 (.vshr c f w) (fun i => a i / 2 ^ (b i % (8 * n))) ∧
    gives 2 (.vsra c f w) (fun i => wrapInt n (v (a i) / 2 ^ (b i % (8 * n)))) ∧
    gives 2 (.vmin c f w) (fun i => if v (a i) ≤ v (b i) then a i else b i) ∧
    gives 2 (.vmax c f w) (fun i => if v (a i) ≤ v (b i) then b i else a i) := by
  intro k n top v lo hi d a b gives
  have mod := fun x j => intVal_modEq (etypeSigned f.etype.toNat) n (lane n (k.getW x) j)
  have back : ∀ x j, wrapInt n (v (lane n (k.getW x) j)) = lane n (k.getW x) j := fun x j => wrapInt_intVal (lane_lt _ _ _)
  refine ⟨?_, ?_, ?_, ?_, ?_, ?_, ?_, ?_, ?_, ?_, ?_⟩
  · refine writesLanes_intOp he hm rfl (by decide) (fun j => ?_)
    exact wrapInt_of_modEq (by push_cast; exact (mod f.wa j).mul (mod f.wb j))
  · refine writesLanes_intOp he hm rfl (by decide) (fun j => ?_)
    exact wrapInt_of_modEq (by push_cast; exact (mod f.wd j).add ((mod f.wa j).mul (mod f.wb j)))
  · refine writesLanes_intOp he hm rfl (by decide) (fun j => ?_)
    exact wrapInt_of_modEq (by push_cast; exact (mod f.wa j).add (mod f.wb j))
  · refine writesLanes_intOp he hm rfl (by decide) (fun j => ?_)
    have hb : b j ≤ a j + top := ((lane_lt n (k.getW f.wb) j).le).trans (Nat.le_add_left _ _)
    refine wrapInt_of_modEq ?_
    rw [Nat.cast_sub hb, Nat.cast_add, add_sub_right_comm]
    exact ((mod f.wa j).sub (mod f.wb j)).trans (Int.add_modulus_modEq_iff.mpr rfl).symm
  · refine writesLanes_intOp he hm rfl (by decide) (fun j => ?_)
    exact congrArg (wrapInt n) (clampInt_eq _ _ _)
  · refine writesLanes_intOp he hm rfl (by decide) (fun j => ?_)
    exact congrArg (wrapInt n) (clampInt_eq _ _ _)
  · exact writesLanes_shiftOp he hm rfl (fun j => rfl)
  · refine writesLanes_shiftOp he hm rfl (fun j => ?_)
    exact Nat.mod_eq_of_lt ((Nat.div_le_self _ _).trans_lt (lane_lt _ _ _))
  · refine writesLanes_shiftOp he hm rfl (fun j => ?_)
    refine (Nat.mod_eq_of_lt (wrapInt_lt _ _)).trans ?_
    push_cast
    rfl
  · refine writesLanes_intOp he hm rfl (by decide) (fun j => ?_)
    exact wrapInt_ite (back _ _) (back _ _)
  · refine writesLanes_intOp he hm rfl (by decide) (fun j => ?_)
    exact wrapInt_ite (back _ _) (back _ _)

theorem writesLanes_vscan (he : f.etype.toNat < 8) (hm : f.mod = 0) (hb : f.wb = 0) :
    WritesLanes 2 (.vscan c f w) c f f.width (fun i =>
      (((List.range (i + 1)).filter (fun j => ((s.core c).getP f.pg).getLsbD (j * f.width))).map
        (lane f.width ((s.core c).getW f.wa))).sum % 2 ^ (8 * f.width)) (fun _ => 0) w s := by
  refine writesLanes_of_vecOut (etypeBytes_width (by omega)) rfl (by decide) (slotVscan_fits f) rfl
    ⟨by simp [slotVscan, etypeInt, etypeIsInt, he, hm, hb], nofun, rfl, rfl⟩ (fun j hj _ => ?_)
  dsimp only
  rw [activeLanes_eq, filter_activeLanes _ hj, foldl_add_eq_sum]
  rfl

/-- The rows of any element type. -/
theorem any_rows (he : f.etype.toNat ≤ 0xD) (hm : f.mod = 0) :
    let k := s.core c
    let n := etypeBytes f.etype.toNat
    let a := lane n (k.getW f.wa)
    let b := lane n (k.getW f.wb)
    let on := fun i => (k.getP f.pg).getLsbD (i * n)
    let gives := fun (i : Instr) (g : Nat → Nat) => WritesLanes 2 i c f n g (fun _ => 0) w s
    gives (.vand c f w) (fun i => a i &&& b i) ∧
    gives (.vor c f w) (fun i => a i ||| b i) ∧
    gives (.vxor c f w) (fun i => a i ^^^ b i) ∧
    gives (.vperm c f w) (fun i => a (b i % (512 / n))) ∧
    (f.wb = 0 → gives (.vbcast c f w) (fun _ => (k.getX f.wa).toNat % 2 ^ (8 * n))) ∧
    (f.wb = 0 → gives (.vexpand c f w) (fun i => a ((List.range i).filter on).length)) := by
  intro k n a b on gives
  have hw := etypeBytes_width he
  refine ⟨?_, ?_, ?_, ?_, fun hb => ?_, fun hb => ?_⟩
  · exact writesLanes_bitOp he hm rfl (fun a b _ hb => Nat.and_lt_two_pow a hb)
  · exact writesLanes_bitOp he hm rfl (fun a b ha hb => Nat.or_lt_two_pow ha hb)
  · exact writesLanes_bitOp he hm rfl (fun a b ha hb => Nat.xor_lt_two_pow ha hb)
  · exact writesLanes_of_vecOut hw rfl (by decide) (slotVperm_fits f) rfl
      ⟨by simp [slotVperm, etypeAny, he, hm], nofun, rfl, rfl⟩ (fun j _ _ => Nat.mod_eq_of_lt (lane_lt _ _ _))
  · exact writesLanes_of_vecOut hw rfl (by decide) (slotVbcast_fits f) rfl
      ⟨by simp [slotVbcast, etypeAny, he, hm, hb], nofun, rfl, rfl⟩ (fun j _ _ => rfl)
  · refine writesLanes_of_vecOut hw rfl (by decide) (slotVexpand_fits f) rfl
      ⟨by simp [slotVexpand, etypeAny, he, hm, hb], nofun, rfl, rfl⟩ (fun j hj hon => ?_)
    refine (Nat.mod_eq_of_lt (lane_lt _ _ _)).trans (congrArg a ?_)
    exact idxOf_activeLanes on hj hon

theorem vsel_writes (he : f.etype.toNat ≤ 0xD) (hm : f.mod = 0) (hz : f.zm = 0) :
    let k := s.core c
    let n := etypeBytes f.etype.toNat
    ∃ v, (∀ i, i < 512 / n → lane n v i =
        if (k.getP f.pg).getLsbD (i * n) then lane n (k.getW f.wa) i else lane n (k.getW f.wb) i) ∧
      WritesW 2 (.vsel c f w) c f.wd v 0 w s := by
  intro k n
  refine ⟨_, fun i hi => ?_, completes rfl (by decide) (slotVsel_fits f) ⟨by simp [slotVsel, etypeAny, he, hm, hz], nofun, rfl, rfl⟩⟩
  rw [show f.width = n from rfl, lane_packLanes_range (etypeBytes_width he) _ hi]
  unfold laneOn
  split
  · exact Nat.mod_eq_of_lt (lane_lt _ _ _)
  · exact Nat.mod_eq_of_lt (lane_lt _ _ _)

theorem vcompress_writes (he : f.etype.toNat ≤ 0xD) (hm : f.mod = 0) (hb : f.wb = 0) (hz : f.zm = 0) :
    let k := s.core c
    let n := etypeBytes f.etype.toNat
    let active := (List.range (512 / n)).filter (fun i => (k.getP f.pg).getLsbD (i * n))
    ∃ v, (∀ i, i < 512 / n → lane n v i = match active[i]? with | some j => lane n (k.getW f.wa) j | none => 0) ∧
      WritesW 2 (.vcompress c f w) c f.wd v 0 w s := by
  intro k n active
  refine ⟨_, fun i hi => ?_, completes rfl (by decide) (slotVcompress_fits f)
    ⟨by simp [slotVcompress, etypeAny, he, hm, hb, hz], nofun, rfl, rfl⟩⟩
  rw [show f.width = n from rfl, lane_packLanes (etypeBytes_width he) _ hi, List.getElem?_map]
  show (Option.map _ active[i]?).getD 0 % 2 ^ (8 * n) = _
  cases active[i]? with
  | none => exact Nat.zero_mod _
  | some j => exact Nat.mod_eq_of_lt (lane_lt _ _ _)

theorem top_bit_iff {n x : Nat} (hn : 0 < n) (h : x < 2 ^ (8 * n)) : x / 2 ^ (8 * n - 1) % 2 = 1 ↔ 2 ^ (8 * n - 1) ≤ x := by
  have split : 2 ^ (8 * n) = 2 * 2 ^ (8 * n - 1) := by rw [← pow_succ']; congr 1; omega
  have hp := Nat.two_pow_pos (8 * n - 1)
  have hlt : x / 2 ^ (8 * n - 1) < 2 := (Nat.div_lt_iff_lt_mul hp).mpr (by omega)
  rw [Nat.mod_eq_of_lt hlt]
  constructor
  · intro h1
    have := Nat.div_mul_le_self x (2 ^ (8 * n - 1))
    rw [h1] at this
    omega
  · intro h1
    have := (Nat.le_div_iff_mul_le hp).mpr (by omega : 1 * 2 ^ (8 * n - 1) ≤ x)
    omega

theorem vmovx_writes (he : f.etype.toNat ≤ 0xD) (hm : f.mod = 0) (hp : f.pg = 0) (hz : f.zm = 0) :
    let k := s.core c
    let n := etypeBytes f.etype.toNat
    let x := lane n (k.getW f.wa) ((k.getX f.wb).toNat % (512 / n))
    WritesX 2 (.vmovx c f w) c f.wd
      (if f.etype.toNat < 8 ∧ f.etype.toNat % 2 = 0 ∧ 2 ^ (8 * n - 1) ≤ x then BitVec.ofInt 64 (x - 2 ^ (8 * n))
       else BitVec.ofNat 64 x) w s := by
  intro k n x
  have h := completes (i := .vmovx c f w) (w := w) (s := s) rfl (by decide) (slotVmovx_fits f)
    ⟨by simp [slotVmovx, etypeAny, he, hm, hp, hz], nofun, rfl, rfl⟩
  have value : BitVec.ofInt 64 (intVal (etypeSigned f.etype.toNat) n x) =
      if f.etype.toNat < 8 ∧ f.etype.toNat % 2 = 0 ∧ 2 ^ (8 * n - 1) ≤ x then BitVec.ofInt 64 (x - 2 ^ (8 * n))
      else BitVec.ofNat 64 x := by
    have top := top_bit_iff (etypeBytes_width he).pos (lane_lt n (k.getW f.wa) ((k.getX f.wb).toNat % (512 / n)))
    have cond : (etypeSigned f.etype.toNat && x / 2 ^ (8 * n - 1) % 2 == 1) = true ↔
        f.etype.toNat < 8 ∧ f.etype.toNat % 2 = 0 ∧ 2 ^ (8 * n - 1) ≤ x := by
      simp only [etypeSigned, Bool.and_eq_true, decide_eq_true_eq, beq_iff_eq, and_assoc]
      exact and_congr_right fun _ => and_congr_right fun _ => top
    unfold intVal
    by_cases hc : f.etype.toNat < 8 ∧ f.etype.toNat % 2 = 0 ∧ 2 ^ (8 * n - 1) ≤ x
    · rw [if_pos hc, if_pos (cond.mpr hc)]
      push_cast
      rfl
    · rw [if_neg hc, if_neg (fun h => hc (cond.mp h)), BitVec.ofInt_natCast]
  unfold WritesX
  rw [← value]
  exact h

end

theorem vmovi_writes {c : CoreId} {g : VI} {w : Companions} {s : State} (he : g.etype.toNat < 8) (ha : g.wa = 0) :
    let k := s.core c
    let n := etypeBytes g.etype.toNat
    ∃ v, Lanes n (k.getP g.pg) g.zm (k.getW g.wd) v (fun _ => wrapInt n g.imm8.toInt) ∧
      WritesW 2 (.vmovi c g w) c g.wd v 0 w s := by
  intro k n
  exact ⟨_, lanes_governed (etypeBytes_width (by omega)) _ _ _ (fun _ _ _ => Nat.mod_eq_of_lt (wrapInt_lt _ _)),
    completes rfl (by decide) (slotVmovi_fits g) ⟨by simp [slotVmovi, etypeInt, etypeIsInt, he, ha], nofun, rfl, rfl⟩⟩

/-- Settles O10, row by row: each is an element-wise result packed and governed by the predicate. -/
theorem integerAndLaneVectors : Obligations.IntegerAndLaneVectors := by
  refine ⟨fun c f w s he hm => ?_, fun c f w s he hm => ?_, fun c f g w s => ?_⟩
  · obtain ⟨h1, h2, h3, h4, h5, h6, h7, h8, h9, h10, h11⟩ := integer_rows (c := c) (w := w) (s := s) he hm
    exact ⟨h1, h2, h3, h4, h5, h6, h7, h8, h9, h10, h11, writesLanes_vscan he hm⟩
  · obtain ⟨h1, h2, h3, h4, h5, h6⟩ := any_rows (c := c) (w := w) (s := s) he hm
    exact ⟨h1, h2, h3, h4, h5, h6, vsel_writes he hm, vcompress_writes he hm⟩
  · exact ⟨vmovx_writes, vmovi_writes⟩

end Sys2Proof.Machine

/-! ### Predicates: their elements, comparisons and counts (R30, R31, Table 2.7) -/

namespace Sys2Proof.Machine

open Sys2Proof

theorem predBits_testBit {w : Nat} (hw : 0 < w) (bs : List Bool) (j : Nat) :
    (predBits w bs).testBit j = bs[j / w]?.getD false := by
  induction bs generalizing j with
  | nil => simp [predBits]
  | cons b bs ih =>
    have hlt : (if b then 2 ^ w - 1 else 0) < 2 ^ w := by
      have := Nat.two_pow_pos w
      split <;> omega
    rw [predBits, Nat.add_comm, Nat.testBit_two_pow_mul_add _ hlt]
    by_cases hj : j < w
    · rw [if_pos hj, Nat.div_eq_of_lt hj]
      cases b
      · simp
      · simp [hj]
    · rw [if_neg hj, ih, Nat.div_eq_sub_div hw (Nat.le_of_not_lt hj)]
      simp

theorem Width.div_lt {w j : Nat} (h : Width w) (hj : j < 512) : j / w < 512 / w := by
  have := h.mul_laneCount
  exact (Nat.div_lt_iff_lt_mul h.pos).mpr (by rw [Nat.mul_comm]; omega)

theorem getLsbD_predOf {w : Nat} (hw : Width w) (g : Nat → Bool) {j : Nat} (hj : j < 512) :
    (predOf w g).getLsbD j = g (j / w) := by
  unfold predOf
  rw [BitVec.getLsbD_ofNat, predBits_testBit hw.pos]
  have := hw.div_lt hj
  simp [hj, laneCount, this]

theorem getLsbD_governedP {w : Nat} (hw : Width w) (pg : BitVec 512) (zm : Bool) (old : BitVec 512) (g : Nat → Bool)
    {j : Nat} (hj : j < 512) : (governedP w pg zm old g).getLsbD j =
      if pg.getLsbD (j / w * w) then g (j / w) else if zm then false else old.getLsbD j := by
  have keep : (if zm then 0 else old &&& ~~~(predOf w (laneOn w pg))).getLsbD j =
      if zm then false else (old.getLsbD j && !pg.getLsbD (j / w * w)) := by
    cases zm
    · simp only [Bool.false_eq_true, if_false]
      rw [BitVec.getLsbD_and, BitVec.getLsbD_not, getLsbD_predOf hw _ hj, decide_eq_true hj, Bool.true_and]
      rfl
    · simp
  unfold governedP
  rw [BitVec.getLsbD_or, getLsbD_predOf hw _ hj, keep]
  unfold laneOn
  cases pg.getLsbD (j / w * w) <;> cases zm <;> simp

theorem predReg_eq (r : BitVec 5) : predReg r = BitVec.ofNat 3 r.toNat := setWidth_eq_ofNat r 3

section
variable {i : Instr} {c : CoreId} {f : VR} {w : Companions} {s : State}

theorem writesBits_predOp {srcs : Bool} {g : Ctx → Nat → Bool} {r : Nat → Bool}
    (hi : exec i s = runWord c 2 (predOp f srcs g) w s) (he : f.etype.toNat ≤ 0xD) (hm : f.mod = 0) (hp : f.pg = 0)
    (hz : f.zm = 0) (hd : f.wd.toNat < 8) (hs : srcs = true) (hr : ∀ j, g (ctxOf s c) (j / etypeBytes f.etype.toNat) = r j) :
    WritesBits 2 i c (BitVec.ofNat 3 f.wd.toNat) r 0 w s := by
  rw [← predReg_eq]
  exact ⟨_, fun j hj => (getLsbD_predOf (etypeBytes_width he) _ hj).trans (hr j),
    completes hi (by decide) (predOp_fits f srcs g 2) ⟨by simp [predOp, etypeAny, predField, he, hm, hp, hz, hd, hs], nofun, rfl, rfl⟩⟩

theorem vcmp_writes (he : f.etype.toNat ≤ 0xD) (hm : f.mod ≠ 7) (hd : f.wd.toNat < 8) :
    let k := s.core c
    let n := etypeBytes f.etype.toNat
    let r := BitVec.ofNat 3 f.wd.toNat
    let on := fun i => (k.getP f.pg).getLsbD (i * n)
    let x := fun i => compareElem f.etype.toNat f.mod.toNat (lane n (k.getW f.wa) i) (lane n (k.getW f.wb) i)
    WritesBits 2 (.vcmp c f w) c r
      (fun j => if on (j / n) then (x (j / n)).1 else if f.zm = 1 then false else (k.getP r).getLsbD j)
      ((List.range (512 / n)).foldl (fun a i => if on i then a ||| (x i).2 else a) 0) w s := by
  intro k n r on x
  have h := completes (i := .vcmp c f w) (w := w) (s := s) rfl (by decide) (slotVcmp_fits f)
    ⟨by simp [slotVcmp, etypeAny, predField, he, hd]; exact hm, nofun, rfl, rfl⟩
  have flags : (activeLanes n (k.getP f.pg)).foldl (fun a i => a ||| (x i).2) 0 =
      (List.range (512 / n)).foldl (fun a i => if on i then a ||| (x i).2 else a) (0 : BitVec 5) := by
    rw [activeLanes_eq, List.foldl_filter]
  unfold WritesBits WritesP
  rw [show r = predReg f.wd from (predReg_eq f.wd).symm, ← flags]
  refine ⟨_, fun j hj => ?_, h⟩
  refine (getLsbD_governedP (etypeBytes_width he) _ _ _ _ hj).trans ?_
  simp only [decide_eq_true_eq]
  rfl

theorem predicate_rows (he : f.etype.toNat ≤ 0xD) (hm : f.mod = 0) (hp : f.pg = 0) (hz : f.zm = 0) (ha : f.wa.toNat < 8) :
    let k := s.core c
    let n := etypeBytes f.etype.toNat
    let r := BitVec.ofNat 3 f.wd.toNat
    let a := fun i => (k.getP (BitVec.ofNat 3 f.wa.toNat)).getLsbD (i * n)
    let b := fun i => (k.getP (BitVec.ofNat 3 f.wb.toNat)).getLsbD (i * n)
    (f.wd.toNat < 8 → f.wb.toNat < 8 → WritesBits 2 (.pand c f w) c r (fun j => a (j / n) && b (j / n)) 0 w s) ∧
    (f.wd.toNat < 8 → f.wb.toNat < 8 → WritesBits 2 (.por c f w) c r (fun j => a (j / n) || b (j / n)) 0 w s) ∧
    (f.wd.toNat < 8 → f.wb.toNat < 8 → WritesBits 2 (.pxor c f w) c r (fun j => a (j / n) != b (j / n)) 0 w s) ∧
    (f.wd.toNat < 8 → f.wb = 0 → WritesBits 2 (.pnot c f w) c r (fun j => !a (j / n)) 0 w s) ∧
    (f.wb = 0 → WritesX 2 (.pcnt c f w) c f.wd
      (BitVec.ofNat 64 ((List.range (512 / n)).filter a).length) w s) := by
  intro k n r a b
  have two : f.wb.toNat < 8 → (predField f.wa && predField f.wb) = true := fun hb => by simp [predField, ha, hb]
  have one : f.wb = 0 → (predField f.wa && decide (f.wb = 0)) = true := fun hb => by simp [predField, ha, hb]
  have ra := predReg_eq f.wa
  have rb := predReg_eq f.wb
  refine ⟨fun hd hb => ?_, fun hd hb => ?_, fun hd hb => ?_, fun hd hb => ?_, fun hb => ?_⟩
  · exact writesBits_predOp rfl he hm hp hz hd (two hb) (fun j => by rw [ra, rb]; rfl)
  · exact writesBits_predOp rfl he hm hp hz hd (two hb) (fun j => by rw [ra, rb]; rfl)
  · exact writesBits_predOp rfl he hm hp hz hd (two hb) (fun j => by rw [ra, rb]; rfl)
  · exact writesBits_predOp rfl he hm hp hz hd (one hb) (fun j => by rw [ra]; rfl)
  · have h := completes (i := .pcnt c f w) (w := w) (s := s) rfl (by decide) (slotPcnt_fits f)
      ⟨by simp [slotPcnt, etypeAny, predField, he, hm, hp, hz, ha, hb], nofun, rfl, rfl⟩
    rw [ra] at h
    exact h

theorem plen_writes (he : f.etype.toNat ≤ 0xD) (hm : f.mod = 0) (hp : f.pg = 0) (hz : f.zm = 0) (hd : f.wd.toNat < 8)
    (hb : f.wb = 0) : WritesBits 2 (.plen c f w) c (BitVec.ofNat 3 f.wd.toNat)
      (fun j => decide (j / etypeBytes f.etype.toNat < ((s.core c).getX f.wa).toNat)) 0 w s :=
  writesBits_predOp rfl he hm hp hz hd (by simp [hb]) (fun _ => rfl)

end

end Sys2Proof.Machine

/-! ### Values of encodings, and rounding once (R71 to R75, Table 3.2) -/

namespace Sys2Proof.Machine

open Sys2Proof

/-! #### Finite values -/

theorem value_iff {m : FpFmt} {b : Nat} {q : ℚ} :
    m.Value b q ↔ ∃ neg mag e, m.decode b = .fin neg mag e ∧ q = finRat neg mag e := Iff.rfl

theorem two_zpow_pos (e : Int) : (0 : ℚ) < 2 ^ e := zpow_pos (by norm_num) e

theorem abs_finRat (neg : Bool) (mag : Nat) (e : Int) : |finRat neg mag e| = mag * (2 : ℚ) ^ e := by
  have h : (0 : ℚ) ≤ mag * 2 ^ e := mul_nonneg (Nat.cast_nonneg _) (two_zpow_pos e).le
  unfold finRat
  cases neg
  · simp
  · rw [mul_assoc, abs_mul, abs_of_nonneg h]
    norm_num

theorem finRat_eq_zero {neg : Bool} {mag : Nat} {e : Int} : finRat neg mag e = 0 ↔ mag = 0 := by
  rw [← abs_eq_zero, abs_finRat, mul_eq_zero, Nat.cast_eq_zero, or_iff_left (two_zpow_pos e).ne']

theorem neg_eq_decide {neg : Bool} {mag : Nat} {e : Int} (h : mag ≠ 0) : neg = decide (finRat neg mag e < 0) := by
  have hp : (0 : ℚ) < mag * 2 ^ e := mul_pos (by exact_mod_cast Nat.pos_of_ne_zero h) (two_zpow_pos e)
  unfold finRat
  cases neg
  · simp only [Bool.false_eq_true, if_false, one_mul]
    exact (decide_eq_false (not_lt.mpr hp.le)).symm
  · simp only [if_true, neg_mul, one_mul]
    exact (decide_eq_true (by linarith)).symm

/-- A finite value as an integer number of units of a smaller exponent. -/
theorem finAt_eq {neg : Bool} {mag : Nat} {e e0 : Int} (h : e0 ≤ e) :
    (finAt neg mag e e0 : ℚ) * (2 : ℚ) ^ e0 = finRat neg mag e := by
  have units : ((2 : ℚ) ^ (e - e0).toNat) * 2 ^ e0 = 2 ^ e := by
    rw [← zpow_natCast, ← zpow_add₀ (by norm_num), Int.toNat_of_nonneg (by omega), sub_add_cancel]
  unfold finAt finRat
  cases neg
  · push_cast
    rw [one_mul, mul_assoc, units]
  · simp only [if_true]
    push_cast
    rw [neg_mul, mul_assoc, units]
    ring

/-- An integer number of units has the sign of the value. -/
theorem units_neg_iff {v : Int} {q : ℚ} {e : Int} (h : (v : ℚ) * 2 ^ e = q) : q < 0 ↔ v < 0 := by
  rw [← h, ← not_le, mul_nonneg_iff_of_pos_right (two_zpow_pos e), Int.cast_nonneg_iff, not_le]

theorem units_eq_zero_iff {v : Int} {q : ℚ} {e : Int} (h : (v : ℚ) * 2 ^ e = q) : q = 0 ↔ v = 0 := by
  rw [← h, mul_eq_zero, or_iff_left (two_zpow_pos e).ne', Int.cast_eq_zero]

/-! #### Rounding a dyadic value once -/

/-- A dyadic value is rounded as the quotient it is. -/
theorem roundsTo_roundDyadic {m : FpFmt} {mode : Nat} {neg : Bool} {mag : Nat} {e : Int} {q : ℚ}
    (hn : neg = decide (q < 0)) (hq : (mag : ℚ) * 2 ^ e = |q|) : m.RoundsTo mode q (m.roundDyadic mode neg mag e) := by
  subst hn
  unfold FpFmt.roundDyadic
  by_cases he : e < 0
  · rw [if_pos he]
    refine ⟨mag, 2 ^ (-e).toNat, Nat.two_pow_pos _, ?_, rfl⟩
    rw [← hq, div_eq_mul_inv, Nat.cast_pow, Nat.cast_ofNat, ← zpow_natCast, ← zpow_neg, Int.toNat_of_nonneg (by omega), neg_neg]
  · rw [if_neg he]
    refine ⟨mag * 2 ^ e.toNat, 1, Nat.one_pos, ?_, rfl⟩
    rw [← hq, Nat.cast_one, div_one, Nat.cast_mul, Nat.cast_pow, Nat.cast_ofNat, ← zpow_natCast, Int.toNat_of_nonneg (by omega)]

/-- A whole number of units is rounded as the value it is. -/
theorem roundsTo_units {m : FpFmt} {mode : Nat} {v e : Int} {q : ℚ} (h : (v : ℚ) * 2 ^ e = q) :
    m.RoundsTo mode q (m.roundDyadic mode (v < 0) v.natAbs e) := by
  refine roundsTo_roundDyadic ?_ ?_
  · exact decide_eq_decide.mpr (units_neg_iff h).symm
  · rw [← h, abs_mul, abs_of_pos (two_zpow_pos e), Nat.cast_natAbs, Int.cast_abs]

/-! #### Results lie in their element -/

/-- A format whose special magnitudes lie below the sign bit. -/
structure FpFmt.Framed (f : FpFmt) (w : Nat) : Prop where
  width : 2 * f.signBit = 2 ^ (8 * w)
  max   : f.maxMag < f.signBit
  inf   : f.infMag < f.signBit
  nan   : f.nan < f.signBit

theorem fmtOf_framed {t : Nat} (h : 8 ≤ t) (h' : t ≤ 0xD) : (fmtOf t).Framed (etypeBytes t) := by
  interval_cases t <;> exact ⟨by decide, by decide, by decide, by decide⟩

theorem bits_ite_lt {p : Prop} [Decidable p] {a b : Rounded} {n : Nat} (ha : p → a.bits < n) (hb : ¬ p → b.bits < n) :
    (if p then a else b).bits < n := by
  split
  · exact ha ‹_›
  · exact hb ‹_›

section
variable {f : FpFmt} {w : Nat} (hf : f.Framed w)
include hf

theorem signed_lt (neg : Bool) {mag : Nat} (h : mag < f.signBit) : (if neg then f.signBit else 0) + mag < 2 ^ (8 * w) := by
  rw [← hf.width]
  split <;> omega

theorem overflow_lt (mode : Nat) (neg : Bool) : (f.overflow mode neg).bits < 2 ^ (8 * w) := by
  have hmag : (if f.e4m3 then f.maxMag else match mode with
      | 0 => f.infMag
      | 1 => f.maxMag
      | 2 => if neg then f.maxMag else f.infMag
      | _ => if neg then f.infMag else f.maxMag) < f.signBit := by
    have h1 := hf.max
    have h2 := hf.inf
    split
    · exact h1
    · split
      · exact h2
      · exact h1
      · split
        · exact h1
        · exact h2
      · split
        · exact h2
        · exact h1
  exact signed_lt hf neg hmag

theorem round_lt (mode : Nat) (neg : Bool) (num den : Nat) : (f.round mode neg num den).bits < 2 ^ (8 * w) := by
  have hmax := hf.max
  unfold FpFmt.round
  dsimp only
  split
  · exact signed_lt hf neg (mag := 0) (by omega)
  · exact bits_ite_lt (fun _ => overflow_lt hf mode neg)
      (fun h => signed_lt hf neg (Nat.lt_of_le_of_lt (Nat.le_of_not_lt h) hmax))

theorem roundDyadic_lt (mode : Nat) (neg : Bool) (m : Nat) (e : Int) : (f.roundDyadic mode neg m e).bits < 2 ^ (8 * w) := by
  unfold FpFmt.roundDyadic
  split
  · exact round_lt hf _ _ _ _
  · exact round_lt hf _ _ _ _

theorem quietNan_lt (invalid : Bool) : (f.quietNan invalid).bits < 2 ^ (8 * w) := by
  have h := signed_lt hf false hf.nan
  simpa [FpFmt.quietNan] using h

theorem infinity_lt (neg : Bool) : (f.infinity neg).bits < 2 ^ (8 * w) := by
  unfold FpFmt.infinity
  split
  · exact overflow_lt hf 0 neg
  · exact signed_lt hf neg hf.inf

theorem zero_lt (neg : Bool) : (if neg then f.signBit else 0) < 2 ^ (8 * w) :=
  signed_lt hf neg (mag := 0) (lt_of_le_of_lt (Nat.zero_le _) hf.max)

theorem convToFloat_lt (mode : Nat) (v : FVal) : (convToFloat f mode v).bits < 2 ^ (8 * w) := by
  unfold convToFloat
  split
  · exact quietNan_lt hf _
  · exact infinity_lt hf _
  · split
    · exact zero_lt hf _
    · exact roundDyadic_lt hf _ _ _ _

theorem sumVals_lt (vs : List FVal) (invalid : Bool) : (f.sumVals vs invalid).bits < 2 ^ (8 * w) := by
  unfold FpFmt.sumVals
  dsimp only
  split
  · exact quietNan_lt hf _
  · split
    · exact quietNan_lt hf _
    · split
      · exact infinity_lt hf _
      · split
        · exact infinity_lt hf _
        · split
          · exact zero_lt hf _
          · exact roundDyadic_lt hf _ _ _ _

end

/-! #### Rounding to an integer -/

/-- A quotient of naturals lies its remainder's part above its integer part. -/
theorem nat_div_add (m : Nat) {d : Nat} (hd : 0 < d) :
    (m : ℚ) / d = ((m / d : Nat) : ℚ) + ((m % d : Nat) : ℚ) / d := by
  have hd' : (d : ℚ) ≠ 0 := by exact_mod_cast hd.ne'
  have h : ((d * (m / d) + m % d : Nat) : ℚ) = m := by exact_mod_cast Nat.div_add_mod m d
  rw [← h]
  push_cast
  field_simp

section
variable {n r d : Nat} (hr : r < d)
include hr

theorem fraction_bounds : (0 : ℚ) ≤ (r : ℚ) / d ∧ (r : ℚ) / d < 1 := by
  have hd : (0 : ℚ) < d := by exact_mod_cast Nat.lt_of_le_of_lt (Nat.zero_le r) hr
  exact ⟨div_nonneg (Nat.cast_nonneg r) hd.le, (div_lt_one hd).mpr (by exact_mod_cast hr)⟩

theorem floor_mixed : ⌊(n : ℚ) + (r : ℚ) / d⌋ = n := by
  obtain ⟨h0, h1⟩ := fraction_bounds hr
  rw [Int.floor_eq_iff]
  push_cast
  constructor <;> linarith

theorem fraction_pos (h : r ≠ 0) : (0 : ℚ) < (r : ℚ) / d :=
  div_pos (by exact_mod_cast Nat.pos_of_ne_zero h) (by exact_mod_cast Nat.lt_of_le_of_lt (Nat.zero_le r) hr)

theorem ceil_mixed : ⌈(n : ℚ) + (r : ℚ) / d⌉ = if r = 0 then (n : Int) else n + 1 := by
  obtain ⟨h0, h1⟩ := fraction_bounds hr
  rw [Int.ceil_eq_iff]
  split
  · next h =>
    subst h
    simp
  · next h =>
    have := fraction_pos hr h
    push_cast
    constructor <;> linarith

/-- To nearest, even at a tie: the magnitude chosen lies within half a unit, and is even when it lies half a unit off. -/
theorem nearest_mixed (z : Nat) (hz : z = if roundUp 0 false n r d then n + 1 else n) :
    |(z : ℚ) - (n + (r : ℚ) / d)| ≤ 1 / 2 ∧ (|(z : ℚ) - (n + (r : ℚ) / d)| = 1 / 2 → z % 2 = 0) := by
  obtain ⟨h0, h1⟩ := fraction_bounds hr
  have hd : (0 : ℚ) < d := by exact_mod_cast Nat.lt_of_le_of_lt (Nat.zero_le r) hr
  have half_lt : d < r * 2 ↔ 1 / 2 < (r : ℚ) / d := by
    rw [lt_div_iff₀ hd]
    constructor
    · intro h
      have : (d : ℚ) < r * 2 := by exact_mod_cast h
      linarith
    · intro h
      have : (d : ℚ) < r * 2 := by linarith
      exact_mod_cast this
  have half_eq : r * 2 = d ↔ (r : ℚ) / d = 1 / 2 := by
    rw [div_eq_iff hd.ne']
    constructor
    · intro h
      have : (r : ℚ) * 2 = d := by exact_mod_cast h
      linarith
    · intro h
      have : (r : ℚ) * 2 = d := by linarith
      exact_mod_cast this
  have up : roundUp 0 false n r d = true ↔ 1 / 2 < (r : ℚ) / d ∨ ((r : ℚ) / d = 1 / 2 ∧ n % 2 = 1) := by
    rw [← half_lt, ← half_eq]
    simp [roundUp]
  by_cases hup : roundUp 0 false n r d = true
  · rw [if_pos hup] at hz
    subst hz
    have hge : 1 / 2 ≤ (r : ℚ) / d := by
      rcases up.mp hup with h | h
      · exact h.le
      · exact h.1.ge
    push_cast
    rw [abs_of_nonneg (by linarith)]
    refine ⟨by linarith, fun h => ?_⟩
    rcases up.mp hup with h' | h'
    · linarith
    · omega
  · rw [if_neg hup] at hz
    subst hz
    have hle : (r : ℚ) / d ≤ 1 / 2 := not_lt.mp (fun h => hup (up.mpr (.inl h)))
    rw [sub_add_cancel_left, abs_neg, abs_of_nonneg h0]
    refine ⟨hle, fun h => ?_⟩
    have : ¬ z % 2 = 1 := fun h' => hup (up.mpr (.inr ⟨h, h'⟩))
    omega

/-- The magnitude chosen lies on the value only when nothing remains. -/
theorem mixed_exact_iff (up : Bool) (h : r = 0 → up = false) :
    (((if up then n + 1 else n : Nat) : ℚ) = n + (r : ℚ) / d) ↔ r = 0 := by
  obtain ⟨h0, h1⟩ := fraction_bounds hr
  constructor
  · intro he
    by_contra hne
    have := fraction_pos hr hne
    cases up
    · simp only [Bool.false_eq_true, if_false] at he
      linarith
    · simp only [if_true] at he
      push_cast at he
      linarith
  · intro he
    rw [h he]
    simp [he]

theorem roundUp_of_zero (mode : Nat) (neg : Bool) : r = 0 → roundUp mode neg n r d = false := by
  rintro rfl
  unfold roundUp
  split
  · simp [hr.ne]
  · rfl
  · simp
  · simp

end

theorem roundsToInt_self (mode : Nat) (z : Int) : RoundsToInt mode (z : ℚ) z := by
  unfold RoundsToInt
  split
  · simp
  · simp
  · simp
  · simp

/-- A magnitude rounds to the integer its mode asks for. -/
theorem roundsToInt_pos {mode n r d : Nat} (hm : mode < 4) (hr : r < d) :
    RoundsToInt mode (n + (r : ℚ) / d) ((if roundUp mode false n r d then n + 1 else n : Nat) : Int) := by
  obtain ⟨h0, -⟩ := fraction_bounds hr
  have hx : ¬ ((n : ℚ) + (r : ℚ) / d < 0) := not_lt.mpr (add_nonneg (Nat.cast_nonneg n) h0)
  interval_cases mode
  · obtain ⟨h1, h2⟩ := nearest_mixed (n := n) hr _ rfl
    exact ⟨by exact_mod_cast h1, fun h => by exact_mod_cast h2 (by exact_mod_cast h)⟩
  · simp only [RoundsToInt, if_neg hx, floor_mixed hr, roundUp]
    simp
  · simp only [RoundsToInt, ceil_mixed hr, roundUp]
    by_cases h : r = 0 <;> simp [h]
  · simp only [RoundsToInt, floor_mixed hr, roundUp]
    simp

/-- A negated magnitude rounds to the negated integer. -/
theorem roundsToInt_neg {mode n r d : Nat} (hm : mode < 4) (hr : r < d) :
    RoundsToInt mode (-(n + (r : ℚ) / d)) (-((if roundUp mode true n r d then n + 1 else n : Nat) : Int)) := by
  obtain ⟨h0, -⟩ := fraction_bounds hr
  interval_cases mode
  · obtain ⟨h1, h2⟩ := nearest_mixed (n := n) hr _ rfl
    have flip : ∀ k : Nat, |((-(k : Int) : Int) : ℚ) - -(n + (r : ℚ) / d)| = |(k : ℚ) - (n + (r : ℚ) / d)| := by
      intro k
      rw [← abs_neg]
      congr 1
      push_cast
      ring
    refine ⟨by rw [flip]; exact h1, fun h => ?_⟩
    rw [flip] at h
    have := h2 h
    have : ((if roundUp 0 false n r d then n + 1 else n : Nat) : Int) % 2 = 0 := by exact_mod_cast this
    rw [Int.neg_emod_two]
    exact this
  · simp only [RoundsToInt, roundUp, Bool.false_eq_true, if_false]
    split
    · rw [Int.ceil_neg, floor_mixed hr]
    · next h =>
      have zero : (n : ℚ) + (r : ℚ) / d = 0 := le_antisymm (by linarith) (add_nonneg (Nat.cast_nonneg n) h0)
      have := floor_mixed (n := n) hr
      rw [zero, Int.floor_zero] at this
      rw [zero, neg_zero, Int.floor_zero, ← this, neg_zero]
  · simp only [RoundsToInt, roundUp, Bool.not_true, Bool.false_and, Bool.false_eq_true, if_false, Int.ceil_neg, floor_mixed hr]
  · simp only [RoundsToInt, Int.floor_neg, ceil_mixed hr, roundUp]
    by_cases h : r = 0 <;> simp [h]

/-- Table 3.2: a finite value becomes an integer under the rounding mode, and inexact tells that they differ. -/
theorem roundToInt_spec {mode : Nat} (hm : mode < 4) (neg : Bool) (m : Nat) (e : Int) :
    RoundsToInt mode (finRat neg m e) (roundToInt mode neg m e).1 ∧
      ((roundToInt mode neg m e).2 = false ↔ ((roundToInt mode neg m e).1 : ℚ) = finRat neg m e) := by
  unfold roundToInt
  by_cases he : 0 ≤ e
  · rw [if_pos he]
    have exact_ : (((if neg then -((m * 2 ^ e.toNat : Nat) : Int) else ((m * 2 ^ e.toNat : Nat) : Int)) : Int) : ℚ) =
        finRat neg m e := by
      have := finAt_eq (neg := neg) (mag := m) he
      rw [zpow_zero, mul_one] at this
      rw [← this]
      unfold finAt
      rw [sub_zero]
    dsimp only
    rw [exact_, ← exact_]
    exact ⟨roundsToInt_self mode _, by simp⟩
  · rw [if_neg he]
    have hd : 0 < 2 ^ (-e).toNat := Nat.two_pow_pos _
    have hr : m % 2 ^ (-e).toNat < 2 ^ (-e).toNat := Nat.mod_lt _ hd
    have mag : (m : ℚ) * 2 ^ e = ((m / 2 ^ (-e).toNat : Nat) : ℚ) + ((m % 2 ^ (-e).toNat : Nat) : ℚ) / (2 ^ (-e).toNat : Nat) := by
      rw [← nat_div_add m hd, div_eq_mul_inv, Nat.cast_pow, Nat.cast_ofNat, ← zpow_natCast, ← zpow_neg,
        Int.toNat_of_nonneg (by omega), neg_neg]
    have value : finRat neg m e = if neg then -((m : ℚ) * 2 ^ e) else m * 2 ^ e := by
      unfold finRat
      cases neg
      · simp
      · simp
    have exact_ := mixed_exact_iff (n := m / 2 ^ (-e).toNat) hr (roundUp mode neg (m / 2 ^ (-e).toNat) (m % 2 ^ (-e).toNat)
      (2 ^ (-e).toNat)) (roundUp_of_zero hr mode neg)
    have hbool : ((m % 2 ^ (-e).toNat != 0) = false ↔ m % 2 ^ (-e).toNat = 0) := by simp
    rw [value, mag]
    dsimp only
    cases neg
    · exact ⟨roundsToInt_pos hm hr, hbool.trans (exact_.symm.trans (by
        simp only [Bool.false_eq_true, if_false, Int.cast_natCast]))⟩
    · refine ⟨roundsToInt_neg hm hr, hbool.trans (exact_.symm.trans ?_)⟩
      simp only [if_true, Int.cast_neg, neg_inj, Int.cast_natCast]

end Sys2Proof.Machine

/-! ### O11: conversions, dot products, comparisons and predicates (R30, R31, R40, Tables 2.6, 2.7, 3.2) -/

namespace Sys2Proof.Machine

open Sys2Proof

/-! #### Conversions of one element -/

theorem etypeIsFloat_eq {t : Nat} (h : t ≤ 0xD) : etypeIsFloat t = decide (8 ≤ t) := by
  simp [etypeIsFloat, h]

/-- The value of an integer element lies in its type's range. -/
theorem intVal_mem {signed : Bool} {w b : Nat} (hw : 0 < w) (h : b < 2 ^ (8 * w)) :
    intMin signed w ≤ intVal signed w b ∧ intVal signed w b ≤ intMax signed w := by
  have hpow : 2 ^ (8 * w) = 2 * 2 ^ (8 * w - 1) := by rw [← pow_succ']; congr 1; omega
  have htop := top_bit_iff hw h
  unfold intMin intMax intVal
  cases signed
  · simp only [Bool.false_and, Bool.false_eq_true, if_false]
    omega
  · simp only [Bool.true_and, beq_iff_eq, htop, if_true]
    split <;> omega

theorem clampInt_intVal {signed : Bool} {w b : Nat} (hw : 0 < w) (h : b < 2 ^ (8 * w)) :
    clampInt signed w (intVal signed w b) = intVal signed w b := by
  obtain ⟨h1, h2⟩ := intVal_mem (signed := signed) hw h
  unfold clampInt
  rw [if_neg (by omega), if_neg (by omega)]

section
variable {src dst mode b : Nat} (hs : src ≤ 0xD) (hd : dst ≤ 0xD) (hb : b < 2 ^ (8 * etypeBytes src))

theorem convert_same_int (h : src = dst) (hi : src < 8) : convert src dst mode b = { bits := b, flags := 0 } := by
  unfold convert
  simp [h, etypeIsInt, h ▸ hi]

theorem convert_int_int (h : src ≠ dst) (hi : src < 8) (hj : dst < 8) : convert src dst mode b =
    { bits := wrapInt (etypeBytes dst) (clampInt (etypeSigned dst) (etypeBytes dst) (intVal (etypeSigned src) (etypeBytes src) b)),
      flags := 0 } := by
  unfold convert
  simp [h, etypeIsFloat, Nat.not_le.mpr hi, Nat.not_le.mpr hj]

include hd in
theorem convert_int_float (hi : src < 8) (hj : 8 ≤ dst) : convert src dst mode b =
    (fmtOf dst).roundDyadic mode (intVal (etypeSigned src) (etypeBytes src) b < 0)
      (intVal (etypeSigned src) (etypeBytes src) b).natAbs 0 := by
  unfold convert
  simp [show src ≠ dst by omega, etypeIsFloat, Nat.not_le.mpr hi, hj, hd]

include hs hd in
theorem convert_float_float (hi : 8 ≤ src) (hj : 8 ≤ dst) (h : src ≠ dst) :
    convert src dst mode b = convToFloat (fmtOf dst) mode ((fmtOf src).decode b) := by
  unfold convert
  simp [h, etypeIsFloat, hi, hj, hs, hd]

include hs in
theorem convert_same_float (hi : 8 ≤ src) (h : src = dst) :
    convert src dst mode b = { bits := b, flags := 0 } ∨ ∃ s, (fmtOf src).decode b = .nan s ∧
      convert src dst mode b = (fmtOf dst).quietNan s := by
  subst h
  unfold convert
  simp only [etypeIsFloat, etypeIsInt, hi, hs, Nat.not_lt.mpr hi, decide_true, decide_false, Bool.and_self, Bool.and_false,
    beq_self_eq_true, if_true, Bool.false_eq_true, if_false]
  split
  · next s h => exact .inr ⟨s, h, rfl⟩
  · exact .inl rfl

include hs in
theorem convert_fin_int {n : Bool} {m : Nat} {e : Int} (hi : 8 ≤ src) (hj : dst < 8)
    (h : (fmtOf src).decode b = .fin n m e) :
    let z := (roundToInt mode n m e).1
    let c := clampInt (etypeSigned dst) (etypeBytes dst) z
    convert src dst mode b = if c = z
      then { bits := wrapInt (etypeBytes dst) z, flags := if (roundToInt mode n m e).2 then flagInexact else 0 }
      else { bits := wrapInt (etypeBytes dst) c, flags := flagInvalid } := by
  unfold convert
  simp [show src ≠ dst by omega, etypeIsFloat, hi, hs, Nat.not_le.mpr hj, h]

include hs in
theorem convert_int_bits (hi : 8 ≤ src) (hj : dst < 8) : ∃ z, (convert src dst mode b).bits = wrapInt (etypeBytes dst) z := by
  unfold convert
  simp only [show (src == dst) = false from beq_false_of_ne (by omega), etypeIsFloat, hi, hs, Nat.not_le.mpr hj, decide_true,
    decide_false, Bool.and_self, Bool.false_and, Bool.false_eq_true, if_false, if_true]
  split
  · exact ⟨0, by simp [wrapInt]⟩
  · exact ⟨_, rfl⟩
  · split
    · exact ⟨_, rfl⟩
    · exact ⟨_, rfl⟩

include hs hd hb in
theorem convert_lt : (convert src dst mode b).bits < 2 ^ (8 * etypeBytes dst) := by
  by_cases hi : src < 8
  · by_cases hj : dst < 8
    · by_cases h : src = dst
      · rw [convert_same_int h hi, ← h]
        exact hb
      · rw [convert_int_int h hi hj]
        exact wrapInt_lt _ _
    · rw [convert_int_float hd hi (by omega)]
      exact roundDyadic_lt (fmtOf_framed (by omega) hd) _ _ _ _
  · by_cases hj : dst < 8
    · obtain ⟨z, hz⟩ := convert_int_bits (mode := mode) (b := b) hs (by omega : 8 ≤ src) hj
      rw [hz]
      exact wrapInt_lt _ _
    · by_cases h : src = dst
      · rcases convert_same_float (mode := mode) (b := b) hs (by omega) h with h' | ⟨s, -, h'⟩
        · rw [h', ← h]
          exact hb
        · rw [h']
          exact quietNan_lt (fmtOf_framed (by omega) hd) s
      · rw [convert_float_float hs hd (by omega) (by omega) h]
        exact convToFloat_lt (fmtOf_framed (by omega) hd) _ _

end

theorem isNan_iff {v : FVal} : v.isNan = true ↔ ∃ s, v = .nan s := by
  cases v <;> simp [FVal.isNan]

/-- Table 3.2, row by row. -/
theorem conversion_rows {src dst mode b : Nat} (hs : src ≤ 0xD) (hd : dst ≤ 0xD) (hm : mode < 4)
    (hb : b < 2 ^ (8 * etypeBytes src)) :
    let r := convert src dst mode b
    let n := etypeBytes dst
    let signed := etypeSigned dst
    let v := intVal (etypeSigned src) (etypeBytes src) b
    let clamp := fun z : Int => max (intMin signed n) (min (intMax signed n) z)
    (src < 8 → dst < 8 → r = { bits := wrapInt n (clamp v), flags := 0 }) ∧
    (src < 8 → 8 ≤ dst → (fmtOf dst).RoundsTo mode v r) ∧
    (∀ q : ℚ, 8 ≤ src → (fmtOf src).Value b q →
      (8 ≤ dst → src ≠ dst → q ≠ 0 → (fmtOf dst).RoundsTo mode q r) ∧ (src = dst → r = { bits := b, flags := 0 }) ∧
      (dst < 8 → ∃ z : Int, RoundsToInt mode q z ∧ r.bits = wrapInt n (clamp z) ∧
        (clamp z = z → r.flags = if (z : ℚ) = q then 0 else flagInexact))) ∧
    (8 ≤ src → ((fmtOf src).decode b).isNan = true → r.bits = if dst < 8 then 0 else (fmtOf dst).nan) := by
  intro r n signed v clamp
  have hclamp : ∀ z, clampInt signed n z = clamp z := fun z => clampInt_eq signed n z
  refine ⟨fun hi hj => ?_, fun hi hj => ?_, fun q hi hq => ⟨fun hj hne hq0 => ?_, fun h => ?_, fun hj => ?_⟩, fun hi hnan => ?_⟩
  · rw [← hclamp]
    by_cases h : src = dst
    · subst h
      rw [clampInt_intVal (etypeBytes_width hs).pos hb, wrapInt_intVal hb]
      exact convert_same_int rfl hi
    · exact convert_int_int h hi hj
  · rw [show r = _ from convert_int_float hd hi hj]
    exact roundsTo_units (e := 0) (by rw [zpow_zero, mul_one])
  · obtain ⟨neg, mag, e, hdec, rfl⟩ := value_iff.mp hq
    have hmag : mag ≠ 0 := fun h => hq0 (finRat_eq_zero.mpr h)
    rw [show r = _ from convert_float_float hs hd hi hj hne, hdec]
    show (fmtOf dst).RoundsTo mode _ (if (mag == 0) = true then _ else _)
    rw [if_neg (by simpa using hmag)]
    exact roundsTo_roundDyadic (neg_eq_decide hmag) (abs_finRat neg mag e).symm
  · obtain ⟨neg, mag, e, hdec, -⟩ := value_iff.mp hq
    rcases convert_same_float (mode := mode) (b := b) hs hi h with h' | ⟨s, h', -⟩
    · exact h'
    · rw [hdec] at h'
      cases h'
  · obtain ⟨neg, mag, e, hdec, rfl⟩ := value_iff.mp hq
    obtain ⟨hz, hexact⟩ := roundToInt_spec hm neg mag e
    have hr := convert_fin_int (mode := mode) hs hi hj hdec
    refine ⟨(roundToInt mode neg mag e).1, hz, ?_, fun hc => ?_⟩
    · rw [← hclamp]
      refine (congrArg Rounded.bits hr).trans ?_
      split
      · next h => exact congrArg (wrapInt n) h.symm
      · rfl
    · rw [← hclamp] at hc
      refine (congrArg Rounded.flags hr).trans ?_
      rw [if_pos hc]
      by_cases h : (roundToInt mode neg mag e).2 = false
      · rw [if_pos (hexact.mp h), h]
        rfl
      · rw [if_neg (fun h' => h (hexact.mpr h')), Bool.eq_true_of_not_eq_false h]
        rfl
  · obtain ⟨s, hdec⟩ := isNan_iff.mp hnan
    by_cases hj : dst < 8
    · rw [if_pos hj]
      show (convert src dst mode b).bits = 0
      unfold convert
      simp [show src ≠ dst by omega, etypeIsFloat, hi, hs, Nat.not_le.mpr hj, hdec]
    · rw [if_neg hj]
      by_cases h : src = dst
      · subst h
        show (convert src src mode b).bits = _
        unfold convert
        simp [etypeIsFloat, etypeIsInt, hi, hs, Nat.not_lt.mpr hi, hdec, FpFmt.quietNan]
      · rw [show r = _ from convert_float_float hs hd hi (by omega) h, hdec]
        rfl

/-! #### Comparisons -/

/-- The value of an encoding that is not a NaN, among the extended reals. -/
noncomputable def FVal.value : FVal → EReal
  | .nan _ => 0
  | .inf neg => if neg then ⊥ else ⊤
  | .fin neg mag e => ((finRat neg mag e : ℝ) : EReal)

theorem extended_value {m : FpFmt} {b : Nat} {x : EReal} (h : m.Extended b x) :
    (m.decode b).isNan = false ∧ x = (m.decode b).value := by
  rcases h with ⟨q, ⟨neg, mag, e, hd, hq⟩, rfl⟩ | ⟨hd, rfl⟩ | ⟨hd, rfl⟩
  · rw [hd, hq]
    exact ⟨rfl, rfl⟩
  · rw [hd]
    exact ⟨rfl, rfl⟩
  · rw [hd]
    exact ⟨rfl, rfl⟩

theorem compares_int (a b : Int) : (compare a b).Compares a b := by
  rw [← cmp_eq_compare]
  exact cmp_compares a b

/-- An order of units is the order of the values. -/
theorem compares_units {o : Ordering} {a b : Int} (h : o.Compares a b) {p q : ℚ} {e : Int} (hp : (a : ℚ) * 2 ^ e = p)
    (hq : (b : ℚ) * 2 ^ e = q) : o.Compares ((p : ℝ) : EReal) ((q : ℝ) : EReal) := by
  have lt_of : ∀ {x y : Int}, x < y → (x : ℚ) * 2 ^ e < y * 2 ^ e := fun hxy =>
    mul_lt_mul_of_pos_right (by exact_mod_cast hxy) (two_zpow_pos e)
  subst hp hq
  cases o with
  | lt => exact EReal.coe_lt_coe_iff.mpr (Rat.cast_lt.mpr (lt_of h))
  | eq =>
    have h : a = b := h
    rw [h]
    rfl
  | gt => exact EReal.coe_lt_coe_iff.mpr (Rat.cast_lt.mpr (lt_of h))

theorem cmp_fin (n1 n2 : Bool) (m1 m2 : Nat) (e1 e2 : Int) :
    ((FVal.fin n1 m1 e1).cmp (.fin n2 m2 e2)).Compares (FVal.fin n1 m1 e1).value (FVal.fin n2 m2 e2).value := by
  have h := compares_int (finAt n1 m1 e1 (if e1 < e2 then e1 else e2)) (finAt n2 m2 e2 (if e1 < e2 then e1 else e2))
  exact compares_units h (finAt_eq (by split <;> omega)) (finAt_eq (by split <;> omega))

/-- Values that are no NaN compare as the extended reals they stand for. -/
theorem cmp_compares_value {v w : FVal} (hv : v.isNan = false) (hw : w.isNan = false) : (v.cmp w).Compares v.value w.value := by
  cases v with
  | nan s => cases hv
  | inf x =>
    cases w with
    | nan s => cases hw
    | inf y => cases x <;> cases y <;> simp [FVal.cmp, FVal.value, Ordering.Compares]
    | fin n m e => cases x <;> simp [FVal.cmp, FVal.value, Ordering.Compares, EReal.coe_lt_top, EReal.bot_lt_coe]
  | fin n m e =>
    cases w with
    | nan s => cases hw
    | inf y => cases y <;> simp [FVal.cmp, FVal.value, Ordering.Compares, EReal.coe_lt_top, EReal.bot_lt_coe]
    | fin n' m' e' => exact cmp_fin n n' m m' e e'

/-- Table 2.7: the condition mod names. -/
theorem condHolds_iff {α : Type} [LinearOrder α] {o : Ordering} {p q : α} (h : o.Compares p q) (mod : Nat) :
    condHolds mod o = true ↔ CondHolds mod p q := by
  cases o with
  | lt =>
    have h : p < q := h
    unfold condHolds CondHolds
    split <;> simp [h, h.ne, h.le, h.not_gt, h.not_ge]
  | eq =>
    have h : p = q := h
    subst h
    unfold condHolds CondHolds
    split <;> simp
  | gt =>
    have h : q < p := h
    unfold condHolds CondHolds
    split <;> simp [h, h.ne', h.le, h.not_gt, h.not_ge]

/-- The conditions of VCMP, and its flags. -/
theorem compare_rows {t mod a b : Nat} (ht : t ≤ 0xD) :
    let r := compareElem t mod a b
    let m := fmtOf t
    let x := m.decode a
    let y := m.decode b
    let v := intVal (etypeSigned t) (etypeBytes t)
    (t < 8 → (r.1 = true ↔ CondHolds mod (v a) (v b)) ∧ r.2 = 0) ∧
    (8 ≤ t → ∀ p q : EReal, m.Extended a p → m.Extended b q → (r.1 = true ↔ CondHolds mod p q) ∧ r.2 = 0) ∧
    (8 ≤ t → x.isNan = true ∨ y.isNan = true → (r.1 = true ↔ mod = 1 ∨ mod = 6) ∧
      r.2 = if x.isSnan = true ∨ y.isSnan = true ∨ (2 ≤ mod ∧ mod ≤ 5) then flagInvalid else 0) := by
  intro r m x y v
  refine ⟨fun hi => ?_, fun hi p q hp hq => ?_, fun hi hn => ?_⟩
  · have hr : r = (condHolds mod (compare (v a) (v b)), 0) := by
      show compareElem t mod a b = _
      unfold compareElem
      rw [etypeIsFloat_eq ht, decide_eq_false (by omega)]
      rfl
    rw [hr]
    exact ⟨condHolds_iff (compares_int _ _) mod, rfl⟩
  · obtain ⟨hx, rfl⟩ := extended_value hp
    obtain ⟨hy, rfl⟩ := extended_value hq
    have hr : r = (condHolds mod (x.cmp y), 0) := by
      show compareElem t mod a b = _
      unfold compareElem
      simp only [etypeIsFloat_eq ht, hi, decide_true, if_true]
      exact if_neg (by rw [show ((fmtOf t).decode a).isNan = false from hx, show ((fmtOf t).decode b).isNan = false from hy]; decide)
    rw [hr]
    exact ⟨condHolds_iff (cmp_compares_value hx hy) mod, rfl⟩
  · have hn : (x.isNan || y.isNan) = true := by simpa using hn
    have hr : r = (mod = 1 || mod = 6, if x.isSnan || y.isSnan || (2 ≤ mod && mod ≤ 5) then flagInvalid else 0) := by
      show compareElem t mod a b = _
      unfold compareElem
      simp only [etypeIsFloat_eq ht, hi, decide_true, if_true]
      rw [if_pos hn]
    rw [hr]
    simp [or_assoc]

/-! #### Dot products -/

/-- A finite value of a list by its sign, magnitude and exponent. -/
def finOf (x : Bool × Nat × Int) : FVal := .fin x.1 x.2.1 x.2.2

theorem leastExp_le (fs : List (Bool × Nat × Int)) : ∀ x ∈ fs, leastExp (fs.map finOf) ≤ x.2.2 := by
  have run : ∀ (fs : List (Bool × Nat × Int)) (a : Int),
      let r := (fs.map finOf).foldl (fun a v => match v with | .fin _ _ e => if e < a then e else a | _ => a) a
      r ≤ a ∧ ∀ x ∈ fs, r ≤ x.2.2 := by
    intro fs
    induction fs with
    | nil => exact fun a => ⟨le_refl a, fun x hx => absurd hx List.not_mem_nil⟩
    | cons x fs ih =>
      intro a
      obtain ⟨h1, h2⟩ := ih (if x.2.2 < a then x.2.2 else a)
      have ha : (if x.2.2 < a then x.2.2 else a) ≤ a := by split <;> omega
      have hx : (if x.2.2 < a then x.2.2 else a) ≤ x.2.2 := by split <;> omega
      exact ⟨h1.trans ha, List.forall_mem_cons.mpr ⟨h1.trans hx, h2⟩⟩
  exact (run fs 0).2

/-- The exact sum in units of the least exponent. -/
def sumAt (fs : List (Bool × Nat × Int)) (e0 : Int) : Int := (fs.map (fun x => finAt x.1 x.2.1 x.2.2 e0)).sum

theorem sumAt_eq {fs : List (Bool × Nat × Int)} {e0 : Int} (h : ∀ x ∈ fs, e0 ≤ x.2.2) :
    (sumAt fs e0 : ℚ) * 2 ^ e0 = (fs.map (fun x => finRat x.1 x.2.1 x.2.2)).sum := by
  induction fs with
  | nil => simp [sumAt]
  | cons x fs ih =>
    obtain ⟨hx, hfs⟩ := List.forall_mem_cons.mp h
    have := ih hfs
    unfold sumAt at this ⊢
    rw [List.map_cons, List.sum_cons, List.map_cons, List.sum_cons, ← this, Int.cast_add, add_mul, finAt_eq hx]

theorem foldl_sumAt {g : Int → FVal → Int} {e0 : Int} (hg : ∀ a n m e, g a (.fin n m e) = a + finAt n m e e0)
    (fs : List (Bool × Nat × Int)) (a : Int) : (fs.map finOf).foldl g a = a + sumAt fs e0 := by
  induction fs generalizing a with
  | nil => simp [sumAt]
  | cons x fs ih =>
    rw [List.map_cons, List.foldl_cons, ih, finOf, hg]
    unfold sumAt
    rw [List.map_cons, List.sum_cons, add_assoc]

theorem any_finOf {p : FVal → Bool} (h : ∀ n m e, p (.fin n m e) = false) (fs : List (Bool × Nat × Int)) :
    (fs.map finOf).any p = false := by
  rw [List.any_eq_false]
  intro v hv
  obtain ⟨x, -, rfl⟩ := List.mem_map.mp hv
  rw [finOf, h]
  decide

/-- R74: finite values are summed exactly and rounded once to nearest. -/
theorem sumVals_roundsTo (f : FpFmt) (fs : List (Bool × Nat × Int)) (invalid : Bool)
    (h : (fs.map (fun x => finRat x.1 x.2.1 x.2.2)).sum ≠ 0) :
    f.RoundsTo 0 (fs.map (fun x => finRat x.1 x.2.1 x.2.2)).sum (f.sumVals (fs.map finOf) invalid) := by
  have hsum := sumAt_eq (leastExp_le fs)
  have hne : sumAt fs (leastExp (fs.map finOf)) ≠ 0 := fun h0 => h ((units_eq_zero_iff hsum).mpr h0)
  have run : f.sumVals (fs.map finOf) invalid = f.roundDyadic 0 (sumAt fs (leastExp (fs.map finOf)) < 0)
      (sumAt fs (leastExp (fs.map finOf))).natAbs (leastExp (fs.map finOf)) := by
    unfold FpFmt.sumVals
    simp only [any_finOf (p := (·.isNan)) (fun _ _ _ => rfl), any_finOf (p := fun v => v = .inf false) (fun _ _ _ => rfl),
      any_finOf (p := fun v => v = .inf true) (fun _ _ _ => rfl), Bool.and_self, Bool.false_eq_true, if_false]
    rw [foldl_sumAt (e0 := leastExp (fs.map finOf)), zero_add, if_neg hne]
    exact fun _ _ _ _ => rfl
  rw [run]
  exact roundsTo_units hsum

theorem finRat_mul (n1 n2 : Bool) (m1 m2 : Nat) (e1 e2 : Int) :
    finRat (n1 != n2) (m1 * m2) (e1 + e2) = finRat n1 m1 e1 * finRat n2 m2 e2 := by
  unfold finRat
  rw [zpow_add₀ (by norm_num)]
  cases n1 <;> cases n2 <;> simp <;> ring

/-- The lane of VDOT4 over integers wraps at 32 bits. -/
theorem dotLane_int {t : Nat} (ht : t < 8) (prior a0 a1 a2 a3 b0 b1 b2 b3 : Nat) :
    let v := intVal (etypeSigned t) 1
    let r := dotLane t prior [a0, a1, a2, a3] [b0, b1, b2, b3]
    r.flags = 0 ∧ (r.bits : Int) = ((prior : Int) + v a0 * v b0 + v a1 * v b1 + v a2 * v b2 + v a3 * v b3) % 2 ^ 32 := by
  intro v r
  have hr : r = { bits := wrapInt 4 (intVal true 4 prior + (0 + v a0 * v b0 + v a1 * v b1 + v a2 * v b2 + v a3 * v b3)),
                  flags := 0 } := by
    show dotLane t _ _ _ = _
    unfold dotLane
    rw [etypeIsFloat_eq (by omega), decide_eq_false (by omega)]
    rfl
  rw [hr]
  refine ⟨rfl, ?_⟩
  have hp := intVal_modEq true 4 prior
  have hs := hp.add_right (0 + v a0 * v b0 + v a1 * v b1 + v a2 * v b2 + v a3 * v b3)
  have h0 : (0 : Int) ≤ (intVal true 4 prior + (0 + v a0 * v b0 + v a1 * v b1 + v a2 * v b2 + v a3 * v b3)) %
      ((2 ^ (8 * 4) : Nat) : Int) := Int.emod_nonneg _ (by norm_num)
  unfold wrapInt
  rw [Int.toNat_of_nonneg h0, hs]
  push_cast
  ring_nf

/-- The lane of VDOT4 over finite FP8 values. -/
theorem dotLane_float {t : Nat} (ht : 8 ≤ t) (ht' : t ≤ 0xD) {prior a0 a1 a2 a3 b0 b1 b2 b3 : Nat} {d x0 x1 x2 x3 y0 y1 y2 y3 : ℚ}
    (hd : (fmtOf 0xC).Value prior d)
    (hx0 : (fmtOf t).Value a0 x0) (hx1 : (fmtOf t).Value a1 x1) (hx2 : (fmtOf t).Value a2 x2) (hx3 : (fmtOf t).Value a3 x3)
    (hy0 : (fmtOf t).Value b0 y0) (hy1 : (fmtOf t).Value b1 y1) (hy2 : (fmtOf t).Value b2 y2) (hy3 : (fmtOf t).Value b3 y3)
    (h : d + x0 * y0 + x1 * y1 + x2 * y2 + x3 * y3 ≠ 0) :
    (fmtOf 0xC).RoundsTo 0 (d + x0 * y0 + x1 * y1 + x2 * y2 + x3 * y3)
      (dotLane t prior [a0, a1, a2, a3] [b0, b1, b2, b3]) := by
  obtain ⟨nd, md, ed, dd, rfl⟩ := value_iff.mp hd
  obtain ⟨n0, m0, e0, dx0, rfl⟩ := value_iff.mp hx0
  obtain ⟨n1, m1, e1, dx1, rfl⟩ := value_iff.mp hx1
  obtain ⟨n2, m2, e2, dx2, rfl⟩ := value_iff.mp hx2
  obtain ⟨n3, m3, e3, dx3, rfl⟩ := value_iff.mp hx3
  obtain ⟨k0, l0, g0, dy0, rfl⟩ := value_iff.mp hy0
  obtain ⟨k1, l1, g1, dy1, rfl⟩ := value_iff.mp hy1
  obtain ⟨k2, l2, g2, dy2, rfl⟩ := value_iff.mp hy2
  obtain ⟨k3, l3, g3, dy3, rfl⟩ := value_iff.mp hy3
  obtain ⟨invalid, run⟩ : ∃ invalid, dotLane t prior [a0, a1, a2, a3] [b0, b1, b2, b3] = (fmtOf 0xC).sumVals
      ([(nd, md, ed), (n0 != k0, m0 * l0, e0 + g0), (n1 != k1, m1 * l1, e1 + g1), (n2 != k2, m2 * l2, e2 + g2),
        (n3 != k3, m3 * l3, e3 + g3)].map finOf) invalid := by
    unfold dotLane
    rw [etypeIsFloat_eq ht', decide_eq_true ht]
    simp only [if_true, List.zip_cons_cons, List.zip_nil_right, List.map_cons, List.map_nil, dd, dx0, dx1, dx2, dx3, dy0, dy1,
      dy2, dy3]
    exact ⟨_, rfl⟩
  have hsum := sumVals_roundsTo (fmtOf 0xC) [(nd, md, ed), (n0 != k0, m0 * l0, e0 + g0), (n1 != k1, m1 * l1, e1 + g1),
    (n2 != k2, m2 * l2, e2 + g2), (n3 != k3, m3 * l3, e3 + g3)] invalid
  rw [← run] at hsum
  simp only [List.map_cons, List.map_nil, List.sum_cons, List.sum_nil, add_zero, finRat_mul, ← add_assoc] at hsum
  exact hsum h

theorem dotLane_lt (t prior : Nat) (a b : List Nat) : (dotLane t prior a b).bits < 2 ^ (8 * 4) := by
  unfold dotLane
  split
  · exact sumVals_lt (w := 4) (fmtOf_framed (t := 0xC) (by decide) (by decide)) _ _
  · exact wrapInt_lt 4 _

/-! #### The words -/

section
variable {c : CoreId} {f : VR} {w : Companions} {s : State}

theorem vdot4_writes (ht : f.etype.toNat ∈ [0x0, 0x1, 0x8, 0x9]) (hm : f.mod = 0) :
    let k := s.core c
    let a := fun j i => lane 1 (k.getW f.wa) (4 * j + i)
    let b := fun j i => lane 1 (k.getW f.wb) (4 * j + i)
    let four := fun x : Nat → Nat => [x 0, x 1, x 2, x 3]
    let r := fun j => dotLane f.etype.toNat (lane 4 (k.getW f.wd) j) (four (a j)) (four (b j))
    WritesLanes 1 (.vdot4 c f w) c f 4 (fun j => (r j).bits) (fun j => (r j).flags) w s := by
  intro k a b four r
  have legal : ([0x0, 0x1, 0x8, 0x9] : List (BitVec 4)).contains f.etype = true := by
    simp only [List.mem_cons, List.not_mem_nil, or_false] at ht
    simp only [List.contains_eq_mem, List.mem_cons, List.not_mem_nil, or_false, decide_eq_true_eq, ← BitVec.toNat_inj]
    exact ht
  refine writesLanes_of (g := r) (.inr (.inr (.inl rfl))) rfl (by decide) (slotVdot4_fits f) rfl
    ⟨by simp only [slotVdot4, legal, hm, decide_true, Bool.and_self], nofun, rfl, rfl⟩ (fun j _ _ => ?_) (fun _ _ _ => rfl)
  exact Nat.mod_eq_of_lt (dotLane_lt _ _ _ _)

theorem vcvt_runs (hs : f.etype.toNat ≤ 0xD) (hd : f.wb.toNat ≤ 0xD)
    (hm : f.mod.toNat < if f.width < etypeBytes f.wb.toNat then etypeBytes f.wb.toNat / f.width else 5) :
    SlotRuns s c (slotVcvt f) ((ctxOf s c).vecOutR f (etypeBytes f.wb.toNat) (fun i =>
      if f.width < etypeBytes f.wb.toNat then
        convert f.etype.toNat f.wb.toNat (s.core c).fpctl.toNat
          (lane f.width ((s.core c).getW f.wa) (f.mod.toNat * laneCount (etypeBytes f.wb.toNat) + i))
      else if laneCount f.width ≤ i then { bits := 0, flags := 0 }
      else convert f.etype.toNat f.wb.toNat (if f.mod = 0 then (s.core c).fpctl.toNat else f.mod.toNat - 1)
        (lane f.width ((s.core c).getW f.wa) i))) := by
  have hmod : f.wb.toNat % 16 = f.wb.toNat := Nat.mod_eq_of_lt (by omega)
  refine ⟨?_, nofun, ?_, rfl⟩
  · unfold slotVcvt
    simp only [hmod, etypeAny, hs, hd, decide_true, Bool.true_and, Bool.and_true, decide_eq_true (show f.wb.toNat < 16 by omega),
      decide_eq_true_eq]
    exact hm
  · unfold slotVcvt
    simp only [hmod]
    refine congrArg (fun g => Except.ok (Ctx.vecOutR _ f (etypeBytes f.wb.toNat) g)) (funext fun i => ?_)
    by_cases h : f.width < etypeBytes f.wb.toNat
    · simp [h, Ctx.mode]
    · by_cases hi : laneCount f.width ≤ i
      · simp [h, hi]
      · simp [h, hi, Ctx.mode]

/-- Fewer elements of a type are wider ones. -/
theorem Width.lanes_lt_iff {a b : Nat} (ha : Width a) (hb : Width b) : 512 / b < 512 / a ↔ a < b := by
  rcases ha with rfl | rfl | rfl | rfl <;> rcases hb with rfl | rfl | rfl | rfl <;> decide

theorem Width.lanes_div {a b : Nat} (ha : Width a) (hb : Width b) (h : a < b) : 512 / a / (512 / b) = b / a := by
  rcases ha with rfl | rfl | rfl | rfl <;> rcases hb with rfl | rfl | rfl | rfl <;> omega

theorem vcvt_writes (hs : f.etype.toNat ≤ 0xD) (hd : f.wb.toNat ≤ 0xD) :
    let k := s.core c
    let src := f.etype.toNat
    let dst := f.wb.toNat
    let es := 512 / etypeBytes src
    let ed := 512 / etypeBytes dst
    let m := f.mod.toNat
    let a := lane (etypeBytes src) (k.getW f.wa)
    (ed < es → m < es / ed →
      WritesLanes 2 (.vcvt c f w) c f (etypeBytes dst)
        (fun i => (convert src dst k.fpctl.toNat (a (m * ed + i))).bits)
        (fun i => (convert src dst k.fpctl.toNat (a (m * ed + i))).flags) w s) ∧
    (es ≤ ed → m < 5 →
      let r := if m = 0 then k.fpctl.toNat else m - 1
      WritesLanes 2 (.vcvt c f w) c f (etypeBytes dst)
        (fun i => if i < es then (convert src dst r (a i)).bits else 0)
        (fun i => if i < es then (convert src dst r (a i)).flags else 0) w s) := by
  intro k src dst es ed m a
  have ws := etypeBytes_width hs
  have wt := etypeBytes_width hd
  have fits := fun mode i => Nat.mod_eq_of_lt (convert_lt (mode := mode) (b := a i) hs hd (lane_lt _ _ _))
  have wider : ed < es ↔ f.width < etypeBytes f.wb.toNat := ws.lanes_lt_iff wt
  refine ⟨fun h hm => ?_, fun h hm => ?_⟩
  · have hlt := wider.mp h
    have run := vcvt_runs (c := c) (s := s) hs hd (by
      rw [if_pos hlt]
      exact (ws.lanes_div wt hlt) ▸ hm)
    simp only [if_pos hlt] at run
    exact writesLanes_of wt rfl (by decide) (slotVcvt_fits f) rfl run (fun j _ _ => fits _ _) (fun _ _ _ => rfl)
  · have hnlt : ¬ f.width < etypeBytes f.wb.toNat := fun h' => absurd (wider.mpr h') (Nat.not_lt.mpr h)
    have run := vcvt_runs (c := c) (s := s) hs hd (by rw [if_neg hnlt]; exact hm)
    simp only [if_neg hnlt, show laneCount f.width = es from rfl] at run
    intro r
    have hr : (if f.mod = 0 then (s.core c).fpctl.toNat else f.mod.toNat - 1) = r := by
      show _ = if f.mod.toNat = 0 then _ else _
      simp only [← BitVec.toNat_inj]
      rfl
    rw [hr] at run
    refine writesLanes_of wt rfl (by decide) (slotVcvt_fits f) rfl run (fun j _ _ => ?_) (fun j _ _ => ?_)
    · by_cases hj : j < es
      · rw [if_neg (Nat.not_le.mpr hj), if_pos hj]
        exact fits _ _
      · rw [if_pos (Nat.not_lt.mp hj), if_neg hj]
        exact Nat.zero_mod _
    · by_cases hj : j < es
      · rw [if_neg (Nat.not_le.mpr hj), if_pos hj]
        rfl
      · rw [if_pos (Nat.not_lt.mp hj), if_neg hj]

end

/-- Settles O11: the rows of Table 3.2, of VDOT4, of VCMP and of the predicates, each with its word. -/
theorem conversionsAndPredicates : Obligations.ConversionsAndPredicates := by
  refine ⟨fun c f w s hs hd => vcvt_writes hs hd, fun src dst mode b hs hd hm hb => conversion_rows hs hd hm hb,
    fun c f w s ht hm => ?_, fun c f w s he hm hd => vcmp_writes he hm hd, fun t mod a b ht _ => compare_rows ht,
    fun c f w s he hm hp hz ha => predicate_rows he hm hp hz ha, fun c f w s he hm hp hz hd hb => plen_writes he hm hp hz hd hb⟩
  refine ⟨vdot4_writes ht hm, fun hi j => dotLane_int hi _ _ _ _ _ _ _ _ _, fun hi j d x y hd hxy => ?_⟩
  have hle : f.etype.toNat ≤ 0xD := by
    simp only [List.mem_cons, List.not_mem_nil, or_false] at ht
    omega
  exact dotLane_float hi hle hd (hxy 0 (by decide)).1 (hxy 1 (by decide)).1 (hxy 2 (by decide)).1 (hxy 3 (by decide)).1
    (hxy 0 (by decide)).2 (hxy 1 (by decide)).2 (hxy 2 (by decide)).2 (hxy 3 (by decide)).2

end Sys2Proof.Machine

/-! ### The item store in recovery mode (R277, Table 14.6)

In recovery mode the model's item store lies in the die region of the recovery Vat (`State.dieShift`), while `StoreOk`
names its place in the first die region. An item's store to the place it has there raises ACCESS_FAULT though `StoreOk` holds. -/

namespace Sys2Proof.Machine

open Sys2Proof

theorem companions_done {s : State} {c : CoreId} {ms : List Meaning} {es : List Effect} (h : List.Forall₂ (SlotRuns s c) ms es) :
    ∀ m ∈ ms, SlotMay s c m ∧ ∃ e, m.run (ctxOf s c) = .ok e := by
  induction h with
  | nil => exact fun m hm => absurd hm List.not_mem_nil
  | @cons m e ms es hr _ ih => exact List.forall_mem_cons.mpr ⟨⟨⟨hr.legal, hr.mode⟩, e, hr.run⟩, ih⟩

/-- A word of an item whose slot 3 faults ends the item, whatever its other slots do (R59). -/
theorem slot3_fault_ends {i : Instr} {c : CoreId} {m : Meaning} {w : Companions} {s : State} {es : List Effect} {code : BitVec 16}
    {trap : Option (BitVec 10)} {fa : Option (BitVec 64)} (hi : exec i s = runWord c 3 m w s) (ho : OthersRun 3 m.dests c w s es)
    (hm : SlotMay s c m) (hr : m.run (ctxOf s c) = .error (.exc code trap fa)) (hf : (s.core c).firmware = false)
    (hp : (s.core c).preempted = none) : ∃ t, exec i s = .next t ∧ (t.core c).active = false := by
  have slots : wordSlots 3 m w = companionsOf 3 w ++ [m] := rfl
  have clash : destsClash (wordSlots 3 m w) = false :=
    noClash (by rw [slots, List.flatMap_append, List.flatMap_singleton]; exact ho.dests)
  have stop := evalSlots_stop (s := s) (c := c) 3 (wordSlots 3 m w) 0 rfl
    (fun b hb => companions_done ho.runs b (by exact hb)) (stops_of_run hm hr)
  refine ⟨_, hi.trans (runWord_exc ho.commits clash stop), ?_⟩
  have hcore : (s.faulted c code fa).core c = { s.stalled c with epc := (s.core c).pc } := by rw [core_faulted, if_pos rfl]
  rw [exception_item hf, core_of_cores (itemEnd_cores (by rw [hcore]; exact hp) code), core_setCore, if_pos rfl]
  rfl

/-- A store into the item store faults in item mode. -/
theorem access_itemStore {t : Ctx} {a n align : Nat} (h : a % align = 0) (hp : t.s.plainRange a n = true)
    (hs : t.s.inItemStore a n = true) (hf : t.k.firmware = false) : t.access true a n align = some (excAt 0x0106 a) := by
  unfold Ctx.access
  simp [h, hp, hs, hf]

/-- The item store of a module whose recovery Vat lies in die 1. -/
def recoveryStore : Nat := dieBytes + itemStoreBase

/-- A core that runs an item there, and has its place in X2. -/
def recoveryCore : Core :=
  { Core.reset with active := true, pc := BitVec.ofNat 64 dieBytes, x := Core.reset.x.set 2 (BitVec.ofNat 64 recoveryStore) }

/-- Recovery mode on a Vat of die 1. -/
def recoveryState (k : Core) : State :=
  { State.reset with cores := [(0, k)], rst := { State.reset.rst with boot := .recovery, recoveryVat := 0x10 } }

/-- Empty slots 0 to 2 complete beside any slot 3. -/
theorem othersRun3_empty {s : State} {c : CoreId} (h : Commits s c) {ds : List Dest} (hd : (ds.filter (· ≠ .x 0)).Nodup) :
    OthersRun 3 ds c ⟨0, 0, 0⟩ s [{}, {}, {}] :=
  ⟨h, .cons ⟨rfl, nofun, rfl, rfl⟩ (.cons ⟨rfl, nofun, rfl, rfl⟩ (.cons ⟨rfl, nofun, rfl, rfl⟩ .nil)), hd⟩

/-! #### Atomics -/

/-- AMOADD of 4 bytes at the address in X2. -/
def recoveryAmo : MX := { rd := 1, rs1 := 2, rs2 := 0, func := 2 }

theorem recoveryCore_addr : (recoveryCore.getX 2).toNat = recoveryStore := by decide

theorem commits_recovery : Commits (recoveryState recoveryCore) ⟨0, 0⟩ := ⟨rfl, rfl, rfl, by decide⟩

theorem recovery_accessOk : AccessOk (recoveryState recoveryCore) recoveryStore 4 4 := ⟨by decide, by decide⟩

theorem recovery_inItemStore : (recoveryState recoveryCore).inItemStore recoveryStore 4 = true := by decide

theorem recovery_amo_faults : (slotAmoadd recoveryAmo).run (ctxOf (recoveryState recoveryCore) ⟨0, 0⟩) =
    .error (excAt 0x0106 recoveryStore) := by
  have stop := access_itemStore (t := ctxOf (recoveryState recoveryCore) ⟨0, 0⟩) (n := 4) (align := 4) recovery_accessOk.1
    recovery_accessOk.2 recovery_inItemStore rfl
  have addr : ((ctxOf (recoveryState recoveryCore) ⟨0, 0⟩).k.getX recoveryAmo.rs1).toNat = recoveryStore := recoveryCore_addr
  have width : amoWidth recoveryAmo = 4 := by decide
  unfold slotAmoadd amoOp Ctx.atomic
  simp only [width, addr, stop]

/-- Refutes O17: in recovery mode on a Vat of die 1, an item's AMOADD at the place the item store has there raises
ACCESS_FAULT, and the item ends. -/
theorem not_atomicOperations : ¬ Obligations.AtomicOperations := by
  intro h
  have others := othersRun3_empty commits_recovery (ds := [.x recoveryAmo.rd]) (by decide)
  have addr : (((recoveryState recoveryCore).core ⟨0, 0⟩).getX recoveryAmo.rs1).toNat = recoveryStore := recoveryCore_addr
  have claim := h.1 ⟨0, 0⟩ recoveryAmo ⟨0, 0, 0⟩ (recoveryState recoveryCore) (.inl rfl)
  obtain ⟨amoadd, -⟩ := claim (by rw [addr]; exact recovery_accessOk) (by rw [addr]; exact .inr (by decide)) (by rw [addr]; decide)
  obtain ⟨t, ht, hw, -⟩ := amoadd _ others
  obtain ⟨u, hu, hend⟩ := slot3_fault_ends (i := .amoadd ⟨0, 0⟩ recoveryAmo ⟨0, 0, 0⟩) (m := slotAmoadd recoveryAmo)
    rfl others ⟨rfl, nofun⟩ recovery_amo_faults rfl rfl
  cases ht.symm.trans hu
  exact absurd (hend.symm.trans hw.item.1) (by decide)

/-! #### Streams -/

/-- A writable tensor of one INT8 element, which lies at the first byte of the item store. -/
def recoveryTensor : BitVec 512 := 0x09000000000000000000000000000000000000000000000000000000000000000000000000000000000000000001000000010000009602F90000

/-- A core with a write stream bound to it, whose predicate 0 selects element 0. -/
def recoveryWriter : Core :=
  { recoveryCore with
    p := Core.reset.p.set 0 1, st := Core.reset.st.set 0 { Stream.unbound with bound := true, write := true, image := recoveryTensor } }

def recoverySwrite : MS := { sn := 0, reg := 0, pg := 0, imm14 := 0 }

theorem recovery_swrite_faults : (slotSwrite recoverySwrite).run (ctxOf (recoveryState recoveryWriter) ⟨0, 0⟩) =
    .error (excAt 0x0106 recoveryStore) := by decide +kernel

theorem commits_recoveryWriter : Commits (recoveryState recoveryWriter) ⟨0, 0⟩ := ⟨rfl, rfl, rfl, by decide⟩

/-- Refutes O16: in recovery mode on a Vat of die 1, an item's SWRITE of the one element of a tensor that lies where the item
store is there raises ACCESS_FAULT, and the item ends. -/
theorem not_streams : ¬ Obligations.Streams := by
  intro h
  have others := othersRun3_empty commits_recoveryWriter (ds := []) (by decide)
  have swrite := (h.2.2.1 ⟨0, 0⟩ recoverySwrite ⟨0, 0, 0⟩ (recoveryState recoveryWriter) rfl (by decide +kernel)
    (by decide +kernel) (by decide +kernel)).2 (by decide +kernel) (by decide +kernel) (by decide +kernel) (fun i hi => by
      obtain rfl : i = 0 := Nat.lt_one_iff.mp (hi.trans_eq (by decide +kernel))
      exact ⟨⟨by decide +kernel, by decide +kernel⟩, .inr (by decide +kernel)⟩)
  obtain ⟨t, ht, hw, -⟩ := swrite _ others
  obtain ⟨u, hu, hend⟩ := slot3_fault_ends (i := .swrite ⟨0, 0⟩ recoverySwrite ⟨0, 0, 0⟩) (m := slotSwrite recoverySwrite)
    rfl others ⟨rfl, nofun⟩ recovery_swrite_faults rfl rfl
  cases ht.symm.trans hu
  exact absurd (hend.symm.trans hw.item.1) (by decide)

end Sys2Proof.Machine

/-! ### Slot 3: the memory a word's loads leave (Table 2.8, R51) -/

namespace Sys2Proof.Machine

open Sys2Proof

/-! #### Reads of lines keep every byte -/

/-- Reads by a core of a Vat: copies of lines may have come into the Vat's caches, and nothing else has changed. -/
structure Reads (v : BitVec 6) (s t : State) : Prop where
  bytes  : t.mem.bytes = s.mem.bytes
  others : t.mem.l2.filter (fun l => l.vat ≠ v) = s.mem.l2.filter (fun l => l.vat ≠ v)
  seen   : ∀ a, t.seenByte v a = s.seenByte v a
  ports  : t.ports = s.ports
  units  : t.units = s.units
  free   : t.free = s.free

theorem Reads.refl (v : BitVec 6) (s : State) : Reads v s s := ⟨rfl, rfl, fun _ => rfl, rfl, rfl, rfl⟩

theorem Reads.trans {v : BitVec 6} {s t u : State} (h : Reads v s t) (g : Reads v t u) : Reads v s u :=
  ⟨g.bytes.trans h.bytes, g.others.trans h.others, fun a => (g.seen a).trans (h.seen a), g.ports.trans h.ports,
    g.units.trans h.units, g.free.trans h.free⟩

theorem Reads.foldl {β : Type} {v : BitVec 6} {f : State → β → State} (h : ∀ s b, Reads v s (f s b)) (l : List β) (s : State) :
    Reads v s (l.foldl f s) := by
  induction l generalizing s with
  | nil => exact .refl v s
  | cons b l ih => exact (h s b).trans (ih _)

theorem putLine_others (s : State) (v : BitVec 6) (n : Nat) (d x) :
    (s.putLine v n d x).mem.l2.filter (fun l => l.vat ≠ v) = s.mem.l2.filter (fun l => l.vat ≠ v) := by
  refine (List.filter_cons_of_neg (by simp)).trans ?_
  unfold l2Drop
  rw [List.filter_filter]
  refine List.filter_congr (fun l _ => ?_)
  by_cases h : l.vat = v <;> simp [h]

theorem touchLine_reads (s : State) (v : BitVec 6) (n : Nat) : Reads v s (s.touchLine v n) :=
  ⟨rfl, putLine_others s v n _ _, seenByte_touchLine s v n, rfl, rfl, rfl⟩

theorem touch_reads (s : State) (c : CoreId) (ls : List Nat) : Reads c.vat s (s.act c (.touch ls)) :=
  Reads.foldl (fun s n => touchLine_reads s c.vat n) ls s

/-- The action reads lines only. -/
def Act.isTouch : Act → Bool
  | .touch _ => true
  | _ => false

theorem acts_reads {c : CoreId} {acts : List Act} (h : ∀ a ∈ acts, a.isTouch = true) (s : State) :
    Reads c.vat s (acts.foldl (fun s a => s.act c a) s) := by
  induction acts generalizing s with
  | nil => exact .refl _ s
  | cons a acts ih =>
    obtain ⟨ha, hacts⟩ := List.forall_mem_cons.mp h
    cases a with
    | touch ls => exact (touch_reads s c ls).trans (ih hacts _)
    | _ => cases ha

theorem noteStores_of_none {c : CoreId} {acts : List Act} (h : ∀ a ∈ acts, a.stored = []) (s : State) :
    s.noteStores c acts = s := by
  unfold State.noteStores
  simp [List.flatMap_eq_nil_iff.mpr h]

theorem stored_of_isTouch {a : Act} (h : a.isTouch = true) : a.stored = [] := by
  cases a with
  | touch ls => rfl
  | _ => cases h

/-- What a Vat sees depends on memory and on the choice of replaced lines alone. -/
theorem seenByte_congr {s t : State} (hm : t.mem.bytes = s.mem.bytes) (hl : t.mem.l2 = s.mem.l2) (hf : t.free = s.free)
    (v : BitVec 6) (a : Nat) : t.seenByte v a = s.seenByte v a := by
  have line : ∀ n, t.mem.line n = s.mem.line n := by
    intro n
    have read : ∀ m a, t.mem.read a m = s.mem.read a m := by
      intro m
      induction m with
      | zero => exact fun _ => rfl
      | succ m ih =>
        intro a
        rw [Memory.read, Memory.read, ih, Memory.byte, Memory.byte, hm]
    unfold Memory.line
    rw [read]
  unfold State.seenByte State.seenLine State.belowLine
  rw [hl, hf, line]

/-! #### Words of slot 3 -/

/-- Slots 0 to 2 do nothing beside registers (Table 2.8 alone has loads, stores, streams and tickets). -/
theorem companions_quiet {c : CoreId} {w : Companions} {s : State} {ds : List Dest} {es : List Effect}
    (h : OthersRun 3 ds c w s es) : es.length = 3 ∧ ∀ e ∈ es, e.acts = [] ∧ e.ticket = none ∧ e.stream = none := by
  have hr : List.Forall₂ (SlotRuns s c) [slotMeaning0 w.o1, slotMeaning1 w.o2, slotMeaning2 w.o3] es := h.runs
  rcases hr with _ | @⟨_, e0, _, _, r0, hr⟩
  rcases hr with _ | @⟨_, e1, _, _, r1, hr⟩
  rcases hr with _ | @⟨_, e2, _, _, r2, hr⟩
  rcases hr with _ | _
  obtain ⟨a0, b0, c0⟩ := (slotMeaning0_fits w.o1 _ _ r0.run).three.resolve_left (by decide)
  obtain ⟨a1, b1, c1⟩ := (slotMeaning1_fits w.o2 _ _ r1.run).three.resolve_left (by decide)
  obtain ⟨a2, b2, c2⟩ := (slotMeaning2_fits w.o3 _ _ r2.run).three.resolve_left (by decide)
  exact ⟨rfl, by simp [a0, a1, a2, b0, b1, b2, c0, c1, c2]⟩

section
variable {i : Instr} {c : CoreId} {m : Meaning} {w : Companions} {s : State} {e : Effect}

/-- A word whose slot 3 completes: registers as all four slots leave them, and the actions of slot 3 on the rest. -/
theorem slot3_completes (hi : exec i s = runWord c 3 m w s) (hf : Fits 3 m) (hm : SlotRuns s c m e) {es : List Effect}
    (ho : OthersRun 3 m.dests c w s es) : ∃ t k, exec i s = .next t ∧ Written (s.core c) (t.core c) (e :: es) ∧
      SameOutside c s t ∧ t = (e.acts.foldl (fun s a => s.act c a) ((s.noteStores c e.acts).setCore c k)).drawn := by
  obtain ⟨t, hrun, ht, hw, hs, -⟩ := runWord_completes (by decide) hf hm ho
  obtain ⟨hlen, hquiet⟩ := companions_quiet ho
  have hdone : (slotOrder 3 e es).findSome? (·.done) = none := List.findSome?_eq_none_iff.mpr (fun x hx => by
    rcases List.mem_cons.mp ((slotOrder_perm 3 e es).mem_iff.mp hx) with rfl | hx
    · exact hm.goes
    · exact othersRun_done ho x hx)
  have hacts : (slotOrder 3 e es).flatMap (·.acts) = e.acts := by
    have hes : es.flatMap (·.acts) = [] := List.flatMap_eq_nil_iff.mpr (fun x hx => (hquiet x hx).1)
    unfold slotOrder
    rw [List.take_of_length_le (by omega), List.drop_eq_nil_of_le (by omega), List.flatMap_append, hes]
    simp
  refine ⟨t, s.wordCore c (slotOrder 3 e es), hi.trans hrun, hw, hs, ?_⟩
  rw [ht, commit_plain hdone, State.wordDone, hacts]

/-- A slot that only reads: the word completes with the effect, and no byte of memory changes. -/
theorem loadsInto_of (hi : exec i s = runWord c 3 m w s) (hf : Fits 3 m) (hm : SlotRuns s c m e)
    (ha : ∀ a ∈ e.acts, a.isTouch = true) {ds : List Dest} (hd : m.dests = ds) {own : Effect}
    (he : { e with lines := 0, other := false, acts := [] } = own) : LoadsInto ds own i c w s := by
  subst hd he
  intro es ho
  obtain ⟨t, k, hx, hw, hs, rfl⟩ := slot3_completes hi hf hm ho
  rw [noteStores_of_none (fun a h => stored_of_isTouch (ha a h))] at hx hw hs
  have reads := acts_reads (c := c) ha (s.setCore c k)
  refine ⟨_, hx, hw.plain 0 false [], hs, reads.ports, reads.units, reads.bytes, reads.others, fun a _ => ?_⟩
  have drawn := seenByte_congr (s := e.acts.foldl (fun s a => s.act c a) (s.setCore c k))
    (t := { (e.acts.foldl (fun s a => s.act c a) (s.setCore c k)).drawn with free := s.free }) rfl rfl reads.free.symm c.vat a
  exact drawn.trans (reads.seen a)

end

/-! #### Addresses -/

/-- Ordinary memory is Tier A or Tier B. -/
theorem plain_region {s : State} {a : Nat} (h : s.plain a = true) : s.region a = .tierA ∨ s.region a = .tierB := by
  unfold State.plain at h
  cases hr : s.region a with
  | tierA => exact .inl rfl
  | tierB => exact .inr rfl
  | _ => rw [hr] at h; cases h

/-- Ordinary memory lies below control space (Table 12.1). -/
theorem plain_lt {s : State} {a : Nat} (h : s.plain a = true) : a < controlBase := by
  by_contra hc
  unfold controlBase at hc
  have h1 : ¬ a < tierAEnd := by unfold tierAEnd; omega
  have h2 : ¬ a < 0x0C0000000000 := by omega
  have hr := plain_region h
  unfold State.region at hr
  rw [if_neg h1, if_neg (by simp [h2])] at hr
  split_ifs at hr <;> simp at hr

end Sys2Proof.Machine

/-! ### Loads (Table 2.8, R51) -/

namespace Sys2Proof.Machine

open Sys2Proof

/-! #### The bytes a load delivers -/

theorem offsetAddr_eq (base : BitVec 64) (off : Int) (unit : Nat) :
    offsetAddr base off unit = BitVec.ofInt 64 (base.toNat + off * unit) := by
  rw [BitVec.ofInt_add, BitVec.ofInt_natCast, BitVec.ofNat_toNat, BitVec.setWidth_eq]
  rfl

theorem bytesAt_plain {t : Ctx} {a n : Nat} (h : t.s.plainRange a n = true) : t.bytesAt a n = t.s.seen t.c.vat a n := by
  cases n with
  | zero => unfold Ctx.bytesAt; split <;> rfl
  | succ n =>
    have hp : t.s.plain a = true := by simp [State.plainRange] at h; exact h.1.1
    exact if_pos (plain_lt hp)

section
variable {s : State} {c : CoreId} {a n al : Nat}

theorem load_ok (ha : AccessOk s a n al) (hp : (ctxOf s c).poisoned a n = false) :
    (ctxOf s c).load a n al = .ok (s.seen c.vat a n) := by
  obtain ⟨halign, hplain⟩ := ha
  have access : (ctxOf s c).access false a n al = none := by simp [Ctx.access, ctxOf, halign, hplain]
  unfold Ctx.load
  rw [access]
  exact (if_neg (by simp [hp])).trans (congrArg _ (bytesAt_plain hplain))

theorem loadEffect_ok (ha : AccessOk s a n al) (hp : (ctxOf s c).poisoned a n = false) (g : Bytes → Effect) :
    (ctxOf s c).loadEffect a n al g =
      .ok { g (s.seen c.vat a n) with acts := (ctxOf s c).loadAct a n, lines := lineSpan a n } := by
  unfold Ctx.loadEffect
  rw [load_ok ha hp]

theorem loadAct_isTouch (t : Ctx) (a n : Nat) : ∀ x ∈ t.loadAct a n, x.isTouch = true := by
  unfold Ctx.loadAct
  split <;> simp [Act.isTouch]

/-- A word whose slot 3 is a load of one range. -/
theorem loadsInto_load {i : Instr} {m : Meaning} {w : Companions} {g : Bytes → Effect} (hi : exec i s = runWord c 3 m w s)
    (hf : Fits 3 m) (hl : m.legal (s.core c) = true) (hm : m.privileged = false)
    (hr : m.run (ctxOf s c) = (ctxOf s c).loadEffect a n al g) (ha : AccessOk s a n al)
    (hp : (ctxOf s c).poisoned a n = false) (hd : (g (s.seen c.vat a n)).done = none) {ds : List Dest} (hds : m.dests = ds)
    {own : Effect} (he : { g (s.seen c.vat a n) with lines := 0, other := false, acts := [] } = own) :
    LoadsInto ds own i c w s :=
  loadsInto_of (e := { g (s.seen c.vat a n) with acts := (ctxOf s c).loadAct a n, lines := lineSpan a n }) hi hf
    ⟨hl, fun h => absurd (hm.symm.trans h) nofun, hr.trans (loadEffect_ok ha hp g), hd⟩ (loadAct_isTouch _ a n) hds he

end

/-! #### Bytes as numbers -/

theorem seen_length (s : State) (v : BitVec 6) (a n : Nat) : (s.seen v a n).length = n := by
  induction n generalizing a with
  | zero => rfl
  | succ n ih => rw [State.seen, List.length_cons, ih]

theorem seen_getElem? (s : State) (v : BitVec 6) (a : Nat) {n i : Nat} (h : i < n) :
    (s.seen v a n)[i]? = some (s.seenByte v (a + i)) := by
  induction n generalizing a i with
  | zero => omega
  | succ n ih =>
    cases i with
    | zero => rfl
    | succ i => rw [State.seen, List.getElem?_cons_succ, ih (a + 1) (by omega), Nat.add_right_comm, Nat.add_assoc]

theorem seen_slice (s : State) (v : BitVec 6) (a : Nat) {m off n : Nat} (h : off + n ≤ m) :
    ((s.seen v a m).drop off).take n = s.seen v (a + off) n := by
  refine List.ext_getElem? (fun i => ?_)
  rw [List.getElem?_take, List.getElem?_drop]
  by_cases hi : i < n
  · rw [if_pos hi, seen_getElem? s v a (by omega), seen_getElem? s v (a + off) hi, Nat.add_assoc]
  · rw [if_neg hi, List.getElem?_eq_none (by rw [seen_length]; omega)]

theorem fieldAt_seen (s : State) (v : BitVec 6) (a : Nat) {m off n : Nat} (h : off + n ≤ m) :
    fieldAt (s.seen v a m) off n = leVal (s.seen v (a + off) n) := by
  unfold fieldAt
  rw [seen_slice s v a h]

theorem leVal_seen_lt (s : State) (v : BitVec 6) (a n : Nat) : leVal (s.seen v a n) < 2 ^ (8 * n) := by
  have := leVal_lt (s.seen v a n)
  rwa [seen_length, show 256 = 2 ^ 8 by rfl, ← pow_mul] at this

theorem leVal_byte (b : Bytes) (i : Nat) : leVal b / 2 ^ (8 * i) % 2 ^ 8 = (b[i]?.getD 0).toNat := by
  rw [← leVal_div, BitVec.toNat_ofNat, pow_mul, show 2 ^ 8 = 256 by rfl]

theorem leVal_testBit (b : Bytes) (j : Nat) : (leVal b).testBit j = (b[j / 8]?.getD 0).getLsbD (j % 8) := by
  rw [← leVal_div, BitVec.getLsbD_ofNat, show 256 = 2 ^ 8 by rfl, ← pow_mul, Nat.testBit_div_two_pow]
  simp [Nat.mod_lt, Nat.mod_add_div]

theorem lane_vecOfBytes (b : Bytes) {i : Nat} (hi : i < 512) : lane 1 (vecOfBytes b) i = (b[i]?.getD 0).toNat := by
  unfold lane vecOfBytes
  rw [BitVec.toNat_ofNat, mod_div_mod_two_pow _ (by omega), Nat.mul_one, leVal_byte]

theorem getLsbD_predOfBytes (b : Bytes) {j : Nat} (hj : j < 512) :
    (predOfBytes b).getLsbD j = (b[j / 8]?.getD 0).getLsbD (j % 8) := by
  rw [← leVal_testBit]
  exact BitVec.getLsbD_ofNat .. |>.trans (by simp [hj])

/-- Sign extension of n bytes. -/
theorem ofInt_intVal {n v : Nat} (hn : 0 < n) (hv : v < 2 ^ (8 * n)) :
    BitVec.ofInt 64 (intVal true n v) =
      if 2 ^ (8 * n - 1) ≤ v then BitVec.ofInt 64 (v - 2 ^ (8 * n)) else BitVec.ofNat 64 v := by
  have top := top_bit_iff hn hv
  unfold intVal
  by_cases h : 2 ^ (8 * n - 1) ≤ v
  · rw [if_pos h, if_pos (by simp [top.mpr h])]
    push_cast
    rfl
  · rw [if_neg h, if_neg (by simpa using fun e => h (top.mp e)), BitVec.ofInt_natCast]

theorem intVal_four {v : Nat} (hv : v < 2 ^ 32) : intVal true 4 v = (BitVec.ofNat 32 v).toInt := by
  rw [BitVec.toInt_eq_toNat_cond, BitVec.toNat_ofNat, Nat.mod_eq_of_lt hv]
  unfold intVal
  simp only [Bool.true_and, beq_iff_eq]
  split <;> split <;> omega

/-! #### The rows -/

section
variable {c : CoreId} {w : Companions} {s : State}

theorem ld_loads {f : MI} {a : Nat} (hi : (ctxOf s c).miAddr f = a) (ha : AccessOk s a (miBytes f) (miBytes f))
    (hp : (ctxOf s c).poisoned a (miBytes f) = false) :
    LoadsInto [.x f.xd] { x := some (f.xd, BitVec.ofNat 64 (leVal (s.seen c.vat a (miBytes f)))) } (.ld c f w) c w s := by
  subst hi
  exact loadsInto_load (i := .ld c f w) (m := slotLd f) rfl (slotLd_fits f) rfl rfl rfl ha hp rfl rfl rfl

theorem lds_loads {f : MI} {a : Nat} (hi : (ctxOf s c).miAddr f = a) (ha : AccessOk s a (miBytes f) (miBytes f))
    (hp : (ctxOf s c).poisoned a (miBytes f) = false) :
    LoadsInto [.x f.xd] { x := some (f.xd, BitVec.ofInt 64 (intVal true (miBytes f) (leVal (s.seen c.vat a (miBytes f))))) }
      (.lds c f w) c w s := by
  subst hi
  exact loadsInto_load (i := .lds c f w) (m := slotLds f) rfl (slotLds_fits f) rfl rfl rfl ha hp rfl rfl rfl

theorem vld_loads {f : MV} {a : Nat} (hi : (ctxOf s c).mvAddr f = a) (ha : AccessOk s a 512 64)
    (hp : (ctxOf s c).poisoned a 512 = false) :
    LoadsInto [.w f.wd]
      { w := some (f.wd, byteSelect ((s.core c).getP f.pg) (vecOfBytes (s.seen c.vat a 512)) ((s.core c).getW f.wd)) }
      (.vld c f w) c w s := by
  subst hi
  exact loadsInto_load (i := .vld c f w) (m := slotVld f) rfl (slotVld_fits f) rfl rfl rfl ha hp rfl rfl rfl

theorem pld_loads {f : MV} {a : Nat} (hi : (ctxOf s c).mvAddr f = a) (ha : AccessOk s a 64 64)
    (hp : (ctxOf s c).poisoned a 64 = false) (hg : f.pg = 0) (hd : f.wd.toNat < 8) :
    LoadsInto [.p (BitVec.ofNat 3 f.wd.toNat)] { p := some (BitVec.ofNat 3 f.wd.toNat, predOfBytes (s.seen c.vat a 64)) }
      (.pld c f w) c w s := by
  subst hi
  rw [← predReg_eq]
  exact loadsInto_load (i := .pld c f w) (m := slotPld f) rfl (slotPld_fits f) (by simp [slotPld, predField, hg, hd]) rfl rfl
    ha hp rfl rfl rfl

theorem eld_loads {f : MX} {a : Nat} (hi : ((s.core c).getX f.rs1).toNat = a) (ha : AccessOk s a 1152 64)
    (hp : (ctxOf s c).poisoned a 1152 = false) (h2 : f.rs2 = 0) (hf : f.func = 0) (hd : f.rd.toNat < 2) :
    LoadsInto [.e (BitVec.ofNat 1 f.rd.toNat)] { e := some (BitVec.ofNat 1 f.rd.toNat, lanesOfBytes (s.seen c.vat a 1152)) }
      (.eld c f w) c w s := by
  subst hi
  rw [← setWidth_eq_ofNat]
  exact loadsInto_load (i := .eld c f w) (m := slotEld f) rfl (slotEld_fits f) (by simp [slotEld, accField, h2, hf, hd]) rfl rfl
    ha hp rfl rfl rfl

end

theorem lane_byteSelect (p : BitVec 512) (new old : BitVec 4096) {i : Nat} (hi : i < 512) :
    lane 1 (byteSelect p new old) i = if p.getLsbD i then lane 1 new i else lane 1 old i := by
  have hw : Width 1 := .inl rfl
  refine (lane_packLanes_range hw _ (i := i) (by omega)).trans (Nat.mod_eq_of_lt ?_)
  split <;> exact lane_lt ..

theorem getElem_lanesOfBytes (b : Bytes) (j : Fin 16) : (lanesOfBytes b)[j] = BitVec.ofNat 576 (fieldAt b (72 * j) 72) := by
  simp [lanesOfBytes]

/-! #### Gathers -/

theorem find?_map_pair {β : Type} (g : Nat → β) (l : List Nat) (i : Nat) :
    (l.map (fun i => (i, g i))).find? (fun x => x.1 = i) = if i ∈ l then some (i, g i) else none := by
  induction l with
  | nil => rfl
  | cons j l ih =>
    by_cases h : j = i
    · subst h; simp
    · simp [h, ih, Ne.symm h]

/-- The elements a gather takes: active ones that have an index. -/
def gathered (w : Nat) (pg : BitVec 512) (i : Nat) : Bool := i < 128 && pg.getLsbD (i * w)

theorem mem_gathered {w : Nat} {pg : BitVec 512} {i : Nat} :
    i ∈ (activeLanes w pg).filter (· < 128) ↔ i < 512 / w ∧ gathered w pg i = true := by
  unfold activeLanes gathered laneOn laneCount
  simp only [List.mem_filter, List.mem_range, Bool.and_eq_true, decide_eq_true_eq, and_assoc]
  exact and_congr_right fun _ => and_comm

theorem mxScale_eq (f : MX) : mxScale f = [1, mxWidth f, 64, 512][f.func.toNat / 32 % 4]?.getD 0 := by
  have h : f.func.toNat / 32 % 4 < 4 := Nat.mod_lt _ (by decide)
  unfold mxScale
  interval_cases f.func.toNat / 32 % 4 <;> rfl

section
variable {c : CoreId} {f : MX} {w : Companions} {s : State} {a : Nat → Nat}

/-- What a gather leaves in an element. -/
def gatherVal (s : State) (c : CoreId) (f : MX) (a : Nat → Nat) (i : Nat) : Nat :=
  if gathered (mxWidth f) ((s.core c).getP (mxPg f)) i then leVal (s.seen c.vat (a i) (mxWidth f))
  else lane (mxWidth f) ((s.core c).getW f.rd) i

theorem gatherVal_lt (i : Nat) : gatherVal s c f a i < 2 ^ (8 * mxWidth f) := by
  unfold gatherVal
  split
  · exact leVal_seen_lt ..
  · exact lane_lt ..

theorem vgather_runs (hl : gatherLegal f = true)
    (hg : (ctxOf s c).gatherAddrs f =
      ((activeLanes (mxWidth f) ((s.core c).getP (mxPg f))).filter (· < 128)).map (fun i => (i, a i)))
    (hok : ∀ i, i < 512 / mxWidth f → gathered (mxWidth f) ((s.core c).getP (mxPg f)) i = true →
      AccessOk s (a i) (mxWidth f) (mxWidth f) ∧ (ctxOf s c).poisoned (a i) (mxWidth f) = false) :
    SlotRuns s c (slotVgather f)
      { w := some (f.rd, packLanes (mxWidth f) ((List.range (laneCount (mxWidth f))).map (gatherVal s c f a))),
        acts := ((ctxOf s c).gatherAddrs f).flatMap (fun x => (ctxOf s c).loadAct x.2 (mxWidth f)),
        lines := (addrLines (mxWidth f) ((ctxOf s c).gatherAddrs f)).length } := by
  refine ⟨hl, nofun, ?_, rfl⟩
  show (slotVgather f).run (ctxOf s c) = _
  simp only [slotVgather]
  split
  case h_1 x e h =>
    obtain ⟨x, hx, he⟩ := List.exists_of_findSome?_eq_some h
    rw [hg] at hx
    obtain ⟨i, hi, rfl⟩ := List.mem_map.mp hx
    obtain ⟨hn, hon⟩ := mem_gathered.mp hi
    obtain ⟨ha, hp⟩ := hok i hn hon
    simp [load_ok ha hp] at he
  case h_2 x h =>
    refine congrArg (fun l => Except.ok ({ w := some (f.rd, packLanes (mxWidth f) l), acts := _, lines := _ } : Effect))
      (List.map_congr_left (fun i hi => ?_))
    have hn : i < 512 / mxWidth f := List.mem_range.mp hi
    rw [hg, find?_map_pair]
    unfold gatherVal
    by_cases hon : gathered (mxWidth f) ((s.core c).getP (mxPg f)) i = true
    · rw [if_pos (mem_gathered.mpr ⟨hn, hon⟩), if_pos hon]
      exact congrArg leVal (bytesAt_plain (hok i hn hon).1.2)
    · rw [if_neg (fun h => hon (mem_gathered.mp h).2), if_neg hon]
      rfl

end

/-- Settles O14: each row's slot reads the bytes the core sees and touches lines alone. -/
theorem loads : Obligations.Loads := by
  refine ⟨fun c f w s => ?_, fun c f w s => ?_, fun c f w s h2 hf hd => ?_, fun c f w s he hm => ?_⟩
  · intro n a v ha hp
    have addr : (ctxOf s c).miAddr f = a := congrArg BitVec.toNat (offsetAddr_eq ..)
    refine ⟨ld_loads addr ha hp, ?_⟩
    rw [← ofInt_intVal (n := n) (Nat.two_pow_pos _) (leVal_seen_lt ..)]
    exact lds_loads addr ha hp
  · intro k a
    have addr : (ctxOf s c).mvAddr f = a := congrArg BitVec.toNat (offsetAddr_eq ..)
    refine ⟨fun ha hp => ⟨_, fun i hi => ?_, vld_loads addr ha hp⟩,
      fun ha hp hg hd => ⟨_, fun j hj => ?_, pld_loads addr ha hp hg hd⟩⟩
    · rw [lane_byteSelect _ _ _ hi, lane_vecOfBytes _ hi, seen_getElem? _ _ _ hi]
      rfl
    · rw [getLsbD_predOfBytes _ hj, seen_getElem? _ _ _ (by omega)]
      rfl
  · intro a ha hp
    refine ⟨_, fun j => ?_, eld_loads rfl ha hp h2 hf hd⟩
    have hj := j.isLt
    rw [getElem_lanesOfBytes, fieldAt_seen _ _ _ (by omega), BitVec.toNat_ofNat]
    exact Nat.mod_eq_of_lt (leVal_seen_lt s c.vat (a + 72 * j) 72)
  · intro k n pg scale on a hok
    have hw : Width n := etypeBytes_width he
    have addrs : (ctxOf s c).gatherAddrs f = ((activeLanes n (k.getP pg)).filter (· < 128)).map (fun i => (i, a i)) := by
      refine List.map_congr_left (fun i _ => ?_)
      have : (ctxOf s c).k.getW f.rs2 = k.getW f.rs2 := rfl
      rw [offsetAddr_eq, mxScale_eq, this, intVal_four (lane_lt ..)]
      rfl
    have runs := vgather_runs (c := c) (f := f) (s := s) (a := a) (by simp [gatherLegal, mxEtype, he, hm]) addrs hok
    refine ⟨_, fun i hi => ?_, loadsInto_of (i := .vgather c f w) rfl (slotVgather_fits f) runs (fun x hx => ?_) rfl rfl⟩
    · exact (lane_packLanes_range hw _ hi).trans (Nat.mod_eq_of_lt (gatherVal_lt i))
    · obtain ⟨y, -, hy⟩ := List.mem_flatMap.mp hx
      exact loadAct_isTouch _ _ _ x hy

end Sys2Proof.Machine

/-! ### Caches and tickets (Table 2.8, R48, R49, R51 to R58) -/

namespace Sys2Proof.Machine

open Sys2Proof

/-! #### Writing lines back -/

/-- The memory side of a byte once the Vat's copy of its line has been written back. -/
def State.backed (s : State) (v : BitVec 6) (b : Nat) : BitVec 8 :=
  match l2Find s.mem.l2 v (b / 64) with
  | some x => if x.dirty then x.data.extractLsb' (8 * (b % 64)) 8 else s.mem.byte b
  | none => s.mem.byte b

theorem backed_dirty {s : State} {v : BitVec 6} {b : Nat} {x : L2Line} (h : l2Find s.mem.l2 v (b / 64) = some x)
    (hd : x.dirty = true) : s.backed v b = x.data.extractLsb' (8 * (b % 64)) 8 := by
  unfold State.backed
  rw [h]
  exact if_pos hd

theorem backed_clean {s : State} {v : BitVec 6} {b : Nat} (h : ∀ x, l2Find s.mem.l2 v (b / 64) = some x → x.dirty = false) :
    s.backed v b = s.mem.byte b := by
  unfold State.backed
  cases hx : l2Find s.mem.l2 v (b / 64) with
  | none => rfl
  | some x => simp [h x hx]

theorem backed_congr {s t : State} {v : BitVec 6} {b : Nat} (hl : l2Find t.mem.l2 v (b / 64) = l2Find s.mem.l2 v (b / 64))
    (hb : t.mem.byte b = s.mem.byte b) : t.backed v b = s.backed v b := by
  unfold State.backed
  rw [hl, hb]

/-- The Vat's dirty copies of the lines that satisfy `p` have been written back, and of its copies of those lines there is
left what `keep` says. -/
structure WroteBack (v : BitVec 6) (p : Nat → Prop) (keep : L2Line → Option L2Line) (s t : State) : Prop where
  held   : ∀ l, p l → l2Find t.mem.l2 v l = (l2Find s.mem.l2 v l).bind keep
  others : ∀ l, ¬ p l → l2Find t.mem.l2 v l = l2Find s.mem.l2 v l
  backed : ∀ b, p (b / 64) → t.mem.byte b = s.backed v b
  bytes  : ∀ b, ¬ p (b / 64) → t.mem.byte b = s.mem.byte b

theorem l2Find_eq {ls : List L2Line} {v : BitVec 6} {n : Nat} {x : L2Line} (h : l2Find ls v n = some x) :
    x.vat = v ∧ x.line = n := by
  simpa using List.find?_some h

/-- A line written at the memory side. -/
theorem byte_writeLine (s : State) (n b : Nat) (d : BitVec 512) :
    (s.memWrite (64 * n) (lineToBytes d)).mem.byte b =
      if b / 64 = n then d.extractLsb' (8 * (b % 64)) 8 else s.mem.byte b := by
  refine (Memory.byte_write s.mem (64 * n) b (lineToBytes d)).trans ?_
  by_cases h : b / 64 = n
  · rw [if_pos h, if_pos (by omega), show b - 64 * n = b % 64 by omega, lineToBytes_byte d _ (by omega)]
    rfl
  · rw [if_neg h]
    split
    · rw [List.getElem?_eq_none (by rw [lineToBytes_length]; omega)]
      rfl
    · rfl

theorem l2Find_memWrite (s : State) (a : Nat) (b : Bytes) (v : BitVec 6) (n : Nat) :
    l2Find (s.memWrite a b).mem.l2 v n = l2Find s.mem.l2 v n := by
  show l2Find (s.mem.write a b).l2 v n = _
  rw [Memory.write_l2]

/-- A copy that stays once it has been written back. -/
def cleaned (x : L2Line) : Option L2Line := some { x with dirty := false }

theorem byte_putLine (s : State) (v : BitVec 6) (n b : Nat) (d x) : (s.putLine v n d x).mem.byte b = s.mem.byte b := rfl

/-- A dirty line written back. -/
theorem writeLine_wroteBack {s : State} {v : BitVec 6} {n : Nat} {x : L2Line} (hx : l2Find s.mem.l2 v n = some x)
    (hd : x.dirty = true) :
    WroteBack v (· = n) cleaned s ((s.memWrite (64 * n) (lineToBytes x.data)).putLine v n false x.data) := by
  obtain ⟨hv, hn⟩ := l2Find_eq hx
  have lost : (s.memWrite (64 * n) (lineToBytes x.data)).lineLost v n = x.poison := by
    unfold State.lineLost
    rw [l2Find_memWrite, hx]
  refine ⟨fun l hl => ?_, fun l hl => ?_, fun b hb => ?_, fun b hb => ?_⟩
  · subst hl
    rw [l2Find_putLine, if_pos ⟨rfl, rfl⟩, lost, hx, ← hv, ← hn]
    rfl
  · rw [l2Find_putLine, if_neg (fun h => hl h.2), l2Find_memWrite]
  · rw [byte_putLine, byte_writeLine, if_pos hb, backed_dirty (by rwa [hb]) hd]
  · rw [byte_putLine, byte_writeLine, if_neg hb]

theorem flushLine_wroteBack (s : State) (v : BitVec 6) (n : Nat) : WroteBack v (· = n) cleaned s (s.flushLine v n) := by
  unfold State.flushLine
  split
  case h_1 x hx =>
    by_cases hd : x.dirty = true
    · have done := writeLine_wroteBack hx hd
      rw [if_pos hd]
      lift_lets
      intro t
      split
      · exact ⟨done.held, done.others, done.backed, done.bytes⟩
      · exact done
    · rw [if_neg hd]
      refine ⟨fun l hl => ?_, fun l _ => rfl, fun b hb => ?_, fun b _ => rfl⟩
      · subst hl
        rw [hx]
        simp [cleaned, ← Bool.eq_false_iff.mpr hd]
      · subst hb
        exact (backed_clean (fun y hy => by cases hx.symm.trans hy; exact Bool.eq_false_iff.mpr hd)).symm
  case h_2 hx =>
    refine ⟨fun l hl => ?_, fun l _ => rfl, fun b hb => ?_, fun b _ => rfl⟩
    · subst hl
      rw [hx]
      rfl
    · subst hb
      exact (backed_clean (fun y hy => by cases hx.symm.trans hy)).symm

theorem invalLine_wroteBack (s : State) (v : BitVec 6) (n : Nat) :
    WroteBack v (· = n) (fun _ => none) s (s.invalLine v n) := by
  obtain ⟨held, others, backed, bytes⟩ := flushLine_wroteBack s v n
  refine ⟨fun l hl => ?_, fun l hl => ?_, backed, bytes⟩
  · rw [Option.bind_fun_none]
    exact (l2Find_drop ..).trans (if_pos ⟨rfl, hl⟩)
  · exact (l2Find_drop ..).trans ((if_neg (fun h => hl h.2)).trans (others l hl))

/-- Lines written back one after another. -/
theorem WroteBack.foldl {v : BitVec 6} {f : State → Nat → State} {keep : L2Line → Option L2Line}
    (hf : ∀ s n, WroteBack v (· = n) keep s (f s n)) (hc : ∀ x y, keep x = some y → y.dirty = false ∧ keep y = some y)
    (ns : List Nat) (s : State) : WroteBack v (· ∈ ns) keep s (ns.foldl f s) := by
  have again : ∀ o : Option L2Line, (o.bind keep).bind keep = o.bind keep := by
    intro o
    cases o with
    | none => rfl
    | some x =>
      show (keep x).bind keep = keep x
      cases h : keep x with
      | none => rfl
      | some y => exact (hc x y h).2
  induction ns generalizing s with
  | nil => exact ⟨nofun, fun _ _ => rfl, nofun, fun _ _ => rfl⟩
  | cons n ns ih =>
    obtain ⟨held, others, backed, bytes⟩ := hf s n
    obtain ⟨held', others', backed', bytes'⟩ := ih (f s n)
    have found : ∀ l, l ∈ n :: ns → l2Find (ns.foldl f (f s n)).mem.l2 v l = (l2Find s.mem.l2 v l).bind keep := by
      intro l hl
      by_cases hn : l = n <;> by_cases hm : l ∈ ns
      · rw [held' l hm, held l hn, again]
      · rw [others' l hm, held l hn]
      · rw [held' l hm, others l hn]
      · exact absurd hl (by simp [hn, hm])
    have clean : ∀ b, b / 64 = n → (f s n).backed v b = s.backed v b := by
      intro b hb
      refine (backed_clean (fun y hy => ?_)).trans (backed b hb)
      rw [held _ hb] at hy
      obtain ⟨x, -, hx⟩ := Option.bind_eq_some_iff.mp hy
      exact (hc x y hx).1
    refine ⟨found, fun l hl => ?_, fun b hl => ?_, fun b hl => ?_⟩
    · simp only [List.mem_cons, not_or] at hl
      exact (others' l hl.2).trans (others l hl.1)
    · by_cases hn : b / 64 = n <;> by_cases hm : b / 64 ∈ ns
      · exact (backed' b hm).trans (clean b hn)
      · exact (bytes' b hm).trans (backed b hn)
      · exact (backed' b hm).trans (backed_congr (others _ hn) (bytes b hn))
      · exact absurd hl (by simp [hn, hm])
    · simp only [List.mem_cons, not_or] at hl
      exact (bytes' b hl.2).trans (bytes b hl.1)

/-- A line overlaps a range of n bytes. -/
def inRange (a n l : Nat) : Prop := 0 < n ∧ a < 64 * (l + 1) ∧ 64 * l < a + n

theorem mem_linesIn {s : State} {v : BitVec 6} {a n l : Nat} :
    l ∈ s.linesIn v a n ↔ inRange a n l ∧ l2Find s.mem.l2 v l ≠ none := by
  unfold State.linesIn inRange l2Find
  simp only [List.mem_map, List.mem_filter, ne_eq, List.find?_eq_none, not_forall, not_not, Bool.and_eq_true, decide_eq_true_eq]
  constructor
  · rintro ⟨x, ⟨hx, ⟨⟨hv, hn⟩, h1⟩, h2⟩, rfl⟩
    exact ⟨⟨hn, h1, h2⟩, x, hx, hv, rfl⟩
  · rintro ⟨⟨hn, h1, h2⟩, x, hx, hv, rfl⟩
    exact ⟨x, ⟨hx, ⟨⟨hv, hn⟩, h1⟩, h2⟩, rfl⟩

/-- Lines of the range that the Vat holds no copy of make no difference. -/
theorem WroteBack.range {v : BitVec 6} {a n : Nat} {keep : L2Line → Option L2Line} {s t : State}
    (h : WroteBack v (· ∈ s.linesIn v a n) keep s t) : WroteBack v (inRange a n) keep s t := by
  obtain ⟨held, others, backed, bytes⟩ := h
  refine ⟨fun l hl => ?_, fun l hl => others l (fun h => hl (mem_linesIn.mp h).1), fun b hb => ?_,
    fun b hb => bytes b (fun h => hb (mem_linesIn.mp h).1)⟩
  · cases hx : l2Find s.mem.l2 v l with
    | none => rw [others l (fun h => (mem_linesIn.mp h).2 hx), hx]; rfl
    | some x => rw [held l (mem_linesIn.mpr ⟨hl, by simp [hx]⟩), hx]
  · cases hx : l2Find s.mem.l2 v (b / 64) with
    | none =>
      rw [bytes b (fun h => (mem_linesIn.mp h).2 hx)]
      exact (backed_clean (fun y hy => by cases hx.symm.trans hy)).symm
    | some x => exact backed b (mem_linesIn.mpr ⟨hb, by simp [hx]⟩)

theorem flushRange_wroteBack (s : State) (v : BitVec 6) (a n : Nat) :
    WroteBack v (inRange a n) cleaned s (s.flushRange v a n) :=
  (WroteBack.foldl (fun s n => flushLine_wroteBack s v n) (fun x y h => by cases h; exact ⟨rfl, rfl⟩) _ s).range

theorem invalRange_wroteBack (s : State) (v : BitVec 6) (a n : Nat) :
    WroteBack v (inRange a n) (fun _ => none) s (s.invalRange v a n) :=
  (WroteBack.foldl (fun s n => invalLine_wroteBack s v n) (fun _ _ h => by cases h) _ s).range

theorem read_of_bytes {m : Memory} {b : Bytes} {a : Nat} (h : ∀ i, i < b.length → b[i]? = some (m.byte (a + i))) :
    m.read a b.length = b := by
  induction b generalizing a with
  | nil => rfl
  | cons x b ih =>
    rw [List.length_cons, Memory.read, ih (fun i hi => ?_)]
    · exact congrArg (· :: b) (by simpa using (h 0 (by simp)).symm)
    · have := h (i + 1) (by simpa using hi)
      rwa [List.getElem?_cons_succ, Nat.add_left_comm, Nat.add_comm] at this

/-- A dirty line of the range is at the memory side. -/
theorem WroteBack.line {v : BitVec 6} {p : Nat → Prop} {keep : L2Line → Option L2Line} {s t : State} (h : WroteBack v p keep s t)
    {l : Nat} (hp : p l) {x : L2Line} (hx : l2Find s.mem.l2 v l = some x) (hd : x.dirty = true) : t.mem.line l = x.data := by
  have bytes : ∀ i, i < (lineToBytes x.data).length → (lineToBytes x.data)[i]? = some (t.mem.byte (64 * l + i)) := by
    intro i hi
    rw [lineToBytes_length] at hi
    have hl : (64 * l + i) / 64 = l := by omega
    rw [lineToBytes_byte _ _ hi, h.backed _ (hl.symm ▸ hp), backed_dirty (by rwa [hl]) hd, show (64 * l + i) % 64 = i by omega]
  unfold Memory.line
  have := read_of_bytes bytes
  rw [lineToBytes_length] at this
  rw [this, bytesToLine_lineToBytes]

end Sys2Proof.Machine

/-! ### FLUSH, INVAL, PREF, units and tickets -/

namespace Sys2Proof.Machine

open Sys2Proof

section
variable {c : CoreId} {f : MX} {w : Companions} {s : State} {es : List Effect}

/-- A word whose slot 3 does one action that stores no byte. -/
theorem slot3_acts {i : Instr} {m : Meaning} {a : Act} (hi : exec i s = runWord c 3 m w s) (hf : Fits 3 m)
    (hm : SlotRuns s c m { acts := [a] }) (ha : a.stored = []) (ho : OthersRun 3 m.dests c w s es) :
    ∃ t k, exec i s = .next t ∧ Written (s.core c) (t.core c) ({} :: es) ∧ SameOutside c s t ∧
      t = ((s.setCore c k).act c a).drawn := by
  obtain ⟨t, k, hx, hw, hs, ht⟩ := slot3_completes hi hf hm ho
  rw [noteStores_of_none (by simpa using ha)] at ht
  exact ⟨t, k, hx, hw.plain 0 false [], hs, ht⟩

theorem flush_acts (hd : f.rd = 0) (hf : f.func.toNat < 2) (ho : OthersRun 3 [] c w s es) :
    ∃ t k, exec (.flush c f w) s = .next t ∧ Written (s.core c) (t.core c) ({} :: es) ∧ SameOutside c s t ∧
      t = ((s.setCore c k).flushRange c.vat ((s.core c).getX f.rs1).toNat ((s.core c).getX f.rs2).toNat).drawn :=
  slot3_acts (i := .flush c f w) (m := slotFlush f) rfl (slotFlush_fits f) ⟨by simp [slotFlush, hd, hf], nofun, rfl, rfl⟩ rfl ho

theorem inval_acts (hd : f.rd = 0) (hf : f.func.toNat < 2) (ho : OthersRun 3 [] c w s es) :
    ∃ t k, exec (.inval c f w) s = .next t ∧ Written (s.core c) (t.core c) ({} :: es) ∧ SameOutside c s t ∧
      t = ((s.setCore c k).invalRange c.vat ((s.core c).getX f.rs1).toNat ((s.core c).getX f.rs2).toNat).drawn :=
  slot3_acts (i := .inval c f w) (m := slotInval f) rfl (slotInval_fits f) ⟨by simp [slotInval, hd, hf], nofun, rfl, rfl⟩ rfl ho

theorem pref_loads (hd : f.rd = 0) (hf : f.func.toNat < 2) (h2 : f.rs2 = 0) : LoadsInto [] {} (.pref c f w) c w s := by
  refine loadsInto_of (i := .pref c f w) (m := slotPref f) rfl (slotPref_fits f)
    ⟨by simp [slotPref, hd, hf, h2], nofun, rfl, rfl⟩ (fun x hx => ?_) rfl rfl
  simp only at hx
  split at hx
  · rw [List.mem_singleton.mp hx]
    rfl
  · exact absurd hx List.not_mem_nil

/-! #### Tickets -/

theorem freeTicket_lowest {k : Core} {cls : BitVec 2} {n : BitVec 5} (hn : ticketLo cls ≤ n.toNat ∧ n.toNat ≤ ticketHi cls)
    (hf : k.getT n = .free)
    (hmin : ∀ m : BitVec 5, ticketLo cls ≤ m.toNat ∧ m.toNat ≤ ticketHi cls → k.getT m = .free → n.toNat ≤ m.toNat) :
    k.freeTicket cls = some n := by
  have get : ∀ i, i < 32 → k.tickets[i]? = some (k.getT (BitVec.ofNat 5 i)) := by
    intro i hi
    unfold Core.getT
    simp [Nat.mod_eq_of_lt hi, hi]
  have found : (List.range 32).find? (fun i => ticketLo cls ≤ i && i ≤ ticketHi cls && k.tickets[i]? = some .free) = some n.toNat := by
    refine List.find?_range_eq_some.mpr ⟨?_, List.mem_range.mpr n.isLt, fun j hj => ?_⟩
    · simp [hn, get n.toNat n.isLt, hf]
    · have hj32 : j < 32 := hj.trans n.isLt
      by_contra hc
      simp only [Bool.not_eq_true', Bool.not_eq_false, Bool.and_eq_true, decide_eq_true_eq, get j hj32, Option.some.injEq] at hc
      obtain ⟨hr, ht⟩ := hc
      have hjn : (BitVec.ofNat 5 j).toNat = j := by simp [Nat.mod_eq_of_lt hj32]
      have := hmin (BitVec.ofNat 5 j) (by rwa [hjn]) ht
      omega
  unfold Core.freeTicket
  rw [found]
  simp

theorem ticketOf_eq {t : Ctx} {n : Nat} {x : Ticket} (hn : n < 32)
    (hm : ticketLo t.k.cls ≤ (BitVec.ofNat 5 n).toNat ∧ (BitVec.ofNat 5 n).toNat ≤ ticketHi t.k.cls)
    (hx : t.k.getT (BitVec.ofNat 5 n) = x) (hne : x ≠ .free) :
    t.ticketOf (BitVec.ofNat 64 n) = some (BitVec.ofNat 5 n, x) := by
  have h64 : (BitVec.ofNat 64 n).toNat = n := by rw [BitVec.toNat_ofNat]; omega
  have h5 : (BitVec.ofNat 5 n).toNat = n := by rw [BitVec.toNat_ofNat]; omega
  rw [h5] at hm
  unfold Ctx.ticketOf
  simp only [h64, hm.1, hm.2, hx, if_neg hne, decide_true, Bool.and_self, if_true]

/-- A ticket register names a ticket of the item. -/
structure NamesTicket (s : State) (c : CoreId) (f : MX) (n : Nat) (x : Ticket) : Prop where
  legal  : f.rs2 = 0 ∧ f.func = 0
  reg    : (s.core c).getX f.rs1 = BitVec.ofNat 64 n
  lt     : n < 32
  mine   : ticketLo (s.core c).cls ≤ (BitVec.ofNat 5 n).toNat ∧ (BitVec.ofNat 5 n).toNat ≤ ticketHi (s.core c).cls
  holds  : (s.core c).getT (BitVec.ofNat 5 n) = x

theorem NamesTicket.ticketOf {n : Nat} {x : Ticket} (h : NamesTicket s c f n x) (hne : x ≠ .free) :
    (ctxOf s c).ticketOf ((ctxOf s c).k.getX f.rs1) = some (BitVec.ofNat 5 n, x) :=
  (congrArg _ h.reg).trans (ticketOf_eq (t := ctxOf s c) h.lt h.mine h.holds hne)

/-- What TPOLL and TWAIT do with a ticket that has completed. -/
def reported (f : MX) (n : Nat) (st : BitVec 16) : Effect :=
  { x := some (f.rd, BitVec.ofNat 64 st.toNat), ticket := some (BitVec.ofNat 5 n, .free) }

theorem report_eq {n : Nat} {st : BitVec 16} (h : st ≠ 0x0107) : Ctx.report f (BitVec.ofNat 5 n) st = .ok (reported f n st) := by
  unfold reported
  rw [← setWidth_eq_ofNat]
  exact if_neg h

theorem tpoll_complete {n : Nat} {st : BitVec 16} (h : NamesTicket s c f n (.complete st)) (hst : st ≠ 0x0107) :
    LoadsInto [.x f.rd] (reported f n st) (.tpoll c f w) c w s := by
  refine loadsInto_of (i := .tpoll c f w) (m := slotTpoll f) rfl (slotTpoll_fits f)
    (e := reported f n st) ⟨by simp [slotTpoll, h.legal], nofun, ?_, rfl⟩ nofun rfl rfl
  show (slotTpoll f).run (ctxOf s c) = _
  simp only [slotTpoll, h.ticketOf nofun, report_eq hst]

theorem twait_complete {n : Nat} {st : BitVec 16} (h : NamesTicket s c f n (.complete st)) (hst : st ≠ 0x0107) :
    LoadsInto [.x f.rd] (reported f n st) (.twait c f w) c w s := by
  refine loadsInto_of (i := .twait c f w) (m := slotTwait f) rfl (slotTwait_fits f)
    (e := reported f n st) ⟨by simp [slotTwait, h.legal], nofun, ?_, rfl⟩ nofun rfl rfl
  show (slotTwait f).run (ctxOf s c) = _
  simp only [slotTwait, h.ticketOf nofun, report_eq hst]

theorem tpoll_pending {n : Nat} (h : NamesTicket s c f n .pending) :
    LoadsInto [.x f.rd] { x := some (f.rd, all64) } (.tpoll c f w) c w s := by
  refine loadsInto_of (i := .tpoll c f w) (m := slotTpoll f) rfl (slotTpoll_fits f)
    (e := { x := some (f.rd, all64) }) ⟨by simp [slotTpoll, h.legal], nofun, ?_, rfl⟩ nofun rfl rfl
  show (slotTpoll f).run (ctxOf s c) = _
  simp only [slotTpoll, h.ticketOf nofun]

/-! #### Units -/

/-- UNIT reads its block, takes a ticket and hands the block to the unit. -/
theorem unit_run {n : BitVec 5} {a : Nat} (ha : ((s.core c).getX f.rs1).toNat = a) (hok : AccessOk s a 64 1)
    (hp : (ctxOf s c).poisoned a 64 = false) (hn : (s.core c).freeTicket (s.core c).cls = some n) :
    ∃ u lines other, (slotUnit f).run (ctxOf s c) = .ok
        { x := some (f.rd, BitVec.ofNat 64 n.toNat), ticket := some (n, .pending),
          acts := (ctxOf s c).loadAct a 64 ++ [.submit u], lines := lines, other := other } ∧
      u.unit = BitVec.ofNat 4 f.func.toNat ∧ u.core = c ∧ u.ticket = n ∧ u.block = s.seen c.vat a 64 ∧
      u.item = (s.core c).item := by
  subst ha
  have hn' : (ctxOf s c).k.freeTicket (ctxOf s c).k.cls = some n := hn
  have load : (ctxOf s c).load ((ctxOf s c).k.getX f.rs1).toNat 64 1 = .ok (s.seen c.vat ((s.core c).getX f.rs1).toNat 64) :=
    load_ok hok hp
  simp only [slotUnit, load, hn']
  exact ⟨_, _, _, rfl, rfl, rfl, rfl, rfl, rfl⟩

theorem unit_submits {n : BitVec 5} {a : Nat} (ha : ((s.core c).getX f.rs1).toNat = a) (h2 : f.rs2 = 0) (hu : f.func.toNat ≤ 6)
    (hok : AccessOk s a 64 1) (hp : (ctxOf s c).poisoned a 64 = false) (hn : (s.core c).freeTicket (s.core c).cls = some n)
    (ho : OthersRun 3 [.x f.rd] c w s es) : ∃ t u, exec (.unit c f w) s = .next t ∧
      Written (s.core c) (t.core c) ({ x := some (f.rd, BitVec.ofNat 64 n.toNat), ticket := some (n, .pending) } :: es) ∧
      SameOutside c s t ∧ t.ports = s.ports ∧ BytesKept c (fun _ => False) s t ∧ t.units = s.units ++ [u] ∧
      u.unit = BitVec.ofNat 4 f.func.toNat ∧ u.core = c ∧ u.ticket = n ∧ u.block = s.seen c.vat a 64 ∧ u.item = (s.core c).item := by
  obtain ⟨u, lines, other, run, hfields⟩ := unit_run ha hok hp hn
  obtain ⟨t, k, hx, hw, hs, ht⟩ := slot3_completes (i := .unit c f w) rfl (slotUnit_fits f)
    ⟨by simp [slotUnit, h2, hu], nofun, run, rfl⟩ ho
  have touches := loadAct_isTouch (ctxOf s c) a 64
  rw [noteStores_of_none (fun x hx => ?_), List.foldl_append] at ht
  · have reads := acts_reads (c := c) touches (s.setCore c k)
    generalize ((ctxOf s c).loadAct a 64).foldl (fun s a => s.act c a) (s.setCore c k) = touched at ht reads
    subst ht
    refine ⟨_, u, hx, hw.plain 0 false [], hs, reads.ports, ⟨reads.bytes, reads.others, fun b _ => ?_⟩,
      congrArg (· ++ [u]) reads.units, hfields⟩
    have drawn := seenByte_congr (s := touched)
      (t := { ((touched.act c (.submit u)).drawn) with free := s.free }) rfl rfl reads.free.symm c.vat b
    exact drawn.trans (reads.seen b)
  · rcases List.mem_append.mp hx with h | h
    · exact stored_of_isTouch (touches x h)
    · rw [List.mem_singleton.mp h]
      rfl

end

/-- Settles O18: FLUSH and INVAL write back the lines of the range that the Vat holds, in the order of its copies; the
rows of units and tickets only touch lines beside their own effect. -/
theorem cachesAndTickets : Obligations.CachesAndTickets := by
  refine ⟨fun c f w s hd hf => ?_, fun c f w s h2 => ?_⟩
  · intro a n _ writesBack
    have back : ∀ {keep : L2Line → Option L2Line} {k : Core} {t : State}, WroteBack c.vat (inRange a n) keep (s.setCore c k) t →
        writesBack t.drawn := fun h => ⟨fun l x hl hx hdirty => h.line hl hx hdirty, fun b hb => ?_⟩
    · refine ⟨fun es ho => ?_, fun es ho => ?_, pref_loads hd hf⟩
      · obtain ⟨t, k, hx, hw, hs, rfl⟩ := flush_acts hd hf ho
        have h := flushRange_wroteBack (s.setCore c k) c.vat a n
        refine ⟨_, hx, hw, hs, back h, fun l x hl => ?_⟩
        by_cases hr : 0 < n ∧ a < 64 * (l + 1) ∧ 64 * l < a + n
        · rw [if_pos hr]
          exact (h.held l hr).trans (congrArg (Option.bind · cleaned) hl)
        · rw [if_neg hr]
          exact (h.others l hr).trans hl
      · obtain ⟨t, k, hx, hw, hs, rfl⟩ := inval_acts hd hf ho
        have h := invalRange_wroteBack (s.setCore c k) c.vat a n
        refine ⟨_, hx, hw, hs, back h, fun l => ?_⟩
        by_cases hr : 0 < n ∧ a < 64 * (l + 1) ∧ 64 * l < a + n
        · rw [if_pos hr]
          exact (h.held l hr).trans (Option.bind_fun_none _)
        · rw [if_neg hr]
          exact h.others l hr
    · by_cases hr : inRange a n (b / 64)
      · exact (h.backed b hr).trans (backed_clean (fun x => hb x hr))
      · exact h.bytes b hr
  · intro k a lo hi mine
    refine ⟨fun n hu hok hp hn hfree hmin es ho => ?_, fun n st hf hreg hlt hm ht hst => ?_, fun n hf hreg hlt hm ht => ?_⟩
    · exact unit_submits rfl h2 hu hok hp (freeTicket_lowest hn hfree hmin) ho
    · have h : NamesTicket s c f n (.complete st) := ⟨⟨h2, hf⟩, hreg, hlt, hm, ht⟩
      exact ⟨tpoll_complete h hst, twait_complete h hst⟩
    · rw [← all64_eq]
      exact tpoll_pending ⟨⟨h2, hf⟩, hreg, hlt, hm, ht⟩

end Sys2Proof.Machine

/-! ### The saved context of a core (Tables 2.13 to 2.15) -/

namespace Sys2Proof.Machine

open Sys2Proof

/-! #### Parts of a byte string -/

/-- The bytes `b` stand in `a` from offset `off` on. -/
def HasAt (a : Bytes) (off : Nat) (b : Bytes) : Prop := ∃ u v, a = u ++ b ++ v ∧ u.length = off

theorem HasAt.slice {a b : Bytes} {off n : Nat} (h : HasAt a off b) (hn : b.length = n) : (a.drop off).take n = b := by
  obtain ⟨u, v, rfl, rfl⟩ := h
  subst hn
  simp

theorem HasAt.fieldAt {a b : Bytes} {off n : Nat} (h : HasAt a off b) (hn : b.length = n) : fieldAt a off n = leVal b :=
  congrArg leVal (h.slice hn)

theorem HasAt.trans {a b d : Bytes} {off k : Nat} (h : HasAt a off b) (g : HasAt b k d) : HasAt a (off + k) d := by
  obtain ⟨u, v, rfl, rfl⟩ := h
  obtain ⟨u', v', rfl, rfl⟩ := g
  exact ⟨u ++ u', v' ++ v, by simp, by simp⟩

theorem hasAt_flatten {l : List Bytes} {i : Nat} {b : Bytes} (h : l[i]? = some b) :
    HasAt l.flatten ((l.map List.length).take i).sum b := by
  induction l generalizing i with
  | nil => simp at h
  | cons x l ih =>
    cases i with
    | zero =>
      obtain rfl : x = b := by simpa using h
      exact ⟨[], l.flatten, rfl, rfl⟩
    | succ i =>
      obtain ⟨u, v, hl, hu⟩ := ih (i := i) (by simpa using h)
      exact ⟨x ++ u, v, by simp [hl], by simp [hu]⟩

section
variable {α : Type} {f : α → Bytes} {n : Nat}

theorem length_flatMap_const (hf : ∀ x, (f x).length = n) (l : List α) : (l.flatMap f).length = n * l.length := by
  simp [List.length_flatMap, hf, Nat.mul_comm]

theorem hasAt_flatMap (hf : ∀ x, (f x).length = n) {l : List α} {i : Nat} {x : α} (h : l[i]? = some x) :
    HasAt (l.flatMap f) (n * i) (f x) := by
  have hi : i < l.length := (List.getElem?_eq_some_iff.mp h).1
  have hsum : (((l.map f).map List.length).take i).sum = n * i := by
    have hlen : List.length ∘ f = fun _ => n := funext hf
    rw [List.map_map, hlen, ← List.map_take, List.map_const', List.sum_replicate, List.length_take, Nat.min_eq_left hi.le,
      smul_eq_mul, Nat.mul_comm]
  have := hasAt_flatten (l := l.map f) (i := i) (b := f x) (by simp [h])
  rwa [hsum, ← List.flatMap_def] at this

end

theorem ofNat_leVal_leBytes {w n : Nat} (h : w = 8 * n) (v : BitVec w) : BitVec.ofNat w (leVal (leBytes n v.toNat)) = v := by
  apply BitVec.eq_of_toNat_eq
  have hw : 256 ^ n = 2 ^ w := by rw [h, pow_mul]; rfl
  rw [leVal_leBytes, hw, BitVec.toNat_ofNat, Nat.mod_mod, Nat.mod_eq_of_lt v.isLt]

theorem leVal_leBytes_of_lt {n v : Nat} (h : v < 256 ^ n) : leVal (leBytes n v) = v :=
  (leVal_leBytes n v).trans (Nat.mod_eq_of_lt h)

/-! #### The parts of a context -/

theorem vecBytes_length (v : BitVec 4096) : (vecBytes v).length = 512 := leBytes_length ..
theorem predBytes_length (v : BitVec 512) : (predBytes v).length = 64 := leBytes_length ..
theorem lanesBytes_length (v : Vector (BitVec 576) 16) : (lanesBytes v).length = 1152 := by
  unfold lanesBytes
  rw [length_flatMap_const (n := 72) (fun l => leBytes_length ..)]
  simp
theorem Stream.bytes_length (t : Stream) : t.bytes.length = 64 := rfl

/-- The scalar registers as the context area holds them. -/
def Core.scalars (k : Core) : List Nat := 0 :: (List.range 31).map (fun i => (k.x[i + 1]?.getD 0).toNat)

/-- The parts of a context, in order. -/
def Core.parts (k : Core) : List Bytes :=
  [k.scalars.flatMap (leBytes 8), leBytes 8 k.fpctl.toNat, leBytes 8 k.fpflags.toNat, leBytes 8 k.topkK.toNat,
    leBytes 8 k.topkst.toNat, leBytes 8 k.ticketMap.toNat, zeros 88, k.p.toList.flatMap predBytes,
    k.st.toList.flatMap Stream.bytes, k.e.toList.flatMap lanesBytes, zeros 64, k.w.toList.flatMap vecBytes]

theorem context_parts (k : Core) : k.context = k.parts.flatten := by
  simp [Core.context, Core.parts, Core.scalars]

theorem parts_lengths (k : Core) :
    k.parts.map List.length = [256, 8, 8, 8, 8, 8, 88, 512, 1024, 2304, 64, 16384] := by
  have hx := length_flatMap_const (n := 8) (leBytes_length 8) k.scalars
  have hp := length_flatMap_const predBytes_length k.p.toList
  have hs := length_flatMap_const Stream.bytes_length k.st.toList
  have he := length_flatMap_const lanesBytes_length k.e.toList
  have hw := length_flatMap_const vecBytes_length k.w.toList
  have hl : k.scalars.length = 32 := by simp [Core.scalars]
  rw [hl] at hx
  rw [Vector.length_toList] at hp hs he hw
  simp only [Core.parts, List.map_cons, List.map_nil, hx, hp, hs, he, hw, leBytes_length, zeros, List.length_replicate]

theorem context_length (k : Core) : k.context.length = 20672 := by
  rw [context_parts, List.length_flatten, parts_lengths]
  rfl

theorem context_part (k : Core) {i : Nat} {b : Bytes} (h : k.parts[i]? = some b) :
    HasAt k.context (([256, 8, 8, 8, 8, 8, 88, 512, 1024, 2304, 64, 16384].take i).sum) b := by
  have := hasAt_flatten h
  rwa [← context_parts, parts_lengths] at this

section
variable (k : Core)

theorem context_scalar {i : Nat} (h : i < 31) : fieldAt k.context (8 * (i + 1)) 8 = (k.x[i + 1]?.getD 0).toNat := by
  have hx : k.scalars[i + 1]? = some ((k.x[i + 1]?.getD 0).toNat) := by simp [Core.scalars, h]
  have := ((context_part k (i := 0) rfl).trans (hasAt_flatMap (leBytes_length 8) hx)).fieldAt (leBytes_length ..)
  rw [leVal_leBytes_of_lt ((k.x[i + 1]?.getD 0).isLt)] at this
  simpa using this

theorem context_fpctl : fieldAt k.context 0x100 8 = k.fpctl.toNat :=
  ((context_part k (i := 1) rfl).fieldAt (leBytes_length ..)).trans
    (leVal_leBytes_of_lt (k.fpctl.isLt.trans_le (by decide)))

theorem context_fpflags : fieldAt k.context 0x108 8 = k.fpflags.toNat :=
  ((context_part k (i := 2) rfl).fieldAt (leBytes_length ..)).trans
    (leVal_leBytes_of_lt (k.fpflags.isLt.trans_le (by decide)))

theorem context_topkK : fieldAt k.context 0x110 8 = k.topkK.toNat :=
  ((context_part k (i := 3) rfl).fieldAt (leBytes_length ..)).trans
    (leVal_leBytes_of_lt (k.topkK.isLt.trans_le (by decide)))

theorem context_topkst : fieldAt k.context 0x118 8 = k.topkst.toNat :=
  ((context_part k (i := 4) rfl).fieldAt (leBytes_length ..)).trans (leVal_leBytes_of_lt k.topkst.isLt)

theorem context_pred (i : Fin 8) : (k.context.drop (0x180 + 64 * i)).take 64 = predBytes k.p[i] :=
  ((context_part k (i := 7) rfl).trans (hasAt_flatMap predBytes_length (x := k.p[i]) (by simp))).slice (predBytes_length _)

theorem context_stream (i : Fin 16) : (k.context.drop (0x380 + 64 * i)).take 64 = k.st[i].bytes :=
  ((context_part k (i := 8) rfl).trans (hasAt_flatMap Stream.bytes_length (x := k.st[i]) (by simp))).slice (Stream.bytes_length _)

theorem context_acc (i : Fin 2) : (k.context.drop (0x780 + 1152 * i)).take 1152 = lanesBytes k.e[i] :=
  ((context_part k (i := 9) rfl).trans (hasAt_flatMap lanesBytes_length (x := k.e[i]) (by simp))).slice (lanesBytes_length _)

theorem context_vec (i : Fin 32) : (k.context.drop (0x10C0 + 512 * i)).take 512 = vecBytes k.w[i] :=
  ((context_part k (i := 11) rfl).trans (hasAt_flatMap vecBytes_length (x := k.w[i]) (by simp))).slice (vecBytes_length _)

end

theorem predOfBytes_predBytes (v : BitVec 512) : predOfBytes (predBytes v) = v := ofNat_leVal_leBytes (n := 64) rfl v

theorem vecOfBytes_vecBytes (v : BitVec 4096) : vecOfBytes (vecBytes v) = v := ofNat_leVal_leBytes (n := 512) rfl v

theorem lanesOfBytes_lanesBytes (v : Vector (BitVec 576) 16) : lanesOfBytes (lanesBytes v) = v := by
  refine Vector.ext (fun i hi => ?_)
  have lane : HasAt (lanesBytes v) (72 * i) (leBytes 72 v[i].toNat) :=
    hasAt_flatMap (f := fun l : BitVec 576 => leBytes 72 l.toNat) (fun l => leBytes_length 72 l.toNat) (by simp [hi])
  simp only [lanesOfBytes, Vector.getElem_ofFn, lane.fieldAt (leBytes_length 72 _)]
  exact ofNat_leVal_leBytes (by decide) v[i]

/-! #### Stream registers -/

section
variable (t : Stream)

theorem Stream.bytes_desc : fieldAt t.bytes 0 8 = if t.bound then t.desc.toNat else 0 := by
  refine leVal_leBytes_of_lt (n := 8) ?_
  split
  · exact t.desc.isLt
  · decide

theorem Stream.bytes_pos : fieldAt t.bytes 8 8 = t.pos.toNat := leVal_leBytes_of_lt (n := 8) t.pos.isLt
theorem Stream.bytes_allocBase : fieldAt t.bytes 0x10 8 = t.allocBase.toNat := leVal_leBytes_of_lt (n := 8) t.allocBase.isLt
theorem Stream.bytes_allocExtent : fieldAt t.bytes 0x18 8 = t.allocExtent.toNat :=
  leVal_leBytes_of_lt (n := 8) t.allocExtent.isLt
theorem Stream.bytes_plane : fieldAt t.bytes 0x21 1 = t.plane.toNat := leVal_leBytes_of_lt (n := 1) t.plane.isLt
theorem Stream.bytes_flags : fieldAt t.bytes 0x20 1 = (if t.bound then 2 else 0) + (if t.write then 1 else 0) := by
  refine leVal_leBytes_of_lt (n := 1) ?_
  split <;> split <;> decide

/-- A stream register as it stood, from its saved bytes. -/
theorem streamOf_bytes (was : Stream) (image : BitVec 512) (draw : Nat) :
    let r := streamOf t.bytes was image draw
    r.pos = t.pos ∧ r.bound = t.bound ∧ r.write = t.write ∧ r.plane = t.plane ∧ r.allocBase = t.allocBase ∧
      r.allocExtent = t.allocExtent ∧ (t.bound = true → r.desc = t.desc) := by
  simp only [streamOf, t.bytes_desc, t.bytes_pos, t.bytes_allocBase, t.bytes_allocExtent, t.bytes_plane, t.bytes_flags,
    BitVec.ofNat_toNat, BitVec.setWidth_eq, true_and]
  refine ⟨?_, ?_, fun h => by simp [h]⟩ <;> cases t.bound <;> cases t.write <;> decide

/-- A bound stream goes on as if never interrupted (R16). -/
theorem streamOf_same (hb : t.bound = true) (image : BitVec 512) (draw : Nat) : streamOf t.bytes t image draw = t := by
  have bits : (2 + if t.write = true then 1 else 0) / 2 % 2 = 1 ∧ (2 + if t.write = true then 1 else 0) % 2 = t.write.toNat := by
    cases t.write <;> decide
  simp only [streamOf, t.bytes_desc, t.bytes_pos, t.bytes_allocBase, t.bytes_allocExtent, t.bytes_plane, t.bytes_flags, hb,
    BitVec.ofNat_toNat, BitVec.setWidth_eq, if_true, decide_true, Bool.and_self, bits]
  cases t with
  | mk desc pos base extent bound write =>
    cases hb
    cases write <;> rfl

end

/-! #### Restoring -/

theorem restore_context (s : State) (c : CoreId) (k k0 : Core) :
    (∀ i, (s.restore c k0 k.context).getX i = k.getX i) ∧ (s.restore c k0 k.context).w = k.w ∧
      (s.restore c k0 k.context).p = k.p ∧ (s.restore c k0 k.context).e = k.e ∧
      (s.restore c k0 k.context).fpctl = k.fpctl ∧ (s.restore c k0 k.context).fpflags = k.fpflags ∧
      (s.restore c k0 k.context).topkK = k.topkK ∧ (s.restore c k0 k.context).topkst = k.topkst := by
  refine ⟨fun i => ?_, Vector.ext fun i hi => ?_, Vector.ext fun i hi => ?_, Vector.ext fun i hi => ?_, ?_, ?_, ?_, ?_⟩
  · unfold Core.getX
    by_cases h : i = 0
    · rw [if_pos h, if_pos h]
    · have hi : i.toNat ≠ 0 := fun e => h (BitVec.eq_of_toNat_eq e)
      obtain ⟨n, hn⟩ := Nat.exists_eq_succ_of_ne_zero hi
      have hlt := i.isLt
      rw [if_neg h, if_neg h]
      simp only [State.restore, Vector.getElem_ofFn, if_neg hi]
      simp only [hn, Nat.succ_eq_add_one, context_scalar k (i := n) (by omega)]
      simp [show n + 1 < 32 by omega]
  · simp only [State.restore, Vector.getElem_ofFn, context_vec k ⟨i, hi⟩]
    exact vecOfBytes_vecBytes _
  · simp only [State.restore, Vector.getElem_ofFn, context_pred k ⟨i, hi⟩]
    exact predOfBytes_predBytes _
  · simp only [State.restore, Vector.getElem_ofFn, context_acc k ⟨i, hi⟩]
    exact lanesOfBytes_lanesBytes _
  · simp only [State.restore, context_fpctl, BitVec.ofNat_toNat, BitVec.setWidth_eq]
  · simp only [State.restore, context_fpflags, BitVec.ofNat_toNat, BitVec.setWidth_eq]
  · simp only [State.restore, context_topkK, BitVec.ofNat_toNat, BitVec.setWidth_eq]
  · simp only [State.restore, context_topkst, BitVec.ofNat_toNat, BitVec.setWidth_eq]

/-- A restored stream register comes from its saved bytes. -/
theorem restore_getS (s : State) (c : CoreId) (k k0 : Core) (i : BitVec 4) :
    ∃ image, (s.restore c k0 k.context).getS i = streamOf (k.getS i).bytes (k0.kept[i.toNat]?.getD Stream.unbound) image
      s.free := by
  simp only [Core.getS, State.restore, Vector.getElem_ofFn, context_stream k ⟨i.toNat, i.isLt⟩]
  exact ⟨_, rfl⟩

theorem restore_bound (s : State) (c : CoreId) {k k0 : Core} (hk : k0.kept = k.st) {i : BitVec 4} (hb : (k.getS i).bound = true) :
    (s.restore c k0 k.context).getS i = k.getS i := by
  obtain ⟨image, h⟩ := restore_getS s c k k0 i
  have was : k0.kept[i.toNat]?.getD Stream.unbound = k.getS i := by
    rw [hk, Vector.getElem?_eq_getElem i.isLt]
    rfl
  rw [h, was]
  exact streamOf_same _ hb image s.free

end Sys2Proof.Machine

/-! ### The context area in the caches, and an item put on a core (R67, R68) -/

namespace Sys2Proof.Machine

open Sys2Proof

/-! #### Dirty copies -/

/-- The Vat holds a dirty copy of the line. -/
def Dirty (s : State) (v : BitVec 6) (l : Nat) : Prop := ∃ x, l2Find s.mem.l2 v l = some x ∧ x.dirty = true

/-- The Vat's copies of the lines that satisfy `p` are the same. -/
def KeepsLines (v : BitVec 6) (p : Nat → Prop) (s t : State) : Prop :=
  ∀ l, p l → l2Find t.mem.l2 v l = l2Find s.mem.l2 v l

theorem KeepsLines.trans {v : BitVec 6} {p : Nat → Prop} {s t u : State} (h : KeepsLines v p s t) (g : KeepsLines v p t u) :
    KeepsLines v p s u := fun l hl => (g l hl).trans (h l hl)

theorem KeepsLines.of_eq {v : BitVec 6} {p : Nat → Prop} {s t : State} (h : t.mem.l2 = s.mem.l2) : KeepsLines v p s t :=
  fun l _ => by rw [h]

theorem KeepsLines.foldl {β : Type} {v : BitVec 6} {p : Nat → Prop} {f : State → β → State} {l : List β}
    (h : ∀ b ∈ l, ∀ s, KeepsLines v p s (f s b)) (s : State) : KeepsLines v p s (l.foldl f s) := by
  induction l generalizing s with
  | nil => exact fun _ _ => rfl
  | cons b l ih =>
    obtain ⟨hb, hl⟩ := List.forall_mem_cons.mp h
    exact (hb s).trans (ih hl _)

theorem KeepsLines.dirty {v : BitVec 6} {p : Nat → Prop} {s t : State} (h : KeepsLines v p s t) {l : Nat} (hp : p l)
    (hd : Dirty s v l) : Dirty t v l := by
  obtain ⟨x, hx, hdirty⟩ := hd
  exact ⟨x, (h l hp).trans hx, hdirty⟩

/-- A byte of a dirty line reads the same while the copy is the same. -/
theorem KeepsLines.seenByte {v : BitVec 6} {p : Nat → Prop} {s t : State} (h : KeepsLines v p s t) {a : Nat} (hp : p (a / 64))
    (hd : Dirty s v (a / 64)) : t.seenByte v a = s.seenByte v a := by
  obtain ⟨x, hx, hdirty⟩ := hd
  unfold State.seenByte
  rw [seenLine_dirty hx hdirty, seenLine_dirty ((h _ hp).trans hx) hdirty]

/-- The lines of a core's context area. -/
def areaLine (c : CoreId) (l : Nat) : Prop := contextArea c / 64 ≤ l ∧ l < contextArea c / 64 + 324

theorem contextArea_mod (c : CoreId) : contextArea c % 64 = 0 := by
  unfold contextArea contextBase
  omega

theorem areaLine_of_byte {c : CoreId} {q : Nat} (h1 : contextArea c ≤ q) (h2 : q < contextArea c + 0x5100) : areaLine c (q / 64) := by
  have := contextArea_mod c
  unfold areaLine
  omega

/-- A context area that stands in the Vat's caches reads the same while its copies are the same. -/
theorem KeepsLines.area {c : CoreId} {s t : State} (h : KeepsLines c.vat (areaLine c) s t)
    (hd : ∀ l, areaLine c l → Dirty s c.vat l) {off n : Nat} (hn : off + n ≤ 0x5100) :
    t.seen c.vat (contextArea c + off) n = s.seen c.vat (contextArea c + off) n :=
  seen_ext _ _ _ _ _ (fun q h1 h2 => by
    have hl := areaLine_of_byte (c := c) (q := q) (by omega) (by omega)
    exact h.seenByte hl (hd _ hl))

/-- A range of bytes beside the context area. -/
def BesideArea (c : CoreId) (a n : Nat) : Prop := a + n ≤ contextArea c ∨ contextArea c + 0x5100 ≤ a

theorem BesideArea.not_inRange {c : CoreId} {a n l : Nat} (h : BesideArea c a n) (hl : areaLine c l) : ¬ inRange a n l := by
  have := contextArea_mod c
  unfold BesideArea areaLine inRange at *
  omega

theorem flushRange_keeps {c : CoreId} {a n : Nat} (h : BesideArea c a n) (s : State) :
    KeepsLines c.vat (areaLine c) s (s.flushRange c.vat a n) :=
  fun l hl => (flushRange_wroteBack s c.vat a n).others l (h.not_inRange hl)

theorem invalRange_keeps {c : CoreId} {a n : Nat} (h : BesideArea c a n) (s : State) :
    KeepsLines c.vat (areaLine c) s (s.invalRange c.vat a n) :=
  fun l hl => (invalRange_wroteBack s c.vat a n).others l (h.not_inRange hl)

/-! #### An item put on a core -/

theorem MemOnly.dict {s t : State} (h : MemOnly s t) : t.dict = s.dict := by
  unfold MemOnly at h
  rw [h]

theorem MemOnly.setCore {s t : State} (h : MemOnly s t) (c : CoreId) (k : Core) : MemOnly (s.setCore c k) (t.setCore c k) := by
  unfold MemOnly at *
  rw [h]
  rfl

theorem memWrite_l2 (s : State) (a : Nat) (b : Bytes) : (s.memWrite a b).mem.l2 = s.mem.l2 := by
  show (s.mem.write a b).l2 = _
  rw [Memory.write_l2]

theorem writeSliceDescs_memOnly (s : State) (a : Nat) (ds : List (Option (BitVec 512))) : MemOnly s (s.writeSliceDescs a ds) :=
  foldl_memOnly _ (fun s d => by split <;> rfl) _ s

theorem writeSliceDescs_l2 (s : State) (a : Nat) (ds : List (Option (BitVec 512))) :
    (s.writeSliceDescs a ds).mem.l2 = s.mem.l2 := by
  unfold State.writeSliceDescs
  generalize ds.zipIdx = l
  induction l generalizing s with
  | nil => rfl
  | cons d l ih =>
    rw [List.foldl_cons, ih]
    split
    · exact memWrite_l2 ..
    · rfl

/-- The Vat's copies of what an item is given at its start are dropped (R56). -/
def State.freshFor (s : State) (it : Item) (c : CoreId) : State :=
  let s := s.invalRange c.vat it.ptr (256 * itemSlots it.inputs.length)
  let s := s.invalRange c.vat (s.argBlock it).1 (s.argBlock it).2
  it.inputs.foldl (fun s i => s.invalRange c.vat i.addr i.bytes) s

theorem freshFor_memOnly (s : State) (it : Item) (c : CoreId) : MemOnly s (s.freshFor it c) :=
  ((invalRange_memOnly s _ _ _).trans (invalRange_memOnly _ _ _ _)).trans
    (foldl_memOnly _ (fun s _ => invalRange_memOnly s _ _ _) _ _)

theorem MemOnly.hb {s t : State} (h : MemOnly s t) : t.hb = s.hb := by
  unfold MemOnly at h
  rw [h]

/-- The argument block of an item depends on the jobs alone. -/
theorem argBlock_jobs {s t : State} (h : t.hb.jobs = s.hb.jobs) (it : Item) : t.argBlock it = s.argBlock it := by
  unfold State.argBlock State.flow?
  rw [h]

theorem freshFor_keeps {s : State} {it : Item} {c : CoreId}
    (h : ∀ r ∈ (it.ptr, 256 * itemSlots it.inputs.length) :: s.argBlock it :: it.inputs.map (fun i => (i.addr, i.bytes)),
      BesideArea c r.1 r.2) : KeepsLines c.vat (areaLine c) s (s.freshFor it c) := by
  obtain ⟨hptr, hargs, hinputs⟩ : _ ∧ _ ∧ _ :=
    ⟨(List.forall_mem_cons.mp h).1, (List.forall_mem_cons.mp (List.forall_mem_cons.mp h).2).1,
      (List.forall_mem_cons.mp (List.forall_mem_cons.mp h).2).2⟩
  have args := argBlock_jobs (congrArg (·.jobs) (invalRange_memOnly s c.vat it.ptr (256 * itemSlots it.inputs.length)).hb) it
  have fold := KeepsLines.foldl (v := c.vat) (p := areaLine c) (f := fun s i => s.invalRange c.vat (Input.addr i) i.bytes)
    (l := it.inputs) (fun i hi => invalRange_keeps (hinputs (i.addr, i.bytes) (List.mem_map.mpr ⟨i, hi, rfl⟩)))
  exact ((invalRange_keeps hptr s).trans (invalRange_keeps (by rw [args]; exact hargs) _)).trans (fold _)

/-- What the item finds on its core and in the item store, before the Headbox notes it. -/
def State.given (s : State) (it : Item) (c : CoreId) (pre : Option ItemKey) : State :=
  let s := s.freshFor it c
  let s := s.setCore c ((s.core c).begin it pre)
  let it := s.restamp it
  let s := s.memWrite it.ptr it.bytes
  s.writeSliceDescs (it.ptr + descsOff it.inputs.length) (s.sliceDescs it)

/-- The item as it runs, with its grade and its descriptors. -/
def State.started (s : State) (it : Item) (c : CoreId) (pre : Option ItemKey) : Item :=
  let s := s.freshFor it c
  let s := s.setCore c ((s.core c).begin it pre)
  let it := s.restamp it
  { it with phase := .running, core := some c, descs := ((s.memWrite it.ptr it.bytes).sliceDescs it).filterMap id }

/-- The Headbox's notes of an item that starts: it waits nowhere, and its flow and shard run there. -/
def State.noteStart (s : State) (it : Item) (c : CoreId) : State :=
  let s := { s with hb := { s.hb with queued := s.hb.queued.filter (fun x => x.2 ≠ it.key),
                                      slots := s.hb.slots.filter (fun x => x.2 ≠ it.key) } }
  let s := match s.flow? it.key.flow with
    | some (_, f) => (s.setFlow { f with lastCore := some c }).noteShard f.shard c
    | none => s
  s.bump 0x30000C 1

theorem startOn_eq (s : State) (it : Item) (c : CoreId) (pre : Option ItemKey) :
    s.startOn it c pre = ((s.given it c pre).setItem (s.started it c pre)).noteStart (s.started it c pre) c := rfl

theorem restamp_key (s : State) (it : Item) : (s.restamp it).key = it.key := by
  unfold State.restamp
  dsimp only
  split <;> rfl

theorem started_key (s : State) (it : Item) (c : CoreId) (pre : Option ItemKey) : (s.started it c pre).key = it.key :=
  restamp_key ..

theorem noteShard_same (s : State) (n : Option Nat) (c : CoreId) : (s.noteShard n c).cores = s.cores ∧
    (s.noteShard n c).mem = s.mem ∧ (s.noteShard n c).hb.items = s.hb.items ∧ (s.noteShard n c).dict = s.dict := by
  cases n <;> exact ⟨rfl, rfl, rfl, rfl⟩

theorem noteStart_same (s : State) (it : Item) (c : CoreId) : (s.noteStart it c).cores = s.cores ∧
    (s.noteStart it c).mem = s.mem ∧ (s.noteStart it c).hb.items = s.hb.items ∧
    (s.noteStart it c).dict = (s.bump 0x30000C 1).dict := by
  unfold State.noteStart
  dsimp only
  split
  case h_1 j f h =>
    obtain ⟨cores, mem, items, dict⟩ := noteShard_same (State.setFlow { s with hb := { s.hb with
      queued := s.hb.queued.filter (fun x => x.2 ≠ it.key), slots := s.hb.slots.filter (fun x => x.2 ≠ it.key) } }
      { f with lastCore := some c }) f.shard c
    exact ⟨cores, mem, items, by unfold State.bump State.setModVal State.modVal; rw [dict]; rfl⟩
  case h_2 h => exact ⟨rfl, rfl, rfl, rfl⟩

section
variable (s : State) (it : Item) (c : CoreId) (pre : Option ItemKey)

theorem given_memOnly : MemOnly (s.setCore c ((s.core c).begin it pre)) (s.given it c pre) := by
  have fresh := freshFor_memOnly s it c
  have core : (s.freshFor it c).core c = s.core c := core_actsOnly fresh.acts c
  have placed : MemOnly (s.setCore c ((s.core c).begin it pre))
      ((s.freshFor it c).setCore c (((s.freshFor it c).core c).begin it pre)) := by
    rw [core]
    exact fresh.setCore c _
  exact (placed.trans (memWrite_memOnly ..)).trans (writeSliceDescs_memOnly ..)

theorem given_l2 : (s.given it c pre).mem.l2 = (s.freshFor it c).mem.l2 :=
  (writeSliceDescs_l2 ..).trans (memWrite_l2 ..)

/-- An item put on a core runs there; every other item and core is as before. -/
theorem startOn_core (d : CoreId) : (s.startOn it c pre).core d = if d = c then (s.core c).begin it pre else s.core d := by
  rw [startOn_eq, core_of_cores (noteStart_same ..).1 d]
  exact (core_actsOnly (given_memOnly s it c pre).acts d).trans (core_setCore ..)

theorem startOn_l2 : (s.startOn it c pre).mem.l2 = (s.freshFor it c).mem.l2 := by
  rw [startOn_eq, (noteStart_same ..).2.1]
  exact given_l2 s it c pre

theorem startOn_item? (key : ItemKey) : (s.startOn it c pre).item? key = (s.setItem (s.started it c pre)).item? key := by
  have items : (s.given it c pre).hb = s.hb := (given_memOnly s it c pre).hb.trans (setCore_hb ..)
  rw [startOn_eq]
  unfold State.item?
  rw [(noteStart_same ..).2.2.1]
  unfold State.setItem
  rw [items]

theorem startOn_modVal (key d : Nat) : (s.startOn it c pre).modVal key d = (s.bump 0x30000C 1).modVal key d := by
  have dict : (s.given it c pre).dict = s.dict := (given_memOnly s it c pre).dict.trans (setCore_dict ..)
  rw [startOn_eq]
  unfold State.modVal
  rw [(noteStart_same ..).2.2.2]
  unfold State.bump State.setModVal State.modVal State.setItem
  rw [dict]

end

end Sys2Proof.Machine

/-! ### Pre-emption (R67, R68, Tables 2.12 to 2.14) -/

namespace Sys2Proof.Machine

open Sys2Proof

theorem item?_setItem_ne {s : State} {x : Item} {key : ItemKey} (h : key ≠ x.key) : (s.setItem x).item? key = s.item? key := by
  unfold State.item? State.setItem
  refine (List.find?_map ..).trans ?_
  have same : ((fun i : Item => decide (i.key = key)) ∘ fun i => if i.key = x.key then x else i) =
      fun i : Item => decide (i.key = key) := by
    funext i
    by_cases hi : i.key = x.key
    · simp [hi]
    · simp [hi]
  rw [same]
  cases hf : s.hb.items.find? (fun i => decide (i.key = key)) with
  | none => rfl
  | some i =>
    have hk : i.key = key := by simpa using List.find?_some hf
    simp [hk, h]

theorem item?_setItem_congr {s u : State} (h : u.hb = s.hb) (it : Item) (key : ItemKey) :
    (u.setItem it).item? key = (s.setItem it).item? key := by
  unfold State.item? State.setItem
  rw [h]

/-! #### The header (Table 2.14) -/

section
variable (it : Item) (epc cycles : Nat) (ctx : Bytes)

theorem header_length : (contextHeader it epc cycles ctx).length = 64 := rfl

theorem header_version : fieldAt (contextHeader it epc cycles ctx) 0 2 = 1 := leVal_leBytes 2 1

theorem header_valid : fieldAt (contextHeader it epc cycles ctx) 2 2 = 1 := leVal_leBytes 2 1

theorem header_flow : fieldAt (contextHeader it epc cycles ctx) 4 4 = it.key.flow.toNat :=
  leVal_leBytes_of_lt (n := 4) (it.key.flow.isLt.trans_le (by decide))

theorem header_seq : fieldAt (contextHeader it epc cycles ctx) 8 8 = it.key.seq.toNat :=
  leVal_leBytes_of_lt (n := 8) (it.key.seq.isLt.trans_le (by decide))

theorem header_epc : fieldAt (contextHeader it epc cycles ctx) 0x10 8 = epc % 256 ^ 8 := leVal_leBytes 8 epc

theorem header_ptr : fieldAt (contextHeader it epc cycles ctx) 0x18 8 = it.ptr % 256 ^ 8 := leVal_leBytes 8 it.ptr

theorem header_cycles : fieldAt (contextHeader it epc cycles ctx) 0x20 4 = cycles % 256 ^ 4 := leVal_leBytes 4 cycles

theorem header_check : fieldAt (contextHeader it epc cycles ctx) 0x38 4 = (crc32c 0 ctx).toNat :=
  leVal_leBytes_of_lt (n := 4) (crc32c 0 ctx).isLt

end

/-! #### What the core saves -/

section
variable (s : State) (b : Item) (c : CoreId)

/-- The two stores of the context, the header last. -/
def State.savedMem : State :=
  (s.store c.vat (contextArea c + 0x40) (s.core c).context).store c.vat (contextArea c)
    (contextHeader b (s.core c).pc.toNat (s.core c).itemCycles.toNat (s.core c).context)

/-- A class B item's core as the Vat saves it: its context stands in the context area, and the item is pre-empted. -/
def State.savedFor : State :=
  ((s.savedMem b c).setCore c { s.core c with kept := (s.core c).st }).setItem { b with phase := .preempted }

theorem preempt_eq (it : Item) :
    s.preempt it b c = ((s.savedFor b c).startOn it c (some b.key)).bump 0x30000D 1 := rfl

theorem savedMem_memOnly : MemOnly s (s.savedMem b c) := (store_memOnly ..).trans (store_memOnly ..)

theorem core_setItem (it : Item) (d : CoreId) : (s.setItem it).core d = s.core d := rfl

theorem core_bump (n m : Nat) (d : CoreId) : (s.bump n m).core d = s.core d := rfl

theorem item?_bump (n m : Nat) (key : ItemKey) : (s.bump n m).item? key = s.item? key := rfl

theorem setItem_jobs (it : Item) : (s.setItem it).hb.jobs = s.hb.jobs := rfl

theorem savedFor_core (d : CoreId) :
    (s.savedFor b c).core d = if d = c then { s.core c with kept := (s.core c).st } else s.core d := by
  unfold State.savedFor
  rw [core_setItem, core_setCore, core_actsOnly (savedMem_memOnly s b c).acts]

theorem savedFor_item? (key : ItemKey) :
    (s.savedFor b c).item? key = (s.setItem { b with phase := .preempted }).item? key :=
  item?_setItem_congr ((setCore_hb ..).trans (savedMem_memOnly s b c).hb) _ key

theorem savedFor_modVal (key d : Nat) : (s.savedFor b c).modVal key d = s.modVal key d := by
  unfold State.modVal State.savedFor
  rw [setItem_dict, setCore_dict, (savedMem_memOnly s b c).dict]

theorem savedMem_header : (s.savedMem b c).seen c.vat (contextArea c) 64 =
    contextHeader b (s.core c).pc.toNat (s.core c).itemCycles.toNat (s.core c).context :=
  seen_store _ c.vat _ (contextHeader b (s.core c).pc.toNat (s.core c).itemCycles.toNat (s.core c).context)

theorem savedMem_context : (s.savedMem b c).seen c.vat (contextArea c + 0x40) 20672 = (s.core c).context := by
  have store := seen_store s c.vat (contextArea c + 0x40) (s.core c).context
  rw [context_length] at store
  exact (seen_store_other _ _ _ _ _ _ (.inr (by rw [header_length]))).trans store

theorem savedMem_dirty {l : Nat} (h : areaLine c l) : Dirty (s.savedMem b c) c.vat l := by
  have aligned := contextArea_mod c
  obtain ⟨h1, h2⟩ := h
  refine store_dirty _ _ _ _ _ ?_
  by_cases hl : l = contextArea c / 64
  · exact .inr ⟨contextArea c, le_rfl, by rw [header_length]; omega, hl.symm⟩
  · exact .inl (store_dirty _ _ _ _ _ (.inr ⟨64 * l, by omega, by rw [context_length]; omega, by omega⟩))

end

/-! #### The request -/

section
variable {s : State} {c : CoreId} {it b : Item} {key : ItemKey}

theorem preemptRequest_preempts (hi : s.item? it.key = some it) (hc : it.cls = 0) (hp : it.phase = .created ∨ it.phase = .queued)
    (hb : s.item? key = some b) (ha : (s.core c).active = true) (hf : (s.core c).firmware = false)
    (hcls : (s.core c).itemClass = 1) (hfin : (s.core c).finishing = none) (hpre : (s.core c).preempted = none)
    (hit : (s.core c).item = some key) (hpull : s.hb.pull = false) (h1 : it.avoidCore ≠ some c)
    (h2 : it.avoidDie ≠ some (vatDie c.vat)) (h3 : it.avoidVat ≠ some c.vat)
    (hroom : (s.cores.filter (fun e => e.2.preempted.isSome)).length < s.furn 0x481005 128) :
    exec (.preemptRequest c it.key.flow it.key.seq) s = .next (s.preempt it b c) := by
  have preemptable : s.preemptable c = some b := by
    unfold State.preemptable
    simp [ha, hf, hcls, hfin, hpre, hit, hb]
  have victim : (s.victimOf it c).isSome = true := by
    unfold State.victimOf
    simp [h1, h2, h3, preemptable]
  have room : s.preemptRoom = true := decide_eq_true hroom
  have phase : (decide (it.phase = .created) || decide (it.phase = .queued)) = true := by simpa using hp
  have hi' : s.item? { flow := it.key.flow, seq := it.key.seq } = some it := hi
  show execPreemptRequest c it.key.flow it.key.seq s = _
  unfold execPreemptRequest
  rw [hi', preemptable]
  simp only [victim, hc, phase, hpull, room]
  rfl

/-- The core that takes the class A item begins it, with the tickets of the item it pre-empted. -/
theorem preempt_core (d : CoreId) : (s.preempt it b c).core d =
    if d = c then ({ s.core c with kept := (s.core c).st } : Core).begin it (some b.key) else s.core d := by
  rw [preempt_eq, core_bump, startOn_core, savedFor_core, if_pos rfl, savedFor_core]
  split <;> rfl

/-- Beside the class A item, which runs on the core, an item is as the saved state has it. -/
theorem preempt_item? (hi : s.item? it.key = some it) (hb : s.item? key = some b) (hk : it.key ≠ key) :
    (s.preempt it b c).item? key = some { b with phase := .preempted } ∧
      ∃ i, (s.preempt it b c).item? it.key = some i ∧ i.phase = .running ∧ i.core = some c := by
  obtain rfl := item?_key hb
  have started := started_key (s.savedFor b c) it c (some b.key)
  rw [preempt_eq, item?_bump, startOn_item?, item?_bump, startOn_item?]
  refine ⟨?_, (s.savedFor b c).started it c (some b.key), ?_, rfl, rfl⟩
  · rw [item?_setItem_ne (by rw [started]; exact hk.symm), savedFor_item?]
    exact item?_setItem (x := { b with phase := .preempted }) hb
  · have saved : (s.savedFor b c).item? it.key = some it := by
      rw [savedFor_item?, item?_setItem_ne (by exact hk)]
      exact hi
    have := item?_setItem (x := (s.savedFor b c).started it c (some b.key)) (it := it) (by rw [started]; exact saved)
    rwa [started] at this

theorem preempt_counts : (s.preempt it b c).modVal 0x30000D 0 = s.modVal 0x30000D 0 + 1 := by
  rw [preempt_eq, (bump_countsBy _ _ _).1, startOn_modVal, (bump_countsBy _ _ _).2 _ _ (by decide), savedFor_modVal]

/-- The context area stands in the Vat's caches as it was saved. -/
theorem preempt_keeps (h : ∀ r ∈ (it.ptr, 256 * itemSlots it.inputs.length) :: s.argBlock it ::
      it.inputs.map (fun i => (i.addr, i.bytes)), BesideArea c r.1 r.2) :
    KeepsLines c.vat (areaLine c) (s.savedMem b c) (s.preempt it b c) := by
  have saved : KeepsLines c.vat (areaLine c) (s.savedMem b c) (s.savedFor b c) := .of_eq (by
    unfold State.savedFor
    rw [setItem_mem, setCore_mem])
  have args : (s.savedFor b c).argBlock it = s.argBlock it := by
    refine argBlock_jobs ?_ it
    unfold State.savedFor
    rw [setItem_jobs, setCore_hb, (savedMem_memOnly s b c).hb]
  have fresh := freshFor_keeps (s := s.savedFor b c) (it := it) (c := c) (by rw [args]; exact h)
  have started : KeepsLines c.vat (areaLine c) ((s.savedFor b c).freshFor it c) (s.preempt it b c) := .of_eq (by
    rw [preempt_eq, bump_mem, startOn_l2])
  exact (saved.trans fresh).trans started

/-- The registers of a core that begins an item are zero (R423). -/
theorem begin_getX (k : Core) (it : Item) (pre : Option ItemKey) (r : BitVec 5) : (k.begin it pre).getX r = 0 := by
  unfold Core.getX Core.begin
  split
  · rfl
  · simp

/-- A class A item that pre-empts finds its own tickets free, and leaves the other item's as they are (R49). -/
theorem begin_getT {k : Core} {it : Item} (hc : it.cls = 0) (key : ItemKey) (n : BitVec 5) :
    (k.begin it (some key)).getT n = if 24 ≤ n.toNat then .free else k.getT n := by
  have hn := n.isLt
  have hi : n.toNat ≤ 31 := by omega
  simp [Core.getT, Core.begin, hc, ticketLo, ticketHi, hi]

/-- R67, R68: what a pre-emption leaves on the core, in the Headbox and in the context area. -/
theorem preempt_saves (hi : s.item? it.key = some it) (hc : it.cls = 0) (hb : s.item? key = some b) (hk : it.key ≠ key)
    (t : State) (ht : s.preempt it b c = t) :
    (t.core c).preempted = some key ∧ (t.core c).item = some it.key ∧ (t.core c).active = true ∧
      (t.core c).runahead = false ∧ (t.core c).pc = BitVec.ofNat 64 it.entry ∧ (t.core c).itemPtr = BitVec.ofNat 64 it.ptr ∧
      (∀ r, (t.core c).getX r = 0) ∧ (∀ n, (t.core c).getT n = if 24 ≤ n.toNat then .free else (s.core c).getT n) ∧
      (∀ d, d ≠ c → t.core d = s.core d) ∧ t.item? key = some { b with phase := .preempted } ∧
      (∃ i, t.item? it.key = some i ∧ i.phase = .running ∧ i.core = some c) ∧
      t.modVal 0x30000D 0 = s.modVal 0x30000D 0 + 1 ∧ (t.core c).kept = (s.core c).st := by
  subst ht
  obtain rfl := item?_key hb
  obtain ⟨hold, hnew⟩ := preempt_item? (c := c) hi hb hk
  have core : (s.preempt it b c).core c = ({ s.core c with kept := (s.core c).st } : Core).begin it (some b.key) :=
    (preempt_core c).trans (if_pos rfl)
  rw [core]
  exact ⟨rfl, rfl, rfl, rfl, rfl, rfl, begin_getX _ it _, begin_getT hc b.key, fun d hd => (preempt_core d).trans (if_neg hd),
    hold, hnew, preempt_counts, rfl⟩

/-- R68, Tables 2.13 and 2.14: the context area as a core of the Vat then sees it. -/
theorem preempt_area (hb : s.item? key = some b) (h : ∀ r ∈ (it.ptr, 256 * itemSlots it.inputs.length) :: s.argBlock it ::
      it.inputs.map (fun i => (i.addr, i.bytes)), BesideArea c r.1 r.2) (t : State) (ht : s.preempt it b c = t) :
    let a := contextArea c
    let h := t.seen c.vat a 64
    t.seen c.vat (a + 0x40) 20672 = (s.core c).context ∧ fieldAt h 0 2 = 1 ∧ fieldAt h 2 2 = 1 ∧
      fieldAt h 4 4 = key.flow.toNat ∧ fieldAt h 8 8 = key.seq.toNat ∧ fieldAt h 0x10 8 = (s.core c).pc.toNat ∧
      fieldAt h 0x18 8 = b.ptr % 2 ^ 64 ∧ fieldAt h 0x20 4 = (s.core c).itemCycles.toNat ∧
      fieldAt h 0x38 4 = (crc32c 0 (s.core c).context).toNat ∧
      ∀ i, i < 324 → ∃ x, l2Find t.mem.l2 c.vat (a / 64 + i) = some x ∧ x.dirty = true := by
  subst ht
  obtain rfl := item?_key hb
  have keeps := preempt_keeps (b := b) h
  have dirty := fun l => savedMem_dirty s b c (l := l)
  have header : (s.preempt it b c).seen c.vat (contextArea c) 64 = _ :=
    (keeps.area dirty (off := 0) (by decide)).trans (savedMem_header s b c)
  have context := (keeps.area dirty (off := 0x40) (n := 20672) (by decide)).trans (savedMem_context s b c)
  intro a h
  rw [show h = _ from header]
  refine ⟨context, header_version .., header_valid .., header_flow .., header_seq .., ?_, header_ptr .., ?_, header_check ..,
    fun i hi => keeps.dirty ⟨?_, ?_⟩ (dirty _ ⟨?_, ?_⟩)⟩
  · exact (header_epc ..).trans (Nat.mod_eq_of_lt (s.core c).pc.isLt)
  · exact (header_cycles ..).trans (Nat.mod_eq_of_lt (s.core c).itemCycles.isLt)
  all_goals omega

end

end Sys2Proof.Machine

/-! ### The end of a class A item and the item it had pre-empted (R69, R70) -/

namespace Sys2Proof.Machine

open Sys2Proof

section
variable {s : State} {c : CoreId} {key : ItemKey} {it b : Item}

theorem itemEnd_resumes (h : (s.core c).item = some it.key) (hp : (s.core c).preempted = some key) (hi : s.item? it.key = some it)
    (st : BitVec 16) : s.itemEnd c st =
      (((s.setCore c (s.core c).vacate).setItem (it.measured (s.core c))).outcome (it.measured (s.core c)) c st).resume c key := by
  have hi : (s.setCore c (s.core c).vacate).item? it.key = some it := hi
  unfold State.itemEnd
  simp only [h, hp, hi]
  rfl

theorem finish_flushes (h : (s.core c).item = some it.key) (hi : s.item? it.key = some it) (st : BitVec 16) :
    s.finish c st = (s.flushRange c.vat it.out it.outBytes).itemEnd c st := by
  unfold State.finish
  simp only [h, hi]

/-- A class A item whose DONE reports success waits in the window of its answers (R283). -/
theorem outcome_accepts {j : Job} (hc : it.cls = 0) (hr : it.reply ≠ .none) (hj : s.job? it.job = some j) (hs : j.stopped = none)
    (hw : it.key ∈ s.hb.winItems) : s.outcome it c 0 = s.setItem { it with phase := .accepted, core := none } := by
  have hr : ¬ it.reply = .none := hr
  unfold State.outcome
  simp [Item.answered, hc, hr, hj, hs, hw]

theorem measured_fields (k : Core) : (it.measured k).key = it.key ∧ (it.measured k).cls = it.cls ∧
    (it.measured k).reply = it.reply ∧ (it.measured k).job = it.job := by
  unfold Item.measured
  split <;> exact ⟨rfl, rfl, rfl, rfl⟩

/-- The core as the pre-empted item goes on, from the header and the context bytes. -/
def State.resumed (s : State) (c : CoreId) (b : Item) (hdr ctx : Bytes) : Core :=
  { s.restore c (s.core c) ctx with
    pc := BitVec.ofNat 64 (fieldAt hdr 0x10 8), active := true, item := some b.key,
    itemPtr := BitVec.ofNat 64 (fieldAt hdr 0x18 8), itemClass := b.cls,
    itemCycles := BitVec.ofNat 32 (fieldAt hdr 0x20 4), kept := Vector.replicate 16 Stream.unbound }

/-- R69, R70: a context whose header is valid and whose check value matches is restored, and VALID cleared. -/
theorem resume_eq (hb : s.item? b.key = some b) (hphase : b.phase = .preempted) {hdr ctx : Bytes}
    (hh : s.seen c.vat (contextArea c) 64 = hdr) (hx : s.seen c.vat (contextArea c + 0x40) 20672 = ctx)
    (hv : fieldAt hdr 2 2 = 1) (hk : fieldAt hdr 0x38 4 = (crc32c 0 ctx).toNat) :
    s.resume c b.key = ((s.setCore c (s.resumed c b hdr ctx)).store c.vat (contextArea c + 2) [0, 0]).setItem
      { b with phase := .running, core := some c } := by
  unfold State.resume
  simp only [hb, hh, hx, hv, hk, hphase]
  rfl

/-- The class A item's end leaves the module as it was, but for the item and the core it leaves, and then the other item
resumes. -/
theorem itemEnd_accepts {j : Job} (h : (s.core c).item = some it.key) (hp : (s.core c).preempted = some key)
    (hi : s.item? it.key = some it) (hc : it.cls = 0) (hr : it.reply ≠ .none) (hj : s.job? it.job = some j)
    (hs : j.stopped = none) (hw : it.key ∈ s.hb.winItems) : ∃ x : State, s.itemEnd c 0 = x.resume c key ∧ x.mem = s.mem ∧
      (∀ d, x.core d = if d = c then (s.core c).vacate else s.core d) ∧
      (∃ y, x.item? it.key = some y ∧ y.phase = .accepted) ∧ ∀ k, k ≠ it.key → x.item? k = s.item? k := by
  obtain ⟨mkey, mcls, mreply, mjob⟩ := measured_fields (it := it) (s.core c)
  generalize hm : it.measured (s.core c) = m at mkey mcls mreply mjob
  have marked : ((s.setCore c (s.core c).vacate).setItem m).item? m.key = some m :=
    item?_setItem (s := s.setCore c (s.core c).vacate) (it := it) (by rw [mkey]; exact hi)
  refine ⟨((s.setCore c (s.core c).vacate).setItem m).setItem { m with phase := .accepted, core := none }, ?_, rfl,
    fun d => core_setCore s c d _, ⟨{ m with phase := .accepted, core := none }, ?_, rfl⟩, fun k hk => ?_⟩
  · rw [itemEnd_resumes h hp hi, hm, outcome_accepts (mcls ▸ hc) (mreply ▸ hr) (by rw [mjob]; exact hj) hs (by rw [mkey]; exact hw)]
  · rw [← mkey]
    exact item?_setItem (x := { m with phase := .accepted, core := none }) marked
  · rw [item?_setItem_ne (by rw [mkey]; exact hk), item?_setItem_ne (by rwa [mkey])]
    rfl

end

/-- Every register of a stream but those that its saved bytes do not hold. -/
theorem restore_streams (s : State) (c : CoreId) (k k0 : Core) (i : BitVec 4) :
    let r := (s.restore c k0 k.context).getS i
    r.pos = (k.getS i).pos ∧ r.bound = (k.getS i).bound ∧ r.write = (k.getS i).write ∧ r.plane = (k.getS i).plane ∧
      r.allocBase = (k.getS i).allocBase ∧ r.allocExtent = (k.getS i).allocExtent ∧
      ((k.getS i).bound = true → r.desc = (k.getS i).desc) := by
  obtain ⟨image, h⟩ := restore_getS s c k k0 i
  rw [h]
  exact streamOf_bytes ..

theorem vacate_getT {k : Core} (hc : k.itemClass = 0) {n : BitVec 5} (hn : n.toNat < 24) : k.vacate.getT n = k.getT n := by
  unfold Core.getT Core.vacate
  simp [hc, ticketLo, Nat.not_le.mpr hn]

section
variable {s : State} {c : CoreId} {b : Item} {k : Core} {hdr : Bytes}

theorem resumed_preempted (s : State) (c : CoreId) (b : Item) (hdr ctx : Bytes) :
    (s.resumed c b hdr ctx).preempted = (s.core c).preempted := by
  unfold State.resumed State.restore
  rfl

theorem resumed_getX (s : State) (c : CoreId) (b : Item) (hdr ctx : Bytes) (n : BitVec 5) :
    (s.resumed c b hdr ctx).getX n = (s.restore c (s.core c) ctx).getX n := by
  unfold Core.getX State.resumed
  rfl

theorem resumed_getS (s : State) (c : CoreId) (b : Item) (hdr ctx : Bytes) (n : BitVec 4) :
    (s.resumed c b hdr ctx).getS n = (s.restore c (s.core c) ctx).getS n := by
  unfold Core.getS State.resumed
  rfl

theorem resumed_getT (s : State) (c : CoreId) (b : Item) (hdr ctx : Bytes) (n : BitVec 5) :
    (s.resumed c b hdr ctx).getT n = (s.core c).getT n := by
  unfold Core.getT State.resumed State.restore
  rfl

/-- R69: the registers, streams and tickets of the item that goes on. -/
theorem resumed_core (hk : (s.core c).kept = k.st) (r : Core) (hr : s.resumed c b hdr k.context = r) :
    r.active = true ∧ r.item = some b.key ∧ r.preempted = (s.core c).preempted ∧ r.itemClass = b.cls ∧
      r.pc = BitVec.ofNat 64 (fieldAt hdr 0x10 8) ∧ r.itemPtr = BitVec.ofNat 64 (fieldAt hdr 0x18 8) ∧
      r.itemCycles = BitVec.ofNat 32 (fieldAt hdr 0x20 4) ∧ (∀ n, r.getX n = k.getX n) ∧ r.w = k.w ∧ r.p = k.p ∧ r.e = k.e ∧
      r.fpctl = k.fpctl ∧ r.fpflags = k.fpflags ∧ r.topkK = k.topkK ∧ r.topkst = k.topkst ∧
      (∀ n, (k.getS n).bound = true → r.getS n = k.getS n) ∧ (∀ n, (r.getS n).bound = (k.getS n).bound) ∧
      ∀ n, r.getT n = (s.core c).getT n := by
  subst hr
  obtain ⟨hx, hw, hp, he, hctl, hflags, hK, hst⟩ := restore_context s c k (s.core c)
  have bound : ∀ n, ((s.restore c (s.core c) k.context).getS n).bound = (k.getS n).bound := fun n => by
    obtain ⟨-, h, -⟩ := restore_streams s c k (s.core c) n
    exact h
  exact ⟨rfl, rfl, resumed_preempted s c b hdr _, rfl, rfl, rfl, rfl, fun n => (resumed_getX ..).trans (hx n), hw, hp, he, hctl, hflags, hK, hst,
    fun n hn => (resumed_getS ..).trans (restore_bound s c hk hn), fun n => by rw [resumed_getS, bound], resumed_getT s c b hdr _⟩

theorem seen_setItem (s : State) (it : Item) (v : BitVec 6) (a n : Nat) : (s.setItem it).seen v a n = s.seen v a n :=
  seen_ext _ _ _ _ _ (fun q _ _ => seenByte_congr (s := s) rfl rfl rfl v q)

theorem core_store (s : State) (v : BitVec 6) (a : Nat) (x : Bytes) (d : CoreId) : (s.store v a x).core d = s.core d :=
  core_actsOnly (store_memOnly s v a x).acts d

/-- R69, R70: the core, the Headbox and the header after a resumption. -/
theorem resume_resumes (hb : s.item? b.key = some b) (hphase : b.phase = .preempted)
    (hh : s.seen c.vat (contextArea c) 64 = hdr) (hx : s.seen c.vat (contextArea c + 0x40) 20672 = k.context)
    (hv : fieldAt hdr 2 2 = 1) (hcrc : fieldAt hdr 0x38 4 = (crc32c 0 k.context).toNat) (t : State)
    (ht : s.resume c b.key = t) :
    (∀ d, t.core d = if d = c then s.resumed c b hdr k.context else s.core d) ∧
      t.item? b.key = some { b with phase := .running, core := some c } ∧ (∀ key, key ≠ b.key → t.item? key = s.item? key) ∧
      fieldAt (t.seen c.vat (contextArea c) 64) 2 2 = 0 := by
  rw [resume_eq hb hphase hh hx hv hcrc] at ht
  subst ht
  have items : ((s.setCore c (s.resumed c b hdr k.context)).store c.vat (contextArea c + 2) [0, 0]).hb = s.hb :=
    (store_memOnly ..).hb.trans (setCore_hb ..)
  refine ⟨fun d => ?_, ?_, fun key hk => ?_, ?_⟩
  · rw [core_setItem, core_store, core_setCore]
  · rw [item?_setItem_congr items]
    exact item?_setItem (x := { b with phase := .running, core := some c }) hb
  · rw [item?_setItem_congr items]
    exact item?_setItem_ne hk
  · have stored := seen_store (s.setCore c (s.resumed c b hdr k.context)) c.vat (contextArea c + 2) [0, 0]
    rw [List.length_cons, List.length_singleton] at stored
    rw [fieldAt_seen _ _ _ (by decide), seen_setItem, stored]
    rfl

end

/-! #### DONE of the class A item -/

section
variable {u : State} {c : CoreId} {f : SR} {w : Companions} {es : List Effect} {k : Core} {i b : Item} {j : Job}

/-- The word and the output's write-back leave the context area, the Headbox and the other cores. -/
theorem done_flushes (hcore : (u.core c).firmware = false) (hcls : (u.core c).itemClass = 0)
    (hitem : (u.core c).item = some i.key) (hi : u.item? i.key = some i) (hout : BesideArea c i.out i.outBytes)
    (h0 : f.imm10 = 0) (hd : f.xd = 0) (h2 : f.xs2 = 0) (hst : ((u.core c).getX f.xs1).setWidth 16 = (0 : BitVec 16))
    (hfree : ∀ n : BitVec 5, 24 ≤ n.toNat → (u.core c).getT n = .free) (ho : OthersRun 0 [] c w u es)
    (hes : ∀ e ∈ es, e.ticket = none ∧ e.acts = []) :
    ∃ v, exec (.done c f w) u = .next (v.itemEnd c 0) ∧ v.hb = u.hb ∧ KeepsLines c.vat (areaLine c) u v ∧
      (∀ d, d ≠ c → v.core d = u.core d) ∧ (v.core c).kept = (u.core c).kept ∧ (v.core c).item = (u.core c).item ∧
      (v.core c).preempted = (u.core c).preempted ∧ (v.core c).itemClass = (u.core c).itemClass ∧
      ∀ n, (v.core c).getT n = (u.core c).getT n := by
  have own : OwnFree (u.core c) := fun n hl _ => hfree n (by
    unfold ticketLo Core.cls at hl
    rw [hcore, hcls] at hl
    exact hl)
  obtain ⟨u', hw, -, hsame, hkept, htickets, hx⟩ := exec_done hcore h0 hd h2 own ho (fun e he => (hes e he).1)
  obtain ⟨same, others⟩ := hsame (fun e he => (hes e he).2)
  obtain ⟨-, -, witem, -, wcls, wpre, -⟩ := hw.item
  have hb : u'.hb = u.hb := by rw [same]
  have mem : u'.mem = u.mem := by rw [same]
  have hi' : u'.item? i.key = some i := by
    unfold State.item? at *
    rwa [hb]
  rw [hst, finish_flushes (witem.trans hitem) hi'] at hx
  have flush := flushRange_memOnly u' c.vat i.out i.outBytes
  have core : ∀ d, (u'.flushRange c.vat i.out i.outBytes).core d = u'.core d := core_actsOnly flush.acts
  refine ⟨_, hx, flush.hb.trans hb, (KeepsLines.of_eq (by rw [mem])).trans (flushRange_keeps hout u'),
    fun d hdc => (core d).trans (others d hdc), ?_⟩
  rw [core c]
  exact ⟨hkept, witem, wpre, wcls, htickets⟩

/-- R69, R70: DONE of a class A item gives the core back to the item it had pre-empted. -/
theorem done_resumes (hcore : (u.core c).firmware = false) (hcls : (u.core c).itemClass = 0)
    (hitem : (u.core c).item = some i.key) (hpre : (u.core c).preempted = some b.key) (hi : u.item? i.key = some i)
    (hb : u.item? b.key = some b) (hne : i.key ≠ b.key) (hphase : b.phase = .preempted) (hic : i.cls = 0) (hreply : i.reply ≠ .none)
    (hj : u.job? i.job = some j) (hstop : j.stopped = none) (hwin : i.key ∈ u.hb.winItems) (hout : BesideArea c i.out i.outBytes)
    (hkept : (u.core c).kept = k.st) (hctx : u.seen c.vat (contextArea c + 0x40) 20672 = k.context)
    (hv : fieldAt (u.seen c.vat (contextArea c) 64) 2 2 = 1)
    (hcrc : fieldAt (u.seen c.vat (contextArea c) 64) 0x38 4 = (crc32c 0 k.context).toNat)
    (hdirty : ∀ l, areaLine c l → Dirty u c.vat l)
    (h0 : f.imm10 = 0) (hd : f.xd = 0) (h2 : f.xs2 = 0) (hst : ((u.core c).getX f.xs1).setWidth 16 = (0 : BitVec 16))
    (hfree : ∀ n : BitVec 5, 24 ≤ n.toNat → (u.core c).getT n = .free) (ho : OthersRun 0 [] c w u es)
    (hes : ∀ e ∈ es, e.ticket = none ∧ e.acts = []) :
    ∃ t, ∃ x : State, exec (.done c f w) u = .next t ∧ (x.core c).kept = k.st ∧ (x.core c).preempted = none ∧
      (∀ n : BitVec 5, n.toNat < 24 → (x.core c).getT n = (u.core c).getT n) ∧
      t.core c = x.resumed c b (u.seen c.vat (contextArea c) 64) k.context ∧
      t.item? b.key = some { b with phase := .running, core := some c } ∧
      (∃ y, t.item? i.key = some y ∧ y.phase = .accepted) ∧ fieldAt (t.seen c.vat (contextArea c) 64) 2 2 = 0 ∧
      ∀ d, d ≠ c → t.core d = u.core d := by
  obtain ⟨v, hx, vhb, keeps, vothers, vkept, vitem, vpre, vcls, vtickets⟩ :=
    done_flushes hcore hcls hitem hi hout h0 hd h2 hst hfree ho hes
  have found : ∀ key, v.item? key = u.item? key := fun key => by unfold State.item?; rw [vhb]
  have vjob : v.job? i.job = some j := by unfold State.job? at *; rwa [vhb]
  obtain ⟨x, hend, xmem, xcore, ⟨y, xi, hy⟩, xothers⟩ := itemEnd_accepts (vitem.trans hitem) (vpre.trans hpre)
    ((found _).trans hi) hic hreply vjob hstop (by rwa [vhb])
  have xkeeps : KeepsLines c.vat (areaLine c) u x := keeps.trans (.of_eq (by rw [xmem]))
  have xseen : x.seen c.vat (contextArea c) 64 = u.seen c.vat (contextArea c) 64 := xkeeps.area hdirty (off := 0) (by decide)
  have xctx := (xkeeps.area hdirty (off := 0x40) (n := 20672) (by decide)).trans hctx
  have xb : x.item? b.key = some b := (xothers _ hne.symm).trans ((found _).trans hb)
  obtain ⟨tcore, tb, tothers, tvalid⟩ := resume_resumes xb hphase xseen xctx hv hcrc _ rfl
  have cx : x.core c = (v.core c).vacate := (xcore c).trans (if_pos rfl)
  refine ⟨x.resume c b.key, x, hx.trans (by rw [hend]), ?_, ?_, fun n hn => ?_, (tcore c).trans (if_pos rfl), tb,
    ⟨y, (tothers _ hne).trans xi, hy⟩, tvalid, fun d hdc => ?_⟩
  · rw [cx]
    exact vkept.trans hkept
  · rw [cx]
    rfl
  · rw [cx, vacate_getT (vcls.trans hcls) hn, vtickets]
  · rw [tcore, if_neg hdc, xcore, if_neg hdc, vothers d hdc]

end

end Sys2Proof.Machine

/-! ### Creation of descriptors (R118 to R123), and run-ahead -/

namespace Sys2Proof.Machine

open Sys2Proof

/-! #### Creation ports -/

theorem port_setPort (s : State) (n m : Nat) (w : PortWindow) : (s.setPort n w).port m = if m = n then w else s.port m :=
  Assoc.get_set ..

theorem seen_setPort (s : State) (n : Nat) (w : PortWindow) (v : BitVec 6) (a m : Nat) : (s.setPort n w).seen v a m = s.seen v a m :=
  seen_ext _ _ _ _ _ (fun q _ _ => seenByte_congr (s := s) rfl rfl rfl v q)

/-- A check of Table 5.3 that fails has a code. -/
theorem descCheck_code {s : State} {b : BitVec 512} {job : BitVec 64} {index : BitVec 512} {code : BitVec 16}
    (h : s.descCheck b job index = some code) : code ≠ 0 := by
  unfold State.descCheck at h
  dsimp only at h
  split_ifs at h
  all_goals
    obtain rfl := Option.some.inj h
    decide

section
variable {s : State} {vat : BitVec 6} {n : Nat} {w : PortWindow} {job : BitVec 64} {index : BitVec 512}

theorem portCreate_refused (hw : s.port n = w) (hj : (s.alloc (descOf w.draft).alloc).job = job)
    (hi : bytesToLine (s.seen vat (descOf w.draft).idxref 64) = index) {code : BitVec 16}
    (h : s.descCheck w.draft job index = some code) : s.portCreate vat n = s.setPort n { w with stat := code.setWidth 32 } := by
  unfold State.portCreate
  simp only [hw, hj, hi, h, if_neg (descCheck_code h)]

theorem portCreate_granted (hw : s.port n = w) (hj : (s.alloc (descOf w.draft).alloc).job = job)
    (hi : bytesToLine (s.seen vat (descOf w.draft).idxref 64) = index) (h : s.descCheck w.draft job index = none)
    (ha : w.dst.toNat % 64 = 0) (hr : s.rwRecordHolds job w.dst.toNat 64 = true) :
    s.portCreate vat n = (s.setPort n { w with stat := 0 }).store vat w.dst.toNat (lineToBytes (s.marked w.draft job)) := by
  unfold State.portCreate
  simp only [hw, hj, hi, h, ha, hr]
  rfl

end

/-! #### Stores through the caches -/

theorem store_l2 (s : State) (v : BitVec 6) (a : Nat) (b : Bytes) :
    (s.store v a b).mem = { s.mem with l2 := (s.store v a b).mem.l2 } ∧
      (s.store v a b).mem.l2.filter (fun l => l.vat ≠ v) = s.mem.l2.filter (fun l => l.vat ≠ v) := by
  induction b generalizing s a with
  | nil => exact ⟨rfl, rfl⟩
  | cons x b ih =>
    obtain ⟨mem, others⟩ := ih (s.storeByte v a x) (a + 1)
    exact ⟨mem, others.trans (putLine_others s v _ _ _)⟩

/-- The cells of one write. -/
theorem mem_cellsOf {a q : Nat} {b : Bytes} {x : BitVec 8} :
    (q, x) ∈ cellsOf [(a, b)] ↔ a ≤ q ∧ b[q - a]? = some x := by
  unfold cellsOf
  simp only [List.flatMap_cons, List.flatMap_nil, List.append_nil, List.mem_map, Prod.mk.injEq, Prod.exists,
    List.mem_zipIdx_iff_getElem?]
  constructor
  · rintro ⟨y, i, hi, rfl, rfl⟩
    exact ⟨Nat.le_add_right .., by rwa [Nat.add_sub_cancel_left]⟩
  · rintro ⟨hq, hx⟩
    exact ⟨x, q - a, hx, by omega, rfl⟩

theorem mem_of_lastStore {cells : List (Nat × BitVec 8)} {a : Nat} {b : BitVec 8} (h : lastStore cells a = some b) :
    (a, b) ∈ cells := by
  obtain ⟨x, hx, rfl⟩ := Option.map_eq_some_iff.mp h
  have hm := List.mem_reverse.mp (List.mem_of_find?_eq_some hx)
  obtain rfl : x.1 = a := by simpa using List.find?_some hx
  exact hm

theorem store_storedInVat {s : State} (c : CoreId) (a : Nat) (b : Bytes) : StoredInVat c [(a, b)] s (s.store c.vat a b) := by
  obtain ⟨mem, others⟩ := store_l2 s c.vat a b
  have free : (s.store c.vat a b).free = s.free := by
    rw [show s.store c.vat a b = _ from store_memOnly s c.vat a b]
  refine ⟨mem, ⟨by rw [mem], others, fun q hq => ?_⟩, fun q x hx => ?_⟩
  · refine (seenByte_congr (s := s.store c.vat a b) (t := { s.store c.vat a b with free := s.free }) rfl rfl free.symm c.vat q).trans ?_
    rw [seenByte_store]
    split
    case isTrue h =>
      cases hx : b[q - a]? with
      | none => rfl
      | some x => exact absurd ⟨x, mem_cellsOf.mpr ⟨h, hx⟩⟩ hq
    case isFalse h => rfl
  · obtain ⟨h, hx⟩ := mem_cellsOf.mp (mem_of_lastStore hx)
    rw [seenByte_store, if_pos h, hx]
    rfl

theorem StoredInVat.setPort {c : CoreId} {ws : List (Nat × Bytes)} {s t : State} {n : Nat} {w : PortWindow}
    (h : StoredInVat c ws (s.setPort n w) t) : StoredInVat c ws s t := by
  obtain ⟨mem, ⟨bytes, others, seen⟩, stored⟩ := h
  exact ⟨mem, ⟨bytes, others, fun a ha => (seen a ha).trans (seenByte_congr (s := s) rfl rfl rfl c.vat a)⟩, stored⟩

theorem marked_draft (s : State) (b : BitVec 512) (job : BitVec 64) : (s.marked b job).extractLsb' 0 480 = b.extractLsb' 0 480 := by
  apply BitVec.eq_of_toNat_eq
  rw [BitVec.extractLsb'_toNat, BitVec.extractLsb'_toNat, marked_toNat, Nat.shiftRight_zero, Nat.shiftRight_zero,
    Nat.add_mul_mod_self_left, Nat.mod_mod]

/-! #### Writes of CTRL -/

section
variable {s : State} {vat : BitVec 6} {core : BitVec 5} {ctrl : BitVec 32}

/-- Nothing has changed but one port's window and memory. -/
def PortOnly (s : State) (n : Nat) (t : State) : Prop :=
  (∀ m, m ≠ n → t.port m = s.port m) ∧ t = { s with ports := t.ports, mem := t.mem }

theorem setPort_portOnly (s : State) (n : Nat) (w : PortWindow) : PortOnly s n (s.setPort n w) :=
  ⟨fun _ hm => (port_setPort ..).trans (if_neg hm), rfl⟩

theorem PortOnly.trans {s t u : State} {n : Nat} (h : PortOnly s n t) (g : PortOnly t n u) : PortOnly s n u := by
  obtain ⟨h1, h2⟩ := h
  obtain ⟨g1, g2⟩ := g
  refine ⟨fun m hm => (g1 m hm).trans (h1 m hm), ?_⟩
  rw [g2, h2]

theorem store_portOnly (s : State) (v : BitVec 6) (a : Nat) (b : Bytes) (n : Nat) : PortOnly s n (s.store v a b) := by
  have h := store_memOnly s v a b
  unfold MemOnly at h
  exact ⟨fun _ _ => by rw [h]; rfl, by rw [h]⟩

theorem store_port (s : State) (v : BitVec 6) (a : Nat) (b : Bytes) (n : Nat) : (s.store v a b).port n = s.port n := by
  have h := store_memOnly s v a b
  unfold MemOnly at h
  rw [h]
  rfl

theorem exec_descCreate (hc : core.toNat < 17) :
    exec (.descCreate vat core ctrl) s = .next (s.portCtrl vat (portNum vat core.toNat) ctrl) := if_pos hc

theorem portCtrl_ready {n : Nat} (h : (s.port n).stat.getLsbD 31 = false) : s.portCtrl vat n ctrl =
    if ctrl = 1 then (s.setPort n { s.port n with ctrl := ctrl }).portCreate vat n else s.setPort n { s.port n with ctrl := ctrl } := by
  unfold State.portCtrl
  rw [h]
  rfl

/-- The window while its request is served. -/
theorem requested_port (s : State) (n : Nat) : (s.setPort n { s.port n with ctrl := 1 }).port n = { s.port n with ctrl := 1 } :=
  (port_setPort ..).trans (if_pos rfl)

theorem descCreate_other (hc : core.toNat < 17) (h : (s.port (portNum vat core.toNat)).stat.getLsbD 31 = false) (h1 : ctrl ≠ 1) :
    ∃ t, exec (.descCreate vat core ctrl) s = .next t ∧ PortOnly s (portNum vat core.toNat) t ∧ t.mem = s.mem ∧
      t.port (portNum vat core.toNat) = { s.port (portNum vat core.toNat) with ctrl := ctrl } := by
  refine ⟨_, (exec_descCreate hc).trans (by rw [portCtrl_ready h, if_neg h1]), setPort_portOnly .., rfl, ?_⟩
  exact (port_setPort ..).trans (if_pos rfl)

theorem descCreate_refused (hc : core.toNat < 17) {n : Nat} (hn : portNum vat core.toNat = n)
    (h : (s.port n).stat.getLsbD 31 = false) {code : BitVec 16}
    (hcode : s.descCheck (s.port n).draft (s.alloc (descOf (s.port n).draft).alloc).job
      (bytesToLine (s.seen vat (descOf (s.port n).draft).idxref 64)) = some code) :
    ∃ t, exec (.descCreate vat core 1) s = .next t ∧ PortOnly s n t ∧ t.mem = s.mem ∧
      t.port n = { s.port n with ctrl := 1, stat := code.setWidth 32 } := by
  subst hn
  have create := portCreate_refused (vat := vat) (requested_port s (portNum vat core.toNat)) rfl rfl (code := code)
    (by rw [seen_setPort]; exact hcode)
  refine ⟨_, (exec_descCreate hc).trans (by rw [portCtrl_ready h, if_pos rfl, create]),
    (setPort_portOnly ..).trans (setPort_portOnly ..), rfl, ?_⟩
  exact (port_setPort ..).trans (if_pos rfl)

theorem descCreate_granted (hc : core.toNat < 17) {n : Nat} (hn : portNum vat core.toNat = n)
    (h : (s.port n).stat.getLsbD 31 = false) {a : Alloc} (ha : s.alloc (descOf (s.port n).draft).alloc = a)
    (hcode : s.descCheck (s.port n).draft a.job (bytesToLine (s.seen vat (descOf (s.port n).draft).idxref 64)) = none)
    (hal : (s.port n).dst.toNat % 64 = 0) (hrw : s.rwRecordHolds a.job (s.port n).dst.toNat 64 = true) :
    ∃ t d, exec (.descCreate vat core 1) s = .next t ∧ PortOnly s n t ∧ t.port n = { s.port n with ctrl := 1, stat := 0 } ∧
      StoredInVat { vat := vat, core := 0 } [((s.port n).dst.toNat, lineToBytes d)] s t ∧
      d.extractLsb' 0 480 = (s.port n).draft.extractLsb' 0 480 ∧ (a.live = true → s.markGood d a.job = true) := by
  subst hn ha
  have create := portCreate_granted (vat := vat) (requested_port s (portNum vat core.toNat)) rfl rfl
    (by rw [seen_setPort]; exact hcode) hal hrw
  refine ⟨_, s.marked (s.port (portNum vat core.toNat)).draft (s.alloc (descOf (s.port (portNum vat core.toNat)).draft).alloc).job,
    (exec_descCreate hc).trans (by rw [portCtrl_ready h, if_pos rfl, create]), ?_, ?_, ?_, marked_draft .., markGood_marked s _ _⟩
  · exact ((setPort_portOnly ..).trans (setPort_portOnly ..)).trans (store_portOnly ..)
  · exact (store_port ..).trans ((port_setPort ..).trans (if_pos rfl))
  · exact (store_storedInVat { vat := vat, core := 0 } _ _).setPort.setPort

end

/-- Run-ahead begins above its threshold, and its end leaves the core as it was (R62, R64). -/
theorem runahead_begins {s : State} {c : CoreId} {waited : Nat} (ha : (s.core c).active = true) (hf : (s.core c).finishing = none)
    (h0 : s.furn 0x340001 32 ≠ 0) (hw : s.furn 0x340001 32 < waited) :
    exec (.runaheadEntry c waited) s = .next (s.setCore c { s.core c with runahead := true }) := by
  show execRunaheadEntry c waited s = _
  unfold execRunaheadEntry State.runaheadCycles
  simp [ha, hf, h0, hw]

theorem runahead_ends {s : State} {c : CoreId} (h : (s.core c).runahead = true) :
    exec (.runaheadExit c) s = .next (s.setCore c { s.core c with runahead := false }) := if_pos h

/-- Settles O19: a pre-emption stores the context through the caches and begins the other item, DONE of that item restores
it, and a creation port answers with the check's code or stores the marked draft. -/
theorem coreSharingAndCreation : Obligations.CoreSharingAndCreation := by
  refine ⟨?_, ?_, fun s c k k0 => ?_, fun s c waited => ?_, fun s vat core ctrl hc => ?_⟩
  · intro s c it b key hi hc hp hb _ hk ha hf hcls hfin hpre hit hpull h1 h2 h3 hroom
    have run := preemptRequest_preempts hi hc hp hb ha hf hcls hfin hpre hit hpull h1 h2 h3 hroom
    obtain ⟨pre, item, active, ahead, pc, ptr, xs, ts, others, hold, hnew, counts, kept⟩ :=
      preempt_saves (c := c) hi hc hb hk _ rfl
    exact ⟨_, run, pre, item, active, ahead, pc, ptr, xs, ts, others, hold, hnew, counts, kept,
      fun beside => preempt_area hb beside _ rfl⟩
  · intro u c f w es k i b j a h hcore hcls hitem hpre hi hb hne hphase hic hreply hj hstop hwin hout hkept hctx hv hcrc hdirty
      h0 hd h2 hst hfree ho hes
    have dirty : ∀ l, areaLine c l → Dirty u c.vat l := fun l hl => by
      obtain ⟨h1, h2⟩ := hl
      have := hdirty (l - a / 64) (by omega)
      rwa [show a / 64 + (l - a / 64) = l by omega] at this
    obtain ⟨t, x, run, xkept, xpre, xt, core, tb, ti, valid, others⟩ := done_resumes hcore hcls hitem hpre hi hb hne hphase hic
      hreply hj hstop hwin hout hkept hctx hv hcrc dirty h0 hd h2 hst hfree ho hes
    obtain ⟨active, item, pre, cls, pc, ptr, cycles, xs, ws, ps, accs, ctl, flags, tk, tst, same, bound, ts⟩ :=
      resumed_core xkept (t.core c) core.symm
    exact ⟨t, run, active, item, pre.trans xpre, cls, pc, ptr, cycles, xs, ws, ps, accs, ctl, flags, tk, tst, same, bound,
      fun n hn => (ts n).trans (xt n hn), tb, ti, valid, others⟩
  · intro r
    obtain ⟨hx, hw, hp, he, hctl, hflags, hK, hst⟩ := restore_context s c k k0
    exact ⟨hx, hw, hp, he, hctl, hflags, hK, hst, fun hk i hb => restore_bound s c hk hb, restore_streams s c k k0⟩
  · exact ⟨runahead_begins, runahead_ends⟩
  · intro n w a index dst only hstat
    exact ⟨descCreate_other hc hstat, fun code => descCreate_refused hc rfl hstat,
      fun hcode hal hrw => descCreate_granted hc rfl hstat rfl hcode hal hrw⟩

end Sys2Proof.Machine

/-! ### O9: where a value rounded once lies (R74, R75) -/

namespace Sys2Proof.Machine

open Sys2Proof

/-! #### Encodings of finite values -/

/-- The magnitudes up to the largest finite one are no infinity and no NaN. -/
structure FpFmt.Graded (f : FpFmt) : Prop where
  signed : f.maxMag < f.signBit
  e4m3   : f.e4m3 = true → f.maxMag < 0x7F
  ieee   : f.e4m3 = false → f.maxMag < f.expMax * 2 ^ f.fbits
  frac   : 1 ≤ f.fbits

theorem fmtOf_graded {t : Nat} (h : 8 ≤ t) (h' : t ≤ 0xD) : (fmtOf t).Graded := by
  interval_cases t <;> exact ⟨by decide, by decide, by decide, by decide⟩

/-- The sign, the exponent field and the fraction of an encoding. -/
theorem encoding_parts {f : FpFmt} (neg : Bool) {mag : Nat} (h : mag < f.signBit) :
    let b := (if neg then f.signBit else 0) + mag
    (b / f.signBit % 2 == 1) = neg ∧ b / 2 ^ f.fbits % 2 ^ f.ebits = mag / 2 ^ f.fbits ∧ b % 2 ^ f.fbits = mag % 2 ^ f.fbits ∧
      b % f.signBit = mag := by
  have hp : 0 < 2 ^ f.fbits := Nat.two_pow_pos _
  have hsb : f.signBit = 2 ^ f.fbits * 2 ^ f.ebits := by unfold FpFmt.signBit; rw [Nat.add_comm, pow_add]
  have hex : mag / 2 ^ f.fbits < 2 ^ f.ebits := Nat.div_lt_of_lt_mul (hsb ▸ h)
  cases neg
  · simp [Nat.div_eq_of_lt h, Nat.mod_eq_of_lt h, Nat.mod_eq_of_lt hex]
  · have h1 : (f.signBit + mag) / f.signBit = 1 := by
      rw [Nat.add_div_left _ (by omega), Nat.div_eq_of_lt h]
    simp only [if_true, h1, Nat.add_mod_left, Nat.mod_eq_of_lt h]
    rw [hsb, Nat.mul_add_div hp, Nat.add_mod_left, Nat.mod_eq_of_lt hex, Nat.mul_add_mod]
    exact ⟨rfl, rfl, rfl, trivial⟩

/-- A finite encoding stands for its fraction, with the leading one of a normal number. -/
theorem decode_finite {f : FpFmt} (hf : f.Graded) (neg : Bool) {mag : Nat} (h : mag ≤ f.maxMag) :
    f.decode ((if neg then f.signBit else 0) + mag) =
      if mag / 2 ^ f.fbits = 0 then .fin neg (mag % 2 ^ f.fbits) (1 - (f.bias : Int) - f.fbits)
      else .fin neg (mag % 2 ^ f.fbits + 2 ^ f.fbits) ((mag / 2 ^ f.fbits : Nat) - (f.bias : Int) - f.fbits) := by
  obtain ⟨hs, h4, hi, -⟩ := hf
  obtain ⟨sign, p2, p3, p4⟩ := encoding_parts neg (h.trans_lt hs)
  unfold FpFmt.decode
  simp only [sign, p2, p3, p4]
  have notNan : (f.e4m3 && mag == 0x7F) = false := by
    cases he : f.e4m3
    · rfl
    · have := h4 he
      simp
      omega
  have notTop : (!f.e4m3 && mag / 2 ^ f.fbits == f.expMax) = false := by
    cases he : f.e4m3
    · have hlt' := Nat.div_lt_of_lt_mul (Nat.mul_comm _ _ ▸ h.trans_lt (hi he))
      simpa using hlt'.ne
    · rfl
  rw [notNan, notTop]
  simp

/-- A magnitude of k binades above the lowest and M units stands for M units of that binade; at a carry it is the first of the next
binade. -/
theorem decode_units {f : FpFmt} (hf : f.Graded) (neg : Bool) {k M : Nat} (h : k * 2 ^ f.fbits + M ≤ f.maxMag)
    (hM : M ≤ 2 * 2 ^ f.fbits) (hk : k = 0 ∨ 2 ^ f.fbits ≤ M) :
    ∃ (m : Nat) (e : Int), f.decode ((if neg then f.signBit else 0) + (k * 2 ^ f.fbits + M)) = .fin neg m e ∧
      ((m = M ∧ e = k + (1 - (f.bias : Int)) - f.fbits) ∨
        (2 * m = M ∧ m % 2 = 0 ∧ e = k + (1 - (f.bias : Int)) - f.fbits + 1)) := by
  have hp : 0 < 2 ^ f.fbits := Nat.two_pow_pos _
  rw [decode_finite hf neg h, Nat.mul_comm k, Nat.mul_add_div hp, Nat.mul_add_mod]
  rcases Nat.lt_or_ge M (2 ^ f.fbits) with hlow | hhigh
  · obtain rfl : k = 0 := hk.resolve_right (by omega)
    rw [Nat.div_eq_of_lt hlow, Nat.mod_eq_of_lt hlow]
    exact ⟨M, _, rfl, .inl ⟨rfl, by push_cast; ring⟩⟩
  rcases hM.lt_or_eq with hlt | rfl
  · obtain ⟨d, rfl⟩ := Nat.exists_eq_add_of_le hhigh
    have hd : d < 2 ^ f.fbits := by omega
    rw [Nat.add_div_left _ hp, Nat.add_mod_left, Nat.div_eq_of_lt hd, Nat.mod_eq_of_lt hd, if_neg (by omega)]
    exact ⟨_, _, rfl, .inl ⟨Nat.add_comm _ _, by push_cast; ring⟩⟩
  · have even : 2 ^ f.fbits % 2 = 0 := by
      obtain ⟨j, hj⟩ := Nat.exists_eq_add_of_le' hf.frac
      rw [hj, pow_succ, Nat.mul_mod_left]
    rw [Nat.mul_div_cancel _ hp, Nat.mul_mod_left, if_neg (by omega)]
    exact ⟨_, _, rfl, .inr ⟨by ring, by simpa using even, by push_cast; ring⟩⟩

/-! #### The quotient and its binade -/

/-- A quotient of naturals in units of 2^q. -/
theorem scaleQuot_spec {num den : Nat} (hd : 0 < den) (q : Int) :
    let s := scaleQuot num den q
    s.2.1 < s.2.2 ∧ ((s.1 : ℚ) + (s.2.1 : ℚ) / s.2.2) * 2 ^ q = num / den := by
  intro s
  have hden : (den : ℚ) ≠ 0 := by exact_mod_cast hd.ne'
  by_cases hq : q < 0
  · have hs : s = (num * 2 ^ (-q).toNat / den, num * 2 ^ (-q).toNat % den, den) := by simp [s, scaleQuot, hq]
    rw [hs]
    refine ⟨Nat.mod_lt _ hd, ?_⟩
    rw [← nat_div_add _ hd, Nat.cast_mul, Nat.cast_pow, Nat.cast_ofNat, ← zpow_natCast, Int.toNat_of_nonneg (by omega),
      div_mul_eq_mul_div, mul_assoc, ← zpow_add₀ (by norm_num), neg_add_cancel, zpow_zero, mul_one]
  · have hs : s = (num / (den * 2 ^ q.toNat), num % (den * 2 ^ q.toNat), den * 2 ^ q.toNat) := by simp [s, scaleQuot, hq]
    have hpos : 0 < den * 2 ^ q.toNat := Nat.mul_pos hd (Nat.two_pow_pos _)
    rw [hs]
    refine ⟨Nat.mod_lt _ hpos, ?_⟩
    rw [← nat_div_add _ hpos, Nat.cast_mul, Nat.cast_pow, Nat.cast_ofNat, ← zpow_natCast, Int.toNat_of_nonneg (by omega)]
    have := (two_zpow_pos q).ne'
    field_simp

/-- The comparison that `log2Quot` makes. -/
theorem pow_le_quot_iff {num den : Nat} (hd : 0 < den) (e : Int) :
    (if 0 ≤ e then den * 2 ^ e.toNat ≤ num else den ≤ num * 2 ^ (-e).toNat) ↔ (2 : ℚ) ^ e ≤ num / den := by
  have hden : (0 : ℚ) < den := by exact_mod_cast hd
  rw [le_div_iff₀ hden]
  split
  · next h =>
    rw [← Nat.cast_le (α := ℚ), Nat.cast_mul, Nat.cast_pow, Nat.cast_ofNat, ← zpow_natCast, Int.toNat_of_nonneg h, mul_comm]
  · next h =>
    rw [← Nat.cast_le (α := ℚ), Nat.cast_mul, Nat.cast_pow, Nat.cast_ofNat, ← zpow_natCast, Int.toNat_of_nonneg (by omega),
      zpow_neg, ← div_eq_mul_inv, le_div_iff₀ (two_zpow_pos e), mul_comm]

/-- A natural number by its binary logarithm. -/
theorem log2_bounds {n : Nat} (h : 0 < n) : (2 : ℚ) ^ (Nat.log2 n : Int) ≤ n ∧ (n : ℚ) < 2 ^ ((Nat.log2 n : Int) + 1) := by
  rw [zpow_add_one₀ (by norm_num), zpow_natCast, ← pow_succ]
  exact ⟨by exact_mod_cast Nat.log2_self_le h.ne', by exact_mod_cast Nat.lt_log2_self⟩

theorem log2Quot_spec {num den : Nat} (hn : 0 < num) (hd : 0 < den) :
    (2 : ℚ) ^ log2Quot num den ≤ num / den ∧ (num : ℚ) / den < 2 ^ (log2Quot num den + 1) := by
  have hden : (0 : ℚ) < den := by exact_mod_cast hd
  obtain ⟨n1, n2⟩ := log2_bounds hn
  obtain ⟨d1, d2⟩ := log2_bounds hd
  have low : (2 : ℚ) ^ ((Nat.log2 num : Int) - Nat.log2 den - 1) ≤ num / den := by
    rw [le_div_iff₀ hden]
    calc (2 : ℚ) ^ ((Nat.log2 num : Int) - Nat.log2 den - 1) * den
        ≤ 2 ^ ((Nat.log2 num : Int) - Nat.log2 den - 1) * 2 ^ ((Nat.log2 den : Int) + 1) :=
          mul_le_mul_of_nonneg_left d2.le (two_zpow_pos _).le
      _ = 2 ^ (Nat.log2 num : Int) := by rw [← zpow_add₀ (by norm_num)]; congr 1; ring
      _ ≤ num := n1
  have high : (num : ℚ) / den < 2 ^ ((Nat.log2 num : Int) - Nat.log2 den + 1) := by
    rw [div_lt_iff₀ hden]
    calc (num : ℚ) < 2 ^ ((Nat.log2 num : Int) + 1) := n2
      _ = 2 ^ ((Nat.log2 num : Int) - Nat.log2 den + 1) * 2 ^ (Nat.log2 den : Int) := by
          rw [← zpow_add₀ (by norm_num)]; congr 1; ring
      _ ≤ 2 ^ ((Nat.log2 num : Int) - Nat.log2 den + 1) * den := mul_le_mul_of_nonneg_left d1 (two_zpow_pos _).le
  have ge := pow_le_quot_iff (num := num) hd ((Nat.log2 num : Int) - Nat.log2 den)
  unfold log2Quot
  dsimp only
  by_cases h : (2 : ℚ) ^ ((Nat.log2 num : Int) - Nat.log2 den) ≤ num / den
  · rw [if_pos (ge.mpr h)]
    exact ⟨h, high⟩
  · rw [if_neg (fun h' => h (ge.mp h')), sub_add_cancel]
    exact ⟨low, not_le.mp h⟩

/-! #### The result of a rounding -/

/-- The exponent of the last place of a rounded quotient: no lower than that of the subnormal numbers. -/
def FpFmt.lastPlace (f : FpFmt) (num den : Nat) : Int :=
  (if log2Quot num den < 1 - (f.bias : Int) then 1 - (f.bias : Int) else log2Quot num den) - f.fbits

/-- The quotient rounded to an integer number of units of its last place. -/
def FpFmt.roundedUnits (f : FpFmt) (mode : Nat) (neg : Bool) (num den : Nat) : Nat :=
  let s := scaleQuot num den (f.lastPlace num den)
  if roundUp mode neg s.1 s.2.1 s.2.2 then s.1 + 1 else s.1

/-- How many binades a last place lies above that of the subnormal numbers. -/
def FpFmt.binade (f : FpFmt) (num den : Nat) : Nat := (f.lastPlace num den + f.fbits - (1 - (f.bias : Int))).toNat

section
variable {f : FpFmt} {mode num den : Nat} {neg : Bool}

theorem lastPlace_eq (f : FpFmt) (num den : Nat) :
    f.lastPlace num den = f.binade num den + (1 - (f.bias : Int)) - f.fbits := by
  unfold FpFmt.binade FpFmt.lastPlace
  split <;> omega

/-- A rounding encodes its units unless they exceed the largest magnitude. -/
theorem round_eq (hn : 0 < num) : ∃ tiny : Bool, f.round mode neg num den =
    if f.binade num den * 2 ^ f.fbits + f.roundedUnits mode neg num den > f.maxMag then f.overflow mode neg
    else
      let inexact := (scaleQuot num den (f.lastPlace num den)).2.1 != 0
      { bits := (if neg then f.signBit else 0) + (f.binade num den * 2 ^ f.fbits + f.roundedUnits mode neg num den),
        flags := (if inexact then flagInexact else 0) ||| (if inexact && tiny then flagUnderflow else 0) } := by
  have mag : f.binade num den * 2 ^ f.fbits + f.roundedUnits mode neg num den =
      ((f.lastPlace num den + f.fbits - (1 - (f.bias : Int)) + 1).toNat) * 2 ^ f.fbits +
        f.roundedUnits mode neg num den - 2 ^ f.fbits := by
    have hk : (f.lastPlace num den + f.fbits - (1 - (f.bias : Int)) + 1).toNat = f.binade num den + 1 := by
      rw [lastPlace_eq]
      omega
    rw [hk, Nat.add_one_mul]
    omega
  rw [mag]
  unfold FpFmt.round
  rw [if_neg (by simpa using hn.ne')]
  apply Exists.intro
  rfl

theorem overflow_flags (f : FpFmt) (mode : Nat) (neg : Bool) : (f.overflow mode neg).flags &&& flagOverflow ≠ 0 := by
  show (flagOverflow ||| flagInexact) &&& flagOverflow ≠ 0
  decide

/-- The inexact flag of a rounding that does not overflow. -/
theorem inexact_flag_iff (inexact tiny : Bool) :
    ((if inexact then flagInexact else 0) ||| (if inexact && tiny then flagUnderflow else 0)) &&& flagInexact = 0 ↔ inexact = false := by
  revert inexact tiny
  decide

/-- Without overflow, a rounding encodes its units, and raises inexact when something remains. -/
theorem round_encodes (hn : 0 < num) (ho : (f.round mode neg num den).flags &&& flagOverflow = 0) :
    f.binade num den * 2 ^ f.fbits + f.roundedUnits mode neg num den ≤ f.maxMag ∧
      (f.round mode neg num den).bits =
        (if neg then f.signBit else 0) + (f.binade num den * 2 ^ f.fbits + f.roundedUnits mode neg num den) ∧
      ((f.round mode neg num den).flags &&& flagInexact = 0 ↔ (scaleQuot num den (f.lastPlace num den)).2.1 = 0) := by
  obtain ⟨tiny, h⟩ := round_eq (f := f) (mode := mode) (neg := neg) (den := den) hn
  rw [h] at ho ⊢
  split at ho
  · exact absurd ho (overflow_flags f mode neg)
  · next hle =>
    rw [if_neg hle]
    exact ⟨Nat.le_of_not_lt hle, rfl, (inexact_flag_iff _ tiny).trans bne_eq_false_iff_eq⟩

/-- The units of the last place fill a binade: they number no more than the first of the next one, and above the subnormal numbers no
fewer than the first of their own. -/
theorem roundedUnits_bounds (hn : 0 < num) (hd : 0 < den) : f.roundedUnits mode neg num den ≤ 2 * 2 ^ f.fbits ∧
    (f.binade num den = 0 ∨ 2 ^ f.fbits ≤ f.roundedUnits mode neg num den) := by
  obtain ⟨hr, hx⟩ := scaleQuot_spec (num := num) hd (f.lastPlace num den)
  obtain ⟨x1, x2⟩ := log2Quot_spec hn hd
  obtain ⟨t0, t1⟩ := fraction_bounds hr
  have hpos := two_zpow_pos (f.lastPlace num den)
  have pow : ∀ k : Nat, (2 : ℚ) ^ (k + f.lastPlace num den) = ((2 ^ k : Nat) : ℚ) * 2 ^ f.lastPlace num den := fun k => by
    rw [zpow_add₀ (by norm_num), zpow_natCast, Nat.cast_pow, Nat.cast_ofNat]
  unfold FpFmt.roundedUnits
  dsimp only
  generalize scaleQuot num den (f.lastPlace num den) = s at *
  have low : s.1 < 2 * 2 ^ f.fbits := by
    have h : (s.1 : ℚ) * 2 ^ f.lastPlace num den < ((2 ^ (f.fbits + 1) : Nat) : ℚ) * 2 ^ f.lastPlace num den := by
      calc (s.1 : ℚ) * 2 ^ f.lastPlace num den ≤ num / den := by
            rw [← hx]
            exact mul_le_mul_of_nonneg_right (by linarith) hpos.le
        _ < 2 ^ (log2Quot num den + 1) := x2
        _ ≤ 2 ^ (((f.fbits + 1 : Nat) : Int) + f.lastPlace num den) := by
            refine zpow_le_zpow_right₀ (by norm_num) ?_
            unfold FpFmt.lastPlace
            push_cast
            split <;> omega
        _ = _ := pow _
    have := lt_of_mul_lt_mul_right h hpos.le
    rw [pow_succ'] at this
    exact_mod_cast this
  have high : f.binade num den = 0 ∨ 2 ^ f.fbits ≤ s.1 := by
    by_cases hs : log2Quot num den < 1 - (f.bias : Int)
    · left
      unfold FpFmt.binade FpFmt.lastPlace
      rw [if_pos hs]
      omega
    · right
      have h : ((2 ^ f.fbits : Nat) : ℚ) * 2 ^ f.lastPlace num den < ((s.1 + 1 : Nat) : ℚ) * 2 ^ f.lastPlace num den := by
        calc ((2 ^ f.fbits : Nat) : ℚ) * 2 ^ f.lastPlace num den = 2 ^ (f.fbits + f.lastPlace num den) := (pow _).symm
          _ = 2 ^ log2Quot num den := by
            unfold FpFmt.lastPlace
            rw [if_neg hs, add_sub_cancel]
          _ ≤ num / den := x1
          _ < _ := by
            rw [← hx]
            push_cast
            exact mul_lt_mul_of_pos_right (by linarith) hpos
      exact Nat.lt_succ_iff.mp (by exact_mod_cast lt_of_mul_lt_mul_right h hpos.le)
  split <;> omega

/-! #### Where the rounded value lies -/

/-- Where a magnitude y that stands for x lies, with u its unit in the last place (R74). -/
structure Lies (mode : Nat) (neg : Bool) (even : Prop) (y x u : ℚ) : Prop where
  unit    : |y - x| < u
  nearest : mode = 0 → |y - x| ≤ u / 2 ∧ (|y - x| = u / 2 → even)
  zero    : mode = 1 → y ≤ x ∧ x < y + u
  up      : mode = 2 → if neg then y ≤ x else x ≤ y
  down    : mode = 3 → if neg then x ≤ y else y ≤ x

/-- Rounding a number with a remainder to an integer. -/
theorem lies_mixed {n r d : Nat} (hr : r < d) :
    let z := if roundUp mode neg n r d then n + 1 else n
    Lies mode neg (z % 2 = 0) z (n + (r : ℚ) / d) 1 := by
  intro z
  obtain ⟨h0, h1⟩ := fraction_bounds hr
  have cases_ : (z = n ∧ roundUp mode neg n r d = false) ∨ (z = n + 1 ∧ roundUp mode neg n r d = true) := by
    cases h : roundUp mode neg n r d <;> simp [z, h]
  have zero : r = 0 → roundUp mode neg n r d = false := roundUp_of_zero hr mode neg
  have toward : roundUp mode neg n r d = false → (z : ℚ) ≤ n + r / d := fun h => by
    obtain ⟨hz, -⟩ := cases_.resolve_right (fun h' => by rw [h] at h'; cases h'.2)
    rw [hz]
    linarith
  have away : roundUp mode neg n r d = (r != 0) → (n : ℚ) + r / d ≤ z := fun h => by
    rcases cases_ with ⟨hz, hup⟩ | ⟨hz, -⟩
    · obtain rfl : r = 0 := by simpa using h.symm.trans hup
      simp [hz]
    · rw [hz]
      push_cast
      linarith
  refine ⟨?_, ?_, ?_, ?_, ?_⟩
  · rcases cases_ with ⟨hz, -⟩ | ⟨hz, hup⟩
    · rw [hz, sub_add_cancel_left, abs_neg, abs_of_nonneg h0]
      exact h1
    · have := fraction_pos hr (fun h => by rw [zero h] at hup; cases hup)
      rw [hz, abs_lt]
      push_cast
      constructor <;> linarith
  · rintro rfl
    exact nearest_mixed hr z rfl
  · rintro rfl
    obtain ⟨hz, -⟩ := cases_.resolve_right (fun h => by cases h.2)
    exact ⟨toward rfl, by rw [hz]; linarith⟩
  · rintro rfl
    cases neg
    · exact away rfl
    · exact toward rfl
  · rintro rfl
    cases neg
    · exact toward rfl
    · exact away rfl

theorem Lies.scale {even : Prop} {y x u v : ℚ} (h : Lies mode neg even y x u) (hv : 0 < v) :
    Lies mode neg even (y * v) (x * v) (u * v) := by
  obtain ⟨unit, nearest, zero, up, down⟩ := h
  have dist : |y * v - x * v| = |y - x| * v := by rw [← sub_mul, abs_mul, abs_of_pos hv]
  have half : u * v / 2 = u / 2 * v := by ring
  refine ⟨?_, fun hm => ?_, fun hm => ?_, fun hm => ?_, fun hm => ?_⟩
  · rw [dist]
    exact mul_lt_mul_of_pos_right unit hv
  · rw [dist, half]
    exact ⟨mul_le_mul_of_nonneg_right (nearest hm).1 hv.le, fun h => (nearest hm).2 (mul_right_cancel₀ hv.ne' h)⟩
  · rw [← add_mul]
    exact ⟨mul_le_mul_of_nonneg_right (zero hm).1 hv.le, mul_lt_mul_of_pos_right (zero hm).2 hv⟩
  · cases neg
    · exact mul_le_mul_of_nonneg_right (up hm) hv.le
    · exact mul_le_mul_of_nonneg_right (up hm) hv.le
  · cases neg
    · exact mul_le_mul_of_nonneg_right (down hm) hv.le
    · exact mul_le_mul_of_nonneg_right (down hm) hv.le

/-- In a larger unit the value lies there all the more. -/
theorem Lies.widen {even even' : Prop} {y x u v : ℚ} (h : Lies mode neg even y x u) (hv : u ≤ v) (he : even → even') :
    Lies mode neg even' y x v := by
  obtain ⟨unit, nearest, zero, up, down⟩ := h
  refine ⟨unit.trans_le hv, fun hm => ?_, fun hm => ⟨(zero hm).1, (zero hm).2.trans_le (by linarith)⟩, up, down⟩
  obtain ⟨h1, h2⟩ := nearest hm
  exact ⟨h1.trans (by linarith), fun h => he (h2 (le_antisymm h1 (by linarith)))⟩

/-- The units of the last place stand for a value that lies where the mode puts it. -/
theorem roundedUnits_lies (hd : 0 < den) :
    Lies mode neg (f.roundedUnits mode neg num den % 2 = 0) (f.roundedUnits mode neg num den * 2 ^ f.lastPlace num den) (num / den)
        (2 ^ f.lastPlace num den) ∧
      ((scaleQuot num den (f.lastPlace num den)).2.1 = 0 ↔
        (f.roundedUnits mode neg num den : ℚ) * 2 ^ f.lastPlace num den = num / den) := by
  obtain ⟨hr, hx⟩ := scaleQuot_spec (num := num) hd (f.lastPlace num den)
  have hpos := two_zpow_pos (f.lastPlace num den)
  unfold FpFmt.roundedUnits
  dsimp only
  generalize scaleQuot num den (f.lastPlace num den) = s at *
  have lies := (lies_mixed (mode := mode) (neg := neg) (n := s.1) hr).scale hpos
  rw [one_mul, hx] at lies
  rw [← hx, mul_left_inj' hpos.ne', hx]
  exact ⟨lies, (mixed_exact_iff hr _ (roundUp_of_zero (n := s.1) hr mode neg)).symm⟩

/-- A value rounded once without overflow is finite, keeps its sign, is exact unless inexact is raised, and lies where its mode puts it. -/
theorem round_lies (hf : f.Graded) (hn : 0 < num) (hd : 0 < den)
    (ho : (f.round mode neg num den).flags &&& flagOverflow = 0) :
    ∃ (m : Nat) (e : Int), f.decode (f.round mode neg num den).bits = .fin neg m e ∧
      ((f.round mode neg num den).flags &&& flagInexact = 0 ↔ (m : ℚ) * 2 ^ e = num / den) ∧
      Lies mode neg (m % 2 = 0) (m * 2 ^ e) (num / den) (2 ^ e) := by
  obtain ⟨hle, hbits, hflag⟩ := round_encodes hn ho
  obtain ⟨hM, hk⟩ := roundedUnits_bounds (f := f) (mode := mode) (neg := neg) hn hd
  obtain ⟨lies, exact_⟩ := roundedUnits_lies (f := f) (neg := neg) (num := num) hd
  obtain ⟨m, e, hdec, he⟩ := decode_units hf neg hle hM hk
  rw [← lastPlace_eq] at he
  have value : (m : ℚ) * 2 ^ e = (f.roundedUnits mode neg num den : ℚ) * 2 ^ f.lastPlace num den := by
    rcases he with ⟨rfl, rfl⟩ | ⟨h, -, rfl⟩
    · rfl
    · rw [← h, zpow_add_one₀ (by norm_num)]
      push_cast
      ring
  refine ⟨m, e, by rw [hbits]; exact hdec, ?_, ?_⟩
  · rw [hflag, value]
    exact exact_
  · rw [value]
    rcases he with ⟨rfl, rfl⟩ | ⟨h, even, rfl⟩
    · exact lies
    · exact lies.widen (zpow_le_zpow_right₀ (by norm_num) (by omega)) (fun _ => even)

end

/-- Settles O9: the rounded units of the last place lie within one of the exact quotient on the side the mode asks for. -/
theorem roundedOnce : Obligations.RoundedOnce := by
  intro t mode num den neg ht _ hn hd f r x ho
  have hf : f.Graded := fmtOf_graded (by simp at ht; omega) (by simp at ht; omega)
  obtain ⟨m, e, hdec, hexact, unit, nearest, zero, up, down⟩ := round_lies hf hn hd ho
  exact ⟨m, e, hdec, hexact, unit, nearest, fun h => by rw [add_one_mul]; exact zero h, up, down⟩

end Sys2Proof.Machine

/-! ### O8: floating-point vector arithmetic (Table 2.6, R72 to R75) -/

namespace Sys2Proof.Machine

open Sys2Proof

/-! #### Infinities -/

/-- The value is no infinity of a format that has none. -/
def FpFmt.Admits (m : FpFmt) (v : FVal) : Prop := ∀ n, v = .inf n → m.e4m3 = false

theorem decode_admits (m : FpFmt) (b : Nat) : m.Admits (m.decode b) := by
  intro n h
  cases he : m.e4m3
  · rfl
  · unfold FpFmt.decode at h
    rw [he] at h
    simp at h
    split_ifs at h

theorem neg_admits {m : FpFmt} {v : FVal} (h : m.Admits v) : m.Admits v.neg := by
  intro n hn
  cases v with
  | inf x => exact h x rfl
  | _ => cases hn

theorem isInf_infinity {m : FpFmt} {w : Nat} (hf : m.Framed w) (neg : Bool) (he : m.e4m3 = false) : m.IsInf neg (m.infinity neg) := by
  obtain ⟨sign, p2, p3, p4⟩ := encoding_parts neg hf.inf
  have mag : m.infMag = m.expMax * 2 ^ m.fbits := by simp [FpFmt.infMag, he]
  have run : m.infinity neg = { bits := (if neg then m.signBit else 0) + m.infMag, flags := 0 } := by simp [FpFmt.infinity, he]
  rw [run]
  refine ⟨?_, rfl⟩
  unfold FpFmt.decode
  simp only [sign, p2, p3, p4, he]
  rw [mag, Nat.mul_div_cancel _ (Nat.two_pow_pos _), Nat.mul_mod_left]
  simp

theorem isNan_quietNan (m : FpFmt) (invalid : Bool) : m.IsNan invalid (m.quietNan invalid) := ⟨rfl, rfl⟩

/-! #### Sums, products and fused sums -/

/-- The exact sum of finite values, rounded once. -/
theorem sumIs_addFin (m : FpFmt) (mode : Nat) (n1 : Bool) (m1 : Nat) (e1 : Int) (n2 : Bool) (m2 : Nat) (e2 : Int) :
    m.SumIs mode (.fin n1 m1 e1) (.fin n2 m2 e2) (m.addFin mode n1 m1 e1 n2 m2 e2) := by
  have low : (if e1 < e2 then e1 else e2) ≤ e1 ∧ (if e1 < e2 then e1 else e2) ≤ e2 := by split <;> omega
  have units := congrArg₂ (· + ·) (finAt_eq (neg := n1) (mag := m1) low.1) (finAt_eq (neg := n2) (mag := m2) low.2)
  simp only [← add_mul, ← Int.cast_add] at units
  unfold FpFmt.SumIs FpFmt.addFin
  dsimp only
  by_cases h : finRat n1 m1 e1 + finRat n2 m2 e2 = 0
  · rw [if_pos h, if_pos (beq_iff_eq.mpr ((units_eq_zero_iff units).mp h))]
    refine ⟨?_, rfl⟩
    simp [and_assoc]
  · rw [if_neg h, if_neg (fun h' => h ((units_eq_zero_iff units).mpr (beq_iff_eq.mp h')))]
    exact roundsTo_units units

theorem roundDyadic_zero (m : FpFmt) (mode : Nat) (neg : Bool) (e : Int) : m.IsZero neg (m.roundDyadic mode neg 0 e) := by
  unfold FpFmt.roundDyadic
  rw [Nat.zero_mul]
  split <;> exact ⟨rfl, rfl⟩

/-- The exact product of finite values, rounded once. -/
theorem productIs_roundDyadic (m : FpFmt) (mode : Nat) (n1 : Bool) (m1 : Nat) (e1 : Int) (n2 : Bool) (m2 : Nat) (e2 : Int) :
    m.ProductIs mode (.fin n1 m1 e1) (.fin n2 m2 e2) (m.roundDyadic mode (n1 != n2) (m1 * m2) (e1 + e2)) := by
  have value := finRat_mul n1 n2 m1 m2 e1 e2
  unfold FpFmt.ProductIs
  dsimp only
  rw [← value]
  by_cases h : m1 * m2 = 0
  · rw [if_pos (finRat_eq_zero.mpr h), h]
    exact roundDyadic_zero ..
  · rw [if_neg (fun h' => h (finRat_eq_zero.mp h'))]
    exact roundsTo_roundDyadic (neg_eq_decide h) (abs_finRat ..).symm

/-- An infinity added to a value. -/
theorem addVal_inf (m : FpFmt) (mode : Nat) (c : FVal) (p : Bool) : m.addVal mode c (.inf p) = match c with
    | .nan s => m.quietNan s
    | .inf z => if p == z then m.infinity z else m.quietNan true
    | .fin _ _ _ => m.infinity p := by
  cases c with
  | nan s => exact congrArg m.quietNan (Bool.or_false s)
  | inf z => exact congrArg (fun b : Bool => if b then m.infinity z else m.quietNan true) Bool.beq_comm
  | fin n k e => rfl

/-- A fused sum adds the exact product. -/
theorem fma_eq_addVal (m : FpFmt) (mode : Nat) (c : FVal) {x y p : FVal} (hx : x.isNan = false) (hy : y.isNan = false)
    (hp : productVal x y = (p, false)) : m.fma mode c x y = m.addVal mode c p := by
  cases x with
  | nan s => cases hx
  | inf a =>
    cases y with
    | nan s => cases hy
    | inf b =>
      cases hp
      rw [addVal_inf]
      cases c <;> rfl
    | fin b k e =>
      by_cases hk : k = 0
      · simp [productVal, hk] at hp
      · obtain rfl : .inf (a != b) = p := by simpa [productVal, hk] using hp
        rw [addVal_inf]
        unfold FpFmt.fma
        simp only [beq_false_of_ne hk]
        cases c <;> rfl
  | fin a k e =>
    cases y with
    | nan s => cases hy
    | inf b =>
      by_cases hk : k = 0
      · simp [productVal, hk] at hp
      · obtain rfl : .inf (a != b) = p := by simpa [productVal, hk] using hp
        rw [addVal_inf]
        unfold FpFmt.fma
        simp only [beq_false_of_ne hk]
        cases c <;> rfl
    | fin b j d =>
      cases hp
      cases c with
      | nan s => exact (congrArg m.quietNan (Bool.or_false s)).symm
      | inf z => rfl
      | fin n l g => rfl

/-- Infinity times zero: invalid, unless beside a quiet NaN. -/
theorem infZero_flags (m : FpFmt) (c : FVal) :
    let r := m.quietNan (!c.isNan || c.isSnan || Config.fmaNanInvalid)
    r.bits = m.nan ∧ (r.flags = flagInvalid ∨ (c = .nan false ∧ r.flags = 0)) := by
  refine ⟨rfl, ?_⟩
  cases c with
  | nan s =>
    cases s
    · cases h : Config.fmaNanInvalid
      · exact .inr ⟨rfl, rfl⟩
      · exact .inl rfl
    · exact .inl rfl
  | inf p => exact .inl rfl
  | fin n k e => exact .inl rfl

section
variable {m : FpFmt} {w : Nat} (hf : m.Framed w)
include hf

theorem sumIs_addVal (mode : Nat) {x y : FVal} (hx : m.Admits x) (hy : m.Admits y) : m.SumIs mode x y (m.addVal mode x y) := by
  cases x with
  | nan s => exact isNan_quietNan m _
  | inf p =>
    cases y with
    | nan s => exact isNan_quietNan m s
    | inf q =>
      unfold FpFmt.SumIs FpFmt.addVal
      by_cases h : p = q
      · simpa [h] using isInf_infinity hf q (hy q rfl)
      · simpa [h] using isNan_quietNan m true
    | fin n k e => exact isInf_infinity hf p (hx p rfl)
  | fin n k e =>
    cases y with
    | nan s => exact isNan_quietNan m s
    | inf q => exact isInf_infinity hf q (hy q rfl)
    | fin n' k' e' => exact sumIs_addFin m mode n k e n' k' e'

theorem productIs_mulVal (mode : Nat) {x y : FVal} (hx : m.Admits x) (hy : m.Admits y) : m.ProductIs mode x y (m.mulVal mode x y) := by
  cases x with
  | nan s => exact isNan_quietNan m _
  | inf p =>
    cases y with
    | nan s => exact isNan_quietNan m s
    | inf q => exact isInf_infinity hf _ (hx p rfl)
    | fin n k e =>
      unfold FpFmt.ProductIs FpFmt.mulVal
      by_cases h : k = 0
      · simpa [h] using isNan_quietNan m true
      · simpa [h] using isInf_infinity hf (p != n) (hx p rfl)
  | fin n k e =>
    cases y with
    | nan s => exact isNan_quietNan m s
    | inf q =>
      unfold FpFmt.ProductIs FpFmt.mulVal
      by_cases h : k = 0
      · simpa [h] using isNan_quietNan m true
      · simpa [h, bne_comm (a := n)] using isInf_infinity hf (q != n) (hy q rfl)
    | fin n' k' e' => exact productIs_roundDyadic m mode n k e n' k' e'

theorem fusedIs_fma (mode : Nat) {c x y : FVal} (hc : m.Admits c) (hx : m.Admits x) (hy : m.Admits y) :
    m.FusedIs mode c x y (m.fma mode c x y) := by
  cases x with
  | nan s => exact isNan_quietNan m _
  | inf p =>
    cases y with
    | nan s => exact isNan_quietNan m _
    | inf q =>
      rw [fma_eq_addVal m mode c rfl rfl rfl]
      exact sumIs_addVal hf mode hc (fun _ _ => hx p rfl)
    | fin q k e =>
      show if k = 0 then _ else _
      by_cases hk : k = 0
      · subst hk
        exact infZero_flags m c
      · rw [if_neg hk, fma_eq_addVal m mode c rfl rfl (p := .inf (p != q)) (by simp [productVal, hk])]
        exact sumIs_addVal hf mode hc (fun _ _ => hx p rfl)
  | fin n k e =>
    cases y with
    | nan s => exact isNan_quietNan m _
    | inf q =>
      show if k = 0 then _ else _
      by_cases hk : k = 0
      · subst hk
        exact infZero_flags m c
      · rw [if_neg hk, fma_eq_addVal m mode c rfl rfl (p := .inf (q != n)) (by simp [productVal, hk, bne_comm (a := n)])]
        exact sumIs_addVal hf mode hc (fun _ _ => hy q rfl)
    | fin n' k' e' =>
      rw [fma_eq_addVal m mode c rfl rfl rfl]
      exact sumIs_addVal hf mode hc (fun _ h => by cases h)

/-! #### Results lie in their element -/

theorem addFin_lt (mode : Nat) (n1 : Bool) (m1 : Nat) (e1 : Int) (n2 : Bool) (m2 : Nat) (e2 : Int) :
    (m.addFin mode n1 m1 e1 n2 m2 e2).bits < 2 ^ (8 * w) :=
  bits_ite_lt (fun _ => zero_lt hf _) (fun _ => roundDyadic_lt hf _ _ _ _)

theorem addVal_lt (mode : Nat) (x y : FVal) : (m.addVal mode x y).bits < 2 ^ (8 * w) := by
  unfold FpFmt.addVal
  split
  · exact quietNan_lt hf _
  · exact quietNan_lt hf _
  · exact bits_ite_lt (fun _ => infinity_lt hf _) (fun _ => quietNan_lt hf _)
  · exact infinity_lt hf _
  · exact infinity_lt hf _
  · exact addFin_lt hf _ _ _ _ _ _ _

theorem mulVal_lt (mode : Nat) (x y : FVal) : (m.mulVal mode x y).bits < 2 ^ (8 * w) := by
  unfold FpFmt.mulVal
  split
  · exact quietNan_lt hf _
  · exact quietNan_lt hf _
  · exact infinity_lt hf _
  · exact bits_ite_lt (fun _ => quietNan_lt hf _) (fun _ => infinity_lt hf _)
  · exact bits_ite_lt (fun _ => quietNan_lt hf _) (fun _ => infinity_lt hf _)
  · exact roundDyadic_lt hf _ _ _ _

theorem fma_lt (mode : Nat) (c x y : FVal) : (m.fma mode c x y).bits < 2 ^ (8 * w) := by
  refine bits_ite_lt (fun _ => quietNan_lt hf _) (fun _ => bits_ite_lt (fun _ => quietNan_lt hf _) (fun _ => ?_))
  split
  · exact quietNan_lt hf _
  · exact addFin_lt hf _ _ _ _ _ _ _
  · exact infinity_lt hf _
  · exact bits_ite_lt (fun _ => infinity_lt hf _) (fun _ => quietNan_lt hf _)
  · exact bits_ite_lt (fun _ => infinity_lt hf _) (fun _ => quietNan_lt hf _)
  · exact bits_ite_lt (fun _ => infinity_lt hf _) (fun _ => quietNan_lt hf _)
  · exact infinity_lt hf _
  · exact infinity_lt hf _
  · exact infinity_lt hf _
  · exact quietNan_lt hf _

end

/-! #### The greater and the lesser of two numbers -/

/-- Whether the first of two numbers is the extremum. -/
def FVal.first (big : Bool) (x y : FVal) : Bool :=
  match x.cmp y with
  | .gt => big
  | .lt => !big
  | .eq => x.isNeg != big

theorem isSnan_of_number {v : FVal} (h : v.isNan = false) : v.isSnan = false := by
  cases v with
  | nan s => cases h
  | _ => rfl

section
variable {m : FpFmt} {big : Bool} {x y : Nat}

theorem extremum_numbers (hx : (m.decode x).isNan = false) (hy : (m.decode y).isNan = false) :
    m.extremum big x y = { bits := if (m.decode x).first big (m.decode y) then x else y, flags := 0 } := by
  unfold FpFmt.extremum
  simp only [hx, hy]
  rfl

theorem extremum_lt {w : Nat} (hf : m.Framed w) (hx : x < 2 ^ (8 * w)) (hy : y < 2 ^ (8 * w)) :
    (m.extremum big x y).bits < 2 ^ (8 * w) := by
  refine bits_ite_lt (fun _ => quietNan_lt hf _) (fun _ => bits_ite_lt (fun _ => hy) (fun _ => bits_ite_lt (fun _ => hx) (fun _ => ?_)))
  show (if (m.decode x).first big (m.decode y) then x else y) < _
  split
  · exact hx
  · exact hy

/-- The extremum of two numbers has the greater, or the lesser, of their values. -/
theorem first_extended {p q : EReal} (hp : m.Extended x p) (hq : m.Extended y q) :
    m.Extended (if (m.decode x).first big (m.decode y) then x else y) (if big then max p q else min p q) := by
  obtain ⟨hx, hxp⟩ := extended_value hp
  obtain ⟨hy, hyq⟩ := extended_value hq
  have h := cmp_compares_value hx hy
  rw [← hxp, ← hyq] at h
  unfold FVal.first
  cases ho : (m.decode x).cmp (m.decode y) with
  | lt =>
    rw [ho] at h
    have h : p < q := h
    cases big
    · simpa [h.le] using hp
    · simpa [h.le] using hq
  | eq =>
    rw [ho] at h
    obtain rfl : p = q := h
    rw [max_self, min_self, ite_self]
    dsimp only
    split
    · exact hp
    · exact hq
  | gt =>
    rw [ho] at h
    have h : q < p := h
    cases big
    · simpa [h.le] using hq
    · simpa [h.le] using hp

/-- Of two zeros the extremum is the one of the sign asked for. -/
theorem first_zero_sign (hx : (m.decode x).isZero = true) (hy : (m.decode y).isZero = true) :
    (m.decode (if (m.decode x).first big (m.decode y) then x else y)).isNeg =
      if big then (m.decode x).isNeg && (m.decode y).isNeg else (m.decode x).isNeg || (m.decode y).isNeg := by
  have zero : ∀ {v : FVal}, v.isZero = true → ∃ n e, v = .fin n 0 e := by
    intro v hv
    cases v with
    | fin n k e => exact ⟨n, e, by rw [show k = 0 by simpa [FVal.isZero] using hv]⟩
    | _ => cases hv
  obtain ⟨n, e, h⟩ := zero hx
  obtain ⟨n', e', h'⟩ := zero hy
  have first : (m.decode x).first big (m.decode y) = (n != big) := by
    rw [h, h']
    simp [FVal.first, FVal.cmp, finAt, FVal.isNeg]
  rw [first, h, h']
  cases n <;> cases big <;> simp [h, h', FVal.isNeg]

theorem extremumIs_extremum : m.ExtremumIs big x y (m.extremum big x y) := by
  refine ⟨fun ha hb => ?_, fun ha hb => ?_, fun ha hb => ?_, fun ha hb => ?_⟩
  · unfold FpFmt.extremum
    simp only [ha, hb]
    exact isNan_quietNan m _
  · unfold FpFmt.extremum
    simp [ha, hb, isSnan_of_number hb]
  · unfold FpFmt.extremum
    simp [ha, hb, isSnan_of_number ha]
  · rw [extremum_numbers ha hb]
    refine ⟨rfl, ?_, fun p q => first_extended, first_zero_sign⟩
    dsimp only
    split
    · exact .inl rfl
    · exact .inr rfl

end

/-! #### The words -/

section
variable {c : CoreId} {f : VR} {w : Companions} {s : State}

/-- A floating-point word gives each active element its operation's result. -/
theorem floatOp_gives {g : FpFmt → Nat → FVal → FVal → FVal → Rounded} {i : Instr}
    (he : 8 ≤ f.etype.toNat) (he' : f.etype.toNat ≤ 0xD)
    (hm : f.mod = 0) (hi : exec i s = runWord c 1 (floatOp f g) w s)
    (hlt : ∀ r d a b, (g (fmtOf f.etype.toNat) r d a b).bits < 2 ^ (8 * f.width)) :
    let m := fmtOf f.etype.toNat
    let v := fun (r : BitVec 5) (j : Nat) => m.decode (lane f.width ((s.core c).getW r) j)
    let r := fun j => g m (s.core c).fpctl.toNat (v f.wd j) (v f.wa j) (v f.wb j)
    WritesLanes 1 i c f f.width (fun j => (r j).bits) (fun j => (r j).flags) w s :=
  writesLanes_of (etypeBytes_width he') hi (by decide) (floatOp_fits f g 1) rfl
    ⟨by simp [floatOp, etypeFloat, etypeIsFloat, he, he', hm], nofun, rfl, rfl⟩ (fun _ _ _ => Nat.mod_eq_of_lt (hlt _ _ _ _))
    (fun _ _ _ => rfl)

theorem extremumOp_gives {big : Bool} {i : Instr} (he : 8 ≤ f.etype.toNat) (he' : f.etype.toNat ≤ 0xD)
    (hm : f.mod = 0) (hi : exec i s = runWord c 1 (extremumOp f big) w s) :
    let v := fun (r : BitVec 5) (j : Nat) => lane f.width ((s.core c).getW r) j
    let r := fun j => (fmtOf f.etype.toNat).extremum big (v f.wa j) (v f.wb j)
    WritesLanes 1 i c f f.width (fun j => (r j).bits) (fun j => (r j).flags) w s :=
  writesLanes_of (etypeBytes_width he') hi (by decide) (extremumOp_fits f big 1) rfl
    ⟨by simp [extremumOp, etypeFloat, etypeIsFloat, he, he', hm], nofun, rfl, rfl⟩
    (fun _ _ _ => Nat.mod_eq_of_lt (extremum_lt (fmtOf_framed he he') (lane_lt _ _ _) (lane_lt _ _ _))) (fun _ _ _ => rfl)

end

/-- Settles O8: each operation of the model is the exact one rounded once, value by value, and its words write the results. -/
theorem floatVectors : Obligations.FloatVectors := by
  refine ⟨by decide, ?_⟩
  intro c f w s he he' hm k m r n x d a b gives
  have hf : m.Framed n := fmtOf_framed he he'
  have ok : ∀ v i, m.Admits (m.decode (x v i)) := fun v i => decode_admits m _
  refine ⟨?_, ?_, ?_, ?_, ?_, ?_, ?_⟩
  · exact ⟨_, fun j => fusedIs_fma hf r (ok _ _) (ok _ _) (ok _ _),
      floatOp_gives (g := fun m r d a b => m.fma r d a b) he he' hm rfl (fun _ _ _ _ => fma_lt hf _ _ _ _)⟩
  · exact ⟨_, fun j => fusedIs_fma hf r (ok _ _) (neg_admits (ok _ _)) (ok _ _),
      floatOp_gives (g := fun m r d a b => m.fma r d a.neg b) he he' hm rfl (fun _ _ _ _ => fma_lt hf _ _ _ _)⟩
  · exact ⟨_, fun j => productIs_mulVal hf r (ok _ _) (ok _ _),
      floatOp_gives (g := fun m r _ a b => m.mulVal r a b) he he' hm rfl (fun _ _ _ _ => mulVal_lt hf _ _ _)⟩
  · exact ⟨_, fun j => sumIs_addVal hf r (ok _ _) (ok _ _),
      floatOp_gives (g := fun m r _ a b => m.addVal r a b) he he' hm rfl (fun _ _ _ _ => addVal_lt hf _ _ _)⟩
  · exact ⟨_, fun j => sumIs_addVal hf r (ok _ _) (neg_admits (ok _ _)),
      floatOp_gives (g := fun m r _ a b => m.addVal r a b.neg) he he' hm rfl (fun _ _ _ _ => addVal_lt hf _ _ _)⟩
  · exact ⟨_, fun j => extremumIs_extremum, extremumOp_gives he he' hm rfl⟩
  · exact ⟨_, fun j => extremumIs_extremum, extremumOp_gives he he' hm rfl⟩

end Sys2Proof.Machine

/-! ### O12: exact accumulators (R76 to R79) -/

namespace Sys2Proof.Machine

open Sys2Proof

/-! #### Lanes -/

theorem laneFits_iff {z : Int} : laneFits z = true ↔ -(2 ^ 575 : Int) ≤ z ∧ z < 2 ^ 575 := decide_eq_true_iff

/-- A lane holds every integer of its range (R76). -/
theorem toInt_laneOfInt {z : Int} (h : laneFits z = true) : (laneOfInt z).toInt = z := by
  obtain ⟨h1, h2⟩ := laneFits_iff.mp h
  exact BitVec.toInt_ofInt_eq_self (by decide) h1 h2

/-- What a lane gains from numbers of which each goes to the lane that `r` names. -/
theorem foldl_lane (l : List Nat) (r : Nat → Nat) (x : Nat → Int) (j : Nat) (a : Int) :
    (l.map (fun i => (r i, x i))).foldl (fun a y => if y.1 = j then a + y.2 else a) a = a + ((l.filter (r · = j)).map x).sum := by
  induction l generalizing a with
  | nil => simp
  | cons i l ih =>
    rw [List.map_cons, List.foldl_cons, ih]
    by_cases h : r i = j
    · rw [if_pos h, List.filter_cons_of_pos (by simpa using h), List.map_cons, List.sum_cons, add_assoc]
    · rw [if_neg h, List.filter_cons_of_neg (by simpa using h)]

/-- R78: an accumulator takes exact sums that stay in the range. -/
theorem addLanes_exact (e : Vector (BitVec 576) 16) (l : List Nat) (r : Nat → Nat) (x : Nat → Int) {g : Nat → Int}
    (hg : ∀ j, j < 16 → (e[j]?.getD 0).toInt + ((l.filter (r · = j)).map x).sum = g j)
    (hfit : ∀ j, j < 16 → laneFits (g j) = true) :
    ∃ v, addLanes e (l.map (fun i => (r i, x i))) = some v ∧ ∀ j : Fin 16, (v[j]).toInt = g j := by
  have sums : (List.range 16).map (fun j => (l.map (fun i => (r i, x i))).foldl (fun a y => if y.1 = j then a + y.2 else a)
      (laneInt (e[j]?.getD 0))) = (List.range 16).map g :=
    List.map_congr_left (fun j hj => (foldl_lane l r x j _).trans (hg j (List.mem_range.mp hj)))
  unfold addLanes
  dsimp only
  rw [sums, if_pos (by simpa using hfit)]
  refine ⟨_, rfl, fun j => ?_⟩
  have hj : ((List.range 16).map g)[j.val]?.getD 0 = g j := by simp
  rw [Fin.getElem_fin, Vector.getElem_ofFn, hj, toInt_laneOfInt (hfit j j.isLt)]

/-! #### The words -/

section
variable {c : CoreId} {f : VR} {w : Companions} {s : State} {i : Instr} {d a : BitVec 1}

theorem accOf_eq (r : BitVec 5) : accOf r = BitVec.ofNat 1 r.toNat := setWidth_eq_ofNat r 1

/-- The exact values of the active elements, with their lanes. -/
theorem exact_inputs {g : Nat → Nat → Option Int} {l : List Nat} {t : Nat} {a : Nat → Nat} {x : Nat → Int}
    (hx : ∀ i ∈ l, g t (a i) = some (x i)) :
    l.map (fun i => (g t (a i)).map (fun v => (i % 16, v))) = (l.map (fun i => (i % 16, x i))).map some := by
  rw [List.map_map]
  exact List.map_congr_left (fun i hi => by rw [hx i hi]; rfl)

/-- R77: each active element's value is gained by its lane. -/
theorem exactOp_adds {g : Nat → Nat → Option Int} (hi : exec i s = runWord c 1 (exactOp f g) w s)
    (ht : f.etype.toNat < 8 ∨ f.etype.toNat = 0xA ∨ f.etype.toNat = 0xC)
    (hd : f.wd.toNat < 2) (hm : f.mod = 0) (hb : f.wb = 0) (hacc : accOf f.wd = d)
    {x : Nat → Int} {z : Nat → Int}
    (hx : ∀ i ∈ activeLanes f.width ((s.core c).getP f.pg), g f.etype.toNat (lane f.width ((s.core c).getW f.wa) i) = some (x i))
    (hz : ∀ j, j < 16 → (((s.core c).getE d)[j]?.getD 0).toInt +
      (((activeLanes f.width ((s.core c).getP f.pg)).filter (· % 16 = j)).map x).sum = z j)
    (hfit : ∀ j, j < 16 → laneFits (z j) = true) :
    ∃ v : Vector (BitVec 576) 16, (∀ j : Fin 16, (v[j]).toInt = z j) ∧ WritesE 1 i c d v w s := by
  subst hacc
  obtain ⟨v, hv, hval⟩ := addLanes_exact ((s.core c).getE (accOf f.wd)) _ (· % 16) x hz hfit
  refine ⟨v, hval, completes hi (by decide) (exactOp_fits f g) ⟨?_, nofun, ?_, rfl⟩⟩
  · have legal : (etypeInt f.etype || f.etype = 0xA || f.etype = 0xC) = true := by
      simpa [etypeInt, etypeIsInt, ← BitVec.toNat_inj, or_assoc] using ht
    simp only [exactOp, legal, hm, hb, accField, hd, decide_true, Bool.and_self]
  · have inputs := exact_inputs (a := (ctxOf s c).a f) hx
    unfold exactOp
    dsimp only
    rw [ctxOf] at inputs
    rw [inputs]
    simp [hv]

theorem veadd_adds (ht : f.etype.toNat = 0) (hp : f.pg = 0) (hd : f.wd.toNat < 2) (ha : f.wa.toNat < 2) (hm : f.mod = 0) (hb : f.wb = 0)
    (hacc : accOf f.wd = d) (hsrc : accOf f.wa = a)
    (hfit : ∀ j, j < 16 → laneFits ((((s.core c).getE d)[j]?.getD 0).toInt + (((s.core c).getE a)[j]?.getD 0).toInt) = true) :
    ∃ v : Vector (BitVec 576) 16, (∀ j : Fin 16, (v[j]).toInt =
        (((s.core c).getE d)[j.val]?.getD 0).toInt + (((s.core c).getE a)[j.val]?.getD 0).toInt) ∧
      WritesE 1 (.veadd c f w) c d v w s := by
  subst hacc hsrc
  have own : ∀ j < 16, (List.range 16).filter (fun i => decide (id i = j)) = [j] := by decide
  obtain ⟨v, hv, hval⟩ := addLanes_exact ((s.core c).getE (accOf f.wd)) (List.range 16) id
    (fun j => laneInt (((s.core c).getE (accOf f.wa))[j]?.getD 0)) (fun j hj => by rw [own j hj]; simp [laneInt]) hfit
  refine ⟨v, hval, completes (m := slotVeadd f) rfl (by decide) (slotVeadd_fits f) ⟨?_, nofun, ?_, rfl⟩⟩
  · have h0 : f.etype = 0 := BitVec.eq_of_toNat_eq ht
    simp only [slotVeadd, h0, hp, hm, hb, accField, hd, ha, decide_true, Bool.and_self]
  · unfold slotVeadd
    dsimp only [id] at hv ⊢
    rw [hv]

theorem veclr_clears (ht : f.etype.toNat = 0) (hp : f.pg = 0) (hd : f.wd.toNat < 2) (ha : f.wa = 0) (hm : f.mod = 0) (hb : f.wb = 0)
    (hacc : accOf f.wd = d) :
    WritesE 1 (.veclr c f w) c d (Vector.replicate 16 0) w s := by
  subst hacc
  have h0 : f.etype = 0 := BitVec.eq_of_toNat_eq ht
  exact completes (m := slotVeclr f) rfl (by decide) (slotVeclr_fits f)
    ⟨by simp only [slotVeclr, h0, hp, hm, hb, ha, accField, hd, decide_true, Bool.and_self], nofun, rfl, rfl⟩

/-- A lane is its integer in units of 2^-298, rounded once. -/
theorem roundLane_eq (m : FpFmt) (v : Int) : roundLane m v = m.round 0 (decide (v < 0)) v.natAbs (2 ^ 298) := by
  unfold roundLane FpFmt.roundDyadic
  rw [if_pos (by decide)]
  rw [show (-(-298 : Int)).toNat = 298 from rfl]

/-- R79: VERD rounds the lanes of an accumulator. -/
theorem verd_rounds (ht : f.etype = 0xC ∨ f.etype = 0xD) (hm : f.mod = 0) (hb : f.wb = 0) (ha : f.wa.toNat < 2)
    (hsrc : accOf f.wa = a) :
    let x : Nat → Int := fun j => laneInt (((s.core c).getE a)[j]?.getD 0)
    let r := fun j => (fmtOf f.etype.toNat).round 0 (decide (x j < 0)) (x j).natAbs (2 ^ 298)
    WritesLanes 1 (.verd c f w) c f f.width (fun j => if j < 16 then (r j).bits else 0) (fun j => if j < 16 then (r j).flags else 0)
      w s := by
  subst hsrc
  intro x r
  have range : 8 ≤ f.etype.toNat ∧ f.etype.toNat ≤ 0xD := by rcases ht with h | h <;> rw [h] <;> decide
  have hf : (fmtOf f.etype.toNat).Framed f.width := fmtOf_framed range.1 range.2
  refine writesLanes_of (m := slotVerd f) (g := fun j => if j < 16 then roundLane (fmtOf f.etype.toNat) (x j) else { bits := 0, flags := 0 })
    (etypeBytes_width range.2)
    rfl (by decide) (slotVerd_fits f) rfl ⟨?_, nofun, rfl, rfl⟩ (fun j _ _ => ?_) (fun j _ _ => ?_)
  · simp only [slotVerd, hm, hb, accField, ha, decide_true, Bool.and_true]
    simpa using ht
  · rw [roundLane_eq, apply_ite Rounded.bits]
    split
    · exact Nat.mod_eq_of_lt (round_lt hf _ _ _ _)
    · exact Nat.zero_mod _
  · rw [roundLane_eq]
    exact apply_ite ..

end

/-- Settles O12: the lanes of an accumulator gain exact values in turn and hold every sum of their range; VERD rounds each once. -/
theorem exactAccumulation : Obligations.ExactAccumulation := by
  refine ⟨fun c f w s hd hm hb => ?_, fun c f w s ht hm hb ha => ?_⟩
  · intro k t n acc d holds fits active sums
    have hacc : accOf f.wd = d := accOf_eq f.wd
    refine ⟨fun x ht hx hfit => ?_, fun x ht hx hfit => ?_, fun ht hp ha => ?_, fun ht hp ha => ?_⟩
    · exact exactOp_adds rfl ht hd hm hb hacc hx (fun _ _ => rfl) hfit
    · exact exactOp_adds rfl ht hd hm hb hacc hx (fun _ _ => rfl) hfit
    · exact fun hfit => veadd_adds ht hp hd ha hm hb hacc (accOf_eq f.wa) hfit
    · exact veclr_clears ht hp hd ha hm hb hacc
  · exact verd_rounds ht hm hb ha (accOf_eq f.wa)

end Sys2Proof.Machine

/-! ### Writes at the memory side (R48, R54, R57, R300) -/

namespace Sys2Proof.Machine

open Sys2Proof

/-! #### Copies of lines written back -/

/-- No Vat holds a poisoned copy. -/
def Memory.Sound (m : Memory) : Prop := ∀ x ∈ m.l2, x.poison = false

theorem l2Find_sound {m : Memory} (h : m.Sound) {v : BitVec 6} {n : Nat} {x : L2Line} (hx : l2Find m.l2 v n = some x) : x.poison = false :=
  h x (List.mem_of_find?_eq_some hx)

/-- A Vat's copies of the lines that satisfy `p` have been written back and dropped, beside bytes and ECC of these lines alone. -/
structure LinesBack (v : BitVec 6) (p : Nat → Prop) (s t : State) : Prop where
  frame  : t.mem = { s.mem with bytes := t.mem.bytes, l2 := t.mem.l2, ecc := t.mem.ecc }
  sound  : t.mem.Sound
  ecc    : ∀ e ∈ t.mem.ecc, e ∈ s.mem.ecc
  kept   : ∀ e ∈ s.mem.ecc, ¬ p e.1 → e ∈ t.mem.ecc
  others : ∀ w n, w ≠ v → l2Find t.mem.l2 w n = l2Find s.mem.l2 w n

theorem memWrite_mem (s : State) (a : Nat) (b : Bytes) : (s.memWrite a b).mem =
    { s.mem with
      bytes := (s.mem.write a b).bytes, ecc := s.mem.ecc.filter (fun e => !(a ≤ 64 * e.1 && 64 * (e.1 + 1) ≤ a + b.length)) } := by
  unfold State.memWrite Memory.renew
  rw [Memory.write_l2]

theorem mem_l2Drop {ls : List L2Line} {v : BitVec 6} {n : Nat} {x : L2Line} (h : x ∈ l2Drop ls v n) : x ∈ ls :=
  (List.mem_filter.mp h).1

/-- Dropping a Vat's copies of one line. -/
theorem LinesBack.drop {v : BitVec 6} {n : Nat} {s t : State} (h : LinesBack v (· = n) s t) :
    LinesBack v (· = n) s { t with mem := { t.mem with l2 := l2Drop t.mem.l2 v n } } := by
  obtain ⟨frame, sound, ecc, kept, others⟩ := h
  refine ⟨by rw [frame], fun x hx => sound x (mem_l2Drop hx), ecc, kept, fun w k hw => ?_⟩
  exact (l2Find_drop ..).trans ((if_neg (fun h => hw h.1)).trans (others w k hw))

theorem LinesBack.refl {s : State} (h : s.mem.Sound) (v : BitVec 6) (p : Nat → Prop) : LinesBack v p s s :=
  ⟨rfl, h, fun _ he => he, fun _ he _ => he, fun _ _ _ => rfl⟩

theorem mem_ecc_memWrite {s : State} {a : Nat} {b : Bytes} {e : Nat × Nat} : e ∈ (s.memWrite a b).mem.ecc ↔
    e ∈ s.mem.ecc ∧ (a ≤ 64 * e.1 → a + b.length < 64 * (e.1 + 1)) := by
  rw [memWrite_mem]
  simp only [List.mem_filter, Bool.not_eq_true', Bool.and_eq_false_iff, decide_eq_false_iff_not, ← not_and_or]
  simp

theorem putLine_frame {s u : State} (h : u.mem = { s.mem with bytes := u.mem.bytes, l2 := u.mem.l2, ecc := u.mem.ecc })
    (v : BitVec 6) (n : Nat) (d : Bool) (x : BitVec 512) : (u.putLine v n d x).mem = { s.mem with
      bytes := (u.putLine v n d x).mem.bytes, l2 := (u.putLine v n d x).mem.l2, ecc := (u.putLine v n d x).mem.ecc } := by
  show { u.mem with l2 := (u.putLine v n d x).mem.l2 } = { s.mem with
    bytes := u.mem.bytes, l2 := (u.putLine v n d x).mem.l2, ecc := u.mem.ecc }
  rw [h]

/-- A dirty copy written back, which stays. -/
theorem writeLine_back {s : State} (h : s.mem.Sound) {v : BitVec 6} {n : Nat} {x : L2Line} (hx : l2Find s.mem.l2 v n = some x) :
    LinesBack v (· = n) s ((s.memWrite (64 * n) (lineToBytes x.data)).putLine v n false x.data) := by
  have lost : (s.memWrite (64 * n) (lineToBytes x.data)).lineLost v n = false := by
    unfold State.lineLost
    rw [l2Find_memWrite, hx]
    exact l2Find_sound h hx
  have ecc : ((s.memWrite (64 * n) (lineToBytes x.data)).putLine v n false x.data).mem.ecc =
      (s.memWrite (64 * n) (lineToBytes x.data)).mem.ecc := rfl
  refine ⟨?_, fun y hy => ?_, fun e he => ?_, fun e he hn => ?_, fun w k hw => ?_⟩
  · exact putLine_frame (by rw [memWrite_mem]) v n false x.data
  · rcases List.mem_cons.mp hy with rfl | hy
    · exact lost
    · exact h y (memWrite_l2 s _ _ ▸ mem_l2Drop hy)
  · rw [ecc] at he
    exact (mem_ecc_memWrite.mp he).1
  · rw [ecc]
    refine mem_ecc_memWrite.mpr ⟨he, fun _ => ?_⟩
    rw [lineToBytes_length]
    omega
  · rw [l2Find_putLine, if_neg (fun h => hw h.1), l2Find_memWrite]

theorem flushLine_back {s : State} (h : s.mem.Sound) (v : BitVec 6) (n : Nat) : LinesBack v (· = n) s (s.flushLine v n) := by
  unfold State.flushLine
  split
  case h_1 x hx =>
    split
    · rw [l2Find_sound h hx]
      exact writeLine_back h hx
    · exact .refl h v _
  case h_2 => exact .refl h v _

theorem invalLine_back {s : State} (h : s.mem.Sound) (v : BitVec 6) (n : Nat) : LinesBack v (· = n) s (s.invalLine v n) :=
  (flushLine_back h v n).drop

theorem LinesBack.mono {v : BitVec 6} {p q : Nat → Prop} {s t : State} (h : LinesBack v p s t) (hp : ∀ n, p n → q n) :
    LinesBack v q s t :=
  ⟨h.frame, h.sound, h.ecc, fun e he hq => h.kept e he (fun hpe => hq (hp _ hpe)), h.others⟩

theorem LinesBack.trans {v : BitVec 6} {p : Nat → Prop} {s t u : State} (h : LinesBack v p s t) (g : LinesBack v p t u) :
    LinesBack v p s u :=
  ⟨by rw [g.frame, h.frame], g.sound, fun e he => h.ecc e (g.ecc e he), fun e he hp => g.kept e (h.kept e he hp) hp,
    fun w n hw => (g.others w n hw).trans (h.others w n hw)⟩

theorem invalLines_back {v : BitVec 6} {p : Nat → Prop} {ns : List Nat} (hp : ∀ n ∈ ns, p n) {s : State} (h : s.mem.Sound) :
    LinesBack v p s (ns.foldl (fun s n => s.invalLine v n) s) := by
  induction ns generalizing s with
  | nil => exact .refl h v p
  | cons n ns ih =>
    obtain ⟨hn, hns⟩ := List.forall_mem_cons.mp hp
    have first : LinesBack v p s (s.invalLine v n) := (invalLine_back h v n).mono (fun k hk => hk ▸ hn)
    exact first.trans (ih hns first.sound)

theorem invalRange_back {s : State} (h : s.mem.Sound) (v : BitVec 6) (a n : Nat) :
    LinesBack v (inRange a n) s (s.invalRange v a n) :=
  invalLines_back (fun _ hk => (mem_linesIn.mp hk).1) h

/-! #### One write at the memory side -/

theorem mem_of_lastStore_none {cells : List (Nat × BitVec 8)} {q : Nat} (h : lastStore cells q = none) (x : BitVec 8) :
    (q, x) ∉ cells := by
  intro hx
  have := List.find?_eq_none.mp (Option.map_eq_none_iff.mp h) _ (List.mem_reverse.mpr hx)
  simp at this

section
variable {a : Nat} {b : Bytes}

theorem lineWritten_iff {n : Nat} : lineWritten [(a, b)] n ↔ inRange a b.length n := by
  unfold lineWritten inRange
  constructor
  · rintro ⟨⟨q, x⟩, hc, rfl⟩
    obtain ⟨hq, hx⟩ := mem_cellsOf.mp hc
    have := (List.getElem?_eq_some_iff.mp hx).1
    dsimp only
    omega
  · rintro ⟨h0, h1, h2⟩
    have hi : max a (64 * n) - a < b.length := by omega
    exact ⟨(max a (64 * n), b[max a (64 * n) - a]), mem_cellsOf.mpr ⟨by omega, List.getElem?_eq_getElem hi⟩, by dsimp only; omega⟩

theorem byte_memWrite (s : State) (q : Nat) :
    (s.memWrite a b).mem.byte q = if a ≤ q then (b[q - a]?).getD (s.mem.byte q) else s.mem.byte q :=
  Memory.byte_write s.mem a q b

theorem byte_memWrite_stored (s : State) {q : Nat} {x : BitVec 8} (h : lastStore (cellsOf [(a, b)]) q = some x) :
    (s.memWrite a b).mem.byte q = x := by
  obtain ⟨hq, hx⟩ := mem_cellsOf.mp (mem_of_lastStore h)
  rw [byte_memWrite, if_pos hq, hx]
  rfl

theorem byte_memWrite_other (s : State) {q : Nat} (h : lastStore (cellsOf [(a, b)]) q = none) :
    (s.memWrite a b).mem.byte q = s.mem.byte q := by
  rw [byte_memWrite]
  split
  case isTrue hq =>
    cases hx : b[q - a]? with
    | none => rfl
    | some x => exact absurd (mem_cellsOf.mpr ⟨hq, hx⟩) (mem_of_lastStore_none h x)
  case isFalse => rfl

/-- A unit's write at the memory side. -/
theorem sideWrite_stored {s : State} (h : s.mem.Sound) (c : CoreId) : StoredAtSide c [(a, b)] s (s.sideWrite c.vat a b) := by
  obtain ⟨frame, -, ecc, kept, others⟩ := invalRange_back h c.vat a b.length
  obtain ⟨held, rest, backed, bytes⟩ := invalRange_wroteBack s c.vat a b.length
  unfold State.sideWrite
  generalize s.invalRange c.vat a b.length = u at *
  have hl : (u.memWrite a b).mem.l2 = u.mem.l2 := memWrite_l2 ..
  refine ⟨?_, fun e h => ecc e (mem_ecc_memWrite.mp h).1, fun e h hw => mem_ecc_memWrite.mpr ⟨kept e h ?_, fun h1 => ?_⟩,
    fun v n => ⟨fun hw => ?_, fun hw => ?_⟩, fun q x => byte_memWrite_stored u, fun q hq => ?_⟩
  · rw [memWrite_mem, frame]
  · exact fun hr => hw (lineWritten_iff.mpr hr)
  · rw [lineWritten_iff, inRange] at hw
    omega
  · obtain ⟨rfl, hn⟩ := hw
    rw [hl, held n (lineWritten_iff.mp hn), Option.bind_fun_none]
  · rw [hl]
    by_cases hv : v = c.vat
    · subst hv
      exact rest n (fun h => hw ⟨rfl, lineWritten_iff.mpr h⟩)
    · exact others v n hv
  · rw [byte_memWrite_other u hq]
    refine ⟨fun l hw hx hd => ?_, fun hclean => ?_⟩
    · rw [backed q (lineWritten_iff.mp hw), backed_dirty hx hd]
    · by_cases hr : inRange a b.length (q / 64)
      · rw [backed q hr, backed_clean (fun x hx => hclean x (lineWritten_iff.mpr hr) hx)]
      · exact bytes q hr

theorem nothing_stored (c : CoreId) (s : State) : StoredAtSide c [] s s := by
  have none_written : ∀ n, ¬ lineWritten [] n := fun n h => by
    obtain ⟨x, hx, -⟩ := h
    exact List.not_mem_nil hx
  exact ⟨rfl, fun _ he => he, fun _ he _ => he, fun v n => ⟨fun h => absurd h.2 (none_written n), fun _ => rfl⟩,
    fun _ _ h => absurd h (by simp [lastStore, cellsOf]),
    fun q _ => ⟨fun _ h => absurd h (none_written _), fun _ => rfl⟩⟩

end

end Sys2Proof.Machine

/-! ### Unit commands (R48, R49, R105, R203) -/

namespace Sys2Proof.Machine

open Sys2Proof

/-! #### Lookup -/

theorem nextUnit_eq {s : State} {u : UnitCmd} {unit : BitVec 4} {inst op : Nat} (h : NextCmd s unit.toNat inst op u) :
    s.nextUnit unit inst = some u := by
  obtain ⟨-, ⟨hu, hi, -⟩, before, after, hs, hb, ha⟩ := h
  obtain rfl : u.unit = unit := BitVec.eq_of_toNat_eq hu
  subst hi
  have mine : s.units.filter (fun x => x.unit = u.unit && x.inst = u.inst) =
      before.filter (fun x => x.unit = u.unit && x.inst = u.inst) ++
        u :: after.filter (fun x => x.unit = u.unit && x.inst = u.inst) := by
    rw [hs, List.filter_append, List.filter_cons_of_pos (by simp)]
  have early : ∀ x ∈ before.filter (fun x => x.unit = u.unit && x.inst = u.inst), x.cls ≠ 0 ∧ u.cls = 0 := fun x hx => by
    obtain ⟨hx, hp⟩ := List.mem_filter.mp hx
    simp only [Bool.and_eq_true, decide_eq_true_eq] at hp
    exact hb x hx hp.1 hp.2
  unfold State.nextUnit
  dsimp only
  rw [mine]
  by_cases hc : u.cls = 0
  · rw [List.find?_append, List.find?_eq_none.mpr (fun x hx => by simpa using (early x hx).1)]
    simp [hc]
  · have first : before.filter (fun x => x.unit = u.unit && x.inst = u.inst) = [] :=
      List.eq_nil_iff_forall_not_mem.mpr (fun x hx => hc (early x hx).2)
    have none_a : (u :: after.filter (fun x => x.unit = u.unit && x.inst = u.inst)).find? (fun x => x.cls = 0) = none := by
      refine List.find?_eq_none.mpr (List.forall_mem_cons.mpr ⟨by simpa using hc, fun x hx => ?_⟩)
      obtain ⟨hx, hp⟩ := List.mem_filter.mp hx
      simp only [Bool.and_eq_true, decide_eq_true_eq] at hp
      simpa using ha hc x hx hp.1 hp.2
    rw [first, List.nil_append, none_a]
    rfl

/-- A command that its core waits for. -/
theorem unitOwned_of_awaits {s : State} {u : UnitCmd} (h : Awaits s u) : s.unitOwned u = true := by
  have run := h.run
  unfold State.unitOwned
  dsimp only
  cases hu : u.item with
  | none =>
    rw [hu] at run
    exact run
  | some key =>
    rw [hu] at run
    obtain ⟨held, it, hit, hatt⟩ := run
    simp [held, hit, hatt]

/-- Where no line is lost, a plan is carried out as it is. -/
theorem settle_eq {s : State} (h : NoErrors s) (p : UnitPlan) (v : BitVec 6) : p.settle s v = p := by
  obtain ⟨hecc, hpoison, hdown⟩ := h
  have lost : ∀ n, s.lineLost v n = false := fun n => by
    unfold State.lineLost
    cases hx : l2Find s.mem.l2 v n with
    | some x => exact l2Find_sound hpoison hx
    | none => simp [Memory.lineBad, Memory.portDown, hdown, hecc n]
  unfold UnitPlan.settle State.unitPoisoned
  simp [lost]

/-! #### The end of a command -/

section
variable {s t : State} {u : UnitCmd}

/-- The same command waits in a state with the same cores and items. -/
theorem Awaits.congr (h : Awaits s u) (hc : t.cores = s.cores) (hb : t.hb = s.hb) : Awaits t u := by
  have core : t.core u.core = s.core u.core := by unfold State.core; rw [hc]
  have item : ∀ key, t.item? key = s.item? key := fun key => by unfold State.item?; rw [hb]
  obtain ⟨h1, h2, h3⟩ := h
  refine ⟨by rwa [core], by rwa [core], ?_⟩
  cases hu : u.item with
  | none =>
    rw [hu] at h3
    rwa [core]
  | some key =>
    rw [hu] at h3
    obtain ⟨held, it, hit, hatt⟩ := h3
    exact ⟨by rwa [core], it, (item key).trans hit, hatt⟩

/-- A unit command's report. -/
theorem unitEnd_eq (h : Awaits s u) (st : BitVec 16) : s.unitEnd u st =
    ({ s with units := s.units.erase u } : State).setCore u.core ((s.core u.core).setT u.ticket (.complete st)) := by
  have left : Awaits ({ s with units := s.units.erase u } : State) u := h.congr rfl rfl
  have ticket : ({ s with units := s.units.erase u } : State).completeTicket u.core u.ticket st =
      ({ s with units := s.units.erase u } : State).setCore u.core ((s.core u.core).setT u.ticket (.complete st)) := if_pos h.ticket
  have idle : ((({ s with units := s.units.erase u } : State).setCore u.core
      ((s.core u.core).setT u.ticket (.complete st))).core u.core).finishing = none := by
    rw [core_setCore, if_pos rfl]
    exact h.finishing
  unfold State.unitEnd State.reportTicket
  dsimp only
  rw [unitOwned_of_awaits left, if_pos rfl, ticket, idle]

/-- What the unit has done to memory alone is the whole of it beside the report. -/
theorem unitEnd_ran (ha : Awaits s u) (ht : MemOnly s t) {side : Bool} {ws : List (Nat × Bytes)} (st : BitVec 16)
    (hm : ∀ r : State, r.mem = t.mem → r.free = s.free + 1 → if side then StoredAtSide u.core ws s r else StoredInVat u.core ws s r) :
    UnitRan side s (t.drawn.unitEnd u st) u st ws (fun _ => 0) := by
  obtain ⟨m, rfl⟩ : ∃ m, t = { s with mem := m } := ⟨_, ht⟩
  have waits : Awaits (({ s with mem := m } : State).drawn) u := ha.congr rfl rfl
  rw [unitEnd_eq waits]
  refine ⟨⟨rfl, (core_setCore ..).trans (if_pos rfl), fun d hd => (core_setCore ..).trans (if_neg hd)⟩,
    hm _ rfl rfl, fun k => rfl, rfl⟩

end

theorem StoredAtSide.of_mem {c : CoreId} {ws : List (Nat × Bytes)} {s t r : State} (h : StoredAtSide c ws s t) (hr : r.mem = t.mem) :
    StoredAtSide c ws s r := by
  unfold StoredAtSide at *
  rwa [hr]

theorem sideWrite_memOnly (s : State) (v : BitVec 6) (a : Nat) (b : Bytes) : MemOnly s (s.sideWrite v a b) :=
  (invalRange_memOnly s v a b.length).trans (memWrite_memOnly ..)

theorem sideStore_memOnly (s : State) (v : BitVec 6) (ws : List (Nat × Bytes)) : MemOnly s (s.sideStore v ws) := by
  unfold State.sideStore
  exact foldl_memOnly (fun s (w : Nat × Bytes) => s.sideWrite v w.1 w.2) (fun s w => sideWrite_memOnly s v w.1 w.2) ws s

/-- The next command of a unit at the memory side is carried out as planned. -/
theorem runUnit_runs {s : State} {u : UnitCmd} {unit : BitVec 4} {inst op : Nat} {plan : State → UnitCmd → UnitPlan} {p : UnitPlan}
    {i : Instr} (hi : exec i s = runUnit unit inst op true plan s) (ha : Awaits s u) (he : NoErrors s)
    (hn : NextCmd s unit.toNat inst op u) (hk : u.known = true) (hp : plan s u = p) (hst : p.status ≠ poisonStatus)
    (hw : StoredAtSide u.core p.writes s (s.sideStore u.core.vat p.writes)) :
    Runs true i s u p.status p.writes (fun _ => 0) := by
  have held : s.unitHeld unit = false := by
    have runs := hn.runs
    unfold State.unitHeld
    by_cases hb : s.rst.boot = .recovery
    · simpa [hb, ← BitVec.toNat_inj, and_assoc] using runs hb
    · simp [hb]
  have run : runUnit unit inst op true plan s = .next ((s.sideStore u.core.vat p.writes).drawn.unitEnd u p.status) := by
    unfold runUnit runUnitTally serveNext
    rw [nextUnit_eq hn]
    dsimp only
    have hop : u.field 0 1 = op := hn.here.2.2
    rw [held, hk, hop, hp, settle_eq he, if_neg (by decide), if_neg (by decide), if_neg (fun h => h rfl)]
    unfold State.notePoison
    rw [if_neg hst]
    rfl
  exact ⟨_, hi.trans run, unitEnd_ran ha (sideStore_memOnly ..) _ (fun r hr _ => hw.of_mem hr)⟩

end Sys2Proof.Machine

/-! ### O20: the exact-sum merge unit (R81 to R84, Tables 3.3 to 3.5) -/

namespace Sys2Proof.Machine

open Sys2Proof

/-! #### Fields of a command block -/

theorem getElem?_putAt {b x : Bytes} {off : Nat} (h : off + x.length ≤ b.length) (i : Nat) :
    (putAt b off x)[i]? = if off ≤ i ∧ i < off + x.length then x[i - off]? else b[i]? := by
  have ht : (b.take off).length = off := by rw [List.length_take]; omega
  unfold putAt
  rcases Nat.lt_or_ge i off with h1 | h1
  · rw [if_neg (by omega), List.append_assoc, List.getElem?_append_left (by omega), List.getElem?_take_of_lt h1]
  · rcases Nat.lt_or_ge i (off + x.length) with h2 | h2
    · rw [if_pos ⟨h1, h2⟩, List.append_assoc, List.getElem?_append_right (by omega), ht, List.getElem?_append_left (by omega)]
    · rw [if_neg (by omega), List.getElem?_append_right (by rw [List.length_append]; omega), List.length_append, ht, List.getElem?_drop]
      congr 1
      omega

theorem putAt_length {b x : Bytes} {off : Nat} (h : off + x.length ≤ b.length) : (putAt b off x).length = b.length := by
  simp only [putAt, List.length_append, List.length_take, List.length_drop]
  omega

theorem fieldAt_putAt {b x : Bytes} {off : Nat} (h : off + x.length ≤ b.length) : fieldAt (putAt b off x) off x.length = leVal x := by
  unfold fieldAt
  congr 1
  refine List.ext_getElem? (fun i => ?_)
  rw [List.getElem?_take, List.getElem?_drop, getElem?_putAt h]
  by_cases hi : i < x.length
  · rw [if_pos hi, if_pos (by omega), Nat.add_sub_cancel_left]
  · rw [if_neg hi, List.getElem?_eq_none (by omega)]

/-- Bytes that hold a list of (offset, size, value) fields. -/
def putFields (b : Bytes) (fs : List (Nat × Nat × Nat)) : Bytes := fs.foldl (fun b f => putAt b f.1 (leBytes f.2.1 f.2.2)) b

theorem record_eq (len : Nat) (fs : List (Nat × Nat × Nat)) : record len fs = putFields (zeros len) fs := rfl

section
variable {fs : List (Nat × Nat × Nat)} {b : Bytes} (h : ∀ f ∈ fs, f.1 + f.2.1 ≤ b.length)
include h

theorem putFields_length : (putFields b fs).length = b.length := by
  induction fs generalizing b with
  | nil => rfl
  | cons f fs ih =>
    obtain ⟨hlen, hfs⟩ := List.forall_mem_cons.mp h
    have hx : f.1 + (leBytes f.2.1 f.2.2).length ≤ b.length := by rwa [leBytes_length]
    exact (ih (by rwa [putAt_length hx])).trans (putAt_length hx)

/-- A byte that no field holds is as it was. -/
theorem putFields_apart {i : Nat} (ha : ∀ f ∈ fs, i < f.1 ∨ f.1 + f.2.1 ≤ i) : (putFields b fs)[i]? = b[i]? := by
  induction fs generalizing b with
  | nil => rfl
  | cons f fs ih =>
    obtain ⟨hlen, hfs⟩ := List.forall_mem_cons.mp h
    obtain ⟨hf, hap⟩ := List.forall_mem_cons.mp ha
    have hx : f.1 + (leBytes f.2.1 f.2.2).length ≤ b.length := by rwa [leBytes_length]
    refine (ih (by rwa [putAt_length hx]) hap).trans ?_
    rw [getElem?_putAt hx, leBytes_length, if_neg (by omega)]

theorem fieldAt_putFields_apart {o k : Nat} (ha : ∀ f ∈ fs, o + k ≤ f.1 ∨ f.1 + f.2.1 ≤ o) :
    fieldAt (putFields b fs) o k = fieldAt b o k := by
  unfold fieldAt
  congr 1
  refine List.ext_getElem? (fun i => ?_)
  rw [List.getElem?_take, List.getElem?_take, List.getElem?_drop, List.getElem?_drop]
  split
  · exact putFields_apart h (fun f hf => by have := ha f hf; omega)
  · rfl

end

theorem zeros_length (n : Nat) : (zeros n).length = n := List.length_replicate

/-- A record holds the value of a field that no later one touches. -/
theorem fieldAt_record {len o k v : Nat} (before after : List (Nat × Nat × Nat))
    (hlen : ∀ f ∈ before ++ (o, k, v) :: after, f.1 + f.2.1 ≤ len) (ha : ∀ f ∈ after, o + k ≤ f.1 ∨ f.1 + f.2.1 ≤ o)
    (hv : v < 256 ^ k) : fieldAt (record len (before ++ (o, k, v) :: after)) o k = v := by
  obtain ⟨hb, hf⟩ := List.forall_mem_append.mp hlen
  obtain ⟨ho, haf⟩ := List.forall_mem_cons.mp hf
  have hl : (putFields (zeros len) before).length = len :=
    (putFields_length (by rwa [zeros_length])).trans (zeros_length len)
  have hx : o + (leBytes k v).length ≤ (putFields (zeros len) before).length := by rwa [leBytes_length, hl]
  have split : record len (before ++ (o, k, v) :: after) =
      putFields (putAt (putFields (zeros len) before) o (leBytes k v)) after := List.foldl_append ..
  have same := fieldAt_putAt hx
  rw [leBytes_length] at same
  rw [split, fieldAt_putFields_apart (by rwa [putAt_length hx, hl]) ha, same, leVal_leBytes_of_lt hv]

/-- The bytes of a record from the end of its last field on are zero. -/
theorem allZero_drop_record {len o : Nat} {fs : List (Nat × Nat × Nat)} (h : ∀ f ∈ fs, f.1 + f.2.1 ≤ o) (ho : o ≤ len) :
    allZero ((record len fs).drop o) = true := by
  have rest : (record len fs).drop o = (zeros len).drop o := by
    refine List.ext_getElem? (fun i => ?_)
    rw [List.getElem?_drop, List.getElem?_drop, record_eq]
    exact putFields_apart (fun f hf => by rw [zeros_length]; exact (h f hf).trans ho) (fun f hf => by have := h f hf; omega)
  rw [rest, zeros, List.drop_replicate]
  simp [allZero]

theorem leVal_zeros (n : Nat) : leVal (zeros n) = 0 := by
  induction n with
  | zero => rfl
  | succ n ih => rw [zeros, List.replicate_succ, leVal, show List.replicate n _ = zeros n from rfl, ih]; rfl

/-- Bytes of a record that no field holds are zero. -/
theorem fieldAt_record_apart {len o k : Nat} {fs : List (Nat × Nat × Nat)} (h : ∀ f ∈ fs, f.1 + f.2.1 ≤ len)
    (ha : ∀ f ∈ fs, o + k ≤ f.1 ∨ f.1 + f.2.1 ≤ o) : fieldAt (record len fs) o k = 0 := by
  rw [record_eq, fieldAt_putFields_apart (by rwa [zeros_length]) ha]
  unfold fieldAt
  rw [zeros, List.drop_replicate, List.take_replicate]
  exact leVal_zeros _

/-! #### What the unit reads -/

theorem sideBytes_take (s : State) (v : BitVec 6) {m n : Nat} (h : n ≤ m) (a : Nat) : (s.sideBytes v a m).take n = s.sideBytes v a n := by
  induction n generalizing a m with
  | zero => rfl
  | succ n ih =>
    obtain ⟨k, rfl⟩ : ∃ k, m = k + 1 := ⟨m - 1, by omega⟩
    rw [State.sideBytes, List.take_succ_cons, ih (by omega), State.sideBytes]

theorem sideBytes_drop (s : State) (v : BitVec 6) (a off m : Nat) : (s.sideBytes v a (off + m)).drop off = s.sideBytes v (a + off) m := by
  induction off generalizing a with
  | zero => rw [Nat.zero_add]; rfl
  | succ off ih => rw [Nat.succ_add, State.sideBytes, List.drop_succ_cons, ih, Nat.add_assoc, Nat.add_comm 1]

theorem fieldAt_sideBytes (s : State) (v : BitVec 6) (a : Nat) {m off n : Nat} (h : off + n ≤ m) :
    fieldAt (s.sideBytes v a m) off n = leVal (s.sideBytes v (a + off) n) := by
  obtain ⟨k, rfl⟩ := Nat.exists_eq_add_of_le h
  unfold fieldAt
  rw [Nat.add_assoc, sideBytes_drop, sideBytes_take s v (Nat.le_add_right ..)]

/-- Lane j of the image at an address. -/
def State.imageLane (s : State) (v : BitVec 6) (a j : Nat) : Int := (BitVec.ofNat 576 (leVal (s.sideBytes v (a + 72 * j) 72))).toInt

theorem image_eq (s : State) (v : BitVec 6) (a : Nat) : s.image v a = (List.range 16).map (s.imageLane v a) := by
  unfold State.image lanesOfBytes
  rw [Vector.toList_ofFn, List.map_ofFn]
  refine List.ext_getElem (by simp) (fun j h1 h2 => ?_)
  have hj : j < 16 := by simpa using h2
  simp only [List.getElem_ofFn, List.getElem_map, List.getElem_range, Function.comp_apply]
  rw [fieldAt_sideBytes s v a (by omega)]
  rfl

/-! #### Sums of images -/

theorem sumLanes_map {α : Type} (l : List α) (f g : α → Int) : sumLanes (l.map f) (l.map g) = l.map (fun j => f j + g j) := by
  induction l with
  | nil => rfl
  | cons x l ih => rw [List.map_cons, List.map_cons, sumLanes, ih, List.map_cons]

/-- R81: the lane-by-lane sum of images. -/
theorem foldl_images (s : State) (v : BitVec 6) (as : List Nat) (g : Nat → Int) :
    as.foldl (fun acc a => sumLanes acc (s.image v a)) ((List.range 16).map g) =
      (List.range 16).map (fun j => g j + (as.map (fun a => s.imageLane v a j)).sum) := by
  induction as generalizing g with
  | nil => simp
  | cons a as ih =>
    rw [List.foldl_cons, image_eq, sumLanes_map, ih]
    simp only [List.map_cons, List.sum_cons, add_assoc]

theorem sum_images (s : State) (v : BitVec 6) (as : List Nat) :
    as.foldl (fun acc a => sumLanes acc (s.image v a)) (List.replicate 16 0) =
      (List.range 16).map (fun j => (as.map (fun a => s.imageLane v a j)).sum) := by
  have zero : List.replicate 16 (0 : Int) = (List.range 16).map (fun _ => 0) := rfl
  rw [zero, foldl_images]
  simp only [zero_add]

/-- FOLD leaves the sum of all lanes in lane 0. -/
theorem foldLanes_map (g : Nat → Int) : foldLanes ((List.range 16).map g) =
    (List.range 16).map (fun j => if j = 0 then ((List.range 16).map g).sum else 0) := by
  unfold foldLanes
  rw [← List.sum_eq_foldl]
  rfl

theorem imageBytes_map (g : Nat → Int) : imageBytes ((List.range 16).map g) =
    (List.range 16).flatMap (fun j => leBytes 72 (BitVec.ofInt 576 (g j)).toNat) := by
  unfold imageBytes
  rw [List.flatMap_map]
  rfl

/-! #### MERGE -/

section
variable {s : State} {u : UnitCmd} {flags n list dst : Nat}

theorem plainRange_lt {a k : Nat} (h : s.plainRange a k = true) (hk : k ≠ 0) : a < 256 ^ 8 := by
  have hp : s.plain a = true := by
    unfold State.plainRange at h
    simp [hk] at h
    exact h.1.1
  exact (plain_lt hp).trans (by decide)

/-- The fields of a MERGE command. -/
structure MergeFields (u : UnitCmd) (flags n list dst : Nat) : Prop where
  op       : u.field 0 1 = 1
  flags    : u.field 1 1 = flags
  count    : u.field 2 2 = n
  src      : u.field 8 8 = list
  dst      : u.field 0x20 8 = dst
  reserved : u.field 4 4 = 0 ∧ u.field 0x10 8 = 0 ∧ u.field 0x18 8 = 0 ∧ allZero (u.block.drop 0x28) = true

theorem mergeFields_of_block (h : u.block = record 64 [(0, 1, 1), (1, 1, flags), (2, 2, n), (8, 8, list), (0x20, 8, dst)])
    (hf : flags < 256 ^ 1) (hn : n < 256 ^ 2) (hl : list < 256 ^ 8) (hd : dst < 256 ^ 8) : MergeFields u flags n list dst := by
  have field : ∀ off k, u.field off k = fieldAt _ off k := fun off k => congrArg (fieldAt · off k) h
  refine ⟨(field 0 1).trans ?_, (field 1 1).trans ?_, (field 2 2).trans ?_, (field 8 8).trans ?_, (field 0x20 8).trans ?_,
    (field 4 4).trans ?_, (field 0x10 8).trans ?_, (field 0x18 8).trans ?_, ?_⟩
  · exact fieldAt_record [] _ (by simp) (by simp) (by decide)
  · exact fieldAt_record [_] _ (by simp) (by simp) hf
  · exact fieldAt_record [_, _] _ (by simp) (by simp) hn
  · exact fieldAt_record [_, _, _] _ (by simp) (by simp) hl
  · exact fieldAt_record [_, _, _, _] _ (by simp) (by simp) hd
  · exact fieldAt_record_apart (by simp) (by simp)
  · exact fieldAt_record_apart (by simp) (by simp)
  · exact fieldAt_record_apart (by simp) (by simp)
  · rw [h]
    exact allZero_drop_record (by simp) (by decide)

/-- The images a MERGE sums: those its list names, and DST under ACCUMULATE. -/
def State.mergeImages (s : State) (v : BitVec 6) (flags n list dst : Nat) : List Nat :=
  (List.range n).map (fun i => leVal (s.sideBytes v (list + 8 * i) 8)) ++ if flags % 2 = 1 then [dst] else []

/-- The sum of the images in each lane. -/
def State.mergeSum (s : State) (v : BitVec 6) (flags n list dst j : Nat) : Int :=
  ((s.mergeImages v flags n list dst).map (fun a => s.imageLane v a j)).sum

/-- The lanes as MERGE writes them: FOLD leaves their sum in lane 0 (R81). -/
def State.mergeOut (s : State) (v : BitVec 6) (flags n list dst j : Nat) : Int :=
  if flags / 4 = 1 then (if j = 0 then ((List.range 16).map (s.mergeSum v flags n list dst)).sum else 0)
  else s.mergeSum v flags n list dst j

theorem mergeField_false (h : MergeFields u flags n list dst) (hf : flags ∈ [0, 1, 4, 5]) (h1 : 1 ≤ n) (h2 : n ≤ 4096) :
    mergeField u = false := by
  obtain ⟨op, hflags, count, -, -, r1, r2, r3, r4⟩ := h
  unfold mergeField
  dsimp only
  rw [op, hflags, count, r1, r2, r3, r4]
  simp only [List.mem_cons, List.not_mem_nil, or_false] at hf
  have : ¬ 8 ≤ flags ∧ ¬ n = 0 ∧ ¬ 4096 < n ∧ ¬ flags / 2 % 2 = 1 := by omega
  simp [this]

/-- A well-formed MERGE writes its sums, or is rejected when a lane leaves its range. -/
theorem mergePlan_eq (h : MergeFields u flags n list dst) (hf : flags ∈ [0, 1, 4, 5]) (h1 : 1 ≤ n) (h2 : n ≤ 4096)
    (hd : dst % 64 = 0) (hpl : s.plainRange list (8 * n) = true) (hpd : s.plainRange dst 1152 = true)
    (himg : ∀ i, i < n → leVal (s.sideBytes u.core.vat (list + 8 * i) 8) % 64 = 0 ∧
      s.plainRange (leVal (s.sideBytes u.core.vat (list + 8 * i) 8)) 1152 = true) :
    let sum := (List.range 16).map (s.mergeSum u.core.vat flags n list dst)
    let out := (List.range 16).map (s.mergeOut u.core.vat flags n list dst)
    ∃ reads spoils, mergePlan s u = if sum.all laneFits && out.all laneFits
      then { status := 0, reads := reads, writes := [(dst, imageBytes out)] }
      else .rejectRead 0x0183 reads spoils := by
  intro sum out
  have field := mergeField_false h hf h1 h2
  obtain ⟨-, hflags, count, src, hdst, -⟩ := h
  have imgs : (List.range n).map (fun i => fieldAt (s.sideBytes u.core.vat list (8 * n)) (8 * i) 8) =
      (List.range n).map (fun i => leVal (s.sideBytes u.core.vat (list + 8 * i) 8)) :=
    List.map_congr_left (fun i hi => fieldAt_sideBytes s _ _ (by have := List.mem_range.mp hi; omega))
  have aligned : ((List.range n).map (fun i => leVal (s.sideBytes u.core.vat (list + 8 * i) 8))).any (· % 64 ≠ 0) = false := by
    simpa using fun i hi => (himg i hi).1
  have usable : s.plainAll ((dst, 1152) :: ((List.range n).map (fun i => leVal (s.sideBytes u.core.vat (list + 8 * i) 8))).map
      (·, 1152)) = true := by
    simpa [State.plainAll, hpd] using fun i hi => (himg i hi).2
  refine ⟨(list, 8 * n) :: (s.mergeImages u.core.vat flags n list dst).map (·, 1152), [(dst, 1152)], ?_⟩
  unfold mergePlan
  dsimp only
  have all : (if flags % 2 = 1 then (List.range n).map (fun i => leVal (s.sideBytes u.core.vat (list + 8 * i) 8)) ++ [dst]
      else (List.range n).map (fun i => leVal (s.sideBytes u.core.vat (list + 8 * i) 8))) =
      s.mergeImages u.core.vat flags n list dst := by
    unfold State.mergeImages
    split
    · rfl
    · rw [List.append_nil]
  have fold : (if flags / 4 % 2 = 1 then foldLanes sum else sum) = out := by
    have bit : flags / 4 % 2 = 1 ↔ flags / 4 = 1 := by
      simp only [List.mem_cons, List.not_mem_nil, or_false] at hf
      omega
    rw [if_congr bit (foldLanes_map _) rfl]
    unfold out State.mergeOut
    split <;> rfl
  have summed : (s.mergeImages u.core.vat flags n list dst).foldl (fun acc a => sumLanes acc (s.image u.core.vat a))
      (List.replicate 16 0) = sum := sum_images s _ _
  rw [field, hflags, count, src, hdst, imgs, aligned, usable, hpl, all, summed, fold, if_neg Bool.false_ne_true, if_neg (not_not.mpr hd),
    if_neg (by decide), if_neg Bool.false_ne_true, if_neg (by decide)]

end

/-! #### STATS -/

section
variable {s : State} {u : UnitCmd} {flags sums squares counts dst : Nat}

/-- The fields of a STATS command. -/
structure StatsFields (u : UnitCmd) (flags sums squares counts dst : Nat) : Prop where
  op       : u.field 0 1 = 2
  flags    : u.field 1 1 = flags
  sums     : u.field 8 8 = sums
  squares  : u.field 0x10 8 = squares
  counts   : u.field 0x18 8 = counts
  dst      : u.field 0x20 8 = dst
  reserved : u.field 2 2 = 0 ∧ u.field 4 4 = 0 ∧ allZero (u.block.drop 0x28) = true

theorem statsFields_of_block (h : u.block = record 64 [(0, 1, 2), (1, 1, flags), (8, 8, sums), (0x10, 8, squares),
    (0x18, 8, counts), (0x20, 8, dst)]) (hf : flags < 256 ^ 1) (h1 : sums < 256 ^ 8) (h2 : squares < 256 ^ 8)
    (h3 : counts < 256 ^ 8) (h4 : dst < 256 ^ 8) : StatsFields u flags sums squares counts dst := by
  have field : ∀ off k, u.field off k = fieldAt _ off k := fun off k => congrArg (fieldAt · off k) h
  refine ⟨(field 0 1).trans ?_, (field 1 1).trans ?_, (field 8 8).trans ?_, (field 0x10 8).trans ?_, (field 0x18 8).trans ?_,
    (field 0x20 8).trans ?_, (field 2 2).trans ?_, (field 4 4).trans ?_, ?_⟩
  · exact fieldAt_record [] _ (by simp) (by simp) (by decide)
  · exact fieldAt_record [_] _ (by simp) (by simp) hf
  · exact fieldAt_record [_, _] _ (by simp) (by simp) h1
  · exact fieldAt_record [_, _, _] _ (by simp) (by simp) h2
  · exact fieldAt_record [_, _, _, _] _ (by simp) (by simp) h3
  · exact fieldAt_record [_, _, _, _, _] _ (by simp) (by simp) h4
  · exact fieldAt_record_apart (by simp) (by simp)
  · exact fieldAt_record_apart (by simp) (by simp)
  · rw [h]
    exact allZero_drop_record (by simp) (by decide)

theorem statsField_false (h : StatsFields u flags sums squares counts dst) (hf : flags ∈ [0, 2]) : mergeField u = false := by
  obtain ⟨op, hflags, -, -, -, -, r1, r2, r3⟩ := h
  unfold mergeField
  dsimp only
  rw [op, hflags, r1, r2, r3]
  simp only [List.mem_cons, List.not_mem_nil, or_false] at hf
  have : ¬ 8 ≤ flags ∧ ¬ flags / 4 % 2 = 1 ∧ ¬ flags % 2 = 1 := by omega
  simp [this]

/-- The number of values in lane j. -/
def State.laneCount (s : State) (v : BitVec 6) (counts j : Nat) : Nat := leVal (s.sideBytes v (counts + 8 * j) 8)

/-- Each lane's sum, sum of squares and count. -/
def State.statsLanes (s : State) (v : BitVec 6) (sums squares counts : Nat) : List ((Int × Int) × Nat) :=
  (List.range 16).map (fun j => ((s.imageLane v sums j, s.imageLane v squares j), s.laneCount v counts j))

/-- A well-formed STATS writes its lanes, or is rejected for a lane that cannot come from values and their squares. -/
theorem statsPlan_eq (h : StatsFields u flags sums squares counts dst) (hf : flags ∈ [0, 2]) (a1 : sums % 64 = 0)
    (a2 : squares % 64 = 0) (a3 : counts % 8 = 0) (a4 : dst % 64 = 0) (p1 : s.plainRange sums 1152 = true)
    (p2 : s.plainRange squares 1152 = true) (p3 : s.plainRange counts 128 = true) (p4 : s.plainRange dst 512 = true) :
    let lanes := s.statsLanes u.core.vat sums squares counts
    let reads := [(sums, 1152), (squares, 1152), (counts, 128)]
    statsPlan s u = if lanes.any (fun l => statsNegative l.1.1 l.1.2 l.2) then .rejectRead 0x0185 reads [(dst, 512)]
      else { status := if lanes.any (fun l => l.2 = 0 || l.2 - flags / 2 = 0) then 0x0184 else 0, reads := reads,
             writes := [(dst, lanes.flatMap (fun l => statsLane l.1.1 l.1.2 l.2 (l.2 - flags / 2)))] } := by
  intro lanes reads
  have field := statsField_false h hf
  obtain ⟨-, hflags, src, src2, cnt, hdst, -⟩ := h
  have ns : (List.range 16).map (fun i => fieldAt (s.sideBytes u.core.vat counts 128) (8 * i) 8) =
      (List.range 16).map (s.laneCount u.core.vat counts) :=
    List.map_congr_left (fun i hi => fieldAt_sideBytes s _ _ (by have := List.mem_range.mp hi; omega))
  have zipped : ((s.image u.core.vat sums).zip (s.image u.core.vat squares)).zip
      ((List.range 16).map (s.laneCount u.core.vat counts)) = lanes := by
    rw [image_eq, image_eq, List.zip_map', List.zip_map']
    rfl
  have usable : s.plainAll [(sums, 1152), (squares, 1152), (counts, 128), (dst, 512)] = true := by
    simp [State.plainAll, p1, p2, p3, p4]
  have div : (fun n => if flags / 2 % 2 = 1 then n - 1 else n) = fun n => n - flags / 2 := by
    funext n
    simp only [List.mem_cons, List.not_mem_nil, or_false] at hf
    rcases hf with rfl | rfl <;> rfl
  unfold statsPlan
  dsimp only
  rw [field, hflags, src, src2, cnt, hdst, ns, zipped, usable, if_neg Bool.false_ne_true, if_neg (by simp [a1, a2, a3, a4]),
    if_neg (by decide)]
  simp only [congrFun div]
  rfl

/-- The numerator of a lane's variance, in the units of R83. -/
def varianceNum (x y : Int) (n : Nat) : Int := (n : Int) * y * 2 ^ 298 - x * x

theorem varianceNum_cast (x y : Int) (n : Nat) : (n : Int) * y * (2 ^ 298 : Nat) - x * x = varianceNum x y n := by
  rw [varianceNum, Nat.cast_pow, Nat.cast_ofNat]

theorem statsNegative_iff {x y : Int} {n : Nat} : statsNegative x y n = true ↔ 1 ≤ n ∧ (y < 0 ∨ varianceNum x y n < 0) := by
  unfold statsNegative
  rw [varianceNum_cast]
  simp only [Bool.and_eq_true, Bool.or_eq_true, decide_eq_true_eq]

/-- R83: what STATS writes for a lane of values. -/
def statsBytes (x y : Int) (n d : Nat) : Bytes :=
  leBytes 8 ((fmtOf 0xD).round 0 (decide (x < 0)) x.natAbs (n * 2 ^ 298)).bits ++
    leBytes 8 ((fmtOf 0xD).round 0 false (varianceNum x y n).natAbs (n * d * 2 ^ 596)).bits ++
    leBytes 4 ((fmtOf 0xC).round 0 (decide (x < 0)) x.natAbs (n * 2 ^ 298)).bits ++
    leBytes 4 ((fmtOf 0xC).roundSqrt (varianceNum x y n).natAbs (n * d * 2 ^ 596)).bits ++ leBytes 8 n

theorem statsLane_eq {x y : Int} {n d : Nat} (hn : 1 ≤ n) (hd : 1 ≤ d) : statsLane x y n d = statsBytes x y n d := by
  unfold statsLane
  dsimp only
  rw [if_neg (by simp only [Bool.or_eq_true, decide_eq_true_eq]; omega), varianceNum_cast]
  rfl

/-- The bytes that STATS writes when each lane holds values. -/
theorem statsLanes_bytes {v : BitVec 6} {e : Nat} (h : ∀ j, j < 16 → 1 ≤ s.laneCount v counts j - e) :
    (s.statsLanes v sums squares counts).flatMap (fun l => statsLane l.1.1 l.1.2 l.2 (l.2 - e)) =
      (List.range 16).flatMap (fun j => statsBytes (s.imageLane v sums j) (s.imageLane v squares j) (s.laneCount v counts j)
        (s.laneCount v counts j - e)) := by
  rw [State.statsLanes, List.flatMap_map]
  refine List.flatMap_congr (fun j hj => ?_)
  have pos := h j (List.mem_range.mp hj)
  dsimp only
  rw [statsLane_eq (by omega) pos]

end

/-! #### The unit's commands -/

section
variable {s : State} {u : UnitCmd} {vat : BitVec 6} {flags n list sums squares counts dst : Nat}

theorem merge_known (h : u.unit.toNat = 5) (h1 : 1 ≤ u.field 0 1) (h2 : u.field 0 1 ≤ 2) : u.known = true := by
  unfold UnitCmd.known
  dsimp only
  rw [h]
  simp [unitOps, h1, h2]

theorem one_write_stored (he : NoErrors s) (c : CoreId) (a : Nat) (b : Bytes) :
    StoredAtSide c [(a, b)] s (s.sideStore c.vat [(a, b)]) := sideWrite_stored he.2.1 c

/-- R81, R82: a MERGE writes its images' sums, or completes with 0x0183 when a lane leaves its range. -/
theorem merge_runs (ha : Awaits s u) (he : NoErrors s) (hn : NextCmd s 5 vat.toNat 1 u) (h : MergeFields u flags n list dst)
    (hf : flags ∈ [0, 1, 4, 5]) (h1 : 1 ≤ n) (h2 : n ≤ 4096) (hd : dst % 64 = 0) (hpl : s.plainRange list (8 * n) = true)
    (hpd : s.plainRange dst 1152 = true)
    (himg : ∀ i, i < n → leVal (s.sideBytes u.core.vat (list + 8 * i) 8) % 64 = 0 ∧
      s.plainRange (leVal (s.sideBytes u.core.vat (list + 8 * i) 8)) 1152 = true) :
    let sum := s.mergeSum u.core.vat flags n list dst
    let out := s.mergeOut u.core.vat flags n list dst
    ((∀ j, j < 16 → laneFits (sum j) = true ∧ laneFits (out j) = true) → Runs true (.merge vat) s u 0
      [(dst, (List.range 16).flatMap (fun j => leBytes 72 (BitVec.ofInt 576 (out j)).toNat))] (fun _ => 0)) ∧
    ((∃ j, j < 16 ∧ ¬ (laneFits (sum j) = true ∧ laneFits (out j) = true)) →
      Runs true (.merge vat) s u 0x0183 [] (fun _ => 0)) := by
  intro sum out
  have known : u.known = true := merge_known hn.here.1 h.op.ge (h.op.le.trans (by decide))
  obtain ⟨reads, spoils, plan⟩ := mergePlan_eq h hf h1 h2 hd hpl hpd himg
  have fits : (((List.range 16).map sum).all laneFits && ((List.range 16).map out).all laneFits) = true ↔
      ∀ j, j < 16 → laneFits (sum j) = true ∧ laneFits (out j) = true := by
    simp only [Bool.and_eq_true, List.all_map, List.all_eq_true, List.mem_range, Function.comp_apply, forall_and]
  refine ⟨fun hfit => ?_, fun hout => ?_⟩
  · have runs := runUnit_runs (unit := 5) (i := .merge vat) rfl ha he hn known (plan.trans (if_pos (fits.mpr hfit)))
      (by decide : (0 : BitVec 16) ≠ poisonStatus) (one_write_stored he ..)
    rwa [imageBytes_map] at runs
  · have exceeds : ¬ ∀ j, j < 16 → laneFits (sum j) = true ∧ laneFits (out j) = true := fun hfit => by
      obtain ⟨j, hj, hbad⟩ := hout
      exact hbad (hfit j hj)
    exact runUnit_runs (unit := 5) (i := .merge vat) rfl ha he hn known (plan.trans (if_neg (fun hfit => exceeds (fits.mp hfit))))
      (by decide : (0x0183 : BitVec 16) ≠ poisonStatus) (nothing_stored ..)

/-- R83, R84: a STATS writes its lanes' statistics, or completes with 0x0185 for a lane that cannot come from values. -/
theorem stats_runs (ha : Awaits s u) (he : NoErrors s) (hn : NextCmd s 5 vat.toNat 2 u)
    (h : StatsFields u flags sums squares counts dst) (hf : flags ∈ [0, 2]) (a1 : sums % 64 = 0)
    (a2 : squares % 64 = 0) (a3 : counts % 8 = 0) (a4 : dst % 64 = 0) (p1 : s.plainRange sums 1152 = true)
    (p2 : s.plainRange squares 1152 = true) (p3 : s.plainRange counts 128 = true) (p4 : s.plainRange dst 512 = true) :
    let count := s.laneCount u.core.vat counts
    let x := s.imageLane u.core.vat sums
    let y := s.imageLane u.core.vat squares
    ((∀ j, j < 16 → 1 ≤ count j - flags / 2 ∧ 0 ≤ y j ∧ 0 ≤ varianceNum (x j) (y j) (count j)) →
      Runs true (.stats vat) s u 0
      [(dst, (List.range 16).flatMap (fun j => statsBytes (x j) (y j) (count j) (count j - flags / 2)))] (fun _ => 0)) ∧
    ((∃ j, j < 16 ∧ 1 ≤ count j ∧ (y j < 0 ∨ varianceNum (x j) (y j) (count j) < 0)) →
      Runs true (.stats vat) s u 0x0185 [] (fun _ => 0)) := by
  intro count x y
  have known : u.known = true := merge_known hn.here.1 (h.op.ge.trans' (by decide)) h.op.le
  have plan := statsPlan_eq h hf a1 a2 a3 a4 p1 p2 p3 p4
  have negative : (s.statsLanes u.core.vat sums squares counts).any (fun l => statsNegative l.1.1 l.1.2 l.2) = true ↔
      ∃ j, j < 16 ∧ 1 ≤ count j ∧ (y j < 0 ∨ varianceNum (x j) (y j) (count j) < 0) := by
    simp only [State.statsLanes, List.any_map, List.any_eq_true, List.mem_range, Function.comp_apply, statsNegative_iff]
    rfl
  refine ⟨fun hgood => ?_, fun hbad => ?_⟩
  · have none_negative : ¬ ∃ j, j < 16 ∧ 1 ≤ count j ∧ (y j < 0 ∨ varianceNum (x j) (y j) (count j) < 0) := fun hneg => by
      obtain ⟨j, hj, -, hneg⟩ := hneg
      have := hgood j hj
      omega
    have none_empty : (s.statsLanes u.core.vat sums squares counts).any (fun l => l.2 = 0 || l.2 - flags / 2 = 0) = false := by
      rw [State.statsLanes, List.any_map, List.any_eq_false]
      intro j hj
      have : 1 ≤ count j - flags / 2 := (hgood j (List.mem_range.mp hj)).1
      simp only [Function.comp_apply, Bool.or_eq_true, decide_eq_true_eq]
      show ¬ (count j = 0 ∨ count j - flags / 2 = 0)
      omega
    have plan := plan.trans (if_neg (fun hneg => none_negative (negative.mp hneg)))
    rw [none_empty, statsLanes_bytes (fun j hj => (hgood j hj).1)] at plan
    exact runUnit_runs (unit := 5) (i := .stats vat) rfl ha he hn known plan (by decide : (0 : BitVec 16) ≠ poisonStatus)
      (one_write_stored he ..)
  · exact runUnit_runs (unit := 5) (i := .stats vat) rfl ha he hn known (plan.trans (if_pos (negative.mpr hbad)))
      (by decide : (0x0185 : BitVec 16) ≠ poisonStatus) (nothing_stored ..)

end

/-- Settles O20: each command's block gives its fields, its fields its plan, and the plan what the unit writes and reports. -/
theorem mergeUnit : Obligations.MergeUnit := by
  unfold Obligations.MergeUnit
  intro s u vat flags n list sums squares counts dst ha he
  refine ⟨fun hn hb hf h1 h2 hd hpl hpd himg => ?_, fun hn hb hf a1 a2 a3 a4 p1 p2 p3 p4 => ?_⟩
  · have small : flags < 256 ^ 1 := (by decide : ∀ f ∈ [0, 1, 4, 5], f < 256 ^ 1) flags hf
    have fields := mergeFields_of_block hb small (h2.trans_lt (by decide)) (plainRange_lt hpl (by omega))
      (plainRange_lt hpd (by decide))
    have runs := merge_runs ha he hn fields hf h1 h2 hd hpl hpd himg
    simp only [laneFits_iff] at runs
    exact runs
  · have small : flags < 256 ^ 1 := (by decide : ∀ f ∈ [0, 2], f < 256 ^ 1) flags hf
    have fields := statsFields_of_block hb small (plainRange_lt p1 (by decide)) (plainRange_lt p2 (by decide))
      (plainRange_lt p3 (by decide)) (plainRange_lt p4 (by decide))
    exact stats_runs ha he hn fields hf a1 a2 a3 a4 p1 p2 p3 p4

end Sys2Proof.Machine

/-! ### O13: the best entries of a list (R92 to R104) and the vector hashes (R202) -/

namespace Sys2Proof.Machine

open Sys2Proof

section
variable {kt k : Nat} {smallest : Bool} {a b : Entry} {xs : List Entry}

/-! #### The order of R92 and sorting by it -/

/-- Where an entry stands in the order of R92: by its key in the direction of the selection, then by its index. -/
def rankOf (kt : Nat) (smallest : Bool) (a : Entry) : ℤ ×ₗ ℕ :=
  toLex (if smallest then keyOrd kt a.key else -keyOrd kt a.key, a.idx)

theorem ranksBefore_iff : ranksBefore kt smallest a b = true ↔ rankOf kt smallest a ≤ rankOf kt smallest b := by
  unfold ranksBefore rankOf
  rw [Prod.Lex.toLex_le_toLex]
  by_cases h : keyOrd kt a.key = keyOrd kt b.key
  · simp [h]
  · cases smallest
    · simp [h]
    · simp [h]

theorem ranksBefore_of_not (h : ¬ ranksBefore kt smallest a b = true) : ranksBefore kt smallest b a = true := by
  rw [ranksBefore_iff] at h ⊢
  exact (not_le.mp h).le

theorem ranksBefore_trans {d : Entry} (h : ranksBefore kt smallest a b = true) (h' : ranksBefore kt smallest b d = true) :
    ranksBefore kt smallest a d = true := by
  rw [ranksBefore_iff] at h h' ⊢
  exact h.trans h'

theorem rankInsert_perm (a : Entry) (xs : List Entry) : (rankInsert kt smallest a xs).Perm (a :: xs) := by
  induction xs with
  | nil => exact .refl _
  | cons b bs ih =>
    unfold rankInsert
    split
    · exact (ih.cons b).trans (.swap a b bs)
    · exact .refl _

theorem rankInsert_ranked (h : xs.Pairwise (fun a b => ranksBefore kt smallest a b = true)) :
    (rankInsert kt smallest a xs).Pairwise (fun a b => ranksBefore kt smallest a b = true) := by
  induction xs with
  | nil => exact List.pairwise_singleton _ _
  | cons b bs ih =>
    obtain ⟨first, rest⟩ := List.pairwise_cons.mp h
    unfold rankInsert
    split
    next hba =>
      refine List.pairwise_cons.mpr ⟨fun x hx => ?_, ih rest⟩
      rcases List.mem_cons.mp ((rankInsert_perm a bs).mem_iff.mp hx) with rfl | hx
      · exact hba
      · exact first x hx
    next hba =>
      have hab := ranksBefore_of_not hba
      refine List.pairwise_cons.mpr ⟨fun x hx => ?_, h⟩
      rcases List.mem_cons.mp hx with rfl | hx
      · exact hab
      · exact ranksBefore_trans hab (first x hx)

theorem rankSort_concat (xs : List Entry) (a : Entry) :
    rankSort kt smallest (xs ++ [a]) = rankInsert kt smallest a (rankSort kt smallest xs) :=
  List.foldl_concat ..

theorem rankSort_perm (xs : List Entry) : (rankSort kt smallest xs).Perm xs := by
  induction xs using List.reverseRecOn with
  | nil => exact .refl _
  | append_singleton xs a ih =>
    rw [rankSort_concat]
    exact (rankInsert_perm a _).trans ((ih.cons a).trans (List.perm_append_singleton a xs).symm)

theorem rankSort_ranked (xs : List Entry) :
    (rankSort kt smallest xs).Pairwise (fun a b => ranksBefore kt smallest a b = true) := by
  induction xs using List.reverseRecOn with
  | nil => exact .nil
  | append_singleton xs a ih =>
    rw [rankSort_concat]
    exact rankInsert_ranked ih

/-! #### Duplicates (R99) -/

/-- A further entry is kept, or an entry of its index is kept already and a conflict noted if their keys differ. -/
theorem collapse_concat (xs : List Entry) (a : Entry) :
    ((∀ b ∈ (collapse xs).1, b.idx ≠ a.idx) ∧ collapse (xs ++ [a]) = ((collapse xs).1 ++ [a], (collapse xs).2)) ∨
    ∃ b ∈ (collapse xs).1, b.idx = a.idx ∧ collapse (xs ++ [a]) = ((collapse xs).1, (collapse xs).2 || b.key ≠ a.key) := by
  have step : collapse (xs ++ [a]) = _ := List.foldl_concat ..
  change collapse (xs ++ [a]) = (match (collapse xs).1.find? (fun b => b.idx = a.idx) with
    | some b => ((collapse xs).1, (collapse xs).2 || b.key ≠ a.key)
    | none => ((collapse xs).1 ++ [a], (collapse xs).2)) at step
  cases hfind : (collapse xs).1.find? (fun b => b.idx = a.idx) with
  | none =>
    rw [hfind] at step
    exact .inl ⟨by simpa using hfind, step⟩
  | some b =>
    rw [hfind] at step
    exact .inr ⟨b, List.mem_of_find?_eq_some hfind, by simpa using List.find?_some hfind, step⟩

theorem mem_of_mem_collapse (h : a ∈ (collapse xs).1) : a ∈ xs := by
  induction xs using List.reverseRecOn with
  | nil => exact h
  | append_singleton xs x ih =>
    rcases collapse_concat xs x with ⟨-, e⟩ | ⟨b, -, -, e⟩
    · rw [e] at h
      rcases List.mem_append.mp h with h | h
      · exact List.mem_append_left _ (ih h)
      · exact List.mem_append_right _ h
    · rw [e] at h
      exact List.mem_append_left _ (ih h)

theorem collapse_distinct (xs : List Entry) : (collapse xs).1.Pairwise (fun a b => a.idx ≠ b.idx) := by
  induction xs using List.reverseRecOn with
  | nil => exact .nil
  | append_singleton xs x ih =>
    rcases collapse_concat xs x with ⟨hnew, e⟩ | ⟨b, -, -, e⟩
    · rw [e]
      exact List.pairwise_append.mpr ⟨ih, List.pairwise_singleton _ _, fun b hb y hy => by
        rw [List.mem_singleton.mp hy]
        exact hnew b hb⟩
    · rw [e]
      exact ih

/-- Every entry's index is kept, and without a conflict by the entry itself. -/
theorem collapse_keeps (h : a ∈ xs) :
    ∃ b ∈ (collapse xs).1, b.idx = a.idx ∧ ((collapse xs).2 = false → b = a) := by
  induction xs using List.reverseRecOn with
  | nil => exact absurd h List.not_mem_nil
  | append_singleton xs x ih =>
    rcases collapse_concat xs x with ⟨-, e⟩ | ⟨d, hd, hidx, e⟩
    · rw [e]
      rcases List.mem_append.mp h with h | h
      · obtain ⟨b, hb, hab⟩ := ih h
        exact ⟨b, List.mem_append_left _ hb, hab⟩
      · exact ⟨a, List.mem_append_right _ h, rfl, fun _ => rfl⟩
    · rw [e]
      rcases List.mem_append.mp h with h | h
      · obtain ⟨b, hb, hab, same⟩ := ih h
        exact ⟨b, hb, hab, fun hc => same (Bool.or_eq_false_iff.mp hc).1⟩
      · rw [List.mem_singleton.mp h]
        refine ⟨d, hd, hidx, fun hc => ?_⟩
        have hkey : d.key = x.key := by simpa using (Bool.or_eq_false_iff.mp hc).2
        cases d
        cases x
        exact congrArg₂ Entry.mk hkey hidx

/-! #### Selection -/

theorem mem_admitted : a ∈ (admitted kt xs).1 ↔ a ∈ xs ∧ a.idx ≠ padIndex ∧ keyNan kt a.key = false := by
  simp only [admitted, List.mem_filter, decide_eq_true_eq, Bool.not_eq_true', and_assoc]

/-- The candidates that remain after R95 and R99, best first. -/
def candidates (kt : Nat) (smallest : Bool) (xs : List Entry) : List Entry :=
  rankSort kt smallest (collapse (admitted kt xs).1).1

theorem select_entries : (select kt k smallest xs).entries = (candidates kt smallest xs).take k := rfl

theorem select_conflict : (select kt k smallest xs).conflict = (collapse (admitted kt xs).1).2 := rfl

theorem mem_candidates : a ∈ candidates kt smallest xs ↔ a ∈ (collapse (admitted kt xs).1).1 :=
  (rankSort_perm _).mem_iff

theorem candidates_ranked : (candidates kt smallest xs).Pairwise (fun a b => ranksBefore kt smallest a b = true) :=
  rankSort_ranked _

theorem candidates_distinct : (candidates kt smallest xs).Pairwise (fun a b => a.idx ≠ b.idx) :=
  (rankSort_perm _).symm.pairwise (collapse_distinct _) (fun h => h.symm)

theorem mem_select_entries (h : a ∈ (select kt k smallest xs).entries) :
    a ∈ xs ∧ a.idx ≠ padIndex ∧ keyNan kt a.key = false := by
  rw [select_entries] at h
  exact mem_admitted.mp (mem_of_mem_collapse (mem_candidates.mp (List.mem_of_mem_take h)))

theorem select_length_le : (select kt k smallest xs).entries.length ≤ k := by
  rw [select_entries]
  exact List.length_take_le ..

theorem select_ranked :
    (select kt k smallest xs).entries.Pairwise (fun a b => ranksBefore kt smallest a b = true ∧ a.idx ≠ b.idx) := by
  rw [select_entries]
  exact (candidates_ranked.and candidates_distinct).sublist (List.take_sublist ..)

/-- What the first k of an ordered list leave out comes after k entries. -/
theorem take_full_of_left_out {α : Type} {R : α → α → Prop} {l : List α} {k : Nat} {x : α} (hl : l.Pairwise R) (hx : x ∈ l)
    (hout : x ∉ l.take k) : (l.take k).length = k ∧ ∀ a ∈ l.take k, R a x := by
  rw [← List.take_append_drop k l] at hl hx
  have hdrop : x ∈ l.drop k := (List.mem_append.mp hx).resolve_left hout
  refine ⟨?_, fun a ha => (List.pairwise_append.mp hl).2.2 a ha x hdrop⟩
  have := List.length_pos_of_mem hdrop
  rw [List.length_drop] at this
  rw [List.length_take]
  omega

/-- R102: a candidate whose index is not selected ranks after k selected ones. -/
theorem select_left_out (hx : a ∈ xs) (hpad : a.idx ≠ padIndex) (hnan : keyNan kt a.key = false)
    (hout : ∀ e ∈ (select kt k smallest xs).entries, e.idx ≠ a.idx) :
    (select kt k smallest xs).entries.length = k ∧
      ((select kt k smallest xs).conflict = false → ∀ e ∈ (select kt k smallest xs).entries, ranksBefore kt smallest e a = true) := by
  obtain ⟨b, hb, hidx, same⟩ := collapse_keeps (mem_admitted.mpr ⟨hx, hpad, hnan⟩)
  obtain ⟨full, order⟩ := take_full_of_left_out (k := k) candidates_ranked (mem_candidates.mpr hb) (fun h => hout b h hidx)
  exact ⟨full, fun hc => same (select_conflict ▸ hc) ▸ order⟩

/-! #### Lists of 64 pairs (R93) -/

/-- A key and an index of 32 bits each. -/
def Entry.Narrow (a : Entry) : Prop := a.key < 2 ^ 32 ∧ a.idx < 2 ^ 32

theorem lane_even (v : BitVec 4096) (i : Nat) : lane 4 v (2 * i) = lane 8 v i % 2 ^ 32 := by
  unfold lane
  rw [show 8 * 4 * (2 * i) = 8 * 8 * i by ring, show 2 ^ (8 * 8) = 2 ^ 32 * 2 ^ 32 by norm_num, Nat.mod_mul_right_mod]

theorem lane_odd (v : BitVec 4096) (i : Nat) : lane 4 v (2 * i + 1) = lane 8 v i / 2 ^ 32 := by
  unfold lane
  rw [show 8 * 4 * (2 * i + 1) = 8 * 8 * i + 32 by ring, show 2 ^ (8 * 8) = 2 ^ 32 * 2 ^ 32 by norm_num,
    Nat.mod_mul_right_div_self, pow_add, Nat.div_div_eq_div_mul]

/-- The key of pair i is the 32-bit element 2i of the register, the index the next one. -/
theorem listOfVec_eq (v : BitVec 4096) :
    listOfVec v = (List.range 64).map (fun i => ({ key := lane 4 v (2 * i), idx := lane 4 v (2 * i + 1) } : Entry)) := by
  simp only [lane_even, lane_odd]
  rfl

theorem narrow_lanes (u v : BitVec 4096) (i j : Nat) : Entry.Narrow { key := lane 4 u i, idx := lane 4 v j } :=
  ⟨lane_lt 4 u i, lane_lt 4 v j⟩

theorem narrow_of_mem_listOfVec {v : BitVec 4096} (h : a ∈ listOfVec v) : a.Narrow := by
  rw [listOfVec_eq] at h
  obtain ⟨i, -, rfl⟩ := List.mem_map.mp h
  exact narrow_lanes ..

theorem listOfVec_vecOfList {es : List Entry} (hlen : es.length = 64) (hes : ∀ a ∈ es, a.Narrow) :
    listOfVec (vecOfList es) = es := by
  have hlane : ∀ i (hi : i < es.length), lane 8 (vecOfList es) i = es[i].key + 2 ^ 32 * es[i].idx := fun i hi => by
    obtain ⟨hkey, hidx⟩ := hes _ (List.getElem_mem hi)
    rw [vecOfList, lane_packLanes (.inr (.inr (.inr rfl))) _ (by omega), List.getElem?_map, List.getElem?_eq_getElem hi,
      Option.map_some, Option.getD_some, Nat.mod_eq_of_lt (by omega)]
  unfold listOfVec
  refine List.ext_getElem (by simp [hlen]) (fun i hi hi' => ?_)
  obtain ⟨hkey, hidx⟩ := hes _ (List.getElem_mem hi')
  rw [List.getElem_map, List.getElem_range, hlane i hi', Nat.add_mul_mod_self_left, Nat.mod_eq_of_lt hkey,
    Nat.add_mul_div_left _ _ (by decide), Nat.div_eq_of_lt hkey, Nat.zero_add]

theorem narrow_padding (h : kt ∈ [0x4, 0x5, 0xC]) (smallest : Bool) :
    Entry.Narrow { key := emptyKey kt smallest, idx := padIndex } :=
  ⟨(by decide : ∀ t ∈ [0x4, 0x5, 0xC], ∀ b : Bool, emptyKey t b < 2 ^ 32) kt h smallest, (by decide : padIndex < 2 ^ 32)⟩

/-- The register that takes a selection's list reads as that list. -/
theorem listOfVec_select (hkt : kt ∈ [0x4, 0x5, 0xC]) (hk : k ≤ 64) (hxs : ∀ a ∈ xs, a.Narrow) :
    listOfVec (vecOfList (padded kt 64 smallest (select kt k smallest xs).entries)) =
      padded kt 64 smallest (select kt k smallest xs).entries := by
  refine listOfVec_vecOfList ?_ (fun a ha => ?_)
  · have : (select kt k smallest xs).entries.length ≤ 64 := select_length_le.trans hk
    simp [padded, this]
  · rcases List.mem_append.mp ha with ha | ha
    · exact hxs a (mem_select_entries ha).1
    · rw [List.eq_of_mem_replicate ha]
      exact narrow_padding hkt smallest

end

/-! #### The words -/

section
variable {c : CoreId} {f : VR} {w : Companions} {s : State}

/-- A word whose slot selects among candidates of 32-bit keys. -/
theorem completes_selected {i : Instr} {m : Meaning} {cs : List Entry} (hi : exec i s = runWord c 2 m w s) (hf : Fits 2 m)
    (hd : m.dests = [.w f.wd]) (hm : SlotRuns s c m ((ctxOf s c).selected f cs)) (ht : f.etype.toNat ∈ [0x4, 0x5, 0xC])
    (hmod : f.mod.toNat < 2) (hk : (s.core c).topkK.toNat ≤ 64) (hcs : ∀ a ∈ cs, a.Narrow) :
    let small := decide (f.mod.toNat = 1)
    let r := select f.etype.toNat (s.core c).topkK.toNat small cs
    ∃ v, listOfVec v = padded f.etype.toNat 64 small r.entries ∧
      Completes 2 [.w f.wd] { w := some (f.wd, v), topkst := some (topkStatus r) } i c w s := by
  have h := completes hi (by decide) hf hm
  rw [hd, Ctx.selected, Nat.mod_eq_of_lt hmod] at h
  exact ⟨_, listOfVec_select ht hk hcs, h⟩

theorem topk_legal (ht : f.etype.toNat ∈ [0x4, 0x5, 0xC]) (hmod : f.mod.toNat < 2) (hz : f.zm = 0)
    (h1 : 1 ≤ (s.core c).topkK.toNat) (h64 : (s.core c).topkK.toNat ≤ 64) :
    (topkType f.etype && f.mod.toNat < 2 && f.zm = 0 && topkReady (s.core c)) = true := by
  have typ : topkType f.etype = true := by
    simpa [topkType, ← BitVec.toNat_inj, or_assoc] using ht
  simp [typ, hmod, hz, topkReady, h1, h64]

theorem vtopk_selects (ht : f.etype.toNat ∈ [0x4, 0x5, 0xC]) (hmod : f.mod.toNat < 2) (hz : f.zm = 0)
    (h1 : 1 ≤ (s.core c).topkK.toNat) (h64 : (s.core c).topkK.toNat ≤ 64) :
    let small := decide (f.mod.toNat = 1)
    let new := (activeLanes 4 ((s.core c).getP f.pg)).map (fun i =>
      ({ key := lane 4 ((s.core c).getW f.wa) i, idx := lane 4 ((s.core c).getW f.wb) i } : Entry))
    let r := select f.etype.toNat (s.core c).topkK.toNat small (listOfVec ((s.core c).getW f.wd) ++ new)
    ∃ v, listOfVec v = padded f.etype.toNat 64 small r.entries ∧
      Completes 2 [.w f.wd] { w := some (f.wd, v), topkst := some (topkStatus r) } (.vtopk c f w) c w s := by
  intro small new
  have width : f.width = 4 := (by decide : ∀ t ∈ [0x4, 0x5, 0xC], etypeBytes t = 4) _ ht
  refine completes_selected (m := slotVtopk f) rfl (slotVtopk_fits f) rfl ⟨topk_legal ht hmod hz h1 h64, nofun, ?_, rfl⟩
    ht hmod h64 (fun a ha => ?_)
  · simp only [slotVtopk, Ctx.a, Ctx.b, width]
    rfl
  · rcases List.mem_append.mp ha with ha | ha
    · exact narrow_of_mem_listOfVec ha
    · obtain ⟨i, -, rfl⟩ := List.mem_map.mp ha
      exact narrow_lanes ..

theorem vmergek_selects (ht : f.etype.toNat ∈ [0x4, 0x5, 0xC]) (hmod : f.mod.toNat < 2) (hz : f.zm = 0)
    (h1 : 1 ≤ (s.core c).topkK.toNat) (h64 : (s.core c).topkK.toNat ≤ 64) (hp : f.pg = 0) :
    let small := decide (f.mod.toNat = 1)
    let r := select f.etype.toNat (s.core c).topkK.toNat small
      (listOfVec ((s.core c).getW f.wa) ++ listOfVec ((s.core c).getW f.wb))
    ∃ v, listOfVec v = padded f.etype.toNat 64 small r.entries ∧
      Completes 2 [.w f.wd] { w := some (f.wd, v), topkst := some (topkStatus r) } (.vmergek c f w) c w s := by
  refine completes_selected (m := slotVmergek f) rfl (slotVmergek_fits f) rfl ⟨?_, nofun, rfl, rfl⟩ ht hmod h64
    (fun a ha => (List.mem_append.mp ha).elim narrow_of_mem_listOfVec narrow_of_mem_listOfVec)
  have legal := topk_legal ht hmod hz h1 h64
  simp only [Bool.and_eq_true] at legal
  obtain ⟨⟨⟨typ, mod⟩, zm⟩, ready⟩ := legal
  simp only [slotVmergek, typ, mod, zm, hp, ready, decide_true, Bool.and_self]

/-- The part of a 64-bit hash that an element of n bytes keeps (Table 8.1). -/
def hashPart (n : Nat) (h : BitVec 64) : Nat := if n = 4 then h.toNat / 2 ^ 32 else h.toNat

theorem hashElem_crc (n a seed : Nat) : hashElem n 0 a seed = (crc32c (BitVec.ofNat 32 seed) (leBytes n a)).toNat := by
  simp only [hashElem, if_true]

theorem hashElem_xxHash (n a seed : Nat) :
    hashElem n 1 a seed = hashPart n (xxHash64 (BitVec.ofNat 64 seed) (leBytes n a)) := by
  simp only [hashElem, if_neg Nat.one_ne_zero, if_true, hashPart]

theorem hashElem_deckle (n a seed : Nat) :
    hashElem n 2 a seed = hashPart n (deckle64 (BitVec.ofNat 64 seed) (leBytes n a)) := by
  simp only [hashElem, if_neg (by decide : ¬ (2 = 0)), if_neg (by decide : ¬ (2 = 1)), hashPart]

/-- A hash stands in an element of its width. -/
theorem hashElem_lt {n : Nat} (h : n = 4 ∨ n = 8) (mod a seed : Nat) : hashElem n mod a seed < 2 ^ (8 * n) := by
  unfold hashElem
  dsimp only
  split
  · exact (BitVec.isLt _).trans_le (Nat.pow_le_pow_right (by decide) (by omega))
  · split
    next h4 =>
      subst h4
      exact Nat.div_lt_of_lt_mul (BitVec.isLt _)
    next h4 =>
      rw [h.resolve_left h4]
      exact BitVec.isLt _

/-- R202: VHASH writes the hash of each active element. -/
theorem vhash_writes {mod : Nat} (ht : f.etype.toNat ∈ [0x4, 0x5, 0x6, 0x7]) (hm : f.mod.toNat = mod) (hmod : mod ≤ 2) :
    WritesLanes 2 (.vhash c f w) c f f.width (fun j =>
      hashElem f.width mod (lane f.width ((s.core c).getW f.wa) j) (lane f.width ((s.core c).getW f.wb) j)) (fun _ => 0) w s := by
  subst hm
  have width : f.width = 4 ∨ f.width = 8 :=
    (by decide : ∀ t ∈ [0x4, 0x5, 0x6, 0x7], etypeBytes t = 4 ∨ etypeBytes t = 8) _ ht
  have int : f.etype.toNat < 8 := (by decide : ∀ t ∈ [0x4, 0x5, 0x6, 0x7], t < 8) _ ht
  have wide : 4 ≤ f.width := by omega
  exact writesLanes_of_vecOut (m := slotVhash f) (.inr (.inr width)) rfl (by decide) (slotVhash_fits f) rfl
    ⟨by simp [slotVhash, etypeInt, etypeIsInt, int, wide, hmod], nofun, rfl, rfl⟩
    (fun j _ _ => Nat.mod_eq_of_lt (hashElem_lt width ..))

end

/-- Settles O13: a selection is the first k of its candidates in rank order, its word reads as that list, and VHASH writes
`hashElem` in each mod. -/
theorem selectionAndHashes : Obligations.SelectionAndHashes := by
  unfold Obligations.SelectionAndHashes
  refine ⟨fun kt k smallest xs _ => ?_, fun c f w s ht hmod hz => ?_, fun c f w s ht => ?_⟩
  · exact ⟨select_length_le, fun a ha => mem_select_entries ha, select_ranked, fun x hx hpad hnan => select_left_out hx hpad hnan⟩
  · intro k t small pairs new h1 h64 gives
    have top := vtopk_selects (w := w) ht hmod hz h1 h64
    have merge := vmergek_selects (w := w) ht hmod hz h1 h64
    simp only [listOfVec_eq] at top merge
    exact ⟨top, merge⟩
  · intro k n m seed keep
    refine ⟨fun hm => ?_, fun hm => ?_, fun hm => ?_⟩
    · have writes := vhash_writes (mod := 0) (c := c) (w := w) (s := s) ht (congrArg BitVec.toNat hm) (by decide)
      simp only [hashElem_crc] at writes
      exact writes
    · have writes := vhash_writes (mod := 1) (c := c) (w := w) (s := s) ht (congrArg BitVec.toNat hm) (by decide)
      simp only [hashElem_xxHash] at writes
      exact writes
    · have writes := vhash_writes (mod := 2) (c := c) (w := w) (s := s) ht (congrArg BitVec.toNat hm) (by decide)
      simp only [hashElem_deckle] at writes
      exact writes

end Sys2Proof.Machine

/-! ### Stores in recovery mode (R277, Table 14.6)

As for atomics and streams above: an item's ST to the place that the item store has in recovery mode meets `StoreOk`, which names
its place in the first die region, and raises ACCESS_FAULT. -/

namespace Sys2Proof.Machine

open Sys2Proof

/-- A store of a range that the checks stop does nothing else. -/
theorem storeEffect_stops {t : Ctx} {a align : Nat} {b : Bytes} {e : Stop} (h : t.access true a b.length align = some e) :
    t.storeEffect a b align = .error e := by
  unfold Ctx.storeEffect
  rw [h]

/-- ST of 4 bytes at the address in X2. -/
def recoverySt : MI := { sz := 2, xd := 1, xb := 2, off14 := 0 }

theorem recoverySt_addr : (BitVec.ofInt 64 (((recoveryState recoveryCore).core ⟨0, 0⟩ |>.getX recoverySt.xb).toNat +
    recoverySt.off14.toInt * (2 ^ recoverySt.sz.toNat : Nat))).toNat = recoveryStore := by decide

theorem recovery_st_faults : (slotSt recoverySt).run (ctxOf (recoveryState recoveryCore) ⟨0, 0⟩) =
    .error (excAt 0x0106 recoveryStore) := by
  have stop := access_itemStore (t := ctxOf (recoveryState recoveryCore) ⟨0, 0⟩) (n := 4) (align := 4) recovery_accessOk.1
    recovery_accessOk.2 recovery_inItemStore rfl
  have addr : (ctxOf (recoveryState recoveryCore) ⟨0, 0⟩).miAddr recoverySt = recoveryStore :=
    (congrArg BitVec.toNat (offsetAddr_eq ..)).trans recoverySt_addr
  have width : miBytes recoverySt = 4 := by decide
  simp only [slotSt, addr, width]
  exact storeEffect_stops stop

/-- Refutes O15: in recovery mode on a Vat of die 1, an item's ST of 4 bytes at the place the item store has there raises
ACCESS_FAULT, and the item ends. -/
theorem not_stores : ¬ Obligations.Stores := by
  intro h
  obtain ⟨st, -⟩ := h.1 ⟨0, 0⟩ recoverySt { pg := 0, wd := 0, xb := 0, off13 := 0 } recoveryAmo ⟨0, 0, 0⟩ (recoveryState recoveryCore)
  have others := othersRun3_empty commits_recovery (ds := []) (by decide)
  have stores := st (by rw [recoverySt_addr]; exact recovery_accessOk) (by rw [recoverySt_addr]; exact .inr (by decide))
  obtain ⟨t, ht, hw, -⟩ := stores _ others
  obtain ⟨u, hu, hend⟩ := slot3_fault_ends (i := .st ⟨0, 0⟩ recoverySt ⟨0, 0, 0⟩) (m := slotSt recoverySt)
    rfl others ⟨rfl, nofun⟩ recovery_st_faults rfl rfl
  cases ht.symm.trans hu
  exact absurd (hend.symm.trans hw.item.1) (by decide)

end Sys2Proof.Machine

/-! ### O26: the Pulper (R137 to R162) -/

namespace Sys2Proof.Machine

open Sys2Proof

/-! #### A Pulper's OUT unpacked (R142) -/

theorem HasAt.add_le_length {a b : Bytes} {off : Nat} (h : HasAt a off b) : off + b.length ≤ a.length := by
  obtain ⟨x, y, rfl, rfl⟩ := h
  simp

theorem HasAt.append_left {a b : Bytes} {off : Nat} (h : HasAt a off b) (x : Bytes) : HasAt (x ++ a) (x.length + off) b :=
  HasAt.trans ⟨x, [], by simp, rfl⟩ h

theorem roundUpTo_spec (n : Nat) : n ≤ roundUpTo n 64 ∧ roundUpTo n 64 % 64 = 0 := by
  unfold roundUpTo
  omega

theorem dirEntry_length (off len : Nat) (code : BitVec 16) : (dirEntry off len code).length = 16 := by
  simp [dirEntry, leBytes_length, zeros_length]

theorem dirEntry_hasAt_offset (off len : Nat) (code : BitVec 16) : HasAt (dirEntry off len code) 0 (leBytes 8 off) :=
  ⟨[], leBytes 4 len ++ leBytes 2 code.toNat ++ zeros 2, by simp [dirEntry], rfl⟩

theorem dirEntry_hasAt_length (off len : Nat) (code : BitVec 16) : HasAt (dirEntry off len code) 8 (leBytes 4 len) :=
  ⟨leBytes 8 off, leBytes 2 code.toNat ++ zeros 2, by simp [dirEntry], leBytes_length ..⟩

/-- The directory entry of an output at an offset: a broke one has OFFSET 0 and LENGTH 0. -/
def Decoded.listed (d : Decoded) (off : Nat) : Bytes :=
  dirEntry (if d.broke.isSome then 0 else off) (if d.broke.isSome then 0 else d.bytes.length) (d.broke.getD 0)

theorem Decoded.listed_of_none {d : Decoded} (h : d.broke = none) (off : Nat) : d.listed off = dirEntry off d.bytes.length 0 := by
  simp [Decoded.listed, h]

theorem Decoded.listed_length (d : Decoded) (off : Nat) : (d.listed off).length = 16 := dirEntry_length ..

/-- An entry adds its bytes and a gap to the data; when an output follows, the gap ends on a 64-byte boundary. -/
theorem unpackedAll_cons (at' : Nat) (d : Decoded) (ds : List Decoded) : ∃ gap : Bytes,
    unpackedAll at' (d :: ds) = (d.bytes ++ gap ++ (unpackedAll (at' + (d.bytes ++ gap).length) ds).1,
      d.listed at' ++ (unpackedAll (at' + (d.bytes ++ gap).length) ds).2) ∧
    ((∃ x ∈ ds, x.broke = none) → at' % 64 = 0 → (at' + (d.bytes ++ gap).length) % 64 = 0) := by
  by_cases hb : d.bytes = []
  · refine ⟨[], ?_, fun _ ha => ?_⟩
    · simp [unpackedAll, Decoded.listed, hb]
    · simpa [hb] using ha
  · obtain ⟨gap, hgap⟩ : ∃ gap, gap = (List.range (if ds.any (fun x => x.broke.isNone || x.bytes ≠ []) then
        roundUpTo d.bytes.length 64 - d.bytes.length else 0)).map (fun i => Config.gapByte d.bytes (at' + d.bytes.length + i)) :=
      ⟨_, rfl⟩
    refine ⟨gap, ?_, fun hx ha => ?_⟩
    · cases hd : d.broke <;> simp [unpackedAll, Decoded.listed, hb, hd, hgap, Nat.add_assoc]
    · obtain ⟨x, hx, hnone⟩ := hx
      have follows : ds.any (fun x => x.broke.isNone || x.bytes ≠ []) = true :=
        List.any_eq_true.mpr ⟨x, hx, by simp [hnone]⟩
      have := roundUpTo_spec d.bytes.length
      rw [List.length_append, hgap, List.length_map, List.length_range, if_pos follows]
      omega

/-- Each entry that is not broke stands in the data where its directory entry says, on a 64-byte boundary. -/
theorem unpackedAll_places {ds : List Decoded} {i : Nat} {d : Decoded} (hi : ds[i]? = some d) (hd : d.broke = none) {at' : Nat}
    (ha : at' % 64 = 0) : ∃ k, (at' + k) % 64 = 0 ∧ HasAt (unpackedAll at' ds).1 k d.bytes ∧
      HasAt (unpackedAll at' ds).2 (16 * i) (dirEntry (at' + k) d.bytes.length 0) := by
  induction ds generalizing i at' with
  | nil => simp at hi
  | cons x ds ih =>
    obtain ⟨gap, heq, halign⟩ := unpackedAll_cons at' x ds
    rw [heq]
    cases i with
    | zero =>
      obtain rfl : x = d := by simpa using hi
      rw [Decoded.listed_of_none hd, List.append_assoc]
      exact ⟨0, ha, ⟨[], _, rfl, rfl⟩, ⟨[], _, rfl, rfl⟩⟩
    | succ i =>
      have hi : ds[i]? = some d := by simpa using hi
      obtain ⟨k, haligned, hdata, hdir⟩ := ih hi (halign ⟨d, List.mem_of_getElem? hi, hd⟩ ha)
      rw [Nat.add_assoc] at haligned hdir
      have hdir := hdir.append_left (x.listed at')
      rw [Decoded.listed_length, Nat.add_comm 16, ← Nat.mul_succ] at hdir
      exact ⟨_, haligned, hdata.append_left _, hdir⟩

theorem unpackedAll_dir_length (at' : Nat) (ds : List Decoded) : (unpackedAll at' ds).2.length = 16 * ds.length := by
  induction ds generalizing at' with
  | nil => rfl
  | cons d ds ih =>
    obtain ⟨gap, heq, -⟩ := unpackedAll_cons at' d ds
    rw [heq, List.length_append, ih, Decoded.listed_length, List.length_cons]
    omega

/-- Where the data of OUT begin (R141). -/
def pulData (u : UnitCmd) : Nat := 64 + roundUpTo (16 * pulCount u) 64

/-- OUT of a command without PACK holds the directory from byte 64 on, and the data behind it. -/
theorem pulOutput_unpacked {u : UnitCmd} {c : PulSet} {esize n : Nat} {ds : List Decoded} (hp : pulPack u = false)
    (hl : ds.length = pulCount u) : HasAt (pulOutput u c esize n ds) 64 (unpackedAll (pulData u) ds).2 ∧
      HasAt (pulOutput u c esize n ds) (pulData u) (unpackedAll (pulData u) ds).1 := by
  obtain ⟨head, hout, hhead⟩ : ∃ head : Bytes, pulOutput u c esize n ds = head ++
      (unpackedAll (pulData u) ds).2 ++ zeros (roundUpTo (16 * pulCount u) 64 - 16 * pulCount u) ++ (unpackedAll (pulData u) ds).1 ∧
      head.length = 64 := by
    unfold pulOutput
    simp only [hp, Bool.false_eq_true, if_false]
    exact ⟨_, rfl, by simp only [List.length_append, leBytes_length, zeros_length]⟩
  refine ⟨⟨head, _, by rw [hout, List.append_assoc], hhead⟩, ⟨_, [], by rw [hout, List.append_nil], ?_⟩⟩
  have := roundUpTo_spec (16 * pulCount u)
  rw [List.length_append, List.length_append, hhead, unpackedAll_dir_length, zeros_length, hl, pulData]
  omega

/-- R142: without PACK the directory gives the place and length of each output. -/
theorem pulOutput_places {u : UnitCmd} {c : PulSet} {esize n : Nat} {ds : List Decoded} (hp : pulPack u = false)
    (hl : ds.length = pulCount u) (hout : (pulOutput u c esize n ds).length < 2 ^ 64) {i : Nat} {d : Decoded}
    (hi : ds[i]? = some d) (hd : d.broke = none) (hb : d.bytes.length < 2 ^ 32) :
    let out := pulOutput u c esize n ds
    let off := fieldAt out (64 + 16 * i) 8
    off % 64 = 0 ∧ fieldAt out (64 + 16 * i + 8) 4 = d.bytes.length ∧ (out.drop off).take d.bytes.length = d.bytes := by
  obtain ⟨hdir, hdata⟩ := pulOutput_unpacked (c := c) (esize := esize) (n := n) hp hl
  have aligned : pulData u % 64 = 0 := by
    have := roundUpTo_spec (16 * pulCount u)
    rw [pulData]
    omega
  obtain ⟨k, hk, hbytes, hentry⟩ := unpackedAll_places hi hd aligned
  have entry := hdir.trans hentry
  have bytes := hdata.trans hbytes
  have off : fieldAt (pulOutput u c esize n ds) (64 + 16 * i) 8 = pulData u + k := by
    have := bytes.add_le_length
    exact ((entry.trans (dirEntry_hasAt_offset ..)).fieldAt (leBytes_length ..)).trans (leVal_leBytes_of_lt (by omega))
  have len : fieldAt (pulOutput u c esize n ds) (64 + 16 * i + 8) 4 = d.bytes.length :=
    ((entry.trans (dirEntry_hasAt_length ..)).fieldAt (leBytes_length ..)).trans (leVal_leBytes_of_lt hb)
  intro out o
  exact ⟨by rw [show o = _ from off, hk], len, by rw [show o = _ from off]; exact bytes.slice rfl⟩

/-! #### Samples that come as they are (R138) -/

theorem decodeSample_plain {u : UnitCmd} (hw : pulWrap u = 0) (hf : pulFormat u = 0) (c : PulSet) (param : Bytes)
    (augs : List AugEntry) (o : Nat) (b : Bytes) :
    decodeSample c u param augs o b = if pulOutMax u < b.length then Decoded.fail 0x0306
      else { broke := none, bytes := b, elems := b.length, rows := 1 } := by
  by_cases h : pulOutMax u < b.length <;> simp [decodeSample, hw, hf, wrapSteps, Meterage.run, Meterage.fail, h]

/-! #### Broke records (R159) -/

theorem brokeRecords_eq (table : Nat) (xs : List (SampleRef × Decoded)) :
    brokeRecords table xs = (xs.filter (fun x => x.2.broke.isSome)).map (fun x => brokeRecord table x.1 x.2) := by
  induction xs with
  | nil => rfl
  | cons x xs ih =>
    by_cases h : x.2.broke.isSome = true <;> simp [brokeRecords, h, ih]

/-! #### A unit's turn -/

/-- A plan that reads a range is carried out as it is, so the range is readable. -/
theorem unitPoisoned_eq_false {s : State} (h : NoErrors s) (v : BitVec 6) (r : Nat × Nat) : s.unitPoisoned v r = false := by
  have settled := congrArg UnitPlan.status (settle_eq h { status := 0, reads := [r], writes := [] } v)
  by_contra lost
  simp [UnitPlan.settle, Bool.eq_true_of_not_eq_false lost, poisonStatus] at settled

theorem NextCmd.unitHeld_eq_false {s : State} {u : UnitCmd} {unit : BitVec 4} {inst op : Nat} (h : NextCmd s unit.toNat inst op u) :
    s.unitHeld unit = false := by
  have runs := h.runs
  unfold State.unitHeld
  by_cases hb : s.rst.boot = .recovery
  · simpa [hb, ← BitVec.toNat_inj, and_assoc] using runs hb
  · simp [hb]

theorem serveNext_runs {s : State} {u : UnitCmd} {unit : BitVec 4} {inst op : Nat} (h : NextCmd s unit.toNat inst op u)
    (hk : u.known = true) (run : State → UnitCmd → State) : serveNext unit inst op run s = .next (run s u) := by
  have hop : u.field 0 1 = op := h.here.2.2
  unfold serveNext
  rw [nextUnit_eq h]
  dsimp only
  rw [h.unitHeld_eq_false, hk, hop, if_neg (by decide), if_neg (by decide), if_neg (fun h => h rfl)]

/-- A command's end in a state that has kept its unit's queue and the cores. -/
theorem unitEnd_reported {s t : State} {u : UnitCmd} (ha : Awaits t u) (hu : t.units = s.units) (hc : t.cores = s.cores)
    (st : BitVec 16) :
    Reported s (t.unitEnd u st) u st ∧
      t.unitEnd u st = { t with units := (t.unitEnd u st).units, cores := (t.unitEnd u st).cores } := by
  have core : ∀ d, t.core d = s.core d := fun d => by unfold State.core; rw [hc]
  rw [unitEnd_eq ha]
  refine ⟨⟨congrArg (·.erase u) hu, ?_, fun d hd => ?_⟩, rfl⟩
  · rw [core_setCore, if_pos rfl, core]
  · rw [core_setCore, if_neg hd]
    exact core d

/-! #### A command of the Pulper -/

section
variable {s t : State} {u : UnitCmd}

/-- The entries of a command as they come out. -/
def State.pulDecoded (s : State) (u : UnitCmd) : List Decoded :=
  (s.pulRefs u).zipIdx.map (fun r => s.pulDecode u (s.pulSet u) r.2 r.1)

/-- The entries that come out broke. -/
def State.pulBroken (s : State) (u : UnitCmd) : List (SampleRef × Decoded) :=
  ((s.pulRefs u).zip (s.pulDecoded u)).filter (fun x => x.2.broke.isSome)

/-- What a command adds to each counter: broke entries, and those whose decode budget ran out (R155, R162). -/
def State.pulCounts (s : State) (u : UnitCmd) (k : Nat) : Nat :=
  if k = 0x400010 then (s.pulBroken u).length else if k = 0x400011 then
    ((s.pulDecoded u).filter (fun d => d.broke = some 0x0307)).length else 0

/-- A command's samples and broke entries counted. -/
def State.pulCounted (s : State) (u : UnitCmd) : State :=
  ((s.pulArrive u).bump 0x400010 (s.pulCounts u 0x400010)).bump 0x400011 (s.pulCounts u 0x400011)

/-- OUT and BROKE written. -/
def State.pulWritten (s : State) (u : UnitCmd) (t : State) : State :=
  (t.memWrite (pulOut u) (pulOutput u (s.pulSet u) (pulEsize u (s.pulParams u)) (s.pulBroken u).length (s.pulDecoded u))).memWrite
    (pulBroke u) ((s.pulBroken u).flatMap (fun x => brokeRecord (pulTable u) x.1 x.2))

theorem pulDecoded_eq (s : State) (u : UnitCmd) (r : SampleRef) : (List.range (pulCount u)).map (fun i =>
    s.pulDecode u (s.pulSet u) i ((s.pulRefs u)[i]?.getD r)) = s.pulDecoded u := by
  have length : (s.pulRefs u).length = pulCount u := by simp [State.pulRefs]
  refine List.ext_getElem (by simp [State.pulDecoded, length]) (fun i h1 h2 => ?_)
  have hi : i < (s.pulRefs u).length := by simpa [length] using h1
  simp [State.pulDecoded, List.getElem?_eq_getElem hi]

/-- R142, R159, R162: a command with its engines, whose reads succeed, decodes its entries; too many broke ones leave what it
writes undefined. -/
theorem pulServe_eq (he : NoErrors s) (hn : s.pulNoEngine u = false) : s.pulServe u =
    if (s.pulSet u).max ≠ 0 ∧ (s.pulSet u).max < (s.pulBroken u).length
    then ((s.pulCounted u).pulUndefined u).unitEnd u 0x0385
    else (s.pulWritten u (s.pulCounted u)).drawn.unitEnd u (if s.pulBroken u = [] then 0 else 0x0390) := by
  have good : (s.pulDict u :: s.pulAreas u ++ s.pulSamples u).any (s.unitPoisoned u.core.vat) = false :=
    List.any_eq_false.mpr (fun r _ => by simp [unitPoisoned_eq_false he])
  have records : brokeRecords (pulTable u) ((s.pulRefs u).zip (s.pulDecoded u)) =
      (s.pulBroken u).map (fun x => brokeRecord (pulTable u) x.1 x.2) := brokeRecords_eq ..
  unfold State.pulServe
  dsimp only
  rw [hn, good, pulDecoded_eq, records, List.length_map, ← List.flatMap_def, if_neg (by decide), if_neg (by decide)]
  simp only [List.map_eq_nil_iff, Bool.and_eq_true, decide_eq_true_eq]
  rfl

/-- Arrivals are counted in the jobs alone, and for SAMPLES alone. -/
theorem pulArrive_eq (s : State) (u : UnitCmd) : ∃ jobs, s.pulArrive u = { s with hb := { s.hb with jobs := jobs } } ∧
    (pulOp u ≠ 1 → jobs = s.hb.jobs) := by
  unfold State.pulArrive
  split
  case isTrue h => exact ⟨_, rfl, fun _ => rfl⟩
  case isFalse h =>
    split
    · exact ⟨_, rfl, fun hop => absurd hop h⟩
    · exact ⟨_, rfl, fun _ => rfl⟩

theorem modVal_bump (s : State) (key n k : Nat) : (s.bump key n).modVal k 0 = s.modVal k 0 + if k = key then n else 0 := by
  obtain ⟨same, others⟩ := bump_countsBy s key n
  by_cases h : k = key
  · rw [if_pos h, h, same]
  · rw [if_neg h, others k 0 h, Nat.add_zero]

theorem pulCounted_modVal (s : State) (u : UnitCmd) (k : Nat) : (s.pulCounted u).modVal k 0 = s.modVal k 0 + s.pulCounts u k := by
  obtain ⟨jobs, arrive, -⟩ := pulArrive_eq s u
  have before : (s.pulArrive u).modVal k 0 = s.modVal k 0 := by rw [arrive]; rfl
  rw [State.pulCounted, modVal_bump, modVal_bump, before, Nat.add_assoc]
  congr 1
  unfold State.pulCounts
  by_cases h : k = 0x400010
  · simp [h]
  · by_cases h' : k = 0x400011
    · simp [h']
    · simp [h, h']

/-- A command has run and reported `st`: it has counted its entries and, for SAMPLES, its flow's arrivals, and beside memory it has
changed nothing else. -/
structure PulRan (s t : State) (u : UnitCmd) (st : BitVec 16) : Prop where
  reported : Reported s t u st
  counters : ∀ k, t.modVal k 0 = s.modVal k 0 + s.pulCounts u k
  frame    : t = { s with units := t.units, cores := t.cores, mem := t.mem, free := s.free + 1,
                          hb := { s.hb with jobs := t.hb.jobs }, dict := { s.dict with values := t.dict.values } }
  jobs     : pulOp u ≠ 1 → t.hb.jobs = s.hb.jobs

theorem pulCounted_frame (s : State) (u : UnitCmd) : ∃ jobs values, (pulOp u ≠ 1 → jobs = s.hb.jobs) ∧
    s.pulCounted u = { s with hb := { s.hb with jobs := jobs }, dict := { s.dict with values := values } } := by
  obtain ⟨jobs, arrive, kept⟩ := pulArrive_eq s u
  exact ⟨jobs, _, kept, by rw [State.pulCounted, arrive]; rfl⟩

/-- The end of a command after its counts and changes to memory alone. -/
theorem pulRan_of_memOnly (ha : Awaits s u) (ht : MemOnly (s.pulCounted u) t) (st : BitVec 16) :
    PulRan s (t.drawn.unitEnd u st) u st ∧ (t.drawn.unitEnd u st).mem = t.mem := by
  have counted := pulCounted_modVal s u
  obtain ⟨jobs, values, kept, hframe⟩ := pulCounted_frame s u
  rw [hframe] at ht counted
  obtain ⟨m, rfl⟩ : ∃ m, t = { s with mem := m, hb := { s.hb with jobs := jobs }, dict := { s.dict with values := values } } :=
    ⟨t.mem, ht⟩
  have waits : Awaits (State.drawn { s with
      mem := m, hb := { s.hb with jobs := jobs }, dict := { s.dict with values := values } }) u :=
    ⟨ha.ticket, ha.finishing, ha.run⟩
  obtain ⟨reported, frame⟩ := unitEnd_reported (s := s) waits rfl rfl st
  refine ⟨⟨reported, fun k => ?_, ?_, fun hop => ?_⟩, ?_⟩
  · rw [frame]
    exact counted k
  · rw [frame]
    rfl
  · rw [frame]
    exact kept hop
  · rw [frame]
    rfl

/-- Undefined bytes are a change to memory alone, and one draw. -/
theorem pulUndefined_memOnly (t : State) (u : UnitCmd) : ∃ t', MemOnly t t' ∧ t.pulUndefined u = t'.drawn :=
  ⟨_, (memWrite_memOnly ..).trans (memWrite_memOnly ..), rfl⟩

/-- Too many broke entries: OUT and BROKE are undefined (R162). -/
theorem pulServe_tooMany (ha : Awaits s u) (he : NoErrors s) (hn : s.pulNoEngine u = false)
    (hm : (s.pulSet u).max ≠ 0 ∧ (s.pulSet u).max < (s.pulBroken u).length) : PulRan s (s.pulServe u) u 0x0385 := by
  obtain ⟨t, ht, undefined⟩ := pulUndefined_memOnly (s.pulCounted u) u
  rw [pulServe_eq he hn, if_pos hm, undefined]
  exact (pulRan_of_memOnly ha ht _).1

theorem pulWritten_mem (s : State) (u : UnitCmd) : (s.pulWritten u (s.pulCounted u)).mem = (s.pulWritten u s).mem := by
  obtain ⟨jobs, values, -, hframe⟩ := pulCounted_frame s u
  rw [hframe]
  rfl

/-- Otherwise they are written, and the status says whether entries are broke (R142, R159). -/
theorem pulServe_writes (ha : Awaits s u) (he : NoErrors s) (hn : s.pulNoEngine u = false)
    (hm : ¬ ((s.pulSet u).max ≠ 0 ∧ (s.pulSet u).max < (s.pulBroken u).length)) :
    PulRan s (s.pulServe u) u (if s.pulBroken u = [] then 0 else 0x0390) ∧ (s.pulServe u).mem = (s.pulWritten u s).mem := by
  rw [pulServe_eq he hn, if_neg hm, ← pulWritten_mem]
  exact pulRan_of_memOnly ha ((memWrite_memOnly ..).trans (memWrite_memOnly ..)) _

theorem pulper_known (h : u.unit.toNat = 6) (h1 : 1 ≤ u.field 0 1) (h2 : u.field 0 1 ≤ 3) : u.known = true := by
  unfold UnitCmd.known
  dsimp only
  rw [h]
  simp [unitOps, h1, h2]

/-- A command that passes the checks of Table 6.4 is served when the row of its OP comes. -/
theorem exec_pulper {die : BitVec 2} {op : Nat} {i : Instr} (hi : (op, i) ∈ [(1, Instr.samples die), (2, .page die), (3, .arrow die)])
    (hn : NextCmd s 6 die.toNat op u) (hr : s.pulReject u = none) : exec i s = .next (s.pulServe u) := by
  have row : exec i s = runPulper op die s ∧ 1 ≤ op ∧ op ≤ 3 := by
    simp only [List.mem_cons, Prod.mk.injEq, List.not_mem_nil, or_false] at hi
    obtain ⟨rfl, rfl⟩ | ⟨rfl, rfl⟩ | ⟨rfl, rfl⟩ := hi <;> exact ⟨rfl, by decide⟩
  obtain ⟨run, low, high⟩ := row
  have hop : u.field 0 1 = op := hn.here.2.2
  rw [run, runPulper, serveNext_runs (unit := 6) hn (pulper_known hn.here.1 (by omega) (by omega)), hr]

end

/-! #### Overdue entries and retired engines (R137, R156) -/

/-- R156: an entry of the next command is noted once. -/
theorem exec_deadlineExceeded {s : State} {u : UnitCmd} {die : BitVec 2} {op entry : Nat} (hn : NextCmd s 6 die.toNat op u)
    (hw : (s.pulSet u).wall = true) (he : entry < pulCount u) (ho : entry ∉ u.overdue) : exec (.deadlineExceeded die entry) s =
      .next { s with units := s.units.map (fun v => if v = u then { u with overdue := u.overdue ++ [entry] } else v) } := by
  have next : s.nextUnit 6 die.toNat = some u := nextUnit_eq (unit := 6) hn
  show execDeadlineExceeded die entry s = _
  unfold execDeadlineExceeded
  rw [next]
  simp [hw, he, ho]

theorem setPulper_bump (s : State) (die : BitVec 2) (q : Pulper) : let t := (s.setPulper die q).bump 0x400012 1
    CountsBy 0x400012 1 s t ∧
      t = { s with pulpers := s.pulpers.set die.toNat q, dict := { s.dict with values := t.dict.values } } :=
  ⟨bump_countsBy (s.setPulper die q) _ _, rfl⟩

/-- Settles O26: a command's work is `pulServe`, which either writes what its entries come to or leaves it undefined; an output of
OUT stands where the directory, by induction on the entries, says. -/
theorem pulperDecoding : Obligations.PulperDecoding := by
  unfold Obligations.PulperDecoding
  refine ⟨fun s u die op ha he hn hr hengine => ?_, fun c u param b augs o hw hf => decodeSample_plain hw hf c param augs o b,
    fun u c n ds hp hl => ?_, fun s u die op entry kind => ?_⟩
  · intro c refs ds broken records out counts i hi hop
    subst hop
    have run : exec i.2 s = .next (s.pulServe u) := exec_pulper hi hn hr
    have opcode : pulOp u = i.1 := hn.here.2.2
    by_cases hm : (s.pulSet u).max ≠ 0 ∧ (s.pulSet u).max < (s.pulBroken u).length
    · have ran := pulServe_tooMany ha he hengine hm
      exact ⟨_, run, ran.counters, ran.frame, fun h => ran.jobs (opcode ▸ h), fun h => (h.elim hm.1 (Nat.not_le.mpr hm.2)).elim,
        fun _ => ran.reported⟩
    · obtain ⟨ran, mem⟩ := pulServe_writes ha he hengine hm
      exact ⟨_, run, ran.counters, ran.frame, fun h => ran.jobs (opcode ▸ h), fun _ => ⟨ran.reported, mem⟩, fun h => absurd h hm⟩
  · intro out hout i d hi hd hb off
    obtain ⟨aligned, len, bytes⟩ := pulOutput_places hp hl hout hi hd hb
    exact ⟨fun _ => aligned, len, bytes⟩
  · intro p set late n
    refine ⟨exec_deadlineExceeded, fun hn => ?_⟩
    have retires : ∃ q, exec (.engineRetire die kind) s = .next ((s.setPulper die q).bump 0x400012 1) ∧
        (q = { p with decompression := n - 1 } ∧ kind = .decompression ∨ q = { p with jpeg := n - 1 } ∧ kind = .jpeg ∨
          q = { p with pointRecord := n - 1 } ∧ kind = .pointRecord ∨ q = { p with page := n - 1 } ∧ kind = .page) := by
      cases kind with
      | decompression => exact ⟨_, if_neg hn, .inl ⟨rfl, rfl⟩⟩
      | jpeg => exact ⟨_, if_neg hn, .inr (.inl ⟨rfl, rfl⟩)⟩
      | pointRecord => exact ⟨_, if_neg hn, .inr (.inr (.inl ⟨rfl, rfl⟩))⟩
      | page => exact ⟨_, if_neg hn, .inr (.inr (.inr ⟨rfl, rfl⟩))⟩
    obtain ⟨q, run, hq⟩ := retires
    obtain ⟨counts, frame⟩ := setPulper_bump s die q
    exact ⟨_, q, run, counts, frame, hq⟩

end Sys2Proof.Machine

/-! ### One exchange: what reads of it see after a write, and what it leaves alone (R189 to R196) -/

namespace Sys2Proof.Machine

open Sys2Proof

/-- Both are the same exchange of the same job. -/
def Exch.SameKey (y x : Exch) : Prop := y.job = x.job ∧ y.exch = x.exch

@[simp] theorem Exch.SameKey.refl (x : Exch) : x.SameKey x := ⟨rfl, rfl⟩

@[simp] theorem setCredit_sameKey {x z : Exch} (src : BitVec 14) (p n : Nat) : (x.setCredit src p n).SameKey z ↔ x.SameKey z := Iff.rfl

@[simp] theorem noteDone_sameKey {x z : Exch} (src : BitVec 14) (p r : Nat) : (x.noteDone src p r).SameKey z ↔ x.SameKey z := Iff.rfl

/-- Writing an exchange makes it the one that reads of its number find. -/
theorem exch?_setExch {s : State} {x y : Exch} {id : BitVec 64} {n : Nat} (h : s.exch? id n = some x) (hk : y.SameKey x) :
    (s.setExch y).exch? id n = some y := by
  obtain ⟨hjob, hexch⟩ := hk
  unfold State.exch? State.setExch at *
  have hx : x.job = id ∧ x.exch.toNat = n := by simpa using List.find?_some h
  have same : ((fun z : Exch => z.job = id && z.exch.toNat = n) ∘ fun z => if z.job = y.job && z.exch = y.exch then y else z) =
      fun z : Exch => z.job = id && z.exch.toNat = n := by
    funext z
    by_cases hz : z.job = y.job ∧ z.exch = y.exch
    · simp [hz, hjob, hexch, hx]
    · rw [Function.comp_apply, if_neg (by simpa using hz)]
  refine (List.find?_map ..).trans ?_
  rw [same, h]
  simp [hjob, hexch]

/-- Of two writes of an exchange the second stands. -/
theorem setExch_setExch (s : State) (x y : Exch) (hk : y.SameKey x) : (s.setExch x).setExch y = s.setExch y := by
  obtain ⟨hjob, hexch⟩ := hk
  have twice : s.slurry.map ((fun z => if z.job = y.job && z.exch = y.exch then y else z) ∘
      fun z => if z.job = x.job && z.exch = x.exch then x else z) =
      s.slurry.map (fun z => if z.job = y.job && z.exch = y.exch then y else z) := by
    refine List.map_congr_left (fun z _ => ?_)
    by_cases hz : z.job = x.job ∧ z.exch = x.exch <;> simp [hz, hjob, hexch]
  unfold State.setExch
  rw [List.map_map, twice]

/-- Only outputs, queue pairs and counters have changed. -/
def Posts (s t : State) : Prop :=
  t = { s with sent := t.sent, fab := { s.fab with qps := t.fab.qps }, dict := { s.dict with values := t.dict.values } }

theorem Posts.trans {s t u : State} (h : Posts s t) (g : Posts t u) : Posts s u := by
  unfold Posts at *
  rw [g, h]

theorem bump_posts (s : State) (key n : Nat) : Posts s (s.bump key n) := rfl

theorem emit_posts (s : State) (o : Out) : Posts s (s.emit o) := rfl

theorem sendMsg_posts (s : State) (t : BitVec 8) (m : Msg) : Posts s (s.sendMsg t m) := by
  unfold State.sendMsg
  split
  · rfl
  · dsimp only
    split <;> rfl

theorem sendSeq_posts (s : State) (j : Job) (e : ExchRec) (t : BitVec 8) (dst : BitVec 14) (seq part round value : Nat)
    (payload : Bytes) : Posts s (s.sendSeq j e t dst seq part round value payload) :=
  (sendMsg_posts s t _).trans (bump_posts _ _ _)

theorem Posts.slurry {s t : State} (h : Posts s t) : t.slurry = s.slurry := by rw [h]

theorem Posts.hb {s t : State} (h : Posts s t) : t.hb = s.hb := by rw [h]

theorem Posts.exch? {s t : State} (h : Posts s t) (id : BitVec 64) (n : Nat) : t.exch? id n = s.exch? id n := by
  unfold State.exch?; rw [h.slurry]

theorem OnlyExch.refl (x : Exch) (s : State) : OnlyExch x s s := ⟨rfl, rfl⟩

theorem OnlyExch.posts {x : Exch} {s t u : State} (h : OnlyExch x s t) (hp : Posts t u) : OnlyExch x s u := by
  obtain ⟨hframe, hrest⟩ := h
  refine ⟨?_, by rw [hp.slurry, hrest]⟩
  unfold Posts at hp
  rw [hp, hframe]

/-- A write to one exchange leaves the list of the others as it is. -/
theorem setExch_others (s : State) (y : Exch) : (s.setExch y).slurry.filter (fun z => !(z.job = y.job && z.exch = y.exch)) =
    s.slurry.filter (fun z => !(z.job = y.job && z.exch = y.exch)) := by
  unfold State.setExch
  refine (List.filter_map ..).trans ?_
  have same : ((fun z : Exch => !(z.job = y.job && z.exch = y.exch)) ∘ fun z => if z.job = y.job && z.exch = y.exch then y else z) =
      fun z : Exch => !(z.job = y.job && z.exch = y.exch) := by
    funext z
    by_cases hz : z.job = y.job ∧ z.exch = y.exch
    · simp [hz]
    · rw [Function.comp_apply, if_neg (by simpa using hz)]
  rw [same]
  refine (List.map_congr_left (g := id) (fun z hz => if_neg ?_)).trans (List.map_id _)
  simpa [imp_iff_not_or] using (List.mem_filter.mp hz).2

theorem OnlyExch.setExch {x y : Exch} {s t : State} (h : OnlyExch x s t) (hk : y.SameKey x) : OnlyExch x s (t.setExch y) := by
  obtain ⟨hframe, hrest⟩ := h
  obtain ⟨hjob, hexch⟩ := hk
  refine ⟨by unfold State.setExch; rw [hframe], hrest ▸ ?_⟩
  rw [← hjob, ← hexch]
  exact setExch_others t y

/-- On the way from s to t the exchange with the number n of a job has become y, and nothing else has changed but outputs, queue
pairs and counters. -/
structure Turns (id : BitVec 64) (n : Nat) (x : Exch) (s t : State) (y : Exch) : Prop where
  here : t.exch? id n = some y
  only : OnlyExch x s t
  key  : y.SameKey x

section
variable {id : BitVec 64} {n : Nat} {x y z : Exch} {s t u : State}

theorem Turns.refl (h : s.exch? id n = some x) : Turns id n x s s x := ⟨h, .refl x s, .refl x⟩

theorem Turns.posts (h : Turns id n x s t y) (hp : Posts t u) : Turns id n x s u y :=
  ⟨(hp.exch? id n).trans h.here, h.only.posts hp, h.key⟩

theorem Turns.setExch (h : Turns id n x s t y) (hk : z.SameKey y) : Turns id n x s (t.setExch z) z :=
  have key : z.SameKey x := ⟨hk.1.trans h.key.1, hk.2.trans h.key.2⟩
  ⟨exch?_setExch h.here hk, h.only.setExch key, key⟩

end

/-! #### What leaves for a module -/

/-- A message of the exchange's stream to a module (Table 7.6). -/
structure OnStream (a : Msg) (j : Job) (e : ExchRec) (dst : BitVec 14) (seq part round value : Nat) (payload : Bytes) : Prop where
  dst     : a.dst = dst.setWidth 16
  exch    : a.exch = e.exch
  job     : a.job = j.job
  part    : a.part = BitVec.ofNat 32 part
  round   : a.round = BitVec.ofNat 32 round
  seq     : a.seq = BitVec.ofNat 64 seq
  value   : a.value = BitVec.ofNat 32 value
  payload : a.payload = payload

theorem sendSeq_sent {s : State} (hs : s.fab.stopped = false) (j : Job) (e : ExchRec) (t : BitVec 8) (dst : BitVec 14)
    (seq part round value : Nat) (payload : Bytes) : ∃ a, (s.sendSeq j e t dst seq part round value payload).sent =
      s.sent ++ [.fabric t a] ∧ OnStream a j e dst seq part round value payload := by
  refine ⟨s.newMsg t dst (j.exchClass e) e.exch j.job (BitVec.ofNat 32 part) (BitVec.ofNat 32 round) (BitVec.ofNat 64 seq)
    (BitVec.ofNat 32 value) payload, ?_, rfl, rfl, rfl, rfl, rfl, rfl, rfl, rfl⟩
  unfold State.sendSeq State.sendMsg
  dsimp only
  rw [hs, if_neg (by decide)]
  split <;> rfl

theorem sendSeq_modVal (s : State) (j : Job) (e : ExchRec) (t : BitVec 8) (dst : BitVec 14) (seq part round value : Nat)
    (payload : Bytes) {k : Nat} (hk : k ≠ 0x441002) :
    (s.sendSeq j e t dst seq part round value payload).modVal k 0 = s.modVal k 0 := by
  have quiet : ∀ m, (s.sendMsg t m).dict = s.dict := fun m => by
    unfold State.sendMsg
    split
    · rfl
    · dsimp only
      split <;> rfl
  unfold State.sendSeq
  rw [modVal_bump, if_neg hk, Nat.add_zero]
  unfold State.modVal
  rw [quiet]

/-- A message of the stream leaves with the exchange as it stands. -/
theorem Turns.send {id : BitVec 64} {n : Nat} {x y : Exch} {s t : State} (h : Turns id n x s t y) (hs : s.fab.stopped = false)
    (j : Job) (e : ExchRec) (type : BitVec 8) (dst : BitVec 14) (seq part round value : Nat) (payload : Bytes) :
    let u := t.sendSeq j e type dst seq part round value payload
    Turns id n x s u y ∧ (∃ a, u.sent = t.sent ++ [.fabric type a] ∧ OnStream a j e dst seq part round value payload) ∧
      ∀ k, k ≠ 0x441002 → u.modVal k 0 = t.modVal k 0 :=
  have stopped : t.fab.stopped = false := by rw [h.only.1]; exact hs
  ⟨h.posts (sendSeq_posts ..), sendSeq_sent stopped .., fun _ hk => sendSeq_modVal t j e type dst seq part round value payload hk⟩

/-- The stream to a module has given out its next SEQ. -/
@[simps] def Exch.numbered (x : Exch) (dst : BitVec 14) : Exch := { x with txSeq := Assoc.set 0 x.txSeq dst.toNat (x.nextSeq dst) }

/-- A message of a stream has been taken: its SEQ is the last one, and nothing has been asked for since. -/
def Exch.accepted (x : Exch) (m : Msg) : Exch :=
  { x with rxSeq := Assoc.set 0 x.rxSeq (streamKey m) m.seq.toNat, asks := Assoc.set 0 x.asks m.from.toNat 0 }

/-- Rows have come and are counted, for their partition and for their holder's round. -/
def Exch.received (x : Exch) (t : RxRows) : Exch :=
  { x with rowsIn := Assoc.set 0 x.rowsIn t.part (Assoc.get 0 x.rowsIn t.part + t.rows),
           got := (t.src, t.round, x.rowsFrom t.src t.round + t.rows) :: x.gotBut t.src t.round }

/-- A credit has gone back to a source, under the next SEQ of the stream to it. -/
def Exch.returned (x : Exch) (src : BitVec 14) (p : Nat) : Exch := (x.setCredit src p (x.creditOf src p + 1)).numbered src

@[simp] theorem numbered_sameKey {x z : Exch} (dst : BitVec 14) : (x.numbered dst).SameKey z ↔ x.SameKey z := Iff.rfl

@[simp] theorem accepted_sameKey {x z : Exch} (m : Msg) : (x.accepted m).SameKey z ↔ x.SameKey z := Iff.rfl

@[simp] theorem sameKey_accepted {x z : Exch} (m : Msg) : z.SameKey (x.accepted m) ↔ z.SameKey x := Iff.rfl

@[simp] theorem received_sameKey {x z : Exch} (t : RxRows) : (x.received t).SameKey z ↔ x.SameKey z := Iff.rfl

@[simp] theorem numbered_creditOf (x : Exch) (dst src : BitVec 14) (p : Nat) : (x.numbered dst).creditOf src p = x.creditOf src p := rfl

@[simp] theorem returned_staged (x : Exch) (src : BitVec 14) (p : Nat) : (x.returned src p).staged = x.staged := rfl
@[simp] theorem returned_slots (x : Exch) (src : BitVec 14) (p : Nat) : (x.returned src p).slots = x.slots := rfl

@[simp] theorem returned_sameKey {x z : Exch} (src : BitVec 14) (p : Nat) : (x.returned src p).SameKey z ↔ x.SameKey z := Iff.rfl

@[simp] theorem creditOf_setCredit (x : Exch) (src : BitVec 14) (p n : Nat) : (x.setCredit src p n).creditOf src p = n := by
  simp [Exch.creditOf, Exch.setCredit]

@[simp] theorem creditOf_returned (x : Exch) (src : BitVec 14) (p : Nat) : (x.returned src p).creditOf src p = x.creditOf src p + 1 :=
  creditOf_setCredit ..

@[simp] theorem rowsFrom_received (x : Exch) (t : RxRows) : (x.received t).rowsFrom t.src t.round = x.rowsFrom t.src t.round + t.rows := by
  simp [Exch.rowsFrom, Exch.received]

@[simp] theorem rowsFrom_accepted (x : Exch) (m : Msg) (src : BitVec 14) (r : Nat) : (x.accepted m).rowsFrom src r = x.rowsFrom src r := rfl

section
variable {s : State} {j : Job} {e : ExchRec} {x : Exch} (h : s.exch? j.job e.exch.toNat = some x)
include h

theorem sendSlurry_eq (t : BitVec 8) (dst : BitVec 14) (part round value : Nat) (payload : Bytes) :
    s.sendSlurry j e t dst part round value payload =
      (s.setExch (x.numbered dst)).sendSeq j e t dst (x.nextSeq dst) part round value payload := by
  unfold State.sendSlurry
  rw [h]
  rfl

theorem sendSlurry_setExch (y : Exch) (hk : y.SameKey x) (t : BitVec 8) (dst : BitVec 14) (part round value : Nat)
    (payload : Bytes) : (s.setExch y).sendSlurry j e t dst part round value payload =
      (s.setExch (y.numbered dst)).sendSeq j e t dst (y.nextSeq dst) part round value payload := by
  rw [sendSlurry_eq (exch?_setExch h hk), setExch_setExch s y (y.numbered dst) (by simp)]

theorem returnCredit_setExch (y : Exch) (hk : y.SameKey x) {src : BitVec 14} (hsrc : src ≠ s.self) (p : Nat) :
    (s.setExch y).returnCredit j e src p =
      (s.setExch (y.returned src p)).sendSeq j e 0x12 src (y.nextSeq src) p 0 1 [] := by
  unfold State.returnCredit
  rw [exch?_setExch h hk]
  dsimp only
  rw [if_neg (show ¬ src = (s.setExch y).self from hsrc), setExch_setExch s y (y.setCredit ..) (by simp)]
  exact sendSlurry_setExch h (y.setCredit ..) hk ..

theorem acceptSeq_eq (m : Msg) : s.acceptSeq j e m = (s.bump 0x441003 1).setExch (x.accepted m) := by
  unfold State.acceptSeq
  rw [h]
  rfl

theorem exch?_acceptSeq (m : Msg) : (s.acceptSeq j e m).exch? j.job e.exch.toNat = some (x.accepted m) := by
  rw [acceptSeq_eq h]
  exact exch?_setExch h (by simp)

end

/-! #### Rows that come (R191, R192) -/

/-- Rows go into staging, or stay in their slot. -/
@[simps] def Exch.stage (x : Exch) (t : RxRows) : Exch := { x with staged := x.staged ++ [t] }
@[simps] def Exch.hold (x : Exch) (t : RxRows) : Exch := { x with slots := x.slots ++ [t] }

@[simp] theorem stage_creditOf (x : Exch) (t : RxRows) (src : BitVec 14) (p : Nat) : (x.stage t).creditOf src p = x.creditOf src p := rfl
@[simp] theorem hold_creditOf (x : Exch) (t : RxRows) (src : BitVec 14) (p : Nat) : (x.hold t).creditOf src p = x.creditOf src p := rfl

@[simp] theorem stage_sameKey {x z : Exch} (t : RxRows) : (x.stage t).SameKey z ↔ x.SameKey z := Iff.rfl

@[simp] theorem hold_sameKey {x z : Exch} (t : RxRows) : (x.hold t).SameKey z ↔ x.SameKey z := Iff.rfl

/-- What is spilled depends on the jobs and on what the exchanges have staged. -/
theorem spilled_setExch_congr {s t : State} {y z : Exch} (hjobs : t.hb.jobs = s.hb.jobs) (ht : t.slurry = (s.setExch y).slurry)
    (hk : y.SameKey z) (hs : y.staged = z.staged) : t.spilled = (s.setExch z).spilled := by
  obtain ⟨hjob, hexch⟩ := hk
  have job : t.job? = (s.setExch z).job? := funext fun id => by
    unfold State.job?
    rw [setExch_hb, hjobs]
  unfold State.spilled
  rw [job, ht]
  unfold State.setExch
  dsimp only
  rw [List.foldl_map, List.foldl_map]
  refine List.foldl_ext _ _ _ (fun a w _ => ?_)
  by_cases hw : w.job = z.job ∧ w.exch = z.exch
  · simp [hw, hjob, hexch, hs]
  · simp [hw, hjob, hexch]

section
variable {s : State} {j : Job} {e : ExchRec} {x : Exch} {t : RxRows} (h : s.exch? j.job e.exch.toNat = some x)
include h

/-- A credit goes back to the source of rows just staged, and the spill has room (R192). -/
theorem returnCredit_settles (y z : Exch) (hy : y.SameKey x) (hz : z.SameKey x) (hs : y.staged = z.staged) {src : BitVec 14} {p : Nat}
    (hsrc : src ≠ s.self) (hspill : (s.setExch z).spilled ≤ Config.spillBytes) (id : BitVec 64) :
    (let u := (s.setExch y).returnCredit j e src p
     if Config.spillBytes < u.spilled then u.stopJob id 0x0412 else u) =
      (s.setExch (y.returned src p)).sendSeq j e 0x12 src (y.nextSeq src) p 0 1 [] := by
  have posts := sendSeq_posts (s.setExch (y.returned src p)) j e 0x12 src (y.nextSeq src) p 0 1 []
  have room := spilled_setExch_congr (s := s) (y := y.returned src p) (z := z) (congrArg Headbox.jobs posts.hb) posts.slurry
    ⟨hy.1.trans hz.1.symm, hy.2.trans hz.2.symm⟩ hs
  dsimp only
  rw [returnCredit_setExch h y hy hsrc, if_neg (by rw [room]; exact Nat.not_lt.mpr hspill)]

/-- Rows whose holder has not ended their round are counted; staging takes those of an open round. -/
theorem takeRows_setExch (y : Exch) (hk : y.SameKey x) (hn : y.hasRound t = false) :
    (s.setExch y).takeRows j e t = if y.isOpen e t.part t.round then
      let u := (s.setExch ((y.received t).stage t)).returnCredit j e t.src t.part
      if Config.spillBytes < u.spilled then u.stopJob j.job 0x0412 else u
    else s.setExch ((y.received t).hold t) := by
  unfold State.takeRows
  rw [exch?_setExch h hk, ← setExch_setExch s y ((y.received t).stage t) (by simp),
    ← setExch_setExch s y ((y.received t).hold t) (by simp)]
  dsimp only
  rw [hn]
  rfl

end

/-! #### A message that reaches its exchange (R189, R194, R195) -/

/-- A message in service, for this module and an exchange it runs, its sender not fenced and its fields good. -/
structure Reaches (s : State) (t : BitVec 8) (m : Msg) (j : Job) (e : ExchRec) (x : Exch) : Prop where
  up     : s.rst.boot = .ready
  comes  : Arrives t m
  here   : m.to = s.straps.modid
  gen    : (s.genOf m.from).toNat ≤ m.gen.toNat
  job    : s.job? m.job = some j
  rec'   : j.exch? m.exch.toNat = some e
  exch   : s.exch? m.job m.exch.toNat = some x
  fields : slurryFields t m = true

theorem Receives.reaches {s : State} {t : BitVec 8} {m : Msg} {j : Job} {e : ExchRec} {x : Exch} (h : Receives s t m j e x) :
    Reaches s t m j e x :=
  ⟨h.up, h.comes, h.here, h.gen, h.job, h.exch.1, h.exch.2, h.fields.1⟩

section
variable {s : State} {t : BitVec 8} {m : Msg} {j : Job} {e : ExchRec} {x : Exch}

/-- The record and the state of an exchange are found by one number. -/
theorem exch?_of_records {id : BitVec 64} {n : Nat} (hj : s.job? id = some j) (he : j.exch? n = some e)
    (hx : s.exch? id n = some x) : j.job = id ∧ e.exch.toNat = n ∧ x.exch.toNat = n ∧ e.exch.setWidth 4 = x.exch := by
  have hn : e.exch.toNat = n := by simpa using List.find?_some he
  have hxn : x.job = id ∧ x.exch.toNat = n := by simpa using List.find?_some hx
  refine ⟨job?_job hj, hn, hxn.2, BitVec.eq_of_toNat_eq ?_⟩
  have := x.exch.isLt
  rw [BitVec.toNat_setWidth, hn]
  omega

theorem Reaches.listed (h : Reaches s t m j e x) : s.exch? j.job e.exch.toNat = some x := by
  obtain ⟨hjob, hexch, -⟩ := exch?_of_records h.job h.rec' h.exch
  rw [hjob, hexch]
  exact h.exch

/-- What the CRC and the SEQ of a message that reaches its exchange decide (R195). -/
theorem takeSlurry_of_reaches (h : Reaches s t m j e x) (f : Job → ExchRec → State → State) : s.takeSlurry t m f =
    if m.crc ≠ m.check t then s.askResend j e m.from
    else if m.seq.toNat ≤ Assoc.get 0 x.rxSeq (streamKey m) then s
    else if Assoc.get 0 x.rxSeq (streamKey m) + 1 < m.seq.toNat then s.askResend j e m.from
    else f j e s := by
  obtain ⟨hup, hcomes, hhere, hgen, hjob, hrec, hexch, hfields⟩ := h
  have check : s.checkSlurry t m =
      if m.crc ≠ m.check t then .resend j e
      else if m.seq.toNat ≤ Assoc.get 0 x.rxSeq (streamKey m) then .duplicate
      else if Assoc.get 0 x.rxSeq (streamKey m) + 1 < m.seq.toNat then .resend j e
      else .good j e := by
    simp [State.checkSlurry, State.self, hhere, Nat.not_lt.mpr hgen, hjob, hrec, hexch, hfields]
  unfold State.takeSlurry
  rw [if_neg (by simp [State.up, hup]), arrives_of_arrives hcomes, check]
  split_ifs <;> rfl

theorem takeSlurry_of_receives (h : Receives s t m j e x) (f : Job → ExchRec → State → State) : s.takeSlurry t m f = f j e s := by
  have seq := h.seq
  rw [takeSlurry_of_reaches h.reaches, if_neg (not_not.mpr h.fields.2), if_neg (by omega), if_neg (by omega)]

/-- One more resend has been asked of a module. -/
def Exch.asking (x : Exch) (src : BitVec 14) : Exch :=
  { x with asks := Assoc.set 0 x.asks src.toNat (Assoc.get 0 x.asks src.toNat + 1) }

@[simp] theorem asking_sameKey {z : Exch} (src : BitVec 14) : (x.asking src).SameKey z ↔ x.SameKey z := Iff.rfl

/-- A request for a resend, while fewer than three have been made (R195). -/
theorem askResend_eq (h : s.exch? j.job e.exch.toNat = some x) {src : BitVec 14} (ha : Assoc.get 0 x.asks src.toNat < 3) :
    s.askResend j e src = (s.setExch (x.asking src)).emit (.resend src j.job (e.exch.setWidth 4)) := by
  unfold State.askResend
  rw [h]
  exact if_neg (Nat.not_le.mpr ha)

end

end Sys2Proof.Machine

/-! ### O29: what a receiver does with each Slurry message (R189 to R196) -/

namespace Sys2Proof.Machine

open Sys2Proof

section
variable {s : State} {m : Msg} {j : Job} {e : ExchRec} {x y : Exch}

/-- A message taken and counted, with the exchange then as y. -/
theorem Receives.turns {t : BitVec 8} (h : Receives s t m j e x) (hk : y.SameKey x) :
    Turns m.job m.exch.toNat x s ((s.bump 0x441003 1).setExch y) y :=
  ((Turns.refl h.exch.2).posts (bump_posts s 0x441003 1)).setExch hk

theorem bump_counted (s : State) (key : Nat) : (s.bump key 1).modVal key 0 = s.modVal key 0 + 1 := by
  rw [modVal_bump, if_pos rfl]

/-! #### DATA (R188 to R192) -/

/-- The rows that a DATA message carries. -/
def dataRows (m : Msg) : RxRows :=
  { src := m.from, part := m.part.toNat, round := m.round.toNat, rows := m.value.toNat, bytes := m.payload }

/-- A DATA message has been taken, for a credit, and its rows counted. -/
def Exch.paid (x : Exch) (m : Msg) : Exch := (x.accepted m).setCredit m.from m.part.toNat (x.creditOf m.from m.part.toNat - 1)
def Exch.counted (x : Exch) (m : Msg) : Exch := (x.paid m).received (dataRows m)

@[simp] theorem paid_sameKey {z : Exch} : (x.paid m).SameKey z ↔ x.SameKey z := Iff.rfl
@[simp] theorem counted_sameKey {z : Exch} : (x.counted m).SameKey z ↔ x.SameKey z := Iff.rfl

/-- What taking a DATA message comes to beside staging, slots and credits. -/
structure Counts (x : Exch) (m : Msg) (y : Exch) : Prop where
  rxSeq    : y.rxSeq = Assoc.set 0 x.rxSeq (streamKey m) m.seq.toNat
  asks     : y.asks = Assoc.set 0 x.asks m.from.toNat 0
  rowsIn   : Assoc.get 0 y.rowsIn m.part.toNat = Assoc.get 0 x.rowsIn m.part.toNat + m.value.toNat
  rowsFrom : y.rowsFrom m.from m.round.toNat = x.rowsFrom m.from m.round.toNat + m.value.toNat
  pool     : y.pool = x.pool
  retained : y.retained = x.retained
  ended    : y.ended = x.ended
  credits  : y.credits = x.credits

theorem counted_counts (x : Exch) (m : Msg) : Counts x m (x.counted m) where
  rxSeq := rfl
  asks := rfl
  rowsIn := (Assoc.get_set ..).trans (if_pos rfl)
  rowsFrom := rowsFrom_received (x.paid m) (dataRows m)
  pool := rfl
  retained := rfl
  ended := rfl
  credits := rfl

theorem Counts.stage (h : Counts x m y) (t : RxRows) : Counts x m (y.stage t) := { h with }
theorem Counts.hold (h : Counts x m y) (t : RxRows) : Counts x m (y.hold t) := { h with }
theorem Counts.returned (h : Counts x m y) (src : BitVec 14) (p : Nat) : Counts x m (y.returned src p) := { h with }

@[simp] theorem counted_creditOf (x : Exch) (m : Msg) :
    (x.counted m).creditOf m.from m.part.toNat = x.creditOf m.from m.part.toNat - 1 := creditOf_setCredit ..

@[simp] theorem counted_staged (x : Exch) (m : Msg) : (x.counted m).staged = x.staged := rfl
@[simp] theorem counted_slots (x : Exch) (m : Msg) : (x.counted m).slots = x.slots := rfl

theorem isOpen_iff (x : Exch) (e : ExchRec) (p r : Nat) :
    x.isOpen e p r = true ↔ Assoc.get 0 x.base p ≤ r ∧ r < Assoc.get 0 x.base p + e.roundsAhead := by
  simp [Exch.isOpen]

/-- Rows do not come twice while their holder has not ended their round. -/
theorem hasRound_eq_false {t : RxRows} (h : ∀ g ∈ x.ended, g.1 = t.src → g.2.1 ≠ t.round) : x.hasRound t = false := by
  have none : x.ended.any (fun g => g.1 = t.src && g.2.1 = t.round) = false := by simpa using h
  rw [Exch.hasRound, none, Bool.false_and]

/-- A DATA message that its exchange takes: whole rows of a partition homed here, for a credit, from another module that has not ended
their round. -/
structure TakesData (s : State) (m : Msg) (j : Job) (e : ExchRec) (x : Exch) : Prop where
  receives : Receives s 0x10 m j e x
  whole    : m.value.toNat * e.rowBytes = m.payload.length
  fits     : m.value.toNat ≤ 8128 / e.rowBytes
  home     : e.flags.getLsbD 1 = true ∨ Assoc.get s.straps.modid x.homes m.part.toNat = s.straps.modid
  credit   : 1 ≤ x.creditOf m.from m.part.toNat
  source   : m.from ≠ s.straps.modid
  new      : x.hasRound (dataRows m) = false

theorem exec_data (h : TakesData s m j e x) :
    exec (.data m) s = .next (((s.bump 0x441003 1).setExch (x.paid m)).takeRows j e (dataRows m)) := by
  obtain ⟨hr, hwhole, hfits, hhome, hcredit, -, -⟩ := h
  have listed := hr.reaches.listed
  refine congrArg Host.Outcome.next ((takeSlurry_of_receives hr _).trans ?_)
  unfold State.takeData
  rw [listed]
  dsimp only
  rw [if_neg (by simp [hwhole, Nat.not_lt.mpr hfits]), if_neg (by rcases hhome with hb | hh <;> simp [State.self, *]),
    if_neg (by omega), exch?_acceptSeq listed]
  dsimp only
  rw [acceptSeq_eq listed]
  exact congrArg (State.takeRows · j e (dataRows m)) (setExch_setExch _ (x.accepted m) (x.paid m) (by simp))

/-- R191: rows of an open round are staged, and their credit goes back. -/
theorem exec_data_open (h : TakesData s m j e x) (hstop : s.fab.stopped = false)
    (ho : x.isOpen e m.part.toNat m.round.toNat = true) (hspill : (s.setExch (x.stage (dataRows m))).spilled ≤ Config.spillBytes) :
    ∃ t a seq, exec (.data m) s = .next t ∧
      Turns m.job m.exch.toNat x s t (((x.counted m).stage (dataRows m)).returned m.from m.part.toNat) ∧
      t.modVal 0x441003 0 = s.modVal 0x441003 0 + 1 ∧
      t.sent = s.sent ++ [.fabric 0x12 a] ∧ OnStream a j e m.from seq m.part.toNat 0 1 [] := by
  have listed : (s.bump 0x441003 1).exch? j.job e.exch.toNat = some x := h.receives.reaches.listed
  have room : ((s.bump 0x441003 1).setExch (x.stage (dataRows m))).spilled ≤ Config.spillBytes :=
    (spilled_setExch_congr (s := s) (t := (s.bump 0x441003 1).setExch (x.stage (dataRows m))) rfl rfl (.refl _) rfl).trans_le hspill
  have rows := takeRows_setExch listed (x.paid m) (by simp) h.new
  rw [if_pos (show (x.paid m).isOpen e (dataRows m).part (dataRows m).round = true from ho)] at rows
  have settled := returnCredit_settles listed ((x.counted m).stage (dataRows m)) (x.stage (dataRows m)) (by simp) (by simp) rfl
    h.source room j.job (p := m.part.toNat)
  obtain ⟨turn, ⟨a, sent, msg⟩, counts⟩ := (h.receives.turns (y := ((x.counted m).stage (dataRows m)).returned m.from m.part.toNat)
    (by simp)).send hstop j e 0x12 m.from _ m.part.toNat 0 1 []
  exact ⟨_, a, _, (exec_data h).trans (congrArg Host.Outcome.next (rows.trans settled)), turn,
    (counts _ (by decide)).trans (bump_counted s _), sent, msg⟩

/-- R191: rows of a later round stay in their slot, and their credit with them. -/
theorem exec_data_later (h : TakesData s m j e x) (ho : ¬ x.isOpen e m.part.toNat m.round.toNat = true) :
    exec (.data m) s = .next ((s.bump 0x441003 1).setExch ((x.counted m).hold (dataRows m))) := by
  have listed : (s.bump 0x441003 1).exch? j.job e.exch.toNat = some x := h.receives.reaches.listed
  rw [exec_data h, takeRows_setExch listed (x.paid m) (by simp) h.new,
    if_neg (show ¬ (x.paid m).isOpen e (dataRows m).part (dataRows m).round = true from ho)]
  rfl

/-- The one message held has moved into staging. -/
@[simps] def Exch.copied (x : Exch) (t : RxRows) : Exch := { x with staged := x.staged ++ [t], slots := [] }

@[simp] theorem copied_creditOf (x : Exch) (t : RxRows) (src : BitVec 14) (p : Nat) : (x.copied t).creditOf src p = x.creditOf src p := rfl

@[simp] theorem copied_sameKey {z : Exch} (t : RxRows) : (x.copied t).SameKey z ↔ x.SameKey z := Iff.rfl

/-- R191: the one message held is of a round now open. -/
theorem exec_slurryStageCopy {t : RxRows} {exch : BitVec 4} {part : BitVec 32} {job : BitVec 64} (hj : s.job? job = some j)
    (he : j.exch? exch.toNat = some e) (hx : s.exch? job exch.toNat = some x) (hs : x.slots = [t]) (hp : t.part = part.toNat)
    (ho : x.isOpen e t.part t.round = true) (hsrc : t.src ≠ s.self) (hspill : (s.setExch (x.copied t)).spilled ≤ Config.spillBytes) :
    exec (.slurryStageCopy job exch part) s = .next
      ((s.setExch ((x.copied t).returned t.src t.part)).sendSeq j e 0x12 t.src ((x.copied t).nextSeq t.src) t.part 0 1 []) := by
  obtain ⟨hjob, hexch, -⟩ := exch?_of_records hj he hx
  have listed : s.exch? j.job e.exch.toNat = some x := by rw [hjob, hexch]; exact hx
  have first : x.slots.find? (fun t => t.part = part.toNat && x.isOpen e t.part t.round) = some t := by
    rw [hs]
    exact List.find?_cons_of_pos (by simp [← hp, ho])
  have moved : { x with slots := x.slots.erase t, staged := x.staged ++ [t] } = x.copied t := by
    rw [hs]
    simp [Exch.copied]
  show execSlurryStageCopy job exch part s = _
  unfold execSlurryStageCopy
  rw [hj]
  dsimp only
  rw [he, hx]
  dsimp only
  rw [first]
  dsimp only
  rw [moved]
  exact congrArg Host.Outcome.next (returnCredit_settles listed (x.copied t) (x.copied t) (by simp) (by simp) rfl hsrc hspill job)

/-! #### Ends of rounds, credits, and rows that are done -/

/-- A holder has ended a round. -/
def Exch.closed (x : Exch) (src : BitVec 14) (r rows : Nat) : Exch :=
  { x with got := x.gotBut src r, ended := (src, r, rows) :: x.ended.filter (fun g => !(g.1 = src && g.2.1 = r)),
           awaits := x.awaits.filter (fun a => a.2 ≠ (src, r)) }

@[simp] theorem closed_sameKey {x z : Exch} (src : BitVec 14) (r rows : Nat) : (x.closed src r rows).SameKey z ↔ x.SameKey z := Iff.rfl

/-- A source has more credits for a partition. -/
def Exch.credited (x : Exch) (m : Msg) : Exch :=
  let k := creditKey m.from m.part.toNat
  { x with credits := Assoc.set 1 x.credits k (Assoc.get 1 x.credits k + m.value.toNat),
           creditAsked := x.creditAsked.filter (· ≠ k) }

@[simp] theorem credited_sameKey {x z : Exch} (m : Msg) : (x.credited m).SameKey z ↔ x.SameKey z := Iff.rfl

theorem takeEnd_eq (h : s.exch? j.job e.exch.toNat = some x) (src : BitVec 14) (r rows : Nat) : s.takeEnd j e src r rows =
    if x.rowsFrom src r ≠ rows then s.stopJob j.job 0x0413 else s.setExch (x.closed src r rows) := by
  unfold State.takeEnd
  rw [h]
  rfl

/-- R193: the rows of the round are those that have come. -/
theorem exec_roundEnd_good (h : Receives s 0x11 m j e x) (hr : x.rowsFrom m.from m.round.toNat = m.value.toNat) :
    exec (.roundEnd m) s = .next ((s.bump 0x441003 1).setExch ((x.accepted m).closed m.from m.round.toNat m.value.toNat)) := by
  have listed := h.reaches.listed
  refine congrArg Host.Outcome.next ((takeSlurry_of_receives h _).trans ?_)
  rw [takeEnd_eq (exch?_acceptSeq listed m), rowsFrom_accepted, if_neg (not_not.mpr hr), acceptSeq_eq listed]
  exact setExch_setExch _ (x.accepted m) ((x.accepted m).closed ..) (by simp)

/-- R193: a count that differs stops the job. -/
theorem exec_roundEnd_bad (h : Receives s 0x11 m j e x) (hr : x.rowsFrom m.from m.round.toNat ≠ m.value.toNat) (hs : j.stopped = none) :
    ∃ t u, exec (.roundEnd m) s = .next t ∧ StopsJob u t m.job 0x0413 := by
  have listed := h.reaches.listed
  have id := job?_job h.job
  refine ⟨_, s.acceptSeq j e m, congrArg Host.Outcome.next ((takeSlurry_of_receives h _).trans ?_), stopJob_stops (j := j) ?_ hs _⟩
  · rw [takeEnd_eq (exch?_acceptSeq listed m), rowsFrom_accepted, if_pos hr, id]
  · rw [acceptSeq_eq listed]
    exact h.job

theorem exec_credit (h : Receives s 0x12 m j e x) :
    exec (.credit m) s = .next ((s.bump 0x441003 1).setExch ((x.accepted m).credited m)) := by
  have listed := h.reaches.listed
  refine congrArg Host.Outcome.next ((takeSlurry_of_receives h _).trans ?_)
  unfold State.takeCredit
  dsimp only
  rw [exch?_acceptSeq listed, acceptSeq_eq listed]
  exact setExch_setExch _ (x.accepted m) ((x.accepted m).credited m) (by simp)

/-- The credits that CREDIT_REQ grants: what is asked, up to CREDIT_MAX beside the reserved one (R190). -/
def Exch.grants (x : Exch) (e : ExchRec) (m : Msg) : Nat :=
  let room := 1 + e.creditMax - (x.creditOf m.from m.part.toNat +
    (x.slots.filter (fun t => t.src = m.from && t.part = m.part.toNat)).length)
  if m.value.toNat < room then m.value.toNat else room

/-- The exchange with those credits granted. -/
def Exch.granting (x : Exch) (e : ExchRec) (m : Msg) : Exch :=
  (x.accepted m).setCredit m.from m.part.toNat (x.creditOf m.from m.part.toNat + x.grants e m)

@[simp] theorem granting_sameKey {x z : Exch} (e : ExchRec) (m : Msg) : (x.granting e m).SameKey z ↔ x.SameKey z := Iff.rfl

@[simp] theorem granting_slots (x : Exch) (e : ExchRec) (m : Msg) : (x.granting e m).slots = x.slots := rfl
@[simp] theorem granting_staged (x : Exch) (e : ExchRec) (m : Msg) : (x.granting e m).staged = x.staged := rfl
@[simp] theorem granting_creditOf (x : Exch) (e : ExchRec) (m : Msg) :
    (x.granting e m).creditOf m.from m.part.toNat = x.creditOf m.from m.part.toNat + x.grants e m := creditOf_setCredit ..

theorem grants_eq_min (x : Exch) (e : ExchRec) (m : Msg) : x.grants e m =
    min m.value.toNat (1 + e.creditMax - (x.creditOf m.from m.part.toNat +
      (x.slots.filter (fun t => t.src = m.from && t.part = m.part.toNat)).length)) := by
  unfold Exch.grants
  dsimp only
  split <;> omega

theorem grantCredit_eq (h : s.exch? j.job e.exch.toNat = some x) : s.grantCredit m j e = if x.grants e m = 0 then s.acceptSeq j e m
    else ((s.acceptSeq j e m).setExch (x.granting e m)).sendSlurry j e 0x12 m.from m.part.toNat 0 (x.grants e m) [] := by
  unfold State.grantCredit
  dsimp only
  rw [exch?_acceptSeq h]
  rfl

theorem exec_creditReq (h : Receives s 0x13 m j e x) (hg : 1 ≤ x.grants e m) : exec (.creditReq m) s = .next
    (((s.bump 0x441003 1).setExch ((x.granting e m).numbered m.from)).sendSeq j e 0x12 m.from ((x.granting e m).nextSeq m.from)
      m.part.toNat 0 (x.grants e m) []) := by
  have listed := h.reaches.listed
  have counted : (s.bump 0x441003 1).exch? j.job e.exch.toNat = some x := listed
  refine congrArg Host.Outcome.next ((takeSlurry_of_receives h _).trans ?_)
  rw [grantCredit_eq listed, if_neg (by omega), acceptSeq_eq listed, setExch_setExch _ (x.accepted m) (x.granting e m) (by simp),
    sendSlurry_setExch counted (x.granting e m) (by simp)]

/-- R196: with no item that waits for its rows to go. -/
theorem exec_roundDone (h : Receives s 0x14 m j e x) (hi : s.hb.items = []) :
    exec (.roundDone m) s = .next ((s.bump 0x441003 1).setExch ((x.accepted m).noteDone m.from m.part.toNat m.round.toNat)) := by
  have listed := h.reaches.listed
  have still : ∀ t : State, t.hb.items = [] → t.sweep j.job = t := fun t ht => by
    unfold State.sweep
    rw [ht]
    split <;> rfl
  refine congrArg Host.Outcome.next ((takeSlurry_of_receives h _).trans ?_)
  unfold State.takeDone
  dsimp only
  rw [exch?_acceptSeq listed, acceptSeq_eq listed]
  dsimp only
  rw [setExch_setExch _ (x.accepted m) ((x.accepted m).noteDone ..) (by simp)]
  exact still _ hi

/-- R195: the rows of the five message types come to the same checks. -/
theorem exec_slurryMsg {i : BitVec 8 × Instr} (hi : i ∈ [((0x10 : BitVec 8), Instr.data m), (0x11, .roundEnd m), (0x12, .credit m),
    (0x13, .creditReq m), (0x14, .roundDone m)]) : ∃ f, exec i.2 s = .next (s.takeSlurry i.1 m f) := by
  simp only [List.mem_cons, List.not_mem_nil, or_false] at hi
  rcases hi with rfl | rfl | rfl | rfl | rfl <;> exact ⟨_, rfl⟩

end

/-- Settles O29: each message turns its exchange alone, as the equations of the five messages above say; what a receiver finds
wrong with one comes before that. -/
theorem slurryReceiving : Obligations.SlurryReceiving := by
  unfold Obligations.SlurryReceiving
  intro s m j e x here p r n row staged took counted
  refine ⟨fun h hlen hfit hhome hcredit hsrc hstop hended hspill => ?_, fun h => ⟨fun hrows => ?_, fun hrows hs => ?_⟩, fun h => ?_,
    fun h hstop => ?_, fun h hi => ?_, fun i hi hup hcomes hto hgen hj he hx hf => ?_,
    fun hj he hx hsrc hstop hslots ho hspill => ?_⟩
  · have same : row = dataRows m := rfl
    have takes : TakesData s m j e x := ⟨h, hlen, hfit, hhome, hcredit, hsrc, hasRound_eq_false hended⟩
    by_cases ho : x.isOpen e p r = true
    · obtain ⟨t, a, seq, run, turn, count, sent, msg⟩ := exec_data_open takes hstop ho hspill
      have c := ((counted_counts x m).stage (dataRows m)).returned m.from p
      refine ⟨t, _, run, turn.here, turn.only, count, c.rxSeq, c.asks, c.rowsIn, c.rowsFrom, c.pool, c.retained, c.ended, c.credits,
        fun _ => ⟨by simp [same], by simp, ?_, a, sent, msg.dst, msg.part.trans (BitVec.ofNat_toNat ..), msg.value⟩,
        fun hs => absurd ((isOpen_iff ..).mp ho) hs⟩
      simpa [p] using Nat.sub_add_cancel hcredit
    · have turn := h.turns (y := (x.counted m).hold (dataRows m)) (by simp)
      have c := (counted_counts x m).hold (dataRows m)
      exact ⟨_, _, exec_data_later takes ho, turn.here, turn.only, bump_counted s _, c.rxSeq, c.asks, c.rowsIn, c.rowsFrom, c.pool,
        c.retained, c.ended, c.credits, fun hs => absurd ((isOpen_iff ..).mpr hs) ho,
        fun _ => ⟨by simp, by simp [same], by simp [p], rfl⟩⟩
  · have turn := h.turns (y := (x.accepted m).closed m.from r n) (by simp)
    exact ⟨_, exec_roundEnd_good h hrows, turn.only, bump_counted s _, rfl, turn.here⟩
  · obtain ⟨t, u, run, stops⟩ := exec_roundEnd_bad h hrows hs
    exact ⟨t, run, stops.logged, stops.stopped⟩
  · have turn := h.turns (y := (x.accepted m).credited m) (by simp)
    exact ⟨_, exec_credit h, turn.only, bump_counted s _, rfl, turn.here⟩
  · intro held more hmore
    have least : x.grants e m = more := grants_eq_min x e m
    obtain ⟨turn, ⟨a, sent, msg⟩, counts⟩ := (h.turns (y := (x.granting e m).numbered m.from) (by simp)).send hstop j e 0x12 m.from
      ((x.granting e m).nextSeq m.from) p 0 (x.grants e m) []
    exact ⟨_, _, a, exec_creditReq h (least ▸ hmore), turn.here, turn.only, (counts _ (by decide)).trans (bump_counted s _),
      by simp [p, least], by simp, by simp, sent, msg.dst, msg.part.trans (BitVec.ofNat_toNat ..), least ▸ msg.value⟩
  · have turn := h.turns (y := (x.accepted m).noteDone m.from p r) (by simp)
    exact ⟨_, exec_roundDone h hi, turn.only, bump_counted s _, rfl, turn.here⟩
  · intro last asked
    have h : Reaches s i.1 m j e x := ⟨hup, hcomes, hto, hgen, hj, he, hx, hf⟩
    obtain ⟨hjob, -, -, hexch⟩ := exch?_of_records hj he hx
    obtain ⟨f, run⟩ := exec_slurryMsg (s := s) hi
    rw [run, takeSlurry_of_reaches h]
    refine ⟨fun hcrc hseq => ?_, fun hbad hasked => ?_⟩
    · rw [if_neg (not_not.mpr hcrc), if_pos hseq]
    · have asks : (if m.crc ≠ m.check i.1 then s.askResend j e m.from else if m.seq.toNat ≤ last then s
          else if last + 1 < m.seq.toNat then s.askResend j e m.from else f j e s) = s.askResend j e m.from := by
        by_cases hcrc : m.crc ≠ m.check i.1
        · rw [if_pos hcrc]
        · have gap : last + 1 < m.seq.toNat := hbad.resolve_left hcrc
          rw [if_neg hcrc, if_neg (by omega), if_pos gap]
      have turn := ((Turns.refl hx).setExch (z := x.asking m.from) (by simp)).posts (emit_posts _ (.resend m.from m.job x.exch))
      exact ⟨_, congrArg Host.Outcome.next (asks.trans (hexch ▸ hjob ▸ askResend_eq h.listed hasked)), turn.only, rfl, turn.here⟩
  · obtain ⟨-, -, number, -⟩ := exch?_of_records hj he hx
    have copied := (Turns.refl hx).setExch (z := (x.copied row).returned m.from p) (by simp)
    obtain ⟨turn, ⟨a, sent, msg⟩, -⟩ := copied.send hstop j e 0x12 m.from ((x.copied row).nextSeq m.from) p 0 1 []
    exact ⟨_, _, a, exec_slurryStageCopy hj (number ▸ he) (number ▸ hx) hslots rfl ((isOpen_iff ..).mpr ho) hsrc hspill, turn.here,
      turn.only, by simp, by simp, by simp, sent, msg.dst, msg.part.trans (BitVec.ofNat_toNat ..), msg.value⟩

end Sys2Proof.Machine

/-! ### SLURRY_SEND: one message of a round (R187, R188, R190) -/

namespace Sys2Proof.Machine

open Sys2Proof

/-! #### Rows that leave the pool -/

theorem foldl_erase_subset (pool rows : List TxRow) : rows.foldl (fun l t => l.erase t) pool ⊆ pool :=
  List.diff_eq_foldl pool rows ▸ List.diff_subset pool rows

theorem foldl_erase_length {pool rows : List TxRow} (h : rows.Sublist pool) :
    (rows.foldl (fun l t => l.erase t) pool).length + rows.length = pool.length := by
  have both := (List.subperm_append_diff_self_of_count_le (fun t _ => h.count_le t)).length_eq
  rw [List.length_append, List.diff_eq_foldl] at both
  exact (Nat.add_comm ..).trans both

/-- Rows of a partition and round have been sent to a module, under the next SEQ and for a credit. -/
def Exch.sending (x : Exch) (dst : BitVec 14) (p r : Nat) (rows : List TxRow) : Exch :=
  { x with pool := rows.foldl (fun l t => l.erase t) x.pool,
           retained := x.retained ++ rows.map (fun t => (dst, { t with seq := x.nextSeq dst })),
           txRows := Assoc.set 0 x.txRows (txKey dst r) (Assoc.get 0 x.txRows (txKey dst r) + rows.length),
           credits := Assoc.set 1 x.credits (creditKey dst p) (Assoc.get 1 x.credits (creditKey dst p) - 1) }

/-- A round has been ended to a module. -/
@[simps] def Exch.ending (x : Exch) (dst : BitVec 14) (r : Nat) : Exch :=
  let next := Assoc.get 0 x.txRound dst.toNat
  { x with txRound := Assoc.set 0 x.txRound dst.toNat (if next < r + 1 then r + 1 else next),
           txRows := Assoc.erase x.txRows (txKey dst r), redo := x.redo.filter (fun d => !(d.1 = dst && d.2.2 = r)) }

/-- More credits have been asked for. -/
@[simps] def Exch.begging (x : Exch) (dst : BitVec 14) (p : Nat) : Exch := { x with creditAsked := x.creditAsked ++ [creditKey dst p] }

@[simp] theorem sending_sameKey {x z : Exch} (dst : BitVec 14) (p r : Nat) (rows : List TxRow) :
    (x.sending dst p r rows).SameKey z ↔ x.SameKey z := Iff.rfl
@[simp] theorem ending_sameKey {x z : Exch} (dst : BitVec 14) (r : Nat) : (x.ending dst r).SameKey z ↔ x.SameKey z := Iff.rfl
@[simp] theorem begging_sameKey {x z : Exch} (dst : BitVec 14) (p : Nat) : (x.begging dst p).SameKey z ↔ x.SameKey z := Iff.rfl

/-- The rows that a module is owed of the round that is sent to it, those of one of its partitions, and the partitions of which a
message can go. -/
def Exch.owed (x : Exch) (self dst : BitVec 14) : List TxRow := x.pool.filter (fun t => t.to x self = dst && t.round = x.sendRound dst)
def Exch.owedOf (x : Exch) (self dst : BitVec 14) (p : Nat) : List TxRow := (x.owed self dst).filter (fun t => t.part = p)
def State.sendable (s : State) (j : Job) (e : ExchRec) (x : Exch) (dst : BitVec 14) : List Nat :=
  ((x.owed s.self dst).map (·.part)).eraseDups.filter (fun p =>
    s.roundReady j e (x.sendRound dst) || e.msgRows ≤ (x.owedOf s.self dst p).length)
/-- ... and of these the ones for which there is a credit. -/
def State.payable (s : State) (j : Job) (e : ExchRec) (x : Exch) (dst : BitVec 14) : List Nat :=
  (s.sendable j e x dst).filter (fun p => dst = s.self || Assoc.get 1 x.credits (creditKey dst p) ≠ 0)

theorem setExch_self (s : State) (x : Exch) : (s.setExch x).self = s.self := rfl

section
variable {s : State} {j : Job} {e : ExchRec} {x : Exch} {dst : BitVec 14} {p : Nat}

theorem mem_sendable : p ∈ s.sendable j e x dst ↔
    x.owedOf s.self dst p ≠ [] ∧
      (s.roundReady j e (x.sendRound dst) = true ∨ 8128 / e.rowBytes ≤ (x.owedOf s.self dst p).length) := by
  have rows : (∃ t ∈ x.owed s.self dst, t.part = p) ↔ x.owedOf s.self dst p ≠ [] := by
    simp [Exch.owedOf, List.filter_eq_nil_iff]
  rw [State.sendable, List.mem_filter, List.mem_eraseDups, List.mem_map, rows, Bool.or_eq_true, decide_eq_true_eq]
  rfl

theorem mem_payable (hd : dst ≠ s.self) : p ∈ s.payable j e x dst ↔
    p ∈ s.sendable j e x dst ∧ Assoc.get 1 x.credits (creditKey dst p) ≠ 0 := by
  simp [State.payable, hd]

theorem owedOf_sublist (x : Exch) (self dst : BitVec 14) (p n : Nat) : ((x.owedOf self dst p).take n).Sublist x.pool :=
  (List.take_sublist ..).trans (List.filter_sublist.trans List.filter_sublist)

/-- A round is sent to a module: this module holds it and it is not past the exchange's last. -/
structure SendsRound (s : State) (j : Job) (e : ExchRec) (x : Exch) (n : Nat) (dst : BitVec 14) : Prop where
  job    : s.job? j.job = some j
  rec'   : j.exch? n = some e
  exch   : s.exch? j.job n = some x
  runs   : j.stopped = none
  dest   : (x.dests j e s.self).contains dst = true
  small  : s.broadcastBig j e = false
  round  : x.sendRound dst < j.rounds e
  holds  : (s.holders j e (x.sendRound dst)).contains s.self = true
  away   : dst ≠ s.self

theorem SendsRound.listed {n : Nat} (h : SendsRound s j e x n dst) : s.exch? j.job e.exch.toNat = some x := by
  rw [(exch?_of_records h.job h.rec' h.exch).2.1]
  exact h.exch

/-- R187, R188, R190: a message for a partition with a credit, or a request for credits, or the end of the round. -/
theorem exec_slurrySend {exch : BitVec 4} (h : SendsRound s j e x exch.toNat dst) : exec (.slurrySend j.job exch dst) s = .next
    (match s.payable j e x dst, s.sendable j e x dst with
     | p :: _, _ => s.sendRowsTo j e dst p (x.sendRound dst) ((x.owedOf s.self dst p).take e.msgRows)
     | [], p :: _ => s.askCredit j e dst p
     | [], [] => if s.roundReady j e (x.sendRound dst) && (x.owed s.self dst).isEmpty then s.endRoundTo j e dst (x.sendRound dst)
         else s) := by
  obtain ⟨hj, he, hx, hruns, hdest, hsmall, hround, hholds, -⟩ := h
  show execSlurrySend j.job exch dst s = _
  unfold execSlurrySend
  rw [hj]
  dsimp only
  rw [he, hx]
  dsimp only
  rw [if_neg (by rw [hruns, hdest]; decide), if_neg (by rw [hsmall]; decide)]
  unfold State.slurryNext
  dsimp only
  rw [if_neg (Nat.not_le.mpr hround), if_neg (by rw [hholds, Bool.not_true, Bool.and_false]; decide)]
  rfl

theorem sendRowsTo_eq (h : s.exch? j.job e.exch.toNat = some x) (hd : dst ≠ s.self) (p r : Nat) (rows : List TxRow) :
    s.sendRowsTo j e dst p r rows = (s.setExch ((x.sending dst p r rows).numbered dst)).sendSeq j e 0x10 dst (x.nextSeq dst) p r
      rows.length (rows.flatMap (·.bytes)) := by
  unfold State.sendRowsTo
  rw [h]
  dsimp only
  rw [if_neg hd, if_neg hd]
  exact sendSlurry_setExch h (x.sending dst p r rows) (by simp) ..

theorem endRoundTo_eq (h : s.exch? j.job e.exch.toNat = some x) (hd : dst ≠ s.self) (r : Nat) :
    s.endRoundTo j e dst r = (s.setExch ((x.ending dst r).numbered dst)).sendSeq j e 0x11 dst (x.nextSeq dst) 0 r
      (Assoc.get 0 x.txRows (txKey dst r)) [] := by
  unfold State.endRoundTo
  rw [h]
  dsimp only
  rw [setExch_self, if_neg hd]
  exact sendSlurry_setExch h (x.ending dst r) (by simp) ..

theorem askCredit_eq (h : s.exch? j.job e.exch.toNat = some x) (p : Nat) : s.askCredit j e dst p =
    if e.creditMax = 0 || x.creditAsked.contains (creditKey dst p) then s.bump 0x441005 1
    else ((s.bump 0x441005 1).setExch ((x.begging dst p).numbered dst)).sendSeq j e 0x13 dst (x.nextSeq dst) p 0 e.creditMax [] := by
  unfold State.askCredit
  rw [h]
  dsimp only
  split
  · rfl
  · exact sendSlurry_setExch (s := s.bump 0x441005 1) h (x.begging dst p) (by simp) ..

/-- R188, R190: a message goes for a partition that has one and a credit. -/
theorem exec_slurrySend_rows {exch : BitVec 4} (h : SendsRound s j e x exch.toNat dst) (hp : ∃ p, p ∈ s.payable j e x dst) : ∃ p,
    p ∈ s.payable j e x dst ∧ exec (.slurrySend j.job exch dst) s =
      .next (s.sendRowsTo j e dst p (x.sendRound dst) ((x.owedOf s.self dst p).take e.msgRows)) := by
  rw [exec_slurrySend h]
  cases hpay : s.payable j e x dst with
  | nil => simp [hpay] at hp
  | cons p ps => exact ⟨p, List.mem_cons_self, rfl⟩

/-- R190: without a credit for any of them, more are asked for one. -/
theorem exec_slurrySend_ask {exch : BitVec 4} (h : SendsRound s j e x exch.toNat dst) (hc : ∃ p, p ∈ s.sendable j e x dst)
    (hp : ∀ p, p ∉ s.payable j e x dst) : ∃ p, p ∈ s.sendable j e x dst ∧
      exec (.slurrySend j.job exch dst) s = .next (s.askCredit j e dst p) := by
  rw [exec_slurrySend h, List.eq_nil_iff_forall_not_mem.mpr hp]
  cases hcan : s.sendable j e x dst with
  | nil => simp [hcan] at hc
  | cons p ps => exact ⟨p, List.mem_cons_self, rfl⟩

/-- R187: a round whose items are accepted ends once nothing of it is left. -/
theorem exec_slurrySend_end {exch : BitVec 4} (h : SendsRound s j e x exch.toNat dst) (ho : x.owed s.self dst = [])
    (hr : s.roundReady j e (x.sendRound dst) = true) :
    exec (.slurrySend j.job exch dst) s = .next (s.endRoundTo j e dst (x.sendRound dst)) := by
  have none : s.sendable j e x dst = [] := by rw [State.sendable, ho]; rfl
  rw [exec_slurrySend h, State.payable, none, ho, hr]
  rfl

end

/-! #### Resends (R195) -/

/-- Rows that fit one message make one run. -/
theorem chunksOf_eq_single {α : Type} {n : Nat} {l : List α} (hl : l ≠ []) (hn : l.length ≤ n + 1) : chunksOf n l.length l = [l] := by
  cases l with
  | nil => exact absurd rfl hl
  | cons a l =>
    rw [List.length_cons, chunksOf, List.take_of_length_le hn, List.drop_of_length_le hn]
    · cases l.length <;> rfl
    · exact List.cons_ne_nil a l

/-- The rows kept for a module that have just gone out carry the SEQ they went under. -/
@[simps] def Exch.renumbered (x : Exch) (dst : BitVec 14) (rs : List TxRow) : Exch :=
  { x with retained := x.retained.map (fun y => if y.1 = dst && rs.contains y.2 then (y.1, { y.2 with seq := x.nextSeq dst }) else y) }

@[simp] theorem renumbered_sameKey {x z : Exch} (dst : BitVec 14) (rs : List TxRow) :
    (x.renumbered dst rs).SameKey z ↔ x.SameKey z := Iff.rfl

theorem renumbered_but_seq (x : Exch) (dst : BitVec 14) (rs : List TxRow) :
    (x.renumbered dst rs).retained.map (fun t => (t.1, { t.2 with seq := 0 })) =
      x.retained.map (fun t => (t.1, { t.2 with seq := 0 })) := by
  rw [Exch.renumbered_retained, List.map_map]
  refine List.map_congr_left (fun t _ => ?_)
  rw [Function.comp_apply]
  split <;> rfl

section
variable {s : State} {j : Job} {e : ExchRec} {x : Exch} {dst : BitVec 14} {rows : List TxRow} {n p r : Nat}

/-- Rows of one message go again in one. -/
theorem resendRows_single (hr : rows ≠ []) (hl : rows.length ≤ e.msgRows)
    (hk : ∀ t ∈ rows, t.seq = n ∧ t.part = p ∧ t.round = r) : s.resendRows j e dst rows = s.resendMessage j e dst n p r rows := by
  have keys : (rows.map (fun t => (t.seq, t.part, t.round))).eraseDups = [(n, p, r)] := by
    cases rows with
    | nil => exact absurd rfl hr
    | cons a l =>
      obtain ⟨ha, hl⟩ := List.forall_mem_cons.mp hk
      have rest : (l.map (fun t => (t.seq, t.part, t.round))).filter (fun b => !b == (n, p, r)) = [] := by
        simpa [List.filter_eq_nil_iff] using hl
      rw [List.map_cons, List.eraseDups_cons, ha.1, ha.2.1, ha.2.2, rest, List.eraseDups_nil]
  have mine : rows.filter (fun t => t.seq = n && t.part = p && t.round = r) = rows := by
    rw [List.filter_eq_self]
    simpa [and_assoc] using hk
  have fits : rows.length ≤ e.msgRows - 1 + 1 := by omega
  unfold State.resendRows
  rw [keys]
  dsimp only [List.foldl_cons, List.foldl_nil]
  rw [mine, chunksOf_eq_single hr fits]
  rfl

theorem resendMessage_kept (hn : n ≠ 0) : s.resendMessage j e dst n p r rows =
    (s.sendSeq j e 0x10 dst n p r rows.length (rows.flatMap (·.bytes))).bump 0x441006 1 := by
  unfold State.resendMessage
  exact if_pos hn

theorem resendMessage_new (h : s.exch? j.job e.exch.toNat = some x) : s.resendMessage j e dst 0 p r rows =
    ((s.setExch ((x.renumbered dst rows).numbered dst)).sendSeq j e 0x10 dst (x.nextSeq dst) p r rows.length
      (rows.flatMap (·.bytes))).bump 0x441006 1 := by
  unfold State.resendMessage
  dsimp only
  rw [if_neg (by decide), h]
  exact congrArg (State.bump · 0x441006 1) (sendSlurry_setExch h (x.renumbered dst rows) (by simp) ..)

end

end Sys2Proof.Machine

/-! ### Retained rows go back to the pool (R196, R345) -/

namespace Sys2Proof.Machine

open Sys2Proof

/-- A row is of a partition, and of a round from one on. -/
def ofFrom (p lo : Nat) (t : BitVec 14 × TxRow) : Bool := t.2.part = p && decide (lo ≤ t.2.round)

/-- The retained rows of a partition from a round on are in the pool again, some rounds are owed again to a module, and the stream to
it starts again. -/
@[simps] def Exch.reclaimed (x : Exch) (p lo : Nat) (dst : BitVec 14) (again : List Nat) : Exch :=
  { x with
    pool := x.pool ++ (x.retained.filter (ofFrom p lo)).map (·.2),
    retained := (x.retained.filter (fun t => !ofFrom p lo t)).map (fun t => if t.1 = dst then (t.1, { t.2 with seq := 0 }) else t),
    redo := (x.redo ++ again.map (fun r => (dst, some p, r))).eraseDups, txSeq := Assoc.set 0 x.txSeq dst.toNat 0 }

@[simp] theorem reclaimed_sameKey {x z : Exch} (p lo : Nat) (dst : BitVec 14) (again : List Nat) :
    (x.reclaimed p lo dst again).SameKey z ↔ x.SameKey z := Iff.rfl

@[simp] theorem freshCredit_sameKey {x z : Exch} (home : BitVec 14) (p : Nat) : (x.freshCredit home p).SameKey z ↔ x.SameKey z := Iff.rfl

/-- Where nothing of the partition is retained, nothing goes back. -/
theorem reclaimed_of_none {x : Exch} {p : Nat} (h : ∀ t ∈ x.retained, t.2.part ≠ p) (lo : Nat) (dst : BitVec 14) (again : List Nat) :
    (x.reclaimed p lo dst again).pool = x.pool ∧ (x.reclaimed p lo dst again).retained =
      x.retained.map (fun t => if t.1 = dst then (t.1, { t.2 with seq := 0 }) else t) := by
  have other : ∀ t ∈ x.retained, ofFrom p lo t = false := fun t ht => by simp [ofFrom, h t ht]
  have none : x.retained.filter (ofFrom p lo) = [] := List.filter_eq_nil_iff.mpr (fun t ht => by simp [other t ht])
  have all : x.retained.filter (fun t => !ofFrom p lo t) = x.retained := List.filter_eq_self.mpr (fun t ht => by simp [other t ht])
  constructor
  · rw [Exch.reclaimed_pool, none, List.map_nil, List.append_nil]
  · rw [Exch.reclaimed_retained, all]

/-- Rounds ended to a module from one on, which this module holds and which are not known as consumed. -/
def State.owedAgain (s : State) (j : Job) (e : ExchRec) (x : Exch) (p lo : Nat) (dst : BitVec 14) : List Nat :=
  ((List.range (Assoc.get 0 x.txRound dst.toNat - lo)).map (lo + ·)).filter (fun r =>
    (s.holders j e r).contains s.self && !x.doneOf.contains (p, r))

theorem owedAgain_eq_nil {s : State} {j : Job} {e : ExchRec} {x : Exch} {p lo : Nat} {dst : BitVec 14}
    (h : Assoc.get 0 x.txRound dst.toNat ≤ lo) : s.owedAgain j e x p lo dst = [] := by
  rw [State.owedAgain, Nat.sub_eq_zero_of_le h]
  rfl

section
variable {s : State} {j : Job} {e : ExchRec} {x : Exch} (h : s.exch? j.job e.exch.toNat = some x)
include h

theorem resendPartition_setExch (y : Exch) (hk : y.SameKey x) (p lo : Nat) (dst : BitVec 14) :
    ∃ n again, (s.setExch y).resendPartition j e p lo dst = (s.bump 0x441006 n).setExch (y.reclaimed p lo dst again) ∧
      (Assoc.get 0 y.txRound dst.toNat ≤ lo → again = []) := by
  refine ⟨((y.retained.filter (ofFrom p lo)).map (·.2.round)).eraseDups.length, (s.setExch y).owedAgain j e y p lo dst, ?_,
    owedAgain_eq_nil⟩
  unfold State.resendPartition
  rw [exch?_setExch h hk]
  exact setExch_setExch (s.bump 0x441006 _) y (y.reclaimed p lo dst _) (by simp)

/-- What a holder does where nothing of the rounds asked for is gone. -/
theorem holderResends_eq {p lo : Nat} (hdone : ∀ d ∈ x.doneOf, d.1 = p → d.2 < lo) (home : BitVec 14) : ∃ n again,
    s.holderResends j e p lo home = (s.bump 0x441006 n).setExch ((x.freshCredit home p).reclaimed p lo home again) ∧
      (Assoc.get 0 x.txRound home.toNat ≤ lo → again = []) := by
  have kept : x.undone p lo = x := by
    have all : x.doneOf.filter (fun d => !(d.1 = p && lo ≤ d.2)) = x.doneOf := by
      rw [List.filter_eq_self]
      intro d hd
      have := hdone d hd
      grind
    unfold Exch.undone
    rw [all]
  have gone : ((List.range (j.rounds e - lo)).map (lo + ·)).filter (fun r =>
      (s.holders j e r).contains s.self && x.doneOf.contains (p, r)) = [] := by
    rw [List.filter_eq_nil_iff]
    intro r hr
    obtain ⟨k, -, rfl⟩ := List.mem_map.mp hr
    have := hdone (p, lo + k)
    grind
  obtain ⟨n, again, back, hnone⟩ := resendPartition_setExch h (x.freshCredit home p) (by simp) p lo home
  refine ⟨n, again, ?_, hnone⟩
  unfold State.holderResends
  rw [h]
  dsimp only
  rw [gone, kept]
  exact back

end

/-- R345: HOLDER_STATE for the one exchange of a job, from the home of the partition. -/
theorem exec_holderState {s : State} {m : Msg} {j : Job} {e : ExchRec} {x : Exch} (ht : TakesMsg s 0x43 m) (hj : s.job? m.job = some j)
    (he : j.exchanges = [e]) (hx : s.exch? j.job e.exch.toNat = some x) (hp : m.part.toNat < e.parts) (hfrom : m.from ≠ s.self)
    (hhome : Assoc.get s.self x.homes m.part.toNat = m.from) :
    exec (.holderState m) s = .next (s.holderResends j e m.part.toNat m.value.toNat m.from) := by
  refine congrArg Host.Outcome.next ((takeMsg_of_takesMsg ht _).trans ?_)
  unfold State.takeHolderState
  rw [hj]
  dsimp only
  rw [he, List.foldl_cons, hx]
  dsimp only
  rw [if_pos (by simp [hp, hhome, hfrom])]
  rfl

end Sys2Proof.Machine

/-! ### REMAP (R134, R196, R231, R343) -/

namespace Sys2Proof.Machine

open Sys2Proof

/-! #### The job and its peers -/

theorem Posts.foldl {β : Type} {f : State → β → State} (h : ∀ s b, Posts s (f s b)) (l : List β) (s : State) :
    Posts s (l.foldl f s) := by
  induction l generalizing s with
  | nil => rfl
  | cons b l ih => exact (h s b).trans (ih _)

theorem addQp_posts (s : State) (p : BitVec 14) (c : BitVec 2) (remote : BitVec 32) : Posts s (s.addQp p c remote) := by
  unfold State.addQp
  split <;> rfl

theorem connectPeers_posts (s : State) (ps : List (BitVec 14)) : Posts s (s.connectPeers ps) :=
  Posts.foldl (fun s p => Posts.foldl (fun s c => addQp_posts s p c 0) _ s) _ s

theorem writeDescs_memOnly (base : Nat) (job : BitVec 64) (ds : List (BitVec 512)) (i : Nat) (s : State) :
    MemOnly s (s.writeDescs base job i ds) := by
  induction ds generalizing i s with
  | nil => exact .refl s
  | cons d ds ih => exact (memWrite_memOnly s _ _).trans (ih _ _)

theorem MemOnly.exch? {s t : State} (h : MemOnly s t) (id : BitVec 64) (n : Nat) : t.exch? id n = s.exch? id n := by rw [h]; rfl

theorem MemOnly.job? {s t : State} (h : MemOnly s t) (id : BitVec 64) : t.job? id = s.job? id := by rw [h]; rfl

theorem MemOnly.flow? {s t : State} (h : MemOnly s t) (id : BitVec 20) : t.flow? id = s.flow? id := by rw [h]; rfl

theorem MemOnly.table? {s t : State} (h : MemOnly s t) (id : BitVec 16) : t.table? id = s.table? id := by rw [h]; rfl

theorem MemOnly.fab {s t : State} (h : MemOnly s t) : t.fab = s.fab := by rw [h]

theorem MemOnly.twin {s t : State} (h : MemOnly s t) : t.twin = s.twin := by rw [h]

/-- The modules that REMAP names, and the job with them. -/
def remapHomes (u : RemapUpdate) : List (BitVec 14) := u.parts.map (·.2.2) ++ u.shards.map (·.2.2) ++ u.flows.map (·.2)
@[simps] def Job.joinedBy (j : Job) (u : RemapUpdate) : Job := { j with modules := (j.modules ++ remapHomes u).eraseDups }

/-- REMAP before any home has changed. -/
def State.readied (s : State) (u : RemapUpdate) (j : Job) : State :=
  let t := (s.setJob (j.joinedBy u)).connectPeers (j.joinedBy u).modules
  { t with fab := { t.fab with
      fenceSeen := t.fab.fenceSeen.filter (fun m => !(remapHomes u).contains m),
      peers := (t.fab.peers ++ (j.joinedBy u).modules.filter (fun m => m ≠ t.self)).eraseDups } }

section
variable (s : State) (u : RemapUpdate) (j : Job)

theorem readied_frame : s.readied u j = { s.setJob (j.joinedBy u) with
    sent := (s.readied u j).sent, fab := (s.readied u j).fab, dict := (s.readied u j).dict } := by
  have h := connectPeers_posts (s.setJob (j.joinedBy u)) (j.joinedBy u).modules
  unfold Posts at h
  unfold State.readied
  rw [h]

theorem readied_exch? (id : BitVec 64) (n : Nat) : (s.readied u j).exch? id n = s.exch? id n := by
  rw [readied_frame]; rfl

theorem readied_job? (id : BitVec 64) : (s.readied u j).job? id = (s.setJob (j.joinedBy u)).job? id := by
  rw [readied_frame]; rfl

theorem readied_flow? (id : BitVec 20) : (s.readied u j).flow? id = (s.setJob (j.joinedBy u)).flow? id := by
  rw [readied_frame]; rfl

theorem readied_table? (id : BitVec 16) : (s.readied u j).table? id = s.table? id := by
  rw [readied_frame]; rfl

theorem readied_twin : (s.readied u j).twin = s.twin := by
  rw [readied_frame]; rfl

theorem readied_self : (s.readied u j).self = s.self := by
  rw [readied_frame]; rfl

theorem readied_fenceSeen : ∀ m ∈ remapHomes u, m ∉ (s.readied u j).fab.fenceSeen := by
  intro m hm
  simp [State.readied, hm]

end

/-- The homes have changed. -/
def State.rehomed (s : State) (u : RemapUpdate) (j : Job) : State :=
  u.flows.foldl State.remapFlow (u.shards.foldl State.remapShard (u.parts.foldl (fun s p => s.remapPart u.job p) (s.readied u j)))

/-- What REMAP does, memory apart, where the Plaud's descriptors may be made again. -/
theorem exec_remap {s : State} {u : RemapUpdate} {j : Job} (hj : s.job? u.job = some j) :
    ∃ r, exec (.remap u) s = .next r ∧ MemOnly (s.rehomed u j) r := by
  have run : exec (.remap u) s = .next (if (remapHomes u).contains (s.rehomed u j).self then (s.rehomed u j).makeDescs (j.joinedBy u)
      else s.rehomed u j) := by
    show execRemap u s = _
    unfold execRemap
    rw [hj]
    rfl
  refine ⟨_, run, ?_⟩
  split
  · exact writeDescs_memOnly ..
  · exact .refl _

/-! #### Partitions (R196) -/

/-- A partition has a new home, and where that is this module it waits for its rounds again. -/
def Exch.moved (x : Exch) (self home : BitVec 14) (p : Nat) : Exch :=
  if home = self then (x.rehome self home p).awaitAgain p 0 else x.rehome self home p

section
variable (x : Exch) (self home : BitVec 14) (p : Nat)

theorem moved_cases : x.moved self home p = x.rehome self home p ∨ x.moved self home p = (x.rehome self home p).awaitAgain p 0 := by
  unfold Exch.moved
  split
  · exact .inr rfl
  · exact .inl rfl

@[simp] theorem moved_sameKey {z : Exch} : (x.moved self home p).SameKey z ↔ x.SameKey z := by
  rcases moved_cases x self home p with h | h <;> rw [h] <;> rfl

@[simp] theorem moved_pool : (x.moved self home p).pool = x.pool := by
  rcases moved_cases x self home p with h | h <;> rw [h] <;> rfl

@[simp] theorem moved_retained : (x.moved self home p).retained = x.retained := by
  rcases moved_cases x self home p with h | h <;> rw [h] <;> rfl

@[simp] theorem moved_homes : (x.moved self home p).homes = Assoc.set self x.homes p home := by
  rcases moved_cases x self home p with h | h <;> rw [h] <;> rfl

@[simp] theorem moved_staged : (x.moved self home p).staged = x.staged.filter (fun t => t.part ≠ p) := by
  rcases moved_cases x self home p with h | h <;> rw [h] <;> simp [Exch.rehome, Exch.awaitAgain]

@[simp] theorem moved_rowsIn : (x.moved self home p).rowsIn = Assoc.erase x.rowsIn p := by
  rcases moved_cases x self home p with h | h <;> rw [h] <;> rfl

@[simp] theorem moved_credits : (x.moved self home p).credits = Assoc.erase x.credits (creditKey home p) := by
  rcases moved_cases x self home p with h | h <;> rw [h] <;> rfl

end

theorem remapPart_eq {s : State} {id : BitVec 64} {j : Job} {e : ExchRec} {x : Exch} {exch : BitVec 4} {p : BitVec 32} {dst : BitVec 14}
    (hj : s.job? id = some j) (he : j.exch? exch.toNat = some e) (hx : s.exch? id exch.toNat = some x) (hp : p.toNat < e.npart)
    (hh : Assoc.get s.self x.homes p.toNat ≠ dst) : ∃ n again, s.remapPart id (exch, p, dst) =
      (s.bump 0x441006 n).setExch ((x.moved s.self dst p.toNat).reclaimed p.toNat 0 dst again) := by
  obtain ⟨hjob, hexch, -⟩ := exch?_of_records hj he hx
  have listed : s.exch? j.job e.exch.toNat = some x := by rw [hjob, hexch]; exact hx
  obtain ⟨n, again, back, -⟩ := resendPartition_setExch listed (x.moved s.self dst p.toNat) (by simp) p.toNat 0 dst
  refine ⟨n, again, ?_⟩
  unfold State.remapPart
  rw [hj]
  dsimp only
  rw [he, hx]
  dsimp only
  rw [if_neg (by simp [hh, hp])]
  exact back

/-! #### Shards (R231) -/

theorem table?_setTable {s : State} {t v : Table} (h : s.table? v.id = some t) : (s.setTable v).table? v.id = some v := by
  unfold State.table? State.setTable at *
  have same : ((fun x => decide (x.id = v.id)) ∘ fun x => if x.id = v.id then v else x) = fun x : Table => decide (x.id = v.id) := by
    funext x
    by_cases hx : x.id = v.id <;> simp [hx]
  have ht : t.id = v.id := by simpa using List.find?_some h
  refine (List.find?_map ..).trans ?_
  rw [same, h]
  simp [ht]

theorem setRow_row (t : Table) (a q : Nat) (b : Bytes) : (t.setRow a b).row q = if q = a then b else t.row q :=
  Assoc.get_set ..

/-- Rows written one after another: the last write of a row stands. -/
theorem foldl_setRow_row (l : List (BitVec 16 × Nat × Bytes)) (t : Table) (q : Nat) :
    (l.foldl (fun t r => t.setRow r.2.1 r.2.2) t).row q = (l.filter (fun r => r.2.1 = q)).foldl (fun _ r => r.2.2) (t.row q) := by
  induction l generalizing t with
  | nil => rfl
  | cons r l ih =>
    rw [List.foldl_cons, ih, setRow_row]
    by_cases h : r.2.1 = q
    · rw [if_pos h.symm, List.filter_cons_of_pos (by simpa using h), List.foldl_cons]
    · rw [if_neg (Ne.symm h), List.filter_cons_of_neg (by simpa using h)]

theorem foldl_setRow_frame (l : List (BitVec 16 × Nat × Bytes)) (t : Table) :
    l.foldl (fun t r => t.setRow r.2.1 r.2.2) t = { t with rows := (l.foldl (fun t r => t.setRow r.2.1 r.2.2) t).rows } := by
  induction l generalizing t with
  | nil => rfl
  | cons r l ih =>
    rw [List.foldl_cons, ih]
    rfl

section
variable {s : State} {t : Table} {shard q : Nat}

theorem fromReplica_frame (s : State) (t : Table) (shard : Nat) :
    s.fromReplica t shard = { t with rows := (s.fromReplica t shard).rows } := foldl_setRow_frame ..

theorem fromReplica_row (s : State) (t : Table) (shard q : Nat) : (s.fromReplica t shard).row q =
    (s.twin.replica.filter (fun r => (decide (r.1 = t.id) && decide (r.2.1 = q)) && decide (t.shardOf q = shard))).foldl (fun _ r => r.2.2)
      (t.row q) := by
  unfold State.fromReplica
  rw [foldl_setRow_row, List.filter_filter]
  congr 2
  funext r
  by_cases h : r.2.1 = q
  · subst h
    simp
  · simp [h]

/-- A row of another shard, or one that the replica does not hold, is as it was. -/
theorem fromReplica_row_kept
    (h : s.twin.replica.filter (fun r => decide (r.1 = t.id) && decide (r.2.1 = q)) = [] ∨ t.shardOf q ≠ shard) :
    (s.fromReplica t shard).row q = t.row q := by
  have none : s.twin.replica.filter (fun r => (decide (r.1 = t.id) && decide (r.2.1 = q)) && decide (t.shardOf q = shard)) = [] := by
    rcases h with h | h
    · rw [← List.filter_filter, List.filter_eq_nil_iff]
      exact fun r hr => List.filter_eq_nil_iff.mp h r (List.mem_of_mem_filter hr)
    · simp [h]
  rw [fromReplica_row, none]
  rfl

theorem fromReplica_row_taken {x : BitVec 16 × Nat × Bytes} (hs : t.shardOf q = shard)
    (h : s.twin.replica.filter (fun r => decide (r.1 = t.id) && decide (r.2.1 = q)) = [x]) :
    (s.fromReplica t shard).row q = x.2.2 := by
  rw [fromReplica_row]
  simp only [hs, decide_true, Bool.and_true]
  rw [h]
  rfl

end

/-- A shard comes home from the twin. -/
def State.comesBack (s : State) (t : Table) (d : Nat) (home : BitVec 14) : Bool :=
  home = s.self && Assoc.get s.self t.homes d = s.twinId

theorem comesBack_iff {s : State} {t : Table} {d : Nat} {home : BitVec 14} : s.comesBack t d home = true ↔
    home = s.straps.modid ∧ Assoc.get s.straps.modid t.homes d = s.straps.modid ^^^ 1 := by
  rw [State.comesBack, Bool.and_eq_true, decide_eq_true_eq, decide_eq_true_eq]
  rfl

theorem readied_comesBack (s : State) (u : RemapUpdate) (j : Job) (t : Table) (d : Nat) (home : BitVec 14) :
    (s.readied u j).comesBack t d home = s.comesBack t d home := by
  rw [readied_frame]; rfl

/-- A table with a new home of a shard, and the twin's rows where the shard comes home from it. -/
def State.withHome (s : State) (t : Table) (d : Nat) (home : BitVec 14) : Table :=
  { (if s.comesBack t d home then s.fromReplica t d else t) with homes := Assoc.set s.self t.homes d home }

theorem readied_withHome (s : State) (u : RemapUpdate) (j : Job) (t : Table) (d : Nat) (home : BitVec 14) :
    (s.readied u j).withHome t d home = s.withHome t d home := by
  rw [readied_frame]; rfl

theorem withHome_id (s : State) (t : Table) (d : Nat) (home : BitVec 14) : (s.withHome t d home).id = t.id := by
  unfold State.withHome
  split
  · exact (congrArg Table.id (fromReplica_frame s t d) : (s.fromReplica t d).id = _)
  · rfl

/-- A shard that does not come home from the twin changes the record of homes alone. -/
theorem withHome_moved {s : State} {t : Table} {d : Nat} {home : BitVec 14} (h : ¬ s.comesBack t d home = true) :
    s.withHome t d home = { t with homes := Assoc.set s.self t.homes d home } := by
  rw [State.withHome, if_neg h]

/-- One that does changes rows beside. -/
theorem withHome_back {s : State} {t : Table} {d : Nat} {home : BitVec 14} (h : s.comesBack t d home = true) :
    s.withHome t d home = { t with homes := Assoc.set s.self t.homes d home, rows := (s.withHome t d home).rows } ∧
      (s.withHome t d home).row = (s.fromReplica t d).row := by
  have frame : { s.fromReplica t d with homes := Assoc.set s.self t.homes d home } =
      { t with homes := Assoc.set s.self t.homes d home, rows := (s.fromReplica t d).rows } := by
    rw [fromReplica_frame]
  rw [State.withHome, if_pos h]
  exact ⟨frame, rfl⟩

theorem remapShard_table? {s : State} {t : Table} (h : s.table? t.id = some t) (d : BitVec 16) (home : BitVec 14) :
    (s.remapShard (t.id, d, home)).table? t.id = some (s.withHome t d.toNat home) := by
  have id := withHome_id s t d.toNat home
  have set := table?_setTable (v := s.withHome t d.toNat home) (id.symm ▸ h)
  rw [id] at set
  unfold State.remapShard
  rw [h]
  exact set

theorem remapShard_replica {s : State} {t : Table} (h : s.table? t.id = some t) (d : BitVec 16) (home : BitVec 14)
    (hb : s.comesBack t d.toNat home = true) : (s.remapShard (t.id, d, home)).twin.replica =
      s.twin.replica.filter (fun r => !(r.1 = t.id && t.shardOf r.2.1 = d.toNat)) := by
  unfold State.remapShard
  rw [h]
  exact if_pos hb

/-! #### Flows (R343) -/

theorem flow?_setFlow {s : State} {j : Job} {f r : FlowRun} (h : s.flow? r.decl.flow = some (j, f)) :
    (s.setFlow r).flow? r.decl.flow = some (j.setFlow r, r) := by
  have same : ((fun x => decide (x.decl.flow = r.decl.flow)) ∘ fun x => if x.decl.flow = r.decl.flow then r else x) =
      fun x : FlowRun => decide (x.decl.flow = r.decl.flow) := by
    funext x
    by_cases hx : x.decl.flow = r.decl.flow <;> simp [hx]
  have flows : ∀ k : Job, (k.setFlow r).flows.find? (fun x => x.decl.flow = r.decl.flow) =
      (k.flows.find? (fun x => x.decl.flow = r.decl.flow)).map (fun _ => r) := fun k => by
    refine (List.find?_map ..).trans ?_
    rw [same]
    cases hk : k.flows.find? (fun x => x.decl.flow = r.decl.flow) with
    | none => rfl
    | some x =>
      have hx : x.decl.flow = r.decl.flow := by simpa using List.find?_some hk
      simp [hx]
  have jobs : ∀ k : Job, ((k.setFlow r).flows.find? (fun x => x.decl.flow = r.decl.flow)).map (fun x => (k.setFlow r, x)) =
      ((k.flows.find? (fun x => x.decl.flow = r.decl.flow)).map (fun x => (k, x))).map (fun y => (y.1.setFlow r, r)) := fun k => by
    rw [flows, Option.map_map, Option.map_map]
    rfl
  unfold State.flow? State.setFlow at *
  dsimp only
  rw [List.findSome?_map]
  have all := List.map_findSome? (f := fun j : Job => (j.flows.find? (fun x => x.decl.flow = r.decl.flow)).map (fun x => (j, x)))
    (g := fun y => (y.1.setFlow r, r)) (l := s.hb.jobs)
  rw [h] at all
  refine Eq.trans ?_ all.symm
  congr 1
  funext k
  exact jobs k

theorem flow?_setJob {s : State} {j k : Job} {f : FlowRun} {id : BitVec 20} (h : s.flow? id = some (j, f)) (hk : k.job = j.job)
    (hf : k.flows = j.flows) : (s.setJob k).flow? id = some (k, f) := by
  unfold State.flow? State.setJob at *
  dsimp only
  have found : j.flows.find? (fun r => r.decl.flow = id) = some f := by
    obtain ⟨a, -, ha⟩ := List.exists_of_findSome?_eq_some h
    obtain ⟨r, hr, heq⟩ := Option.map_eq_some_iff.mp ha
    obtain ⟨rfl, rfl⟩ := Prod.mk.inj heq
    exact hr
  generalize s.hb.jobs = jobs at h ⊢
  induction jobs with
  | nil => cases h
  | cons a l ih =>
    rw [List.map_cons, List.findSome?_cons]
    by_cases ha : a.job = k.job
    · rw [if_pos ha, hf, found]
      rfl
    · rw [if_neg ha]
      rw [List.findSome?_cons] at h
      cases hr : a.flows.find? (fun r => r.decl.flow = id) with
      | none =>
        rw [hr] at h
        exact ih h
      | some r =>
        rw [hr] at h
        obtain ⟨rfl, -⟩ := Prod.mk.inj (Option.some.inj h)
        exact absurd hk.symm ha

theorem remapFlow_eq {s : State} {j : Job} {f : FlowRun} (h : s.flow? f.decl.flow = some (j, f)) (home : BitVec 14) :
    s.remapFlow (f.decl.flow, home) = s.setFlow { f with stopped := decide (home ≠ s.self) } := by
  unfold State.remapFlow
  rw [h]

end Sys2Proof.Machine

/-! ### Bloom filters (R179 to R181) -/

namespace Sys2Proof.Machine

open Sys2Proof

/-! #### Setting bits -/

/-- The operation keeps a byte string's length and every bit set in it. -/
structure OnlySets (f : Bytes → Bytes) : Prop where
  length : ∀ b, (f b).length = b.length
  keeps  : ∀ b i, bitOf b i = true → bitOf (f b) i = true

theorem OnlySets.foldl {α : Type} {f : Bytes → α → Bytes} (h : ∀ a, OnlySets (f · a)) (l : List α) : OnlySets (l.foldl f) := by
  induction l with
  | nil => exact ⟨fun _ => rfl, fun _ _ hb => hb⟩
  | cons a l ih => exact ⟨fun b => (ih.length _).trans ((h a).length b), fun b i hb => ih.keeps _ i ((h a).keeps b i hb)⟩

/-- What one step of a run sets is set at its end. -/
theorem bitOf_foldl_of_mem {α : Type} {f : Bytes → α → Bytes} (h : ∀ a, OnlySets (f · a)) {l : List α} {a : α} (ha : a ∈ l)
    {i n : Nat} (hi : ∀ b : Bytes, b.length = n → bitOf (f b a) i = true) {b : Bytes} (hb : b.length = n) :
    bitOf (l.foldl f b) i = true := by
  induction l generalizing b with
  | nil => cases ha
  | cons c l ih =>
    rcases List.mem_cons.mp ha with rfl | ha
    · exact (OnlySets.foldl h l).keeps _ i (hi b hb)
    · exact ih ha (((h c).length b).trans hb)

theorem bitOf_setBitAt {b : Bytes} {n : Nat} (i : Nat) (hn : n / 8 < b.length) :
    bitOf (setBitAt b n) i = (bitOf b i || decide (i = n)) := by
  unfold bitOf setBitAt
  rw [List.getElem?_set]
  by_cases h : n / 8 = i / 8
  · have bit : (BitVec.ofNat 8 (2 ^ (n % 8))).getLsbD (i % 8) = decide (i = n) := by
      rw [BitVec.getLsbD_ofNat, Nat.testBit_two_pow]
      have : i % 8 < 8 := Nat.mod_lt _ (by decide)
      have same : n % 8 = i % 8 ↔ i = n := by omega
      simp [this, same]
    rw [if_pos h, if_pos hn, Option.getD_some, BitVec.getLsbD_or, bit, h]
  · have other : i ≠ n := fun e => h (e ▸ rfl)
    rw [if_neg h, decide_eq_false other, Bool.or_false]

theorem setBitAt_onlySets (n : Nat) : OnlySets (setBitAt · n) where
  length b := List.length_set
  keeps b i hb := by
    by_cases hn : n / 8 < b.length
    · rw [bitOf_setBitAt i hn, hb, Bool.true_or]
    · have same : setBitAt b n = b := List.set_eq_of_length_le (Nat.not_lt.mp hn)
      rw [same, hb]

/-! #### Keys in a filter (R179, R180) -/

/-- A key inserted into a filter. -/
def insertKey (blocks k : Nat) (b : Bytes) (h : BitVec 64) : Bytes :=
  (bloomBits blocks k h).2.foldl (fun b n => setBitAt b (512 * (bloomBits blocks k h).1 + n)) b

theorem insertKey_onlySets (blocks k : Nat) (h : BitVec 64) : OnlySets (insertKey blocks k · h) :=
  OnlySets.foldl (fun _ => setBitAt_onlySets _) _

theorem bloomOf_eq (blocks k : Nat) (hs : List (BitVec 64)) :
    bloomOf blocks k hs = hs.foldl (insertKey blocks k) (zeros (64 * blocks)) := rfl

theorem bloomOf_length (blocks k : Nat) (hs : List (BitVec 64)) : (bloomOf blocks k hs).length = 64 * blocks := by
  rw [bloomOf_eq, (OnlySets.foldl (insertKey_onlySets blocks k) hs).length, zeros_length]

/-- The bits of a key lie in the filter. -/
theorem bloomBits_lt {blocks : Nat} (hb : 1 ≤ blocks) (k : Nat) (h : BitVec 64) {n : Nat} (hn : n ∈ (bloomBits blocks k h).2) :
    512 * (bloomBits blocks k h).1 + n < 512 * blocks := by
  have block : (bloomBits blocks k h).1 < blocks := by
    show h.toNat / 2 ^ 32 * blocks / 2 ^ 32 < blocks
    have high : h.toNat / 2 ^ 32 < 2 ^ 32 := by have := h.isLt; omega
    rw [Nat.div_lt_iff_lt_mul (by decide), Nat.mul_comm]
    exact Nat.mul_lt_mul_of_pos_left high hb
  obtain ⟨salt, -, rfl⟩ := List.mem_map.mp hn
  have low : (h.toNat % 2 ^ 32) * salt % 2 ^ 32 / 2 ^ 23 < 512 := by
    have := Nat.mod_lt ((h.toNat % 2 ^ 32) * salt) (show 0 < 2 ^ 32 by decide)
    omega
  omega

/-- R181: the filter has no false negatives. -/
theorem bitOf_bloomOf {blocks k : Nat} (hb : 1 ≤ blocks) {hs : List (BitVec 64)} {h : BitVec 64} (hh : h ∈ hs) {n : Nat}
    (hn : n ∈ (bloomBits blocks k h).2) : bitOf (bloomOf blocks k hs) (512 * (bloomBits blocks k h).1 + n) = true := by
  have inside := bloomBits_lt hb k h hn
  refine bitOf_foldl_of_mem (insertKey_onlySets blocks k) hh (n := 64 * blocks) (fun b hlen => ?_) (zeros_length ..)
  refine bitOf_foldl_of_mem (fun _ => setBitAt_onlySets _) hn (n := 64 * blocks) (fun c hc => ?_) hlen
  rw [bitOf_setBitAt _ (by omega), decide_eq_true rfl, Bool.or_true]

/-! #### Filters combined (R180) -/

theorem orBytes_length (a b : Bytes) : (orBytes a b).length = a.length := by
  induction a generalizing b with
  | nil => cases b <;> rfl
  | cons x a ih =>
    cases b with
    | nil => rfl
    | cons y b => exact congrArg (· + 1) (ih b)

theorem orBytes_getElem? (a b : Bytes) (n : Nat) : (orBytes a b)[n]? = a[n]?.map (· ||| b[n]?.getD 0) := by
  induction a generalizing b n with
  | nil => cases b <;> rfl
  | cons x a ih =>
    cases b with
    | nil => simp [orBytes]
    | cons y b =>
      cases n with
      | zero => rfl
      | succ n => exact ih b n

theorem bitOf_orBytes {a : Bytes} (b : Bytes) {i : Nat} (hi : i / 8 < a.length) :
    bitOf (orBytes a b) i = (bitOf a i || bitOf b i) := by
  unfold bitOf
  rw [orBytes_getElem?, List.getElem?_eq_getElem hi]
  exact BitVec.getLsbD_or

/-! #### BLOOM_PUBLISH -/

/-- The filter that BLOOM_PUBLISH makes of the keys built here and of the other modules' bits. -/
def publishedFilter (j : Job) (n : Nat) (js : JoinRec) (others : Bytes) : Bytes :=
  orBytes (bloomOf js.bloomBlocks js.bloomK ((j.hashes.filter (fun h => h.1 = n)).map (·.2))) others

section
variable {j : Job} {n : Nat} {js : JoinRec}

theorem publishedFilter_length (others : Bytes) : (publishedFilter j n js others).length = 64 * js.bloomBlocks :=
  (orBytes_length ..).trans (bloomOf_length ..)

theorem bitOf_publishedFilter (others : Bytes) {i : Nat} (hi : i < 512 * js.bloomBlocks) : bitOf (publishedFilter j n js others) i =
    (bitOf (bloomOf js.bloomBlocks js.bloomK ((j.hashes.filter (fun h => h.1 = n)).map (·.2))) i || bitOf others i) :=
  bitOf_orBytes others (by rw [bloomOf_length]; omega)

/-- R181: every key built here passes. -/
theorem bloomPasses_publishedFilter (hb : 1 ≤ js.bloomBlocks) (others : Bytes) {h : Nat × BitVec 64} (hh : h ∈ j.hashes)
    (hn : h.1 = n) : bloomPasses (publishedFilter j n js others) js.bloomBlocks js.bloomK h.2 = true := by
  have built : h.2 ∈ (j.hashes.filter (fun h => h.1 = n)).map (·.2) :=
    List.mem_map_of_mem (List.mem_filter.mpr ⟨hh, decide_eq_true hn⟩)
  refine List.all_eq_true.mpr (fun i hi => ?_)
  rw [bitOf_publishedFilter others (bloomBits_lt hb _ _ hi), bitOf_bloomOf hb built hi, Bool.true_or]

/-- R180: once every partition of the right side is built, the filter is published. -/
theorem exec_bloomPublish {s : State} {e : ExchRec} {x : Exch} (hj : s.job? j.job = some j) (hjs : j.joins[n]? = some js)
    (hf : js.flags.getLsbD 2 = true) (he : j.rightExch js = some e) (hx : s.exch? j.job e.exch.toNat = some x)
    (hbuilt : ∀ p, p < e.parts → Assoc.get s.self x.homes p = s.self → j.rounds e ≤ Assoc.get 0 x.base p) (others : Bytes) :
    exec (.bloomPublish j.job n others) s =
      .next (s.setJob { j with filters := Assoc.set [] j.filters n (publishedFilter j n js others) }) := by
  have built : s.exchBuilt j e x = true := by
    refine List.all_eq_true.mpr (fun p hp => ?_)
    have := hbuilt p (List.mem_range.mp hp)
    by_cases home : Assoc.get s.self x.homes p = s.self
    · simp [this home]
    · simp [home]
  show execBloomPublish j.job n others s = _
  unfold execBloomPublish
  rw [hj]
  dsimp only
  rw [hjs]
  dsimp only
  rw [he]
  dsimp only
  rw [hx]
  dsimp only
  rw [hf, built, if_pos (by decide)]
  rfl

end

end Sys2Proof.Machine

/-! ### O30: what a sender does (R179 to R181, R186 to R188, R195, R196, R345) -/

namespace Sys2Proof.Machine

open Sys2Proof

section
variable {s : State} {j : Job} {e : ExchRec} {x : Exch} {dst : BitVec 14}

theorem exec_slurryResendRequest {exch : BitVec 4} (hj : s.job? j.job = some j) (he : j.exch? exch.toNat = some e)
    (hx : s.exch? j.job exch.toNat = some x) (part round : BitVec 32) : exec (.slurryResendRequest j.job exch dst part round) s =
      .next (s.resendRows j e dst
        ((x.retained.filter (fun t => t.1 = dst && t.2.part = part.toNat && t.2.round = round.toNat)).map (·.2))) := by
  show execSlurryResendRequest j.job exch dst part round s = _
  unfold execSlurryResendRequest
  rw [hj]
  dsimp only
  rw [he, hx]

/-- R195: the rows of one message go again in one, which is counted; rows that no message of this generation has carried take the
next SEQ. -/
theorem resendMessage_turns {n0 : Nat} (h : s.exch? j.job e.exch.toNat = some x) (hx : s.exch? j.job n0 = some x)
    (hs : s.fab.stopped = false) (n p r : Nat) (rows : List TxRow) : ∃ y a seq, let t := s.resendMessage j e dst n p r rows
      Turns j.job n0 x s t y ∧ t.sent = s.sent ++ [.fabric 0x10 a] ∧
      OnStream a j e dst seq p r rows.length (rows.flatMap (·.bytes)) ∧ t.modVal 0x441006 0 = s.modVal 0x441006 0 + 1 ∧
      (n ≠ 0 → seq = n ∧ y = x) ∧ (n = 0 → seq = x.nextSeq dst ∧ y = (x.renumbered dst rows).numbered dst) := by
  by_cases hn : n = 0
  · subst hn
    have renumbered := (Turns.refl hx).setExch (z := (x.renumbered dst rows).numbered dst) (by simp)
    obtain ⟨turn, ⟨a, sent, msg⟩, counts⟩ :=
      renumbered.send hs j e 0x10 dst (x.nextSeq dst) p r rows.length (rows.flatMap (·.bytes))
    rw [resendMessage_new h]
    exact ⟨_, a, _, turn.posts (bump_posts ..), sent, msg, (bump_counted ..).trans (congrArg (· + 1) (counts _ (by decide))),
      fun hn => absurd rfl hn, fun _ => ⟨rfl, rfl⟩⟩
  · obtain ⟨turn, ⟨a, sent, msg⟩, counts⟩ := (Turns.refl hx).send hs j e 0x10 dst n p r rows.length (rows.flatMap (·.bytes))
    rw [resendMessage_kept hn]
    exact ⟨_, a, _, turn.posts (bump_posts ..), sent, msg, (bump_counted ..).trans (congrArg (· + 1) (counts _ (by decide))),
      fun _ => ⟨rfl, rfl⟩, fun h => absurd h hn⟩

/-! #### SLURRY_SEND -/

section
variable {exch : BitVec 4} (h : SendsRound s j e x exch.toNat dst) (hs : s.fab.stopped = false)
include h hs

/-- A message of rows leaves for a partition with a credit (R188, R190). -/
theorem slurrySend_rows (hp : ∃ p, p ∈ s.payable j e x dst) : ∃ t a p, p ∈ s.payable j e x dst ∧
    exec (.slurrySend j.job exch dst) s = .next t ∧
    let r := x.sendRound dst
    let rows := (x.owedOf s.self dst p).take e.msgRows
    Turns j.job exch.toNat x s t ((x.sending dst p r rows).numbered dst) ∧ t.sent = s.sent ++ [.fabric 0x10 a] ∧
      OnStream a j e dst (x.nextSeq dst) p r rows.length (rows.flatMap (·.bytes)) := by
  obtain ⟨p, hp, run⟩ := exec_slurrySend_rows h hp
  rw [sendRowsTo_eq h.listed h.away] at run
  obtain ⟨turn, ⟨a, sent, msg⟩, -⟩ := ((Turns.refl h.exch).setExch (z := (x.sending dst p (x.sendRound dst)
    ((x.owedOf s.self dst p).take e.msgRows)).numbered dst) (by simp)).send hs j e 0x10 dst (x.nextSeq dst) p (x.sendRound dst) _ _
  exact ⟨_, a, p, hp, run, turn, sent, msg⟩

/-- Without one, credits are asked for, once until some come (R190). -/
theorem slurrySend_ask (hc : ∃ p, p ∈ s.sendable j e x dst) (hp : ∀ p, p ∉ s.payable j e x dst) : ∃ t y,
    exec (.slurrySend j.job exch dst) s = .next t ∧ Turns j.job exch.toNat x s t y ∧
    t.modVal 0x441005 0 = s.modVal 0x441005 0 + 1 ∧ y.pool = x.pool ∧ y.retained = x.retained ∧ y.credits = x.credits ∧
    (x.creditAsked = [] → e.creditMax ≠ 0 → ∃ a p, p ∈ s.sendable j e x dst ∧ y.creditAsked = [creditKey dst p] ∧
      t.sent = s.sent ++ [.fabric 0x13 a] ∧ OnStream a j e dst (x.nextSeq dst) p 0 e.creditMax []) := by
  obtain ⟨p, hp, run⟩ := exec_slurrySend_ask h hc hp
  rw [askCredit_eq h.listed] at run
  by_cases asked : (e.creditMax = 0 || x.creditAsked.contains (creditKey dst p)) = true
  · rw [if_pos asked] at run
    refine ⟨_, x, run, (Turns.refl h.exch).posts (bump_posts ..), bump_counted .., rfl, rfl, rfl, fun none some => absurd asked ?_⟩
    simp [none, some]
  · rw [if_neg asked] at run
    obtain ⟨turn, ⟨a, sent, msg⟩, counts⟩ := (((Turns.refl h.exch).posts (bump_posts s 0x441005 1)).setExch
      (z := (x.begging dst p).numbered dst) (by simp)).send hs j e 0x13 dst (x.nextSeq dst) p 0 e.creditMax []
    exact ⟨_, _, run, turn, (counts _ (by decide)).trans (bump_counted s _), by simp, by simp, by simp,
      fun none _ => ⟨a, p, hp, by simp [none], sent, msg⟩⟩

/-- The round ends, with the count of its rows (R187). -/
theorem slurrySend_end (ho : x.owed s.self dst = []) (hr : s.roundReady j e (x.sendRound dst) = true) : ∃ t a,
    exec (.slurrySend j.job exch dst) s = .next t ∧
    let r := x.sendRound dst
    Turns j.job exch.toNat x s t ((x.ending dst r).numbered dst) ∧ t.sent = s.sent ++ [.fabric 0x11 a] ∧
      OnStream a j e dst (x.nextSeq dst) 0 r (Assoc.get 0 x.txRows (txKey dst r)) [] := by
  have run := exec_slurrySend_end h ho hr
  rw [endRoundTo_eq h.listed h.away] at run
  obtain ⟨turn, ⟨a, sent, msg⟩, -⟩ := ((Turns.refl h.exch).setExch (z := (x.ending dst (x.sendRound dst)).numbered dst)
    (by simp)).send hs j e 0x11 dst (x.nextSeq dst) 0 (x.sendRound dst) (Assoc.get 0 x.txRows (txKey dst (x.sendRound dst))) []
  exact ⟨_, a, run, turn, sent, msg⟩

end

theorem txRound_ending (x : Exch) (dst : BitVec 14) (r : Nat) :
    Assoc.get 0 (x.ending dst r).txRound dst.toNat = max (Assoc.get 0 x.txRound dst.toNat) (r + 1) := by
  rw [Exch.ending_txRound, Assoc.get_set, if_pos rfl]
  split <;> omega

/-! #### REMAP -/

/-- A partition changes its home (R196): what REMAP leaves of its exchange and its job. -/
theorem remap_part {u : RemapUpdate} {exch : BitVec 4} {p : BitVec 32} (hj : s.job? u.job = some j) (he : j.exch? exch.toNat = some e)
    (hx : s.exch? u.job exch.toNat = some x) (hparts : u.parts = [(exch, p, dst)]) (hshards : u.shards = []) (hflows : u.flows = [])
    (hp : p.toNat < e.npart) (hh : Assoc.get s.self x.homes p.toNat ≠ dst) : ∃ t again, exec (.remap u) s = .next t ∧
      t.exch? u.job exch.toNat = some ((x.moved s.self dst p.toNat).reclaimed p.toNat 0 dst again) ∧
      t.job? u.job = some (j.joinedBy u) ∧ dst ∉ t.fab.fenceSeen := by
  obtain ⟨t, run, mem⟩ := exec_remap hj
  have job : (s.readied u j).job? u.job = some (j.joinedBy u) := by
    have id := job?_job hj
    rw [readied_job?, ← id]
    exact job?_setJob (k := j.joinedBy u) (id.symm ▸ hj)
  have ready : (s.readied u j).exch? u.job exch.toNat = some x := (readied_exch? ..).trans hx
  obtain ⟨n, again, part⟩ := remapPart_eq job (e := e) he ready hp (readied_self s u j ▸ hh)
  have rehomed : s.rehomed u j = ((s.readied u j).bump 0x441006 n).setExch
      ((x.moved s.self dst p.toNat).reclaimed p.toNat 0 dst again) := by
    rw [State.rehomed, hparts, hshards, hflows, ← readied_self s u j]
    exact part
  rw [rehomed] at mem
  have counted : ((s.readied u j).bump 0x441006 n).exch? u.job exch.toNat = some x := ready
  exact ⟨t, again, run, (mem.exch? ..).trans (exch?_setExch counted (by simp)), (mem.job? _).trans job,
    mem.fab ▸ readied_fenceSeen s u j dst (by simp [remapHomes, hparts])⟩

/-- A shard changes its home (R231): the table's record, and the replica where the shard comes home from the twin. -/
theorem remap_shard {u : RemapUpdate} {t : Table} {d : BitVec 16} {home : BitVec 14} (hj : s.job? u.job = some j) (hparts : u.parts = [])
    (hshards : u.shards = [(t.id, d, home)]) (hflows : u.flows = []) (ht : s.table? t.id = some t) : ∃ r, exec (.remap u) s = .next r ∧
      r.table? t.id = some (s.withHome t d.toNat home) ∧ (s.comesBack t d.toNat home = true →
        r.twin.replica = s.twin.replica.filter (fun r => !(r.1 = t.id && t.shardOf r.2.1 = d.toNat))) := by
  obtain ⟨r, run, mem⟩ := exec_remap hj
  have rehomed : s.rehomed u j = (s.readied u j).remapShard (t.id, d, home) := by
    rw [State.rehomed, hparts, hshards, hflows]
    rfl
  rw [rehomed] at mem
  have ready : (s.readied u j).table? t.id = some t := (readied_table? ..).trans ht
  have table := remapShard_table? ready d home
  have replica := remapShard_replica ready d home
  rw [readied_withHome] at table
  rw [readied_comesBack, readied_twin] at replica
  exact ⟨r, run, (mem.table? _).trans table, fun hb => mem.twin ▸ replica hb⟩

/-- A flow changes its home (R343): it runs here only where that is this module. -/
theorem remap_flow {u : RemapUpdate} {f : FlowRun} {home : BitVec 14} (hj : s.job? u.job = some j) (hparts : u.parts = [])
    (hshards : u.shards = []) (hflows : u.flows = [(f.decl.flow, home)]) (hf : s.flow? f.decl.flow = some (j, f)) :
    ∃ r k, exec (.remap u) s = .next r ∧ r.flow? f.decl.flow = some (k, { f with stopped := decide (home ≠ s.self) }) := by
  obtain ⟨r, run, mem⟩ := exec_remap hj
  have ready : (s.readied u j).flow? f.decl.flow = some (j.joinedBy u, f) :=
    (readied_flow? ..).trans (flow?_setJob hf rfl rfl)
  have rehomed : s.rehomed u j = (s.readied u j).setFlow { f with stopped := decide (home ≠ s.self) } := by
    rw [State.rehomed, hparts, hshards, hflows, ← readied_self s u j]
    exact remapFlow_eq ready home
  rw [rehomed] at mem
  exact ⟨r, _, run, (mem.flow? _).trans (flow?_setFlow (r := { f with stopped := decide (home ≠ s.self) }) ready)⟩

end

/-- Settles O30: the engine's next message is of one of three kinds, by whether a partition can go and has a credit; resends, a
holder's state and REMAP put the retained rows as the equations above say; bits set in a filter stay set. -/
theorem slurrySending : Obligations.SlurrySending := by
  unfold Obligations.SlurrySending
  refine ⟨fun s j e x exch dst hj he hx hstop => ?_, fun s u j hj hparts => ⟨fun t d home hshards hflows ht => ?_,
    fun f home hshards hflows hf => remap_flow hj hparts hshards hflows hf⟩,
    fun s j n js e x others hj hjs hf he hx hb hbuilt => ?_⟩
  · intro here r mine of fits can credit sends
    have listed : s.exch? j.job e.exch.toNat = some x := (exch?_of_records hj he hx).2.1 ▸ hx
    refine ⟨fun hruns hdest hsmall hround hholds haway hfits => ?_, fun part round => ?_,
      fun m hm hjob hexchs hp hfrom haway hhome hround hdone => ?_, fun u p hjob hparts hshards hflows hp hh hnone => ?_⟩
    · have h : SendsRound s j e x exch.toNat dst := ⟨hj, he, hx, hruns, hdest, hsmall, hround, hholds, haway⟩
      have payable : ∀ p, p ∈ s.payable j e x dst ↔ can p ∧ credit x p ≠ 0 := fun p =>
        (mem_payable haway).trans (and_congr_left' mem_sendable)
      refine ⟨fun hc => ?_, fun hc hno => ?_, fun ho hr => ?_⟩
      · obtain ⟨t, a, p, hp, run, turn, sent, msg⟩ := slurrySend_rows h hstop (hc.imp fun p => (payable p).mpr)
        obtain ⟨hcan, hcredit⟩ := (payable p).mp hp
        exact ⟨t, _, a, p, run, turn.here, turn.only, hcan, hcredit, ⟨sent, msg.dst, msg.exch, msg.job, msg.seq⟩, msg.part, msg.round,
          msg.value, msg.payload, rfl, (Assoc.get_set ..).trans (if_pos rfl), foldl_erase_length (owedOf_sublist ..),
          foldl_erase_subset _ _⟩
      · have unpaid : ∀ p, p ∉ s.payable j e x dst := fun p hp => ((payable p).mp hp).2 (hno p ((payable p).mp hp).1)
        obtain ⟨t, y, run, turn, count, pool, retained, credits, asks⟩ :=
          slurrySend_ask h hstop (hc.imp fun p => mem_sendable.mpr) unpaid
        refine ⟨t, y, run, turn.here, turn.only, pool, retained, credits, count, fun hasked hmax => ?_⟩
        obtain ⟨a, p, hp, key, sent, msg⟩ := asks hasked hmax
        exact ⟨a, p, mem_sendable.mp hp, ⟨sent, msg.dst, msg.exch, msg.job, msg.seq⟩, msg.part, msg.value, key⟩
      · obtain ⟨t, a, run, turn, sent, msg⟩ := slurrySend_end h hstop ho hr
        exact ⟨t, _, a, run, turn.here, turn.only, ⟨sent, msg.dst, msg.exch, msg.job, msg.seq⟩, msg.part, msg.round, msg.value,
          txRound_ending x dst r, by simp, by simp⟩
    · intro rows hrows hlen n hn
      have key : ∀ t ∈ rows, t.seq = n ∧ t.part = part.toNat ∧ t.round = round.toNat := fun t ht => by
        obtain ⟨kept, hkept, rfl⟩ := List.mem_map.mp ht
        have named := (List.mem_filter.mp hkept).2
        simp only [Bool.and_eq_true, decide_eq_true_eq] at named
        exact ⟨hn _ ht, named.1.2, named.2⟩
      have run := exec_slurryResendRequest (dst := dst) hj he hx part round
      rw [resendRows_single hrows hlen key] at run
      obtain ⟨y, a, seq, turn, sent, msg, count, kept, new⟩ := resendMessage_turns listed hx hstop n part.toNat round.toNat rows
      refine ⟨_, y, a, run, turn.here, turn.only, sent, msg.dst, msg.exch, msg.job, msg.part.trans (BitVec.ofNat_toNat ..),
        msg.round.trans (BitVec.ofNat_toNat ..), msg.value, msg.payload, count, fun h => ?_, fun h => ?_⟩
      · obtain ⟨rfl, rfl⟩ := kept h
        exact ⟨msg.seq, rfl⟩
      · obtain ⟨rfl, rfl⟩ := new h
        exact ⟨msg.seq, renumbered_but_seq ..⟩
    · intro owed
      subst hfrom
      obtain ⟨n, again, back, none⟩ := holderResends_eq listed hdone m.from
      have turn := ((Turns.refl hx).posts (bump_posts s 0x441006 n)).setExch (z := (x.freshCredit m.from m.part.toNat).reclaimed
        m.part.toNat m.value.toNat m.from again) (by simp)
      obtain rfl := none hround
      refine ⟨_, (exec_holderState hm (hjob ▸ hj) hexchs listed hp haway hhome).trans (congrArg Host.Outcome.next back), turn.only,
        rfl, turn.here.trans ?_⟩
      refine congrArg some ?_
      unfold Exch.reclaimed
      rw [List.map_nil, List.append_nil]
      rfl
    · obtain ⟨t, again, run, exch', job, seen⟩ := remap_part (hjob ▸ hj) he (hjob ▸ hx) hparts hshards hflows hp hh
      rw [hjob] at exch' job
      have named : dst ∈ (j.joinedBy u).modules := by simp [remapHomes, hparts]
      obtain ⟨pool, retained⟩ := reclaimed_of_none (x := x.moved s.self dst p.toNat) (by simpa using hnone) 0 dst again
      rw [moved_pool] at pool
      rw [moved_retained] at retained
      refine ⟨t, _, j.joinedBy u, run, exch', ?_, pool, retained, by simp, ?_, ?_, job, named, fun i hi => ?_, seen⟩
      · simp [State.self, Assoc.get_set]
      · simp [Assoc.get_erase]
      · simp [credit, Assoc.get_erase]
      · simp [hi]
  · intro homes back ours
    obtain ⟨r, run, table, replica⟩ := remap_shard hj hparts hshards hflows ht
    have comes : s.comesBack t d.toNat home = true ↔ back := comesBack_iff
    refine ⟨fun hb => ⟨r, run, table.trans (congrArg some (withHome_moved (mt comes.mp hb)))⟩, fun hb => ?_⟩
    obtain ⟨frame, row⟩ := withHome_back (comes.mpr hb)
    refine ⟨r, _, run, table, frame, fun q hq => ?_, fun q x hx hq => ?_, fun x hx hm => ?_⟩
    · rw [row, fromReplica_row_kept hq]
    · rw [row, fromReplica_row_taken hq hx]
    · rw [replica (comes.mpr hb)] at hx
      have := (List.mem_filter.mp hx).2
      simp [hm] at this
  · refine ⟨_, publishedFilter j n js others, { j with filters := Assoc.set [] j.filters n (publishedFilter j n js others) },
      exec_bloomPublish hj hjs hf he hx hbuilt others, publishedFilter_length others,
      fun h hh hn => bloomPasses_publishedFilter hb others hh hn, fun i hi hbit => ?_, job?_setJob hj, rfl,
      (Assoc.get_set ..).trans (if_pos rfl), fun m hm => (Assoc.get_set ..).trans (if_neg hm), rfl⟩
    have inside : i < 512 * js.bloomBlocks := by
      rw [publishedFilter_length] at hi
      omega
    rw [bitOf_publishedFilter others inside, show bitOf others i = true from hbit, Bool.or_true]

end Sys2Proof.Machine

/-! ### O28: row migration (R245 to R248, Table 9.6) -/

namespace Sys2Proof.Machine

open Sys2Proof

/-! #### The redirect directory -/

/-- What a migration may change: the directory, M, the coalescing windows, the tables and the counters. -/
def Migrates (s t : State) : Prop := t = { s with
  felt := { s.felt with
    redirects := t.felt.redirects, migEpoch := t.felt.migEpoch, windows := t.felt.windows, tables := t.felt.tables },
  dict := { s.dict with values := t.dict.values } }

theorem Migrates.trans {s t u : State} (h : Migrates s t) (g : Migrates t u) : Migrates s u := by
  unfold Migrates at *
  rw [g, h]

theorem setRedirect_migrates (s : State) (r : Redirect) : Migrates s (s.setRedirect r) := rfl

theorem dropRedirect_migrates (s : State) (id : BitVec 16) (q : Nat) : Migrates s (s.dropRedirect id q) := rfl

theorem setTable_migrates (s : State) (t : Table) : Migrates s (s.setTable t) := rfl

theorem forgetRows_migrates (s : State) (gone : BitVec 16 → Nat → Bool) : Migrates s (s.forgetRows gone) := rfl

theorem raiseM_migrates (s : State) : Migrates s s.raiseM := rfl

theorem bump_migrates (s : State) (key n : Nat) : Migrates s (s.bump key n) := rfl

theorem redirect?_setRedirect (s : State) (r : Redirect) : (s.setRedirect r).redirect? r.table r.row = some r := by
  have rest : (s.felt.redirects.filter (fun x => !(x.table = r.table && x.row = r.row))).find?
      (fun x => x.table = r.table && x.row = r.row) = none :=
    List.find?_eq_none.mpr (fun x hx => by simpa [imp_iff_not_or] using (List.mem_filter.mp hx).2)
  unfold State.redirect? State.setRedirect
  rw [List.find?_append, rest]
  simp

theorem redirect?_dropRedirect (s : State) (id : BitVec 16) (q : Nat) : (s.dropRedirect id q).redirect? id q = none :=
  List.find?_eq_none.mpr (fun x hx => by simpa [imp_iff_not_or] using (List.mem_filter.mp hx).2)

theorem redirect?_names {s : State} {id : BitVec 16} {q : Nat} {r : Redirect} (h : s.redirect? id q = some r) :
    r.table = id ∧ r.row = q := by
  simpa using List.find?_some h

theorem rowAt_of_redirect {s : State} {t : Table} {q : Nat} {x : Redirect} (h : s.redirect? t.id q = some x) :
    s.rowAt t q = if x.state = .new && !x.released then x.copy else t.row q := by
  unfold State.rowAt
  rw [h]

theorem rowAt_of_no_redirect {s : State} {t : Table} {q : Nat} (h : s.redirect? t.id q = none) : s.rowAt t q = t.row q := by
  unfold State.rowAt
  rw [h]

/-! #### Step 1 -/

section
variable {s : State} {t : Table} {row : Nat}

/-- The entry that a migration of a row begins with. -/
def State.copying (s : State) (t : Table) (row : Nat) (home : BitVec 56) : Redirect :=
  { table := t.id, row := row, state := .copy, oldHome := (s.redirect? t.id row).map (·.newHome), newHome := home,
    copy := t.row row, released := false }

theorem exec_migrationStart (ht : s.table? t.id = some t) (home : BitVec 56) : exec (.migrationStart t.id row home) s =
    .next (if s.mayMigrate t row && !s.rowFails t row then s.setRedirect (s.copying t row home) else s) := by
  show execMigrationStart t.id row home s = _
  unfold execMigrationStart
  rw [ht]
  dsimp only
  split <;> rfl

/-! #### Steps 2 to 4 -/

variable {id : BitVec 16} {r : Redirect}

/-- An entry once lookups use its new home. -/
def Redirect.switched (r : Redirect) : Redirect := { r with state := .new }

theorem switchRow_eq (hs : r.state = .writeThrough) (hd : s.drained = true) : s.switchRow r =
    ((s.setRedirect r.switched).forgetRows (fun t x => t = r.table && x = r.row)).raiseM :=
  if_pos (by rw [hs, hd]; rfl)

theorem switchRow_of_not_drained (hd : s.drained = false) : s.switchRow r = s := if_neg (by simp [hd])

theorem exec_migrationSwitch (he : s.redirect? id row = some r) (hs : r.state ≠ .copy) :
    exec (.migrationSwitch id row) s = .next (s.switchRow r) := by
  have same : s.writeThrough r = s := if_neg hs
  show execMigrationSwitch id row s = _
  unfold execMigrationSwitch
  rw [he]
  dsimp only
  rw [same, he]

/-- Step 2 done by the switch itself (log entry 74). -/
theorem exec_migrationSwitch_copy (he : s.redirect? id row = some r) (hs : r.state = .copy) :
    exec (.migrationSwitch id row) s =
      .next (((s.setRedirect { r with state := .writeThrough }).raiseM).switchRow { r with state := .writeThrough }) := by
  obtain ⟨rfl, rfl⟩ := redirect?_names he
  have armed : s.writeThrough r = (s.setRedirect { r with state := .writeThrough }).raiseM := if_pos hs
  have found : ((s.setRedirect { r with state := .writeThrough }).raiseM).redirect? r.table r.row =
      some { r with state := .writeThrough } := redirect?_setRedirect s { r with state := .writeThrough }
  show execMigrationSwitch r.table r.row s = _
  unfold execMigrationSwitch
  rw [he]
  dsimp only
  rw [armed, found]

/-- A state with no stamped operation outstanding is drained, whatever M is. -/
theorem drained_of_idle (hu : ∀ c ∈ s.units, c.stamp = none) (hg : s.fab.heldGathers = []) (hw : s.felt.waiting = []) :
    s.drained = true := by
  have units : s.units.all (fun u => match u.stamp with | some n => n = s.felt.migEpoch | none => true) = true :=
    List.all_eq_true.mpr (fun c hc => by rw [hu c hc])
  unfold State.drained
  rw [hg, hw, Bool.and_eq_true, Bool.and_eq_true]
  exact ⟨⟨units, rfl⟩, rfl⟩

theorem drained_eq_false (h : ∃ c ∈ s.units, ∃ n, c.stamp = some n ∧ n ≠ s.felt.migEpoch) : s.drained = false := by
  obtain ⟨c, hc, n, hstamp, hn⟩ := h
  have stale : s.units.all (fun u => match u.stamp with | some n => n = s.felt.migEpoch | none => true) = false :=
    List.all_eq_false.mpr ⟨c, hc, by rw [hstamp]; simpa using hn⟩
  unfold State.drained
  rw [Bool.and_assoc, Bool.and_eq_false_iff]
  exact .inl stale

/-- What the switch leaves: M one higher, and lookups at the new home. -/
structure Switched (s u : State) (r : Redirect) : Prop where
  frame  : Migrates s u
  epoch  : u.felt.migEpoch = s.felt.migEpoch + 1
  tables : u.felt.tables = s.felt.tables
  entry  : u.redirect? r.table r.row = some r.switched

theorem switchRow_switched (hs : r.state = .writeThrough) (hd : s.drained = true) : Switched s (s.switchRow r) r := by
  rw [switchRow_eq hs hd]
  exact ⟨((setRedirect_migrates ..).trans (forgetRows_migrates ..)).trans (raiseM_migrates _), rfl, rfl,
    redirect?_setRedirect s r.switched⟩

theorem Switched.rowAt {u : State} (h : Switched s u r) (ht : r.table = t.id) (hf : r.released = false) :
    u.rowAt t r.row = r.copy := by
  rw [rowAt_of_redirect (ht ▸ h.entry)]
  simp [Redirect.switched, hf]

/-- Steps 2 to 4, whichever of them were still to be done. -/
theorem migrationSwitch_switches (he : s.redirect? id row = some r) (hs : r.state ≠ .new)
    (hu : ∀ c ∈ s.units, c.stamp = none) (hg : s.fab.heldGathers = []) (hw : s.felt.waiting = []) : ∃ u,
    exec (.migrationSwitch id row) s = .next u ∧ Migrates s u ∧
      u.felt.migEpoch = s.felt.migEpoch + (if r.state = .copy then 2 else 1) ∧ u.felt.tables = s.felt.tables ∧
      u.redirect? id row = some r.switched := by
  obtain ⟨rfl, rfl⟩ := redirect?_names he
  cases hr : r.state with
  | new => exact absurd hr hs
  | writeThrough =>
    have done := switchRow_switched hr (drained_of_idle hu hg hw)
    exact ⟨_, exec_migrationSwitch he (by simp [hr]), done.frame, done.epoch, done.tables, done.entry⟩
  | copy =>
    have done := switchRow_switched (s := (s.setRedirect { r with state := .writeThrough }).raiseM)
      (r := { r with state := .writeThrough }) rfl (drained_of_idle hu hg hw)
    have twice : s.felt.migEpoch + 1 + 1 = s.felt.migEpoch + 2 := by rw [BitVec.add_assoc]; rfl
    exact ⟨_, exec_migrationSwitch_copy he hr, ((setRedirect_migrates ..).trans (raiseM_migrates _)).trans done.frame,
      done.epoch.trans twice, done.tables, done.entry⟩

/-! #### Step 5 -/

theorem exec_migrationRelease (he : s.redirect? id row = some r) : exec (.migrationRelease id row) s =
    .next (if r.state = .new && !r.released && s.drained then s.releaseMigration r else s) := by
  show execMigrationRelease id row s = _
  unfold execMigrationRelease
  rw [he]
  dsimp only
  split <;> rfl

/-- The table once a migrated row has become its own. -/
def Table.takesRow (t : Table) (q : Nat) (b : Bytes) : Table := { t.setRow q b with bad := Assoc.erase t.bad q }

theorem takesRow_row (t : Table) (a q : Nat) (b : Bytes) : (t.takesRow a b).row q = if q = a then b else t.row q :=
  setRow_row t a q b

/-- An entry kept for its row's home alone. -/
def Redirect.freed (r : Redirect) : Redirect := { r with released := true }

theorem releaseMigration_eq (ht : s.table? r.table = some t) : s.releaseMigration r =
    let u := (s.setTable (t.takesRow r.row r.copy)).bump 0x38000C 1
    if r.newHome = Config.rowBase r.table.toNat r.row then u.dropRedirect r.table r.row else u.setRedirect r.freed := by
  unfold State.releaseMigration
  rw [ht]
  rfl

/-- What the release leaves: the row at its new home, with no entry or one kept for that home's sake. -/
structure Released (s u : State) (r : Redirect) (t : Table) : Prop where
  frame  : Migrates s u
  table  : u.table? r.table = some (t.takesRow r.row r.copy)
  counts : CountsBy 0x38000C 1 s u
  entry  : u.redirect? r.table r.row = none ∨ u.redirect? r.table r.row = some r.freed

theorem releaseMigration_released (ht : s.table? r.table = some t) : Released s (s.releaseMigration r) r t := by
  have hid : t.id = r.table := by simpa using List.find?_some ht
  have placed : (s.setTable (t.takesRow r.row r.copy)).table? r.table = some (t.takesRow r.row r.copy) :=
    hid ▸ table?_setTable (v := t.takesRow r.row r.copy) (t := t) (hid ▸ ht)
  have frame : Migrates s ((s.setTable (t.takesRow r.row r.copy)).bump 0x38000C 1) :=
    (setTable_migrates ..).trans (bump_migrates ..)
  have counts : CountsBy 0x38000C 1 s ((s.setTable (t.takesRow r.row r.copy)).bump 0x38000C 1) := bump_countsBy _ _ _
  rw [releaseMigration_eq ht]
  dsimp only
  split
  · exact ⟨frame.trans (dropRedirect_migrates ..), placed, counts, .inl (redirect?_dropRedirect ..)⟩
  · exact ⟨frame.trans (setRedirect_migrates ..), placed, counts, .inr (redirect?_setRedirect _ r.freed)⟩

/-! #### Abandonment (R248) -/

theorem exec_migrationAbandon (he : s.redirect? id row = some r) (hr : r.released = false) :
    exec (.migrationAbandon id row) s = .next (s.abandonMigration r) := by
  show execMigrationAbandon id row s = _
  unfold execMigrationAbandon
  rw [he]
  dsimp only
  rw [hr, if_neg (by decide)]

/-- The entry of an abandoned row that has an old home other than its base location. -/
def Redirect.returned (r : Redirect) (h : BitVec 56) : Redirect :=
  { r with state := .new, oldHome := none, newHome := h, released := true }

theorem abandonMigration_abandons (s : State) (r : Redirect) :
    let u := s.abandonMigration r
    Migrates s u ∧ u.felt.tables = s.felt.tables ∧ CountsBy 0x38000D 1 s u ∧
      u.redirect? r.table r.row = r.oldHome.map r.returned := by
  unfold State.abandonMigration
  cases r.oldHome with
  | none =>
    exact ⟨((dropRedirect_migrates ..).trans (forgetRows_migrates ..)).trans (bump_migrates ..), rfl, bump_countsBy _ _ _,
      redirect?_dropRedirect ..⟩
  | some h =>
    exact ⟨((setRedirect_migrates ..).trans (forgetRows_migrates ..)).trans (bump_migrates ..), rfl, bump_countsBy _ _ _,
      redirect?_setRedirect s (r.returned h)⟩

end

/-- Settles O28: each command's equation says what becomes of the row's entry, and a read of the row goes by the entry. -/
theorem rowMigration : Obligations.RowMigration := by
  unfold Obligations.RowMigration
  intro s t row home r ht entry felt
  refine ⟨fun hf => ?_, fun hm hf => ?_, fun he _ hrow hs hrel hu hg hw => ?_, fun he hs hd => ?_, fun he hs hstale => ?_,
    fun he htab hrow hs hrel hd => ?_, fun he htab hrow hrel => ?_⟩
  · rw [exec_migrationStart ht, hf, Bool.not_true, Bool.and_false, if_neg (by decide)]
  · have found : (s.setRedirect (s.copying t row home)).redirect? t.id row = some (s.copying t row home) :=
      redirect?_setRedirect s (s.copying t row home)
    refine ⟨_, exec_migrationStart ht home, ?_⟩
    rw [hm, hf, if_pos (by decide)]
    exact ⟨setRedirect_migrates .., rfl, rfl, rowAt_of_redirect found, found⟩
  · obtain ⟨u, run, frame, epoch, tables, found⟩ := migrationSwitch_switches he hs hu hg hw
    refine ⟨u, run, frame, epoch, tables, found, ?_⟩
    rw [rowAt_of_redirect found]
    simp [Redirect.switched, hrel]
  · exact ⟨_, exec_migrationSwitch he (by simp [hs]), (switchRow_switched hs hd).epoch⟩
  · have stale := drained_eq_false hstale
    rw [exec_migrationSwitch he hs, switchRow_of_not_drained stale, exec_migrationRelease he, stale, Bool.and_false,
      if_neg (by decide)]
    exact ⟨rfl, rfl⟩
  · subst hrow
    obtain ⟨frame, table, counts, after⟩ := releaseMigration_released (r := r) (htab ▸ ht)
    rw [htab] at table after
    have run := exec_migrationRelease he
    rw [hs, hrel, hd, if_pos (by decide)] at run
    have own : (t.takesRow r.row r.copy).row r.row = r.copy := (takesRow_row ..).trans (if_pos rfl)
    refine ⟨_, _, run, frame, table, ?_, fun q hq => (takesRow_row ..).trans (if_neg hq), counts, after⟩
    obtain none | kept := after
    · exact (rowAt_of_no_redirect (t := t.takesRow r.row r.copy) none).trans own
    · exact ((rowAt_of_redirect (t := t.takesRow r.row r.copy) kept).trans (if_neg (by simp [Redirect.freed]))).trans own
  · subst hrow
    obtain ⟨frame, tables, counts, after⟩ := abandonMigration_abandons s r
    rw [htab] at after
    refine ⟨_, exec_migrationAbandon he hrel, frame, tables, ?_, counts, fun hn => ?_, fun h hh => ?_⟩
    · cases hold : r.oldHome with
      | none => exact rowAt_of_no_redirect (after.trans (by rw [hold]; rfl))
      | some h =>
        rw [rowAt_of_redirect (x := r.returned h) (after.trans (by rw [hold]; rfl))]
        simp [Redirect.returned]
    · exact after.trans (by rw [hn]; rfl)
    · exact ⟨r.returned h, after.trans (by rw [hh]; rfl), rfl, rfl⟩

end Sys2Proof.Machine

/-! ### O27: the Felt engines (R226 to R241) -/

namespace Sys2Proof.Machine

open Sys2Proof

/-! #### A list of writes through the caches -/

theorem cellsOf_append (ws vs : List (Nat × Bytes)) : cellsOf (ws ++ vs) = cellsOf ws ++ cellsOf vs := List.flatMap_append

/-- Of two lists of stores the later one decides where it names the address. -/
theorem lastStore_append (xs ys : List (Nat × BitVec 8)) (a : Nat) : lastStore (xs ++ ys) a = (lastStore ys a).or (lastStore xs a) := by
  unfold lastStore
  rw [List.reverse_append, List.find?_append, Option.map_or]

theorem StoredInVat.trans {c : CoreId} {ws vs : List (Nat × Bytes)} {s t u : State} (h : StoredInVat c ws s t)
    (g : StoredInVat c vs t u) (ht : t.free = s.free) (hu : u.free = t.free) : StoredInVat c (ws ++ vs) s u := by
  obtain ⟨mem, ⟨bytes, others, kept⟩, stored⟩ := h
  obtain ⟨mem', ⟨bytes', others', kept'⟩, stored'⟩ := g
  have drawn : { u with free := t.free } = u := by rw [← hu]
  have drawn' : { t with free := s.free } = t := by rw [← ht]
  rw [drawn] at kept'
  rw [drawn'] at kept
  refine ⟨by rw [mem', mem], ⟨bytes'.trans bytes, others'.trans others, fun a ha => ?_⟩, fun a b hb => ?_⟩
  · rw [cellsOf_append] at ha
    rw [← ht, drawn]
    exact (kept' a (fun hx => ha (hx.imp fun b => List.mem_append_right _))).trans
      (kept a (fun hx => ha (hx.imp fun b => List.mem_append_left _)))
  · rw [cellsOf_append, lastStore_append] at hb
    cases hlast : lastStore (cellsOf vs) a with
    | some b' =>
      rw [hlast] at hb
      exact (stored' a b' hlast).trans (Option.some.inj hb)
    | none =>
      rw [hlast] at hb
      exact (kept' a (fun hx => hx.elim fun b => mem_of_lastStore_none hlast b)).trans (stored a b hb)

theorem unitStore_memOnly (s : State) (v : BitVec 6) (ws : List (Nat × Bytes)) : MemOnly s (s.unitStore v ws) := by
  unfold State.unitStore
  exact foldl_memOnly (fun s (w : Nat × Bytes) => s.store v w.1 w.2) (fun s w => store_memOnly s v w.1 w.2) ws s

theorem MemOnly.free {s t : State} (h : MemOnly s t) : t.free = s.free := by rw [h]

theorem unitStore_stored (c : CoreId) (ws : List (Nat × Bytes)) (s : State) : StoredInVat c ws s (s.unitStore c.vat ws) := by
  induction ws generalizing s with
  | nil => exact ⟨rfl, ⟨rfl, rfl, fun _ _ => rfl⟩, fun _ _ h => absurd h (by simp [lastStore, cellsOf])⟩
  | cons w ws ih =>
    have rest := unitStore_memOnly (s.store c.vat w.1 w.2) c.vat ws
    exact (store_storedInVat c w.1 w.2).trans (ih _) (store_memOnly ..).free rest.free

/-- The writes of a unit seen from states with the same memory and draws. -/
theorem StoredInVat.of_mem {c : CoreId} {ws : List (Nat × Bytes)} {s t s' t' : State} (h : StoredInVat c ws s t)
    (hs : s'.mem = s.mem) (hf : s'.free = s.free) (ht : t'.mem = t.mem) (hg : t'.free = t.free) : StoredInVat c ws s' t' := by
  obtain ⟨mem, ⟨bytes, others, kept⟩, stored⟩ := h
  refine ⟨by rw [ht, hs, mem], ⟨by rw [ht, hs, bytes], by rw [ht, hs, others], fun a ha => ?_⟩, fun a b hb => ?_⟩
  · exact (seenByte_congr (s := { t with free := s.free }) (t := { t' with free := s'.free }) (congrArg Memory.bytes ht)
      (congrArg Memory.l2 ht) hf c.vat a).trans
      ((kept a ha).trans (seenByte_congr (congrArg Memory.bytes hs) (congrArg Memory.l2 hs) hf c.vat a).symm)
  · exact (seenByte_congr (congrArg Memory.bytes ht) (congrArg Memory.l2 ht) hg c.vat a).trans (stored a b hb)

/-! #### Bits as bytes -/

/-- A number built from chosen powers of two has just these bits. -/
theorem foldl_bits_testBit (p : Nat → Bool) (m : Nat) : let v := (List.range m).foldl (fun a k => if p k then a + 2 ^ k else a) 0
    v < 2 ^ m ∧ ∀ k, v.testBit k = (decide (k < m) && p k) := by
  induction m with
  | zero => simp
  | succ m ih =>
    obtain ⟨small, bits⟩ := ih
    simp only [List.range_succ, List.foldl_append, List.foldl_cons, List.foldl_nil]
    generalize (List.range m).foldl (fun a k => if p k then a + 2 ^ k else a) 0 = v at small bits
    have bound : (if p m then v + 2 ^ m else v) < 2 ^ (m + 1) := by
      rw [Nat.pow_succ]
      split <;> omega
    refine ⟨bound, fun k => ?_⟩
    rcases Nat.lt_trichotomy k m with h | rfl | h
    · have same : (if p m then v + 2 ^ m else v).testBit k = v.testBit k := by
        split
        · rw [Nat.add_comm, Nat.testBit_two_pow_add_gt h]
        · rfl
      rw [same, bits]
      simp [h, Nat.lt_succ_of_lt h]
    · cases hp : p k with
      | false => simp [bits]
      | true => simp [Nat.add_comm v, Nat.testBit_two_pow_add_eq, bits]
    · rw [Nat.testBit_lt_two_pow (bound.trans_le (Nat.pow_le_pow_right (by decide) h))]
      simp [Nat.not_lt.mpr (Nat.succ_le_of_lt h)]

theorem bitBytes_length (n : Nat) (f : Nat → Bool) : (bitBytes n f).length = ceilDiv n 8 := by simp [bitBytes]

theorem ceilDiv_whole (c : Nat) : ceilDiv (8 * c) 8 = c := by
  unfold ceilDiv
  omega

theorem bitBytes_bit {c j : Nat} (f : Nat → Bool) (h : j < 8 * c) :
    ((bitBytes (8 * c) f)[j / 8]?.getD 0).getLsbD (j % 8) = f j := by
  have byte : j / 8 < ceilDiv (8 * c) 8 := by
    rw [ceilDiv_whole]
    omega
  have bit := (foldl_bits_testBit (fun k => 8 * (j / 8) + k < 8 * c && f (8 * (j / 8) + k)) 8).2 (j % 8)
  have place : 8 * (j / 8) + j % 8 = j := by omega
  have low : j % 8 < 8 := by omega
  simp only [place, h, low, decide_true, Bool.true_and] at bit
  simp only [bitBytes, List.getElem?_map, List.getElem?_range byte, Option.map_some, Option.getD_some, BitVec.getLsbD_ofNat, low,
    decide_true, Bool.true_and]
  exact bit

/-! #### Reads through a coalescing window -/

/-- The state after reads through a window: the window's entries, class A lines and counters. -/
def State.windowed (s : State) (windows : Assoc (List (BitVec 16 × Nat))) (lines : Nat) (values : Assoc Nat) : State :=
  { s with felt := { s.felt with windows := windows }, hb := { s.hb with winLines := s.hb.winLines + lines },
           dict := { s.dict with values := values } }

theorem windowRead_windowed (s : State) (v : BitVec 6) (clsA : Bool) (p : BitVec 16 × Nat) : ∃ windows lines values,
    s.windowRead v clsA p = s.windowed windows lines values ∧ (clsA = false → lines = 0) := by
  unfold State.windowRead
  dsimp only
  split
  · exact ⟨_, 0, _, rfl, fun _ => rfl⟩
  · cases clsA with
    | true => exact ⟨_, _, _, rfl, fun h => by cases h⟩
    | false => exact ⟨_, 0, _, rfl, fun _ => rfl⟩

theorem windowReads_windowed (s : State) (v : BitVec 6) (clsA : Bool) (t : Table) (idx : List Nat) : ∃ windows lines values,
    s.windowReads v clsA t idx = s.windowed windows lines values ∧ (clsA = false → lines = 0) := by
  unfold State.windowReads
  generalize idx.flatMap (s.localParts t) = ps
  induction ps generalizing s with
  | nil => exact ⟨_, 0, _, rfl, fun _ => rfl⟩
  | cons p ps ih =>
    obtain ⟨_, n, _, first, none_first⟩ := windowRead_windowed s v clsA p
    obtain ⟨w, m, x, rest, none_rest⟩ := ih (s.windowRead v clsA p)
    refine ⟨w, n + m, x, ?_, fun h => by rw [none_first h, none_rest h]⟩
    rw [List.foldl_cons, rest, first]
    unfold State.windowed
    rw [← Nat.add_assoc]

/-! #### GATHER (R235) -/

section
variable {s : State} {u : UnitCmd} {t : Table} {inst op : Nat}

/-- A command's class A item may be marked degraded, and its core waits for the command as before. -/
theorem degrade_items (ha : Awaits s u) : ∃ items,
    s.degrade u = { s with hb := { s.hb with items := items } } ∧ Awaits (s.degrade u) u := by
  unfold State.degrade State.cmdItem
  cases hi : u.item with
  | none => exact ⟨_, rfl, ha⟩
  | some key =>
    have run := ha.run
    rw [hi] at run
    obtain ⟨held, it, hit, attempt⟩ := run
    dsimp only
    rw [hit]
    dsimp only
    split
    · have hkey : it.key = key := item?_key hit
      subst hkey
      refine ⟨_, rfl, ha.ticket, ha.finishing, ?_⟩
      rw [hi]
      exact ⟨held, _, item?_setItem (x := { it with degraded := true }) hit, attempt⟩
    · exact ⟨_, rfl, ha⟩

/-- The status of a command: FELT_RANGE where some index names no row of the table. -/
def State.feltStatus (s : State) (u : UnitCmd) (t : Table) : BitVec 16 :=
  if (List.range (feltCount u)).any (fun j => s.resolve t (s.feltIndexAt u j) = .range) then 0x0510 else 0

/-- The validity bitmap of a GATHER. -/
def State.gatherBits (s : State) (u : UnitCmd) (t : Table) : Bytes :=
  bitBytes (8 * ceilDiv (feltCount u) 8) (fun j =>
    if j < feltCount u then (s.gatherRow u t (s.feltIndexAt u j)).isSome else s.validBit u j)

/-- What a GATHER writes: its rows, zeros where there is none, and the bitmap if it asks for one. -/
def State.gatherWrites (s : State) (u : UnitCmd) (t : Table) : List (Nat × Bytes) :=
  (List.range (feltCount u)).map (fun j => (feltDst u + j * gatherStep u t.elems,
    (s.gatherRow u t (s.feltIndexAt u j)).getD (zeros (t.elems * etypeBytes (feltType? u))))) ++
    (if feltValid u = 0 then [] else [(feltValid u, s.gatherBits u t)])

/-- The state in which a GATHER writes: its rows have been read, and a class A request's condition noted. -/
def State.gathered (s : State) (u : UnitCmd) (t : Table) : State :=
  let idx := (List.range (feltCount u)).map (s.feltIndexAt u)
  (if u.cls = 0 && idx.any (fun i => s.farParts t i || s.anyPart s.rowBad t i) then s.degrade u else s).windowReads
    u.core.vat (u.cls = 0) t idx

theorem gathered_eq (ha : Awaits s u) (t : Table) : Awaits (s.gathered u t) u ∧ ∃ items windows lines values,
    s.gathered u t = ({ s with hb := { s.hb with items := items } } : State).windowed windows lines values ∧
      (u.cls ≠ 0 → items = s.hb.items ∧ lines = 0) := by
  have noted : ∀ b : Bool, ∃ items, (if u.cls = 0 && b then s.degrade u else s) = { s with hb := { s.hb with items := items } } ∧
      Awaits { s with hb := { s.hb with items := items } } u ∧ (u.cls ≠ 0 → items = s.hb.items) := fun b => by
    by_cases hc : (decide (u.cls = 0) && b) = true
    · obtain ⟨items, eq, waits⟩ := degrade_items ha
      rw [if_pos hc]
      exact ⟨items, eq, eq ▸ waits, fun h => absurd (of_decide_eq_true (Bool.and_eq_true _ _ ▸ hc).1) h⟩
    · rw [if_neg hc]
      exact ⟨_, rfl, ha, fun _ => rfl⟩
  unfold State.gathered
  dsimp only
  generalize (List.range (feltCount u)).map (s.feltIndexAt u) = idx
  obtain ⟨items, eq, waits, kept⟩ := noted (idx.any (fun i => s.farParts t i || s.anyPart s.rowBad t i))
  rw [eq]
  obtain ⟨w, n, x, reads, none⟩ :=
    windowReads_windowed { s with hb := { s.hb with items := items } } u.core.vat (u.cls = 0) t idx
  rw [reads]
  exact ⟨⟨waits.ticket, waits.finishing, waits.run⟩, items, w, n, x, rfl, fun h => ⟨kept h, none (decide_eq_false h)⟩⟩

theorem forget_no_response (s : State) : ({ s with fab := { s.fab with
    responses := s.fab.responses.filter (fun r => !([] : List (BitVec 64)).contains r.1) } } : State) = s := by
  simp

/-- A GATHER that has asked nobody ends with its rows and its bitmap written. -/
theorem gatherEnd_eq (ha : u.asked = []) : s.gatherEnd u t =
    ((s.gathered u t).unitStore u.core.vat (s.gatherWrites u t)).unitEnd u (s.feltStatus u t) := by
  have row : ∀ j, j < feltCount u → (((List.range (feltCount u)).map (s.feltIndexAt u)).map (s.gatherRow u t))[j]?.getD none =
      s.gatherRow u t (s.feltIndexAt u j) := fun j hj => by
    rw [List.getElem?_map, List.getElem?_map, List.getElem?_range hj, Option.map_some, Option.map_some, Option.getD_some]
  have rows : (List.range (feltCount u)).map (fun j => (feltDst u + j * gatherStep u t.elems,
      ((((List.range (feltCount u)).map (s.feltIndexAt u)).map (s.gatherRow u t))[j]?.getD none).getD
        (zeros (t.elems * etypeBytes (feltType? u))))) =
      (List.range (feltCount u)).map (fun j => (feltDst u + j * gatherStep u t.elems,
        (s.gatherRow u t (s.feltIndexAt u j)).getD (zeros (t.elems * etypeBytes (feltType? u))))) :=
    List.map_congr_left (fun j hj => by rw [row j (List.mem_range.mp hj)])
  have bits : bitBytes (8 * ceilDiv (feltCount u) 8) (fun j => if j < feltCount u then
      ((((List.range (feltCount u)).map (s.feltIndexAt u)).map (s.gatherRow u t))[j]?.getD none).isSome else s.validBit u j) =
      s.gatherBits u t := by
    refine congrArg (bitBytes (8 * ceilDiv (feltCount u) 8)) (funext fun j => ?_)
    by_cases hj : j < feltCount u
    · rw [if_pos hj, if_pos hj, row j hj]
    · rw [if_neg hj, if_neg hj]
  have status : (if ((List.range (feltCount u)).map (s.feltIndexAt u)).any (fun i => s.resolve t i = .range) then (0x0510 : BitVec 16)
      else 0) = s.feltStatus u t := by
    unfold State.feltStatus
    simp only [List.any_map, Function.comp_def]
  unfold State.gatherEnd
  dsimp only
  unfold State.gathered State.gatherWrites
  dsimp only
  rw [rows, bits, status, ha, List.map_nil, forget_no_response]

theorem felt_known (hn : NextCmd s 0 inst op u) (h1 : 1 ≤ op) (h2 : op ≤ 3) : u.known = true := by
  obtain ⟨hu, -, hop⟩ := hn.here
  have field : u.field 0 1 = op := hop
  unfold UnitCmd.known
  dsimp only
  rw [hu, field]
  simp [unitOps, h1, h2]

/-- A GATHER whose rows all lie here, where they can be read, has all it needs. -/
theorem gatherCmd_eq (he : NoErrors s) (hr : s.feltReject u = none) (ht : s.table? (feltTable u) = some t) (ha : u.asked = [])
    (hl : ∀ j, j < feltCount u → s.remoteRows t (s.feltIndexAt u j) = [] ∧ s.partsFail t (s.feltIndexAt u j) = false) :
    s.gatherCmd u = s.gatherEnd u t := by
  have good : (feltRanges u t.elems).1.any (s.unitPoisoned u.core.vat) = false :=
    List.any_eq_false.mpr (fun r _ => by simp [unitPoisoned_eq_false he])
  have near : ((List.range (feltCount u)).map (s.feltIndexAt u)).flatMap (s.remoteRows t) = [] := by
    rw [List.flatMap_map, List.flatMap_eq_nil_iff]
    exact fun j hj => (hl j (List.mem_range.mp hj)).1
  have readable : ((List.range (feltCount u)).map (s.feltIndexAt u)).any (s.partsFail t) = false := by
    rw [List.any_map, List.any_eq_false]
    exact fun j hj => by simp [(hl j (List.mem_range.mp hj)).2]
  have answered : s.answered u = true := by
    unfold State.answered
    rw [ha]
    rfl
  have status : s.answerStatus u = 0 := by
    unfold State.answerStatus
    rw [ha]
    rfl
  unfold State.gatherCmd
  rw [hr, ht]
  dsimp only
  rw [good, near, readable, answered, status]
  simp

/-- R235: a GATHER of rows that all lie here. -/
theorem gather_runs {vat : BitVec 6} (hw : Awaits s u) (he : NoErrors s) (hr : s.feltReject u = none)
    (ht : s.table? (feltTable u) = some t) (hn : NextCmd s 0 vat.toNat 1 u) (ha : u.asked = [])
    (hl : ∀ j, j < feltCount u → s.remoteRows t (s.feltIndexAt u j) = [] ∧ s.partsFail t (s.feltIndexAt u j) = false) :
    ∃ r, exec (.gather vat) s = .next r ∧ Reported s r u (s.feltStatus u t) ∧ StoredInVat u.core (s.gatherWrites u t) s r ∧
      r = { s with units := r.units, cores := r.cores, mem := r.mem, felt := { s.felt with windows := r.felt.windows },
                   hb := { s.hb with items := r.hb.items, winLines := r.hb.winLines },
                   dict := { s.dict with values := r.dict.values } } ∧
      (u.cls ≠ 0 → r.hb = s.hb) := by
  have run : exec (.gather vat) s = .next (s.gatherCmd u) :=
    serveNext_runs (unit := 0) hn (felt_known hn (by decide) (by decide)) State.gatherCmd
  rw [gatherCmd_eq he hr ht ha hl, gatherEnd_eq ha] at run
  obtain ⟨waits, items, windows, lines, values, eq, kept⟩ := gathered_eq hw t
  have stored := unitStore_stored u.core (s.gatherWrites u t) (s.gathered u t)
  obtain ⟨m, write⟩ : ∃ m, (s.gathered u t).unitStore u.core.vat (s.gatherWrites u t) = { s.gathered u t with mem := m } :=
    ⟨_, unitStore_memOnly ..⟩
  rw [eq] at waits write stored run
  rw [write] at run stored
  obtain ⟨reported, frame⟩ := unitEnd_reported (s := s)
    (t := { ({ s with hb := { s.hb with items := items } } : State).windowed windows lines values with mem := m })
    ⟨waits.ticket, waits.finishing, waits.run⟩ rfl rfl (s.feltStatus u t)
  refine ⟨_, run, reported, stored.of_mem rfl rfl (by rw [frame]) (by rw [frame]), by rw [frame]; rfl, fun hc => ?_⟩
  obtain ⟨rfl, rfl⟩ := kept hc
  rw [frame]
  rfl

/-! #### Scatters (R238 to R240) -/

/-- The values of an index, as elements. -/
def State.scatterVals (s : State) (u : UnitCmd) (t : Table) (j : Nat) : List Nat :=
  elemsOf (etypeBytes (feltType? u)) t.elems (s.seen u.core.vat (feltValues u + j * (t.elems * etypeBytes (feltType? u)))
    (t.elems * etypeBytes (feltType? u)))

theorem scatterRow_eq (s : State) (u : UnitCmd) (t : Table) (j : Nat) : s.scatterRow u t j = s.scatterVals u t j := by
  unfold State.scatterRow State.scatterVals
  dsimp only
  rw [Nat.mul_assoc]

/-- The epoch that an item's contributions to a table count in (R241). -/
def ItemKey.epoch (key : ItemKey) (t : Table) : Nat := if t.epochItems = 0 then 0 else key.seq.toNat / t.epochItems

/-- One contribution for each index that names a row. -/
def State.contributions (s : State) (u : UnitCmd) (t : Table) (key : ItemKey) (entry : Nat → Nat → Combine) : List Contribution :=
  (List.range (feltCount u)).filterMap (fun j => match s.resolve t (s.feltIndexAt u j) with
    | .rows [p] => some { item := key, attempt := u.attempt, entry := entry j p.2 }
    | _ => none)

/-- The combining entry of one index of a SCATTER_ADD (R238). -/
def State.addEntry (s : State) (u : UnitCmd) (t : Table) (key : ItemKey) (j r : Nat) : Combine :=
  { table := t.id, epoch := key.epoch t, row := r, conflict := false, set := none,
    adds := (s.scatterVals u t j).map (fun x => (exactInput (feltType? u) x).getD 0) }

/-- The combining entry of one index of a SCATTER_SET (R239). -/
def State.setEntry (s : State) (u : UnitCmd) (t : Table) (key : ItemKey) (j r : Nat) : Combine :=
  { table := t.id, epoch := key.epoch t, row := r, conflict := false, adds := [],
    set := some (BitVec.ofNat 64 (leVal (s.seen u.core.vat (feltOrder u + 8 * j) 8)),
      convertRow (feltType? u) t.etype.toNat (s.scatterVals u t j)) }

theorem scatterEntries_eq (s : State) (u : UnitCmd) (t : Table) (key : ItemKey) : s.scatterEntries u t key =
    s.contributions u t key (if feltOp u = 2 then s.addEntry u t key else s.setEntry u t key) := by
  unfold State.scatterEntries State.contributions
  refine List.filterMap_congr (fun j _ => ?_)
  cases s.resolve t (s.feltIndexAt u j) with
  | null => rfl
  | range => rfl
  | rows parts =>
    match parts with
    | [] => rfl
    | [p] =>
      dsimp only
      rw [scatterRow_eq]
      split <;> rfl
    | _ :: _ :: _ => rfl

/-- R238 to R240: a scatter's contributions join those that wait for their item's acceptance. -/
theorem scatter_runs {key : ItemKey} {i : Instr} (hi : exec i s = .next (s.scatterCmd u)) (hw : Awaits s u) (he : NoErrors s)
    (hr : s.feltReject u = none) (ht : s.table? (feltTable u) = some t) (hkey : u.item = some key) :
    ∃ r, exec i s = .next r ∧ Reported s r u (s.feltStatus u t) ∧ r = { s with
      units := r.units, cores := r.cores, felt := { s.felt with pending := s.felt.pending ++ s.scatterEntries u t key } } := by
  have good : (feltRanges u t.elems).1.any (s.unitPoisoned u.core.vat) = false :=
    List.any_eq_false.mpr (fun r _ => by simp [unitPoisoned_eq_false he])
  have ends : s.scatterCmd u = ({ s with
      felt := { s.felt with pending := s.felt.pending ++ s.scatterEntries u t key } } : State).unitEnd u (s.feltStatus u t) := by
    unfold State.scatterCmd
    rw [hr, ht, hkey]
    dsimp only
    rw [good, if_neg (by decide)]
    rfl
  rw [ends] at hi
  obtain ⟨reported, frame⟩ := unitEnd_reported (s := s)
    (t := { s with felt := { s.felt with pending := s.felt.pending ++ s.scatterEntries u t key } })
    ⟨hw.ticket, hw.finishing, hw.run⟩ rfl rfl (s.feltStatus u t)
  exact ⟨_, hi, reported, by rw [frame]⟩

end

/-! #### Rows read here (R228, R229, R235) -/

theorem resolve_direct {s : State} {t : Table} (hk : t.kind = 1) (i : Nat) :
    s.resolve t i = if i = 2 ^ 64 - 1 then .null else if i < t.nrows then .rows [(t.id, i)] else .range := by
  unfold State.resolve
  rw [if_pos hk]

theorem gatherRow_none {s : State} {t : Table} {i : Nat} (hk : t.kind = 1) (h : t.nrows ≤ i ∨ i = 2 ^ 64 - 1) (u : UnitCmd) :
    s.gatherRow u t i = none := by
  unfold State.gatherRow
  rw [resolve_direct hk]
  by_cases hnull : i = 2 ^ 64 - 1
  · rw [if_pos hnull]
  · rw [if_neg hnull, if_neg (Nat.not_lt.mpr (h.resolve_right hnull))]

theorem gatherRow_here {s : State} {t : Table} {i : Nat} (hk : t.kind = 1) (ht : s.table? t.id = some t) (hi : i < t.nrows)
    (hnull : i ≠ 2 ^ 64 - 1) (hh : t.homeOf i s.self = none) (u : UnitCmd) : s.gatherRow u t i =
      some (convertRow t.etype.toNat (feltType? u) (elemsOf (etypeBytes t.etype.toNat) t.elems (s.rowAt t i))) := by
  have part : s.partElems u i (t.id, i) = (elemsOf (etypeBytes t.etype.toNat) t.elems (s.rowAt t i), t.etype.toNat) := by
    unfold State.partElems
    rw [ht]
    dsimp only
    rw [hh, if_neg (by decide)]
  unfold State.gatherRow
  rw [resolve_direct hk, if_neg hnull, if_pos hi]
  dsimp only
  rw [part]

/-! #### The close of an epoch (R241) -/

/-- Rows of a table and their migrating copies have been written, and the windows have forgotten them. -/
def RowsOnly (s t : State) : Prop := t = { s with
  felt := { s.felt with tables := t.felt.tables, redirects := t.felt.redirects, windows := t.felt.windows } }

theorem RowsOnly.trans {s t u : State} (h : RowsOnly s t) (g : RowsOnly t u) : RowsOnly s u := by
  unfold RowsOnly at *
  rw [g, h]

/-- The rows of a list have been written to a table, each as the list says. -/
structure RowsWritten (s u : State) (t : Table) (new : List (Nat × Bytes)) (t' : Table) : Prop where
  frame : RowsOnly s u
  table : u.table? t.id = some t'
  same  : t' = { t with rows := t'.rows }
  wrote : ∀ r ∈ new, u.rowAt t' r.1 = r.2
  kept  : ∀ q, (∀ r ∈ new, r.1 ≠ q) → u.rowAt t' q = s.rowAt t q

section
variable {s : State} {t : Table}

/-- A redirect entry after a write of a row. -/
def Redirect.writes (id : BitVec 16) (a : Nat) (b : Bytes) (x : Redirect) : Redirect :=
  if x.table = id && x.row = a then { x with copy := b } else x

theorem writeRow_eq (ht : s.table? t.id = some t) (a : Nat) (b : Bytes) : ∃ windows, s.writeRow t.id a b =
    { s.setTable (t.setRow a b) with felt := { (s.setTable (t.setRow a b)).felt with
        windows := windows, redirects := s.felt.redirects.map (Redirect.writes t.id a b) } } := by
  unfold State.writeRow
  rw [ht]
  exact ⟨_, rfl⟩

theorem writes_names (id : BitVec 16) (a : Nat) (b : Bytes) (x : Redirect) :
    (x.writes id a b).table = x.table ∧ (x.writes id a b).row = x.row := by
  unfold Redirect.writes
  split <;> exact ⟨rfl, rfl⟩

theorem writeRow_redirect? (ht : s.table? t.id = some t) (a q : Nat) (b : Bytes) :
    (s.writeRow t.id a b).redirect? t.id q = (s.redirect? t.id q).map (Redirect.writes t.id a b) := by
  obtain ⟨windows, eq⟩ := writeRow_eq ht a b
  rw [eq]
  refine List.find?_map.trans (congrArg (Option.map _) (congrArg (fun p => List.find? p s.felt.redirects) (funext fun x => ?_)))
  obtain ⟨table, row⟩ := writes_names t.id a b x
  rw [Function.comp_apply, table, row]

/-- A write reaches both homes of a row that migrates (R246, R247). -/
theorem writeRow_rowAt (ht : s.table? t.id = some t) (a q : Nat) (b : Bytes) :
    (s.writeRow t.id a b).rowAt (t.setRow a b) q = if q = a then b else s.rowAt t q := by
  have entry := writeRow_redirect? ht a q b
  cases hx : s.redirect? t.id q with
  | none =>
    rw [hx] at entry
    rw [rowAt_of_no_redirect (t := t.setRow a b) entry, rowAt_of_no_redirect hx, setRow_row]
  | some x =>
    obtain ⟨htab, hrow⟩ := redirect?_names hx
    rw [hx] at entry
    rw [rowAt_of_redirect (t := t.setRow a b) entry, rowAt_of_redirect hx, setRow_row]
    by_cases hq : q = a
    · simp [Redirect.writes, htab, hrow, hq]
    · simp [Redirect.writes, hrow, hq]

theorem writeRow_written (ht : s.table? t.id = some t) (a : Nat) (b : Bytes) :
    RowsWritten s (s.writeRow t.id a b) t [(a, b)] (t.setRow a b) := by
  obtain ⟨windows, eq⟩ := writeRow_eq ht a b
  refine ⟨by rw [eq]; rfl, by rw [eq]; exact table?_setTable (v := t.setRow a b) (t := t) ht, rfl, fun r hr => ?_, fun q hq => ?_⟩
  · obtain rfl := List.mem_singleton.mp hr
    rw [writeRow_rowAt ht, if_pos rfl]
  · rw [writeRow_rowAt ht, if_neg (Ne.symm (hq _ (List.mem_singleton_self _)))]

theorem writeRows_written {new : List (Nat × Bytes)} (ht : s.table? t.id = some t) (hd : new.Pairwise (fun a b => a.1 ≠ b.1)) :
    ∃ t', RowsWritten s (new.foldl (fun s r => s.writeRow t.id r.1 r.2) s) t new t' := by
  induction new generalizing s t with
  | nil => exact ⟨t, rfl, ht, rfl, nofun, fun _ _ => rfl⟩
  | cons r new ih =>
    obtain ⟨apart, hd⟩ := List.pairwise_cons.mp hd
    have first := writeRow_written ht r.1 r.2
    obtain ⟨t', frame, table, same, wrote, kept⟩ := ih (s := s.writeRow t.id r.1 r.2) (t := t.setRow r.1 r.2) first.table hd
    refine ⟨t', first.frame.trans frame, table, by rw [same]; rfl, fun x hx => ?_, fun q hq => ?_⟩
    · rcases List.mem_cons.mp hx with rfl | hx
      · exact (kept x.1 (fun y hy => Ne.symm (apart y hy))).trans (first.wrote _ (List.mem_singleton_self _))
      · exact wrote x hx
    · obtain ⟨hr, hnew⟩ := List.forall_mem_cons.mp hq
      exact (kept q hnew).trans (first.kept q (fun y hy => List.mem_singleton.mp hy ▸ hr))

theorem retryGathers_of_none (h : s.fab.heldGathers = []) : s.retryGathers = s := by
  have same : { s.fab with heldGathers := [] } = s.fab := by rw [← h]
  unfold State.retryGathers
  rw [h, same]
  rfl

theorem unloadEnded_of_none (h : ∀ j ∈ s.hb.jobs, j.finalSent = false) : s.unloadEnded = s := by
  unfold State.unloadEnded
  rw [List.filter_eq_nil_iff.mpr (fun j hj => by simp [h j hj])]
  rfl

/-- The entries that an epoch's close applies. -/
def State.closing (s : State) (t : Table) : List Combine := s.felt.combines.filter (fun c => c.table = t.id && c.epoch = t.version)

/-- What a close leaves, once each of its entries has been applied to its row. -/
structure Closed (s r : State) (t t' : Table) : Prop where
  table    : r.table? t.id = some t'
  version  : t'.version = t.version + 1
  applied  : ∀ c ∈ s.closing t, r.rowAt t' c.row = s.closedRow t c
  kept     : ∀ q, (∀ c ∈ s.closing t, c.row ≠ q) → r.rowAt t' q = s.rowAt t q
  combines : r.felt.combines = s.felt.combines.filter (fun c => !(c.table = t.id && c.epoch = t.version))
  counts   : CountsBy 0x38000E ((s.closing t).filter (·.conflict)).length s r
  frame    : r = { s with felt := r.felt, dict := { s.dict with values := r.dict.values } }

theorem ownEntries_eq (hh : ∀ c ∈ s.closing t, t.homeOf c.row s.self = none) : s.ownEntries t t.version = s.closing t :=
  List.filter_eq_self.mpr (fun c hc => by rw [hh c hc]; rfl)

/-- A table whose version has risen with the close of an epoch. -/
def Table.closes (t : Table) (v : Nat) : Table := { t with version := v + 1, commits := Assoc.erase t.commits v }

/-- The close of epoch v of a table, its n conflicts counted, once the rows have been written. -/
def State.closes (s : State) (t : Table) (v n : Nat) : State :=
  let u := (s.bump 0x38000E n).setTable (t.closes v)
  { u with felt := { u.felt with combines := u.felt.combines.filter (fun c => !(c.table = t.id && c.epoch = v)),
                                 waiting := u.felt.waiting.filter (fun w => !(w.table = t.id && w.epoch = v)) } }

theorem closeDone_eq {w : State} {t' : Table} (ht : s.table? t.id = some t) (hh : ∀ c ∈ s.closing t, t.homeOf c.row s.self = none)
    (hw : ((s.closing t).map (fun c => (c.row, s.closedRow t c))).foldl (fun s r => s.writeRow t.id r.1 r.2) s = w)
    (found : w.table? t.id = some t') (id : t'.id = t.id) : s.closeDone t.id t.version =
      (w.closes t' t.version ((s.closing t).filter (·.conflict)).length).retryGathers := by
  have counted : (w.bump 0x38000E ((s.closing t).filter (·.conflict)).length).table? t.id = some t' := found
  unfold State.closeDone
  rw [ht]
  dsimp only
  rw [ownEntries_eq hh, hw, counted, ← id]
  rfl

/-- R241: a close applies each entry to its row once. -/
theorem closeDone_closed (ht : s.table? t.id = some t) (hh : ∀ c ∈ s.closing t, t.homeOf c.row s.self = none)
    (hd : (s.closing t).Pairwise (fun a b => a.row ≠ b.row)) (hg : s.fab.heldGathers = []) :
    ∃ t', Closed s (s.closeDone t.id t.version) t t' := by
  have rows : ((s.closing t).map (fun c => (c.row, s.closedRow t c))).Pairwise (fun a b => a.1 ≠ b.1) := List.pairwise_map.mpr hd
  obtain ⟨t', frame, table, same, wrote, kept⟩ := writeRows_written ht rows
  generalize hw : ((s.closing t).map (fun c => (c.row, s.closedRow t c))).foldl (fun s r => s.writeRow t.id r.1 r.2) s = w at *
  have id : t'.id = t.id := by rw [same]
  have combines : w.felt.combines = s.felt.combines := by rw [frame]
  have done := closeDone_eq ht hh hw table id
  obtain ⟨felt, rfl⟩ : ∃ felt, w = { s with felt := felt } := ⟨_, frame⟩
  rw [done, retryGathers_of_none (by exact hg)]
  refine ⟨t'.closes t.version, ?_, rfl, fun c hc => wrote _ (List.mem_map_of_mem hc), fun q hq => kept q (List.forall_mem_map.mpr hq),
    ?_, bump_countsBy { s with felt := felt } _ _, rfl⟩
  · exact id ▸ table?_setTable (s := ({ s with felt := felt } : State).bump _ _) (v := t'.closes t.version) (t := t') (id ▸ table)
  · rw [← combines, ← id]
    rfl

theorem mergeFar_alone (h : ∀ j f, s.flow? t.flow = some (j, f) → j.modules = [s.straps.modid]) (u : Nat) : s.mergeFar t u = s := by
  unfold State.mergeFar
  cases hf : s.flow? t.flow with
  | none => rfl
  | some x => exact if_pos (h x.1 x.2 hf)

/-- Entries of a table whose rows lie here are handed to nobody. -/
theorem handPartials_none (hr : t.replicated = false) (hh : ∀ c ∈ s.closing t, t.homeOf c.row s.self = none) :
    s.handPartials t t.version = s := by
  have entries : s.epochEntries t t.version = s.closing t := rfl
  unfold State.handPartials
  rw [entries]
  generalize s.closing t = l at hh
  induction l with
  | nil => rfl
  | cons c l ih =>
    obtain ⟨hc, hl⟩ := List.forall_mem_cons.mp hh
    rw [List.foldl_cons, hc]
    simp only [hr] at ih ⊢
    exact ih hl

/-- No entry of a close meets a stopped lease or a row that must be read and cannot be. -/
structure Closable (s : State) (t : Table) : Prop where
  alone   : ∀ j f, s.flow? t.flow = some (j, f) → j.modules = [s.straps.modid]
  room    : s.combineStop = none
  unpaired : s.mirrored = false
  sharded : t.replicated = false
  here    : ∀ c ∈ s.closing t, t.homeOf c.row s.self = none
  reads   : ∀ c ∈ s.closing t, c.set = none → s.rowFails t c.row = false
  leases  : ∀ c ∈ s.closing t, s.leaseStopped 2 (BitVec.ofNat 32 (t.id.toNat * 65536 + t.shardOf c.row)) = false

theorem closeEpoch_eq (h : Closable s t) : s.closeEpoch t t.version = s.closeDone t.id t.version := by
  have leased : (s.closeShards t t.version).any (fun d => s.leaseStopped 2 d) = false := List.any_eq_false.mpr (fun d hd => by
    obtain ⟨c, hc, rfl⟩ := List.mem_map.mp (List.mem_eraseDups.mp hd)
    rw [ownEntries_eq h.here] at hc
    exact ne_true_of_eq_false (h.leases c hc))
  have readable : (s.ownEntries t t.version).any (fun c => c.set.isNone && s.rowFails t c.row) = false := by
    rw [ownEntries_eq h.here]
    refine List.any_eq_false.mpr (fun c hc => ?_)
    cases hset : c.set with
    | none => simp [h.reads c hc hset]
    | some x => simp
  have logged : (s.ownEntries t t.version).filter (fun c => s.logsRow t c.row) = [] :=
    List.filter_eq_nil_iff.mpr (fun c _ => by simp [State.logsRow, h.unpaired])
  have apply : s.applyClose t t.version = some (s.closeDone t.id t.version) := by
    unfold State.applyClose
    rw [logged, handPartials_none h.sharded h.here]
    rfl
  unfold State.closeEpoch
  rw [mergeFar_alone h.alone]
  dsimp only
  rw [leased, readable, h.room, apply]
  rfl

theorem exec_epochClose (ht : s.table? t.id = some t) (hu : t.updatable = true) (hc : s.epochCommitted t t.version = true)
    (hw : ∀ w ∈ s.felt.waiting, w.table ≠ t.id) : exec (.epochClose t.id) s = .next (s.closeEpoch t t.version).unloadEnded := by
  have idle : s.felt.waiting.all (fun w => w.table ≠ t.id) = true := by simpa using hw
  show execEpochClose t.id s = _
  unfold execEpochClose
  rw [ht]
  dsimp only
  rw [hu, hc, idle, if_pos (by decide)]

end

/-- Settles O27: a GATHER's writes go through the caches one after another, a scatter's contributions join those pending, and a close
is a fold of writes to distinct rows. -/
theorem feltUnit : Obligations.FeltUnit := by
  unfold Obligations.FeltUnit
  refine ⟨fun s u vat t hw he hr ht => ?_, fun s u t i hk ht => ⟨fun h => gatherRow_none hk h u, fun hi hnull hh =>
    gatherRow_here hk ht hi hnull hh u⟩, fun s t ht hu hrep hc hwait hm hg hj hflow hstop => ?_⟩
  · intro n idx size st row
    refine ⟨fun hn ha hl => ?_, fun key hkey => ?_⟩
    · obtain ⟨r, run, reported, stored, frame, kept⟩ := gather_runs hw he hr ht hn ha hl
      exact ⟨r, s.gatherBits u t, run, reported, stored, (bitBytes_length ..).trans (ceilDiv_whole _),
        fun j hj => bitBytes_bit _ hj, frame, kept⟩
    · intro epoch vals gives
      have given : ∀ i entry, exec i s = .next (s.scatterCmd u) →
          (if feltOp u = 2 then s.addEntry u t key else s.setEntry u t key) = entry → gives i entry := fun i entry hi hentry => by
        obtain ⟨r, run, reported, frame⟩ := scatter_runs hi hw he hr ht hkey
        rw [scatterEntries_eq, hentry] at frame
        refine ⟨r, run, reported, frame.trans (congrArg (fun more : List Contribution => ({ s with
          units := r.units, cores := r.cores, felt := { s.felt with pending := s.felt.pending ++ more } } : State))
          (List.filterMap_congr (fun j _ => ?_)))⟩
        have place : idx j = s.feltIndexAt u j := rfl
        rw [place] <;> rcases s.resolve t (s.feltIndexAt u j) with _ | _ | (_ | ⟨p, _ | ⟨q, ps⟩⟩) <;> rfl
      clear_value gives
      refine ⟨fun hn => given _ _ ?_ (if_pos hn.here.2.2), fun hn => given _ _ ?_ (if_neg (hn.here.2.2.trans_ne (by decide)))⟩
      · exact serveNext_runs (unit := 0) hn (felt_known hn (by decide) (by decide)) State.scatterCmd
      · exact serveNext_runs (unit := 0) hn (felt_known hn (by decide) (by decide)) State.scatterCmd
  · intro entries hent hd
    have closable : Closable s t :=
      ⟨hflow, hstop, hm, hrep, fun c h => (hent c h).1, fun c h => (hent c h).2.1, fun c h => (hent c h).2.2⟩
    obtain ⟨t', closed⟩ := closeDone_closed ht closable.here hd hg
    have run := exec_epochClose ht hu hc hwait
    have jobs : (s.closeDone t.id t.version).hb.jobs = s.hb.jobs := by rw [closed.frame]
    rw [closeEpoch_eq closable, unloadEnded_of_none (jobs ▸ hj)] at run
    exact ⟨_, t', run, closed.table, closed.version, closed.applied, closed.kept, closed.combines, closed.counts, closed.frame⟩

end Sys2Proof.Machine

/-! ### O51: mailbox operations (Table 15.6) -/

namespace Sys2Proof.Machine

open Sys2Proof

/-! #### The mailbox -/

/-- The mailbox takes a request: the module and its host port are out of reset, and BUSY is clear (R376). -/
structure MailboxOpen (s : State) : Prop where
  boot : s.rst.boot ≠ .inReset
  host : s.rst.hostReset = false
  idle : s.host.mbStatus.getLsbD 31 = false

/-- The mailbox takes a request in service. -/
structure InService (s : State) : Prop extends MailboxOpen s where
  ready : s.rst.boot = .ready

theorem fieldAt_append_left {a : Bytes} (b : Bytes) {off n : Nat} (h : off + n ≤ a.length) :
    fieldAt (a ++ b) off n = fieldAt a off n := by
  unfold fieldAt
  rw [List.drop_append_of_le_length (by omega), List.take_append_of_le_length (by rw [List.length_drop]; omega)]

theorem record_length {len : Nat} {fs : List (Nat × Nat × Nat)} (h : ∀ f ∈ fs, f.1 + f.2.1 ≤ len) :
    (record len fs).length = len := by
  rw [record_eq, putFields_length (by rwa [zeros_length]), zeros_length]

/-- Byte 0 of a request is its operation. -/
theorem fieldAt_opRequest {op : Nat} (h : op < 256) (params : Bytes) : fieldAt (opRequest op params) 0 1 = op := by
  have fields : ∀ f ∈ (0, 1, op) :: [(1, 1, 0), (2, 2, 0), (4, 4, params.length), (8, 4, 0), (0xC, 1, 0)], f.1 + f.2.1 ≤ 16 := by
    simp
  unfold opRequest mbRequest
  rw [fieldAt_append_left _ (by rw [record_length fields]; decide)]
  exact fieldAt_record [] _ fields (by simp) h

theorem serves_opRequest {s : State} {op : Nat} (h : MailboxOpen s) (ho : op ∈ mbOps) (params : Bytes) :
    Serves s (.mailbox (opRequest op params)) := by
  have small : op < 256 := (by decide : ∀ o ∈ mbOps, o < 256) op ho
  refine ⟨?_, ?_, fun r hr => by cases hr⟩
  · rw [State.pathOpen, h.host, h.idle]
    simp [h.boot]
  · simpa [served, fieldAt_opRequest small] using ho

section
variable {s : State} {i : Instr} {op : Nat} {params : Bytes} {f : State → Wrote} {code : BitVec 16}

theorem dictAction_opRequest (h : MailboxOpen s) (ho : op ∈ mbOps) : s.dictAction (.mailbox (opRequest op params)) f =
    (f s).finish (.mailbox (opRequest op params)) :=
  onModulePath_of_serves (serves_opRequest h ho params) rfl _

theorem dictAction_refuses (hi : exec i s = .next (s.dictAction (.mailbox (opRequest op params)) f)) (h : MailboxOpen s)
    (ho : op ∈ mbOps) (hf : f s = s.refuse code) : Refuses i s (.mailbox (opRequest op params)) false code := by
  rw [Refuses, hi, dictAction_opRequest h ho, hf]
  rfl

theorem dictAction_answers {t : State} (hi : exec i s = .next (s.dictAction (.mailbox (opRequest op params)) f)) (h : MailboxOpen s)
    (ho : op ∈ mbOps) (hf : f s = t.wrote) : exec i s = .next (t.answer (.mailbox (opRequest op params)) false 0 []) := by
  rw [hi, dictAction_opRequest h ho, hf]
  rfl

theorem inService_op (h : InService s) : (if s.up then f s else s.refuse 0x0C0B) = f s := if_pos (by simp [State.up, h.ready])

theorem mailboxOp_refuses (hi : exec i s = .next (s.mailboxOp (opRequest op params) f)) (h : InService s) (ho : op ∈ mbOps)
    (hf : f s = s.refuse code) : Refuses i s (.mailbox (opRequest op params)) false code :=
  dictAction_refuses hi h.toMailboxOpen ho ((inService_op h).trans hf)

theorem mailboxOp_answers {t : State} (hi : exec i s = .next (s.mailboxOp (opRequest op params) f)) (h : InService s)
    (ho : op ∈ mbOps) (hf : f s = t.wrote) : exec i s = .next (t.answer (.mailbox (opRequest op params)) false 0 []) :=
  dictAction_answers hi h.toMailboxOpen ho ((inService_op h).trans hf)

end

/-! #### TABLE_REGISTER -/

theorem fit_length {n : Nat} {b : Bytes} (h : b.length = n) : fit n b = b := by
  rw [fit, h, Nat.sub_self, List.take_of_length_le h.le]
  exact List.append_nil b

/-- The bytes of a row among packed rows. -/
def Table.packedRow (t : Table) (b : Bytes) (r : Nat) : Bytes := (b.drop (t.rowBytes * r)).take t.rowBytes

/-- The rows of a list of numbers taken from packed rows. -/
def Table.fillRows (t : Table) (b : Bytes) (l : List Nat) : Table :=
  l.foldl (fun u r => u.setRow r (fit u.rowBytes (u.packedRow b r))) t

theorem fillRows_eq (b : Bytes) (l : List Nat) (t : Table) : t.fillRows b l = { t with rows := (t.fillRows b l).rows } := by
  induction l generalizing t with
  | nil => rfl
  | cons a l ih => exact ih (t.setRow a _)

theorem fillRows_row (b : Bytes) (l : List Nat) (t : Table) (q : Nat) :
    (t.fillRows b l).row q = if q ∈ l then fit t.rowBytes (t.packedRow b q) else t.row q := by
  induction l generalizing t with
  | nil => rfl
  | cons a l ih =>
    refine (ih (t.setRow a _)).trans ?_
    rw [setRow_row]
    by_cases hl : q ∈ l
    · rw [if_pos hl, if_pos (List.mem_cons_of_mem a hl)]
      rfl
    · rw [if_neg hl]
      by_cases hq : q = a
      · rw [if_pos hq, hq, if_pos List.mem_cons_self]
      · rw [if_neg hq, if_neg (by simp [hq, hl])]

theorem filled_eq_fillRows {t : Table} (h : t.rowBytes ≠ 0) (b : Bytes) :
    t.filled b = t.fillRows b (List.range (min t.nrows (ceilDiv b.length t.rowBytes))) := if_neg h

theorem filled_of_no_bytes {t : Table} (h : t.rowBytes = 0) (b : Bytes) : t.filled b = t := if_pos h

theorem filled_eq (t : Table) (b : Bytes) : t.filled b = { t with rows := (t.filled b).rows } := by
  by_cases h : t.rowBytes = 0
  · rw [filled_of_no_bytes h]
  · rw [filled_eq_fillRows h]
    exact fillRows_eq ..

theorem filled_nil (t : Table) : t.filled [] = t := by
  by_cases h : t.rowBytes = 0
  · exact filled_of_no_bytes h _
  · have empty : ceilDiv ([] : Bytes).length t.rowBytes = 0 := Nat.div_eq_of_lt (by rw [List.length_nil]; omega)
    rw [filled_eq_fillRows h, empty, Nat.min_zero]
    rfl

theorem packedRow_length {t : Table} {b : Bytes} {r : Nat} (h : (r + 1) * t.rowBytes ≤ b.length) :
    (t.packedRow b r).length = t.rowBytes := by
  have : t.rowBytes * r + t.rowBytes ≤ b.length := by rwa [Nat.mul_comm, ← Nat.succ_mul]
  rw [Table.packedRow, List.length_take, List.length_drop]
  omega

/-- A row whose bytes are all there holds them. -/
theorem filled_row {t : Table} {b : Bytes} {r : Nat} (ht : t.rows = []) (hr : r < t.nrows) (h : (r + 1) * t.rowBytes ≤ b.length) :
    (t.filled b).row r = t.packedRow b r := by
  by_cases h0 : t.rowBytes = 0
  · rw [filled_of_no_bytes h0, Table.row, ht, Table.packedRow, h0]
    rfl
  · have here : r < ceilDiv b.length t.rowBytes := by
      rw [ceilDiv, Nat.lt_iff_add_one_le, Nat.le_div_iff_mul_le (by omega)]
      omega
    rw [filled_eq_fillRows h0, fillRows_row, if_pos (List.mem_range.mpr (by omega)), fit_length (packedRow_length h)]

section
variable {s : State} {t : Table}

theorem movedHomes_of_unmoved (h : ∀ p ∈ s.rst.shardPlace, p.1 ≠ t.id) : s.movedHomes t = t := by
  have unnamed : s.rst.shardPlace.filter (fun p => p.1 = t.id && p.2.2 = 3) = [] :=
    List.filter_eq_nil_iff.mpr (fun p hp => by simp [h p hp])
  unfold State.movedHomes
  rw [unnamed]
  exact ite_self t

theorem bytesHere_stored (h : t.kind ≠ 3) : t.bytesHere = t.nrows * t.stored := if_neg h

/-- The state with a table added. -/
def State.addTable (s : State) (t : Table) : State := { s with felt := { s.felt with tables := s.felt.tables ++ [t] } }

theorem placeTable_full (hm : s.movedHomes t = t) (h : 1200000000000 < s.feltBytes.2 + t.bytesHere) : s.placeTable t = none := by
  unfold State.placeTable
  dsimp only
  rw [hm]
  exact if_pos (by rw [decide_eq_true h]; rfl)

theorem placeTable_tierA (hm : s.movedHomes t = t) (hr : t.replicated = false) (h2 : t.tier ≠ 2)
    (hall : s.feltBytes.2 + t.bytesHere ≤ 1200000000000) (ha : s.feltBytes.1 + t.bytesHere ≤ s.furn 0x380001 400000000000) :
    s.placeTable t = some (s.addTable t) := by
  unfold State.placeTable
  dsimp only
  rw [hm, hr, decide_eq_false h2, decide_eq_false (Nat.not_lt.mpr hall), decide_eq_true ha]
  rfl

theorem logTable_of_unmirrored (h : s.mirrored = false) (t : Table) (rec : Bytes) : s.logTable t rec = s := by
  rw [State.logTable, h]
  rfl

/-- The table a record declares, with its rows. -/
def tableWith (rec : Bytes) (rows : Option Bytes) : Table := (tableOf rec none).filled (rows.getD [])

theorem tableWith_eq (rec : Bytes) (rows : Option Bytes) :
    tableWith rec rows = { tableOf rec none with rows := (tableWith rec rows).rows } :=
  filled_eq ..

theorem register_bad {rec : Bytes} (hl : rec.length = 64)
    (hb : tableRecordBad (s.felt.tables.map (·.id)) (s.felt.tables.filter (fun u => u.job = none)) rec = true) (rows : Option Bytes) :
    s.register rec rows = s.refuse 0x0520 := by
  unfold State.register
  rw [if_neg (not_not.mpr hl), if_pos hb]

section
variable {rec : Bytes} (hl : rec.length = 64)
    (hb : tableRecordBad (s.felt.tables.map (·.id)) (s.felt.tables.filter (fun u => u.job = none)) rec = false)
    (hk : (tableOf rec none).kind ≠ 3)
include hl hb hk

theorem register_full {rows : Option Bytes} (hp : s.placeTable (tableWith rec rows) = none) :
    s.register rec rows = s.refuse 0x0521 := by
  unfold State.register
  rw [if_neg (not_not.mpr hl), if_neg (by simp [hb]), if_neg (by rw [decide_eq_false hk]; exact Bool.false_ne_true)]
  unfold tableWith at hp
  rw [hp]

theorem register_placed {rows : Option Bytes} {u : State} (hp : s.placeTable (tableWith rec rows) = some u) (hm : u.mirrored = false) :
    s.register rec rows = u.wrote := by
  unfold State.register
  rw [if_neg (not_not.mpr hl), if_neg (by simp [hb]), if_neg (by rw [decide_eq_false hk]; exact Bool.false_ne_true)]
  unfold tableWith at hp
  rw [hp]
  dsimp only
  cases u.table? (tableOf rec none).id with
  | none => rfl
  | some x => exact congrArg State.wrote (logTable_of_unmirrored hm x rec)

end
end

/-! #### TABLE_DROP -/

section
variable {s : State} {id : BitVec 16} {t : Table}

/-- A COMPOSED table has the table as a part. -/
def State.partOf (s : State) (id : BitVec 16) : Prop := ∃ u ∈ s.felt.tables, u.kind = 3 ∧ (u.part1 = id ∨ u.part2 = id)

theorem any_part_iff : s.felt.tables.any (fun u => u.kind = 3 && (u.part1 = id || u.part2 = id)) = true ↔ s.partOf id := by
  simp [State.partOf]

/-- The state without a table and what was kept for it. -/
def State.withoutTable (s : State) (id : BitVec 16) : State :=
  let s := s.forgetRows (fun u _ => u = id)
  { s with
    felt := { s.felt with tables := s.felt.tables.filter (fun u => u.id ≠ id),
                          combines := s.felt.combines.filter (fun c => c.table ≠ id),
                          pending := s.felt.pending.filter (fun c => c.entry.table ≠ id),
                          waiting := s.felt.waiting.filter (fun w => w.table ≠ id),
                          redirects := s.felt.redirects.filter (fun r => r.table ≠ id) },
    rst := { s.rst with shardPlace := s.rst.shardPlace.filter (fun p => p.1 ≠ id) } }

theorem dropTable_none (h : s.table? id = none) : s.dropTable id = s.refuse 0x0504 := by
  unfold State.dropTable
  rw [h]

theorem dropTable_used (h : s.table? id = some t) (hu : t.job.isSome = true ∨ s.partOf id ∨ s.tableRead id = true) :
    s.dropTable id = s.refuse 0x0C0A := by
  unfold State.dropTable
  rw [h]
  refine if_pos ?_
  rw [Bool.or_eq_true, Bool.or_eq_true, any_part_iff, or_assoc]
  exact hu

theorem dropTable_unused (h : s.table? id = some t) (hj : t.job = none) (hp : ¬ s.partOf id) (hr : s.tableRead id = false)
    (hm : s.mirrored = false) : s.dropTable id = (s.withoutTable id).wrote := by
  have free : ¬ (t.job.isSome || s.felt.tables.any (fun u => u.kind = 3 && (u.part1 = id || u.part2 = id)) || s.tableRead id) = true := by
    rw [Bool.or_eq_true, Bool.or_eq_true, any_part_iff, hj, hr]
    simp [hp]
  have quiet : (s.withoutTable id).mirrored = false := hm
  have unlogged : ∀ u : State, u = s.withoutTable id →
      (if u.mirrored && !t.replicated && t.kind ≠ 3 then u.sendLog 2 id 3 0 0 [] else u).wrote = u.wrote := fun u hu => by
    rw [hu, quiet]
    rfl
  unfold State.dropTable
  rw [h]
  exact (if_neg free).trans (unlogged _ rfl)

end

/-! #### Watermark sets -/

/-- How many banks of a list are free. -/
def freeIn (bs : List Bank) : Nat := (bs.filter (· = .free)).length

theorem freeIn_cons (b : Bank) (bs : List Bank) : freeIn (b :: bs) = if b = .free then freeIn bs + 1 else freeIn bs := by
  by_cases h : b = .free <;> simp [freeIn, h]

theorem takeBanks_length (id : BitVec 16) (n : Nat) (bs : List Bank) : (takeBanks id n bs).length = bs.length := by
  fun_induction takeBanks id n bs with
  | case1 bs => rfl
  | case2 n => rfl
  | case3 n bs ih => simp [ih]
  | case4 n b bs hb ih => simp [ih]

/-- Enough free banks: just that many are taken. -/
theorem freeIn_takeBanks (id : BitVec 16) (n : Nat) (bs : List Bank) (h : n ≤ freeIn bs) :
    freeIn (takeBanks id n bs) + n = freeIn bs := by
  fun_induction takeBanks id n bs with
  | case1 bs => rfl
  | case2 n => cases h
  | case3 n bs ih =>
    rw [freeIn_cons, if_pos rfl] at h
    have rest := ih (Nat.le_of_succ_le_succ h)
    rw [freeIn_cons, if_neg Bank.noConfusion, freeIn_cons, if_pos rfl]
    omega
  | case4 n b bs hb ih =>
    rw [freeIn_cons, if_neg hb] at h
    rw [freeIn_cons, if_neg hb, freeIn_cons, if_neg hb, ih h]

/-- A bank stays as it was, or was free and takes the set. -/
theorem getElem_takeBanks (id : BitVec 16) (n : Nat) (bs : List Bank) (k : Nat) (b : Bank) (h : bs[k]? = some b) :
    (takeBanks id n bs)[k]? = some b ∨ (b = .free ∧ (takeBanks id n bs)[k]? = some (.holds id)) := by
  fun_induction takeBanks id n bs generalizing k with
  | case1 bs => exact .inl h
  | case2 n => exact .inl h
  | case3 n bs ih =>
    cases k with
    | zero => exact .inr ⟨(Option.some.inj h).symm, rfl⟩
    | succ k => exact ih k h
  | case4 n c bs hc ih =>
    cases k with
    | zero => exact .inl h
    | succ k => exact ih k h

theorem bankVector_toList {bs : List Bank} (h : bs.length = 16) : (bankVector bs).toList = bs := by
  refine List.ext_getElem (by simp [bankVector, h]) (fun i h1 h2 => ?_)
  simp [bankVector, List.getElem?_eq_getElem h2]

/-- A die's banks with a set in the first free ones. -/
def Bank.loaded (id : BitVec 16) (n : Nat) (v : Vector Bank 16) : Vector Bank 16 := bankVector (takeBanks id n v.toList)

theorem loaded_toList (id : BitVec 16) (n : Nat) (v : Vector Bank 16) : (Bank.loaded id n v).toList = takeBanks id n v.toList :=
  bankVector_toList ((takeBanks_length ..).trans (by simp))

theorem freeBanks_loaded (id : BitVec 16) {n : Nat} {v : Vector Bank 16} (h : n ≤ freeBanks v) :
    freeBanks (Bank.loaded id n v) + n = freeBanks v := by
  unfold freeBanks
  rw [loaded_toList]
  exact freeIn_takeBanks id n _ h

theorem loaded_bank (id : BitVec 16) (n : Nat) (v : Vector Bank 16) (i : Fin 16) :
    (Bank.loaded id n v)[i] = v[i] ∨ (v[i] = .free ∧ (Bank.loaded id n v)[i] = .holds id) := by
  have at' : ∀ w : Vector Bank 16, w.toList[i.val]? = some w[i] := fun w => by simp
  have := getElem_takeBanks id n v.toList i.val v[i] (at' v)
  rw [← loaded_toList, at', Option.some.injEq, Option.some.injEq] at this
  exact this

section
variable {s : State} {id : BitVec 16} {copies : Nat} {b : Bytes}

/-- A set ID and a number of copies that WM_LOAD takes. -/
def LoadFits (id : BitVec 16) (copies : Nat) : Prop := id ≠ 0 ∧ id.toNat ≤ 0xFF ∧ 1 ≤ copies ∧ copies ≤ 4

theorem loadFits_iff : (id = 0 || 0xFF < id.toNat || copies = 0 || 4 < copies) = true ↔ ¬ LoadFits id copies := by
  simp only [LoadFits, Bool.or_eq_true, decide_eq_true_eq, ne_eq]
  by_cases h0 : id = 0
  · simp [h0]
  · simp only [h0, false_or, not_false_eq_true, true_and]
    omega

theorem loadSet_unfit (h : ¬ LoadFits id copies) : s.loadSet id copies b = s.refuse 0x0601 := if_pos (loadFits_iff.mpr h)

theorem loadSet_fits (h : LoadFits id copies) : s.loadSet id copies b = match s.wmLoadImage id copies b with
    | .error c => s.refuse c
    | .ok s => s.wrote := if_neg (fun hf => loadFits_iff.mp hf h)

theorem loadSet_field (h : ¬ LoadFits id copies ∨ wmImageField b = true) : s.loadSet id copies b = s.refuse 0x0601 := by
  by_cases hf : LoadFits id copies
  · rw [loadSet_fits hf, State.wmLoadImage, if_pos (h.resolve_left (not_not.mpr hf))]
  · exact loadSet_unfit hf

section
variable (hf : LoadFits id copies) (hr : wmImageField b = false)
include hf hr

theorem loadSet_bad (h : wmImageBad b = true) : s.loadSet id copies b = s.refuse 0x0605 := by
  rw [loadSet_fits hf, State.wmLoadImage, if_neg (by simp [hr]), if_pos h]

theorem loadSet_taken (h : wmImageBad b = false) (ht : (s.wmSet? id).isSome = true) : s.loadSet id copies b = s.refuse 0x0606 := by
  rw [loadSet_fits hf, State.wmLoadImage, if_neg (by simp [hr]), if_neg (by simp [h]), if_pos ht]

theorem loadSet_full (h : wmImageBad b = false) (ht : s.wmSet? id = none) (hn : ∃ d : Fin 4, freeBanks s.wm.banks[d] < copies) :
    s.loadSet id copies b = s.refuse 0x0607 := by
  have short : s.wm.banks.toList.any (fun v => decide (freeBanks v < copies)) = true := by
    obtain ⟨d, hd⟩ := hn
    exact List.any_eq_true.mpr ⟨s.wm.banks[d], by simp, decide_eq_true hd⟩
  rw [loadSet_fits hf, State.wmLoadImage, if_neg (by simp [hr]), if_neg (by simp [h]), if_neg (by simp [ht]), if_pos short]

/-- The set of an image under an ID. -/
def imageSet (id : BitVec 16) (b : Bytes) : WmSet :=
  { id := id, width := wmImageWidth b, mutable_ := decide (fieldAt b 7 1 = 1), digest := wmDigest b, classmap := wmClasses b,
    entries := (wmRecords b).map WmRecord.toEntry }

/-- The state with a set loaded. -/
def State.withSet (s : State) (id : BitVec 16) (copies : Nat) (b : Bytes) : State :=
  { s with wm := { s.wm with banks := s.wm.banks.map (Bank.loaded id copies), sets := s.wm.sets ++ [imageSet id b] } }

theorem loadSet_loads (h : wmImageBad b = false) (ht : s.wmSet? id = none) (hn : ∀ d : Fin 4, copies ≤ freeBanks s.wm.banks[d]) :
    s.loadSet id copies b = (s.withSet id copies b).wrote := by
  have enough : ¬ s.wm.banks.toList.any (fun v => decide (freeBanks v < copies)) = true := by
    rw [List.any_eq_true]
    rintro ⟨v, hv, hd⟩
    obtain ⟨d, hd4, rfl⟩ := List.getElem_of_mem hv
    have := hn ⟨d, by simpa using hd4⟩
    simp at hd this
    omega
  rw [loadSet_fits hf, State.wmLoadImage, if_neg (by simp [hr]), if_neg (by simp [h]), if_neg (by simp [ht]), if_neg enough]
  rfl

end

theorem wmFree_bank (s : State) (id : BitVec 16) (d : Fin 4) (i : Fin 16) :
    ((s.wmFree id).wm.banks[d])[i] = if (s.wm.banks[d])[i] = .holds id then .free else (s.wm.banks[d])[i] := by
  simp [State.wmFree]

end

/-! #### Tier C -/

/-- An entry of tier C is the block of a namespace and an LBA. -/
def isBlock (nsid : BitVec 32) (lba : BitVec 64) (x : BitVec 32 × BitVec 64 × Block) : Bool := x.1 = nsid && x.2.1 = lba

theorem isBlock_iff {nsid : BitVec 32} {lba : BitVec 64} {x : BitVec 32 × BitVec 64 × Block} :
    isBlock nsid lba x = true ↔ x.1 = nsid ∧ x.2.1 = lba := by
  rw [isBlock, Bool.and_eq_true, decide_eq_true_eq, decide_eq_true_eq]

theorem find?_isBlock_cons (nsid : BitVec 32) (lba : BitVec 64) (x : BitVec 32 × BitVec 64 × Block)
    (m : List (BitVec 32 × BitVec 64 × Block)) :
    (x :: m).find? (isBlock nsid lba) = if isBlock nsid lba x then some x else m.find? (isBlock nsid lba) := by
  rw [List.find?_cons]
  cases isBlock nsid lba x <;> rfl

/-- A block in its place is the one found there, and no other is another's. -/
theorem find?_placeBlock (x : BitVec 32 × BitVec 64 × Block) (m : List (BitVec 32 × BitVec 64 × Block)) (nsid : BitVec 32)
    (lba : BitVec 64) :
    (placeBlock x m).find? (isBlock nsid lba) = if isBlock nsid lba x then some x else m.find? (isBlock nsid lba) := by
  induction m with
  | nil => exact find?_isBlock_cons ..
  | cons y ys ih =>
    unfold placeBlock
    split
    · exact find?_isBlock_cons ..
    · split
      next _ same =>
        have hxy : isBlock nsid lba y = isBlock nsid lba x := by
          rw [Bool.and_eq_true, decide_eq_true_eq, decide_eq_true_eq] at same
          rw [isBlock, isBlock, same.1, same.2]
        rw [find?_isBlock_cons, find?_isBlock_cons, hxy]
        cases isBlock nsid lba x <;> rfl
      next _ apart =>
        by_cases hy : isBlock nsid lba y = true
        · have hx : ¬ isBlock nsid lba x = true := fun hx => apart (by
            obtain ⟨h1, h2⟩ := isBlock_iff.mp hx
            obtain ⟨h3, h4⟩ := isBlock_iff.mp hy
            simp [h1, h2, h3, h4])
          rw [List.find?_cons_of_pos hy, if_neg hx, List.find?_cons_of_pos hy]
        · rw [List.find?_cons_of_neg hy, List.find?_cons_of_neg hy, ih]

section
variable {s : State} {nsid : BitVec 32} {lba : BitVec 64} {data : Bytes} {n : Nat}

/-- Block i of a TIERC_WRITE. -/
def State.sealedBlock (s : State) (nsid : BitVec 32) (lba : BitVec 64) (data : Bytes) (i : Nat) : BitVec 32 × BitVec 64 × Block :=
  (nsid, lba + BitVec.ofNat 64 i,
    Block.seal (s.nsKey nsid) (lba + BitVec.ofNat 64 i) (fit 4096 ((data.drop (4096 * i)).take 4096)))

/-- Tier C with the first blocks of a TIERC_WRITE in place. -/
def State.tierCWith (s : State) (nsid : BitVec 32) (lba : BitVec 64) (data : Bytes) (n : Nat) : List (BitVec 32 × BitVec 64 × Block) :=
  (List.range n).foldl (fun m i => placeBlock (s.sealedBlock nsid lba data i) m) s.mem.tierC

theorem tierCWith_succ (s : State) (nsid : BitVec 32) (lba : BitVec 64) (data : Bytes) (n : Nat) :
    s.tierCWith nsid lba data (n + 1) = placeBlock (s.sealedBlock nsid lba data n) (s.tierCWith nsid lba data n) := by
  rw [State.tierCWith, List.range_succ, List.foldl_append]
  rfl

theorem writeBlocks_eq (s : State) (nsid : BitVec 32) (lba : BitVec 64) (data : Bytes) (n : Nat) :
    s.writeBlocks nsid lba data n = { s with mem := { s.mem with tierC := s.tierCWith nsid lba data n } } := rfl

/-- The LBAs of a write of at most 2^64 blocks differ. -/
theorem lba_injective {i j : Nat} (hi : i < 2 ^ 64) (hj : j < 2 ^ 64) (h : lba + BitVec.ofNat 64 i = lba + BitVec.ofNat 64 j) : i = j := by
  have := congrArg BitVec.toNat ((BitVec.add_right_inj lba).mp h)
  rwa [BitVec.toNat_ofNat, BitVec.toNat_ofNat, Nat.mod_eq_of_lt hi, Nat.mod_eq_of_lt hj] at this

theorem find?_tierCWith {i : Nat} (hn : n ≤ 256) (hi : i < n) :
    (s.tierCWith nsid lba data n).find? (isBlock nsid (lba + BitVec.ofNat 64 i)) = some (s.sealedBlock nsid lba data i) := by
  induction n with
  | zero => omega
  | succ n ih =>
    rw [tierCWith_succ, find?_placeBlock]
    by_cases h : i = n
    · subst h
      exact if_pos (isBlock_iff.mpr ⟨rfl, rfl⟩)
    · have apart : ¬ isBlock nsid (lba + BitVec.ofNat 64 i) (s.sealedBlock nsid lba data n) = true := fun hb =>
        h (lba_injective (by omega) (by omega) (isBlock_iff.mp hb).2).symm
      rw [if_neg apart, ih (by omega) (by omega)]

theorem find?_tierCWith_apart {m : BitVec 32} {a : BitVec 64} (h : m ≠ nsid ∨ ∀ i, i < n → a ≠ lba + BitVec.ofNat 64 i) :
    (s.tierCWith nsid lba data n).find? (isBlock m a) = s.mem.tierC.find? (isBlock m a) := by
  induction n with
  | zero => rfl
  | succ n ih =>
    have apart : ¬ isBlock m a (s.sealedBlock nsid lba data n) = true := fun hb => by
      obtain ⟨h1, h2⟩ := isBlock_iff.mp hb
      exact h.elim (fun h => h h1.symm) (fun h => h n (Nat.lt_succ_self n) h2.symm)
    rw [tierCWith_succ, find?_placeBlock, if_neg apart]
    exact ih (h.imp_right fun h i hi => h i (by omega))

/-- What a tier C block reads as where it is found. -/
theorem tierCBlock_found {x : BitVec 32 × BitVec 64 × Block} (h : s.mem.tierC.find? (isBlock nsid lba) = some x) : s.tierCBlock nsid lba =
    if s.up && !s.mem.tierCUnused.contains nsid && s.sec.nsKeys && x.2.2.key = s.nsKey nsid && x.2.2.tweak = lba.setWidth 128
      then some x.2.2.plain else none := by
  unfold State.tierCBlock
  rw [show s.mem.tierC.find? (fun b => b.1 = nsid && b.2.1 = lba) = some x from h]

theorem tierCBlock_absent (h : s.mem.tierC.find? (isBlock nsid lba) = none) : s.tierCBlock nsid lba = none := by
  unfold State.tierCBlock
  rw [show s.mem.tierC.find? (fun b => b.1 = nsid && b.2.1 = lba) = none from h]

theorem writeBlocks_reads {i : Nat} (hu : s.up = true) (hns : nsid ∉ s.mem.tierCUnused) (hk : s.sec.nsKeys = true)
    (hn : n ≤ 256) (hd : data.length = 4096 * n) (hi : i < n) :
    (s.writeBlocks nsid lba data n).tierCBlock nsid (lba + BitVec.ofNat 64 i) = some ((data.drop (4096 * i)).take 4096) := by
  have whole : ((data.drop (4096 * i)).take 4096).length = 4096 := by
    rw [List.length_take, List.length_drop, hd]
    omega
  rw [tierCBlock_found (s := s.writeBlocks nsid lba data n) (find?_tierCWith hn hi)]
  refine (if_pos ?_).trans ?_
  · have isUp : (s.writeBlocks nsid lba data n).up = true := hu
    have keys : (s.writeBlocks nsid lba data n).nsKey nsid = s.nsKey nsid := rfl
    rw [isUp, keys]
    simp [writeBlocks_eq, State.sealedBlock, hns, hk]
  · rw [State.sealedBlock, Block.plain_seal, fit_length whole]

theorem tierCBlock_congr {t : State} (ht : t = { s with mem := { s.mem with tierC := t.mem.tierC } })
    (h : t.mem.tierC.find? (isBlock nsid lba) = s.mem.tierC.find? (isBlock nsid lba)) :
    t.tierCBlock nsid lba = s.tierCBlock nsid lba := by
  cases hf : s.mem.tierC.find? (isBlock nsid lba) with
  | none => rw [tierCBlock_absent hf, tierCBlock_absent (h.trans hf)]
  | some x =>
    rw [tierCBlock_found hf, tierCBlock_found (h.trans hf), ht]
    rfl

/-- A block that can be read is what TIERC_READ finds. -/
theorem blockAt_of_tierCBlock {b : Bytes} (h : s.tierCBlock nsid lba = some b) (i : Nat) : s.blockAt nsid lba i = some b := by
  unfold State.blockAt
  cases hf : s.mem.tierC.find? (isBlock nsid lba) with
  | none =>
    rw [tierCBlock_absent hf] at h
    cases h
  | some x => rwa [show s.mem.tierC.find? (fun b => b.1 = nsid && b.2.1 = lba) = some x from hf]

theorem blockAt_unreadable (hx : ∃ x ∈ s.mem.tierC, x.1 = nsid ∧ x.2.1 = lba) (h : s.tierCBlock nsid lba = none) (i : Nat) :
    s.blockAt nsid lba i = none := by
  obtain ⟨x, hm, hx⟩ := hx
  obtain ⟨y, hf⟩ := Option.isSome_iff_exists.mp (List.find?_isSome.mpr ⟨x, hm, isBlock_iff.mpr hx⟩)
  unfold State.blockAt
  rw [show s.mem.tierC.find? (fun b => b.1 = nsid && b.2.1 = lba) = some y from hf]
  exact h

theorem blockAt_no_keys (hk : s.sec.nsKeys = false) (i : Nat) : s.blockAt nsid lba i = none := by
  unfold State.blockAt
  cases hf : s.mem.tierC.find? (isBlock nsid lba) with
  | none =>
    rw [show s.mem.tierC.find? (fun b => b.1 = nsid && b.2.1 = lba) = none from hf, hk]
    rfl
  | some x =>
    rw [show s.mem.tierC.find? (fun b => b.1 = nsid && b.2.1 = lba) = some x from hf]
    dsimp only
    rw [tierCBlock_found hf, hk]
    simp

theorem blocksAt_flatten (s : State) (nsid : BitVec 32) (lba : BitVec 64) (bs : List Bytes) (i : Nat)
    (h : ∀ (k : Nat) (b : Bytes), bs[k]? = some b → s.tierCBlock nsid (lba + BitVec.ofNat 64 (i + k)) = some b) :
    s.blocksAt nsid lba i bs.length = some bs.flatten := by
  induction bs generalizing i with
  | nil => rfl
  | cons b bs ih =>
    have rest := ih (i + 1) (fun k c hc => by
      rw [Nat.add_right_comm, Nat.add_assoc]
      exact h (k + 1) c hc)
    have first : s.blockAt nsid (lba + BitVec.ofNat 64 i) i = some b := blockAt_of_tierCBlock (h 0 b rfl) i
    rw [List.length_cons, State.blocksAt, first, rest]
    rfl

theorem blocksAt_unreadable {i k : Nat} (hk : k < n) (h : s.blockAt nsid (lba + BitVec.ofNat 64 (i + k)) (i + k) = none) :
    s.blocksAt nsid lba i n = none := by
  induction n generalizing i k with
  | zero => omega
  | succ n ih =>
    rw [State.blocksAt]
    cases k with
    | zero =>
      rw [show s.blockAt nsid (lba + BitVec.ofNat 64 i) i = none from h]
    | succ k =>
      rw [ih (i := i + 1) (k := k) (by omega) (by rwa [Nat.add_right_comm, Nat.add_assoc])]
      cases s.blockAt nsid (lba + BitVec.ofNat 64 i) i <;> rfl

end

/-! #### The test item -/

/-- The jobs and items are as they were. -/
def SameWork (s t : State) : Prop := t.hb.jobs = s.hb.jobs ∧ t.hb.items = s.hb.items

theorem SameWork.trans {s t u : State} (h : SameWork s t) (g : SameWork t u) : SameWork s u := ⟨g.1.trans h.1, g.2.trans h.2⟩

theorem MemOnly.sameWork {s t : State} (h : MemOnly s t) : SameWork s t := ⟨congrArg (·.jobs) h.hb, congrArg (·.items) h.hb⟩

section
variable {s t : State}

theorem newAlloc_sameWork {job : BitVec 64} {tierB rw : Bool} {extent base : Nat} {n : BitVec 16}
    (h : s.newAlloc job tierB rw extent = some (n, base, t)) : SameWork s t := by
  unfold State.newAlloc at h
  split at h
  · cases h
    exact ⟨rfl, rfl⟩
  · cases h

theorem makeAllocs_sameWork {b : Bytes} {job : BitVec 64} {as : List AllocEntry} {acc map : List (Nat × BitVec 16 × Nat)}
    (h : s.makeAllocs b job as acc = some (t, map)) : SameWork s t := by
  induction as generalizing s acc with
  | nil =>
    cases h
    exact ⟨rfl, rfl⟩
  | cons a as ih =>
    rw [State.makeAllocs] at h
    split at h
    · cases h
    next num base u hu => exact (newAlloc_sameWork hu).trans (ih (s := (u.clearRange base a.bytes).memWrite base _) h)

theorem placeTable_sameWork {x : Table} (h : s.placeTable x = some t) : SameWork s t := by
  unfold State.placeTable at h
  dsimp only at h
  split at h
  · cases h
  split at h
  · cases h
    exact ⟨rfl, rfl⟩
  split at h
  · cases h
    exact ⟨rfl, rfl⟩
  split at h
  · cases h
  · cases h
    exact ⟨rfl, rfl⟩

theorem placeTables_sameWork {job : BitVec 64} {es : List Bytes} {mine : List Table} (h : s.placeTables job es mine = .ok t) :
    SameWork s t := by
  induction es generalizing s mine with
  | nil =>
    cases h
    exact ⟨rfl, rfl⟩
  | cons e es ih =>
    rw [State.placeTables] at h
    dsimp only at h
    split at h
    · cases h
    split at h
    · cases h
    next u hu => exact (placeTable_sameWork hu).trans (ih h)

theorem addDelay_sameWork {d : DelayEntry} (h : s.addDelay d = some t) : SameWork s t := by
  unfold State.addDelay at h
  dsimp only at h
  split at h
  · cases h
    exact ⟨rfl, rfl⟩
  split at h
  · cases h
    exact ⟨rfl, rfl⟩
  split at h
  · cases h
    exact ⟨rfl, rfl⟩
  · cases h

theorem addReleases_sameWork {fs : List FlowRec} (h : s.addReleases fs = some t) : SameWork s t := by
  induction fs generalizing s with
  | nil =>
    cases h
    exact ⟨rfl, rfl⟩
  | cons f fs ih =>
    rw [State.addReleases] at h
    split at h
    · split at h
      next u hu => exact (addDelay_sameWork hu).trans (ih h)
      · cases h
    · exact ih h

theorem makeDescs_memOnly (s : State) (j : Job) : MemOnly s (s.makeDescs j) := writeDescs_memOnly ..

/-- A check that a result has passed. -/
theorem ok_of_passed {p : Prop} [Decidable p] {c : BitVec 16} {x : Except (BitVec 16) State} (h : (if p then .error c else x) = .ok t) :
    x = .ok t := by
  by_cases hp : p
  · rw [if_pos hp] at h
    cases h
  · rwa [if_neg hp] at h

/-- An image that loads adds the job it declares. -/
theorem loadPlaud_adds {tag : BitVec 32} {test : Bool} {b : Bytes} (h : s.loadPlaud tag test b = .ok t) : ∃ base fs map,
    t.hb.jobs = s.hb.jobs ++ [jobOf b tag test s.self base fs map] ∧ t.hb.items = s.hb.items := by
  unfold State.loadPlaud at h
  dsimp only at h
  iterate 6 replace h := ok_of_passed h
  split at h
  · cases h
  next num base s1 hs1 =>
  split at h
  · cases h
  next s2 map hs2 =>
  split at h
  · cases h
  split at h
  · cases h
  split at h
  · cases h
  next s3 hs3 =>
  iterate 3 replace h := ok_of_passed h
  split at h
  · cases h
  split at h
  · cases h
  next s4 hs4 =>
  cases h
  have same : SameWork s s4 := (newAlloc_sameWork hs1).trans ((makeAllocs_sameWork hs2).trans
    ((placeTables_sameWork hs3).trans (addReleases_sameWork hs4)))
  have written := fun j => ((memWrite_memOnly s4 base b).trans (makeDescs_memOnly _ j)).sameWork
  refine ⟨base, plaudFlows (s.furn 0x300002 4096) b, map, ?_, ?_⟩
  · exact congrArg (· ++ _) (same.trans (written _)).1
  · exact (same.trans (written _)).2

theorem startJob_no_inputs {b : Bytes} {j : Job} (hj : s.job? (plaudJob b) = some j) (hi : plaudInputs b = []) :
    s.startJob (plaudJob b) b = s.setJob { j with inputs := [] } := by
  unfold State.startJob
  rw [hj, hi]
  rfl

theorem testJob_unsupported {image : Bytes} (h : s.rst.boot ≠ .recovery) : s.testJob image = s.refuse 0x0C0B := if_pos h

section
variable {image : Bytes} (h : s.rst.boot = .recovery)
include h

theorem testJob_busy (hj : s.hb.jobs ≠ []) : s.testJob image = s.refuse 0x0C0A := by
  unfold State.testJob
  rw [if_neg (not_not.mpr h), if_pos (by simpa using hj)]

theorem testJob_idle (hj : s.hb.jobs = []) : s.testJob image = match s.loadPlaud 0 true image with
    | .error c => s.refuse c
    | .ok u => (u.startJob (plaudJob image) image).wrote :=
  (if_neg (not_not.mpr h)).trans (if_neg (by simp [hj]))

end

/-- A test item that loads is the one job, a test job; without inputs it starts at once. -/
theorem testJob_loaded {image : Bytes} (hj : s.hb.jobs = []) (hl : s.loadPlaud 0 true image = .ok t) : ∃ j : Job,
    t.hb.jobs = [j] ∧ j.job = plaudJob image ∧ j.test = true ∧ (plaudInputs image = [] →
      (t.startJob (plaudJob image) image).hb.jobs = [{ j with inputs := [] }] ∧
      (t.startJob (plaudJob image) image).hb.items = s.hb.items) := by
  obtain ⟨base, fs, map, jobs, items⟩ := loadPlaud_adds hl
  rw [hj, List.nil_append] at jobs
  refine ⟨_, jobs, rfl, rfl, fun hi => ?_⟩
  have found : t.job? (plaudJob image) = some (jobOf image 0 true s.self base fs map) := by
    unfold State.job?
    rw [jobs]
    exact List.find?_cons_of_pos (decide_eq_true rfl)
  rw [startJob_no_inputs found hi]
  refine ⟨?_, items⟩
  unfold State.setJob
  rw [jobs]
  exact congrArg (fun j => [j]) (if_pos rfl)

end

/-! #### What each operation does -/

/-- WM_UNLOAD of a set ID. -/
def State.unloadSet (s : State) (id : BitVec 16) : Wrote :=
  if id = 0 || 0xFF < id.toNat then s.refuse 0x0601
  else match s.wmUnloadSet id with
    | .error c => s.refuse c
    | .ok s => s.wrote

theorem exec_tableRegister (s : State) (rec : Bytes) (rows : Option Bytes) : exec (.tableRegister rec rows) s =
    .next (s.mailboxOp (registerRequest rec rows) (fun s => s.register rec rows)) := rfl

theorem exec_tableDrop (s : State) (id : BitVec 16) :
    exec (.tableDrop id) s = .next (s.mailboxOp (dropRequest id) (fun s => s.dropTable id)) := rfl

theorem exec_wmLoad (s : State) (id : BitVec 16) (copies : BitVec 8) (b : Bytes) : exec (.wmLoad id copies b) s =
    .next (s.mailboxOp (wmLoadRequest id copies b) (fun s => s.loadSet id copies.toNat b)) := rfl

theorem exec_testItem (s : State) (image : Bytes) : exec (.testItem image) s =
    .next (s.dictAction (.mailbox (testRequest image)) (fun s => s.testJob image)) := rfl

theorem exec_wmUnload (s : State) (id : BitVec 16) :
    exec (.wmUnload id) s = .next (s.mailboxOp (wmUnloadRequest id) (fun s => s.unloadSet id)) := rfl

/-- TIERC_READ of blocks. -/
def State.sendBlocks (s : State) (nsid : BitVec 32) (lba : BitVec 64) (blocks : BitVec 32) : Wrote :=
  if blocks = 0 || 256 < blocks.toNat then s.refuse 0x0C05
  else if s.mem.tierCUnused.contains nsid then s.refuse 0x0904
  else match s.blocksAt nsid lba 0 blocks.toNat with
    | none => s.refuse 0x0905
    | some b => (s.drawn.emit (.hostWrite 0 b)).wrote

theorem exec_tiercRead (s : State) (nsid : BitVec 32) (lba : BitVec 64) (blocks : BitVec 32) : exec (.tiercRead nsid lba blocks) s =
    .next (s.mailboxOp (blocksRequest 0x14 nsid lba blocks []) (fun s => s.sendBlocks nsid lba blocks)) := rfl

/-- TIERC_WRITE of blocks. -/
def State.takeBlocks (s : State) (nsid : BitVec 32) (lba : BitVec 64) (blocks : BitVec 32) (data : Bytes) : Wrote :=
  if blocks = 0 || 256 < blocks.toNat then s.refuse 0x0C05
  else if s.mem.tierCUnused.contains nsid then s.refuse 0x0904
  else if !s.sec.nsKeys then s.refuse 0x0905
  else (s.writeBlocks nsid lba data blocks.toNat).wrote

theorem exec_tiercWrite (s : State) (nsid : BitVec 32) (lba : BitVec 64) (blocks : BitVec 32) (data : Bytes) :
    exec (.tiercWrite nsid lba blocks data) s =
      .next (s.mailboxOp (blocksRequest 0x15 nsid lba blocks data) (fun s => s.takeBlocks nsid lba blocks data)) := rfl

section
variable {s : State} {id : BitVec 16}

theorem unloadSet_field (h : id = 0 ∨ 0xFF < id.toNat) : s.unloadSet id = s.refuse 0x0601 := if_pos (by simpa using h)

section
variable (h0 : id ≠ 0) (h1 : id.toNat ≤ 0xFF)
include h0 h1

theorem unloadSet_named : s.unloadSet id = match s.wmUnloadSet id with
    | .error c => s.refuse c
    | .ok s => s.wrote := if_neg (by rw [decide_eq_false h0, decide_eq_false (Nat.not_lt.mpr h1)]; exact Bool.false_ne_true)

theorem unloadSet_none (h : s.wmSet? id = none) : s.unloadSet id = s.refuse 0x0608 := by
  rw [unloadSet_named h0 h1, State.wmUnloadSet, h]

variable {x : WmSet} (h : s.wmSet? id = some x)
include h

theorem unloadSet_busy (hb : s.wmBusy x = true) : s.unloadSet id = s.refuse 0x060A := by
  rw [unloadSet_named h0 h1, State.wmUnloadSet, h]
  dsimp only
  rw [if_pos hb]

theorem unloadSet_frees (hb : s.wmBusy x = false) : s.unloadSet id = (s.wmFree id).wrote := by
  rw [unloadSet_named h0 h1, State.wmUnloadSet, h]
  dsimp only
  rw [if_neg (by simp [hb])]

end

variable {nsid : BitVec 32} {lba : BitVec 64} {blocks : BitVec 32} {data : Bytes}

/-- A number of blocks that TIERC_READ and TIERC_WRITE take. -/
def BlocksFit (blocks : BitVec 32) : Prop := 1 ≤ blocks.toNat ∧ blocks.toNat ≤ 256

theorem blocksFit_iff : (blocks = 0 || 256 < blocks.toNat) = true ↔ ¬ BlocksFit blocks := by
  have zero : blocks = 0 ↔ blocks.toNat = 0 := BitVec.toNat_inj.symm
  simp only [BlocksFit, Bool.or_eq_true, decide_eq_true_eq, zero]
  omega

theorem sendBlocks_unfit (h : ¬ BlocksFit blocks) : s.sendBlocks nsid lba blocks = s.refuse 0x0C05 := if_pos (blocksFit_iff.mpr h)

theorem takeBlocks_unfit (h : ¬ BlocksFit blocks) : s.takeBlocks nsid lba blocks data = s.refuse 0x0C05 := if_pos (blocksFit_iff.mpr h)

section
variable (hb : BlocksFit blocks)
include hb

theorem sendBlocks_unused (hns : nsid ∈ s.mem.tierCUnused) : s.sendBlocks nsid lba blocks = s.refuse 0x0904 := by
  rw [State.sendBlocks, if_neg (fun hf => blocksFit_iff.mp hf hb), if_pos (List.contains_iff_mem.mpr hns)]

theorem takeBlocks_unused (hns : nsid ∈ s.mem.tierCUnused) : s.takeBlocks nsid lba blocks data = s.refuse 0x0904 := by
  rw [State.takeBlocks, if_neg (fun hf => blocksFit_iff.mp hf hb), if_pos (List.contains_iff_mem.mpr hns)]

variable (hns : nsid ∉ s.mem.tierCUnused)
include hns

theorem sendBlocks_used : s.sendBlocks nsid lba blocks = match s.blocksAt nsid lba 0 blocks.toNat with
    | none => s.refuse 0x0905
    | some b => (s.drawn.emit (.hostWrite 0 b)).wrote := by
  rw [State.sendBlocks, if_neg (fun hf => blocksFit_iff.mp hf hb), if_neg (fun hf => hns (List.contains_iff_mem.mp hf))]

theorem sendBlocks_unreadable {i : Nat} (hi : i < blocks.toNat) (h : s.blockAt nsid (lba + BitVec.ofNat 64 i) i = none) :
    s.sendBlocks nsid lba blocks = s.refuse 0x0905 := by
  rw [sendBlocks_used hb hns, blocksAt_unreadable hi (by rwa [Nat.zero_add])]

theorem sendBlocks_readable {bs : List Bytes} (hl : bs.length = blocks.toNat)
    (h : ∀ (i : Nat) (b : Bytes), bs[i]? = some b → s.tierCBlock nsid (lba + BitVec.ofNat 64 i) = some b) :
    s.sendBlocks nsid lba blocks = (s.drawn.emit (.hostWrite 0 bs.flatten)).wrote := by
  rw [sendBlocks_used hb hns, ← hl, blocksAt_flatten s nsid lba bs 0 (by simpa using h)]

theorem takeBlocks_used : s.takeBlocks nsid lba blocks data =
    if !s.sec.nsKeys then s.refuse 0x0905 else (s.writeBlocks nsid lba data blocks.toNat).wrote := by
  rw [State.takeBlocks, if_neg (fun hf => blocksFit_iff.mp hf hb), if_neg (fun hf => hns (List.contains_iff_mem.mp hf))]

theorem takeBlocks_no_keys (hk : s.sec.nsKeys = false) : s.takeBlocks nsid lba blocks data = s.refuse 0x0905 := by
  rw [takeBlocks_used hb hns, if_pos (by simp [hk])]

theorem takeBlocks_writes (hk : s.sec.nsKeys = true) :
    s.takeBlocks nsid lba blocks data = (s.writeBlocks nsid lba data blocks.toNat).wrote := by
  rw [takeBlocks_used hb hns, if_neg (by simp [hk])]

end
end

/-! #### The obligation -/

/-- Settles O51: the mailbox answers each request with what its operation does to the state, and the operations are read off case by
case; a test item adds the job that its image declares. -/
theorem services : Obligations.Services := by
  refine ⟨fun s boot host idle => ?_, fun s image boot host idle => ?_⟩
  · have up : InService s := ⟨⟨by simp [boot], host, idle⟩, boot⟩
    refine ⟨fun rec rows => ?_, fun id ht => ?_, fun id t ht => ?_, fun id copies b => ?_, fun id hid => ?_, fun id h0 h1 ht => ?_,
      fun id x h0 h1 hx => ?_, fun nsid lba blocks data => ?_, fun image => ?_⟩
    · have op := exec_tableRegister s rec rows
      refine ⟨fun hl hb => mailboxOp_refuses op up (by decide) (register_bad hl hb rows), fun hl hb hk hr ht hm hp => ?_⟩
      have stays : s.movedHomes (tableWith rec rows) = tableWith rec rows := movedHomes_of_unmoved (by rwa [tableWith_eq])
      have size : (tableWith rec rows).bytesHere = (tableOf rec none).nrows * (tableOf rec none).stored := by
        rw [tableWith_eq]
        exact bytesHere_stored hk
      refine ⟨fun hfull => ?_, fun hall ha => ⟨tableWith rec rows, ?_, tableWith_eq rec rows, ?_, ?_⟩⟩
      · exact mailboxOp_refuses op up (by decide) (register_full hl hb hk (placeTable_full stays (by rwa [size])))
      · have placed := placeTable_tierA stays (by rwa [tableWith_eq]) (by rwa [tableWith_eq]) (by rwa [size]) (by rwa [size])
        exact mailboxOp_answers op up (by decide) (register_placed hl hb hk placed hm)
      · exact fun r hr hb => filled_row rfl hr hb
      · rintro rfl
        exact congrArg Table.rows (filled_nil _)
    · exact mailboxOp_refuses (exec_tableDrop s id) up (by decide) (dropTable_none ht)
    · have op := exec_tableDrop s id
      refine ⟨fun hu => mailboxOp_refuses op up (by decide) (dropTable_used ht hu), fun hj hp hr hm => ?_⟩
      exact ⟨s.withoutTable id, mailboxOp_answers op up (by decide) (dropTable_unused ht hj hp hr hm), rfl, rfl, rfl, rfl, rfl, rfl⟩
    · have op := exec_wmLoad s id copies b
      refine ⟨fun hf => mailboxOp_refuses op up (by decide) (loadSet_field hf),
        fun hf hr => ⟨fun hb => ?_, fun hb ht => ?_, fun hb ht hn => ?_, fun hb ht hn => ?_⟩⟩
      · exact mailboxOp_refuses op up (by decide) (loadSet_bad hf hr hb)
      · exact mailboxOp_refuses op up (by decide) (loadSet_taken hf hr hb ht)
      · exact mailboxOp_refuses op up (by decide) (loadSet_full hf hr hb ht hn)
      · refine ⟨s.withSet id copies.toNat b, mailboxOp_answers op up (by decide) (loadSet_loads hf hr hb ht hn), rfl, rfl, fun d => ?_⟩
        have bank : (s.withSet id copies.toNat b).wm.banks[d] = Bank.loaded id copies.toNat s.wm.banks[d] := by simp [State.withSet]
        rw [bank]
        exact ⟨freeBanks_loaded id (hn d), loaded_bank id copies.toNat s.wm.banks[d]⟩
    · exact mailboxOp_refuses (exec_wmUnload s id) up (by decide) (unloadSet_field hid)
    · exact mailboxOp_refuses (exec_wmUnload s id) up (by decide) (unloadSet_none h0 h1 ht)
    · have op := exec_wmUnload s id
      refine ⟨fun hb => mailboxOp_refuses op up (by decide) (unloadSet_busy h0 h1 hx hb), fun hb => ?_⟩
      exact ⟨s.wmFree id, mailboxOp_answers op up (by decide) (unloadSet_frees h0 h1 hx hb), rfl, rfl, wmFree_bank s id⟩
    · have read := exec_tiercRead s nsid lba blocks
      have write := exec_tiercWrite s nsid lba blocks data
      refine ⟨fun hn => ?_, fun h1 h2 hns => ?_,
        fun h1 h2 hns => ⟨fun hk => ?_, fun hk hd => ?_, fun bs hl hbs => ?_, fun hx => ?_⟩⟩
      · have unfit : ¬ BlocksFit blocks := by
          unfold BlocksFit
          omega
        exact ⟨mailboxOp_refuses write up (by decide) (takeBlocks_unfit unfit),
          mailboxOp_refuses read up (by decide) (sendBlocks_unfit unfit)⟩
      · exact ⟨mailboxOp_refuses write up (by decide) (takeBlocks_unused ⟨h1, h2⟩ hns),
          mailboxOp_refuses read up (by decide) (sendBlocks_unused ⟨h1, h2⟩ hns)⟩
      · exact ⟨mailboxOp_refuses write up (by decide) (takeBlocks_no_keys ⟨h1, h2⟩ hns hk),
          mailboxOp_refuses read up (by decide) (sendBlocks_unreadable ⟨h1, h2⟩ hns h1 (blockAt_no_keys hk 0))⟩
      · have written := mailboxOp_answers write up (by decide) (takeBlocks_writes ⟨h1, h2⟩ hns hk)
        refine ⟨s.writeBlocks nsid lba data blocks.toNat, written, rfl, ?_, ?_⟩
        · exact fun i hi => writeBlocks_reads (by simp [State.up, boot]) hns hk h2 hd hi
        · exact fun m a hma => tierCBlock_congr rfl (find?_tierCWith_apart hma)
      · exact mailboxOp_answers read up (by decide) (sendBlocks_readable ⟨h1, h2⟩ hns hl hbs)
      · obtain ⟨i, hi, hx, hnone⟩ := hx
        exact mailboxOp_refuses read up (by decide) (sendBlocks_unreadable ⟨h1, h2⟩ hns hi (blockAt_unreadable hx hnone i))
    · exact dictAction_refuses (exec_testItem s image) up.toMailboxOpen (by decide) (testJob_unsupported (by simp [boot]))
  · have up : MailboxOpen s := ⟨by simp [boot], host, idle⟩
    have op := exec_testItem s image
    refine ⟨fun hj => dictAction_refuses op up (by decide) (testJob_busy boot hj), fun hj => ?_⟩
    have idle := testJob_idle (image := image) boot hj
    cases hl : s.loadPlaud 0 true image with
    | error code =>
      rw [hl] at idle
      exact dictAction_refuses op up (by decide) idle
    | ok u =>
      rw [hl] at idle
      obtain ⟨j, hu, hjob, htest, starts⟩ := testJob_loaded hj hl
      exact ⟨u.startJob (plaudJob image) image, j, dictAction_answers op up (by decide) idle, hu, hjob, htest, starts⟩

end Sys2Proof.Machine

/-! ### What a unit writes through its Vat's caches and counts (R48, R49, R51) -/

namespace Sys2Proof.Machine

open Sys2Proof

/-- The Vat holds dirty each line that a unit wrote to, and each one that it held dirty before. -/
theorem unitStore_dirty (s : State) (v : BitVec 6) (ws : List (Nat × Bytes)) {n : Nat}
    (h : (∃ x, l2Find s.mem.l2 v n = some x ∧ x.dirty = true) ∨ lineWritten ws n) :
    ∃ x, l2Find (s.unitStore v ws).mem.l2 v n = some x ∧ x.dirty = true := by
  induction ws generalizing s with
  | nil => exact h.resolve_right (fun ⟨_, hc, _⟩ => List.not_mem_nil hc)
  | cons w ws ih =>
    refine ih (s.store v w.1 w.2) ?_
    obtain hd | ⟨⟨q, x⟩, hc, hq⟩ := h
    · exact .inl (store_dirty s v w.1 n w.2 (.inl hd))
    · rw [← List.singleton_append, cellsOf_append, List.mem_append] at hc
      obtain hc | hc := hc
      · obtain ⟨hle, hx⟩ := mem_cellsOf.mp hc
        have := (List.getElem?_eq_some_iff.mp hx).1
        exact .inl (store_dirty s v w.1 n w.2 (.inr ⟨q, hle, by omega, hq⟩))
      · exact .inr ⟨_, hc, hq⟩

/-- What a unit wrote reads as written whatever copies are replaced later: the Vat holds it dirty. -/
theorem StoredInVat.of_unitStore {c : CoreId} {ws : List (Nat × Bytes)} {s r : State}
    (hr : r.mem = (s.unitStore c.vat ws).mem) : StoredInVat c ws s r := by
  obtain ⟨mem, ⟨bytes, others, kept⟩, stored⟩ := unitStore_stored c ws s
  refine ⟨by rw [hr, mem], ⟨by rw [hr, bytes], by rw [hr, others], fun a ha => ?_⟩, fun a b hb => ?_⟩
  · rw [← kept a ha]
    exact seenByte_congr (s := { s.unitStore c.vat ws with free := s.free }) (t := { r with free := s.free })
      (congrArg Memory.bytes hr) (congrArg Memory.l2 hr) rfl c.vat a
  · obtain ⟨l, hl, hd⟩ := unitStore_dirty s c.vat ws (.inr ⟨_, mem_of_lastStore hb, rfl⟩)
    rw [← stored a b hb]
    unfold State.seenByte
    rw [seenLine_dirty hl hd, seenLine_dirty (by rwa [hr]) hd]

/-- A command's end after its writes through the caches and its counts. -/
theorem unitEnd_ranInVat {s r : State} {u : UnitCmd} {ws : List (Nat × Bytes)} {counts : Nat → Nat} (ha : Awaits s u)
    (hr : r = { s with mem := (s.unitStore u.core.vat ws).mem, free := r.free,
                       dict := { s.dict with values := r.dict.values } })
    (hc : ∀ k, r.modVal k 0 = s.modVal k 0 + counts k) (st : BitVec 16) : UnitRan false s (r.unitEnd u st) u st ws counts := by
  have hb : r.hb = s.hb := by rw [hr]
  have cores : r.cores = s.cores := by rw [hr]
  have units : r.units = s.units := by rw [hr]
  have mem : r.mem = (s.unitStore u.core.vat ws).mem := by rw [hr]
  obtain ⟨reported, frame⟩ := unitEnd_reported (s := s) (ha.congr cores hb) units cores st
  refine ⟨reported, StoredInVat.of_unitStore (by rw [frame, mem]), fun k => ?_, ?_⟩
  · rw [frame]
    exact hc k
  · rw [frame, hr]

end Sys2Proof.Machine

/-! ### O25: the Watermark matcher (R253 to R258, R261, R263, R264, R266) -/

namespace Sys2Proof.Machine

open Sys2Proof

/-! #### Command blocks (Table 10.4) -/

/-- The next command of a die's matcher is carried out when the row of its OP comes. -/
theorem runMatcher_runs {s : State} {u : UnitCmd} {die : BitVec 2} {op : Nat} (hn : NextCmd s 3 die.toNat op u) (h1 : 1 ≤ op)
    (h2 : op ≤ 4) (run : State → UnitCmd → State) : runMatcher op die run s = .next (run s u) := by
  obtain ⟨hu, -, hop⟩ := hn.here
  have opcode : u.field 0 1 = op := hop
  have known : u.known = true := by
    unfold UnitCmd.known
    dsimp only
    rw [hu, opcode]
    simp [unitOps, h1, h2]
  exact serveNext_runs (unit := 3) hn known run

/-- A field of zero beside the other fields leaves a record as it is (R4). -/
theorem record_append_zero {len o k : Nat} {fs : List (Nat × Nat × Nat)} (hlen : ∀ f ∈ fs, f.1 + f.2.1 ≤ len) (ho : o + k ≤ len)
    (ha : ∀ f ∈ fs, o + k ≤ f.1 ∨ f.1 + f.2.1 ≤ o) : record len (fs ++ [(o, k, 0)]) = record len fs := by
  have fits : ∀ f ∈ fs, f.1 + f.2.1 ≤ (zeros len).length := by rwa [zeros_length]
  have last : record len (fs ++ [(o, k, 0)]) = putAt (record len fs) o (leBytes k 0) := List.foldl_append ..
  refine List.ext_getElem? (fun i => ?_)
  rw [last, getElem?_putAt (by rwa [leBytes_length, record_eq, putFields_length fits, zeros_length]), leBytes_length]
  split
  case isTrue hi =>
    rw [leBytes_getElem? _ _ _ (by omega), record_eq, putFields_apart fits (fun f hf => by have := ha f hf; omega), zeros,
      List.getElem?_replicate, if_pos (by omega), Nat.zero_div]
    rfl
  case isFalse => rfl

/-- A stretch of a record that no field reaches is zero. -/
theorem allZero_slice_record {len o k : Nat} {fs : List (Nat × Nat × Nat)} (h : ∀ f ∈ fs, f.1 + f.2.1 ≤ len)
    (ha : ∀ f ∈ fs, o + k ≤ f.1 ∨ f.1 + f.2.1 ≤ o) : allZero (((record len fs).drop o).take k) = true := by
  have slice : ((record len fs).drop o).take k = ((zeros len).drop o).take k := by
    refine List.ext_getElem? (fun i => ?_)
    rw [List.getElem?_take, List.getElem?_take, List.getElem?_drop, List.getElem?_drop, record_eq]
    split
    · exact putFields_apart (by rwa [zeros_length]) (fun f hf => by have := ha f hf; omega)
    · rfl
  rw [slice, zeros, List.drop_replicate, List.take_replicate]
  simp [allZero]

/-- The block of a LOAD, an UPDATE or an UNLOAD. -/
def wmBlock (op id n src copies : Nat) : Bytes := record 64 [(0, 1, op), (2, 2, id), (4, 4, n), (8, 8, src), (0x36, 1, copies)]

theorem wmBlock_no_copies (op id n src : Nat) : record 64 [(0, 1, op), (2, 2, id), (4, 4, n), (8, 8, src)] = wmBlock op id n src 0 :=
  (record_append_zero (fs := [(0, 1, op), (2, 2, id), (4, 4, n), (8, 8, src)]) (by simp) (by decide) (by simp)).symm

theorem wmBlock_set_alone (op id : Nat) : record 64 [(0, 1, op), (2, 2, id)] = wmBlock op id 0 0 0 := by
  have count := record_append_zero (len := 64) (o := 4) (k := 4) (fs := [(0, 1, op), (2, 2, id)]) (by simp) (by decide) (by simp)
  have src := record_append_zero (len := 64) (o := 8) (k := 8) (fs := [(0, 1, op), (2, 2, id), (4, 4, 0)])
    (by simp) (by decide) (by simp)
  exact (src.trans count).symm.trans (wmBlock_no_copies ..)

/-- What a LOAD, an UPDATE or an UNLOAD of class C asks for, in a block without defects. -/
structure WmAsks (u : UnitCmd) (id n src copies : Nat) : Prop where
  set    : wmId u = BitVec.ofNat 16 id
  count  : wmCount u = n
  src    : wmSrc u = src
  copies : u.field 0x36 1 = copies
  field  : wmAdminField u = false
  cls    : u.cls = 2

theorem wmAsks_of_block {u : UnitCmd} {op id n src copies : Nat} (hb : u.block = wmBlock op id n src copies)
    (hcls : u.cls = 2) (hid : 1 ≤ id ∧ id ≤ 0xFF) (hn : n < 2 ^ 32) (hs : src < 256 ^ 8)
    (hop : op = 2 ∧ 1 ≤ copies ∧ copies ≤ 4 ∨ op = 3 ∧ copies = 0 ∧ 1 ≤ n ∧ n ≤ 8192 ∨ op = 4 ∧ copies = 0 ∧ n = 0 ∧ src = 0) :
    WmAsks u id n src copies := by
  have field : ∀ off k, u.field off k = fieldAt _ off k := fun off k => congrArg (fieldAt · off k) hb
  have opcode : u.field 0 1 = op := (field 0 1).trans (fieldAt_record [] _ (by simp) (by simp) (by omega))
  have number : u.field 2 2 = id := (field 2 2).trans (fieldAt_record [_] _ (by simp) (by simp) (by omega))
  have count : u.field 4 4 = n := (field 4 4).trans (fieldAt_record [_, _] _ (by simp) (by simp) hn)
  have source : u.field 8 8 = src := (field 8 8).trans (fieldAt_record [_, _, _] _ (by simp) (by simp) hs)
  have places : u.field 0x36 1 = copies := (field 0x36 1).trans (fieldAt_record [_, _, _, _] _ (by simp) (by simp) (by omega))
  have flags : u.field 1 1 = 0 := (field 1 1).trans (fieldAt_record_apart (by simp) (by simp))
  have middle : allZero ((u.block.drop 0x10).take 0x26) = true := by
    rw [hb]
    exact allZero_slice_record (by simp) (by simp)
  have rest : allZero (u.block.drop 0x37) = true := by
    rw [hb]
    exact allZero_drop_record (by simp) (by decide)
  refine ⟨congrArg (BitVec.ofNat 16) number, count, source, places, ?_, hcls⟩
  unfold wmAdminField wmCount wmSrc
  dsimp only
  rw [opcode, number, count, source, places, flags, middle, rest]
  obtain ⟨rfl, h1, h2⟩ | ⟨rfl, rfl, h1, h2⟩ | ⟨rfl, rfl, rfl, rfl⟩ := hop <;> simp <;> omega

/-- Where no line is lost, an image and records can be read. -/
theorem wmLost_eq_false {s : State} (he : NoErrors s) (u : UnitCmd) (len : Nat) : s.wmLost u len = false := by
  unfold State.wmLost
  rw [unitPoisoned_eq_false he, Bool.and_false]

/-- Such a command passes the first checks of Table 10.12. -/
theorem wmAdminReject_eq_none {s : State} {u : UnitCmd} {id n src copies align len : Nat} {bad : Bool}
    (h : WmAsks u id n src copies) (ha : src % align = 0) (hp : s.plainRange src len = true) (hb : bad = false) :
    s.wmAdminReject u align len bad = none := by
  unfold State.wmAdminReject
  rw [h.field, h.src, hp, hb, h.cls]
  simp [ha]

/-- A command has reported success and left the sets, banks and counters of `r`, and has changed nothing else. -/
structure WmRan (s r t : State) (u : UnitCmd) : Prop where
  reported : Reported s t u 0
  frame    : t = { s with units := t.units, cores := t.cores, wm := t.wm, dict := { s.dict with values := t.dict.values } }
  wm       : t.wm = r.wm
  counters : ∀ k d, t.modVal k d = r.modVal k d

/-- A command's end after a change to the sets, banks and counters alone. -/
theorem unitEnd_wmRan {s r : State} {u : UnitCmd} (ha : Awaits s u)
    (hr : r = { s with wm := r.wm, dict := { s.dict with values := r.dict.values } }) : WmRan s r (r.unitEnd u 0) u := by
  have hb : r.hb = s.hb := by rw [hr]
  have cores : r.cores = s.cores := by rw [hr]
  have units : r.units = s.units := by rw [hr]
  obtain ⟨reported, frame⟩ := unitEnd_reported (s := s) (ha.congr cores hb) units cores 0
  have wm : (r.unitEnd u 0).wm = r.wm := by rw [frame]
  have dict : (r.unitEnd u 0).dict = r.dict := by rw [frame]
  refine ⟨reported, ?_, wm, fun k d => by unfold State.modVal; rw [dict]⟩
  rw [wm, dict, frame]
  exact congrArg (fun x : State => { x with units := (r.unitEnd u 0).units, cores := (r.unitEnd u 0).cores }) hr

/-! #### The search of one string (R257) -/

/-- A search after one more lookup. -/
def WmRun.looked (r : WmRun) (state : BitVec 16) (p : Nat) : WmRun := { r with s := state, q := p, lookups := r.lookups + 1 }

/-- A search after the emit of the entry found at p, if it makes one. -/
def WmRun.acted (r : WmRun) (e : WmEntry) (p : Nat) : WmRun :=
  if wmAction e.data = 1 ∨ wmAction e.data = 2 then
    { r with nemit := r.nemit + 1, tag := (wmTag e.data).toNat, emits := r.emits ++ [(p, (wmTag e.data).toNat)] }
  else r

section
variable {x : WmSet} {str : Bytes} {fuel p : Nat} {state : BitVec 16} {r : WmRun} {e : WmEntry}

theorem wmLoop_past (h : str.length < p) :
    wmLoop x str (fuel + 1) state p r = { r with s := state, q := p, outcome := 3 } := if_pos h

theorem wmLoop_misses (h : p ≤ str.length) (hn : x.entries.find? (fun e => e.fits (wmKey x str state p)) = none) :
    wmLoop x str (fuel + 1) state p r = { r.looked state p with outcome := 2 } := by
  refine (if_neg (Nat.not_lt.mpr h)).trans ?_
  dsimp only
  rw [hn]
  rfl

theorem wmLoop_finds (h : p ≤ str.length) (he : x.entries.find? (fun e => e.fits (wmKey x str state p)) = some e) :
    wmLoop x str (fuel + 1) state p r =
      if wmAction e.data = 2 then { (r.looked state p).acted e p with outcome := 0 }
      else if wmAction e.data = 3 then { (r.looked state p).acted e p with outcome := 1 }
      else wmLoop x str fuel (wmNext e.data) (p + wmAdv e.data + 1) ((r.looked state p).acted e p) := by
  refine (if_neg (Nat.not_lt.mpr h)).trans ?_
  dsimp only
  rw [he]
  simp only [WmRun.acted, WmRun.looked, Bool.or_eq_true, decide_eq_true_eq]

end

/-- What holds of a search in a string of `len` bytes before it looks at position p: its emits lie before p, in order, and each
lookup took a position of its own. -/
structure WmRun.Before (r : WmRun) (len p : Nat) : Prop where
  counted : r.nemit = r.emits.length
  sorted  : r.emits.Pairwise (fun a b => a.1 < b.1)
  early   : ∀ e ∈ r.emits, e.1 < p ∧ e.1 ≤ len
  lookups : r.lookups ≤ p ∧ r.lookups ≤ len + 1

namespace WmRun.Before

variable {r : WmRun} {len p q : Nat}

theorem mono (h : r.Before len p) (hq : p ≤ q) : r.Before len q :=
  ⟨h.counted, h.sorted, fun e he => ⟨(h.early e he).1.trans_le hq, (h.early e he).2⟩, h.lookups.1.trans hq, h.lookups.2⟩

/-- The outcome, and where the search stopped, have no part in it. -/
theorem ended (h : r.Before len p) (o : Nat) (state : BitVec 16) (q : Nat) :
    ({ r with outcome := o, s := state, q := q } : WmRun).Before len p := ⟨h.counted, h.sorted, h.early, h.lookups⟩

/-- The lookup of a position takes it. -/
theorem looked (h : r.Before len p) (hp : p ≤ len) (state : BitVec 16) : (r.looked state p).Before len (p + 1) :=
  have later := h.mono (Nat.le_succ p)
  ⟨later.counted, later.sorted, later.early, Nat.succ_le_succ h.lookups.1, Nat.succ_le_succ (h.lookups.1.trans hp)⟩

/-- Its emit comes after those before. -/
theorem acted (h : r.Before len p) (hp : p ≤ len) (state : BitVec 16) (e : WmEntry) :
    ((r.looked state p).acted e p).Before len (p + 1) := by
  obtain ⟨counted, -, early, lookups⟩ := h.looked hp state
  unfold WmRun.acted
  split
  · refine ⟨?_, ?_, ?_, lookups⟩
    · show (r.looked state p).nemit + 1 = ((r.looked state p).emits ++ [_]).length
      rw [List.length_append, counted, List.length_singleton]
    · exact List.pairwise_append.mpr ⟨h.sorted, List.pairwise_singleton .., fun a ha b hb => by
        rw [List.mem_singleton.mp hb]
        exact (h.early a ha).1⟩
    · exact List.forall_mem_append.mpr ⟨early, List.forall_mem_singleton.mpr ⟨Nat.lt_succ_self p, hp⟩⟩
  · exact h.looked hp state

end WmRun.Before

/-- R257: with fuel for every position left, the loop ends with an outcome of its own. -/
theorem wmLoop_ends {x : WmSet} {str : Bytes} {fuel : Nat} {state : BitVec 16} {p : Nat} {r : WmRun}
    (hf : str.length + 2 ≤ p + (fuel + 1)) (h : r.Before str.length p) :
    (wmLoop x str (fuel + 1) state p r).outcome ≤ 3 ∧ ∃ q, (wmLoop x str (fuel + 1) state p r).Before str.length q := by
  induction fuel generalizing state p r with
  | zero =>
    rw [wmLoop_past (by omega)]
    exact ⟨Nat.le_refl 3, p, h.ended ..⟩
  | succ fuel ih =>
    obtain past | here := Nat.lt_or_ge str.length p
    · rw [wmLoop_past past]
      exact ⟨Nat.le_refl _, p, h.ended ..⟩
    · cases he : x.entries.find? (fun e => e.fits (wmKey x str state p)) with
      | none =>
        rw [wmLoop_misses here he]
        exact ⟨(by decide : 2 ≤ 3), p + 1, (h.looked here state).ended ..⟩
      | some e =>
        rw [wmLoop_finds here he]
        have next := h.acted here state e
        split
        · exact ⟨(by decide : 0 ≤ 3), p + 1, next.ended ..⟩
        · split
          · exact ⟨(by decide : 1 ≤ 3), p + 1, next.ended ..⟩
          · exact ih (by omega) (next.mono (by omega))

/-- A search that has looked at nothing. -/
def WmRun.start (state : BitVec 16) : WmRun :=
  { outcome := 4, tag := 0xFFFF, nemit := 0, s := state, q := 0, emits := [], lookups := 0 }

theorem WmRun.start_before (state : BitVec 16) (len : Nat) : (WmRun.start state).Before len 0 :=
  ⟨rfl, List.Pairwise.nil, fun _ h => absurd h List.not_mem_nil, Nat.le_refl _, Nat.zero_le _⟩

theorem wmSearch_long {x : WmSet} {start : BitVec 16} {str : Bytes} (h : 65535 < str.length) :
    wmSearch x start (some str) = { WmRun.start start with outcome := 5 } := if_pos h

theorem wmSearch_short {x : WmSet} {start : BitVec 16} {str : Bytes} (h : str.length ≤ 65535) :
    wmSearch x start (some str) = wmLoop x str (str.length + 2) start 0 (WmRun.start start) := if_neg (Nat.not_lt.mpr h)

/-! #### SEARCH -/

/-- Emit records stand in the order of the strings. -/
theorem emitRecords_eq (i : Nat) (rs : List WmRun) : emitRecords i rs =
    (rs.zipIdx i).flatMap (fun r => r.1.emits.map (fun e => leBytes 4 r.2 ++ leBytes 2 e.1 ++ leBytes 2 e.2)) := by
  induction rs generalizing i with
  | nil => rfl
  | cons r rs ih => rw [emitRecords, ih, List.zipIdx_cons, List.flatMap_cons]

section
variable {s : State} {u : UnitCmd} {x : WmSet}

/-- The status of a SEARCH of a set. -/
def State.wmStatus (s : State) (u : UnitCmd) (x : WmSet) : BitVec 16 :=
  if u.field 1 1 = 1 ∧ u.field 0x30 4 < (emitRecords 0 (s.wmRuns u x)).length then 0x0610
  else if (s.wmRuns u x).any (fun r => r.outcome = 5) then 0x0611 else 0

/-- What it writes: its result records, and the emit records that have room. -/
def State.wmWrites (s : State) (u : UnitCmd) (x : WmSet) : List (Nat × Bytes) :=
  (u.field 0x20 8, (s.wmRuns u x).flatMap WmRun.record) ::
    (if u.field 1 1 = 1 then [(u.field 0x28 8, ((emitRecords 0 (s.wmRuns u x)).take (u.field 0x30 4)).flatten)] else [])

/-- What it counts: one search (log entry 76) and its lookups. -/
def State.wmCounts (s : State) (u : UnitCmd) (x : WmSet) (k : Nat) : Nat :=
  if k = 0x3C0002 then 1 else if k = 0x3C0003 then ((s.wmRuns u x).map (·.lookups)).sum else 0

theorem wmSearchPlan_eq (h : s.wmTarget u = .ok x) :
    wmSearchPlan s u = { status := s.wmStatus u x, reads := wmSearchReads s u, writes := s.wmWrites u x } := by
  unfold wmSearchPlan State.wmStatus State.wmWrites
  rw [h]
  simp only [Bool.and_eq_true, decide_eq_true_eq]

theorem wmStatus_ne_poison (s : State) (u : UnitCmd) (x : WmSet) : s.wmStatus u x ≠ poisonStatus := by
  unfold State.wmStatus
  split
  · decide
  · split <;> decide

theorem wmTally_eq (h : s.wmTarget u = .ok x) (now : State) : s.wmTally u now =
    (now.bump 0x3C0002 1).bump 0x3C0003 ((s.wmRuns u x).map (·.lookups)).sum := by
  unfold State.wmTally
  rw [h, List.sum_eq_foldl, List.foldl_map]

theorem wmTally_modVal (h : s.wmTarget u = .ok x) (now : State) (k : Nat) :
    (s.wmTally u now).modVal k 0 = now.modVal k 0 + s.wmCounts u x k := by
  rw [wmTally_eq h, modVal_bump, modVal_bump, Nat.add_assoc]
  congr 1
  unfold State.wmCounts
  by_cases hk : k = 0x3C0002
  · simp [hk]
  · simp [hk]

/-- R257, R258: a SEARCH of a set that is loaded here. -/
theorem search_runs {die : BitVec 2} (ha : Awaits s u) (he : NoErrors s) (hn : NextCmd s 3 die.toNat 1 u)
    (h : s.wmTarget u = .ok x) : Runs false (.search die) s u (s.wmStatus u x) (s.wmWrites u x) (s.wmCounts u x) := by
  have run : exec (.search die) s = .next (s.wmSearchCmd u) := runMatcher_runs hn (by decide) (by decide) State.wmSearchCmd
  have ends : s.wmSearchCmd u =
      (s.wmTally u (s.unitStore u.core.vat (s.wmWrites u x)).drawn).unitEnd u (s.wmStatus u x) := by
    unfold State.wmSearchCmd State.notePoison
    rw [settle_eq he, wmSearchPlan_eq h]
    dsimp only
    rw [if_neg (wmStatus_ne_poison s u x)]
  have counts := wmTally_modVal h (s.unitStore u.core.vat (s.wmWrites u x)).drawn
  obtain ⟨m, write⟩ : ∃ m, s.unitStore u.core.vat (s.wmWrites u x) = { s with mem := m } := ⟨_, unitStore_memOnly ..⟩
  refine ⟨_, run.trans (congrArg _ ends), unitEnd_ranInVat ha ?_ ?_ _⟩
  · rw [wmTally_eq h, write]
    rfl
  · rw [write] at counts ⊢
    exact counts

end

/-! #### LOAD (R263) -/

/-- A good image is longer than its head. -/
theorem length_of_wmImageBad {b : Bytes} (h : wmImageBad b = false) : b.length ≠ 0 := by
  unfold wmImageBad at h
  simp only [Bool.or_eq_false_iff, decide_eq_false_iff_not, not_not] at h
  omega

section
variable {s : State} {u : UnitCmd} {id n src copies : Nat} {x : WmSet}

theorem wmLoadImage_loads {key : BitVec 16} {b : Bytes} (hr : wmImageField b = false) (hb : wmImageBad b = false)
    (ht : s.wmSet? key = none) (hn : ∀ d : Fin 4, copies ≤ freeBanks s.wm.banks[d]) :
    s.wmLoadImage key copies b = .ok (s.withSet key copies b) := by
  have enough : ¬ s.wm.banks.toList.any (fun v => decide (freeBanks v < copies)) = true := by
    rw [List.any_eq_true]
    rintro ⟨v, hv, hd⟩
    obtain ⟨d, hd4, rfl⟩ := List.getElem_of_mem hv
    have := hn ⟨d, by simpa using hd4⟩
    simp at hd this
    omega
  unfold State.wmLoadImage
  rw [if_neg (by simp [hr]), if_neg (by simp [hb]), if_neg (by simp [ht]), if_neg enough]
  rfl

/-- R263: a LOAD of a good image under an ID that is not in use, into free banks. -/
theorem load_ran {die : BitVec 2} (haw : Awaits s u) (he : NoErrors s) (hc : NextCmd s 3 die.toNat 2 u) (h : WmAsks u id n src copies)
    (ha : src % 64 = 0) (hp : s.plainRange src n = true) (hr : wmImageField (s.seen u.core.vat src n) = false)
    (hb : wmImageBad (s.seen u.core.vat src n) = false) (ht : s.wmSet? (BitVec.ofNat 16 id) = none)
    (hn : ∀ d : Fin 4, copies ≤ freeBanks s.wm.banks[d]) : ∃ t, exec (.load die) s = .next t ∧
      WmRan s (s.withSet (BitVec.ofNat 16 id) copies (s.seen u.core.vat src n)) t u := by
  have run : exec (.load die) s = .next (s.wmLoadCmd u) := runMatcher_runs hc (by decide) (by decide) State.wmLoadCmd
  have loads : s.wmLoadCmd u = (s.withSet (BitVec.ofNat 16 id) copies (s.seen u.core.vat src n)).unitEnd u 0 := by
    unfold State.wmLoadCmd
    dsimp only
    rw [wmLost_eq_false he, if_neg (by decide), h.count, h.src, wmAdminReject_eq_none h ha hp hr, h.set, h.copies]
    dsimp only
    rw [wmLoadImage_loads hr hb ht hn]
  exact ⟨_, run.trans (congrArg _ loads), unitEnd_wmRan haw rfl⟩

/-- The banks of each die after a LOAD. -/
theorem withSet_banks {key : BitVec 16} {b : Bytes} (hn : ∀ d : Fin 4, copies ≤ freeBanks s.wm.banks[d]) (d : Fin 4) :
    (∀ i : Fin 16, ((s.withSet key copies b).wm.banks[d])[i] = (s.wm.banks[d])[i] ∨
      ((s.wm.banks[d])[i] = .free ∧ ((s.withSet key copies b).wm.banks[d])[i] = .holds key)) ∧
    freeBanks ((s.withSet key copies b).wm.banks[d]) + copies = freeBanks s.wm.banks[d] := by
  have die : (s.withSet key copies b).wm.banks[d] = Bank.loaded key copies s.wm.banks[d] := Vector.getElem_map ..
  rw [die]
  exact ⟨loaded_bank key copies _, freeBanks_loaded key (hn d)⟩

/-! #### UPDATE (R266) -/

/-- The records of an UPDATE, read from memory. -/
def State.wmUpdates (s : State) (u : UnitCmd) (src n : Nat) : List WmRecord :=
  (List.range n).map (wmRecordAt (s.seen u.core.vat src (96 * n)))

/-- A set with records applied, if it has the ID. -/
def WmSet.updated (key : BitVec 16) (rs : List WmRecord) (x : WmSet) : WmSet :=
  if x.id = key then { x with entries := rs.foldl applyRecord x.entries } else x

theorem updated_id (key : BitVec 16) (rs : List WmRecord) (x : WmSet) : (x.updated key rs).id = x.id := by
  unfold WmSet.updated
  split <;> rfl

/-- The state with a set's records applied. -/
def State.withUpdates (s : State) (key : BitVec 16) (rs : List WmRecord) : State :=
  { s with wm := { s.wm with sets := s.wm.sets.map (WmSet.updated key rs) } }

theorem wmSet?_id {key : BitVec 16} (h : s.wmSet? key = some x) : x.id = key :=
  of_decide_eq_true (List.find?_some (p := fun y : WmSet => decide (y.id = key)) h)

theorem wmSet?_withUpdates {key : BitVec 16} (h : s.wmSet? key = some x) (rs : List WmRecord) :
    (s.withUpdates key rs).wmSet? key = some { x with entries := rs.foldl applyRecord x.entries } := by
  have same : ((fun y : WmSet => decide (y.id = key)) ∘ WmSet.updated key rs) = fun y => decide (y.id = key) :=
    funext fun y => by rw [Function.comp_apply, updated_id]
  have found : s.wm.sets.find? (fun y => decide (y.id = key)) = some x := h
  unfold State.wmSet? State.withUpdates
  rw [List.find?_map, same, found, Option.map_some, WmSet.updated, if_pos (wmSet?_id h)]

/-- Other sets are as they were. -/
theorem mem_withUpdates {key : BitVec 16} {rs : List WmRecord} {y : WmSet} (h : y ∈ (s.withUpdates key rs).wm.sets)
    (hy : y.id ≠ key) : y ∈ s.wm.sets := by
  obtain ⟨z, hz, rfl⟩ := List.mem_map.mp h
  rw [updated_id] at hy
  rwa [WmSet.updated, if_neg hy]

/-- The records are good for their set, and its lock's lease is not stale. -/
structure WmUpdatesFit (s : State) (u : UnitCmd) (x : WmSet) (rs : List WmRecord) : Prop where
  mutable_ : x.mutable_ = true
  records  : ∀ r ∈ rs, r.uop < 2 ∧ r.reserved = false ∧ r.entry < x.entries.length ∧ (r.uop = 0 → r.bad x.width = false)
  lease    : s.leaseStale 3 (x.id.setWidth 32) u.lease = false

theorem wmUpdateReject_eq_none {rs : List WmRecord} (hx : s.wmSet? (wmId u) = some x) (h : WmUpdatesFit s u x rs) :
    s.wmUpdateReject u rs = none := by
  have good : rs.any (fun r => r.uop = 0 && r.bad x.width) = false := List.any_eq_false.mpr (fun r hr => by
    obtain ⟨-, -, -, good⟩ := h.records r hr
    simpa using good)
  have inside : rs.any (fun r => x.entries.length ≤ r.entry) = false := List.any_eq_false.mpr (fun r hr => by
    obtain ⟨-, -, inside, -⟩ := h.records r hr
    simpa using inside)
  unfold State.wmUpdateReject
  rw [hx]
  dsimp only
  rw [good, h.mutable_, inside, h.lease]
  rfl

/-- R266: an UPDATE of a set by records that fit it, in a module whose sets nobody mirrors. -/
theorem update_ran {die : BitVec 2} (haw : Awaits s u) (he : NoErrors s) (hc : NextCmd s 3 die.toNat 3 u)
    (h : WmAsks u id n src copies) (ha : src % 32 = 0) (hp : s.plainRange src (96 * n) = true)
    (hx : s.wmSet? (BitVec.ofNat 16 id) = some x) (hf : WmUpdatesFit s u x (s.wmUpdates u src n)) (hm : s.mirrored = false) :
    ∃ t, exec (.update die) s = .next t ∧
      WmRan s ((s.withUpdates (BitVec.ofNat 16 id) (s.wmUpdates u src n)).bump 0x3C0004 1) t u := by
  have run : exec (.update die) s = .next (s.wmUpdateCmd u) := runMatcher_runs hc (by decide) (by decide) State.wmUpdateCmd
  have updates : s.wmUpdateCmd u =
      ((s.withUpdates (BitVec.ofNat 16 id) (s.wmUpdates u src n)).bump 0x3C0004 1).unitEnd u 0 := by
    have plain : (s.wmUpdates u src n).any WmRecord.reserved = false := List.any_eq_false.mpr (fun r hr => by
      obtain ⟨-, plain, -, -⟩ := hf.records r hr
      simp [plain])
    have alone : (s.withUpdates (BitVec.ofNat 16 id) (s.wmUpdates u src n)).mirrored = false := hm
    have fits := wmUpdateReject_eq_none (h.set.symm ▸ hx) hf
    unfold State.wmUpdates at *
    unfold State.wmUpdateCmd
    dsimp only
    rw [wmLost_eq_false he, if_neg (by decide), h.count, h.src, wmAdminReject_eq_none h ha hp plain]
    dsimp only
    rw [fits, h.set]
    exact congrArg (fun t : State => (t.bump 0x3C0004 1).unitEnd u 0) (if_neg (by rw [Bool.not_eq_true]; exact alone))
  exact ⟨_, run.trans (congrArg _ updates), unitEnd_wmRan haw rfl⟩

/-! Records are applied in order (R266). -/

theorem foldl_applyRecord_length (rs : List WmRecord) (es : List WmEntry) : (rs.foldl applyRecord es).length = es.length := by
  induction rs generalizing es with
  | nil => rfl
  | cons r rs ih => exact (ih _).trans List.length_set

/-- An entry that no record names is as it was. -/
theorem foldl_applyRecord_unnamed {rs : List WmRecord} {i : Nat} (h : ∀ r ∈ rs, r.entry ≠ i) (es : List WmEntry) :
    (rs.foldl applyRecord es)[i]? = es[i]? := by
  induction rs generalizing es with
  | nil => rfl
  | cons r rs ih =>
    obtain ⟨hr, hrs⟩ := List.forall_mem_cons.mp h
    exact (ih hrs _).trans (List.getElem?_set_ne hr)

/-- The last record that names an entry decides it. -/
theorem foldl_applyRecord_last {rs : List WmRecord} {i : Nat} {r : WmRecord} {es : List WmEntry}
    (hl : (rs.filter (fun r => r.entry = i)).getLast? = some r) (hi : i < es.length) :
    ∃ e, (rs.foldl applyRecord es)[i]? = some e ∧ (r.uop = 0 → e = r.toEntry) ∧ (r.uop = 1 → e.valid = false) := by
  induction rs using List.reverseRecOn with
  | nil => cases hl
  | append_singleton rs r' ih =>
    rw [List.foldl_append, List.foldl_cons, List.foldl_nil, applyRecord]
    rw [List.filter_append] at hl
    by_cases h : r'.entry = i
    · rw [List.filter_cons_of_pos (by simpa using h), List.filter_nil, List.getLast?_concat] at hl
      obtain rfl := Option.some.inj hl
      rw [h, List.getElem?_set_self (by rwa [foldl_applyRecord_length])]
      refine ⟨_, rfl, fun h0 => if_pos h0, fun h1 => ?_⟩
      rw [if_neg (by omega)]
    · rw [List.filter_cons_of_neg (by simpa using h), List.filter_nil, List.append_nil] at hl
      rw [List.getElem?_set_ne h]
      exact ih hl

/-! #### UNLOAD (R264) -/

/-- R264: an UNLOAD of a set that nothing uses but the command itself. -/
theorem unload_ran {die : BitVec 2} (haw : Awaits s u) (hc : NextCmd s 3 die.toNat 4 u) (h : WmAsks u id 0 0 copies)
    (hx : s.wmSet? (BitVec.ofNat 16 id) = some x) (hb : State.wmBusy { s with units := s.units.erase u } x = false) :
    ∃ t, exec (.unload die) s = .next t ∧ WmRan s (s.wmFree (BitVec.ofNat 16 id)) t u := by
  have run : exec (.unload die) s = .next (s.wmUnloadCmd u) := runMatcher_runs hc (by decide) (by decide) State.wmUnloadCmd
  have frees : s.wmUnloadCmd u = (s.wmFree (BitVec.ofNat 16 id)).unitEnd u 0 := by
    have found : ({ s with units := s.units.erase u } : State).wmSet? (BitVec.ofNat 16 id) = some x := hx
    unfold State.wmUnloadCmd State.wmUnloadSet
    rw [wmAdminReject_eq_none h rfl rfl rfl, h.set]
    dsimp only
    rw [found]
    dsimp only
    rw [hb]
    rfl
  exact ⟨_, run.trans (congrArg _ frees), unitEnd_wmRan haw rfl⟩

end

/-! #### BANK_RETIRE (R261) -/

theorem bankRetire_bank (s : State) (die : Fin 4) (bank : Fin 16) : ∃ t,
    exec (.bankRetire (BitVec.ofNat 2 die.val) (BitVec.ofNat 4 bank.val)) s = .next t ∧
    t = { s with wm := { s.wm with banks := t.wm.banks } } ∧
    ∀ (d : Fin 4) (i : Fin 16), (t.wm.banks[d])[i] = if d = die ∧ i = bank then .retired else (s.wm.banks[d])[i] := by
  refine ⟨_, rfl, rfl, fun d i => ?_⟩
  by_cases hd : d = die
  · subst hd
    by_cases hi : i = bank
    · simp [hi]
    · have apart : bank.val ≠ i.val := fun h => hi (Fin.ext h.symm)
      simp [hi, apart]
  · have apart : die.val ≠ d.val := fun h => hd (Fin.ext h.symm)
    simp [hd, apart]

/-! #### The obligation -/

/-- Settles O25: a search of a string is the loop of R257, whose emits and lookups each take a position of their own; LOAD, UPDATE
and UNLOAD change the sets and banks alone, and an UPDATE's records are applied one after another. -/
theorem watermarkSets : Obligations.WatermarkSets := by
  unfold Obligations.WatermarkSets
  refine ⟨fun s u die id src n copies x ha he => ?_, bankRetire_bank, fun x start str => ?_⟩
  · intro vat admin key done
    refine ⟨fun hn hx => ?_, ?_, ?_, ?_⟩
    · have runs := search_runs ha he hn hx
      unfold State.wmStatus State.wmWrites State.wmCounts at runs
      rw [emitRecords_eq] at runs
      exact runs
    · intro b hadmin h1 h4 ha64 hn32 hp hr hb ht hfree
      obtain ⟨hn, hc, hid, hid', hblock⟩ := hadmin
      have long : n ≠ 0 := by
        have := length_of_wmImageBad hb
        rwa [seen_length] at this
      have asks := wmAsks_of_block hblock hc ⟨hid, hid'⟩ hn32 (plainRange_lt hp long) (.inl ⟨rfl, h1, h4⟩)
      obtain ⟨t, run, ran⟩ := load_ran ha he hn asks ha64 hp hr hb ht hfree
      refine ⟨t, run, ⟨ran.reported, ran.frame⟩, congrArg Watermark.sets ran.wm, fun d => ?_⟩
      rw [ran.wm]
      exact withSet_banks hfree d
    · intro rs hadmin h1 h2 ha32 hp hx hmut hrs hlease hmirror
      obtain ⟨hn, hc, hid, hid', hblock⟩ := hadmin
      rw [wmBlock_no_copies] at hblock
      have asks := wmAsks_of_block hblock hc ⟨hid, hid'⟩ (by omega) (plainRange_lt hp (by omega)) (.inr (.inl ⟨rfl, rfl, h1, h2⟩))
      have fits : WmUpdatesFit s u x rs := ⟨hmut, hrs, (wmSet?_id hx).symm ▸ hlease⟩
      obtain ⟨t, run, ran⟩ := update_ran ha he hn asks ha32 hp hx fits hmirror
      obtain ⟨counted, others⟩ := bump_countsBy (s.withUpdates key rs) 0x3C0004 1
      have sets : t.wm.sets = (s.withUpdates key rs).wm.sets := congrArg Watermark.sets ran.wm
      have banks : t.wm.banks = (s.withUpdates key rs).wm.banks := congrArg Watermark.banks ran.wm
      refine ⟨t, rs.foldl applyRecord x.entries, run, ⟨ran.reported, ran.frame⟩, ?_, foldl_applyRecord_length ..,
        banks, ⟨(ran.counters ..).trans counted, fun k d hk => (ran.counters ..).trans (others k d hk)⟩,
        fun y hy hne => mem_withUpdates (sets ▸ hy) hne, fun i => ?_⟩
      · exact (congrArg (List.find? _) sets).trans (wmSet?_withUpdates hx rs)
      · split
        case h_1 hnone =>
          refine foldl_applyRecord_unnamed (fun r hr heq => ?_) _
          have empty := List.getLast?_eq_none_iff.mp hnone
          exact List.not_mem_nil (empty ▸ List.mem_filter.mpr ⟨hr, decide_eq_true heq⟩)
        case h_2 r hlast =>
          obtain ⟨hr, hentry⟩ := List.mem_filter.mp (List.mem_of_getLast? hlast)
          obtain ⟨-, -, inside, -⟩ := hrs r hr
          exact foldl_applyRecord_last hlast (of_decide_eq_true hentry ▸ inside)
    · intro hadmin hx hbusy
      obtain ⟨hn, hc, hid, hid', hblock⟩ := hadmin
      rw [wmBlock_set_alone] at hblock
      have asks := wmAsks_of_block hblock hc ⟨hid, hid'⟩ (by decide) (by decide) (.inr (.inr ⟨rfl, rfl, rfl, rfl⟩))
      obtain ⟨t, run, ran⟩ := unload_ran ha hn asks hx hbusy
      refine ⟨t, run, ⟨ran.reported, ran.frame⟩, congrArg Watermark.sets ran.wm, fun d i => ?_⟩
      rw [ran.wm]
      exact wmFree_bank s key d i
  · intro r
    refine ⟨rfl, fun long => ?_, fun short => ?_⟩
    · rw [show r = _ from wmSearch_long long]
      exact ⟨rfl, rfl⟩
    · have run : r = _ := wmSearch_short short
      obtain ⟨outcome, q, before⟩ := wmLoop_ends (x := x) (state := start) (Nat.le_add_left (str.length + 2) 0)
        (WmRun.start_before start str.length)
      rw [← run] at outcome before
      refine ⟨outcome, before.counted, before.sorted, fun e he => (before.early e he).2, before.lookups.2, fun hnone => ?_⟩
      rw [run, wmLoop_misses (Nat.zero_le _) hnone]
      exact ⟨rfl, rfl, rfl⟩

end Sys2Proof.Machine

/-! ### O34: the order of the delay lists (R292, R293, Table 11.12) -/

namespace Sys2Proof.Machine

open Sys2Proof

/-! #### Sorting -/

theorem placeDelay_perm (d : DelayEntry) (ds : List DelayEntry) : (placeDelay d ds).Perm (d :: ds) := by
  induction ds with
  | nil => exact .refl _
  | cons e es ih =>
    rw [placeDelay]
    split
    · exact .refl _
    · exact (ih.cons e).trans (.swap d e es)

theorem sortDelays_perm (ds : List DelayEntry) : (sortDelays ds).Perm ds := by
  induction ds with
  | nil => exact .refl _
  | cons d ds ih => exact (placeDelay_perm d _).trans (ih.cons d)

theorem DelayEntry.before_iff {a b : DelayEntry} : a.before b = true ↔
    a.value < b.value ∨ (a.value = b.value ∧ (a.kind < b.kind ∨ (a.kind = b.kind ∧ a.object ≤ b.object))) := by
  simp [DelayEntry.before]

theorem DelayEntry.before_trans {a b c : DelayEntry} (h : a.before b = true) (g : b.before c = true) :
    a.before c = true := by
  rw [DelayEntry.before_iff] at *
  omega

theorem DelayEntry.before_total {a b : DelayEntry} (h : ¬ a.before b = true) : b.before a = true := by
  rw [DelayEntry.before_iff] at *
  omega

theorem placeDelay_pairwise {d : DelayEntry} {ds : List DelayEntry} (h : ds.Pairwise (fun a b => a.before b = true)) :
    (placeDelay d ds).Pairwise (fun a b => a.before b = true) := by
  induction ds with
  | nil => exact List.pairwise_singleton _ d
  | cons e es ih =>
    obtain ⟨he, hes⟩ := List.pairwise_cons.mp h
    rw [placeDelay]
    split
    next hde =>
      refine List.pairwise_cons.mpr ⟨fun x hx => ?_, h⟩
      rcases List.mem_cons.mp hx with rfl | hx
      · exact hde
      · exact DelayEntry.before_trans hde (he x hx)
    next hde =>
      refine List.pairwise_cons.mpr ⟨fun x hx => ?_, ih hes⟩
      rcases List.mem_cons.mp ((placeDelay_perm d es).mem_iff.mp hx) with rfl | hx
      · exact DelayEntry.before_total hde
      · exact he x hx

theorem sortDelays_pairwise (ds : List DelayEntry) : (sortDelays ds).Pairwise (fun a b => a.before b = true) := by
  induction ds with
  | nil => exact .nil
  | cons d ds ih => exact placeDelay_pairwise ih

/-! #### Farther advances -/

theorem lowest_eq_none {l : List Nat} : lowest l = none ↔ l = [] := by
  cases l with
  | nil => simp [lowest]
  | cons a as => simp only [lowest]; split <;> simp

theorem lowest_eq_some {l : List Nat} {v : Nat} : lowest l = some v ↔ v ∈ l ∧ ∀ x ∈ l, v ≤ x := by
  induction l generalizing v with
  | nil => simp [lowest]
  | cons a as ih =>
    rw [lowest]
    split
    next hnone =>
      rw [lowest_eq_none.mp hnone]
      constructor
      · rintro ⟨⟩
        simp
      · rintro ⟨hmem, -⟩
        rw [List.mem_singleton.mp hmem]
    next b hb =>
      obtain ⟨hmem, hleast⟩ := ih.mp hb
      rw [Option.some_inj]
      constructor
      · rintro rfl
        split
        · exact ⟨List.mem_cons_self, List.forall_mem_cons.mpr ⟨Nat.le_refl a, fun x hx => by have := hleast x hx; omega⟩⟩
        · exact ⟨List.mem_cons_of_mem a hmem, List.forall_mem_cons.mpr ⟨by omega, hleast⟩⟩
      · rintro ⟨hv, hle⟩
        obtain ⟨hva, hvas⟩ := List.forall_mem_cons.mp hle
        have hvb := hvas b hmem
        rcases List.mem_cons.mp hv with rfl | hv
        · exact if_pos hvb
        · have := hleast v hv
          split <;> omega

/-- The next value above the count, up to b, at which an entry is due. -/
def State.nextDue (s : State) (b : Nat) : Option Nat :=
  lowest ((s.hb.delays.map (·.value)).filter (fun v => s.hb.reel.toNat < v && v ≤ b))

theorem nextDue_eq_none {s : State} {b : Nat} : s.nextDue b = none ↔ QuietTo s b := by
  rw [State.nextDue, lowest_eq_none]
  simp [List.filter_eq_nil_iff, QuietTo]

/-- Which value comes next does not hang on how far the advance goes. -/
theorem nextDue_eq_some {s : State} {b v : Nat} : s.nextDue b = some v ↔
    v ≤ b ∧ s.hb.reel.toNat < v ∧ (∃ d ∈ s.hb.delays, d.value = v) ∧
      ∀ d ∈ s.hb.delays, s.hb.reel.toNat < d.value → v ≤ d.value := by
  rw [State.nextDue, lowest_eq_some]
  simp only [List.mem_filter, List.mem_map, Bool.and_eq_true, decide_eq_true_eq, and_imp, forall_exists_index,
    forall_apply_eq_imp_iff₂]
  constructor
  · rintro ⟨⟨hd, hlt, hle⟩, hleast⟩
    exact ⟨hle, hlt, hd, fun d hd hlt => by by_cases h : d.value ≤ b; exacts [hleast d hd hlt h, by omega]⟩
  · rintro ⟨hle, hlt, hd, hleast⟩
    exact ⟨⟨hd, hlt, hle⟩, fun d hd hlt _ => hleast d hd hlt⟩

theorem reelFrom_of_next {s : State} {b v : Nat} (h : s.nextDue b = some v) (fuel : Nat) :
    s.reelFrom b (fuel + 1) = ((s.fireAt v).setReel v).reelFrom b fuel := by
  rw [State.reelFrom, show lowest _ = some v from h]

/-- The fuel is enough as soon as it covers the distance. -/
theorem reelFrom_fuel {b : Nat} (hb : b < 2 ^ 48) {n m : Nat} {s : State} (hn : b - s.hb.reel.toNat ≤ n)
    (hm : b - s.hb.reel.toNat ≤ m) : s.reelFrom b n = s.reelFrom b m := by
  induction n generalizing m s with
  | zero =>
    have hq : QuietTo s b := fun d _ => by omega
    rw [reelFrom_of_quiet hq, reelFrom_of_quiet hq]
  | succ n ih =>
    cases hv : s.nextDue b with
    | none => rw [reelFrom_of_quiet (nextDue_eq_none.mp hv), reelFrom_of_quiet (nextDue_eq_none.mp hv)]
    | some v =>
      obtain ⟨hle, hlt, -, -⟩ := nextDue_eq_some.mp hv
      have hreel : ((s.fireAt v).setReel v).hb.reel.toNat = v := setReel_reel (Nat.lt_of_le_of_lt hle hb) _
      cases m with
      | zero => omega
      | succ m =>
        rw [reelFrom_of_next hv, reelFrom_of_next hv]
        exact ih (by omega) (by omega)

theorem reelTo_of_quiet {s : State} {b : Nat} (h : QuietTo s b) : s.reelTo b = s.setReel b := reelFrom_of_quiet h _

theorem reelTo_of_next {s : State} {b v : Nat} (hb : b < 2 ^ 48) (h : s.nextDue b = some v) :
    s.reelTo b = ((s.fireAt v).setReel v).reelTo b := by
  obtain ⟨hle, hlt, -, -⟩ := nextDue_eq_some.mp h
  have hreel : ((s.fireAt v).setReel v).hb.reel.toNat = v := setReel_reel (Nat.lt_of_le_of_lt hle hb) _
  obtain ⟨n, hn⟩ : ∃ n, b - s.hb.reel.toNat = n + 1 := ⟨b - s.hb.reel.toNat - 1, by omega⟩
  rw [State.reelTo, hn, reelFrom_of_next h]
  exact reelFrom_fuel hb (by omega) (Nat.le_refl _)

/-- An advance with nothing due on its way leaves the farther one what it was. -/
theorem setReel_reelTo {s : State} {m b : Nat} (hb : b < 2 ^ 48) (hmb : m ≤ b) (hm : s.hb.reel.toNat ≤ m) (hq : QuietTo s m) :
    (s.setReel m).reelTo b = s.reelTo b := by
  have hreel : (s.setReel m).hb.reel.toNat = m := setReel_reel (Nat.lt_of_le_of_lt hmb hb) s
  cases hv : s.nextDue b with
  | none =>
    have hqb := nextDue_eq_none.mp hv
    have hqm : QuietTo (s.setReel m) b := fun d hd hdue => hqb d hd ⟨by omega, hdue.2⟩
    rw [reelTo_of_quiet hqb, reelTo_of_quiet hqm]
    rfl
  | some v =>
    obtain ⟨hle, hlt, ⟨d, hd, rfl⟩, hleast⟩ := nextDue_eq_some.mp hv
    have hmv : m < d.value := Nat.lt_of_not_le fun h => hq d hd ⟨hlt, h⟩
    have hvm : (s.setReel m).nextDue b = some d.value :=
      nextDue_eq_some.mpr ⟨hle, hreel.symm ▸ hmv, ⟨d, hd, rfl⟩, fun e he hlt' => hleast e he (by omega)⟩
    rw [reelTo_of_next hb hv, reelTo_of_next hb hvm]
    rfl

theorem reelFrom_reelTo {m b : Nat} (hb : b < 2 ^ 48) (hmb : m ≤ b) {n : Nat} {s : State} (hm : s.hb.reel.toNat ≤ m)
    (hn : m - s.hb.reel.toNat ≤ n) : (s.reelFrom m n).reelTo b = s.reelTo b := by
  have hm48 := Nat.lt_of_le_of_lt hmb hb
  induction n generalizing s with
  | zero =>
    have hreel : m = s.hb.reel.toNat := by omega
    rw [hreel, State.reelFrom.eq_def, setReel_self]
  | succ n ih =>
    cases hv : s.nextDue m with
    | none => rw [reelFrom_of_quiet (nextDue_eq_none.mp hv), setReel_reelTo hb hmb hm (nextDue_eq_none.mp hv)]
    | some v =>
      obtain ⟨hle, hlt, hd, hleast⟩ := nextDue_eq_some.mp hv
      have hreel : ((s.fireAt v).setReel v).hb.reel.toNat = v := setReel_reel (Nat.lt_of_le_of_lt hle hm48) _
      have hvb : s.nextDue b = some v := nextDue_eq_some.mpr ⟨Nat.le_trans hle hmb, hlt, hd, hleast⟩
      rw [reelFrom_of_next hv, reelTo_of_next hb hvb]
      exact ih (by omega) (by omega)

/-- However many advances it is made of (R292): a farther one does what a nearer one and then it do. -/
theorem reelTo_reelTo {m b : Nat} (hb : b < 2 ^ 48) (hmb : m ≤ b) {s : State} (hm : s.hb.reel.toNat ≤ m) :
    (s.reelTo m).reelTo b = s.reelTo b := reelFrom_reelTo hb hmb hm (Nat.le_refl _)

/-! #### The commands that advance the count -/

/-- Whatever brings the advance, the count moves as `reelTo` says. -/
theorem exec_of_movesReel {s u : State} {i : Instr} {b : Nat} (h : MovesReel s i b u) :
    exec i s = .next (u.reelTo b) ∧ u.hb.reel = s.hb.reel ∧ b < 2 ^ 48 := by
  obtain ⟨hboot, hlast, hlt, ⟨v, rfl, hreset, hs, rfl, rfl⟩ | ⟨m, rfl, ha, hs, h0, hq, rfl, rfl⟩ |
    ⟨high, gap, rfl, hh, hg, hs, rfl, rfl⟩⟩ := h
  · refine ⟨?_, rfl, Nat.mod_lt _ (by decide)⟩
    rw [exec_doorbell_selected hboot hreset hs, reelSet_of_lt_last hlast, if_pos hlt]
  · refine ⟨?_, rfl, rsv_lt_of_accepts ha⟩
    rw [exec_message ha, reelMessage_selected hs h0 hq, reelSet_of_lt_last hlast, if_pos hlt]
  · refine ⟨?_, rfl, by omega⟩
    rw [exec_pulse_selected hboot hh hg hs, reelSet_of_lt_last (s := s.edgeSeen) hlast]
    exact congrArg Host.Outcome.next (if_pos hlt)

/-- With no value due before the last one, the entries due there fire. -/
theorem reelTo_of_only {u : State} {b : Nat} (hb : b < 2 ^ 48) (hlt : u.hb.reel.toNat < b)
    (h : ∀ d ∈ u.hb.delays, u.hb.reel.toNat < d.value → b ≤ d.value) : u.reelTo b = (u.fireAt b).setReel b := by
  have hreel : ((u.fireAt b).setReel b).hb.reel.toNat = b := setReel_reel hb _
  by_cases hd : ∃ d ∈ u.hb.delays, d.value = b
  · have hq : QuietTo ((u.fireAt b).setReel b) b := fun d _ => by omega
    rw [reelTo_of_next hb (nextDue_eq_some.mpr ⟨Nat.le_refl b, hlt, hd, h⟩), reelTo_of_quiet hq]
    rfl
  · have hnone : u.hb.delays.filter (fun d => d.value = b) = [] := by
      simpa [List.filter_eq_nil_iff] using hd
    have hq : QuietTo u b := fun d hd' hdue => hd ⟨d, hd', Nat.le_antisymm hdue.2 (h d hd' hdue.1)⟩
    rw [reelTo_of_quiet hq, State.fireAt, hnone]
    rfl

theorem exec_of_only {s u : State} {i : Instr} {b : Nat} (h : MovesReel s i b u)
    (honly : ∀ d ∈ u.hb.delays, s.hb.reel.toNat < d.value → b ≤ d.value) : exec i s =
      .next (reelAt ((sortDelays (u.hb.delays.filter (fun d => d.value = b))).foldl State.fire (reelAt u b)) b) := by
  obtain ⟨hexec, hreel, hb⟩ := exec_of_movesReel h
  obtain ⟨-, -, hlt, -⟩ := h
  rw [← hreel] at honly hlt
  rw [hexec, reelTo_of_only hb hlt honly]
  rfl

theorem exec_of_single {s u : State} {i : Instr} {b : Nat} {d : DelayEntry} (h : MovesReel s i b u)
    (honly : ∀ d ∈ u.hb.delays, s.hb.reel.toNat < d.value → b ≤ d.value)
    (hd : u.hb.delays.filter (fun d => d.value = b) = [d]) : exec i s = .next (reelAt ((reelAt u b).fire d) b) := by
  rw [exec_of_only h honly, hd]
  rfl

/-! #### Each kind of entry (Table 11.12) -/

/-- The state without an entry that has fired. -/
def State.without (s : State) (d : DelayEntry) : State := { s with hb := { s.hb with delays := s.hb.delays.erase d } }

theorem fire_switch {s : State} {d : DelayEntry} (h : d.kind = 0) : s.fire d = (s.without d).fireSwitch d := if_pos h

theorem fire_lease {s : State} {d : DelayEntry} {l : Lease} (h : d.kind = 1)
    (hl : s.twin.leases.find? (fun l => !l.mine && l.number.toNat = d.object) = some l) :
    s.fire d = (s.without d).endLease l := by
  simp [State.fire, h, hl, State.without]

theorem fire_prefetch {s : State} {d : DelayEntry} (h : d.kind = 2) : s.fire d = s.without d := by
  simp [State.fire, h, State.without]

theorem fire_release {s : State} {d : DelayEntry} {flow : BitVec 20} (h : d.kind = 3) (ho : d.object = flow.toNat) :
    s.fire d = s.egressAll flow (s.hb.items.length + 1) := by
  simp [State.fire, h, ho]

theorem fireSwitch_of_find {s : State} {d : DelayEntry} {x : BitVec 48 × BitVec 3}
    (h : s.dict.schedule.find? (fun y => y.1.toNat = d.value) = some x) : s.fireSwitch d =
      { s with dict := { s.dict with
          active := x.2, past := s.dict.past ++ [x], schedule := s.dict.schedule.filter (fun y => y.1 ≠ x.1) } } := by
  rw [State.fireSwitch, h]

theorem egressAll_of_none {s : State} {flow : BitVec 20} (h : s.egressReady flow = none) (fuel : Nat) :
    s.egressAll flow fuel = s := by
  cases fuel with
  | zero => rfl
  | succ fuel => rw [State.egressAll, h]

/-- A flow that has no second batch ready lets its head batch go as BATCH_EGRESS does. -/
theorem egressAll_of_one {s : State} {flow : BitVec 20} {x : Job × FlowRun × Ring × Item} (h : s.egressReady flow = some x)
    (hnext : (s.egressNext flow).egressReady flow = none) (fuel : Nat) : s.egressAll flow (fuel + 1) = s.egressNext flow := by
  obtain ⟨j, f, r, it⟩ := x
  simp only [State.egressNext, h] at hnext ⊢
  rw [State.egressAll, h]
  exact egressAll_of_none hnext fuel

theorem exec_leaseExpiry_due {s : State} {kind : BitVec 8} {object : BitVec 32} {l : Lease}
    (h : s.lease? false kind object = some l) (hdue : l.expiry.toNat ≤ s.hb.reel.toNat) :
    exec (.leaseExpiry kind object) s = .next (s.endLease l) := by
  change execLeaseExpiry kind object s = _
  rw [execLeaseExpiry, h]
  exact if_pos hdue

/-- Settles O34: the fuel of `reelFrom` never runs out, so that an advance composes; at one value the single entry fires. -/
theorem delayOrder : Obligations.DelayOrder := by
  refine ⟨fun ds => ⟨sortDelays_perm ds, (sortDelays_pairwise ds).imp DelayEntry.before_iff.mp⟩,
    fun s i k m b hk hmb hi => ?_, fun s u i b h honly => ?_, fun s path v hp hm hboot hreset hs hlt => ?_⟩
  · obtain ⟨hexecK, -, hm⟩ := exec_of_movesReel hk
    obtain ⟨hexecI, -, hb⟩ := exec_of_movesReel hi
    obtain ⟨-, -, hlt, -⟩ := hk
    refine ⟨_, _, hexecK, hexecI, reelFrom_reel hm _ s, reelFrom_reel hb _ s, fun ht => ?_⟩
    rw [(exec_of_movesReel ht).1, reelTo_reelTo hb (Nat.le_of_lt hmb) (Nat.le_of_lt hlt)]
  · intro due
    refine ⟨exec_of_only h honly, fun d hd => ?_⟩
    intro gone
    have hfire := exec_of_single h honly hd
    obtain ⟨-, hreel, hb⟩ := exec_of_movesReel h
    have hvalue : d.value = b := by
      have := List.mem_filter.mp (hd ▸ List.mem_singleton_self d : d ∈ due)
      simpa using this.2
    refine ⟨fun hkind x hx => ?_, fun hkind l hl hlease hexp => ?_, fun hkind => ?_, fun hkind flow ho => ⟨fun hnone => ?_,
      fun x hx => ⟨_, rfl, fun hnext => ?_⟩⟩⟩
    · rw [hfire, fire_switch hkind, fireSwitch_of_find (hvalue ▸ hx)]
      rfl
    · have hgone : gone.hb.reel.toNat = b := setReel_reel hb u
      refine ⟨_, exec_leaseExpiry_due hlease (hgone.symm ▸ hexp), ?_⟩
      rw [hfire, fire_lease (s := reelAt u b) hkind hl]
      rfl
    · rw [hfire, fire_prefetch hkind]
      rfl
    · rw [hfire, fire_release hkind ho, egressAll_of_none hnone]
      rfl
    · rw [hfire, fire_release hkind ho, egressAll_of_one hx hnext]
  · refine ⟨_, exec_doorbell_selected hboot hreset hs v, ?_⟩
    rw [exec_dictionary_selected hboot hs hp hm, reelSet_of_lt_last hlt]

end Sys2Proof.Machine

/-! ### O31: a class A request that is held back stays in the ring (R289, R326) -/

namespace Sys2Proof.Machine

open Sys2Proof

theorem takeCmd_of_ready {s : State} (hr : s.rst.hostReset = false) (hb : s.rst.boot = .ready) (hw : s.host.waiting = [])
    (c : Instr) (tag : BitVec 32) (f : State → State) : s.takeCmd c tag f = f s.cmdTaken := by
  simp [State.takeCmd, hr, hb, hw]

theorem classAFlow_of_flow {s : State} {flow : BitVec 32} {j : Job} {f : FlowRun} (hlt : flow.toNat < 2 ^ 20)
    (hf : s.flow? (flow.setWidth 20) = some (j, f)) (hcls : f.decl.cls = 0) (hstop : j.stopped = none)
    (hfinal : j.finalSent = false) : s.classAFlow flow = some (j, f) := by
  have hid : ¬ 2 ^ 20 ≤ flow.toNat := Nat.not_le.mpr hlt
  rw [State.classAFlow, if_neg hid]
  simp [hf, FlowRec.isA, hcls, hstop, hfinal]

/-- Without a free item of its flow's window, or in a detach, a request makes no item. -/
theorem classAItem_held {s : State} {f : FlowRun} (h : s.classAFull f = true ∨ s.twin.state = .detaching) (j : Job)
    (payload : Bytes) (reply : Reply) (r : Option HeldReq) : s.classAItem j f payload reply r = none := by
  rw [State.classAItem, if_pos]
  rcases h with h | h <;> simp [h, State.working]

/-- A request that is held back waits in the ring, whose tail the host has moved past it. -/
theorem exec_classa_held {s : State} {tag flow : BitVec 32} {payload : Bytes} {room : BitVec 64} {j : Job} {f : FlowRun}
    (hr : s.rst.hostReset = false) (hb : s.rst.boot = .ready) (hw : s.host.waiting = [])
    (hflow : s.classAFlow flow = some (j, f)) (hheld : s.classAFull f = true ∨ s.twin.state = .detaching) :
    exec (.classa tag flow payload room) s = .next (s.ringWait (.classa tag flow payload room)) := by
  have hrequest : s.cmdTaken.classARequest flow payload (.host tag room.toNat) none = none := by
    rw [State.classARequest, show s.cmdTaken.classAFlow flow = some (j, f) from hflow]
    exact classAItem_held (s := s.cmdTaken) hheld j _ _ _
  change execClassa tag flow payload room s = _
  rw [execClassa, takeCmd_of_ready hr hb hw, hrequest]
  rfl

/-- A flow of class A with room for one item, and its job. -/
def classAFlowRun : FlowRun :=
  { decl := { flow := 3, cls := 0, stage := 0, trigger := 1, batch := false, items := 4, entry := 0, arg := 0, producer := 0,
              span := 2, outMax := 0, window := 1, dueBase := 1, dueStep := 1, lead := 0, stampDiv := 1, stampNum := 1,
              stampDen := 1 }
    bpo := 0, stageMax := 0, next := 0, ahead := [], staged := [], released := 0, egressed := 0, ring := none,
    lastCore := none, arrivals := 0, rewrite := 0, stopped := false, shard := none }

def classAJob : Job :=
  { job := 7, tag := 9, seed := 0, unordered := true, test := false, flows := [classAFlowRun], allocs := [], codeBase := 0,
    argsBase := 0, argsBytes := 0, descs := [], descsBase := 0, hashes := [], filters := [], joins := [], exchanges := [],
    inputs := [], layouts := 0, tables := [], shares := [], modules := [0], stopped := none, finalSent := false }

/-- A module in service that goes idle in a detach, with that job loaded. -/
def stateInDetach : State :=
  { State.reset with
    rst := { Reset.reset with boot := .ready }
    hb := { Headbox.reset with jobs := [classAJob] }
    twin := { Twin.reset with state := .detaching } }

theorem stateInDetach_flow : stateInDetach.flow? ((3 : BitVec 32).setWidth 20) = some (classAJob, classAFlowRun) := by
  decide

/-- Refutes O31: a class A request that is held back waits in the ring, and CMD_TAIL has moved past it (R289), where the
statement has nothing of the ring change but the list of what waits. The module is in service with a class A flow loaded,
and holds the request back in a detach. -/
theorem not_hostCommands : ¬ Obligations.HostCommands := by
  intro h
  obtain ⟨-, -, -, -, hclassa, -⟩ := h stateInDetach 1 rfl rfl rfl
  obtain ⟨hheld, -⟩ := (hclassa 3 [] 64).2 classAJob classAFlowRun (by decide) stateInDetach_flow rfl rfl rfl
  have hring := exec_classa_held (s := stateInDetach) (tag := 1) (payload := []) (room := 64) rfl rfl rfl
    (classAFlow_of_flow (by decide) stateInDetach_flow rfl rfl rfl) (.inr rfl)
  have heq := Host.Outcome.next.inj (hring.symm.trans (hheld (.inr rfl)))
  have htail : (0 : BitVec 32) + 1 = 0 := congrArg (fun t : State => t.host.cmdTail) heq
  exact absurd htail (by decide)

end Sys2Proof.Machine

/-! ### Records and bytes that an item is made of (R116, R273, R278) -/

namespace Sys2Proof.Machine

open Sys2Proof

/-! #### What only reserves memory and writes it -/

/-- Only bytes at the memory side and allocation records have changed. -/
def AllocOnly (s t : State) : Prop :=
  t = { s with
    mem := { s.mem with bytes := t.mem.bytes, ecc := t.mem.ecc }
    hb := { s.hb with allocs := t.hb.allocs } }

theorem AllocOnly.refl (s : State) : AllocOnly s s := rfl

theorem AllocOnly.trans {s t u : State} (h : AllocOnly s t) (g : AllocOnly t u) : AllocOnly s u := by
  unfold AllocOnly at *
  rw [g, h]

theorem memWrite_allocOnly (s : State) (a : Nat) (b : Bytes) : AllocOnly s (s.memWrite a b) := by
  unfold AllocOnly State.memWrite Memory.renew
  rw [Memory.write_l2]

section
variable {s t : State} (h : AllocOnly s t)
include h

theorem AllocOnly.flow? (id : BitVec 20) : t.flow? id = s.flow? id := by rw [h]; rfl

theorem AllocOnly.items : t.hb.items = s.hb.items := by rw [h]

theorem AllocOnly.dict : t.dict = s.dict := by rw [h]

theorem AllocOnly.shardRuns : t.hb.shardRuns = s.hb.shardRuns := by rw [h]

theorem AllocOnly.stampHorizon : t.hb.stampHorizon = s.hb.stampHorizon := by rw [h]

/-- What tier C holds has not changed either. -/
theorem AllocOnly.chunkBytes (c : Chunk) : t.chunkBytes c = s.chunkBytes c := by
  have read : ∀ n lba, t.tierCRead c.nsid lba n = s.tierCRead c.nsid lba n := by
    intro n
    induction n with
    | zero => exact fun _ => rfl
    | succ n ih =>
      intro lba
      rw [State.tierCRead, State.tierCRead, ih, show t.tierCBlock c.nsid lba = s.tierCBlock c.nsid lba by rw [h]; rfl]
  exact congrArg (Option.map _) (read _ _)

end

/-! #### A new record -/

/-- A record created where none was live: live for its job, apart from every live record of its tier; those and every byte outside
it are as before. -/
structure NewRecord (s t : State) (job : BitVec 64) (num : BitVec 16) (base extent : Nat) : Prop where
  only   : AllocOnly s t
  record : (t.alloc num).live = true ∧ (t.alloc num).job = job ∧ (t.alloc num).tierB = false ∧ (t.alloc num).base = base ∧
    (t.alloc num).extent = extent
  others : ∀ m, (s.alloc m).live = true → t.alloc m = s.alloc m
  apart  : ∀ m, (s.alloc m).live = true → (s.alloc m).tierB = false →
    overlaps base extent (s.alloc m).base (s.alloc m).extent = false
  bytes  : ∀ q, ¬ (base ≤ q ∧ q < base + extent) → t.mem.byte q = s.mem.byte q

theorem Assoc.get_filter {α : Type} (d : α) (m : Assoc α) (p : Nat → Bool) {a : Nat} (h : p a = true) :
    Assoc.get d (m.filter (fun e => p e.1)) a = Assoc.get d m a := by
  induction m with
  | nil => rfl
  | cons e m ih =>
    obtain ⟨k, v⟩ := e
    by_cases hk : p k = true
    · rw [List.filter_cons_of_pos (by exact hk), Assoc.get, Assoc.get, ih]
    · have hka : k ≠ a := fun heq => hk (heq ▸ h)
      rw [List.filter_cons_of_neg (by exact hk), Assoc.get, if_neg hka, ih]

theorem Assoc.mem_of_get_ne {α : Type} {d : α} {m : Assoc α} {a : Nat} (h : Assoc.get d m a ≠ d) :
    (a, Assoc.get d m a) ∈ m := by
  induction m with
  | nil => exact absurd rfl h
  | cons e m ih =>
    obtain ⟨k, v⟩ := e
    rw [Assoc.get] at h ⊢
    split at h
    next hk =>
      rw [if_pos hk, hk]
      exact List.mem_cons_self
    next hk =>
      rw [if_neg hk]
      exact List.mem_cons_of_mem _ (ih h)

theorem allocPlace_apart {s : State} {tierB : Bool} {extent base : Nat} (h : s.allocPlace tierB extent = some base)
    {m : BitVec 16} (hlive : (s.alloc m).live = true) (htier : (s.alloc m).tierB = tierB) :
    overlaps base extent (s.alloc m).base (s.alloc m).extent = false := by
  have hmem : (m.toNat, s.alloc m) ∈ s.hb.allocs := Assoc.mem_of_get_ne (fun hnone => by
    rw [State.alloc, hnone] at hlive
    cases hlive)
  obtain ⟨hcand, -⟩ := lowest_eq_some.mp h
  have hfits := (List.mem_filter.mp hcand).2
  simp only [Bool.and_eq_true, List.all_eq_true, List.mem_filter, and_imp, decide_eq_true_eq, Bool.not_eq_true'] at hfits
  exact hfits.2 _ hmem hlive htier

theorem alloc_setAlloc (s : State) (n m : BitVec 16) (a : Alloc) :
    (s.setAlloc n a).alloc m = if m.toNat = n.toNat then a else s.alloc m := Assoc.get_set ..

theorem newAlloc_newRecord {s t : State} {job : BitVec 64} {rw' : Bool} {extent base : Nat} {num : BitVec 16}
    (h : s.newAlloc job false rw' extent = some (num, base, t)) : NewRecord s t job num base extent := by
  unfold State.newAlloc at h
  split at h
  next n b hn hb =>
    cases h
    obtain ⟨-, hlt, hfree, -⟩ := allocNumber_eq_some.mp hn
    have hnum : (BitVec.ofNat 16 n).toNat = n := (BitVec.toNat_ofNat n 16).trans (Nat.mod_eq_of_lt hlt)
    refine ⟨rfl, ?_, fun m hm => ?_, fun m hm htier => allocPlace_apart hb hm htier, fun q hq => ?_⟩
    · rw [alloc_setAlloc, if_pos rfl]
      exact ⟨rfl, rfl, rfl, rfl, rfl⟩
    · rw [alloc_setAlloc, if_neg]
      · rfl
      intro heq
      rw [State.alloc, heq, hnum, hfree] at hm
      cases hm
    · have hout : q < base ∨ base + extent ≤ q := by omega
      exact Assoc.get_filter 0 s.mem.bytes (fun a => !(decide (base ≤ a) && decide (a < base + extent))) (by simpa using hout)
  · cases h

/-- A record of the job in tier A holds the bytes of an input. -/
structure HoldsInput (s : State) (job : BitVec 64) (i : Input) (b : Bytes) : Prop where
  record : (s.alloc i.alloc).live = true ∧ (s.alloc i.alloc).job = job ∧ (s.alloc i.alloc).tierB = false ∧
    (s.alloc i.alloc).base = i.addr ∧ b.length < (s.alloc i.alloc).extent
  length : i.bytes = b.length
  bytes  : ∀ k, k < b.length → b[k]? = some (s.mem.byte (i.addr + k))

theorem HoldsInput.memRead {s : State} {job : BitVec 64} {i : Input} {b : Bytes} (h : HoldsInput s job i b) :
    s.memRead i.addr b.length = b := read_of_bytes h.bytes

theorem byte_memWrite_outside {s : State} {a : Nat} {b : Bytes} {q : Nat} (h : ¬ (a ≤ q ∧ q < a + b.length)) :
    (s.memWrite a b).mem.byte q = s.mem.byte q := by
  rw [byte_memWrite]
  split
  next hq => rw [List.getElem?_eq_none (by omega), Option.getD_none]
  · rfl

theorem byte_memWrite_inside {s : State} {a : Nat} {b : Bytes} {k : Nat} (h : k < b.length) :
    b[k]? = some ((s.memWrite a b).mem.byte (a + k)) := by
  rw [byte_memWrite, if_pos (Nat.le_add_right a k), Nat.add_sub_cancel_left, List.getElem?_eq_getElem h, Option.getD_some]

/-- A record that is created and filled leaves what other records hold alone. -/
theorem HoldsInput.filled {s u : State} {job job' : BitVec 64} {i : Input} {b b' : Bytes} {num : BitVec 16} {base extent : Nat}
    (h : HoldsInput s job i b) (hn : NewRecord s u job' num base extent) (hb' : b'.length < extent) :
    HoldsInput (u.memWrite base b') job i b := by
  obtain ⟨⟨hlive, hjob, htier, hbase, hextent⟩, hlength, hbytes⟩ := h
  have halloc : (u.memWrite base b').alloc i.alloc = s.alloc i.alloc := hn.others _ hlive
  refine ⟨halloc.symm ▸ ⟨hlive, hjob, htier, hbase, hextent⟩, hlength, fun k hk => ?_⟩
  have hapart := hn.apart _ hlive htier
  rw [hbase] at hapart
  simp only [overlaps, Bool.and_eq_false_iff, decide_eq_false_iff_not] at hapart
  rw [byte_memWrite_outside (by omega), hn.bytes _ (by omega)]
  exact hbytes k hk

theorem NewRecord.holds {s u : State} {job : BitVec 64} {num : BitVec 16} {base extent : Nat} {b : Bytes}
    (hn : NewRecord s u job num base extent) (hb : b.length < extent) :
    HoldsInput (u.memWrite base b) job { addr := base, bytes := b.length, alloc := num } b := by
  obtain ⟨hlive, hjob, htier, hbase, hextent⟩ := hn.record
  exact ⟨⟨hlive, hjob, htier, hbase, Nat.lt_of_lt_of_eq hb hextent.symm⟩, rfl, fun k hk => byte_memWrite_inside hk⟩

theorem lt_roundUpTo (n : Nat) : n < roundUpTo (n + 1) 64 := by
  unfold roundUpTo
  omega

/-! #### Chunks staged (R274, R287) -/

/-- Each chunk that can be read stands in a record of its own, and records that stood before hold what they held. -/
structure Staged (s t : State) (job : BitVec 64) (cs : List Chunk) (ins : List Input) : Prop where
  only   : AllocOnly s t
  chunks : List.Forall₂ (fun c i => ∀ b, s.chunkBytes c = some b → HoldsInput t job i b) cs ins
  kept   : ∀ i b, HoldsInput s job i b → HoldsInput t job i b

theorem stage_staged {s t : State} {job : BitVec 64} {cs : List Chunk} {acc ins : List Input}
    (h : s.stage job cs acc = some (some (t, ins))) : ∃ new, ins = acc ++ new ∧ Staged s t job cs new := by
  induction cs generalizing s acc with
  | nil =>
    cases h
    exact ⟨[], (List.append_nil _).symm, .refl _, .nil, fun _ _ hi => hi⟩
  | cons c cs ih =>
    rw [State.stage] at h
    split at h
    · cases h
    next b hb =>
    split at h
    · cases h
    next num base u hu =>
    have record := newAlloc_newRecord hu
    have fits := lt_roundUpTo b.length
    obtain ⟨new, hins, only, chunks, kept⟩ := ih h
    have filled := record.only.trans (memWrite_allocOnly u base b)
    refine ⟨_ :: new, by rw [hins, List.append_assoc]; rfl, filled.trans only, .cons (fun b' hb' => ?_) ?_,
      fun i b' hi => kept i b' (hi.filled record fits)⟩
    · cases hb.symm.trans hb'
      exact kept _ _ (record.holds fits)
    · simpa only [filled.chunkBytes] using chunks

end Sys2Proof.Machine

/-! ### Items made and staged (R274, R275, R278, R279, R287) -/

namespace Sys2Proof.Machine

open Sys2Proof

/-! #### INGRESS_READ -/

/-- What staging a SOURCE item's chunks comes to. -/
def State.ingressed (s : State) (j : Job) (f : FlowRun) (q : Nat) (cs : List Chunk) : State :=
  match s.stage j.job cs [] with
  | none => s.stopJob j.job 0x0905
  | some none => s
  | some (some (t, ins)) => t.setFlow { f with staged := f.staged ++ [(q, ins)] }

theorem exec_ingressRead {s : State} {flow : BitVec 20} {seq : BitVec 40} {j : Job} {f : FlowRun} {i : InputRec}
    (hflow : s.flow? flow = some (j, f)) (htrigger : f.decl.trigger = 1) (hmay : s.mayCreate j f seq.toNat = true)
    (hnew : ∀ x ∈ f.staged, x.1 ≠ seq.toNat) (hroom : f.staged.length < f.stageMax) (hi : j.input? f.decl.producer = some i)
    {cs : List Chunk} (hcs : i.chunksOf (seq.toNat * f.decl.span) (min ((seq.toNat + 1) * f.decl.span) i.rows) = cs) :
    exec (.ingressRead flow seq) s = .next (if f.stageFits cs then s.ingressed j f seq.toNat cs else s) := by
  have hready : (decide (f.decl.trigger = 1) && s.mayCreate j f seq.toNat && f.staged.all (fun x => x.1 ≠ seq.toNat) &&
      decide (f.staged.length < f.stageMax)) = true := by
    simpa [htrigger, hmay, hroom] using hnew
  have hhi : (if (seq.toNat + 1) * f.decl.span < i.rows then (seq.toNat + 1) * f.decl.span else i.rows) =
      min ((seq.toNat + 1) * f.decl.span) i.rows := by
    split <;> omega
  change execIngressRead flow seq s = _
  unfold execIngressRead State.ingressed
  simp only [hflow, hready, if_true, hi, hhi, hcs]
  cases hfits : f.stageFits cs with
  | false => simp
  | true =>
    cases hst : s.stage j.job cs [] with
    | none => simp
    | some o => cases o <;> simp

/-- The chunks of an item that have been staged: they are the flow's, and each that tier C holds is there for the job. -/
theorem ingressed_staged {s t : State} {j : Job} {f : FlowRun} {q : Nat} {cs : List Chunk} {ins : List Input}
    (hflow : s.flow? f.decl.flow = some (j, f)) (hst : s.stage j.job cs [] = some (some (t, ins))) :
    ∃ u, s.ingressed j f q cs = u ∧ u.hb.items = s.hb.items ∧
      (u.flow? f.decl.flow).map (·.2) = some { f with staged := f.staged ++ [(q, ins)] } ∧
      List.Forall₂ (fun c i => ∀ b, s.chunkBytes c = some b → HoldsInput u j.job i b) cs ins := by
  obtain ⟨new, hins, only, chunks, -⟩ := stage_staged hst
  rw [List.nil_append] at hins
  subst hins
  have hflow' : t.flow? ({ f with staged := f.staged ++ [(q, ins)] } : FlowRun).decl.flow = some (j, f) :=
    (only.flow? _).trans hflow
  refine ⟨_, rfl, ?_⟩
  rw [State.ingressed, hst]
  exact ⟨only.items, congrArg (Option.map Prod.snd) (flow?_setFlow hflow'), chunks.imp fun c i h b hb =>
    have ⟨record, length, bytes⟩ := h b hb
    ⟨record, length, bytes⟩⟩

/-! #### Numbers of created items (R281) -/

theorem mem_absorb {fuel n x : Nat} {a : List Nat} (h : x < n ∨ x ∈ a) :
    x < (absorb fuel n a).1 ∨ x ∈ (absorb fuel n a).2 := by
  induction fuel generalizing n a with
  | zero => exact h
  | succ fuel ih =>
    rw [absorb]
    split
    · refine ih ?_
      by_cases hx : x = n
      · exact .inl (by omega)
      · exact h.imp Nat.lt_succ_of_lt (List.mem_erase_of_ne hx).mpr
    · exact h

theorem noteCreated_created (f : FlowRun) (q : Nat) : (f.noteCreated q).created q = true := by
  unfold FlowRun.noteCreated
  split
  · assumption
  · simpa [FlowRun.created] using mem_absorb (fuel := f.ahead.length + 1) (n := f.next) (.inr (List.mem_cons_self (a := q)))

theorem noteCreated_decl (f : FlowRun) (q : Nat) : (f.noteCreated q).decl = f.decl := by
  unfold FlowRun.noteCreated
  split <;> rfl

/-! #### One item -/

theorem memRead_memWrite_part (s : State) (a : Nat) (pre b post : Bytes) :
    (s.memWrite a (pre ++ b ++ post)).memRead (a + pre.length) b.length = b := by
  refine read_of_bytes fun i hi => ?_
  rw [Nat.add_assoc, ← byte_memWrite_inside (by simp; omega), List.append_assoc, List.getElem?_append_right (by omega),
    Nat.add_sub_cancel_left, List.getElem?_append_left hi]

theorem Item.bytes_length (it : Item) : it.bytes.length = 64 := record_length (by simp)

theorem Item.argBytes_block (it : Item) (block : Nat) : ∃ rest, it.argBytes block = leBytes 8 block ++ rest := by
  unfold Item.argBytes
  rw [List.append_assoc, List.append_assoc]
  exact ⟨_, rfl⟩

/-- The item's bytes and its argument block's address as they are written. -/
theorem memRead_item (s : State) (it : Item) (block : Nat) :
    (s.memWrite it.ptr (it.bytes ++ it.argBytes block)).memRead it.ptr 64 = it.bytes ∧
    (s.memWrite it.ptr (it.bytes ++ it.argBytes block)).memRead (it.ptr + 64) 8 = leBytes 8 block := by
  obtain ⟨rest, hrest⟩ := it.argBytes_block block
  rw [hrest]
  constructor
  · have head := memRead_memWrite_part s it.ptr [] it.bytes (leBytes 8 block ++ rest)
    rwa [it.bytes_length, List.nil_append, List.length_nil, Nat.add_zero] at head
  · have arg := memRead_memWrite_part s it.ptr it.bytes (leBytes 8 block) rest
    rwa [it.bytes_length, leBytes_length, List.append_assoc] at arg

/-- The item that `createItem` makes, its output in a record with this number and base. -/
def State.newItem (s : State) (j : Job) (f : FlowRun) (q : Nat) (ins : List Input) (place : Option CoreId) (reply : Reply)
    (num : BitVec 16) (base : Nat) : Item :=
  let d := f.decl
  let g := if d.isA then s.dict.active else s.gradeAt (stampReel d q)
  let ptr := s.itemPlace (itemSlots ins.length)
  { key := keyOf d.flow q, job := j.job, cls := d.cls.setWidth 2, grade := g.setWidth 8, gradeRev := (s.dict.grades[g.toNat]).rev,
    entry := j.codeBase + d.entry, ptr := ptr, arg := ptr + 64, out := base, outBytes := d.outMax, outAlloc := num,
    affinity := place <|> f.shard.bind s.shardCore, stampReel := stampReel d q, attempt := 0, counted := 0,
    last := q + 1 = d.items, reproducible := !j.unordered && !s.breaksRepro (s.dict.grades[g.toNat]).entries,
    phase := .created, inputs := ins, core := none, avoidDie := none, avoidCore := none, avoidVat := none, reply := reply,
    degraded := false, coreFailed := false, descs := [] }

/-- The item is written to the item store and listed, and its flow has created it. -/
def State.addItem (s : State) (j : Job) (f : FlowRun) (q : Nat) (it : Item) : State :=
  let s := (s.memWrite it.ptr (it.bytes ++ it.argBytes (j.argsBase + f.decl.arg))).setFlow (f.noteCreated q)
  { s with hb := { s.hb with
      items := s.hb.items ++ [it]
      stampHorizon := if it.stampReel ≤ s.hb.stampHorizon then s.hb.stampHorizon else it.stampReel } }

/-- The record of an item's output, if it has one. -/
def State.outRecord (s : State) (j : Job) (f : FlowRun) : Option (BitVec 16 × Nat × State) :=
  if f.decl.outMax = 0 then some (0, 0, s) else s.newAlloc j.job false true f.decl.outMax

theorem createItem_eq {u v : State} {j : Job} {f : FlowRun} {num : BitVec 16} {base : Nat}
    (h : u.outRecord j f = some (num, base, v)) (q : Nat) (ins : List Input) (place : Option CoreId) (reply : Reply) :
    u.createItem j f q ins place reply = some (v.addItem j f q (v.newItem j f q ins place reply num base)) := by
  unfold State.outRecord at h
  unfold State.createItem
  dsimp only
  rw [h]
  cases place <;> rfl

theorem outRecord_some {u : State} {j : Job} {f : FlowRun} (h : OutRoom u j f) : ∃ num base v,
    u.outRecord j f = some (num, base, v) ∧ AllocOnly u v := by
  unfold State.outRecord
  by_cases h0 : f.decl.outMax = 0
  · exact ⟨0, 0, u, if_pos h0, .refl u⟩
  · obtain ⟨⟨num, base, v⟩, hv⟩ := Option.isSome_iff_exists.mp (h.resolve_left h0)
    exact ⟨num, base, v, (if_neg h0).trans hv, (newAlloc_newRecord hv).only⟩

theorem flow?_of_jobs {s t : State} (h : t.hb.jobs = s.hb.jobs) (id : BitVec 20) : t.flow? id = s.flow? id := by
  unfold State.flow?
  rw [h]

section
variable (s : State) (j : Job) (f : FlowRun) (q : Nat) (it : Item)

theorem addItem_items : (s.addItem j f q it).hb.items = s.hb.items ++ [it] := rfl

theorem addItem_jobs : (s.addItem j f q it).hb.jobs = (s.setFlow (f.noteCreated q)).hb.jobs := rfl

theorem addItem_mem : (s.addItem j f q it).mem =
    (s.memWrite it.ptr (it.bytes ++ it.argBytes (j.argsBase + f.decl.arg))).mem := rfl

theorem addItem_stampHorizon : (s.addItem j f q it).hb.stampHorizon = max s.hb.stampHorizon it.stampReel := by
  change (if it.stampReel ≤ s.hb.stampHorizon then s.hb.stampHorizon else it.stampReel) = _
  split <;> omega

theorem addItem_memRead : (s.addItem j f q it).memRead it.ptr 64 = it.bytes ∧
    (s.addItem j f q it).memRead (it.ptr + 64) 8 = leBytes 8 (j.argsBase + f.decl.arg) := by
  unfold State.memRead
  rw [addItem_mem]
  exact memRead_item s it _

end

theorem addItem_flow? {s : State} {f : FlowRun} {o : Job × FlowRun} (hflow : s.flow? f.decl.flow = some o) (j : Job) (q : Nat)
    (it : Item) : ((s.addItem j f q it).flow? f.decl.flow).map (·.2) = some (f.noteCreated q) := by
  have decl := noteCreated_decl f q
  have found := flow?_setFlow (s := s) (r := f.noteCreated q) (j := o.1) (f := o.2) (by rw [decl]; exact hflow)
  rw [decl] at found
  rw [flow?_of_jobs (addItem_jobs ..), found]
  rfl

section
variable (s : State) (j : Job) (f : FlowRun) (q : Nat) (ins : List Input) (place : Option CoreId) (reply : Reply) (num : BitVec 16)
  (base : Nat)

theorem newItem_grade : (s.newItem j f q ins place reply num base).grade =
    (if f.decl.cls = 0 then s.dict.active else s.gradeAt (stampReel f.decl q)).setWidth 8 := by
  unfold State.newItem
  simp [FlowRec.isA]

end

/-- With room for its output an item is made, whatever the flow's own count of created items (R275, R278, R279). -/
theorem createItem_made {s u : State} {j k : Job} {f : FlowRun} (hu : AllocOnly s u) (hflow : s.flow? f.decl.flow = some (k, f))
    (hroom : OutRoom u j f) (n q : Nat) (ins : List Input) (place : Option CoreId) (reply : Reply) :
    ∃ t it, u.createItem j { f with next := n } q ins place reply = some t ∧
      Made s t j f q ins (place <|> f.shard.bind s.shardCore) it := by
  obtain ⟨num, base, v, hv, only⟩ := outRecord_some (f := { f with next := n }) hroom
  have all := hu.trans only
  have cores : v.shardCore = s.shardCore := by
    unfold State.shardCore
    rw [all.shardRuns]
  have grade : ∀ reel, v.gradeAt reel = s.gradeAt reel := fun reel => by
    unfold State.gradeAt
    rw [all.dict]
  generalize hit : v.newItem j { f with next := n } q ins place reply num base = it
  have made := createItem_eq hv q ins place reply
  rw [hit] at made
  refine ⟨_, it, made, ?_, ?_, ?_, ?_, ?_, ?_, ?_⟩
  · rw [addItem_items, all.items]
  · rw [← hit]
    exact ⟨rfl, rfl, rfl, rfl⟩
  · rw [← cores, ← hit]
    exact ⟨rfl, rfl, rfl⟩
  · rw [← hit]
    exact ⟨rfl, rfl, rfl⟩
  · refine ⟨?_, ?_, ?_⟩
    · rw [← hit]
      rfl
    · rw [← hit, newItem_grade, grade, all.dict]
      rfl
    · rw [addItem_stampHorizon, all.stampHorizon]
  · have arg : it.arg = it.ptr + 64 := by
      rw [← hit]
      rfl
    rw [arg]
    exact ⟨rfl, addItem_memRead ..⟩
  · exact ⟨_, addItem_flow? (f := { f with next := n }) ((all.flow? _).trans hflow) j q it, noteCreated_created _ q⟩

end Sys2Proof.Machine

/-! ### What an item is made from (R275, Table 11.6) -/

namespace Sys2Proof.Machine

open Sys2Proof

/-- In a job of this module alone every item but a ROUND item is this module's to run. -/
theorem assigned_alone {s : State} {j : Job} {f : FlowRec} (ht : f.trigger ≠ 3) (hm : j.modules = [s.straps.modid]) (q : Nat) :
    s.assigned j f q s.self = true := by
  rw [State.assigned, if_neg ht, if_pos (show j.modules = [s.self] from hm)]
  exact decide_eq_true rfl

theorem skipOthers_alone {s : State} {j : Job} {f : FlowRun} (ht : f.decl.trigger ≠ 3) (hm : j.modules = [s.straps.modid]) (q : Nat) :
    s.skipOthers j f q = q := by
  rw [State.skipOthers, skipFrom]
  simp [assigned_alone ht hm]

theorem flow?_found {s : State} {id : BitVec 20} {j : Job} {f : FlowRun} (h : s.flow? id = some (j, f)) :
    f.decl.flow = id ∧ j ∈ s.hb.jobs ∧ j.flows.find? (fun r => r.decl.flow = id) = some f := by
  obtain ⟨k, hk, hf⟩ := List.exists_of_findSome?_eq_some h
  obtain ⟨r, hr, heq⟩ := Option.map_eq_some_iff.mp hf
  cases heq
  exact ⟨by simpa using List.find?_some hr, hk, hr⟩

theorem live_of_mayCreate {s : State} {j : Job} {f : FlowRun} {q : Nat} (h : s.mayCreate j f q = true) : j.stopped = none := by
  simp only [State.mayCreate, Job.live, Bool.and_eq_true] at h
  simpa using h.1.1.1.1.1.1.1.1

/-! #### The outputs of producer items -/

section
variable {s : State} {jid : BitVec 64} {flow : BitVec 20} {here : Nat → Bool} {ks : List Nat} (hhere : ∀ k ∈ ks, here k = true)
include hhere

/-- One producer item that is missing or not accepted is enough to wait for. -/
theorem outputsOf_waits (h : ∃ k ∈ ks, (s.item? (keyOf flow k)).all (fun it => !it.phase.done) = true) :
    s.outputsOf jid flow here ks = none := by
  induction ks with
  | nil =>
    obtain ⟨k, hk, -⟩ := h
    cases hk
  | cons k ks ih =>
    obtain ⟨hk, hks⟩ := List.forall_mem_cons.mp hhere
    rw [State.outputsOf, if_pos hk]
    cases hi : s.item? (keyOf flow k) with
    | none => rfl
    | some it =>
      cases hd : it.phase.done with
      | false => simp [hd]
      | true =>
        have rest : ∃ k ∈ ks, (s.item? (keyOf flow k)).all (fun it => !it.phase.done) = true := by
          simpa [hi, hd] using h
        simp [hd, ih hks rest]

theorem outputsOf_accepted {its : List Item} (h : ks.map (fun k => s.item? (keyOf flow k)) = its.map some)
    (hd : ∀ it ∈ its, it.phase.done = true) : s.outputsOf jid flow here ks =
      some (s, its.map (fun it => { addr := it.out, bytes := it.outBytes, alloc := it.outAlloc })) := by
  induction ks generalizing its with
  | nil =>
    rw [List.map_nil, eq_comm, List.map_eq_nil_iff] at h
    rw [h]
    rfl
  | cons k ks ih =>
    cases its with
    | nil => cases h
    | cons it its =>
      obtain ⟨hk, hks⟩ := List.forall_mem_cons.mp hhere
      obtain ⟨hit, hits⟩ := List.forall_mem_cons.mp hd
      obtain ⟨hi, hrest⟩ := List.cons.inj h
      rw [State.outputsOf, if_pos hk, show s.item? (keyOf flow k) = some it from hi]
      simp [hit, ih hks hrest hits]

end

/-! #### Table 11.6 -/

section
variable {s : State} {j : Job} {f : FlowRun} {q : Nat}

theorem trigger_source {ins : List Input} (ht : f.decl.trigger = 1) (hs : f.staged.find? (fun x => x.1 = q) = some (q, ins)) :
    s.trigger j f q = some (s, ins, none) := by
  simp [State.trigger, ht, hs]

theorem roundFull_of_other (ht : f.decl.trigger ≠ 3) : s.roundFull j f.decl q = false := by
  unfold State.roundFull
  split
  · rw [decide_eq_false ht, Bool.false_and]
  · rfl

section
variable {p : FlowRun} (ht : f.decl.trigger = 2 ∨ f.decl.trigger = 4) (hp : j.flow? f.decl.producer = some p)
  (hmine : ∀ k ∈ j.producerItems f.decl q, s.assigned j p.decl k s.straps.modid = true)
include ht hp

theorem trigger_consumer : s.trigger j f q = (s.outputsOf j.job p.decl.flow (fun k => s.assigned j p.decl k s.self)
    (j.producerItems f.decl q)).map (fun r => (r.1, r.2, none)) := by
  have h1 : f.decl.trigger ≠ 1 := by rcases ht with h | h <;> simp [h]
  have h3 : f.decl.trigger ≠ 3 := by rcases ht with h | h <;> simp [h]
  rw [State.trigger, if_neg h1, if_neg h3, hp]

include hmine

omit ht in
theorem someFar_of_mine : s.someFar j f q = false := by
  unfold State.someFar
  rw [hp]
  have none_far : (j.producerItems f.decl q).any (fun k => !s.assigned j p.decl k s.self) = false := by
    simpa [State.self] using hmine
  simp [none_far]

end

theorem someFar_of_other (ht : f.decl.trigger ≠ 2 ∧ f.decl.trigger ≠ 4) : s.someFar j f q = false := by
  rw [State.someFar, decide_eq_false ht.1, decide_eq_false ht.2]
  rfl

/-- The rows of a round of a partition are complete here, and none is still on its way (R275). -/
def RoundReady (s : State) (j : Job) (e : ExchRec) (x : Exch) (q : Nat) : Prop :=
  s.roundComplete j e x (q % e.parts) (q / e.parts) = true ∧
    ∀ t ∈ x.slots, (decide (t.part = q % e.parts) && decide (t.round = q / e.parts)) = false

section
variable {e : ExchRec} {x : Exch} (ht : f.decl.trigger = 3) (he : j.exch? f.decl.producer = some e)
  (hx : s.exch? j.job f.decl.producer = some x)
include ht he hx

theorem trigger_round_waits (h : ¬ RoundReady s j e x q) : s.trigger j f q = none := by
  have hnot : ¬ (s.roundComplete j e x (q % e.parts) (q / e.parts) &&
      x.slots.all (fun t => !(decide (t.part = q % e.parts) && decide (t.round = q / e.parts)))) = true := by
    intro hall
    obtain ⟨hcomplete, hnone⟩ := Bool.and_eq_true_iff.mp hall
    exact h ⟨hcomplete, fun t ht => by simpa only [Bool.not_eq_true'] using List.all_eq_true.mp hnone t ht⟩
  unfold State.trigger
  rw [if_neg (by simp [ht]), if_pos ht, he, hx]
  exact if_neg hnot

theorem trigger_round (h : RoundReady s j e x q) {rows : Bytes}
    (hrows : (x.staged.filter (fun t => decide (t.part = q % e.parts) && decide (t.round = q / e.parts))).flatMap (·.bytes) = rows) :
    s.trigger j f q = if rows = [] then some (s, [], some (partVat (q % e.parts)))
      else (s.newAlloc j.job false false (roundUpTo rows.length 64)).map (fun a =>
        (a.2.2.memWrite a.2.1 rows, [{ addr := a.2.1, bytes := rows.length, alloc := a.1 }], some (partVat (q % e.parts)))) := by
  have hall : (s.roundComplete j e x (q % e.parts) (q / e.parts) &&
      x.slots.all (fun t => !(decide (t.part = q % e.parts) && decide (t.round = q / e.parts)))) = true := by
    obtain ⟨hcomplete, hnone⟩ := h
    rw [hcomplete, Bool.true_and, List.all_eq_true]
    exact fun t ht => by rw [hnone t ht]; rfl
  unfold State.trigger
  rw [if_neg (by simp [ht]), if_pos ht, he, hx, ← hrows]
  exact if_pos hall

end

end

/-! #### ITEM_CREATE -/

section
variable {s : State} {flow : BitVec 20} {seq : BitVec 40} {j : Job} {f : FlowRun} {n : Nat} (hflow : s.flow? flow = some (j, f))
  (hn : s.skipOthers j f f.next = n) (hmay : s.mayCreate j { f with next := n } seq.toNat = true)
include hflow hn hmay

theorem exec_itemCreate_waits (ht : s.trigger j { f with next := n } seq.toNat = none)
    (hfar : s.someFar j { f with next := n } seq.toNat = false) : exec (.itemCreate flow seq) s = .next s := by
  subst hn
  change execItemCreate flow seq s = _
  simp [execItemCreate, hflow, hmay, ht, hfar]

section
variable {u : State} {ins : List Input} {place : Option CoreId}
  (ht : s.trigger j { f with next := n } seq.toNat = some (u, ins, place))
include ht

theorem exec_itemCreate_full (hfull : s.roundFull j f.decl seq.toNat = true) :
    exec (.itemCreate flow seq) s = .next (s.stopJob j.job 0x0402) := by
  subst hn
  change execItemCreate flow seq s = _
  simp [execItemCreate, hflow, hmay, ht, hfull]

theorem exec_itemCreate_made (hu : AllocOnly s u) (hfull : s.roundFull j f.decl seq.toNat = false) (hroom : OutRoom u j f) :
    ∃ t it, exec (.itemCreate flow seq) s = .next t ∧
      Made s t j f seq.toNat ins (place <|> f.shard.bind s.shardCore) it := by
  have hid := (flow?_found hflow).1
  obtain ⟨t, it, hcreate, made⟩ := createItem_made hu (hid.symm ▸ hflow) hroom n seq.toNat ins place .none
  refine ⟨t, it, ?_, made⟩
  subst hn
  change execItemCreate flow seq s = _
  simp [execItemCreate, hflow, hmay, ht, hfull, hcreate]

end

end

end Sys2Proof.Machine

/-! ### A work item started on a core (R118, R278, R423) -/

namespace Sys2Proof.Machine

open Sys2Proof

/-! #### Its stamp -/

/-- At its start an item takes at most another grade and mark. -/
theorem restamp_eq (s : State) (it : Item) : s.restamp it = { it with
    grade := (s.restamp it).grade, gradeRev := (s.restamp it).gradeRev, reproducible := (s.restamp it).reproducible } := by
  unfold State.restamp
  dsimp only
  split <;> rfl

theorem restamp_grade {s : State} {d : Dictionary} (hd : s.dict = d) (it : Item) :
    if it.cls = 0 then (s.restamp it).grade = d.active.setWidth 8 ∧ (s.restamp it).gradeRev = (d.grades[d.active.toNat]).rev
    else (s.restamp it).grade = it.grade ∧ (s.restamp it).gradeRev = it.gradeRev ∧ (s.restamp it).reproducible = it.reproducible := by
  subst hd
  unfold State.restamp
  split
  · exact ⟨rfl, rfl⟩
  · exact ⟨rfl, rfl, rfl⟩

/-! #### Its descriptors -/

theorem writeSliceDescs_byte {s : State} {a q : Nat} (h : q < a) (ds : List (Option (BitVec 512))) :
    (s.writeSliceDescs a ds).mem.byte q = s.mem.byte q := by
  unfold State.writeSliceDescs
  generalize ds.zipIdx = l
  induction l generalizing s with
  | nil => rfl
  | cons d l ih =>
    rw [List.foldl_cons, ih]
    split
    · exact byte_memWrite_outside (by omega)
    · rfl

/-- A check that a descriptor has passed. -/
theorem none_of_passed {p : Prop} [Decidable p] {c : BitVec 16} {x : Option (BitVec 16)} (h : (if p then some c else x) = none) :
    ¬ p ∧ x = none := by
  by_cases hp : p
  · rw [if_pos hp] at h
    cases h
  · exact ⟨hp, by rwa [if_neg hp] at h⟩

/-- A descriptor that passes Table 5.3 names a live record (0x0205). -/
theorem live_of_descCheck {s : State} {b : BitVec 512} {job : BitVec 64} {index : BitVec 512} (h : s.descCheck b job index = none) :
    (s.alloc (descOf b).alloc).live = true := by
  unfold State.descCheck at h
  dsimp only at h
  iterate 4 replace h := (none_of_passed h).2
  have passed := (none_of_passed h).1
  simp only [Bool.or_eq_true, not_or, Bool.not_eq_true', Bool.not_eq_false] at passed
  exact passed.1.1

theorem sliceDesc_markGood {s : State} {job : BitVec 64} {base bytes : Nat} {n : BitVec 16} {write : Bool} {b : BitVec 512}
    (h : s.sliceDesc job base bytes n write = some b) : s.markGood b job = true := by
  unfold State.sliceDesc at h
  dsimp only at h
  split at h
  next hcheck =>
    cases h
    exact markGood_marked s _ job (live_of_descCheck hcheck)
  · cases h

theorem sliceDescs_length (s : State) (it : Item) :
    (s.sliceDescs it).length = it.inputs.length + if it.outBytes = 0 then 0 else 1 := by
  unfold State.sliceDescs
  split <;> simp

theorem sliceDescs_markGood {s : State} {it : Item} {b : BitVec 512} (h : b ∈ (s.sliceDescs it).filterMap id) :
    s.markGood b it.job = true := by
  obtain ⟨d, hd, hb⟩ := List.mem_filterMap.mp h
  rcases List.mem_append.mp hd with hin | hout
  · obtain ⟨i, -, rfl⟩ := List.mem_map.mp hin
    exact sliceDesc_markGood hb
  · split at hout
    · cases hout
    · cases List.mem_singleton.mp hout
      exact sliceDesc_markGood hb

theorem markGood_congr {s t : State} (halloc : t.hb.allocs = s.hb.allocs) (hstraps : t.straps = s.straps) (hsec : t.sec = s.sec)
    (b : BitVec 512) (job : BitVec 64) : t.markGood b job = s.markGood b job := by
  unfold State.markGood State.markOf State.alloc State.self
  rw [halloc, hstraps, hsec]

/-! #### The start -/

theorem MemOnly.straps {s t : State} (h : MemOnly s t) : t.straps = s.straps := by rw [h]

theorem MemOnly.sec {s t : State} (h : MemOnly s t) : t.sec = s.sec := by rw [h]

theorem noteShard_keeps (s : State) (n : Option Nat) (c : CoreId) : (s.noteShard n c).hb.allocs = s.hb.allocs ∧
    (s.noteShard n c).hb.queued = s.hb.queued ∧ (s.noteShard n c).straps = s.straps ∧ (s.noteShard n c).sec = s.sec := by
  cases n <;> exact ⟨rfl, rfl, rfl, rfl⟩

theorem noteStart_keeps (s : State) (it : Item) (c : CoreId) : (s.noteStart it c).hb.allocs = s.hb.allocs ∧
    (s.noteStart it c).hb.queued = s.hb.queued.filter (fun x => x.2 ≠ it.key) ∧ (s.noteStart it c).straps = s.straps ∧
    (s.noteStart it c).sec = s.sec := by
  unfold State.noteStart
  dsimp only
  split
  · exact noteShard_keeps (State.setFlow _ _) _ c
  · exact ⟨rfl, rfl, rfl, rfl⟩

section
variable (s : State) (it : Item) (c : CoreId) (pre : Option ItemKey)

theorem startOn_keeps : (s.startOn it c pre).hb.allocs = s.hb.allocs ∧
    (s.startOn it c pre).hb.queued = s.hb.queued.filter (fun x => x.2 ≠ it.key) ∧ (s.startOn it c pre).straps = s.straps ∧
    (s.startOn it c pre).sec = s.sec := by
  have given := given_memOnly s it c pre
  have hb : (s.given it c pre).hb = s.hb := given.hb.trans (setCore_hb ..)
  obtain ⟨allocs, queued, straps, sec⟩ := noteStart_keeps ((s.given it c pre).setItem (s.started it c pre)) (s.started it c pre) c
  rw [startOn_eq, allocs, queued, straps, sec, started_key]
  exact ⟨congrArg (·.allocs) hb, congrArg (fun h : Headbox => h.queued.filter (fun x => x.2 ≠ it.key)) hb,
    given.straps.trans (setCore_straps ..), given.sec.trans (setCore_sec ..)⟩

/-- The 64 bytes stand in the item store: the descriptors are written behind them. -/
theorem startOn_memRead : (s.startOn it c pre).memRead it.ptr 64 = (s.started it c pre).bytes := by
  have mem : (s.startOn it c pre).mem = (s.given it c pre).mem := by
    rw [startOn_eq, (noteStart_same ..).2.1]
    rfl
  have ptr : ∀ u : State, (u.restamp it).ptr = it.ptr := fun u => by rw [restamp_eq]
  have length := (s.started it c pre).bytes_length
  unfold State.memRead
  rw [mem, ← length]
  refine read_of_bytes fun i hi => ?_
  have below : ∀ n, it.ptr + i < it.ptr + descsOff n := fun n => by
    unfold descsOff roundUpTo
    omega
  unfold State.started at hi ⊢
  unfold State.given
  dsimp only at hi ⊢
  rw [ptr, writeSliceDescs_byte (below _)]
  exact byte_memWrite_inside hi

/-- Every descriptor that the slice has created is good in the state it leaves. -/
theorem startOn_markGood {b : BitVec 512} (h : b ∈ (s.started it c pre).descs) : (s.startOn it c pre).markGood b it.job = true := by
  obtain ⟨allocs, -, straps, sec⟩ := startOn_keeps s it c pre
  have fresh := freshFor_memOnly s it c
  have job : ∀ u : State, (u.restamp it).job = it.job := fun u => by rw [restamp_eq]
  have good := sliceDescs_markGood h
  rw [job] at good
  refine (markGood_congr ?_ ?_ ?_ _ _).trans good
  · rw [allocs, memWrite_hb, setCore_hb, fresh.hb]
  · rw [straps, memWrite_straps, setCore_straps, fresh.straps]
  · rw [sec, memWrite_sec, setCore_sec, fresh.sec]

end

theorem startOn_started {s : State} {it x : Item} (hi : s.item? it.key = some x) (c : CoreId) :
    Started s (s.startOn it c none) it c := by
  have core : (s.startOn it c none).core c = (s.core c).begin it none := (startOn_core ..).trans (if_pos rfl)
  obtain ⟨allocs, queued, straps, sec⟩ := startOn_keeps s it c none
  have key := started_key s it c none
  refine ⟨⟨s.started it c none, ?_, startOn_memRead .., ?_, ?_, ?_, ?_⟩, ?_, ?_, ?_, queued, ?_⟩
  · rw [startOn_item?, ← key]
    exact item?_setItem (key.symm ▸ hi)
  · unfold State.started
    dsimp only
    rw [restamp_eq]
  · exact restamp_grade ((setCore_dict ..).trans (freshFor_memOnly s it c).dict) it
  · refine (List.length_filterMap_le ..).trans ?_
    rw [sliceDescs_length, restamp_eq]
  · exact fun b hb => startOn_markGood _ _ _ _ hb
  · rw [core]
    exact ⟨rfl, rfl, rfl, rfl, rfl, rfl, rfl⟩
  · rw [core]
    refine ⟨fun r => ?_, fun r => ?_, fun r => ?_, fun r i => ?_, fun r => ?_, fun r => ?_, rfl, rfl, rfl, rfl⟩
    · simp [Core.begin, Core.getX]
    · simp [Core.begin, Core.getW]
    · simp [Core.begin, Core.getP]
    · simp [Core.begin, Core.getE]
    · simp [Core.begin, Core.getS]
    · simp [Core.begin, Core.getT]
  · exact fun d hd => (startOn_core ..).trans (if_neg hd)
  · obtain ⟨hkey, hrest⟩ := bump_countsBy s 0x30000C 1
    exact ⟨(startOn_modVal ..).trans hkey, fun k d h => (startOn_modVal ..).trans (hrest k d h)⟩

end Sys2Proof.Machine

/-! ### Where an item runs (R285, R286) -/

namespace Sys2Proof.Machine

open Sys2Proof

/-! #### Vats and their cores -/

theorem vat_of_mem_coresOf {v : BitVec 6} {c : CoreId} (h : c ∈ coresOf v) : c.vat = v := by
  obtain ⟨i, -, rfl⟩ := List.mem_map.mp h
  rfl

theorem mem_allVats (v : BitVec 6) : v ∈ allVats :=
  List.mem_map.mpr ⟨v.toNat, List.mem_range.mpr v.isLt, by simp⟩

theorem leastVat_mem (f : BitVec 6 → Nat) {vs : List (BitVec 6)} (h : vs ≠ []) : leastVat f vs ∈ vs := by
  induction vs with
  | nil => exact absurd rfl h
  | cons v vs ih =>
    cases vs with
    | nil => exact List.mem_singleton_self v
    | cons u us =>
      rw [leastVat]
      · split
        · exact List.mem_cons_self
        · exact List.mem_cons_of_mem v (ih (List.cons_ne_nil u us))
      · exact fun heq => List.cons_ne_nil u us heq

section
variable {s : State} {it : Item} {c : CoreId} {v : BitVec 6}

theorem open_of_mayTake (h : s.mayTake it c = true) : s.vatClosed c.vat = false := by
  simp only [State.mayTake, State.suits, Bool.and_eq_true, Bool.not_eq_true'] at h
  simp_all

theorem takerIn_found (h : s.takerIn it v = some c) : s.mayTake it c = true ∧ c.vat = v :=
  ⟨List.find?_some h, vat_of_mem_coresOf (List.mem_of_find?_eq_some h)⟩

theorem takerIn_none (h : ∀ d, s.mayTake it d = false) : s.takerIn it v = none :=
  List.find?_eq_none.mpr fun d _ => by simp [h d]

end

/-! #### The Vat an item keeps to -/

section
variable {s : State} {it : Item} {a : CoreId} (hcls : it.cls ≠ 0) (ha : it.affinity = some a)
include hcls ha

theorem affinityVat_of_open (h : s.vatClosed a.vat = false) : s.affinityVat it = a.vat := by
  have kept : s.keptVat it = some a.vat := by
    simp [State.keptVat, ha, h]
  rw [State.affinityVat, if_neg hcls, kept]

/-- Dispatch is to a Vat that takes it, while there is one. -/
theorem affinityVat_open (hlast : ∀ o, s.flow? it.key.flow = some o → o.2.lastCore = none) (h : ∃ u, s.vatClosed u = false) :
    s.vatClosed (s.affinityVat it) = false := by
  by_cases hopen : s.vatClosed a.vat = false
  · rw [affinityVat_of_open hcls ha hopen, hopen]
  · have kept : s.keptVat it = none := by
      unfold State.keptVat
      cases hf : s.flow? it.key.flow with
      | none => simp [ha, hopen]
      | some o => simp [ha, hopen, hlast o hf]
    obtain ⟨u, hu⟩ := h
    have vats : s.openVats ≠ [] := List.ne_nil_of_mem (List.mem_filter.mpr ⟨mem_allVats u, by simp [hu]⟩)
    have isOpen : ∀ w ∈ s.openVats, s.vatClosed w = false := fun w hw => by simpa using (List.mem_filter.mp hw).2
    rw [State.affinityVat, if_neg hcls, kept]
    dsimp only
    split
    next i _ =>
      split
      · exact isOpen _ (leastVat_mem _ vats)
      next hnear => exact isOpen _ (List.mem_filter.mp (leastVat_mem _ hnear)).1
    next =>
      split
      · exact isOpen _ (leastVat_mem _ vats)
      next hnear => exact isOpen _ (List.mem_filter.mp (leastVat_mem _ hnear)).1

end

/-! #### Placement -/

/-- The item waits in a Vat's queue. -/
def State.intoQueue (s : State) (it : Item) (v : BitVec 6) : State :=
  let s := s.setItem { it with phase := .queued }
  { s with hb := { s.hb with queued := s.hb.queued ++ [(v, it.key)] } }

section
variable {s : State} {it : Item} (hlast : ∀ o, s.flow? it.key.flow = some o → o.2.lastCore = none)
include hlast

/-- With no core that last ran its flow, an item goes to the first core of its Vat that may take it. -/
theorem place_taken {c : CoreId} (hc : s.takerIn it (s.affinityVat it) = some c) : s.place it = s.give it c := by
  unfold State.place
  dsimp only
  cases hf : s.flow? it.key.flow with
  | none => simp only [hc]
  | some o =>
    obtain ⟨j, f⟩ := o
    have hl : f.lastCore = none := hlast _ hf
    cases f
    cases hl
    simp only [hc]

/-- An item of class B or C that no core may take waits in its Vat's queue. -/
theorem place_queued (hcls : it.cls ≠ 0) (h : ∀ d, s.mayTake it d = false) :
    s.place it = s.intoQueue it (s.affinityVat it) := by
  have nowhere : (dieOrder (s.affinityVat it)).findSome? (s.takerIn it) = none :=
    List.findSome?_eq_none_iff.mpr fun v _ => takerIn_none h
  unfold State.place
  dsimp only
  rw [nowhere, decide_eq_false hcls]
  cases hf : s.flow? it.key.flow with
  | none =>
    simp only [takerIn_none h]
    rfl
  | some o =>
    obtain ⟨j, f⟩ := o
    have hl : f.lastCore = none := hlast _ hf
    cases f
    cases hl
    simp only [takerIn_none h]
    rfl

end

/-! #### ITEM_DISPATCH -/

theorem give_push {s : State} (h : s.hb.pull = false) (it : Item) (c : CoreId) : s.give it c = s.startOn it c none :=
  if_neg (by simp [h])

theorem give_pull {s : State} (h : s.hb.pull = true) (it : Item) (c : CoreId) : s.give it c = s.intoSlot it c := if_pos h

theorem exec_itemDispatch {s : State} {flow : BitVec 20} {seq : BitVec 40} {it : Item}
    (hi : s.item? { flow := flow, seq := seq } = some it) (hm : s.mayDispatch it = true) :
    exec (.itemDispatch flow seq) s = .next (s.place it) := by
  change execItemDispatch flow seq s = _
  simp only [execItemDispatch, hi, hm, if_true]

section
variable {s : State} {it : Item} (hi : s.item? it.key = some it)
include hi

theorem intoQueue_item? (v : BitVec 6) : (s.intoQueue it v).item? it.key = some { it with phase := .queued } :=
  item?_setItem (x := { it with phase := .queued }) hi

theorem intoSlot_item? (c : CoreId) : (s.intoSlot it c).item? it.key = some { it with phase := .queued } :=
  item?_setItem (x := { it with phase := .queued }) hi

end

/-! #### CORE_IDLE and STEAL_US -/

section
variable {s : State} {c : CoreId}

theorem queuedFor_item? {v : BitVec 6} {cls : Option (BitVec 2)} {it : Item} (h : it ∈ s.queuedFor v cls c) :
    s.item? it.key = some it := by
  obtain ⟨q, -, hq⟩ := List.mem_filterMap.mp h
  split at hq
  next x hx =>
    obtain ⟨-, heq⟩ := Option.ite_none_right_eq_some.mp hq
    cases heq
    exact item?_key hx ▸ hx
  · cases hq

/-- Class A comes first (R286). -/
theorem nextFor_classA {x : Item} {xs : List Item} (h : s.queuedFor c.vat (some 0) c = x :: xs) : s.nextFor c = some x := by
  simp only [State.nextFor, h, List.cons_append]

theorem nextFor_item? {it : Item} (h : s.nextFor c = some it) : s.item? it.key = some it := by
  unfold State.nextFor at h
  dsimp only at h
  split at h
  next x xs hown =>
    cases h
    have hmem : it ∈ _ := hown ▸ List.mem_cons_self
    simp only [List.mem_append] at hmem
    rcases hmem with ((ha | hfirst) | hb) | hk
    · exact queuedFor_item? ha
    · split at hfirst
      · exact queuedFor_item? hfirst
      · cases hfirst
    · exact queuedFor_item? hb
    · exact queuedFor_item? hk
  next =>
    split at h
    · cases h
    · obtain ⟨q, -, hq⟩ := List.mem_filterMap.mp (List.mem_of_find?_eq_some h)
      exact item?_key hq ▸ hq

section
variable (hidle : s.idle c = true) (hwork : s.twin.state ≠ .detaching)
include hidle hwork

theorem exec_coreIdle_push (hpull : s.hb.pull = false) {it : Item} (hnext : s.nextFor c = some it) :
    exec (.coreIdle c) s = .next (s.startOn it c none) := by
  change execCoreIdle c s = _
  simp [execCoreIdle, hidle, State.working, hwork, hpull, hnext]

/-- In PULL the core takes the item of its local slot, when it still suits it. -/
theorem exec_coreIdle_pull (hpull : s.hb.pull = true) {key : ItemKey} {it : Item}
    (hslot : s.hb.slots.find? (fun x => x.1 = c) = some (c, key)) (hi : s.item? key = some it) : exec (.coreIdle c) s =
      .next (if s.suits it c then (s.startOn it c none).refill c else s.emptySlot it c) := by
  have held : s.slotHeld c = true :=
    List.any_eq_true.mpr ⟨(c, key), List.mem_of_find?_eq_some hslot, decide_eq_true rfl⟩
  have same : s.refill c = s := if_pos held
  have busy : ¬ (!s.idle c || !s.working) = true := by simp [hidle, State.working, hwork]
  change execCoreIdle c s = _
  rw [execCoreIdle, if_neg busy, if_pos hpull, same]
  dsimp only
  rw [hslot, Option.bind_some, hi]
  exact (apply_ite Host.Outcome.next _ _ _).symm

end

theorem refill_cores (s : State) (c : CoreId) : (s.refill c).cores = s.cores := by
  unfold State.refill
  split
  · rfl
  · split <;> rfl

theorem refill_startOn_core (s : State) (it : Item) (c d : CoreId) :
    ((s.startOn it c none).refill c).core d = if d = c then (s.core c).begin it none else s.core d :=
  (core_of_cores (refill_cores ..) d).trans (startOn_core ..)

theorem exec_stealUs {flow : BitVec 20} {seq : BitVec 40} {it : Item} (hi : s.item? { flow := flow, seq := seq } = some it)
    (hq : ∃ x ∈ s.hb.queued, x.2 = it.key) (hc : s.mayTake it c = true) (hown : ∀ x ∈ s.hb.queued, x.1 ≠ c.vat)
    (hwork : s.twin.state ≠ .detaching) : exec (.stealUs flow seq c) s = .next (s.give it c) := by
  have ready : (s.working && s.hb.queued.any (fun q => q.2 = it.key) && s.mayTake it c &&
      !s.hb.queued.any (fun q => q.1 = c.vat)) = true := by
    obtain ⟨x, hx, hkey⟩ := hq
    have queued : s.hb.queued.any (fun q => q.2 = it.key) = true := List.any_eq_true.mpr ⟨x, hx, decide_eq_true hkey⟩
    have none_own : s.hb.queued.any (fun q => q.1 = c.vat) = false :=
      List.any_eq_false.mpr fun q hq => by simpa using hown q hq
    rw [queued, none_own, hc]
    simp [State.working, hwork]
  change execStealUs flow seq c s = _
  rw [execStealUs, hi]
  exact if_pos ready

end

end Sys2Proof.Machine

/-! ### Items released in sequence order (R282) -/

namespace Sys2Proof.Machine

open Sys2Proof

/-! #### Items that go -/

/-- Only items, their records and the lists they wait in have changed. -/
def ItemsOnly (s t : State) : Prop :=
  t = { s with hb := { s.hb with
    allocs := t.hb.allocs, items := t.hb.items, queued := t.hb.queued, slots := t.hb.slots } }

theorem ItemsOnly.refl (s : State) : ItemsOnly s s := rfl

theorem ItemsOnly.trans {s t u : State} (h : ItemsOnly s t) (g : ItemsOnly t u) : ItemsOnly s u := by
  unfold ItemsOnly at *
  rw [g, h]

theorem ItemsOnly.foldl {β : Type} {f : State → β → State} (h : ∀ s b, ItemsOnly s (f s b)) (l : List β) (s : State) :
    ItemsOnly s (l.foldl f s) := by
  induction l generalizing s with
  | nil => exact .refl s
  | cons b l ih => exact (h s b).trans (ih _)

section
variable {s t : State} (h : ItemsOnly s t)
include h

theorem ItemsOnly.jobs : t.hb.jobs = s.hb.jobs := by rw [h]

theorem ItemsOnly.sent : t.sent = s.sent := by rw [h]

theorem ItemsOnly.straps : t.straps = s.straps := by rw [h]

theorem ItemsOnly.job? (id : BitVec 64) : t.job? id = s.job? id := by rw [h]; rfl

theorem ItemsOnly.flow? (id : BitVec 20) : t.flow? id = s.flow? id := by rw [h]; rfl

end

theorem freeAlloc_itemsOnly (s : State) (n : BitVec 16) : ItemsOnly s (s.freeAlloc n) := by
  unfold State.freeAlloc
  dsimp only
  split <;> rfl

theorem freeAlloc_items (s : State) (n : BitVec 16) : (s.freeAlloc n).hb.items = s.hb.items := by
  unfold State.freeAlloc
  dsimp only
  split <;> rfl

/-- What an item took is free again. -/
def State.freeItem (s : State) (it : Item) : State :=
  (it.inputs.foldl (fun s i => if it.cls = 0 then s.freeAlloc i.alloc else s) s).freeAlloc it.outAlloc

theorem freeItem_itemsOnly (s : State) (it : Item) : ItemsOnly s (s.freeItem it) :=
  (ItemsOnly.foldl (fun s i => by
    split
    · exact freeAlloc_itemsOnly s _
    · exact .refl s) it.inputs s).trans (freeAlloc_itemsOnly _ _)

theorem freeItem_items (s : State) (it : Item) : (s.freeItem it).hb.items = s.hb.items := by
  unfold State.freeItem
  rw [freeAlloc_items]
  induction it.inputs generalizing s with
  | nil => rfl
  | cons i is ih =>
    rw [List.foldl_cons, ih]
    split
    · exact freeAlloc_items s _
    · rfl

theorem removeItem_itemsOnly (s : State) (key : ItemKey) : ItemsOnly s (s.removeItem key) := by
  unfold State.removeItem
  split
  · exact .refl s
  next it _ => exact (freeItem_itemsOnly s it).trans rfl

theorem removeItem_items (s : State) (key : ItemKey) :
    (s.removeItem key).hb.items = s.hb.items.filter (fun x => x.key ≠ key) := by
  unfold State.removeItem
  split
  next hnone =>
    refine (List.filter_eq_self.mpr fun x hx => ?_).symm
    simpa using List.find?_eq_none.mp hnone x hx
  next it _ => exact congrArg (List.filter _) (freeItem_items s it)

theorem removeItem_item?_ne {s : State} {key k : ItemKey} (h : k ≠ key) : (s.removeItem k).item? key = s.item? key := by
  unfold State.item?
  rw [removeItem_items, List.find?_filter]
  congr 1
  funext x
  by_cases hx : x.key = key
  · simp [hx, h.symm]
  · simp [hx]

theorem foldl_removeItem_item? {l : List Item} {key : ItemKey} (h : ∀ x ∈ l, x.key ≠ key) (s : State) :
    (l.foldl (fun s it => s.removeItem it.key) s).item? key = s.item? key := by
  induction l generalizing s with
  | nil => rfl
  | cons x l ih =>
    obtain ⟨hx, hl⟩ := List.forall_mem_cons.mp h
    rw [List.foldl_cons, ih hl, removeItem_item?_ne hx]

theorem sweep_itemsOnly (s : State) (id : BitVec 64) : ItemsOnly s (s.sweep id) := by
  unfold State.sweep
  split
  · exact .refl s
  · exact ItemsOnly.foldl (fun s it => removeItem_itemsOnly s _) _ s

/-- An item whose reservation is not free stays. -/
theorem sweep_item? {s : State} {id : BitVec 64} {key : ItemKey} (h : ∀ x ∈ s.hb.items, x.key = key → ∀ j f, s.job? id = some j →
    j.flows.find? (fun f => f.decl.flow = key.flow) = some f → s.freed j f x = false) : (s.sweep id).item? key = s.item? key := by
  unfold State.sweep
  split
  · rfl
  next j hj =>
    refine foldl_removeItem_item? (fun x hx hkey => ?_) s
    obtain ⟨hmem, hgone⟩ := List.mem_filter.mp hx
    simp only [Bool.and_eq_true] at hgone
    obtain ⟨-, hfreed⟩ := hgone
    rw [hkey] at hfreed
    split at hfreed
    next f hf =>
      rw [h x hmem hkey j f hj hf] at hfreed
      cases hfreed
    · cases hfreed

/-! #### A job that goes on -/

theorem job?_setFlow (s : State) (r : FlowRun) (id : BitVec 64) : (s.setFlow r).job? id = (s.job? id).map (·.setFlow r) :=
  List.find?_map ..

theorem find?_flows_setFlow {j : Job} {f r : FlowRun} (h : j.flows.find? (fun x => x.decl.flow = r.decl.flow) = some f) :
    (j.setFlow r).flows.find? (fun x => x.decl.flow = r.decl.flow) = some r := by
  have same : ((fun x : FlowRun => decide (x.decl.flow = r.decl.flow)) ∘ fun x => if x.decl.flow = r.decl.flow then r else x) =
      fun x => decide (x.decl.flow = r.decl.flow) := by
    funext x
    by_cases hx : x.decl.flow = r.decl.flow <;> simp [hx]
  have hf : f.decl.flow = r.decl.flow := by simpa using List.find?_some h
  refine (List.find?_map ..).trans ?_
  rw [same, h, Option.map_some, if_pos hf]

/-- A BATCH flow that still owes a batch keeps its job from ending (R284). -/
theorem checkJobEnd_of_owing {s : State} {id : BitVec 64} {j : Job} {f : FlowRun} (hj : s.job? id = some j) (hf : f ∈ j.flows)
    (hcls : f.decl.cls ≠ 0) (hstop : f.stopped = false) (hbatch : f.decl.batch = true)
    (howes : s.skipOthers j f f.egressed < f.decl.items) : s.checkJobEnd id = s := by
  have notA : f.decl.isA = false := decide_eq_false hcls
  have work : f ∈ j.flows.filter (fun f => !f.decl.isA && !f.stopped) :=
    List.mem_filter.mpr ⟨hf, by simp [notA, hstop]⟩
  have batch : f ∈ (j.flows.filter (fun f => !f.decl.isA && !f.stopped)).filter (fun f => f.decl.batch) :=
    List.mem_filter.mpr ⟨work, hbatch⟩
  have some_batch : ((j.flows.filter (fun f => !f.decl.isA && !f.stopped)).filter (fun f => f.decl.batch)).isEmpty = false :=
    List.isEmpty_eq_false_iff.mpr (List.ne_nil_of_mem batch)
  have owing : ((j.flows.filter (fun f => !f.decl.isA && !f.stopped)).filter (fun f => f.decl.batch)).all
      (fun f => decide (f.decl.items ≤ s.skipOthers j f f.egressed)) = false :=
    List.all_eq_false.mpr ⟨f, batch, by simpa using howes⟩
  unfold State.checkJobEnd
  rw [hj]
  dsimp only
  split
  · rfl
  · rw [some_batch, owing]
    rfl

/-! #### ITEM_RELEASE -/

theorem keyOf_toNat (flow : BitVec 20) (seq : BitVec 40) : keyOf flow seq.toNat = { flow := flow, seq := seq } := by
  simp [keyOf]

section
variable {s : State} {j : Job} {f : FlowRun} {q : Nat} {it : Item}

/-- The lowest item is released and the next is not there yet. -/
theorem releaseFrom_one (ht : f.decl.trigger ≠ 3) (hm : j.modules = [s.straps.modid]) (hq : f.released = q)
    (hi : s.item? (keyOf f.decl.flow q) = some it) (hphase : it.phase = .accepted)
    (hnext : s.item? (keyOf f.decl.flow (q + 1)) = none) (n : Nat) :
    s.releaseFrom j f (n + 2) = (s.setItem { it with phase := .released }).setFlow { f with released := q + 1 } := by
  have hkey := item?_key hi
  have hother : (s.setItem { it with phase := .released }).item? (keyOf f.decl.flow (q + 1)) = none := by
    rw [item?_setItem_ne, hnext]
    intro heq
    rw [show ({ it with phase := .released } : Item).key = it.key from rfl, hkey] at heq
    rw [heq, hi] at hnext
    cases hnext
  have hm' : j.modules = [(s.setItem { it with phase := .released }).straps.modid] := hm
  rw [State.releaseFrom, skipOthers_alone ht hm, hq, hi]
  dsimp only
  rw [if_pos hphase, State.releaseFrom, skipOthers_alone (f := { f with released := q + 1 }) ht hm', hother]

end

theorem exec_itemRelease {s : State} {flow : BitVec 20} {j : Job} {f : FlowRun} (hflow : s.flow? flow = some (j, f))
    (hstop : j.stopped = none) (hcls : f.decl.cls ≠ 0)
    (hagain : ∀ x ∈ s.hb.items, x.key.flow = flow → x.phase = .accepted → f.released ≤ x.key.seq.toNat) :
    exec (.itemRelease flow) s = .next (((s.releaseFrom j f (s.hb.items.length + 1)).sweep j.job).checkJobEnd j.job) := by
  have goes : ¬ (j.stopped.isSome || f.decl.isA) = true := by
    rw [hstop, show f.decl.isA = false from decide_eq_false hcls]
    exact Bool.false_ne_true
  have same : s.hb.items.map (fun it => if (decide (it.key.flow = flow) && decide (it.phase = .accepted) &&
      decide (it.key.seq.toNat < f.released)) = true then { it with phase := .released } else it) = s.hb.items := by
    refine (List.map_congr_left fun x hx => if_neg ?_).trans (List.map_id' _)
    simp only [Bool.and_eq_true, decide_eq_true_eq, not_and, Nat.not_lt, and_imp]
    exact hagain x hx
  change execItemRelease flow s = _
  rw [execItemRelease, hflow]
  dsimp only
  rw [if_neg goes, same]

/-- The flow's lowest accepted item is released; it stays listed, and its job goes on, while its batch has not left. -/
theorem itemRelease_one {s : State} {flow : BitVec 20} {seq : BitVec 40} {j : Job} {f : FlowRun} {it : Item}
    (hflow : s.flow? flow = some (j, f)) (hjob : s.job? j.job = some j) (hstop : j.stopped = none) (hcls : f.decl.cls ≠ 0)
    (hbatch : f.decl.batch = true) (ht : f.decl.trigger ≠ 3) (hm : j.modules = [s.straps.modid]) (hfstop : f.stopped = false)
    (hq : f.released = seq.toNat) (hegressed : f.egressed ≤ seq.toNat) (howes : f.egressed < f.decl.items)
    (hi : s.item? { flow := flow, seq := seq } = some it) (hphase : it.phase = .accepted)
    (hnext : s.item? (keyOf flow (seq.toNat + 1)) = none)
    (hagain : ∀ x ∈ s.hb.items, x.key.flow = flow → x.phase = .accepted → seq.toNat ≤ x.key.seq.toNat) :
    ∃ t, exec (.itemRelease flow) s = .next t ∧ t.item? { flow := flow, seq := seq } = some { it with phase := .released } ∧
      (t.flow? flow).map (·.2) = some { f with released := seq.toNat + 1 } ∧ t.sent = s.sent := by
  obtain ⟨rfl, -, hfind⟩ := flow?_found hflow
  have hkey := item?_key hi
  obtain ⟨n, hn⟩ : ∃ n, s.hb.items.length = n + 1 :=
    Nat.exists_eq_succ_of_ne_zero (List.length_pos_of_mem (List.mem_of_find?_eq_some hi)).ne'
  have released := releaseFrom_one ht hm hq (by rwa [keyOf_toNat]) hphase hnext n
  have run := exec_itemRelease hflow hstop hcls (hq ▸ hagain)
  rw [hn, released] at run
  let r : FlowRun := { f with released := seq.toNat + 1 }
  let x : Item := { it with phase := .released }
  let u := (s.setItem x).setFlow r
  have swept := sweep_itemsOnly u j.job
  have flowFound : u.flow? f.decl.flow = some (j.setFlow r, r) := flow?_setFlow (s := s.setItem x) (r := r) hflow
  have jobFound : u.job? j.job = some (j.setFlow r) := (job?_setFlow (s.setItem x) r j.job).trans (congrArg _ hjob)
  have inJob : (j.setFlow r).flows.find? (fun g => g.decl.flow = f.decl.flow) = some r := find?_flows_setFlow (r := r) hfind
  have kept : (u.sweep j.job).item? { flow := f.decl.flow, seq := seq } = some x := by
    rw [sweep_item?]
    · exact hkey ▸ item?_setItem (x := x) (hkey.symm ▸ hi)
    · intro y hy hykey k g hk hg
      cases jobFound.symm.trans hk
      cases inJob.symm.trans hg
      simp [State.freed, r, hbatch, hykey, hegressed]
  have goesOn : (u.sweep j.job).checkJobEnd j.job = u.sweep j.job := by
    refine checkJobEnd_of_owing ((swept.job? _).trans jobFound) (List.mem_of_find?_eq_some inJob) hcls hfstop hbatch ?_
    rw [skipOthers_alone (j := j.setFlow r) (f := r) ht (hm.trans (by rw [swept.straps]; rfl))]
    exact howes
  refine ⟨_, run, ?_, ?_, ?_⟩
  · exact (congrArg (fun t : State => t.item? _) goesOn).trans kept
  · exact (congrArg (fun t : State => (t.flow? _).map (·.2)) goesOn).trans
      (congrArg (Option.map Prod.snd) ((swept.flow? _).trans flowFound))
  · exact (congrArg State.sent goesOn).trans swept.sent

end Sys2Proof.Machine

/-! ### What follows the writing of a batch (R221, R282, R335) -/

namespace Sys2Proof.Machine

open Sys2Proof

/-- What follows a batch that has left adds to what is sent, counts no bytes, reports nothing, and changes no flow. -/
structure Trails (s t : State) : Prop where
  sent  : s.sent <+: t.sent
  meter : t.meter = s.meter
  bytes : t.modVal 0x442004 0 = s.modVal 0x442004 0
  jobs  : ∀ j ∈ t.hb.jobs, ∃ k ∈ s.hb.jobs, k.flows = j.flows

theorem Trails.refl (s : State) : Trails s s := ⟨List.prefix_rfl, rfl, rfl, fun j hj => ⟨j, hj, rfl⟩⟩

theorem Trails.trans {s t u : State} (h : Trails s t) (g : Trails t u) : Trails s u := by
  refine ⟨h.sent.trans g.sent, g.meter.trans h.meter, g.bytes.trans h.bytes, fun j hj => ?_⟩
  obtain ⟨k, hk, hflows⟩ := g.jobs j hj
  obtain ⟨i, hi, hsame⟩ := h.jobs k hk
  exact ⟨i, hi, hsame.trans hflows⟩

theorem Trails.foldl {β : Type} {f : State → β → State} (h : ∀ s b, Trails s (f s b)) (l : List β) (s : State) :
    Trails s (l.foldl f s) := by
  induction l generalizing s with
  | nil => exact .refl s
  | cons b l ih => exact (h s b).trans (ih _)

/-- Only what is sent has grown. -/
theorem Trails.of_sent {s t : State} (hsent : s.sent <+: t.sent) (hmeter : t.meter = s.meter)
    (hvalues : t.dict.values = s.dict.values) (hjobs : t.hb.jobs = s.hb.jobs) : Trails s t :=
  ⟨hsent, hmeter, congrArg (Assoc.get 0 · 0x442004) hvalues, fun j hj => ⟨j, hjobs ▸ hj, rfl⟩⟩

theorem ItemsOnly.trails {s t : State} (h : ItemsOnly s t) : Trails s t :=
  .of_sent (h.sent ▸ List.prefix_rfl) (by rw [h]) (by rw [h]) h.jobs

theorem emit_trails (s : State) (o : Out) : Trails s (s.emit o) := .of_sent (List.prefix_append ..) rfl rfl rfl

theorem complete_trails (s : State) (tag : BitVec 32) (st : BitVec 16) (final : Bool) (job : BitVec 64) (ring : BitVec 16) :
    Trails s (s.complete tag st final job ring) := .of_sent (List.prefix_append ..) rfl rfl rfl

theorem setModVal_trails (s : State) {key : Nat} (h : 0x442004 ≠ key) (d v : Nat) : Trails s (s.setModVal key d v) :=
  ⟨List.prefix_rfl, rfl, Assoc.get_set_ne 0 d _ v h, fun j hj => ⟨j, hj, rfl⟩⟩

theorem logEvent_trails (s : State) (code : BitVec 16) (data : Nat) : Trails s (s.logEvent code data) :=
  .of_sent List.prefix_rfl rfl rfl rfl

theorem sendCan_trails (s : State) (base : Nat) (data : Bytes) : Trails s (s.sendCan base data) := by
  unfold State.sendCan
  split
  · exact .refl s
  · exact emit_trails s _

theorem faultCode_trails (s : State) (code : BitVec 16) (data : Nat) : Trails s (s.faultCode code data) := by
  have logged := (logEvent_trails s code data).trans (setModVal_trails (s.logEvent code data) (key := 0x100100) (by decide) 0 1)
  unfold State.faultCode
  dsimp only
  split
  · exact logged
  · exact logged.trans (sendCan_trails _ _ _)

/-! #### Mirror records and rings -/

/-- Only frames have gone to the twin. -/
structure Frames (s t : State) : Prop where
  frame : t = { s with twin := t.twin, sent := t.sent }
  sent  : s.sent <+: t.sent

theorem Frames.refl (s : State) : Frames s s := ⟨rfl, List.prefix_rfl⟩

theorem Frames.trans {s t u : State} (h : Frames s t) (g : Frames t u) : Frames s u :=
  ⟨by rw [g.frame, h.frame], h.sent.trans g.sent⟩

theorem Frames.hb {s t : State} (h : Frames s t) : t.hb = s.hb := by rw [h.frame]

theorem Frames.mem {s t : State} (h : Frames s t) : t.mem = s.mem := by rw [h.frame]

theorem Frames.trails {s t : State} (h : Frames s t) : Trails s t :=
  .of_sent h.sent (by rw [h.frame]) (by rw [h.frame]) (by rw [h.frame])

theorem sendFrame_frames (s : State) (t : BitVec 8) (payload : Bytes) : Frames s (s.sendFrame t payload) := by
  unfold State.sendFrame
  dsimp only
  split
  · exact .refl s
  · split
    · exact ⟨rfl, List.prefix_append ..⟩
    · split
      · exact .refl s
      · split
        · exact ⟨rfl, List.prefix_append ..⟩
        · exact ⟨rfl, List.prefix_rfl⟩

theorem sendMirror_frames (s : State) (m : Mirror) : Frames s (s.sendMirror m) := by
  unfold State.sendMirror
  split
  · have counted : Frames s { s with twin := { s.twin with mseqTx := s.twin.mseqTx + 1 } } := ⟨rfl, List.prefix_rfl⟩
    exact counted.trans (sendFrame_frames _ _ _)
  · exact .refl s

theorem mirrorRelease_frames (s : State) (r : Ring) : Frames s (s.mirrorRelease r) := by
  unfold State.mirrorRelease
  split
  · exact (sendMirror_frames s _).trans ⟨rfl, List.prefix_rfl⟩
  · exact .refl s

theorem setRing_trails (s : State) (r : Ring) : Trails s (s.setRing r) := .of_sent List.prefix_rfl rfl rfl rfl
theorem dropRing_trails (s : State) (r : Ring) : Trails s (s.dropRing r) := .of_sent List.prefix_rfl rfl rfl rfl

theorem armRelease_trails (s : State) (f : FlowRec) (b : Nat) : Trails s (s.armRelease f b) :=
  .of_sent List.prefix_rfl rfl rfl rfl

/-! #### The end of a job -/

theorem setJob_trails (s : State) {j k : Job} (hj : j ∈ s.hb.jobs) (hflows : j.flows = k.flows) : Trails s (s.setJob k) := by
  refine ⟨List.prefix_rfl, rfl, rfl, fun i hi => ?_⟩
  obtain ⟨x, hx, rfl⟩ := List.mem_map.mp hi
  split
  · exact ⟨j, hj, hflows⟩
  · exact ⟨x, hx, rfl⟩

theorem sendMsg_trails (s : State) (t : BitVec 8) (m : Msg) : Trails s (s.sendMsg t m) := by
  unfold State.sendMsg
  dsimp only
  split
  · exact .refl s
  · split
    · exact .of_sent (List.prefix_append ..) rfl rfl rfl
    · exact emit_trails s _

theorem answerClassA_trails (s : State) (r : Reply) (job : BitVec 64) (st : BitVec 16) (d : Bytes) :
    Trails s (s.answerClassA r job st d) := by
  cases r with
  | none => exact .refl s
  | host tag room => exact (emit_trails s _).trans (complete_trails _ _ _ _ _ _)
  | peer m => exact sendMsg_trails s _ _

theorem noteLatency_trails (s : State) (degraded : Bool) : Trails s (s.noteLatency degraded) := by
  refine ⟨List.prefix_rfl, rfl, ?_, fun j hj => ⟨j, hj, rfl⟩⟩
  exact (Assoc.get_set_ne 0 0 _ _ (by decide)).trans (Assoc.get_set_ne 0 0 _ _ (by decide))

theorem classAStatus_trails (s : State) (it : Item) : Trails s (s.classAStatus it).2 := by
  unfold State.classAStatus
  split
  · exact (setModVal_trails s (key := 0x481006) (by decide) 0 _).trans (noteLatency_trails _ _)
  · exact noteLatency_trails s _

theorem dropRun_trails (s : State) (key : ItemKey) : Trails s (s.dropRun key) := .of_sent List.prefix_rfl rfl rfl rfl

theorem removeItem_trails (s : State) (key : ItemKey) : Trails s (s.removeItem key) := (removeItem_itemsOnly s key).trails

theorem failClassA_trails (s : State) (it : Item) (code : BitVec 16) : Trails s (s.failClassA it code) :=
  (((classAStatus_trails s it).trans (dropRun_trails _ _)).trans (answerClassA_trails _ _ _ _ _)).trans (removeItem_trails _ _)

/-- What unloading takes from the lists, once the job's items and records have gone. -/
theorem unload_trails (s : State) (id : BitVec 64) : Trails s (s.unload id) := by
  unfold State.unload
  split
  · exact .refl s
  · split
    · exact .refl s
    · next j _ _ =>
      lift_lets
      intro s1 owned s2 flowIn tabIn fed s3
      have items : Trails s s1 := .foldl (fun s (it : Item) => removeItem_trails s it.key) _ s
      have freed : Trails s1 s2 := .foldl (fun s (e : Nat × Alloc) => (freeAlloc_itemsOnly s (BitVec.ofNat 16 e.1)).trails) owned s1
      have all := items.trans freed
      exact ⟨all.sent, all.meter, all.bytes, fun k hk => all.jobs k (List.mem_of_mem_filter hk)⟩

theorem stopJob_trails (s : State) (id : BitVec 64) (code : BitVec 16) : Trails s (s.stopJob id code) := by
  unfold State.stopJob
  split
  · exact .refl s
  next j hj =>
    split
    · exact .refl s
    · refine .trans (.trans ?_ (.foldl (fun s (it : Item) => ?_) _ _)) (unload_trails _ _)
      · have marked : Trails s ((s.setJob { j with stopped := some code, finalSent := true }).faultCode code id.toNat) :=
          (setJob_trails s (j := j) (k := { j with stopped := some code, finalSent := true }) (List.mem_of_find?_eq_some hj) rfl).trans
            (faultCode_trails _ _ _)
        split
        · exact marked
        · exact marked.trans (complete_trails _ _ _ _ _ _)
      · split
        · exact failClassA_trails s it code
        · exact (dropRun_trails s _).trans (removeItem_trails _ _)

theorem checkJobEnd_trails (s : State) (id : BitVec 64) : Trails s (s.checkJobEnd id) := by
  unfold State.checkJobEnd
  split
  · exact .refl s
  next j hj =>
    lift_lets
    intro work batches lost done final closed
    have marked : Trails s final := setJob_trails s (j := j) (List.mem_of_find?_eq_some hj) rfl
    have ended : Trails s closed := by
      dsimp only [closed]
      split
      · exact marked
      · exact marked.trans (complete_trails _ _ _ _ _ _)
    split
    · exact .refl s
    · split
      · exact .refl s
      · clear_value lost
        cases lost with
        | some code => exact stopJob_trails s id code
        | none => exact ended.trans (unload_trails _ _)

end Sys2Proof.Machine

/-! ### A due batch leaves (R221, R282, R293, R398) -/

namespace Sys2Proof.Machine

open Sys2Proof

/-- The release report of batch b. -/
def State.batchReport (s : State) (j : Job) (f : FlowRun) (b : Nat) (out : Bytes) : Report :=
  { number := s.meter.nextReport, job := j.job, flow := f.decl.flow, batch := b, rows := fieldAt out 0x14 4, rewrite := b < f.rewrite }

/-- Batch b has gone out: its bytes, then its record, then its report. -/
def State.batchOut (s : State) (j : Job) (f : FlowRun) (r : Ring) (b : Nat) (out : Bytes) : State :=
  let n := batchBytes out
  let rep := s.batchReport j f b out
  let u := ((s.emit (.batch r.number (b % r.slots) b (out.take n))).emit
    (.egress r.number (egressRecord f.decl.flow r.slots b n (fieldAt out 0xFC 4)))).bump 0x442004 n
  { u with meter := { u.meter with queue := u.meter.queue ++ [rep], nextReport := rep.number + 1 },
           sent := u.sent ++ [Out.report rep] }

/-- The flow once its batch b has left; the last batch takes its ring away. -/
def State.batchGone (s : State) (j : Job) (f : FlowRun) (b : Nat) : FlowRun :=
  { f with egressed := b + 1, ring := if decide (f.decl.items ≤ s.skipOthers j f (b + 1)) then none else f.ring }

/-- The ring has batch b written. -/
def Ring.reached (r : Ring) (b : Nat) : Ring := { r with written := if r.written < b + 1 then b + 1 else r.written }

/-- The flow and its ring have moved past batch b. -/
def State.batchPassed (s : State) (j : Job) (f : FlowRun) (r : Ring) (b : Nat) : State :=
  ((s.setFlow (s.batchGone j f b)).setRing (r.reached b)).mirrorRelease (r.reached b)

/-- What follows batch b: the last one frees the ring, and the job may end. -/
def State.batchFollow (s : State) (j : Job) (f : FlowRun) (r : Ring) (b : Nat) : State :=
  let u := s.batchPassed j f r b
  let u := if decide (f.decl.items ≤ s.skipOthers j f (b + 1)) then u.dropRing (r.reached b) else u
  ((u.armRelease f.decl (b + 1)).sweep j.job).checkJobEnd j.job

theorem egressBatch_eq {s : State} {j : Job} {f : FlowRun} {r : Ring} {it : Item} (hp : s.mem.poisoned it.out it.outBytes = false) :
    s.egressBatch j f r it =
      (s.batchOut j f r it.key.seq.toNat (s.memRead it.out it.outBytes)).batchFollow j f r it.key.seq.toNat := by
  unfold State.egressBatch
  rw [hp]
  rfl

theorem batchFollow_trails (s : State) (j : Job) (f : FlowRun) (r : Ring) (b : Nat) :
    Trails (s.setFlow (s.batchGone j f b)) (s.batchFollow j f r b) := by
  have passed : Trails (s.setFlow (s.batchGone j f b)) (s.batchPassed j f r b) :=
    (setRing_trails _ _).trans (mirrorRelease_frames _ _).trails
  unfold State.batchFollow
  refine .trans (.trans ?_ (sweep_itemsOnly _ _).trails) (checkJobEnd_trails _ _)
  split
  · exact (passed.trans (dropRing_trails _ _)).trans (armRelease_trails _ _ _)
  · exact passed.trans (armRelease_trails _ _ _)

theorem setFlow_flows {k : Job} {r x : FlowRun} (hx : x ∈ (k.setFlow r).flows) (hflow : x.decl.flow = r.decl.flow) : x = r := by
  obtain ⟨y, -, rfl⟩ := List.mem_map.mp hx
  split at hflow
  next h => exact if_pos h
  next h => exact absurd hflow h

/-- While a flow that was set stays listed, it stays as it was set. -/
theorem Trails.flow? {s t : State} {g : FlowRun} (h : Trails (s.setFlow g) t) {j : Job} {f : FlowRun}
    (hf : t.flow? g.decl.flow = some (j, f)) : f = g := by
  obtain ⟨hflow, hj, hfind⟩ := flow?_found hf
  obtain ⟨k, hk, hflows⟩ := h.jobs j hj
  obtain ⟨i, -, rfl⟩ := List.mem_map.mp hk
  exact setFlow_flows (hflows ▸ List.mem_of_find?_eq_some hfind) hflow

section
variable {s : State} {flow : BitVec 20} {j : Job} {f : FlowRun} {q : Nat} {it : Item} {r : Ring}
variable (hflow : s.flow? flow = some (j, f)) (ht : f.decl.trigger ≠ 3) (hm : j.modules = [s.straps.modid]) (hq : f.egressed = q)
  (hi : s.item? (keyOf flow q) = some it) (hr : s.flowRing? f = some r)
include hflow ht hm hq hi hr

/-- What lets the flow's next batch go. -/
theorem egressReady_eq : s.egressReady flow =
    if s.working && f.decl.batch && !f.stopped && j.stopped.isNone && it.phase = .released &&
        releaseReel f.decl q ≤ s.hb.reel.toNat && q < r.finished + r.slots && s.mirrorCovers r q &&
        s.meter.queue.length < 4096 && !s.leaseStopped 1 (flow.setWidth 32) && !(r.rkey = 0 && s.rst.hostReset) &&
        !s.fab.stopped
    then some (j, f, r, it) else none := by
  obtain ⟨rfl, -, -⟩ := flow?_found hflow
  unfold State.egressReady
  rw [hflow]
  dsimp only
  rw [skipOthers_alone ht hm, hq, hi, hr]

theorem egressReady_waits (h : s.hb.reel.toNat < releaseReel f.decl q ∨ r.finished + r.slots ≤ q ∨ 4096 ≤ s.meter.queue.length) :
    s.egressReady flow = none := by
  rw [egressReady_eq hflow ht hm hq hi hr]
  refine if_neg fun hall => ?_
  simp only [Bool.and_eq_true, decide_eq_true_eq] at hall
  omega

theorem egressReady_goes (hjs : j.stopped = none) (hfs : f.stopped = false) (hb : f.decl.batch = true) (hp : it.phase = .released)
    (hdue : releaseReel f.decl q ≤ s.hb.reel.toNat) (hslot : q < r.finished + r.slots) (hrep : s.meter.queue.length < 4096)
    (hmir : s.mirrored = false ∨ q < r.slots) (htwin : s.twin.state ≠ .detaching) (hlease : s.leaseStopped 1 (flow.setWidth 32) = false)
    (hhost : r.rkey ≠ 0 ∨ s.rst.hostReset = false) (hfab : s.fab.stopped = false) : s.egressReady flow = some (j, f, r, it) := by
  have covers : s.mirrorCovers r q = true := by
    unfold State.mirrorCovers
    rcases hmir with h | h <;> simp [h]
  have reached : (decide (r.rkey = 0) && s.rst.hostReset) = false := by
    rcases hhost with h | h
    · rw [decide_eq_false h, Bool.false_and]
    · rw [h, Bool.and_false]
  rw [egressReady_eq hflow ht hm hq hi hr]
  rw [reached, hlease, covers, hfab, hb, hfs, hjs]
  exact if_pos (by simp [State.working, htwin, hp, hdue, hslot, hrep])

end

theorem exec_batchEgress_waits {s : State} {flow : BitVec 20} (h : s.egressReady flow = none) :
    exec (.batchEgress flow) s = .next s := by
  have same : s.egressNext flow = s := by rw [State.egressNext, h]
  exact congrArg Host.Outcome.next same

theorem exec_batchEgress_goes {s : State} {flow : BitVec 20} {j : Job} {f : FlowRun} {r : Ring} {it : Item}
    (h : s.egressReady flow = some (j, f, r, it)) (hp : s.mem.poisoned it.out it.outBytes = false) :
    exec (.batchEgress flow) s = .next
      ((s.batchOut j f r it.key.seq.toNat (s.memRead it.out it.outBytes)).batchFollow j f r it.key.seq.toNat) := by
  have goes : s.egressNext flow = s.egressBatch j f r it := by rw [State.egressNext, h]
  exact congrArg Host.Outcome.next (goes.trans (egressBatch_eq hp))

theorem batchBytes_eq {out : Bytes} {n : Nat} (h : out.length = n) : batchBytes out =
    if fieldAt out 0 4 = 0x31425644 ∧ 0x100 ≤ fieldAt out 0x44 4 ∧ fieldAt out 0x44 4 ≤ n then fieldAt out 0x44 4 else n := by
  simp [batchBytes, h, and_assoc]

theorem batchOut_sent (s : State) (j : Job) (f : FlowRun) (r : Ring) (b : Nat) (out : Bytes) :
    (s.batchOut j f r b out).sent = s.sent ++ [.batch r.number (b % r.slots) b (out.take (batchBytes out)),
      .egress r.number (egressRecord f.decl.flow r.slots b (batchBytes out) (fieldAt out 0xFC 4)),
      .report (s.batchReport j f b out)] := by
  simp [State.batchOut, State.emit]

theorem batchOut_modVal (s : State) (j : Job) (f : FlowRun) (r : Ring) (b : Nat) (out : Bytes) :
    (s.batchOut j f r b out).modVal 0x442004 0 = s.modVal 0x442004 0 + batchBytes out := by
  refine (modVal_bump _ 0x442004 _ 0x442004).trans ?_
  rw [if_pos rfl]
  rfl

/-- The batch, its record and its report leave in this order, and the flow owes the next batch. -/
theorem batchFollow_leaves (s : State) (j : Job) (f : FlowRun) (r : Ring) (b : Nat) (out : Bytes) :
    let t := (s.batchOut j f r b out).batchFollow j f r b
    ∃ rest, t.sent = (s.batchOut j f r b out).sent ++ rest ∧
      t.meter.queue = s.meter.queue ++ [s.batchReport j f b out] ∧ t.modVal 0x442004 0 = s.modVal 0x442004 0 + batchBytes out ∧
      ∀ f', (t.flow? f.decl.flow).map (·.2) = some f' → f'.egressed = b + 1 := by
  have trails := batchFollow_trails (s.batchOut j f r b out) j f r b
  obtain ⟨rest, hrest⟩ := trails.sent
  refine ⟨rest, hrest.symm, congrArg Meter.queue trails.meter, trails.bytes.trans (batchOut_modVal s j f r b out), fun f' hf => ?_⟩
  obtain ⟨⟨k, g⟩, hfound, rfl⟩ := Option.map_eq_some_iff.mp hf
  have same : g = (s.batchOut j f r b out).batchGone j f b := trails.flow? hfound
  rw [same]
  rfl

theorem Memory.length_read (m : Memory) (a n : Nat) : (m.read a n).length = n := by
  induction n generalizing a with
  | zero => rfl
  | succ n ih => exact congrArg Nat.succ (ih (a + 1))

theorem memRead_length (s : State) (a n : Nat) : (s.memRead a n).length = n := Memory.length_read ..

section
variable {s : State} {flow : BitVec 20} {seq : BitVec 40} {j : Job} {f : FlowRun} {it : Item} {r : Ring}
variable (hflow : s.flow? flow = some (j, f)) (ht : f.decl.trigger ≠ 3) (hm : j.modules = [s.straps.modid])
  (hq : f.egressed = seq.toNat) (hi : s.item? { flow := flow, seq := seq } = some it) (hr : s.flowRing? f = some r)
include hflow ht hm hq hi hr

/-- A batch that is not due, whose slot is not free or whose report has no place waits. -/
theorem batchEgress_waits
    (h : s.hb.reel.toNat < releaseReel f.decl seq.toNat ∨ r.finished + r.slots ≤ seq.toNat ∨ 4096 ≤ s.meter.queue.length) :
    exec (.batchEgress flow) s = .next s :=
  exec_batchEgress_waits (egressReady_waits hflow ht hm hq (by rwa [keyOf_toNat]) hr h)

/-- A released batch that is due leaves. -/
theorem batchEgress_goes (hjs : j.stopped = none) (hfs : f.stopped = false) (hb : f.decl.batch = true) (hp : it.phase = .released)
    (hdue : releaseReel f.decl seq.toNat ≤ s.hb.reel.toNat) (hslot : seq.toNat < r.finished + r.slots)
    (hrep : s.meter.queue.length < 4096) (hmir : s.mirrored = false ∨ seq.toNat < r.slots) (htwin : s.twin.state ≠ .detaching)
    (hlease : s.leaseStopped 1 (flow.setWidth 32) = false) (hhost : r.rkey ≠ 0 ∨ s.rst.hostReset = false)
    (hfab : s.fab.stopped = false) (hpoison : s.mem.poisoned it.out it.outBytes = false) :
    ∃ t rest, exec (.batchEgress flow) s = .next t ∧
      t.sent = (s.batchOut j f r seq.toNat (s.memRead it.out it.outBytes)).sent ++ rest ∧
      t.meter.queue = s.meter.queue ++ [s.batchReport j f seq.toNat (s.memRead it.out it.outBytes)] ∧
      t.modVal 0x442004 0 = s.modVal 0x442004 0 + batchBytes (s.memRead it.out it.outBytes) ∧
      ∀ f', (t.flow? flow).map (·.2) = some f' → f'.egressed = seq.toNat + 1 := by
  have ready := egressReady_goes hflow ht hm hq (by rwa [keyOf_toNat]) hr hjs hfs hb hp hdue hslot hrep hmir htwin hlease hhost hfab
  have run := exec_batchEgress_goes ready hpoison
  obtain ⟨rfl, -, -⟩ := flow?_found hflow
  rw [item?_key hi] at run
  obtain ⟨rest, leaves⟩ := batchFollow_leaves s j f r seq.toNat (s.memRead it.out it.outBytes)
  exact ⟨_, rest, run, leaves⟩

end

end Sys2Proof.Machine

/-! ### The consumer's index (R221, R222) -/

namespace Sys2Proof.Machine

open Sys2Proof

/-- A count within what the ring has finished and what was written moves the ring's index; any other is logged. -/
def Indexed (s t : State) (r : Ring) (n count : Nat) : Prop :=
  if r.finished ≤ count ∧ count ≤ r.written then
    { r with finished := count } ∈ t.hb.rings ∧ (∀ x ∈ s.hb.rings, x.same r = false → x ∈ t.hb.rings) ∧
      t.hb.items = s.hb.items ∧ t.mem = s.mem
  else t = { s with dict := { s.dict with eventLog := s.dict.eventLog ++ [(0x0815, n)] } }

theorem mem_setRing {s : State} {r r' : Ring} (hr : r ∈ s.hb.rings) (hsame : r.same r' = true) : r' ∈ (s.setRing r').hb.rings :=
  List.mem_map.mpr ⟨r, hr, if_pos hsame⟩

theorem mem_setRing_other {s : State} {x r : Ring} (hx : x ∈ s.hb.rings) (hother : x.same r = false) : x ∈ (s.setRing r).hb.rings :=
  List.mem_map.mpr ⟨x, hx, if_neg (by simp [hother])⟩

theorem takeIndex_indexed {s : State} {r : Ring} (hr : r ∈ s.hb.rings) (n count : Nat) :
    Indexed s (s.takeIndex (some r) n count) r n count := by
  unfold Indexed State.takeIndex
  dsimp only
  split
  next hin =>
    rw [if_neg (by simpa using hin)]
    split
    next hsame =>
      subst hsame
      exact ⟨hr, fun x hx _ => hx, rfl, rfl⟩
    · have frames := mirrorRelease_frames (s.setRing { r with finished := count }) { r with finished := count }
      rw [frames.hb, frames.mem]
      exact ⟨mem_setRing hr (by simp [Ring.same]), fun x hx hother => mem_setRing_other hx hother, rfl, rfl⟩
  next hout =>
    rw [if_pos (by simp; omega)]
    rfl

theorem hostRing?_mem {s : State} {n : Nat} {r : Ring} (h : s.hostRing? n = some r) : r ∈ s.hb.rings := by
  unfold State.hostRing? at h
  split at h
  next found =>
    cases h
    exact List.mem_of_find?_eq_some found
  · exact List.mem_of_find?_eq_some h

theorem fabricRing?_mem {s : State} {qp : BitVec 16} {n : Nat} {r : Ring} (h : s.fabricRing? qp n = some r) : r ∈ s.hb.rings := by
  unfold State.fabricRing? at h
  split at h
  next found =>
    cases h
    obtain ⟨q, -, hq⟩ := Option.bind_eq_some_iff.mp found
    exact List.mem_of_find?_eq_some hq
  · exact List.mem_of_find?_eq_some h

/-- The host writes the index at its doorbell. -/
theorem egressIndex_doorbell {s : State} {n : BitVec 12} {count : BitVec 64} {r : Ring} (hboot : s.rst.boot = .ready)
    (hhost : s.rst.hostReset = false) (hr : s.hostRing? n.toNat = some r) :
    ∃ t, exec (.egressIndex (.doorbell n count)) s = .next t ∧ Indexed s t r n.toNat count.toNat := by
  refine ⟨_, ?_, takeIndex_indexed (hostRing?_mem hr) n.toNat count.toNat⟩
  rw [← hr]
  exact congrArg Host.Outcome.next (if_neg (by simp [State.up, hboot, hhost]))

/-- A consumer elsewhere sends the index. -/
theorem egressIndex_message {s : State} {n : BitVec 12} {count : BitVec 64} {r : Ring} {m : Msg} (hacc : Accepts s 0x21 m 8)
    (hpart : m.part.toNat = n.toNat) (hcount : m.rsv.toNat = count.toNat) (hr : s.fabricRing? m.qp n.toNat = some r) :
    ∃ t, exec (.egressIndex (.message m)) s = .next t ∧ Indexed s t r n.toNat count.toNat := by
  refine ⟨_, ?_, takeIndex_indexed (fabricRing?_mem hr) n.toNat count.toNat⟩
  have carried : (m.rsv.setWidth 64).toNat = count.toNat := by
    rw [BitVec.toNat_setWidth, hcount, Nat.mod_eq_of_lt count.isLt]
  have taken : exec (.egressIndex (.message m)) s = .next (s.takeIndex (s.fabricRing? m.qp m.part.toNat) m.part.toNat
      (m.rsv.setWidth 64).toNat) := congrArg Host.Outcome.next (takeHbMsg_of_accepts hacc _)
  rw [taken, hpart, carried, hr]

end Sys2Proof.Machine

/-! ### The life of an item (R274 to R286) -/

namespace Sys2Proof.Machine

open Sys2Proof

/-! #### Staged -/

section
variable {s : State} {flow : BitVec 20} {seq : BitVec 40} {j : Job} {f : FlowRun} {i : InputRec}
  (hflow : s.flow? flow = some (j, f)) (htrigger : f.decl.trigger = 1) (hmay : s.mayCreate j f seq.toNat = true)
  (hnew : ∀ x ∈ f.staged, x.1 ≠ seq.toNat) (hroom : f.staged.length < f.stageMax) (hi : j.input? f.decl.producer = some i)
  {cs : List Chunk} (hcs : i.chunksOf (seq.toNat * f.decl.span) (min ((seq.toNat + 1) * f.decl.span) i.rows) = cs)
include hflow htrigger hmay hnew hroom hi hcs

theorem ingressRead_waits (hfits : f.stageFits cs = false) : exec (.ingressRead flow seq) s = .next s := by
  rw [exec_ingressRead hflow htrigger hmay hnew hroom hi hcs, hfits]
  rfl

section
variable (hfits : f.stageFits cs = true)
include hfits

theorem exec_ingressRead_fits : exec (.ingressRead flow seq) s = .next (s.ingressed j f seq.toNat cs) := by
  rw [exec_ingressRead hflow htrigger hmay hnew hroom hi hcs, hfits]
  rfl

/-- A chunk that tier C does not hold stops the job. -/
theorem ingressRead_absent (hjob : s.job? j.job = some j) (hst : s.stage j.job cs [] = none) :
    ∃ t, exec (.ingressRead flow seq) s = .next t ∧ (0x0905, j.job.toNat) ∈ t.dict.eventLog ∧
      ∀ k, t.job? j.job = some k → k.stopped = some 0x0905 := by
  have stops := stopJob_stops hjob (live_of_mayCreate hmay) 0x0905
  refine ⟨_, exec_ingressRead_fits hflow htrigger hmay hnew hroom hi hcs hfits, ?_⟩
  rw [State.ingressed, hst]
  exact ⟨stops.logged, stops.stopped⟩

theorem ingressRead_noRoom (hst : s.stage j.job cs [] = some none) : exec (.ingressRead flow seq) s = .next s := by
  rw [exec_ingressRead_fits hflow htrigger hmay hnew hroom hi hcs hfits, State.ingressed, hst]

theorem ingressRead_stages {u : State} {ins : List Input} (hst : s.stage j.job cs [] = some (some (u, ins))) :
    ∃ t, exec (.ingressRead flow seq) s = .next t ∧ t.hb.items = s.hb.items ∧
      (t.flow? flow).map (·.2) = some { f with staged := f.staged ++ [(seq.toNat, ins)] } ∧ ins.length = cs.length ∧
      ∀ (k : Nat) (x : Chunk) (b : Bytes) (inp : Input), cs[k]? = some x → ins[k]? = some inp → s.chunkBytes x = some b →
        inp.bytes = b.length ∧ t.memRead inp.addr b.length = b ∧ (t.alloc inp.alloc).live = true ∧
          (t.alloc inp.alloc).job = j.job := by
  have run := exec_ingressRead_fits hflow htrigger hmay hnew hroom hi hcs hfits
  obtain ⟨rfl, -, -⟩ := flow?_found hflow
  obtain ⟨t, ht, items, staged, chunks⟩ := ingressed_staged (q := seq.toNat) hflow hst
  refine ⟨t, ht ▸ run, items, staged, chunks.length_eq.symm, fun k x b inp hx hinp hb => ?_⟩
  obtain ⟨hk, rfl⟩ := List.getElem?_eq_some_iff.mp hx
  obtain ⟨hk', rfl⟩ := List.getElem?_eq_some_iff.mp hinp
  have holds := chunks.get hk hk' b hb
  obtain ⟨live, job, -⟩ := holds.record
  exact ⟨holds.length, holds.memRead, live, job⟩

end

end

/-! #### Made -/

section
variable {s : State} {flow : BitVec 20} {seq : BitVec 40} {j : Job} {f : FlowRun} (hflow : s.flow? flow = some (j, f))
include hflow

/-- A SOURCE item is made of what has been staged for it. -/
theorem itemCreate_source {ins : List Input} (hm : j.modules = [s.straps.modid]) (ht : f.decl.trigger = 1)
    (hmay : s.mayCreate j f seq.toNat = true) (hs : f.staged.find? (fun x => x.1 = seq.toNat) = some (seq.toNat, ins))
    (hroom : OutRoom s j f) : ∃ t it, exec (.itemCreate flow seq) s = .next t ∧
      Made s t j f seq.toNat ins (f.shard.bind s.shardCore) it :=
  exec_itemCreate_made hflow (skipOthers_alone (by simp [ht]) hm _) hmay (trigger_source ht hs) (.refl s)
    (roundFull_of_other (by simp [ht])) hroom

section
variable (hmay : s.mayCreate j { f with next := s.skipOthers j f f.next } seq.toNat = true)
include hmay

section
variable {p : FlowRun} (ht : f.decl.trigger = 2 ∨ f.decl.trigger = 4) (hp : j.flow? f.decl.producer = some p)
  (hmine : ∀ k ∈ j.producerItems f.decl seq.toNat, s.assigned j p.decl k s.straps.modid = true)
include ht hp hmine

/-- A CHAIN or COLLECT item waits for the items it reads. -/
theorem itemCreate_consumer_waits (h : ∃ x ∈ (j.producerItems f.decl seq.toNat).map (fun k => s.item? (keyOf p.decl.flow k)),
    x.all (fun it => !it.phase.done) = true) : exec (.itemCreate flow seq) s = .next s := by
  obtain ⟨x, hx, hwaits⟩ := h
  obtain ⟨k, hk, rfl⟩ := List.mem_map.mp hx
  exact exec_itemCreate_waits hflow rfl hmay ((trigger_consumer (f := { f with next := _ }) ht hp).trans
    (congrArg (Option.map _) (outputsOf_waits hmine ⟨k, hk, hwaits⟩))) (someFar_of_mine hp hmine)

/-- A CHAIN or COLLECT item is made of the outputs of the items it reads. -/
theorem itemCreate_consumer {its : List Item}
    (hits : (j.producerItems f.decl seq.toNat).map (fun k => s.item? (keyOf p.decl.flow k)) = its.map some)
    (hdone : ∀ i ∈ its, i.phase.done = true) (hroom : OutRoom s j f) : ∃ t it, exec (.itemCreate flow seq) s = .next t ∧
      Made s t j f seq.toNat (its.map (fun i => { addr := i.out, bytes := i.outBytes, alloc := i.outAlloc }))
        (f.shard.bind s.shardCore) it := by
  have other : f.decl.trigger ≠ 3 := by rcases ht with h | h <;> simp [h]
  exact exec_itemCreate_made hflow rfl hmay ((trigger_consumer (f := { f with next := _ }) ht hp).trans
    (congrArg (Option.map _) (outputsOf_accepted hmine hits hdone))) (.refl s) (roundFull_of_other other) hroom

end

section
variable {e : ExchRec} {x : Exch} (ht : f.decl.trigger = 3) (he : j.exch? f.decl.producer = some e)
  (hx : s.exch? j.job f.decl.producer = some x)
include ht he hx

/-- A ROUND item waits until the rows of its round are complete. -/
theorem itemCreate_round_waits (h : ¬ RoundReady s j e x seq.toNat) : exec (.itemCreate flow seq) s = .next s :=
  exec_itemCreate_waits hflow rfl hmay (trigger_round_waits (f := { f with next := _ }) ht he hx h)
    (someFar_of_other (f := { f with next := _ }) (by simp [ht]))

section
variable {rows : Bytes} (hready : RoundReady s j e x seq.toNat)
  (hrows : (x.staged.filter (fun t => decide (t.part = seq.toNat % e.parts) && decide (t.round = seq.toNat / e.parts))).flatMap
    (·.bytes) = rows)
include hready hrows

omit hflow hmay in
theorem trigger_round_empty (h : rows = []) :
    s.trigger j { f with next := s.skipOthers j f f.next } seq.toNat = some (s, [], some (partVat (seq.toNat % e.parts))) :=
  (trigger_round (f := { f with next := _ }) ht he hx hready hrows).trans (if_pos h)

/-- A round of more rows than its part holds stops the job. -/
theorem itemCreate_round_full (hjob : s.job? j.job = some j) (h : rows = []) (hfull : s.roundFull j f.decl seq.toNat = true) :
    ∃ t, exec (.itemCreate flow seq) s = .next t ∧ (0x0402, j.job.toNat) ∈ t.dict.eventLog ∧
      ∀ k, t.job? j.job = some k → k.stopped = some 0x0402 :=
  have stops := stopJob_stops hjob (live_of_mayCreate hmay) 0x0402
  ⟨_, exec_itemCreate_full hflow rfl hmay (trigger_round_empty ht he hx hready hrows h) hfull, stops.logged, stops.stopped⟩

/-- A ROUND item without rows is made on the Vat of its part. -/
theorem itemCreate_round_empty (h : rows = []) (hfull : s.roundFull j f.decl seq.toNat = false) (hroom : OutRoom s j f) :
    ∃ t it, exec (.itemCreate flow seq) s = .next t ∧
      Made s t j f seq.toNat [] (some (partVat (seq.toNat % e.parts))) it :=
  exec_itemCreate_made hflow rfl hmay (trigger_round_empty ht he hx hready hrows h) (.refl s) hfull hroom

/-- A ROUND item is made of its rows, on the Vat of its part. -/
theorem itemCreate_round_rows {num : BitVec 16} {base : Nat} {u : State} (h : rows ≠ [])
    (halloc : s.newAlloc j.job false false (roundUpTo rows.length 64) = some (num, base, u))
    (hfull : s.roundFull j f.decl seq.toNat = false) (hroom : OutRoom (u.memWrite base rows) j f) :
    ∃ t it, exec (.itemCreate flow seq) s = .next t ∧
      Made s t j f seq.toNat [{ addr := base, bytes := rows.length, alloc := num }] (some (partVat (seq.toNat % e.parts))) it := by
  have ready := trigger_round (f := { f with next := s.skipOthers j f f.next }) ht he hx hready hrows
  rw [if_neg h, halloc, Option.map_some] at ready
  exact exec_itemCreate_made hflow rfl hmay ready ((newAlloc_newRecord halloc).only.trans (memWrite_allocOnly u base rows)) hfull hroom

end

end

end

end

/-! #### Placed -/

section
variable {s : State} {flow : BitVec 20} {seq : BitVec 40} {j : Job} {f : FlowRun} {it : Item} {a c : CoreId}
  (hflow : s.flow? flow = some (j, f)) (hi : s.item? { flow := flow, seq := seq } = some it) (hm : s.mayDispatch it = true)
  (hlast : f.lastCore = none)

include hflow hi hlast in
theorem noLastCore : ∀ o, s.flow? it.key.flow = some o → o.2.lastCore = none := by
  rw [item?_key hi]
  intro o ho
  cases hflow.symm.trans ho
  exact hlast

include hi in
theorem own_item? : s.item? it.key = some it := item?_key hi ▸ hi

variable (hcls : it.cls ≠ 0) (ha : it.affinity = some a)
include hflow hi hm hlast hcls ha

/-- A core of the item's own Vat is given the item. -/
theorem exec_itemDispatch_taken (hc : s.takerIn it a.vat = some c) : exec (.itemDispatch flow seq) s = .next (s.give it c) := by
  obtain ⟨htake, hvat⟩ := takerIn_found hc
  have own : s.affinityVat it = a.vat := affinityVat_of_open hcls ha (hvat ▸ open_of_mayTake htake)
  rw [exec_itemDispatch hi hm, place_taken (noLastCore hflow hi hlast) (own.symm ▸ hc)]

theorem itemDispatch_starts (hc : s.takerIn it a.vat = some c) (hpull : s.hb.pull = false) :
    ∃ t, exec (.itemDispatch flow seq) s = .next t ∧ Started s t it c := by
  refine ⟨_, exec_itemDispatch_taken hflow hi hm hlast hcls ha hc, ?_⟩
  rw [give_push hpull]
  exact startOn_started (own_item? hi) c

/-- In PULL it goes into the core's local slot. -/
theorem itemDispatch_slot (hc : s.takerIn it a.vat = some c) (hpull : s.hb.pull = true) :
    ∃ t, exec (.itemDispatch flow seq) s = .next t ∧
      t = { s with hb := { s.hb with items := t.hb.items, slots := s.hb.slots ++ [(c, { flow := flow, seq := seq })],
                                     queued := s.hb.queued.filter (fun x => x.2 ≠ { flow := flow, seq := seq }) } } ∧
      t.item? { flow := flow, seq := seq } = some { it with phase := .queued } := by
  refine ⟨_, exec_itemDispatch_taken hflow hi hm hlast hcls ha hc, ?_⟩
  rw [give_pull hpull, ← item?_key hi]
  exact ⟨rfl, intoSlot_item? (own_item? hi) c⟩

theorem itemDispatch_queues (hc : ∀ d, s.mayTake it d = false) : ∃ t v, exec (.itemDispatch flow seq) s = .next t ∧
    t = { s with hb := { s.hb with items := t.hb.items, queued := s.hb.queued ++ [(v, { flow := flow, seq := seq })] } } ∧
    t.item? { flow := flow, seq := seq } = some { it with phase := .queued } ∧ (s.vatClosed a.vat = false → v = a.vat) ∧
    ((∃ u, s.vatClosed u = false) → s.vatClosed v = false) := by
  have last := noLastCore hflow hi hlast
  refine ⟨_, s.affinityVat it, exec_itemDispatch hi hm, ?_⟩
  rw [place_queued last hcls hc, ← item?_key hi]
  exact ⟨rfl, intoQueue_item? (own_item? hi) _, affinityVat_of_open hcls ha, affinityVat_open hcls ha last⟩

end

/-! #### Taken by a core -/

section
variable {s : State} {c : CoreId} {it : Item}

theorem coreIdle_starts (hidle : s.idle c = true) (hwork : s.twin.state ≠ .detaching) (hpull : s.hb.pull = false)
    (hnext : s.nextFor c = some it) : ∃ t, exec (.coreIdle c) s = .next t ∧ Started s t it c :=
  ⟨_, exec_coreIdle_push hidle hwork hpull hnext, startOn_started (nextFor_item? hnext) c⟩

theorem coreIdle_slot {key : ItemKey} (hidle : s.idle c = true) (hwork : s.twin.state ≠ .detaching) (hpull : s.hb.pull = true)
    (hslot : s.hb.slots.find? (fun x => x.1 = c) = some (c, key)) (hi : s.item? key = some it) (hsuits : s.suits it c = true) :
    ∃ t, exec (.coreIdle c) s = .next t ∧ (t.core c).active = true ∧ (t.core c).item = some key ∧
      (t.core c).pc = BitVec.ofNat 64 it.entry ∧ ∀ d, d ≠ c → t.core d = s.core d := by
  refine ⟨_, exec_coreIdle_pull hidle hwork hpull hslot hi, ?_⟩
  have core := refill_startOn_core s it c
  rw [if_pos hsuits, (core c).trans (if_pos rfl), ← item?_key hi]
  exact ⟨rfl, rfl, rfl, fun d hd => (core d).trans (if_neg hd)⟩

theorem coreIdle_slot_returns {key : ItemKey} (hidle : s.idle c = true) (hwork : s.twin.state ≠ .detaching)
    (hpull : s.hb.pull = true) (hslot : s.hb.slots.find? (fun x => x.1 = c) = some (c, key)) (hi : s.item? key = some it)
    (hsuits : s.suits it c = false) : exec (.coreIdle c) s = .next { s with hb := { s.hb with
      slots := s.hb.slots.filter (fun x => x.1 ≠ c), queued := (c.vat, key) :: s.hb.queued } } := by
  rw [exec_coreIdle_pull hidle hwork hpull hslot hi, if_neg (by simp [hsuits]), ← item?_key hi]
  rfl

theorem stealUs_starts {flow : BitVec 20} {seq : BitVec 40} (hi : s.item? { flow := flow, seq := seq } = some it)
    (hq : ∃ x ∈ s.hb.queued, x.2 = { flow := flow, seq := seq }) (hc : s.mayTake it c = true)
    (hown : ∀ x ∈ s.hb.queued, x.1 ≠ c.vat) (hwork : s.twin.state ≠ .detaching) (hpull : s.hb.pull = false) :
    ∃ t, exec (.stealUs flow seq c) s = .next t ∧ Started s t it c := by
  refine ⟨_, exec_stealUs hi (item?_key hi ▸ hq) hc hown hwork, ?_⟩
  rw [give_push hpull]
  exact startOn_started (own_item? hi) c

end

end Sys2Proof.Machine

/-! ### O32: a work item from ingress to egress -/

namespace Sys2Proof.Machine

open Sys2Proof

/-- Settles O32: ITEM_CREATE, placement, release and egress each by what its command does when its own conditions hold. -/
theorem itemLife : Obligations.ItemLife := by
  intro s flow seq c q key now makes
  refine ⟨fun j f hflow hjob => ⟨?ingress, ?source, fun hmay => ⟨?consumer, ?round⟩, ?dispatch, ?release, ?egress⟩,
    ?idle, ?steal, ?index⟩
  case ingress =>
    intro i ht hmay hnew hroom hi chunks
    refine ⟨ingressRead_waits hflow ht hmay hnew hroom hi rfl, fun hfits => ?_⟩
    split
    next hst => exact ingressRead_absent hflow ht hmay hnew hroom hi rfl hfits hjob hst
    next hst => exact ingressRead_noRoom hflow ht hmay hnew hroom hi rfl hfits hst
    next hst => exact ingressRead_stages hflow ht hmay hnew hroom hi rfl hfits hst
  case source => exact fun ins hm ht hmay hs hroom => itemCreate_source hflow hm ht hmay hs hroom
  case consumer =>
    intro p ht hp hmine made
    exact ⟨itemCreate_consumer_waits hflow hmay ht hp hmine, fun its => itemCreate_consumer hflow hmay ht hp hmine⟩
  case round =>
    intro e x ht he hx here rows vat ready
    exact ⟨itemCreate_round_waits hflow hmay ht he hx,
      fun hready hrows hfull => itemCreate_round_full hflow hmay ht he hx hready rfl hjob hrows hfull,
      fun hready hrows hfull hroom => itemCreate_round_empty hflow hmay ht he hx hready rfl hrows hfull hroom,
      fun num base u hready hrows halloc hfull hroom => itemCreate_round_rows hflow hmay ht he hx hready rfl hrows halloc hfull hroom⟩
  case dispatch =>
    intro it a hi hm hcls ha hlast
    exact ⟨itemDispatch_starts hflow hi hm hlast hcls ha, itemDispatch_slot hflow hi hm hlast hcls ha,
      itemDispatch_queues hflow hi hm hlast hcls ha⟩
  case release =>
    intro it hstop hcls hbatch ht hm hfstop hq hegressed howes hi hphase hnext hagain
    exact itemRelease_one hflow hjob hstop hcls hbatch ht hm hfstop hq hegressed howes hi hphase hnext hagain
  case egress =>
    intro it r n hm ht hstop hfstop hbatch hq hi hphase hr hn due out size bytes
    refine ⟨batchEgress_waits hflow ht hm hq hi hr, ?_⟩
    intro hdue hslot hrep hmir htwin hlease hhost hfab hpoison rep
    obtain ⟨t, rest, run, sent, queue, count, gone⟩ :=
      batchEgress_goes hflow ht hm hq hi hr hstop hfstop hbatch hphase hdue hslot hrep hmir htwin hlease hhost hfab hpoison
    have length := batchBytes_eq (memRead_length s it.out it.outBytes)
    obtain ⟨hid, -, -⟩ := flow?_found hflow
    rw [batchOut_sent, length, hn, hid] at sent
    rw [length] at count
    rw [State.batchReport, hid] at sent queue
    exact ⟨t, rest, run, sent, queue, count, gone⟩
  case idle =>
    intro hidle hwork
    exact ⟨fun hpull => ⟨fun x xs hx => coreIdle_starts hidle hwork hpull (nextFor_classA hx),
        fun it => coreIdle_starts hidle hwork hpull⟩,
      fun it hpull hslot hi => ⟨coreIdle_slot hidle hwork hpull hslot hi, coreIdle_slot_returns hidle hwork hpull hslot hi⟩⟩
  case steal => exact fun it hi hq hc hown hwork hpull => stealUs_starts hi hq hc hown hwork hpull
  case index =>
    intro r n count m hboot writes
    exact ⟨egressIndex_doorbell hboot, egressIndex_message⟩

end Sys2Proof.Machine
